-- ==== Sys2Proof/Word.lean ====
section
/-! DEFINITION. The word types of the model and the shape of its sparse maps. -/

namespace Sys2Proof

/-- A 64-bit register or table word (R45: a 64-bit access is single-copy atomic). -/
abbrev W64 := BitVec 64

/-- One byte of memory, of a payload or of a wire. -/
abbrev Byte := BitVec 8

/-- A run of bytes, byte 0 first (R11). -/
abbrev Bytes := List Byte

/-- Sparse data by key, in one canonical form: keys strictly rising and no entry equal to what an unlisted key
reads as. `Machine/Maps.lean` holds its operations. -/
abbrev SMap (α : Type) := List (Nat × α)

end Sys2Proof
end

