-- ==== Sys2Proof/Syntax.lean ====
section
/-! DEFINITION. The commands of the block: one constructor of `Instr` per row of the opcode table, and the operand
types they carry. -/

namespace Sys2Proof

/-- What a message asks or answers: the content of its protocol header. The byte layout of CXL headers is CXL's and
not the spec's, so the model holds the content; `Config.cellsBody` and `Config.bodyCells` relate it to cell bytes. -/
inductive MOp
  -- M2S (Table 10-3, host column)
  | memRdData | memRdInv | memInv | memRdCur | memRdNoOp
  | memWr | memWrPtl | memWrI | memWrS | memClnEvct
  -- D2H (Table 10-3, CXL.cache column)
  | rdShared | rdAny | rdOwn | rdOwnNoData | rdCurr | itoMWr | wrCur | cMemWr
  | dirtyEvict | cleanEvict | cleanEvictNoData
  -- other sources (Table 10-3)
  | svcRd | svcWr | svcAtom | ioRd | ioWr | ioAtom
  -- snoops received from a line's target
  | bisInv | bisData | bisCur
  -- snoops the home sends (R352), remote snoops (R340), their answers
  | snpData | snpInv | snpCur | rSnpData | rSnpInv | rSnpCur
  | ansI | ansS | ansE
  -- answers of a target and completions of a requester
  | tgtData | tgtDone | tgtFail | cplData | cplDone | cplFail
  -- answers to a target's snoop (R371)
  | biRspI | biRspS
  -- CXL.io
  | cfgRd | cfgWr | ioMsg | ioCpl | ioUr
  -- notices (R335, R396, R586)
  | removalNotice | quenchNotice | agentRemoved
  -- a GPF phase and its answer, and a reset, between an UPSTREAM port and a target on another device (R140, R145)
  | gpfAsk | gpfAns | rstAsk | fnMsi
  -- an unordered I/O request (R129)
  | uio
  -- a CXL.cache request or answer passed through (R127)
  | cacheOther
  deriving DecidableEq, Repr, Inhabited

/-- The content of a message. -/
structure Body where
  op : MOp := .ioMsg
  /-- byte address: HPA as received at a port, DPA once decoded -/
  addr : Nat := 0
  /-- transaction tag of the requester -/
  tag : Nat := 0
  /-- LD-ID carried on an MLD link -/
  ld : Nat := 0
  /-- byte enables of a line, bit i for byte i -/
  be : Nat := 0
  data : Bytes := []
  /-- state granted: 0 I, 1 S, 2 E, 3 M (R371) -/
  st : Nat := 0
  /-- coherent agent concerned -/
  agent : Nat := 0
  /-- target key of a homed line (R347) -/
  tk : Nat := 0
  /-- further operand: an atomic's operation, a notice's domain -/
  arg : Nat := 0
  /-- TC of a TLP (Table 8-1) -/
  tc : Nat := 0
  /-- header bytes of a TLP (R130) -/
  hdrLen : Nat := 16
  /-- ECRC of a TLP that has one: whether it checks (R129) -/
  ecrc : Option Bool := none
  deriving DecidableEq, Repr, Inhabited

/-- An access to the management PF's own configuration space or MSI-X table (R39, R64). -/
inductive MsixWr
  /-- one vector's address, data and mask -/
  | vector (v addr data : Nat) (masked : Bool)
  /-- MSI-X Enable, Function Mask, Bus Master Enable -/
  | control (enable fnMask busMaster : Bool)
  /-- a dword of configuration space is written, is read; a dword of BAR2 is read (byte offsets) -/
  | config (off val : Nat)
  | readConfig (off : Nat)
  | readTable (off : Nat)
  deriving DecidableEq, Repr

/-- What a checker met in the bank's transfer (R240, R241, R209, R254); the requester whose request has bad parity (R268). -/
inductive BankErr
  | none | ce | ueData | ueSide | listLost | parity | slotUe | reqParity (r : Nat) | freeUe
  deriving DecidableEq, Repr

/-- What a crossing met: an express-crossbar beat's parity error, a fault of the die's bridge interface (R25, R245). -/
inductive CrossErr
  | none | parity | bridge
  deriving DecidableEq, Repr

/-- A destination's choice (R225), and whether the die's bridge interface met a fault on the way (R25, R245). -/
structure Selection where
  dest : Nat
  bridge : Bool := false
  deriving DecidableEq, Repr

/-- The sources that present a cell at once (R216, R232), and what their crossing met. -/
structure Presented where
  srcs : List Nat
  err : CrossErr := .none
  deriving DecidableEq, Repr

/-- The source whose held head is tried again (R221), and what its crossing met. -/
structure HeldRetry where
  src : Nat
  err : CrossErr := .none
  deriving DecidableEq, Repr

/-- How a CXL port's lanes come up in training (R84 to R90, R101), lanes by their place in Table 3-1's order: those on which
Detect finds no receiver, those that do not lock, those whose pair is swapped, whether the partner's lanes come in reversed
order, and, by rate code, the presets that full equalisation reached. -/
structure CxlLanes where
  absent : List Nat := []
  unlocked : List Nat := []
  swapped : List Nat := []
  reversed : Bool := false
  presets : List (Nat × List Nat) := []
  deriving DecidableEq, Repr

/-- What a CXL port's training meets (R77, R84): its lanes, the rate codes the partner advertises, and whether the partner
too offers equalisation bypass. -/
structure CxlTrain extends CxlLanes where
  rates : List Nat := [1, 2, 3, 4, 5, 6, 7]
  bypass : Bool := true
  deriving DecidableEq, Repr

/-- A retrain with cached values that has failed: its port, and the rate code it was for (R87). -/
structure EqRetrain where
  port : Nat
  rate : Nat
  deriving DecidableEq, Repr

/-- A CXL port goes to Recovery (R148), perhaps because its replay limit was reached (R153). -/
structure RecoveryEvent where
  port : Nat
  exhaust : Bool := false
  deriving DecidableEq, Repr

/-- A Dunrun octet's lanes have found their marks (R100), with this greatest skew between them, in PAM4 symbols
(R104; log entry 82). -/
structure Aligned where
  octet : Nat
  skew : Nat := 0
  deriving DecidableEq, Repr

/-- A margining command of a port's partner (R105): a parameter of Table 3-9 is asked for (0 timing steps, 1 greatest timing
offset in 1/100 UI, 2 voltage steps, 3 independent directions), a run at an offset, the error count cleared, or normal
settings. -/
inductive MarginCmd
  | report (param : Nat)
  | step (voltage right : Bool) (steps limit : Nat)
  | clearErrors
  | normal
  deriving DecidableEq, Repr

/-- A margining command and the lane it names (R105, R106). -/
structure LaneMargin where
  lane : Nat
  cmd : MarginCmd
  deriving DecidableEq, Repr

/-- What IDE key management at a port meets (R565, R566): `good` from a host for containment mode without skid, with a
DOWNSTREAM port's peer for a sound chain; and the root of that chain. -/
structure KmResult where
  good : Bool
  root : Bytes := []
  deriving DecidableEq, Repr

/-- A message, or a part of one, that a flit carries: its content, its poison, and whether it is malformed. -/
structure FlitPart where
  body : Body
  poison : Bool := false
  malformed : Bool := false
  deriving DecidableEq, Repr

/-- A received CXL flit or flit half as the port's checkers see it (R131 to R139): sequence number, CRC result, whether
the IDE MAC that ends in it is good, and the messages or message parts it carries. -/
structure Flit where
  seq : Nat := 0
  /-- 0 a whole flit, 1 and 2 the first and second half of a latency-optimised one (R131, R132) -/
  half : Nat := 0
  crcOk : Bool := true
  mac : Option Bool := none
  parts : List FlitPart := []
  /-- the last part's message is complete in this flit -/
  complete : Bool := true
  /-- lanes, by their place in Table 3-1's order, on which its FEC corrected bytes, or its block framing was bad (R110) -/
  corr : List Nat := []
  sync : List Nat := []
  /-- classes for whose messages the partner now grants no credit (R223) -/
  dry : List Nat := []
  deriving DecidableEq, Repr

/-- A memory module as training finds it (Table 13-1): channel, type (0 RDIMM, 1 MRDIMM), GiB, ranks, rate in MT/s, and
whether its channel trained. (DESIGN CHOICE, log entry 111) -/
structure Module where
  chan : Nat
  typ : Nat := 1
  gib : Nat := 256
  ranks : Nat := 2
  rate : Nat := 8800
  trained : Bool := true
  cached : Bool := false
  ppr : Nat := 1
  /-- activations of a bank at which it asks for an RFM command; 0: it asks for none (R452) -/
  rfm : Nat := 0
  deriving DecidableEq, Repr

/-- What a flash bank's reads return (R549): its manifest and its body. -/
structure FlashImage where
  manifest : Bytes
  body : Bytes
  deriving DecidableEq, Repr

/-- An SPDM request (R563). -/
inductive Spdm
  | getVersion | getCapabilities | algorithms | getCertificate (slot : Nat) | challenge | getMeasurements (index : Nat) | keyExchange
  | endSession (id : Nat) | other (bytes : Bytes)
  deriving DecidableEq, Repr

/-- The commands of the block, one per row of the opcode table, in its order. (DESIGN CHOICE, log entry 12) -/
inductive Instr
  /-- REGISTER_WRITE (R12). -/
  | registerWrite (path : Nat) (addr : Nat) (nbytes : Nat) (val : Nat)
  /-- MGMT_PF_RESET (R40). -/
  | mgmtPfReset (cause : Nat)
  /-- ENABLE_SET (R72). -/
  | enableSet (path : Nat) (pg : Nat)
  /-- ENABLE_CLEAR (R72). -/
  | enableClear (path : Nat) (pg : Nat)
  /-- BRST (R50). -/
  | brst (path : Nat) (pg : Nat)
  /-- BLOCK_RESET_DONE (R50). -/
  | blockResetDone (pg : Nat)
  /-- COMMIT (R51). -/
  | commit (path : Nat) (pg : Nat)
  /-- FORCE (R509). -/
  | force (path : Nat) (pg : Nat)
  /-- DISCARD (R682). -/
  | discard (path : Nat) (pg : Nat)
  /-- HELD_COMMIT (R327). -/
  | heldCommit (pg : Nat)
  /-- EPOCH_APPLIED (R53). -/
  | epochApplied (pg : Nat)
  /-- PGLOCK_LOCKED (R56). -/
  | pglockLocked (path : Nat) (pg : Nat)
  /-- DEV_CFG_LOCK (R56). -/
  | devCfgLock (path : Nat)
  /-- TBL_READ (R60). -/
  | tblRead (path : Nat) (w : Nat) (inc : Bool)
  /-- TBL_WRITE (R61). -/
  | tblWrite (path : Nat) (w : Nat) (inc : Bool)
  /-- TBL_CLEAR (R61). -/
  | tblClear (path : Nat) (w : Nat) (inc : Bool)
  /-- TBL_BAD_OP (R59). -/
  | tblBadOp (path : Nat) (w : Nat) (op : Nat) (inc : Bool)
  /-- TBL_OP_DONE (R59). -/
  | tblOpDone (w : Nat) (ue : Bool)
  /-- MSIX_UNMASK (R64). -/
  | msixUnmask (wr : MsixWr)
  /-- ACQUIRE (R65). -/
  | acquire (path : Nat) (i : Nat) (tag : Nat) (lease : Nat)
  /-- RENEW (R66). -/
  | renew (path : Nat) (i : Nat) (tag : Nat) (lease : Nat)
  /-- RELEASE (R66). -/
  | release (path : Nat) (i : Nat) (tag : Nat)
  /-- BREAK (R67). -/
  | breakLock (path : Nat) (i : Nat)
  /-- CLR_BROKEN (R66). -/
  | clrBroken (path : Nat) (i : Nat) (tag : Nat)
  /-- LEASE_EXPIRY (R67). -/
  | leaseExpiry (i : Nat)
  /-- MCTP_PATH_RESET (R68). -/
  | mctpPathReset (m : Nat)
  /-- TAP_RESET (R68). -/
  | tapReset
  /-- DEV_RST_WARM (R574). -/
  | devRstWarm (path : Nat) (key : Nat)
  /-- DEV_RST_CONTROL (R574). -/
  | devRstControl (path : Nat) (key : Nat)
  /-- DEV_RST_SLICE (R584). -/
  | devRstSlice (path : Nat) (key : Nat) (target : Nat)
  /-- DEV_RST_DOMAIN (R584). -/
  | devRstDomain (path : Nat) (key : Nat) (target : Nat)
  /-- DEV_RST_PORT (R586). -/
  | devRstPort (path : Nat) (key : Nat) (target : Nat)
  /-- MBOX_GO (R71). -/
  | mboxGo (path : Nat)
  /-- MBOX_DONE (R71). -/
  | mboxDone (status : Nat) (resp : Bytes)
  /-- CAL_DONE (R81). -/
  | calDone (o : Nat)
  /-- CAL_TIMEOUT (R81). -/
  | calTimeout (o : Nat)
  /-- FAILED_RETRY (R92). -/
  | failedRetry (o : Nat)
  /-- CHIPLET_PLL_LOSS (R82). -/
  | chipletPllLoss (c : Nat)
  /-- PLL_RELOCK (R82). -/
  | pllRelock (c : Nat)
  /-- ELASTIC_ERR (R83). -/
  | elasticErr (o : Nat) (lane : Nat)
  /-- L0_ENTRY (R85). -/
  | l0Entry (p : Nat) (rates : List Nat) (bypass : Bool) (lanes : CxlLanes)
  /-- EQ_FALLBACK (R87). -/
  | eqFallback (e : EqRetrain)
  /-- RECOVERY (R148). -/
  | recovery (e : RecoveryEvent)
  /-- LANE_LOSS (R90). -/
  | laneLoss (p : Nat) (lost : List Nat)
  /-- HEALTH_WINDOW (R110). -/
  | healthWindow (o : Nat) (eyes : List Nat)
  /-- TRAINING_CONTROL_BLOCK (R95). -/
  | trainingControlBlock (o : Nat) (lane : Nat) (payload : Bytes)
  /-- LANE_LOCK (R102). -/
  | laneLock (o : Nat) (lane : Nat) (headers : List Nat)
  /-- LOCK_LOST (R103). -/
  | lockLost (o : Nat) (lane : Nat) (headers : List Nat)
  /-- DR_LOCK_DONE (R93). -/
  | drLockDone (o : Nat)
  /-- DR_LOCK_TIMEOUT (R92). -/
  | drLockTimeout (o : Nat)
  /-- DR_TRAIN_DONE (R92). -/
  | drTrainDone (o : Nat)
  /-- DR_TRAIN_TIMEOUT (R92). -/
  | drTrainTimeout (o : Nat)
  /-- DR_ALIGN_DONE (R100). -/
  | drAlignDone (a : Aligned)
  /-- DR_ALIGN_TIMEOUT (R104). -/
  | drAlignTimeout (o : Nat)
  /-- DR_RETRAIN_TIMEOUT (R92). -/
  | drRetrainTimeout (o : Nat)
  /-- MARGIN_GO (R105). -/
  | marginGo (path : Nat) (o : Nat)
  /-- MARGIN_STOP (R108). -/
  | marginStop (path : Nat) (o : Nat)
  /-- PARTNER_MARGINING (R106). -/
  | partnerMargining (o : Nat) (m : LaneMargin)
  /-- MARGIN_DWELL_END (R105). -/
  | marginDwellEnd (o : Nat) (errs : Nat)
  /-- MARGIN_ERR_LIMIT (R105). -/
  | marginErrLimit (o : Nat)
  /-- EQ_CACHE_WRITE (R117). -/
  | eqCacheWrite (path : Nat) (o : Nat) (lane : Nat) (val : Nat)
  /-- L1_ENTRY (R116). -/
  | l1Entry (p : Nat) (l0p : Bool)
  /-- PROTOCOL_NEGOTIATION (R124). -/
  | protocolNegotiation (p : Nat) (partner : Nat)
  /-- FLIT_RECEIVE (R131). -/
  | flitReceive (p : Nat) (flit : Flit)
  /-- EGRESS_START (R134). -/
  | egressStart (p : Nat)
  /-- IDE_KEY_SWITCH (R139). -/
  | ideKeySwitch (p : Nat)
  /-- GPF_PHASE (R140). -/
  | gpfPhase (p : Nat) (phase : Nat)
  /-- GPF_ANSWER (R140). -/
  | gpfAnswer (p : Nat)
  /-- GPF_TIMEOUT (R141). -/
  | gpfTimeout (p : Nat)
  /-- PERST_IN_ASSERT (R142). -/
  | perstInAssert (i : Nat)
  /-- PERST_IN_DEASSERT (R142). -/
  | perstInDeassert (i : Nat)
  /-- PERST_OUT_DELAY (R143). -/
  | perstOutDelay (p : Nat)
  /-- PERST_OUT_HOLD (R144). -/
  | perstOutHold (p : Nat)
  /-- HOT_RESET_RECEIVED (R145). -/
  | hotResetReceived (p : Nat)
  /-- HOT_RESET (R146). -/
  | hotReset (path : Nat) (p : Nat)
  /-- HOT_RESET_TIMEOUT (R146). -/
  | hotResetTimeout (p : Nat)
  /-- RETRAIN (R148). -/
  | retrain (path : Nat) (p : Nat)
  /-- DISABLE (R685). -/
  | disable (path : Nat) (p : Nat)
  /-- DISABLE_CLEAR (R685). -/
  | disableClear (path : Nat) (p : Nat)
  /-- LINK_DOWN (R149). -/
  | linkDown (p : Nat)
  /-- CPL_TIMEOUT (R152). -/
  | cplTimeout (p : Nat) (tag : Nat)
  /-- DRL_ATTACH (R154). -/
  | drlAttach (path : Nat) (k : Nat) (oct : Nat) (valid : Bool)
  /-- DUNRUN_BLOCK (R158). -/
  | dunrunBlock (k : Nat) (lane : Nat) (raw : Bytes)
  /-- MESSAGE_PACKET (R170). -/
  | messagePacket (k : Nat)
  /-- ACK (R173). -/
  | ack (k : Nat)
  /-- NAK (R173). -/
  | nak (k : Nat)
  /-- CREDIT (R177). -/
  | credit (k : Nat)
  /-- INIT (R167). -/
  | init (k : Nat)
  /-- INIT_ACK (R168). -/
  | initAck (k : Nat)
  /-- SPARE_REQ (R180). -/
  | spareReq (k : Nat)
  /-- SPARE_ACK (R180). -/
  | spareAck (k : Nat)
  /-- SPARE_DONE (R180). -/
  | spareDone (k : Nat)
  /-- SPARE_NACK (R182). -/
  | spareNack (k : Nat)
  /-- SPARE_BLOCK_SWITCH (R180). -/
  | spareBlockSwitch (k : Nat)
  /-- SPARE_REQ_REPEAT (R180). -/
  | spareReqRepeat (k : Nat)
  /-- SPARE_TIMEOUT (R182). -/
  | spareTimeout (k : Nat)
  /-- TIME_REQ (R188). -/
  | timeReq (k : Nat)
  /-- TIME_RESP (R188). -/
  | timeResp (k : Nat)
  /-- TIME_FOLLOW (R626). -/
  | timeFollow (k : Nat)
  /-- CRUMB (R190). -/
  | crumb (k : Nat)
  /-- ROUTE_WITHDRAW (R196). -/
  | routeWithdraw (k : Nat)
  /-- ROUTE_RESTORE (R196). -/
  | routeRestore (k : Nat)
  /-- SEC_MAC (R185). -/
  | secMac (k : Nat)
  /-- KEY_SWITCH (R187). -/
  | keySwitch (k : Nat)
  /-- LINK_INIT (R167). -/
  | linkInit (k : Nat)
  /-- INIT_RESEND (R167). -/
  | initResend (k : Nat)
  /-- NAK_RESEND (R171). -/
  | nakResend (k : Nat)
  /-- ACK_NS_TIMER (R172). -/
  | ackNsTimer (k : Nat)
  /-- ACK_IDLE_TIMER (R172). -/
  | ackIdleTimer (k : Nat)
  /-- REPLAY_TIMEOUT (R174). -/
  | replayTimeout (k : Nat)
  /-- LIVE_TIMEOUT (R175). -/
  | liveTimeout (k : Nat)
  /-- MESSAGE_PACKET_SEND (R177). -/
  | messagePacketSend (k : Nat)
  /-- CREDIT_TIMER (R178). -/
  | creditTimer (k : Nat)
  /-- CREDIT_STALL (R179). -/
  | creditStall (k : Nat) (vc : Nat)
  /-- TIME_EXCHANGE (R188). -/
  | timeExchange (k : Nat)
  /-- CELL_PRESENT (R216). -/
  | cellPresent (b : Presented)
  /-- HELD_ADMIT (R221). -/
  | heldAdmit (b : HeldRetry)
  /-- TAG_FILL (R502). -/
  | tagFill (sl : Nat) (word : Nat) (ue : Bool)
  /-- EGRESS_SELECT (R225). -/
  | egressSelect (e : Selection)
  /-- BANK_DECISION (R253). -/
  | bankDecision (sl : Nat) (b : Nat) (err : BankErr)
  /-- STALL_TIMEOUT (R237). -/
  | stallTimeout (sl : Nat) (id : Nat)
  /-- RETIRE (R242). -/
  | retire (path : Nat) (sl : Nat) (b : Nat)
  /-- RETIREMENT_DONE (R243). -/
  | retirementDone (sl : Nat)
  /-- SHAPER_REFILL (R280). -/
  | shaperRefill (p : Nat)
  /-- EGS_SAMPLE (R287). -/
  | egsSample (p : Nat)
  /-- GATE_EDGE (R292). -/
  | gateEdge (p : Nat)
  /-- CONFIGURATION_REQUEST (R311). -/
  | configurationRequest (vcs : Nat) (vppb : Nat) (below : Bool) (off : Nat) (write : Bool) (val : Nat)
  /-- MLD_LD_LOST (R334). -/
  | mldLdLost (p : Nat) (ld : Nat)
  /-- REMOVAL_NOTICE (R335). -/
  | removalNotice (dev : Nat) (p : Nat) (ld : Nat)
  /-- VPPB_POWER_CONTROL (R337). -/
  | vppbPowerControl (u : Nat) (vppb : Nat) (on : Bool)
  /-- GET_VIRTUAL_CXL_SWITCH_INFO (R343). -/
  | getVirtualCxlSwitchInfo (path : Nat) (vcs : Nat) (start : Nat) (limit : Nat)
  /-- BIND_VPPB (R343). -/
  | bindVppb (path : Nat) (vcs : Nat) (vppb : Nat) (tgt : Nat) (ld : Nat)
  /-- UNBIND_VPPB (R343). -/
  | unbindVppb (path : Nat) (vcs : Nat) (vppb : Nat) (option : Nat)
  /-- GENERATE_AER_EVENT (R343). -/
  | generateAerEvent (path : Nat) (vcs : Nat) (vppb : Nat) (err : Nat)
  /-- IDENTIFY_SWITCH_DEVICE (R343). -/
  | identifySwitchDevice (path : Nat)
  /-- GET_PHYSICAL_PORT_STATE (R343). -/
  | getPhysicalPortState (path : Nat) (ports : List Nat)
  /-- PHYSICAL_PORT_CONTROL (R343). -/
  | physicalPortControl (path : Nat) (p : Nat) (op : Nat)
  /-- SEND_LD_CXL_IO_CONFIG_REQUEST (R343). -/
  | sendLdCxlIoConfigRequest (path : Nat) (p : Nat) (ld : Nat) (off : Nat) (write : Bool) (val : Nat)
  /-- TUNNEL_MANAGEMENT_COMMAND (R343). -/
  | tunnelManagementCommand (path : Nat) (p : Nat) (payload : Bytes)
  /-- RD_S (R368). -/
  | rdS (h : Nat)
  /-- RD_O (R368). -/
  | rdO (h : Nat)
  /-- OWN_ND (R368). -/
  | ownNd (h : Nat)
  /-- RD_C (R368). -/
  | rdC (h : Nat)
  /-- WR (R372). -/
  | wr (h : Nat)
  /-- ATOM (R424). -/
  | atom (h : Nat)
  /-- WB_I (R383). -/
  | wbI (h : Nat)
  /-- WB_S (R368). -/
  | wbS (h : Nat)
  /-- CLN (R384). -/
  | cln (h : Nat)
  /-- BIS_I (R371). -/
  | bisI (h : Nat)
  /-- BIS_S (R371). -/
  | bisS (h : Nat)
  /-- BIS_C (R371). -/
  | bisC (h : Nat)
  /-- SNOOP_ANSWER (R382). -/
  | snoopAnswer (h : Nat)
  /-- TARGET_ANSWER (R386). -/
  | targetAnswer (h : Nat)
  /-- LINE_QUEUE_HEAD (R381). -/
  | lineQueueHead (h : Nat) (line : Nat)
  /-- WAIT_BUFFER_ENTRY_FREE (R385). -/
  | waitBufferEntryFree (h : Nat) (src : Nat)
  /-- RETRY_OFFER (R390). -/
  | retryOffer (h : Nat) (set_ : Nat) (way : Nat)
  /-- SNOOP_TIMEOUT (R392). -/
  | snoopTimeout (h : Nat) (line : Nat) (agent : Nat)
  /-- QUENCH_NOTICE (R396). -/
  | quenchNotice (agent : Nat) (domain : Nat) (dev : Nat)
  /-- QUENCH_SCAN_DONE (R395). -/
  | quenchScanDone (h : Nat)
  /-- DIR_PEEK (R354). -/
  | dirPeek (path : Nat) (h : Nat)
  /-- SCC_FLUSH_CLEAN (R363). -/
  | sccFlushClean (path : Nat) (h : Nat)
  /-- ACCEPTANCE_INDEX_RECORD (R405). -/
  | acceptanceIndexRecord (id : Nat)
  /-- TRAY_HOLD_RELEASE (R409). -/
  | trayHoldRelease (src : Nat)
  /-- STREAMING_WRITE (R416). -/
  | streamingWrite (src : Nat)
  /-- CMB_TIMEOUT (R418). -/
  | cmbTimeout (sl : Nat) (line : Nat) (agent : Nat)
  /-- DRAIN_WRITE (R420). -/
  | drainWrite (p : Nat) (fn : Nat)
  /-- DRAIN_READ (R420). -/
  | drainRead (p : Nat) (fn : Nat)
  /-- LARDER_READ (R443). -/
  | larderRead (c : Nat)
  /-- LARDER_WRITE (R444). -/
  | larderWrite (c : Nat)
  /-- SCRUB_READ (R445). -/
  | scrubRead (c : Nat)
  /-- PPR_SOFT (R447). -/
  | pprSoft (path : Nat) (c : Nat)
  /-- PPR_HARD (R449). -/
  | pprHard (path : Nat) (c : Nat)
  /-- PPR_DONE (R448). -/
  | pprDone (c : Nat) (res : Nat)
  /-- DIMM_THERMAL_READ (R451). -/
  | dimmThermalRead (c : Nat) (temp : Nat)
  /-- LARDER_TRAIN_DONE (R432). -/
  | larderTrainDone (mods : List Module)
  /-- CHAN_FAIL (R458). -/
  | chanFail (c : Nat) (cause : Nat)
  /-- IO_DIE_FAULT (R24). -/
  | ioDieFault (die : Nat)
  /-- VF_ENABLE (R463). -/
  | vfEnable (u : Nat) (n : Nat)
  /-- VF_DISABLE (R463). -/
  | vfDisable (u : Nat)
  /-- FUNCTION_FLR (R481). -/
  | functionFlr (u : Nat) (fn : Nat)
  /-- QCMD_READ (R464). -/
  | qcmdRead (u : Nat) (fn : Nat)
  /-- QCMD_WRITE (R464). -/
  | qcmdWrite (u : Nat) (fn : Nat)
  /-- QCMD_ENABLE (R467). -/
  | qcmdEnable (u : Nat) (fn : Nat)
  /-- QCMD_DISABLE (R466). -/
  | qcmdDisable (u : Nat) (fn : Nat)
  /-- QCMD_RESET (R481). -/
  | qcmdReset (u : Nat) (fn : Nat)
  /-- HELD_RESET (R482). -/
  | heldReset (q : Nat)
  /-- DISABLING_DONE (R466). -/
  | disablingDone (q : Nat)
  /-- DOORBELL (R470). -/
  | doorbell (u : Nat) (fn : Nat) (off : Nat) (nbytes : Nat) (val : Nat)
  /-- CONTEXT_FETCH (R465). -/
  | contextFetch (q : Nat)
  /-- DESCRIPTOR_FETCH (R471). -/
  | descriptorFetch (q : Nat) (words : List W64) (ok : Bool)
  /-- NOP (R475). -/
  | nop (q : Nat)
  /-- COPY (R475). -/
  | copy (q : Nat)
  /-- FILL (R475). -/
  | fill (q : Nat)
  /-- COMPARE (R475). -/
  | compare (q : Nat)
  /-- CRC (R475). -/
  | crc (q : Nat)
  /-- ATOMIC8 (R476). -/
  | atomic8 (q : Nat)
  /-- ATOMIC16 (R476). -/
  | atomic16 (q : Nat)
  /-- MOVE_LIVE (R486). -/
  | moveLive (q : Nat)
  /-- BARRIER_LD (R427). -/
  | barrierLd (q : Nat)
  /-- BARRIER_ST (R427). -/
  | barrierSt (q : Nat)
  /-- BARRIER_FULL (R427). -/
  | barrierFull (q : Nat)
  /-- INTERRUPT (R475). -/
  | interrupt (q : Nat)
  /-- BARRIER_COMPLETE (R429). -/
  | barrierComplete (q : Nat)
  /-- COMPLETION_RECORD (R478). -/
  | completionRecord (q : Nat) (ok : Bool)
  /-- SHARE_ENTRY_END (R484). -/
  | shareEntryEnd (e : Nat)
  /-- MOVE_LIVE_COPY_DONE (R487). -/
  | moveLiveCopyDone (m : Nat)
  /-- MOVE_LIVE_RECOPY_DONE (R487). -/
  | moveLiveRecopyDone (m : Nat)
  /-- MOVE_LIVE_HOLD_READY (R487). -/
  | moveLiveHoldReady (m : Nat)
  /-- MOVE_LIVE_HOLD_TIMEOUT (R487). -/
  | moveLiveHoldTimeout (m : Nat)
  /-- PRSNT_ASSERT (R521). -/
  | prsntAssert (n : Nat)
  /-- PRSNT_DEASSERT (R529). -/
  | prsntDeassert (n : Nat)
  /-- VIN_WINDOW (R521). -/
  | vinWindow (n : Nat) (vin : Nat)
  /-- INSERTION_TIMER (R521). -/
  | insertionTimer (n : Nat)
  /-- RAMP_ENTRY (R522). -/
  | rampEntry (n : Nat)
  /-- RAMP_DONE (R523). -/
  | rampDone (n : Nat) (vin : Nat) (vout : Nat)
  /-- RAMP_TIMEOUT (R520). -/
  | rampTimeout (n : Nat)
  /-- FAST_TRIP (R525). -/
  | fastTrip (n : Nat) (iout : Nat)
  /-- OV (R526). -/
  | ovTrip (n : Nat) (vin : Nat)
  /-- OC (R524). -/
  | ocTrip (n : Nat)
  /-- VIN_LOW (R526). -/
  | vinLow (n : Nat) (vin : Nat)
  /-- COOL_DONE (R527). -/
  | coolDone (n : Nat)
  /-- FET_FAIL (R528). -/
  | fetFail (n : Nat) (vout : Nat)
  /-- RETRY_COUNT_RESET (R527). -/
  | retryCountReset (n : Nat)
  /-- SPU_ON (R530). -/
  | spuOn (path : Nat) (n : Nat)
  /-- SPU_OFF (R530). -/
  | spuOff (path : Nat) (n : Nat)
  /-- CLEAR_FET (R528). -/
  | clearFet (path : Nat) (n : Nat) (vout : Nat)
  /-- MEASURE (R533). -/
  | measure (path : Nat)
  /-- MEASURE_PERIODIC (R533). -/
  | measurePeriodic
  /-- MEASURE_HOLD_READY (R533). -/
  | measureHoldReady
  /-- MEASURE_LOAD_END (R533). -/
  | measureLoadEnd (charge : Nat) (loadUs : Nat)
  /-- MEASURE_DONE (R534). -/
  | measureDone (v2 : Nat)
  /-- DMAX_RECOMPUTE (R536). -/
  | dmaxRecompute (vstart : Nat)
  /-- CREDIT_BLOCK_REQUEST (R537). -/
  | creditBlockRequest (sl : Nat) (scc : Bool)
  /-- PWRFAIL (R539). -/
  | pwrfail
  /-- LOW_BANK (R539). -/
  | lowBank (vbank : Nat)
  /-- FLUSH_WRITES_DONE (R542). -/
  | flushWritesDone
  /-- FLUSH_PHASE1_DONE (R542). -/
  | flushPhase1Done
  /-- FLUSH_PHASE2_DONE (R543). -/
  | flushPhase2Done
  /-- FLUSH_GPF_TIMEOUT (R543). -/
  | flushGpfTimeout
  /-- FUSE_LOAD (R555). -/
  | fuseLoad (ok : Bool) (arc : Nat) (krev : Nat) (cust : Option Bytes)
  /-- BOOT_VERIFY (R551). -/
  | bootVerify (imgA : Option FlashImage) (imgB : Option FlashImage)
  /-- BOOT_BUNDLE (R559). -/
  | bootBundle (bundle : Bytes)
  /-- FW_RESTART (R554). -/
  | fwRestart (img : Option FlashImage)
  /-- TRNG_FAIL (R548). -/
  | trngFail
  /-- ADVANCE_ARC (R556). -/
  | advanceArc (path : Nat) (burned : Bool)
  /-- DBG_CHALLENGE (R569). -/
  | dbgChallenge (path : Nat)
  /-- DBG_UNLOCK (R570). -/
  | dbgUnlock (path : Nat)
  /-- BUNDLE_APPLY (R559). -/
  | bundleApply (path : Nat)
  /-- RCV_WRITE (R553). -/
  | rcvWrite (path : Nat) (bank : Nat)
  /-- RCV_BOOT (R553). -/
  | rcvBoot (path : Nat) (bank : Nat) (img : Option FlashImage)
  /-- RELAY_IN (R567). -/
  | relayIn (path : Nat) (k : Nat)
  /-- RELAY_OUT_RELEASE (R567). -/
  | relayOutRelease (path : Nat)
  /-- ANCHOR_SET (R565). -/
  | anchorSet (path : Nat) (i : Nat)
  /-- DRL_REKEY (R568). -/
  | drlRekey (path : Nat) (k : Nat)
  /-- SPDM_REQUEST (R563). -/
  | spdmRequest (src : Nat) (req : Spdm)
  /-- IDE_KM (R566). -/
  | ideKm (p : Nat) (k : KmResult)
  /-- DUNRUN_KEY_EXCHANGE (R567). -/
  | dunrunKeyExchange (k : Nat)
  /-- KEY_EXCHANGE_TIMEOUT (R568). -/
  | keyExchangeTimeout (k : Nat)
  /-- KEY_EXCHANGE_RESTART (R568). -/
  | keyExchangeRestart (k : Nat)
  /-- KEY_USAGE_LIMIT (R568). -/
  | keyUsageLimit (k : Nat)
  /-- MEAS7_COMPUTE (R564). -/
  | meas7Compute
  /-- PWR_GOOD_RISE (R581). -/
  | pwrGoodRise
  /-- PWR_GOOD_FALL (R573). -/
  | pwrGoodFall
  /-- COLD_RST_N (R574). -/
  | coldRstN
  /-- WARM_RST_N (R577). -/
  | warmRstN
  /-- RESET_ENTRY (R579). -/
  | resetEntry
  /-- QUIESCE_TIMEOUT (R578). -/
  | quiesceTimeout
  /-- PORT_RESET_RECALL_DONE (R586). -/
  | portResetRecallDone (p : Nat)
  /-- FABRIC_READY_RISE (R580). -/
  | fabricReadyRise
  /-- CLOCK_LOSS (R591). -/
  | clockLoss (refclk : Bool)
  /-- INPUT_DEBOUNCE (R593). -/
  | inputDebounce (i : Nat) (level : Bool)
  /-- CHATTER (R595). -/
  | chatter (i : Nat) (count : Nat)
  /-- FLT_STATUS_CLEAR (R610). -/
  | fltStatusClear (path : Nat) (pg : Nat) (mask : Nat)
  /-- FLT_INJECT (R617). -/
  | fltInject (path : Nat) (pg : Nat) (val : Nat)
  /-- FLT_COUNT_CLR (R597). -/
  | fltCountClr (path : Nat) (pg : Nat)
  /-- FW_STALL (R623). -/
  | fwStall
  /-- EPOCH_WAIT (R623). -/
  | epochWait
  /-- TMB_SET (R628). -/
  | tmbSet (path : Nat) (v : Nat)
  /-- PTM_TIMER (R629). -/
  | ptmTimer
  /-- PTM_REQUEST (R629). -/
  | ptmRequest (p : Nat)
  /-- PTM_RESPONSE (R629). -/
  | ptmResponse (t2 : Nat) (t3 : Nat) (t4 : Nat)
  /-- FIRE (R630). -/
  | fire (path : Nat)
  /-- CLRALL (R633). -/
  | clrall (path : Nat)
  /-- CRUMB_TIME_MATCH (R631). -/
  | crumbTimeMatch
  /-- CRUMB_LATCH (R633). -/
  | crumbLatch
  /-- CNT_SEL_WRITE (R637). -/
  | cntSelWrite (path : Nat) (pg : Nat) (j : Nat) (val : Nat)
  /-- CNT_CLR (R637). -/
  | cntClr (path : Nat) (pg : Nat) (i : Nat)
  /-- CCL_SWEEP (R638). -/
  | cclSweep
  /-- CCL_SWEEP_DONE (R639). -/
  | cclSweepDone (ok : Bool)
  /-- TELEMETRY_RECORD (R644). -/
  | telemetryRecord (r : Nat) (src : Nat) (type_ : Nat) (payload : Bytes) (ok : Bool)
  /-- TLM_POP (R647). -/
  | tlmPop (path : Nat)
  /-- TLM_RHEAD (R648). -/
  | tlmRhead (path : Nat) (v : Nat)
  /-- TLM_RING_ENABLE (R644). -/
  | tlmRingEnable (path : Nat)
  /-- AVS_UPDATE (R657). -/
  | avsUpdate (target : Nat) (ack : Bool)
  /-- JUNCTION_SENSOR_READ (R660). -/
  | junctionSensorRead (temps : List Int)
  /-- REFUSED_READ (R42). -/
  | refusedRead (path : Nat) (addr : Nat) (nbytes : Nat)
  /-- VDD_AUX_LOSS (R520). -/
  | vddAuxLoss
  /-- VDD_AUX_RISE (R587). -/
  | vddAuxRise
  /-- COLD_RST_N_RELEASE (R581). -/
  | coldRstNRelease
  /-- MANAGEMENT_COMPLEX_CRASH (R38). -/
  | managementComplexCrash
  /-- MEASURE_SETTLED (R533). -/
  | measureSettled (v1 : Nat)
  /-- DR_RETRAIN_DONE (R92). -/
  | drRetrainDone (o : Nat)
  /-- REMOTE_SNOOP (R340). -/
  | remoteSnoop (h : Nat)
  deriving DecidableEq, Repr

end Sys2Proof
end

