-- ==== Sys2Proof/WellFormed.lean ====
section
/-! DEFINITION. Which commands name units the device has: every ranged operand lies in its range. A meaning answers the
fault `noSuchUnit` on a command this check refuses. -/

namespace Sys2Proof

/-- Path codes of Table 2-3. -/
def okPath (p : Nat) : Bool := 1 ≤ p && p ≤ 5

/-- Every ranged operand of the command lies in its range (Tables 1-2, 2-2, 2-3, 2-6, 18-10). (DESIGN CHOICE, log entry 15) -/
def Instr.wf (i : Instr) : Bool :=
  match i with
  | .registerWrite path addr _ _ => okPath path && decide (addr < 67108864)
  | .mgmtPfReset cause => decide (cause < 3)
  | .enableSet path _ => okPath path
  | .enableClear path _ => okPath path
  | .brst path _ => okPath path
  | .blockResetDone _ => true
  | .commit path _ => okPath path
  | .force path _ => okPath path
  | .discard path _ => okPath path
  | .heldCommit _ => true
  | .epochApplied _ => true
  | .pglockLocked path _ => okPath path
  | .devCfgLock path => okPath path
  | .tblRead path w _ => okPath path && decide (w < 16)
  | .tblWrite path w _ => okPath path && decide (w < 16)
  | .tblClear path w _ => okPath path && decide (w < 16)
  | .tblBadOp path w _ _ => okPath path && decide (w < 16)
  | .tblOpDone w _ => decide (w < 16)
  | .msixUnmask _ => true
  | .acquire path i tag lease => okPath path && decide (i < 64) && decide (tag < 65536) && decide (lease < 1048576)
  | .renew path i tag lease => okPath path && decide (i < 64) && decide (tag < 65536) && decide (lease < 1048576)
  | .release path i tag => okPath path && decide (i < 64) && decide (tag < 65536)
  | .breakLock path i => okPath path && decide (i < 64)
  | .clrBroken path i tag => okPath path && decide (i < 64) && decide (tag < 65536)
  | .leaseExpiry i => decide (i < 64)
  | .mctpPathReset m => decide (m < 2)
  | .tapReset => true
  | .devRstWarm path key => okPath path && decide (key < 256)
  | .devRstControl path key => okPath path && decide (key < 256)
  | .devRstSlice path key target => okPath path && decide (key < 256) && decide (target < 1024)
  | .devRstDomain path key target => okPath path && decide (key < 256) && decide (target < 1024)
  | .devRstPort path key target => okPath path && decide (key < 256) && decide (target < 1024)
  | .mboxGo path => okPath path
  | .mboxDone status _ => decide (status < 256)
  | .calDone o => decide (o < 64)
  | .calTimeout o => decide (o < 64)
  | .failedRetry o => decide (o < 64)
  | .chipletPllLoss c => decide (c < 8)
  | .pllRelock c => decide (c < 8)
  | .elasticErr o lane => decide (o < 64) && decide (lane < 9)
  | .l0Entry p _ _ _ => decide (p < 128)
  | .eqFallback e => decide (e.port < 128)
  | .recovery e => decide (e.port < 128)
  | .laneLoss p _ => decide (p < 128)
  | .healthWindow o _ => decide (o < 64)
  | .trainingControlBlock o lane _ => decide (o < 64) && decide (lane < 9)
  | .laneLock o lane _ => decide (o < 64) && decide (lane < 9)
  | .lockLost o lane _ => decide (o < 64) && decide (lane < 9)
  | .drLockDone o => decide (o < 64)
  | .drLockTimeout o => decide (o < 64)
  | .drTrainDone o => decide (o < 64)
  | .drTrainTimeout o => decide (o < 64)
  | .drAlignDone a => decide (a.octet < 64)
  | .drAlignTimeout o => decide (o < 64)
  | .drRetrainTimeout o => decide (o < 64)
  | .marginGo path o => okPath path && decide (o < 64)
  | .marginStop path o => okPath path && decide (o < 64)
  | .partnerMargining o m => decide (o < 64) && decide (m.lane < 9)
  | .marginDwellEnd o _ => decide (o < 64)
  | .marginErrLimit o => decide (o < 64)
  | .eqCacheWrite path o lane _ => okPath path && decide (o < 64) && decide (lane < 9)
  | .l1Entry p _ => decide (p < 128)
  | .protocolNegotiation p _ => decide (p < 128)
  | .flitReceive p _ => decide (p < 128)
  | .egressStart p => decide (p < 128)
  | .ideKeySwitch p => decide (p < 128)
  | .gpfPhase p _ => decide (p < 128)
  | .gpfAnswer p => decide (p < 128)
  | .gpfTimeout p => decide (p < 128)
  | .perstInAssert i => decide (i < 16)
  | .perstInDeassert i => decide (i < 16)
  | .perstOutDelay p => decide (p < 128)
  | .perstOutHold p => decide (p < 128)
  | .hotResetReceived p => decide (p < 128)
  | .hotReset path p => okPath path && decide (p < 128)
  | .hotResetTimeout p => decide (p < 128)
  | .retrain path p => okPath path && decide (p < 128)
  | .disable path p => okPath path && decide (p < 128)
  | .disableClear path p => okPath path && decide (p < 128)
  | .linkDown p => decide (p < 128)
  | .cplTimeout p _ => decide (p < 128)
  | .drlAttach path k oct _ => okPath path && decide (k < 32) && decide (oct < 64)
  | .dunrunBlock k lane _ => decide (k < 32) && decide (lane < 9)
  | .messagePacket k => decide (k < 32)
  | .ack k => decide (k < 32)
  | .nak k => decide (k < 32)
  | .credit k => decide (k < 32)
  | .init k => decide (k < 32)
  | .initAck k => decide (k < 32)
  | .spareReq k => decide (k < 32)
  | .spareAck k => decide (k < 32)
  | .spareDone k => decide (k < 32)
  | .spareNack k => decide (k < 32)
  | .spareBlockSwitch k => decide (k < 32)
  | .spareReqRepeat k => decide (k < 32)
  | .spareTimeout k => decide (k < 32)
  | .timeReq k => decide (k < 32)
  | .timeResp k => decide (k < 32)
  | .timeFollow k => decide (k < 32)
  | .crumb k => decide (k < 32)
  | .routeWithdraw k => decide (k < 32)
  | .routeRestore k => decide (k < 32)
  | .secMac k => decide (k < 32)
  | .keySwitch k => decide (k < 32)
  | .linkInit k => decide (k < 32)
  | .initResend k => decide (k < 32)
  | .nakResend k => decide (k < 32)
  | .ackNsTimer k => decide (k < 32)
  | .ackIdleTimer k => decide (k < 32)
  | .replayTimeout k => decide (k < 32)
  | .liveTimeout k => decide (k < 32)
  | .messagePacketSend k => decide (k < 32)
  | .creditTimer k => decide (k < 32)
  | .creditStall k vc => decide (k < 32) && decide (vc < 8)
  | .timeExchange k => decide (k < 32)
  | .cellPresent b => b.srcs.all fun x => decide (x < 144)
  | .heldAdmit b => decide (b.src < 144)
  | .tagFill sl _ _ => decide (sl < 16)
  | .egressSelect e => decide (e.dest < 144)
  | .bankDecision sl b _ => decide (sl < 16) && decide (b < 16)
  | .stallTimeout sl _ => decide (sl < 16)
  | .retire path sl b => okPath path && decide (sl < 16) && decide (b < 16)
  | .retirementDone sl => decide (sl < 16)
  | .shaperRefill p => decide (p < 128)
  | .egsSample p => decide (p < 128)
  | .gateEdge p => decide (p < 128)
  | .configurationRequest vcs vppb _ off _ _ => decide (vcs < 128) && decide (vppb < 128) && decide (off < 8192)
  | .mldLdLost p ld => decide (p < 128) && decide (ld < 16)
  | .removalNotice dev p _ => decide (dev < 16) && decide (p < 128)
  | .vppbPowerControl u vppb _ => decide (u < 128) && decide (vppb < 128)
  | .getVirtualCxlSwitchInfo path vcs start _ => okPath path && decide (vcs < 128) && decide (start < 128)
  | .bindVppb path vcs vppb tgt _ => okPath path && decide (vcs < 128) && decide (vppb < 128) && decide (tgt < 128)
  | .unbindVppb path vcs vppb _ => okPath path && decide (vcs < 128) && decide (vppb < 128)
  | .generateAerEvent path vcs vppb _ => okPath path && decide (vcs < 128) && decide (vppb < 128)
  | .identifySwitchDevice path => okPath path
  | .getPhysicalPortState path _ => okPath path
  | .physicalPortControl path p _ => okPath path && decide (p < 128)
  | .sendLdCxlIoConfigRequest path _ ld off _ _ => okPath path && decide (ld < 16) && decide (off < 4096)
  | .tunnelManagementCommand path _ _ => okPath path
  | .rdS h => decide (h < 16)
  | .rdO h => decide (h < 16)
  | .ownNd h => decide (h < 16)
  | .rdC h => decide (h < 16)
  | .wr h => decide (h < 16)
  | .atom h => decide (h < 16)
  | .wbI h => decide (h < 16)
  | .wbS h => decide (h < 16)
  | .cln h => decide (h < 16)
  | .bisI h => decide (h < 16)
  | .bisS h => decide (h < 16)
  | .bisC h => decide (h < 16)
  | .snoopAnswer h => decide (h < 16)
  | .targetAnswer h => decide (h < 16)
  | .lineQueueHead h _ => decide (h < 16)
  | .waitBufferEntryFree h src => decide (h < 16) && decide (src < 144)
  | .retryOffer h set_ way => decide (h < 16) && decide (set_ < 16384) && decide (way < 16)
  | .snoopTimeout h _ _ => decide (h < 16)
  | .quenchNotice agent domain dev => decide (agent < 4096) && decide (domain < 1024) && decide (dev < 16)
  | .quenchScanDone h => decide (h < 16)
  | .dirPeek path h => okPath path && decide (h < 16)
  | .sccFlushClean path h => okPath path && decide (h < 16)
  | .acceptanceIndexRecord _ => true
  | .trayHoldRelease src => decide (src < 144)
  | .streamingWrite src => decide (src < 144)
  | .cmbTimeout sl _ _ => decide (sl < 16)
  | .drainWrite p fn => decide (p < 128) && decide (fn < 128)
  | .drainRead p fn => decide (p < 128) && decide (fn < 128)
  | .larderRead c => decide (c < 12)
  | .larderWrite c => decide (c < 12)
  | .scrubRead c => decide (c < 12)
  | .pprSoft path c => okPath path && decide (c < 12)
  | .pprHard path c => okPath path && decide (c < 12)
  | .pprDone c res => decide (c < 12) && decide (res < 5)
  | .dimmThermalRead c temp => decide (c < 12) && decide (temp < 256)
  | .larderTrainDone _ => true
  | .chanFail c _ => decide (c < 12)
  | .ioDieFault die => decide (die < 2)
  | .vfEnable u n => decide (u < 128) && decide (n < 128)
  | .vfDisable u => decide (u < 128)
  | .functionFlr u fn => decide (u < 128) && decide (fn < 128)
  | .qcmdRead u fn => decide (u < 128) && decide (fn < 128)
  | .qcmdWrite u fn => decide (u < 128) && decide (fn < 128)
  | .qcmdEnable u fn => decide (u < 128) && decide (fn < 128)
  | .qcmdDisable u fn => decide (u < 128) && decide (fn < 128)
  | .qcmdReset u fn => decide (u < 128) && decide (fn < 128)
  | .heldReset q => decide (q < 1048576)
  | .disablingDone q => decide (q < 1048576)
  | .doorbell u fn off _ _ => decide (u < 128) && decide (fn < 128) && decide (off < 4194304)
  | .contextFetch q => decide (q < 1048576)
  | .descriptorFetch q _ _ => decide (q < 1048576)
  | .nop q => decide (q < 1048576)
  | .copy q => decide (q < 1048576)
  | .fill q => decide (q < 1048576)
  | .compare q => decide (q < 1048576)
  | .crc q => decide (q < 1048576)
  | .atomic8 q => decide (q < 1048576)
  | .atomic16 q => decide (q < 1048576)
  | .moveLive q => decide (q < 1048576)
  | .barrierLd q => decide (q < 1048576)
  | .barrierSt q => decide (q < 1048576)
  | .barrierFull q => decide (q < 1048576)
  | .interrupt q => decide (q < 1048576)
  | .barrierComplete q => decide (q < 1048576)
  | .completionRecord q _ => decide (q < 1048576)
  | .shareEntryEnd e => decide (e < 64)
  | .moveLiveCopyDone m => decide (m < 64)
  | .moveLiveRecopyDone m => decide (m < 64)
  | .moveLiveHoldReady m => decide (m < 64)
  | .moveLiveHoldTimeout m => decide (m < 64)
  | .prsntAssert n => decide (n < 32)
  | .prsntDeassert n => decide (n < 32)
  | .vinWindow n vin => decide (n < 32) && decide (vin < 65536)
  | .insertionTimer n => decide (n < 32)
  | .rampEntry n => decide (n < 32)
  | .rampDone n vin vout => decide (n < 32) && decide (vin < 65536) && decide (vout < 65536)
  | .rampTimeout n => decide (n < 32)
  | .fastTrip n iout => decide (n < 32) && decide (iout < 65536)
  | .ovTrip n vin => decide (n < 32) && decide (vin < 65536)
  | .ocTrip n => decide (n < 32)
  | .vinLow n vin => decide (n < 32) && decide (vin < 65536)
  | .coolDone n => decide (n < 32)
  | .fetFail n vout => decide (n < 32) && decide (vout < 65536)
  | .retryCountReset n => decide (n < 32)
  | .spuOn path n => okPath path && decide (n < 32)
  | .spuOff path n => okPath path && decide (n < 32)
  | .clearFet path n vout => okPath path && decide (n < 32) && decide (vout < 65536)
  | .measure path => okPath path
  | .measurePeriodic => true
  | .measureHoldReady => true
  | .measureLoadEnd _ _ => true
  | .measureDone _ => true
  | .dmaxRecompute vstart => decide (vstart < 65536)
  | .creditBlockRequest sl _ => decide (sl < 16)
  | .pwrfail => true
  | .lowBank vbank => decide (vbank < 65536)
  | .flushWritesDone => true
  | .flushPhase1Done => true
  | .flushPhase2Done => true
  | .flushGpfTimeout => true
  | .fuseLoad _ arc krev _ => decide (arc < 65) && decide (krev < 16)
  | .bootVerify _ _ => true
  | .bootBundle _ => true
  | .fwRestart _ => true
  | .trngFail => true
  | .advanceArc path _ => okPath path
  | .dbgChallenge path => okPath path
  | .dbgUnlock path => okPath path
  | .bundleApply path => okPath path
  | .rcvWrite path bank => okPath path && decide (bank < 2)
  | .rcvBoot path bank _ => okPath path && decide (bank < 2)
  | .relayIn path k => okPath path && decide (k < 32)
  | .relayOutRelease path => okPath path
  | .anchorSet path i => okPath path && decide (i < 8)
  | .drlRekey path k => okPath path && decide (k < 32)
  | .spdmRequest _ _ => true
  | .ideKm p _ => decide (p < 128)
  | .dunrunKeyExchange k => decide (k < 32)
  | .keyExchangeTimeout k => decide (k < 32)
  | .keyExchangeRestart k => decide (k < 32)
  | .keyUsageLimit k => decide (k < 32)
  | .meas7Compute => true
  | .pwrGoodRise => true
  | .pwrGoodFall => true
  | .coldRstN => true
  | .warmRstN => true
  | .resetEntry => true
  | .quiesceTimeout => true
  | .portResetRecallDone p => decide (p < 128)
  | .fabricReadyRise => true
  | .clockLoss _ => true
  | .inputDebounce i _ => decide (i < 67)
  | .chatter i _ => decide (i < 67)
  | .fltStatusClear path _ mask => okPath path && decide (mask < 65536)
  | .fltInject path _ _ => okPath path
  | .fltCountClr path _ => okPath path
  | .fwStall => true
  | .epochWait => true
  | .tmbSet path _ => okPath path
  | .ptmTimer => true
  | .ptmRequest p => decide (p < 128)
  | .ptmResponse _ _ _ => true
  | .fire path => okPath path
  | .clrall path => okPath path
  | .crumbTimeMatch => true
  | .crumbLatch => true
  | .cntSelWrite path _ j _ => okPath path && decide (j < 8)
  | .cntClr path _ i => okPath path && decide (i < 16)
  | .cclSweep => true
  | .cclSweepDone _ => true
  | .telemetryRecord r _ _ _ _ => decide (r < 4096)
  | .tlmPop path => okPath path
  | .tlmRhead path _ => okPath path
  | .tlmRingEnable path => okPath path
  | .avsUpdate _ _ => true
  | .junctionSensorRead _ => true
  | .refusedRead path addr _ => okPath path && decide (addr < 67108864)
  | .vddAuxLoss => true
  | .vddAuxRise => true
  | .coldRstNRelease => true
  | .managementComplexCrash => true
  | .measureSettled _ => true
  | .drRetrainDone o => decide (o < 64)
  | .remoteSnoop h => decide (h < 16)

end Sys2Proof
end

