-- ==== Sys2Proof/Machine/Maps.lean ====
section
/-! DEFINITION. Sparse maps in canonical form, and the bit-field and byte helpers every other file uses. -/

namespace Sys2Proof.Machine

/-- What key `k` reads as: its entry, or `dflt` where nothing is listed. -/
def SMap.get {α : Type} (dflt : α) (m : SMap α) (k : Nat) : α :=
  match m with
  | [] => dflt
  | (j, v) :: r => if j = k then v else SMap.get dflt r k

/-- The map without key `k`. -/
def SMap.erase {α : Type} (m : SMap α) (k : Nat) : SMap α :=
  m.filter (fun e => e.1 ≠ k)

/-- Insert key `k`, keeping keys rising; an entry of the same key is replaced. -/
def SMap.ins {α : Type} (m : SMap α) (k : Nat) (v : α) : SMap α :=
  match m with
  | [] => [(k, v)]
  | (j, w) :: r => if k < j then (k, v) :: (j, w) :: r else if k = j then (k, v) :: r else (j, w) :: SMap.ins r k v

/-- Write `v` at key `k`: writing what an unlisted key reads as removes the entry. -/
def SMap.set {α : Type} [DecidableEq α] (dflt : α) (m : SMap α) (k : Nat) (v : α) : SMap α :=
  if v = dflt then SMap.erase m k else SMap.ins m k v

/-- Canonical form: keys strictly rising, no entry equal to the default of its key. -/
def SMap.wf {α : Type} [DecidableEq α] (dflt : Nat → α) (m : SMap α) : Bool :=
  (m.map Prod.fst).Pairwise (· < ·) && m.all (fun e => e.2 ≠ dflt e.1)

/-- Bits `lo + width - 1 : lo` of a word, as a number. -/
def bits (w : W64) (lo width : Nat) : Nat := (w.toNat >>> lo) % 2 ^ width

/-- The word with bits `lo + width - 1 : lo` replaced by the low bits of `v`. -/
def setBits (w : W64) (lo width v : Nat) : W64 :=
  let m : W64 := BitVec.ofNat 64 ((2 ^ width - 1) <<< lo)
  (w &&& ~~~m) ||| (BitVec.ofNat 64 ((v % 2 ^ width) <<< lo))

/-- Bit `i` of a number. -/
def bit (n i : Nat) : Bool := n.testBit i

def b2n (b : Bool) : Nat := if b then 1 else 0

/-- Little-endian value of a byte list (R11). -/
def leNat : Bytes → Nat
  | [] => 0
  | b :: r => b.toNat + 256 * leNat r

/-- `n` bytes of a value, little-endian (R11). -/
def leBytes : Nat → Nat → Bytes
  | 0, _ => []
  | n + 1, v => BitVec.ofNat 8 v :: leBytes n (v / 256)

/-- Two's complement reading of a `w`-bit number. -/
def toSigned (w n : Nat) : Int := if n % 2 ^ w < 2 ^ (w - 1) then (n % 2 ^ w : Nat) else (n % 2 ^ w : Nat) - (2 ^ w : Nat)

/-- Two's complement writing in `w` bits. -/
def ofSigned (w : Nat) (i : Int) : Nat := (i % (2 ^ w : Nat)).toNat

/-- Serial-number comparison of 16-bit rule epochs (R55): `a` is older than `b`. -/
def epochOlder (a b : Nat) : Bool := let d := (b + 65536 - a) % 65536; 0 < d && d < 32768

/-- Every number below `n` that meets `p`, ascending. -/
def idxs (n : Nat) (p : Nat → Bool) : List Nat := (List.range n).filter p

end Sys2Proof.Machine
end

