-- ==== Sys2Proof/Config.lean ====
section
/-! DEFINITION. What an implementation fixes and what the spec leaves open: opaque constants, of which nothing is
known but the type. A claim that mentions one holds whatever it is. -/

namespace Sys2Proof.Config

open Sys2Proof

/-- The n-th free value drawn: a value the spec leaves open, after which the device goes on. (DESIGN CHOICE, log entry 4) -/
opaque freeValue : Nat → Nat

/-- DEV_SERIAL: the fused serial number, unknown. -/
opaque serial : W64

/-- The SPREAD hash of (SRC, DST) (R194): the spec names it and does not give it. (DESIGN CHOICE, log entry 11) -/
opaque spread : Nat → Nat → Nat

/-- Which free cell of a bank a write takes (R208): the spec fixes the bank and not the index. (DESIGN CHOICE, log entry 11) -/
opaque cellPick : Nat → Nat

/-- Cell bytes of a message body by CLASS, and back: the header layouts are CXL's and not the spec's. (DESIGN CHOICE, log entry 9) -/
opaque bodyCells : Nat → Body → Bytes
/-- The body that the cells of a class carry. (DESIGN CHOICE, log entry 9) -/
opaque cellsBody : Nat → Bytes → Body
/-- What the header extension and first cell of a message of a class say of it: its header, and the length of its data. (DESIGN CHOICE, log entry 9) -/
opaque headOf : Nat → Bytes → Body

/-- The DRAM row that holds a channel-local line (R447): channel, line; rank, bank group, bank and row at the places
LDR_PPR gives them. The spec does not give the mapping. (DESIGN CHOICE, log entry 11) -/
opaque rowOf : Nat → Nat → Nat

/-- Brodevo's PCI vendor ID: the spec names it and gives no number. (DESIGN CHOICE, log entry 8) -/
opaque vendorId : BitVec 16

/-- Dword of the management PF's Device Serial Number (the capability's serial number, low half), beyond the header; the
spec does not place it. (DESIGN CHOICE, log entry 8) -/
opaque dsnDword : Nat

/-- Dword of the management PF's MSI-X capability, which, like the three below, the spec does not place. (DESIGN CHOICE, log entry 8) -/
opaque msixDword : Nat
/-- Dword of the PF's AER extended capability. (DESIGN CHOICE, log entry 8) -/
opaque aerDword : Nat
/-- Dword of the PF's DOE extended capability. (DESIGN CHOICE, log entry 8) -/
opaque doeDword : Nat
/-- Dword of a vPPB's Device Capabilities 3. (DESIGN CHOICE, log entry 8) -/
opaque dev3Dword : Nat

/-- PCIe and CXL configuration-space words the spec does not list, by address. (DESIGN CHOICE, log entry 8) -/
opaque cfgWord : Nat → BitVec 32

/-- Bits of such a word that a configuration write changes, by address. (DESIGN CHOICE, log entry 8) -/
opaque cfgMask : Nat → BitVec 32

/-- SHA-384; like the functions and device secrets below, the spec names it and does not define it. (DESIGN CHOICE, log entry 10) -/
opaque sha384 : Bytes → Bytes
/-- ECDSA P-384 verification: key, digest, signature. (DESIGN CHOICE, log entry 10) -/
opaque ecdsaOk : Bytes → Bytes → Bytes → Bool
/-- The device's own signature of a digest. (DESIGN CHOICE, log entry 10) -/
opaque ecdsaSign : Bytes → Bytes
/-- AES-256-GCM keystream byte: key, counter, place. (DESIGN CHOICE, log entry 10) -/
opaque gcmStream : Nat → Nat → Nat → Byte
/-- AES-256-GCM tag: key, counter, AAD, plaintext. (DESIGN CHOICE, log entry 10) -/
opaque gcmTag : Nat → Nat → Bytes → Bytes → Nat
/-- HKDF. (DESIGN CHOICE, log entry 10) -/
opaque kdf : Bytes → Bytes

/-- SHA-384 of the boot ROM's content. (DESIGN CHOICE, log entry 10) -/
opaque romDigest : Bytes
/-- SHA-384 of Brodevo firmware key 0 to 3. (DESIGN CHOICE, log entry 10) -/
opaque romHash : Nat → Bytes
/-- Brodevo's signature of a debug challenge: challenge, signature. (DESIGN CHOICE, log entry 10) -/
opaque brodevoOk : Bytes → Bytes → Bool
/-- The certificate chain of SPDM slot 0 for measurements 1 to 4 (R562). (DESIGN CHOICE, log entry 10) -/
opaque certChain : Bytes → Bytes
/-- SHA-384 of the Brodevo root CA (R565). (DESIGN CHOICE, log entry 10) -/
opaque romRoot : Bytes
/-- Digest of the root of the chain a peer's relay message carries, if it carries one (R565). (DESIGN CHOICE, log entry 10) -/
opaque chainRoot : Bytes → Option Bytes

/-- What bank `b` of the flash holds at the n-th free reading (R553), for an RCV_BOOT that a register write gives. (DESIGN CHOICE, log entry 55) -/
opaque flashBank : Nat → Nat → Option FlashImage

/-- Where the PRBS31 generator of an octet's lane starts (R94). (DESIGN CHOICE, log entry 118) -/
opaque prbsSeed : Nat → Nat → Nat

end Sys2Proof.Config
end

