-- ==== Sys2Proof/Machine/State.lean ====
section
/-! DEFINITION. The machine's state as plain data: the register map's types, every piece of state the spec gives the
device, the queue of waiting commands, and the state after reset. Registers live in one sparse map of words; state
that no register holds lives in the structures below, by chapter of the spec. -/

namespace Sys2Proof.Machine

/-! ## Register map types -/

/-- The block types of Table 2-2; `fn` stands for the register page of a service-endpoint function, which lies in
that function's own BAR0 and not in the control space. -/
inductive Blk
  | dev | ckr | tmb | prf | sec | lck | mgt | fag | ccl | crb | tlm | tbl | prt | sds | drl | slc | ovn | arb
  | dir | scc | tray | dec | tag | egs | pol | gte | acu | ldr | dmv | spu | fn
  deriving DecidableEq, Repr

/-- A block page: a block type and an instance (R41). -/
structure Pg where
  blk : Blk
  inst : Nat
  deriving DecidableEq, Repr

/-- The access types of Table 0-3 (RSV bits belong to no field). -/
inductive Access | rw | ro | w1c | w1s | wo | rwc | rwl
  deriving DecidableEq, Repr

/-- How a count field of a page counts (Table 20-4, 0x100 + k): not a count field, saturating, or wrapping. -/
inductive CntKind | none | sat | wrap
  deriving DecidableEq, Repr

/-- A register: block, page offset of index 0, number of indexes, bytes between indexes, reset word; whether it is
snapshot-capable (R633), implemented in instance 0 only, and reset by a Cold reset only. -/
structure Reg where
  blk : Blk
  off : Nat
  cnt : Nat
  stride : Nat
  rst : Nat
  snap : Bool
  only0 : Bool
  cold : Bool
  deriving DecidableEq, Repr

/-- A field of a register: low bit, width, access type, count kind. -/
structure Fld where
  reg : Reg
  lo : Nat
  width : Nat
  acc : Access
  cnt : CntKind
  deriving DecidableEq, Repr

/-- A register with its fields. -/
structure RegD where
  reg : Reg
  flds : List Fld
  deriving DecidableEq, Repr

/-- A fault source: block, number, default severity, attributable under Table 15-9. -/
structure FSrc where
  blk : Blk
  num : Nat
  sev : Nat
  attr : Bool
  deriving DecidableEq, Repr

/-! ## Control plane -/

/-- A TBL operation in progress in a window (R59): TBL_SEL as it stood at the TBL_CMD write, and INC. -/
structure TblOp where
  op : Nat := 0
  table : Nat := 0
  inst : Nat := 0
  index : Nat := 0
  view : Bool := false
  inc : Bool := false
  deriving DecidableEq, Repr

/-- A COMMIT written and not yet accepted or refused: its page, FORCE, and the TBL windows whose earlier operations
on the page's tables it waits for (R51). -/
structure HeldCommit where
  pg : Pg
  force : Bool := false
  waits : List Nat := []
  deriving DecidableEq, Repr

/-- An access in flight with the rule epoch stamped at its check (R53, Table 15-7). -/
structure Flight where
  id : Nat
  epoch : Nat
  deriving DecidableEq, Repr

/-- Control-plane state that no register of the control space holds. -/
structure Ctl where
  /-- operation in progress, by TBL window (R59) -/
  tblOps : SMap (Option TblOp) := []
  /-- commits with PGEPOCH.PEND set, oldest first (R51, R327) -/
  commits : List HeldCommit := []
  /-- table entries written in the shadow since the last accepted commit of their page (R336): keys of word 0 -/
  written : List Nat := []
  /-- block resets in progress (R50) -/
  resets : List Pg := []
  /-- accesses in flight (R53) -/
  flights : List Flight := []
  nextFlight : Nat := 1
  /-- local time at which each held lock's lease ends (R67) -/
  leaseEnd : SMap Nat := []
  /-- management PF: link up (R590), MSI-X Enable, Function Mask, Bus Master Enable (R40, R64, R640) -/
  pfUp : Bool := false
  msixEn : Bool := false
  fnMask : Bool := false
  busMaster : Bool := false
  /-- MSI-X table of the management PF: unmasked vectors, address and data words, pending bits (R64) -/
  vecOpen : List Nat := []
  vecMsg : SMap (Nat × Nat) := []
  vecPend : List Nat := []
  /-- management PF configuration space: BAR assignments and other words written, by dword (R39, R40) -/
  pfcfg : SMap (BitVec 32) := []
  /-- FM API commands over MCTP that wait until device firmware runs (R38) -/
  fmWait : List Instr := []
  /-- FM API background commands: pages whose commit ends them (R343) -/
  bg : List Pg := []
  deriving DecidableEq, Repr

/-! ## Faults (chapter 19) -/

/-- A requester of this device (R604). -/
inductive Req
  | port (p : Nat)
  | ld (p : Nat) (l : Nat)
  | queue (q : Nat)
  deriving DecidableEq, Repr

/-- An element CONTAIN quarantines (Table 19-2, R604). -/
inductive Elem
  | port (p : Nat) | octet (o : Nat) | link (k : Nat) | slice (s : Nat) | chan (c : Nat)
  | queue (q : Nat) | engine (e : Nat) | slot (n : Nat) | proof | ldKey (p : Nat) (l : Nat)
  deriving DecidableEq, Repr

/-- Who an event concerns: its domain, its requester, the queue or unit it names. -/
structure Who where
  dom : Option Nat := none
  req : Option Req := none
  deriving DecidableEq, Repr

/-- Fault state that no register holds: levels (R609), quarantined elements, persisting causes (R13, R611),
quenched domains (R397), the cause of a halt. -/
structure Flt where
  /-- level of a source, keyed by page address / 4096 * 16 + source -/
  levels : SMap Nat := []
  /-- sources whose cause persists, by the same key -/
  persist : List Nat := []
  quar : List Elem := []
  qdom : List Nat := []
  /-- a HALT raised during a power-fail flush, taken when HU_OK goes low (R608) -/
  haltWait : Option (Nat × Nat × Nat) := none
  /-- sources with an event in the cycle of the command in progress, by the same key, with their level before it + 1; pages
  whose FLT_FIRST was taken in it (R598) -/
  cyc : SMap Nat := []
  cycFirst : List Nat := []
  /-- events that a quarantine or a reset has caused and that are still to be raised (R108, R200) -/
  due : List (FSrc × Nat × Who) := []
  /-- agents whose suspect count has reached 3 while a scan ran, with the domain of the entry, still to be declared dead (R394) -/
  dying : List (Nat × Nat) := []
  deriving DecidableEq, Repr

/-! ## Observability (chapter 20) -/

/-- The time base: local root ticks, the offset that makes fabric time, the rate's remainder, the follower servo. -/
structure Clock where
  local_ : Nat := 0
  offset : Nat := 0
  rateRem : Int := 0
  /-- root ticks since the last TIMECLK edge at which the next commands fall (R27) -/
  sub : Nat := 0
  /-- a TMB_SET value taken at the next TIMECLK edge (R628) -/
  setNext : Option Nat := none
  lockRun : Nat := 0
  ptmT1 : Option Nat := none
  ptmMissed : Nat := 0
  /-- ticks since the heartbeat last advanced -/
  beat : Nat := 0
  deriving DecidableEq, Repr

/-- A pending Crumb latch edge (R631, R632). -/
structure Edge where
  at_ : Nat
  causes : List Nat
  origin : Nat := 0
  id : Nat := 0
  lateBy : Option Nat := none
  deriving DecidableEq, Repr

/-- Crumb state that no register holds. -/
structure Crumb where
  edges : List Edge := []
  nextId : Nat := 0
  seen : List (Nat × Nat) := []
  outUntil : Nat := 0
  deriving DecidableEq, Repr

/-- A record in a ring: offset of its header, length, whether its LEN has been written. -/
structure RRec where
  off : Nat
  len : Nat
  done : Bool
  /-- its words, header first -/
  words : List W64 := []
  deriving DecidableEq, Repr

/-- One telemetry ring (R642 to R650). -/
structure Ring where
  base : Nat := 0
  en : Bool := false
  larder : Bool := false
  size : Nat := 12
  ct : Nat := 0
  level : Nat := 0
  crumb : Bool := false
  head : Nat := 0
  tail : Nat := 0
  err : Bool := false
  seq : Nat := 0
  pending : Nat := 0
  total : Nat := 0
  recs : List RRec := []
  /-- words of the oldest record already popped (R647) -/
  popped : Nat := 0
  deriving DecidableEq, Repr

/-- A collector sweep in progress: its start time and the time its last page was read (R638). -/
structure Sweep where
  start : Nat
  last : Nat
  image : SMap W64
  /-- CCL_CFG.LOC and CCL_BASE as they stood at the start -/
  larder : Bool := false
  base : Nat := 0
  deriving DecidableEq, Repr

structure Obs where
  clk : Clock := {}
  crumb : Crumb := {}
  rings : SMap Ring := []
  sweep : Option Sweep := none
  /-- sweeps written since reset, modulo 2^64: the number of the last one (Table 20-6) -/
  sweeps : Nat := 0
  /-- level events true at the last tick, for EDGE counting (R637): page index * 1024 + event -/
  levels : List Nat := []
  deriving DecidableEq, Repr

/-! ## Lanes and octets (chapter 3) -/

/-- A tap request or its answer (Table 3-7). -/
structure Taps where
  cm2 : Int := 0
  cm1 : Int := -8
  cp1 : Int := -8
  cp2 : Int := 0
  deriving DecidableEq, Repr

/-- A lane's training and health state that no register holds. -/
structure Lane where
  /-- LANE_ID received from the partner -/
  laneId : Option Nat := none
  /-- this transmitter's taps -/
  tx : Taps := {}
  /-- the partner transmitter's taps as this receiver has requested them -/
  partner : Taps := {}
  /-- request outstanding: sequence, REQ byte, preset request -/
  req : Option (Nat × Nat × Option Nat) := none
  reqSeq : Nat := 0
  /-- last answered request of the partner and the answer (R97) -/
  ansSeq : Option Nat := none
  ansResp : Nat := 0
  rxDone : Bool := false
  partnerDone : Bool := false
  /-- counts of the current health window (R110) -/
  corr : Nat := 0
  sync : Nat := 0
  /-- receiver settings in use, and those cached by rate: 0 for 32, 1 for 64, 2 for 128 GT/s, 3 for Dunrun; 0: the defaults,
  nothing valid cached (R85, R86, R117) -/
  rx : Nat := 0
  rxSet : SMap Nat := []
  /-- preset of the partner's CXL transmitter in force (R85, R86) -/
  preset : Nat := 0
  /-- hunt: candidate position in PAM4 symbols, valid headers in a row at it; the lane has locked inverted (R99, R102) -/
  cand : Nat := 0
  run : Nat := 0
  polFix : Bool := false
  /-- of the last 64 blocks of a locked lane, newest first: the header was invalid (R103) -/
  hist : List Bool := []
  /-- state of the transmitter's PRBS31 generator; none before its first block (R94) -/
  prbs : Option Nat := none
  /-- taken out of service for health (R114) -/
  outOfService : Bool := false
  /-- control blocks sent, modulo 4: the fourth is a training control block (R94) -/
  ctlN : Nat := 0
  deriving DecidableEq, Repr

/-- A partner's margining run (R105, R106): its lane, timing or voltage, direction, steps and error limit. -/
structure PMargin where
  lane : Nat
  voltage : Bool := false
  right : Bool := false
  steps : Nat := 0
  limit : Nat := 1
  deriving DecidableEq, Repr

/-- An octet's state that no register holds. -/
structure Octet where
  lanes : SMap Lane := []
  calibrated : Bool := false
  /-- FAILED was entered from CAL (Table 3-4) -/
  failedCal : Bool := false
  /-- DR_TRAIN has already gone back to DR_LOCK once (Table 3-4) -/
  trainRetry : Bool := false
  /-- the partner's LOCK_MASK (R93) -/
  lockMask : Nat := 0
  pllLost : Bool := false
  /-- a local margining run: its lane; a partner's run (R106) -/
  margin : Option Nat := none
  partnerMargin : Option PMargin := none
  /-- transmit direction: physical lane that carries each logical lane, and the spare is in use (R93, R180, R182) -/
  txMap : List Nat := []
  txSpare : Bool := false
  /-- physical lanes that carry CONTROL blocks in DR_ACTIVE: the hot spare, and a lane whose stream has gone to it (R157, R180) -/
  txHot : Option Nat := none
  txOld : Option Nat := none
  /-- SDS_HEALTH_CFG as it binds the window in progress, where it has been written since the window began -/
  windowCfg : Option Nat := none
  deriving DecidableEq, Repr

/-! ## Messages -/

/-- A message with its first-cell sideband (Table 6-1). `src` is the source within this device: 0 to 127 a port,
128 + s the internal endpoint of slice s. `dest` is a destination within this device in the same numbering, or
none while it is not decoded. -/
structure Msg where
  cls : Nat := 0
  src : Nat := 0
  srcG : Nat := 0
  dst : Nat := 0
  int : Bool := false
  len : Nat := 0
  tc : Nat := 0
  domain : Nat := 0
  colour : Nat := 3
  hops : Nat := 0
  ts : Nat := 0
  epoch : Nat := 0
  poison : Bool := false
  sf : Bool := false
  xh : Bool := false
  /-- LAST cell present; TAIL_BAD in it -/
  last : Bool := true
  tailBad : Bool := false
  fence : Nat := 0
  /-- ledger number of the access (R53); 0 when it is none -/
  fid : Nat := 0
  /-- requester of the access, for an answer that fails it -/
  req : Option Req := none
  /-- the VC and sequence number it arrived on, for a message from a Dunrun port -/
  vc : Nat := 0
  seq : Nat := 0
  link : Option Nat := none
  /-- persistent region (attribute P), streaming (S), accept-early (E) of the region that let it pass -/
  attrP : Bool := false
  attrS : Bool := false
  attrE : Bool := false
  /-- decoded by a HOME entry; VCS and decoder entry that decoded it; its Tray entry, its combining entry; coherent
  agent of its sender; home slice that waits for the answer -/
  homed : Bool := false
  vcs : Nat := 0
  entry : Nat := 0
  tray : Nat := 0
  agent : Option Nat := none
  home : Option Nat := none
  /-- its checks have passed (R227); HPA it was checked at; tag words still awaited (R231) -/
  ready : Bool := false
  hpa : Nat := 0
  wait : List Nat := []
  /-- port whose Tray its write takes (R403); its write streams (R416) -/
  tp : Option Nat := none
  stream : Bool := false
  /-- mirrored access it belongs to (R329); 0 when none; the member it is for -/
  mir : Nat := 0
  memb : Nat := 0
  /-- the conservative invalidation that a suspect set calls for has been made (R402) -/
  swept : Bool := false
  /-- of a message from a Dunrun link: its header extension and payload cells as they came (R163), and the link's session in
  which they came (R178) -/
  wire : Option (Bytes × Bytes) := none
  sess : Nat := 0
  /-- L charged to its shaper, 0 when none was (R279, R282) -/
  charged : Nat := 0
  /-- of a read through the acceptance index: place of the first recorded write it must see, 0 when it reads no index (R406) -/
  idx0 : Nat := 0
  /-- a streaming write of a MIRROR entry: its members' copies are made when it leaves the combining buffer (R329, R416) -/
  mirLater : Bool := false
  /-- the DRAIN write of its port that it arrived before, 0 when there is none (R420) -/
  drain : Nat := 0
  /-- it has been counted in GTE_STAT.OVERSIZE (R296) -/
  oversize : Bool := false
  /-- what the message says -/
  body : Body := {}
  deriving DecidableEq, Repr

/-! ## CXL ports (chapter 4) -/

/-- A request sent on a DOWNSTREAM port and not yet answered (R152): its tag, and the message it serves. -/
structure Outst where
  tag : Nat
  ld : Nat := 0
  m : Msg
  deriving DecidableEq, Repr

/-- A GPF phase in progress on an UPSTREAM port (R140): phase, downstream ports not yet answered; `lds`: 16 while it waits
for the phase of the device's own power-fail flush (R542). -/
structure Gpf where
  phase : Nat
  ports : List Nat
  /-- ports of other devices, by global port ID -/
  remote : List Nat := []
  lds : List Nat
  failed : Bool := false
  deriving DecidableEq, Repr

/-- A port's state that no register holds. -/
structure Port where
  /-- ingress: next flit expected; discarding until its replay (R133); parts of a message held; messages checked and
  waiting for their MAC (R137) -/
  rxNext : Nat := 0
  rxHold : Bool := false
  parts : List FlitPart := []
  macWait : List Msg := []
  /-- the first half of flit rxNext has been taken; TLPs whose ECRC did not check (R129) -/
  rxHalf : Bool := false
  ecrcBad : Nat := 0
  /-- flits covered by the MAC in progress -/
  macFlits : Nat := 0
  insecure : Bool := false
  keySets : Nat := 0
  keyPend : Bool := false
  /-- egress: messages taken from the core and not yet started (R134) -/
  tx : List Msg := []
  outst : List Outst := []
  /-- classes for which the partner grants no credit (R223) -/
  dry : List Nat := []
  /-- requests flushed at a quarantine and not yet answered; its link has gone down unreported (Table 19-2, R149) -/
  ended : List Msg := []
  downDue : Bool := false
  /-- tags whose completion timed out or was answered at removal: a late completion is discarded (R152, R333) -/
  lateTags : List Nat := []
  gpf : Option Gpf := none
  /-- GPF phases issued on this DOWNSTREAM port and unanswered: phase, UPSTREAM port served (128 for Proof) -/
  gpfAsk : List (Nat × Nat) := []
  hotAfterGpf : Bool := false
  /-- hot reset sent and L0 not yet reached (R146) -/
  hotSent : Bool := false
  /-- Port reset in progress; PERST_OUT minimum assertion running, transmitters idle until PERST_OUT_N deasserts (R144); power
  good delay elapsed (R143) -/
  resetting : Bool := false
  recallOnly : Bool := false
  perstMin : Bool := false
  perstIdle : Bool := false
  perstDelayDone : Bool := false
  /-- partner facts fixed at negotiation (R123 to R128): HDM-DB, MLD -/
  hdmDb : Bool := false
  negFail : Bool := false
  /-- the device has reversed its own lanes (R101); the port reached L0 with cached equalisation values (R87) -/
  rev : Bool := false
  cachedEq : Bool := false
  deriving DecidableEq, Repr

/-! ## Dunrun links (chapter 5) -/

/-- A packet kept in the replay buffer until acknowledged (R169, R173). -/
structure Replay where
  seq : Nat
  vc : Nat
  bytes : Bytes
  deriving DecidableEq, Repr

/-- A sparing handshake in progress (Table 5-8). -/
structure Spare where
  lane : Nat
  trans : Nat
  block : Option Nat := none
  done : Bool := false
  deriving DecidableEq, Repr

/-- What a block received on a data lane adds to the stream: its payload, with DATA_START or not; nothing, its payload lost;
nothing, for it is no data block. `at_`: fabric time at its arrival (R189). -/
inductive RxBlk
  | data (start : Bool) (pl : Bytes) (at_ : Nat)
  | lost
  | other
  deriving DecidableEq, Repr

/-- A link's state that no register holds. -/
structure Link where
  mismatch : Bool := false
  /-- transmit: replay buffer oldest first; cells sent and credit limit per VC (R177); replays since a release -/
  replay : List Replay := []
  sent : SMap Nat := []
  limit : SMap Nat := []
  replays : Nat := 0
  /-- receive: cumulative credit given per VC; cells freed since the last CREDIT; last sequence consumed -/
  cum : SMap Nat := []
  freed : SMap Nat := []
  consumed : Option Nat := none
  nakOut : Bool := false
  accSinceAck : Nat := 0
  /-- receive stream: bytes not yet parsed; parse lost until the next DATA_START (Table 5-7) -/
  stream : Bytes := []
  parseLost : Bool := false
  /-- number of the stream block that each of those bytes came in -/
  strBlk : List Nat := []
  /-- fabric time at which the latest stream blocks arrived, newest first (R189) -/
  blkAt : List (Nat × Nat) := []
  /-- blocks received and not yet in the stream, by logical lane; the lane whose block comes next; number of that block (R160) -/
  rxQ : SMap (List RxBlk) := []
  rxLane : Nat := 0
  rxBlk : Nat := 0
  /-- stream blocks that a TIME packet may not lie in; logical lanes swapped whose next block is one (R189) -/
  markBlk : List Nat := []
  swapLane : List Nat := []
  /-- a packet whose header was released cut-through is open -/
  openMsg : Bool := false
  spare : Option Spare := none
  /-- handshakes of further lanes, behind the first (R113) -/
  spareMore : List Spare := []
  spareTrans : Nat := 0
  blockCnt : Nat := 0
  /-- number of this run of sequence numbers: a message of an earlier one gives no credit (R178) -/
  session : Nat := 0
  /-- TIME exchange this end started: id, t1, t2, t3, t4 -/
  timeId : Nat := 0
  t1 : Option Nat := none
  t2 : Option Nat := none
  t4 : Option Nat := none
  /-- ports withdrawn by the partner on this link (R195) -/
  withdrawn : List Nat := []
  /-- global ports whose candidates on this link have been removed since the last accepted commit of the route table: by its
  going to DOWN, by a withdrawal (R195) -/
  removed : List Nat := []
  gone : List Nat := []
  /-- encryption, receive: packets waiting for their segments' MACs, with the stream block of each of their bytes;
  plaintext and AAD taken from each stream block; block where segment 0 began; segment whose MAC comes next; key slot, the
  segment it began at, and the slot and segment before it (R184 to R187) -/
  segHold : List (List Nat × Bytes) := []
  acc : SMap (Bytes × Bytes) := []
  rxOrigin : Nat := 0
  macNext : Nat := 0
  rxSlot : Nat := 0
  segBase : Nat := 0
  rxPrev : Nat × Nat := (0, 0)
  /-- segment that began at rxOrigin: not 0 where the link has been down since the keys came into use (R184) -/
  segFirst : Nat := 0
  /-- transmit: stream blocks sent; counter of the segment in progress, its blocks, plaintext and AAD; tags whose MAC is due -/
  txBlk : Nat := 0
  segTx : Nat := 0
  txSegBlk : Nat := 0
  txPt : Bytes := []
  txAad : Bytes := []
  txDue : List Nat := []
  /-- keys have been installed since the last failed MAC (R186) -/
  freshKeys : Bool := false
  macSeen : Bool := false
  stall : List Nat := []
  /-- bytes still to come of a packet already closed by an uncorrectable block (Table 5-7) -/
  skip : Nat := 0
  /-- the transmit direction's handshake: `done` once the lane's stream goes on the spare -/
  spareTx : Option Spare := none
  /-- a commit that has taken the link down waits for it to leave INIT (R202) -/
  cfgWait : Bool := false
  /-- keys in the slots, by slot: transmit 0 and 1, receive 2 and 3 -/
  keys : SMap Nat := []
  deriving DecidableEq, Repr

/-! ## The Oven (chapters 6 and 7) -/

/-- A cell of a stored message: bank of the source slice, index within the bank, read granted; its 64 bytes and its
header-extension field (R204, R205); NEXT in its sideband and in the link memory (R209), 0xFFFF for none. -/
structure Cell where
  bank : Nat
  idx : Nat
  read : Bool := false
  data : Bytes := []
  ext : Bytes := []
  next : Nat := 0xFFFF
  lnk : Nat := 0xFFFF
  /-- its check bits were written inverted (R617): the OVN source that its read meets -/
  bad : Option Nat := none
  deriving DecidableEq, Repr

/-- A message stored in the Oven of its source slice. -/
structure Stored where
  id : Nat
  m : Msg
  cells : List Cell
  /-- its starting bank; cells presented and not yet written (R208) -/
  start : Nat := 0
  late : Nat := 0
  /-- cells reserved and not yet presented -/
  unseen : Nat := 0
  /-- an express claim awaits its decision; taken by its destination on the express path (R227) -/
  claim : Bool := false
  express : Bool := false
  /-- joined its list (linked, R230) -/
  linked : Bool := false
  /-- a colour check has not reported (R231): tag words awaited -/
  tagWait : List Nat := []
  /-- destination within this device, 0 to 127 a port, 128 + h an internal endpoint -/
  dest : Nat
  /-- in delivery or selected at its destination -/
  taken : Bool := false
  deriving DecidableEq, Repr

/-- Core state. -/
structure Core where
  /-- messages each source has ready to present, oldest first (0 to 127 ports, 128 + s internal endpoints) -/
  rel : SMap (List Msg) := []
  /-- sources whose head message is held under R221; of them those whose message has met a full queue; 1000 + source: a full
  Tray (R214, R404) -/
  held : List Nat := []
  full : List Nat := []
  /-- messages in the Oven, in order of admission -/
  oven : List Stored := []
  nextId : Nat := 1
  /-- next tag of a request that awaits an answer -/
  nextTag : Nat := 0
  /-- P-list messages joined and left, by (source, egress, TC) (R213) -/
  pj : SMap Nat := []
  pl : SMap Nat := []
  /-- last source served, by egress * 8 + TC (R225), by 1024 + 3h + channel (R215), last express source (R232) -/
  lastSrc : SMap Nat := []
  lastExp : SMap Nat := []
  /-- starting bank of each slice's allocator (R208) -/
  startBank : SMap Nat := []
  /-- messages delivered to an internal endpoint and not yet taken, by 3h + channel (RSP 0, WB 1, REQ 2) -/
  arrived : SMap (List Msg) := []
  /-- last destination of a slice granted at an arbiter, for R249's round-robin: 16s + d -/
  rrDest : SMap Nat := []
  /-- retiring banks: 16s + b; whether the last decision went to relocation -/
  retiring : List Nat := []
  lastReloc : List Nat := []
  /-- times of corrected errors per bank within the window -/
  bankCe : SMap (List Nat) := []
  /-- presented requests whose parity is bad (R268, R617): 16 * arbiter + requester -/
  reqBad : List Nat := []
  /-- uncorrectable slot-table entries (R267): 128s + slot -/
  slotUe : List Nat := []
  /-- global ports that this device has withdrawn and not restored (R196) -/
  lostPorts : List Nat := []
  /-- a message each source has begun to present whose LAST cell has not come: its stored id -/
  partial_ : SMap Nat := []
  /-- bank writes of the cycle in progress: 8 * (16 * slice + bank) + place of the cell in its message (R208) -/
  written : List Nat := []
  deriving DecidableEq, Repr

/-! ## Coherence (chapters 9 to 12) -/

/-- A directory entry (Table 10-1). `st`: 0 I, 1 S, 2 E, 3 M, 4 O. -/
structure DirEnt where
  tk : Nat
  h : Nat
  way : Nat
  st : Nat
  owner : Option Nat := none
  ownerScc : Bool := false
  sccV : Bool := false
  coarse : Bool := false
  ptrs : List Nat := []
  groups : Nat := 0
  busy : Bool := false
  domain : Nat := 0
  p : Bool := false
  /-- stored check bits are wrong: 0 none, 1 correctable, 2 holder array uncorrectable (R401, R617) -/
  bad : Nat := 0
  deriving DecidableEq, Repr

/-- A slice-cache line. -/
structure SccLine where
  tk : Nat
  h : Nat
  way : Nat
  data : Bytes
  dirty : Bool := false
  poison : Bool := false
  domain : Nat := 0
  p : Bool := false
  /-- stored check bits are wrong: 0 none, 1 correctable, 2 data, 3 tag uncorrectable (R364, R617) -/
  bad : Nat := 0
  /-- its place in the order of use of all lines (R374) -/
  last : Nat := 0
  /-- its dirty data carries an accepted write that has not committed (R412) -/
  acc : Bool := false
  deriving DecidableEq, Repr

/-- The request kinds of Table 10-3, with the two victims. -/
inductive Kind
  | rdS | rdO | ownNd | rdC | wr | atom | wbI | wbS | cln | bisI | bisS | bisC | dirVictim | sccVictim
  | recall | conserv
  deriving DecidableEq, Repr

/-- An open transaction on a line (R357). -/
structure Txn where
  tk : Nat
  h : Nat
  kind : Kind
  m : Msg
  /-- agents whose answers are awaited, and the awaited owner among them -/
  await : List Nat := []
  owner : Option Nat := none
  /-- dirty data collected from the owner; whether the owner keeps a shared copy -/
  dirty : Option Bytes := none
  ownerS : Bool := false
  /-- a target read has been asked for; its data -/
  askedMem : Bool := false
  mem : Option (Bytes × Bool) := none
  /-- a snoop of this transaction timed out (R392) -/
  timedOut : Bool := false
  /-- ordered signal already given (R372) -/
  ordered : Bool := false
  /-- the state the entry had at the decision -/
  st0 : Nat := 0
  /-- a request pending on a victim's eviction (R389) -/
  next : Option Msg := none
  /-- dirty answers are discarded (surprise removal, R333), the result is poisoned (quench, R395) -/
  discard : Bool := false
  poison : Bool := false
  /-- the transaction has no directory entry (RD_C in I, R386) -/
  noEntry : Bool := false
  /-- the entry it leaves, while it waits only for a target write to be presented (R357, R386) -/
  fin : Option DirEnt := none
  deriving DecidableEq, Repr

/-- A request waiting in a line queue, or for a way of its set with its age (R381, R390). -/
structure Wait where
  tk : Nat
  h : Nat
  m : Msg
  retry : Bool := false
  age : Nat := 0
  deriving DecidableEq, Repr

/-- A target write waiting for the write-pending list (R386): line key, bytes, poison, TC, domain, and what the write tells its
answer: 2 × the merges before it + whether it carries an accepted write (R404, R412). -/
structure HeldWr where
  key : Nat
  data : Bytes
  poison : Bool
  tc : Nat
  dom : Nat
  tag : Nat
  deriving DecidableEq, Repr

/-- A slice's home. -/
structure Home where
  txns : List Txn := []
  waits : List Wait := []
  /-- writebacks held for a busy line, by source (R383) -/
  wbHold : SMap (Option Msg) := []
  /-- sources whose REQ channel is stalled for a full wait buffer (R385) -/
  stalled : List Nat := []
  /-- lines with a target write unanswered (R386): TK * 2^46 + H -/
  wrPend : List Nat := []
  /-- suspect sets (R402) -/
  suspectSets : List Nat := []
  disabledWays : List Nat := []
  reseal : Bool := false
  /-- target writes waiting for the write-pending list (R386) -/
  wrHold : List HeldWr := []
  /-- domains whose quench scan runs here (R395) -/
  quenchScan : List Nat := []
  /-- writes of other devices whose lines wait for commit (Table 12-1), with their places among the merges -/
  far : List (Nat × Msg) := []
  /-- lines whose target write failed, to be written with poison when the target next answers (R412): key, domain -/
  failedWr : List (Nat × Nat) := []
  deriving DecidableEq, Repr

/-- A Tray entry (R403). -/
structure TrayEnt where
  id : Nat
  port : Nat
  line : Nat
  tk : Nat
  m : Msg
  ordered : Bool := false
  completed : Bool := false
  /-- row of Table 12-1: 0 HOME, 1 HOME P with credit, 2 HOME P no credit, 3 E, 4 E P credit, 5 other, 6 MIRROR -/
  row : Nat
  posted : Bool := false
  movelive : Bool := false
  /-- its ordering point is reached; how its commit ended (both wait for earlier posted writes, R410) -/
  due : Bool := false
  done : Option Bool := none
  /-- it has waited for index space (R405) -/
  idxWait : Bool := false
  /-- its place among the writes ordered so far (R406) -/
  idx : Nat := 0
  /-- its data is uncorrectable (R411) -/
  bad : Bool := false
  /-- a combining entry in flush: it takes no Tray entry of the port (R418) -/
  cmb : Bool := false
  /-- its place among the merges of the homes, 0 before its home has merged it (R372, R404) -/
  merge : Nat := 0
  deriving DecidableEq, Repr

/-- A combining entry (R417). -/
structure CmbEnt where
  agent : Req
  port : Nat
  line : Nat
  tk : Nat
  epoch : Nat
  be : Nat
  data : Bytes
  m : Msg
  deriving DecidableEq, Repr

/-- A mirrored access in progress (R329, R330): members still to answer, any accepted. -/
structure Mirror where
  id : Nat
  vcs : Nat
  entry : Nat
  write : Bool
  members : List Nat
  accepted : Bool := false
  /-- members that have failed without MIRROR_STALE raised yet -/
  failed : Nat := 0
  m : Msg
  deriving DecidableEq, Repr

/-- A surprise removal whose scan of this device's directories has not ended (R334): key of the lost target, vPPBs bound to
it (128 * vcs + vppb), lines found. -/
structure Removal where
  tk : Nat
  vppbs : List Nat
  lines : Nat
  deriving DecidableEq, Repr

/-- A DRAIN write in progress on an UPSTREAM port: its number, flushes not yet accepted, and functions whose DRAIN reads wait
behind it (R420). -/
structure Drain where
  port : Nat
  seq : Nat
  ids : List Nat
  reads : List Nat := []
  deriving DecidableEq, Repr

structure Coh where
  /-- directory sets, by slice * 16384 + set; slice-cache sets, by slice * 4096 + set; PLRU bits of both -/
  dir : SMap (List DirEnt) := []
  scc : SMap (List SccLine) := []
  dirLru : SMap Nat := []
  sccLru : SMap Nat := []
  /-- uses of slice-cache lines so far (R374) -/
  sccUse : Nat := 0
  homes : SMap Home := []
  tray : List TrayEnt := []
  cmb : List CmbEnt := []
  mirrors : List Mirror := []
  drains : List Drain := []
  nextTray : Nat := 1
  /-- merges of writes by the homes so far (R404) -/
  merges : Nat := 0
  /-- accept-early writes committed while accesses were in flight, for reads that passed the index before (R406, R408) -/
  idxLog : List TrayEnt := []
  /-- agents of other devices: the global port and the domain of their last message to a home here (R340, R395) -/
  agSeen : SMap (Option (Nat × Nat)) := []
  /-- surprise removals whose scans have not ended (R334) -/
  removals : List Removal := []
  /-- suspect count and DEAD bit by agent ID (R393, R394) -/
  suspect : SMap Nat := []
  dead : List Nat := []
  /-- line holds kept by FENCED entries: vcs * 32 + entry; removed vPPBs (STATUS) vcs * 128 + vppb -/
  fenced : List Nat := []
  removed : List Nat := []
  unbinding : List Nat := []
  /-- vPPB configuration space, by (vcs * 128 + vppb) * 4096 + dword (R311); slot registers are computed -/
  vcfg : SMap (BitVec 32) := []
  deriving DecidableEq, Repr

/-! ## The Larder (chapter 13) -/

/-- An access taken by a Larder channel's controller: line (LPA / 64), write data with byte enables, poison, and
where the answer goes: the internal endpoint of a home slice, with the home's line key. -/
structure LdrReq where
  line : Nat
  write : Bool := false
  be : Nat := 0
  data : Bytes := []
  poison : Bool := false
  /-- message answered: returned to its requester through this home slice -/
  home : Nat := 0
  m : Msg := {}
  deriving DecidableEq, Repr

structure Larder where
  /-- bytes by LPA: canonical, an unlisted byte reads 0 -/
  mem : List Host.Cell := []
  /-- lines (LPA / 64) whose poison bit is set; lines whose stored code holds a correctable, an uncorrectable error -/
  poison : List Nat := []
  ce : List Nat := []
  ue : List Nat := []
  /-- accesses taken and not yet done, per channel, oldest first -/
  reqs : SMap (List LdrReq) := []
  /-- corrected errors per row since its repair: channel * 2^25 + rank, bank group, bank, row -/
  rowCe : SMap Nat := []
  softRep : List Nat := []
  hardRep : List Nat := []
  /-- repair in progress: row key, hard; scrub position (channel-local line) -/
  repair : SMap (Option Nat) := []
  scrubPos : SMap Nat := []
  throttled : List Nat := []
  /-- rolling activation counts, by channel * 128 + rank, bank group, bank; the modules' thresholds, by channel (R452) -/
  raa : SMap Nat := []
  rfmThr : SMap Nat := []
  up : Bool := false
  /-- carve-outs asked for by the Larder record in force (R434): tag table, telemetry GiB -/
  wantTag : Bool := true
  wantTlm : Nat := 0
  /-- configuration-space state of the 16 LDs: writes kept, by LD * 1024 + dword -/
  ldcfg : SMap (BitVec 32) := []
  /-- context cache: queues held, least recently used first, with their 16 words -/
  ctxLru : List Nat := []
  ctx : SMap (List W64) := []
  deriving DecidableEq, Repr

/-! ## The Data Mover (chapter 14) -/

/-- An access of a descriptor not yet ended: its tag; 0 source read, 1 second read of COMPARE, 2 write, 3 atomic; its
address, and its offset and length in the range. -/
structure DAcc where
  tag : Nat
  kind : Nat
  addr : Nat
  off : Nat
  len : Nat
  deriving DecidableEq, Repr

/-- A fetched descriptor and what has become of it. -/
structure Desc where
  words : List W64
  slot : Nat := 0
  gen : Nat := 0
  started : Bool := false
  ended : Bool := false
  status : Nat := 0
  result : Nat := 0
  fid : Nat := 0
  /-- 64-byte write and read requests ended failed, poisoned; bytes moved -/
  failedWr : Nat := 0
  poisonRd : Nat := 0
  moved : Nat := 0
  /-- accesses issued and not ended; data read, by 2 × offset, + 1 for COMPARE's second range -/
  accs : List DAcc := []
  chunks : SMap Bytes := []
  /-- aborted by a commit (R479), or stopped by a reset or removal: it issues nothing further -/
  aborted : Bool := false
  /-- the engine that serves it -/
  eng : Nat := 0
  deriving DecidableEq, Repr

/-- A queue's run-time state beside its context. -/
structure Queue where
  /-- descriptors fetched and not yet recorded, in ring order -/
  descs : List Desc := []
  /-- descriptors of earlier generations whose accesses are still in flight -/
  old : List Desc := []
  /-- a RESET held because GEN would collide (R482) -/
  heldReset : Bool := false
  /-- write requests ended failed since the last store barrier completed (R429) -/
  failSince : Nat := 0
  /-- quarantined for a context error: RESET zeroes its owner half (R468) -/
  ctxErr : Bool := false
  /-- tags of record writes to decoded targets, not yet answered -/
  recs : List Nat := []
  deriving DecidableEq, Repr

/-- A MOVE_LIVE migration (R486 to R490). -/
structure Migr where
  queue : Nat
  tag : Nat
  vcs : Nat
  entry : Nat
  tgt : Nat
  base : Nat
  dirty : List Nat := []
  poison : Bool := false
  copied : Nat := 0
  /-- DMV_MLCFG as it stood at acceptance: HOLD_GRAN, PASSES, TRIES -/
  gran : Nat := 8
  passes : Nat := 7
  tries : Nat := 65
  deriving DecidableEq, Repr

/-- An engine's turn for a queue: the queue, and the bytes its descriptors have taken in it (R483). -/
structure Turn where
  queue : Option Nat := none
  moved : Nat := 0
  deriving DecidableEq, Repr

structure Dmv where
  queues : SMap Queue := []
  migr : SMap (Option Migr) := []
  /-- NumVFs of each endpoint while VF Enable is set -/
  vfs : SMap Nat := []
  /-- engine time: current share entry of each engine (R484) -/
  share : SMap Nat := []
  /-- the turn that each engine gives, and the queue from which each slice's round goes on (R483) -/
  turn : SMap Turn := []
  round : SMap Nat := []
  /-- next tag of an access of a queue -/
  nextTag : Nat := 1
  /-- issue rate in force: 0 full, 1 half, 2 a quarter of the cycles (R660) -/
  throttle : Nat := 0
  deriving DecidableEq, Repr

/-! ## Traffic control (chapter 8) -/

/-- A policer's meter (R274): TIMECLK count of its last message, tokens and remainders. -/
structure Meter where
  last : Nat := 0
  tc : Nat := 0
  rc : Nat := 0
  tp : Nat := 0
  rp : Nat := 0
  deriving DecidableEq, Repr

/-- A shaper's buckets: signed tokens and remainders (R279, R280), and what is owed back at the next refill (R282). -/
structure Shaper where
  ctok : Int := 0
  crem : Nat := 0
  ptok : Int := 0
  prem : Nat := 0
  owed : Nat := 0
  deriving DecidableEq, Repr

/-- An egress port's scheduler and gate state (R285, R292 to R298). -/
structure Egress where
  def_ : SMap Int := []
  cptr : Nat := 7
  eptr : Nat := 7
  /-- TCs held to the next opening (R296), each with the tick at which its gate closes: TC + 8 * tick -/
  gateHeld : List Nat := []
  /-- fabric time at which the committed list comes into force (R298); none once it has -/
  switchAt : Option Nat := none
  /-- a gate list was in force before that commit -/
  gateOn : Bool := false
  /-- width and rate last negotiated, 16 * width + rate code (R297) -/
  lastBr : Nat := 0
  deriving DecidableEq, Repr

structure Traffic where
  meters : SMap Meter := []
  shapers : SMap Shaper := []
  egress : SMap Egress := []
  deriving DecidableEq, Repr

/-! ## Whole device -/

/-- What leaves the device or is shown to the world outside: the model's own trace. (DESIGN CHOICE, log entry 30; DESIGN CHOICE, log entry 94) -/
inductive Emit
  /-- MSI-X message of the management PF, of a function -/
  | msi (vector addr data : Nat)
  | vfMsi (fn vector : Nat)
  /-- a message started on a CXL port -/
  | portMsg (p : Nat) (m : Msg)
  /-- link-layer acts of a CXL port: NAK of a flit, hot reset sent, PTM, GPF phase or answer, LD reset -/
  | flitNak (p seq : Nat)
  /-- the next flit leaves with every bit of its CRC inverted (Table 19-3) -/
  | flitBad (p : Nat)
  | hotReset (p : Nat)
  | ldReset (p ld : Nat)
  | gpf (p phase : Nat) (ok : Bool)
  /-- UPSTREAM port p advertises its GPF phase 2 duration, in µs (R140) -/
  | gpfDuration (p us : Nat)
  | ptmReq (p : Nat)
  | ptmResp (p ns : Nat)
  | hotPlug (vcs vppb : Nat)
  | aer (vcs vppb kind : Nat)
  /-- bytes of a packet sent on a Dunrun link; training control block sent on a lane -/
  | dunrun (k : Nat) (bytes : Bytes)
  /-- a block of the link's stream on a physical lane of its octet -/
  | block (o lane : Nat) (raw : Bytes)
  | training (o lane : Nat) (bytes : Bytes)
  /-- margining status not ready, or the answer to a margining command, to the partner (R105, R106) -/
  | marginBusy (o lane : Nat)
  | marginAnswer (o lane value : Nat)
  /-- training sets of a CXL port: equalisation bypass and no equalisation needed advertised; equalisation run at a rate, with
  phases 2 and 3 (R84, R86) -/
  | eqOffer (p : Nat) (bypass noEq : Bool)
  | equalise (p rate : Nat) (full : Bool)
  /-- memory write of the management PF -/
  | hostWrite (addr : Nat) (bytes : Bytes)
  /-- refresh-management command to a bank of a channel: rank, bank group, bank as LDR_PPR places them (R452) -/
  | rfm (c bank : Nat)
  /-- bytes written to a flash bank in recovery -/
  | flashWrite (bank off : Nat) (bytes : Bytes)
  /-- answer to a control-space or function-register read -/
  | readData (path value : Nat)
  | readAbort (path cause : Nat)
  | fnRead (fn value : Nat)
  /-- answer to an FM API, mailbox, SPDM or security command -/
  | fmResp (code : Nat) (bytes : Bytes)
  | spdm (bytes : Bytes)
  | avs (mv : Nat)
  /-- a snapshot pulse, a PERST_OUT_N change, a slot gate change -/
  | snapOut
  | gate (n : Nat) (on : Bool)
  deriving DecidableEq, Repr

/-- Access control run-time state (chapter 15). -/
structure Prot where
  /-- tag cache: (way, word) of each set, and its tree bits, by slice * 4096 + set -/
  tagCache : SMap (List (Nat × Nat)) := []
  tagLru : SMap Nat := []
  /-- tag words being fetched, by slice, oldest first; of them those invalidated since they were asked for (R503) -/
  misses : SMap (List Nat) := []
  stale : SMap (List Nat) := []
  /-- cached words whose check bits are wrong, by slice * 2^27 + word: 1 correctable, 2 uncorrectable (R502, R617) -/
  tagErr : SMap Nat := []
  deriving DecidableEq, Repr

/-! ## Slot power and Proof (chapter 16) -/

/-- A slot power unit beside its registers: time of the power die's oscillator at which its cool-down ends (0: not running), whether its
insertion timer has elapsed. The gate is on in states RAMP and ON of SPU_STAT. -/
structure Slot where
  coolEnd : Nat := 0
  insDone : Bool := false
  deriving DecidableEq, Repr

/-- Proof beside its registers. -/
structure Proof where
  /-- step of Table 16-3 in progress: 0 none, 1 waits for the held total, 2 HU_ISO asserted, 4 HU_LOAD asserted,
  5 settling after the load -/
  step : Nat := 0
  /-- V1 in microvolts, test charge in nanocoulombs, load time in microseconds -/
  v1 : Nat := 0
  charge : Nat := 0
  loadUs : Nat := 0
  /-- pins -/
  huOk : Bool := true
  huIso : Bool := false
  huLoad : Bool := false
  /-- blocks granted to a slice's slice cache, to its Trays and combining buffers (R537) -/
  sccBlocks : SMap Nat := []
  tryBlocks : SMap Nat := []
  /-- Vstart, averaged HU_SENSE reading in millivolts -/
  vstart : Nat := 0
  /-- D_max held at 0 by CONTAIN until the next valid measurement (Table 19-2) -/
  contained : Bool := false
  /-- flush: local times of its start and of GPF phase 1; DOWNSTREAM ports that have not answered the phase -/
  flushAt : Nat := 0
  phase1At : Nat := 0
  waitPorts : List Nat := []
  phase : Nat := 0
  /-- slice-cache lines written for the flush (TK * 2^46 + H); ports that were sent the phases -/
  flushWr : List Nat := []
  gpfPorts : List Nat := []
  /-- PRF_LOG as it stood before the flush in progress (R661) -/
  logSave : W64 := 0
  deriving DecidableEq, Repr

/-! ## Octold (chapter 17) -/

/-- The fuse array (Table 17-1): anti-rollback counter, revocation bits, customer key hash when fused. -/
structure Fuses where
  arc : Nat := 0
  krev : Nat := 0
  cust : Option Bytes := none
  deriving DecidableEq, Repr

/-- The running image's manifest values (Table 17-2). -/
structure Image where
  bank : Nat := 0
  bseq : Nat := 0
  svn : Nat := 0
  version : Nat := 0
  digest : Bytes := []
  /-- customer public key of the manifest -/
  custPub : Bytes := []
  deriving DecidableEq, Repr

/-- A Dunrun key exchange of a link (R567, R568): in progress, or abandoned and waiting to start again. -/
structure KeyX where
  running : Bool := false
  abandoned : Bool := false
  done : Bool := false
  deriving DecidableEq, Repr

/-- A bundle being applied: its bytes, the next record's offset and index, the page whose commit it waits for (page
number + 1), the pages whose locks it cleared, and whether it is the boot bundle. -/
structure BundleRun where
  bytes : Bytes
  off : Nat := 64
  idx : Nat := 0
  wait : Nat := 0
  cleared : List Pg := []
  boot : Bool := false
  /-- PGEPOCH.SEQ of that page before its COMMIT -/
  seq0 : Nat := 0
  deriving DecidableEq, Repr

structure Sec where
  /-- fuses as loaded; none until the first load -/
  fuses : Option Fuses := none
  image : Option Image := none
  /-- the bank and image tried last that verified, reloaded by a restart (R554) -/
  challenge : Option Bytes := none
  /-- trust anchors 0 to 7 (R565) -/
  anchors : SMap Bytes := []
  /-- open SPDM sessions that count against the 32; open link sessions by their slot (0 to 127 ports, 128 + k links) -/
  sessions : List Nat := []
  nextSession : Nat := 1
  linkSess : SMap Nat := []
  /-- measurements 5, 6 and 7 as last computed (R564); others are computed when asked for -/
  meas : SMap Bytes := []
  /-- the object streamed through the window: bytes by offset -/
  stream : SMap Byte := []
  kx : SMap KeyX := []
  /-- relay messages for links, waiting for SEC_OUT -/
  relayQ : List (Nat × Bytes) := []
  bootBundle : Bool := false
  /-- the management complex has stopped and not restarted (R38, R554) -/
  crashed : Bool := false
  /-- SPDM requests that wait while a bundle is part applied, with their sources (R563) -/
  spdmWait : List (Nat × Spdm) := []
  /-- bundle whose application waits for a commit (R559) -/
  bundle : Option BundleRun := none
  deriving DecidableEq, Repr

/-! ## Resets and start-up (chapter 18) -/

/-- Where the device stands in Tables 18-5 and 18-6. -/
inductive Phase
  /-- PWR_GOOD low; held by COLD_RST_N; starting; FABRIC_READY has risen; quiescing before reset entry -/
  | off | coldHeld | starting | running | quiesce
  deriving DecidableEq, Repr

/-- Reset scopes, with the codes of DEV_RST.SCOPE. -/
inductive Scope | cold | warm | control | slice | domain | port
  deriving DecidableEq, Repr

/-- A reset requested or in progress: trigger and path codes of CKR_RSTLOG; `step` 1 while its recall or quiesce
runs, 2 once that has ended. -/
structure RstReq where
  scope : Scope
  target : Nat := 0
  trigger : Nat := 4
  path : Nat := 0
  step : Nat := 1
  deriving DecidableEq, Repr

structure Rst where
  phase : Phase := .starting
  /-- the start in progress, or the last one: Cold, Warm or Control -/
  kind : Scope := .cold
  /-- Slice, Domain and Port resets in progress -/
  active : List RstReq := []
  /-- the Warm or Control reset whose quiesce runs; a reset that waits for HU_OK low (R37, R544) -/
  pend : Option RstReq := none
  afterFlush : Option RstReq := none
  quiesceAt : Nat := 0
  escalated : Bool := false
  /-- supplies and pins -/
  vddAux : Bool := true
  pwrGood : Bool := true
  coldPin : Bool := false
  clockLost : Bool := false
  thermTrip : Bool := false
  /-- PERST_OUT_N pins deasserted (R143) -/
  perstOut : List Nat := []
  /-- Cold start: the first Proof measurement has ended (Table 18-4); management PF trained -/
  measEnded : Bool := false
  deriving DecidableEq, Repr

/-- AVSBus and sensors (chapter 21): target last acknowledged and commanded, in millivolts; sensor readings in °C. -/
structure Elec where
  /-- time of the power die's own oscillator, in units of a root tick (R28) -/
  osc : Nat := 0
  avsAck : Nat := 750
  temps : SMap Int := []
  deriving DecidableEq, Repr

/-- (DESIGN CHOICE, log entry 5; DESIGN CHOICE, log entry 12) -/
structure Dev where
  /-- active register words by control-space address; an unlisted register reads its reset value -/
  regs : SMap W64 := []
  /-- shadow words of registers with RWC fields (R12, R51), previous active words (R326), snapshot copies (R633) -/
  shadow : SMap W64 := []
  prev : SMap W64 := []
  snap : SMap W64 := []
  /-- table entries behind the TBL windows: active, shadow, previous active copies -/
  tabs : SMap W64 := []
  tabSh : SMap W64 := []
  tabPrev : SMap W64 := []
  /-- entries (keys of word 0) whose active, shadow, previous active copy is uncorrectable; of the active ones those whose
  page has raised it (R302, R305, R308, R322, R515, R619) -/
  tabUe : List Nat := []
  tabUeSh : List Nat := []
  tabUePrev : List Nat := []
  tabUeSeen : List Nat := []
  ctl : Ctl := {}
  flt : Flt := {}
  obs : Obs := {}
  octets : SMap Octet := []
  ports : SMap Port := []
  links : SMap Link := []
  core : Core := {}
  coh : Coh := {}
  ldr : Larder := {}
  dmv : Dmv := {}
  traf : Traffic := {}
  prot : Prot := {}
  slots : SMap Slot := []
  prf : Proof := {}
  sec : Sec := {}
  rst : Rst := {}
  elec : Elec := {}
  /-- the model's own: counter of free values drawn; trace of what left the device -/
  free : Nat := 0
  out : List Emit := []
  deriving DecidableEq, Repr

/-- The block: the device, and the commands waiting, first in first out. -/
structure State where
  dev : Dev := {}
  pending : List Instr := []
  deriving DecidableEq, Repr

/-- Why a step stops with a fault. Raised by every meaning whose operand names something the device does not have. -/
inductive Fault
  /-- The command's operand names a unit, lane, index or width outside the device's ranges (a port above 127, a lane
  above 8): nothing of the spec answers to it. Raised by `run` in every meaning with a ranged operand. Safe. -/
  | noSuchUnit (row : String)
  deriving DecidableEq, Repr

/-- Why a step is refused. -/
inductive Refusal
  /-- The command has no meaning in this model yet. Raised by an arm of `exec` only. Safe. -/
  | notModelled (mnemonic : String)
  deriving DecidableEq, Repr

/-- The device right after the Cold reset has been released by PWR_GOOD (R574, R581): every register at the reset
value of its table (an unlisted word reads it), CKR_RSTLOG with TRIGGER PWR_GOOD, tables at their reset words, the
Larder's memory with nothing listed, no command waiting. (DESIGN CHOICE, log entry 1; DESIGN CHOICE, log entry 5) -/
def State.reset : State :=
  { dev := {}, pending := [] }


end Sys2Proof.Machine
end

