-- ==== Sys2Proof/Machine/Regs.lean ====
section
/-! DEFINITION. The register map of the control space: every register and every field of the spec's register
tables (offset, count, stride, reset value, bits, access type), by block page, and every block's fault sources
with their default severities. Offsets and resets are the spec's; nothing here is behaviour. -/

namespace Sys2Proof.Machine

/-- Page Identity, offset 0x000 (02_control_space.md). -/
def PGID (b : Blk) : Reg := ⟨b, 0x0, 1, 8, 0x0, false, false, false⟩
def PGID_TYPE (b : Blk) : Fld := ⟨PGID b, 0, 8, .ro, .none⟩
def PGID_INST (b : Blk) : Fld := ⟨PGID b, 8, 8, .ro, .none⟩
def PGID_LAYOUT (b : Blk) : Fld := ⟨PGID b, 16, 8, .ro, .none⟩

/-- Page Capabilities, offset 0x008 (02_control_space.md). -/
def PGCAP (b : Blk) : Reg := ⟨b, 0x8, 1, 8, 0x0, false, false, false⟩
def PGCAP_NFLT (b : Blk) : Fld := ⟨PGCAP b, 0, 5, .ro, .none⟩
def PGCAP_SNAP (b : Blk) : Fld := ⟨PGCAP b, 5, 1, .ro, .none⟩
def PGCAP_SHADOW (b : Blk) : Fld := ⟨PGCAP b, 6, 1, .ro, .none⟩
def PGCAP_LOCKABLE (b : Blk) : Fld := ⟨PGCAP b, 7, 1, .ro, .none⟩
def PGCAP_RULE (b : Blk) : Fld := ⟨PGCAP b, 8, 1, .ro, .none⟩
def PGCAP_BLKCAP (b : Blk) : Fld := ⟨PGCAP b, 32, 32, .ro, .none⟩

/-- Page Status, offset 0x010 (02_control_space.md). -/
def PGSTAT (b : Blk) : Reg := ⟨b, 0x10, 1, 8, 0x8, false, false, false⟩
def PGSTAT_FLT_PEND (b : Blk) : Fld := ⟨PGSTAT b, 0, 1, .ro, .none⟩
def PGSTAT_SNAP_VALID (b : Blk) : Fld := ⟨PGSTAT b, 1, 1, .w1c, .none⟩
def PGSTAT_BUSY (b : Blk) : Fld := ⟨PGSTAT b, 2, 1, .ro, .none⟩
def PGSTAT_AVAIL (b : Blk) : Fld := ⟨PGSTAT b, 3, 1, .ro, .none⟩
def PGSTAT_CMT_ERR (b : Blk) : Fld := ⟨PGSTAT b, 4, 1, .w1c, .none⟩
def PGSTAT_CMT_CODE (b : Blk) : Fld := ⟨PGSTAT b, 8, 8, .ro, .none⟩

/-- Page Control, offset 0x018 (02_control_space.md). -/
def PGCTL (b : Blk) : Reg := ⟨b, 0x18, 1, 8, 0x0, false, false, false⟩
def PGCTL_ENABLE (b : Blk) : Fld := ⟨PGCTL b, 0, 1, .rw, .none⟩
def PGCTL_BRST (b : Blk) : Fld := ⟨PGCTL b, 1, 1, .wo, .none⟩
def PGCTL_COMMIT (b : Blk) : Fld := ⟨PGCTL b, 2, 1, .wo, .none⟩
def PGCTL_FORCE (b : Blk) : Fld := ⟨PGCTL b, 3, 1, .wo, .none⟩
def PGCTL_DISCARD (b : Blk) : Fld := ⟨PGCTL b, 4, 1, .wo, .none⟩

/-- Page Epoch, offset 0x020 (02_control_space.md). -/
def PGEPOCH (b : Blk) : Reg := ⟨b, 0x20, 1, 8, 0x10000, false, false, false⟩
def PGEPOCH_SEQ (b : Blk) : Fld := ⟨PGEPOCH b, 0, 16, .ro, .none⟩
def PGEPOCH_APPLIED (b : Blk) : Fld := ⟨PGEPOCH b, 16, 1, .ro, .none⟩
def PGEPOCH_PEND (b : Blk) : Fld := ⟨PGEPOCH b, 17, 1, .ro, .none⟩

/-- Page Lock, offset 0x028 (02_control_space.md). -/
def PGLOCK (b : Blk) : Reg := ⟨b, 0x28, 1, 8, 0x0, false, false, false⟩
def PGLOCK_LOCKED (b : Blk) : Fld := ⟨PGLOCK b, 0, 1, .w1s, .none⟩

/-- Table Select, offset 0x140 (02_control_space.md). -/
def TBL_SEL : Reg := ⟨.tbl, 0x140, 1, 8, 0x0, false, false, false⟩
def TBL_SEL_TABLE : Fld := ⟨TBL_SEL, 0, 8, .rw, .none⟩
def TBL_SEL_INST : Fld := ⟨TBL_SEL, 8, 8, .rw, .none⟩
def TBL_SEL_INDEX : Fld := ⟨TBL_SEL, 16, 32, .rw, .none⟩
def TBL_SEL_VIEW : Fld := ⟨TBL_SEL, 48, 1, .rw, .none⟩

/-- Table Data, offset 0x148 + 8i for i 0 to 7 (02_control_space.md). -/
def TBL_DATA : Reg := ⟨.tbl, 0x148, 8, 8, 0x0, false, false, false⟩
def TBL_DATA_DATA : Fld := ⟨TBL_DATA, 0, 64, .rw, .none⟩

/-- Table Command, offset 0x188 (02_control_space.md). -/
def TBL_CMD : Reg := ⟨.tbl, 0x188, 1, 8, 0x0, false, false, false⟩
def TBL_CMD_OP : Fld := ⟨TBL_CMD, 0, 3, .wo, .none⟩
def TBL_CMD_INC : Fld := ⟨TBL_CMD, 3, 1, .wo, .none⟩

/-- Table Status, offset 0x190 (02_control_space.md). -/
def TBL_STAT : Reg := ⟨.tbl, 0x190, 1, 8, 0x0, false, false, false⟩
def TBL_STAT_BUSY : Fld := ⟨TBL_STAT, 0, 1, .ro, .none⟩
def TBL_STAT_OVR : Fld := ⟨TBL_STAT, 1, 1, .w1c, .none⟩
def TBL_STAT_ERR : Fld := ⟨TBL_STAT, 4, 4, .ro, .none⟩
def TBL_STAT_WORDS : Fld := ⟨TBL_STAT, 8, 4, .ro, .none⟩

/-- Lock Status, offset 0x140 + 16i for i 0 to 63 (02_control_space.md). -/
def LCK_STAT : Reg := ⟨.lck, 0x140, 64, 16, 0x0, false, false, false⟩
def LCK_STAT_HELD : Fld := ⟨LCK_STAT, 0, 1, .ro, .none⟩
def LCK_STAT_BROKEN : Fld := ⟨LCK_STAT, 1, 1, .ro, .none⟩
def LCK_STAT_CAUSE : Fld := ⟨LCK_STAT, 2, 2, .ro, .none⟩
def LCK_STAT_PATH : Fld := ⟨LCK_STAT, 4, 4, .ro, .none⟩
def LCK_STAT_TAG : Fld := ⟨LCK_STAT, 8, 16, .ro, .none⟩
def LCK_STAT_REMAIN : Fld := ⟨LCK_STAT, 24, 20, .ro, .none⟩

/-- Lock Command, offset 0x148 + 16i for i 0 to 63 (02_control_space.md). -/
def LCK_CMD : Reg := ⟨.lck, 0x148, 64, 16, 0x0, false, false, false⟩
def LCK_CMD_OP : Fld := ⟨LCK_CMD, 0, 3, .wo, .none⟩
def LCK_CMD_TAG : Fld := ⟨LCK_CMD, 8, 16, .wo, .none⟩
def LCK_CMD_LEASE : Fld := ⟨LCK_CMD, 24, 20, .wo, .none⟩

/-- Device Identity, offset 0x140 (02_control_space.md). -/
def DEV_ID : Reg := ⟨.dev, 0x140, 1, 8, 0x45b18128, false, false, false⟩
def DEV_ID_PART : Fld := ⟨DEV_ID, 0, 16, .ro, .none⟩
def DEV_ID_REV : Fld := ⟨DEV_ID, 16, 8, .ro, .none⟩
def DEV_ID_GRADE : Fld := ⟨DEV_ID, 24, 8, .ro, .none⟩

/-- Device Serial Number, offset 0x148 (02_control_space.md). -/
def DEV_SERIAL : Reg := ⟨.dev, 0x148, 1, 8, 0x0, false, false, false⟩
def DEV_SERIAL_SERIAL : Fld := ⟨DEV_SERIAL, 0, 64, .ro, .none⟩

/-- Fabric Membership, offset 0x150 (02_control_space.md). -/
def DEV_FABRIC : Reg := ⟨.dev, 0x150, 1, 8, 0x0, false, false, false⟩
def DEV_FABRIC_DEVID : Fld := ⟨DEV_FABRIC, 0, 4, .rwl, .none⟩
def DEV_FABRIC_FABRIC_EN : Fld := ⟨DEV_FABRIC, 8, 1, .rwl, .none⟩

/-- Rule Epoch, offset 0x158 (02_control_space.md). -/
def DEV_RULE_EPOCH : Reg := ⟨.dev, 0x158, 1, 8, 0x100000000, true, false, false⟩
def DEV_RULE_EPOCH_EPOCH : Fld := ⟨DEV_RULE_EPOCH, 0, 16, .ro, .none⟩
def DEV_RULE_EPOCH_OLDEST : Fld := ⟨DEV_RULE_EPOCH, 16, 16, .ro, .none⟩
def DEV_RULE_EPOCH_DRAINED : Fld := ⟨DEV_RULE_EPOCH, 32, 1, .ro, .none⟩

/-- Configuration Lock, offset 0x160 (02_control_space.md). -/
def DEV_CFG_LOCK : Reg := ⟨.dev, 0x160, 1, 8, 0x0, false, false, false⟩
def DEV_CFG_LOCK_LOCK : Fld := ⟨DEV_CFG_LOCK, 0, 1, .w1s, .none⟩
def DEV_CFG_LOCK_ALL : Fld := ⟨DEV_CFG_LOCK, 1, 1, .ro, .none⟩

/-- Readiness, offset 0x168 (02_control_space.md). -/
def DEV_READY : Reg := ⟨.dev, 0x168, 1, 8, 0x0, true, false, false⟩
def DEV_READY_FABRIC_READY : Fld := ⟨DEV_READY, 0, 1, .ro, .none⟩
def DEV_READY_FW_RUN : Fld := ⟨DEV_READY, 1, 1, .ro, .none⟩
def DEV_READY_FUSES_OK : Fld := ⟨DEV_READY, 2, 1, .ro, .none⟩
def DEV_READY_LARDER_READY : Fld := ⟨DEV_READY, 3, 1, .ro, .none⟩
def DEV_READY_PROOF_DONE : Fld := ⟨DEV_READY, 4, 1, .ro, .none⟩
def DEV_READY_SDS_CAL : Fld := ⟨DEV_READY, 5, 1, .ro, .none⟩

/-- Reset Request, offset 0x170 (02_control_space.md). -/
def DEV_RST : Reg := ⟨.dev, 0x170, 1, 8, 0x0, false, false, false⟩
def DEV_RST_SCOPE : Fld := ⟨DEV_RST, 0, 3, .wo, .none⟩
def DEV_RST_TARGET : Fld := ⟨DEV_RST, 8, 10, .wo, .none⟩
def DEV_RST_KEY : Fld := ⟨DEV_RST, 24, 8, .wo, .none⟩

/-- Scratch, offset 0x178 (02_control_space.md). -/
def DEV_SCRATCH : Reg := ⟨.dev, 0x178, 1, 8, 0x0, false, false, false⟩
def DEV_SCRATCH_DATA : Fld := ⟨DEV_SCRATCH, 0, 64, .rw, .none⟩

/-- Firmware Version, offset 0x140 (02_control_space.md). -/
def MGT_FW_VER : Reg := ⟨.mgt, 0x140, 1, 8, 0x0, false, false, false⟩
def MGT_FW_VER_MINOR : Fld := ⟨MGT_FW_VER, 0, 16, .ro, .none⟩
def MGT_FW_VER_MAJOR : Fld := ⟨MGT_FW_VER, 16, 16, .ro, .none⟩
def MGT_FW_VER_SVN : Fld := ⟨MGT_FW_VER, 32, 16, .ro, .none⟩
def MGT_FW_VER_BANK : Fld := ⟨MGT_FW_VER, 48, 1, .ro, .none⟩

/-- Firmware Heartbeat, offset 0x148 (02_control_space.md). -/
def MGT_HEARTBEAT : Reg := ⟨.mgt, 0x148, 1, 8, 0x0, false, false, false⟩
def MGT_HEARTBEAT_COUNT : Fld := ⟨MGT_HEARTBEAT, 0, 64, .ro, .none⟩

/-- Access Error Log, offset 0x150 (02_control_space.md). -/
def MGT_ERRLOG : Reg := ⟨.mgt, 0x150, 1, 8, 0x0, false, false, false⟩
def MGT_ERRLOG_OFFSET : Fld := ⟨MGT_ERRLOG, 0, 26, .ro, .none⟩
def MGT_ERRLOG_WRITE : Fld := ⟨MGT_ERRLOG, 26, 1, .ro, .none⟩
def MGT_ERRLOG_PATH : Fld := ⟨MGT_ERRLOG, 27, 3, .ro, .none⟩
def MGT_ERRLOG_CAUSE : Fld := ⟨MGT_ERRLOG, 32, 8, .ro, .none⟩
def MGT_ERRLOG_VALID : Fld := ⟨MGT_ERRLOG, 63, 1, .w1c, .none⟩

/-- Interrupt Control, offset 0x158 (02_control_space.md). -/
def MGT_IRQ_CTL : Reg := ⟨.mgt, 0x158, 1, 8, 0x0, false, false, false⟩
def MGT_IRQ_CTL_MASTER_EN : Fld := ⟨MGT_IRQ_CTL, 0, 1, .rw, .none⟩

/-- Firmware Mailbox Control, offset 0x160 (02_control_space.md). -/
def MGT_MBOX_CTL : Reg := ⟨.mgt, 0x160, 1, 8, 0x0, false, false, false⟩
def MGT_MBOX_CTL_GO : Fld := ⟨MGT_MBOX_CTL, 0, 1, .w1s, .none⟩
def MGT_MBOX_CTL_BUSY : Fld := ⟨MGT_MBOX_CTL, 1, 1, .ro, .none⟩
def MGT_MBOX_CTL_DONE : Fld := ⟨MGT_MBOX_CTL, 2, 1, .w1c, .none⟩
def MGT_MBOX_CTL_STATUS : Fld := ⟨MGT_MBOX_CTL, 8, 8, .ro, .none⟩
def MGT_MBOX_CTL_OPCODE : Fld := ⟨MGT_MBOX_CTL, 16, 16, .rw, .none⟩
def MGT_MBOX_CTL_LEN : Fld := ⟨MGT_MBOX_CTL, 32, 10, .rw, .none⟩

/-- Firmware Mailbox Buffer, offset 0x200 to 0x3F8 (02_control_space.md). -/
def MGT_MBOX_BUF : Reg := ⟨.mgt, 0x200, 64, 8, 0x0, false, false, false⟩
def MGT_MBOX_BUF_DATA : Fld := ⟨MGT_MBOX_BUF, 0, 64, .rw, .none⟩

/-- Octet Mode, offset 0x140 (03_lanes_and_octets.md). -/
def SDS_MODE : Reg := ⟨.sds, 0x140, 1, 8, 0xb70, false, false, false⟩
def SDS_MODE_MODE : Fld := ⟨SDS_MODE, 0, 2, .rwc, .none⟩
def SDS_MODE_FORM : Fld := ⟨SDS_MODE, 2, 2, .rwc, .none⟩
def SDS_MODE_MAXRATE : Fld := ⟨SDS_MODE, 4, 4, .rwc, .none⟩
def SDS_MODE_POL_AUTO : Fld := ⟨SDS_MODE, 8, 1, .rwc, .none⟩
def SDS_MODE_REV_AUTO : Fld := ⟨SDS_MODE, 9, 1, .rwc, .none⟩
def SDS_MODE_CXL_DEGRADE : Fld := ⟨SDS_MODE, 10, 1, .rwc, .none⟩
def SDS_MODE_EQ_FAST : Fld := ⟨SDS_MODE, 11, 1, .rwc, .none⟩

/-- Octet Status, offset 0x148 (03_lanes_and_octets.md). -/
def SDS_STAT : Reg := ⟨.sds, 0x148, 1, 8, 0x0, true, false, false⟩
def SDS_STAT_STATE_A : Fld := ⟨SDS_STAT, 0, 4, .ro, .none⟩
def SDS_STAT_STATE_B : Fld := ⟨SDS_STAT, 4, 4, .ro, .none⟩
def SDS_STAT_RATE_A : Fld := ⟨SDS_STAT, 8, 4, .ro, .none⟩
def SDS_STAT_RATE_B : Fld := ⟨SDS_STAT, 12, 4, .ro, .none⟩
def SDS_STAT_WIDTH_A : Fld := ⟨SDS_STAT, 16, 5, .ro, .none⟩
def SDS_STAT_WIDTH_B : Fld := ⟨SDS_STAT, 21, 5, .ro, .none⟩
def SDS_STAT_SPARE_IN_USE : Fld := ⟨SDS_STAT, 26, 1, .ro, .none⟩
def SDS_STAT_PLL_LOCK : Fld := ⟨SDS_STAT, 27, 1, .ro, .none⟩

/-- Lane Status, offset 0x150 + 8l for l 0 to 8 (03_lanes_and_octets.md). -/
def SDS_LANE : Reg := ⟨.sds, 0x150, 9, 8, 0x78, true, false, false⟩
def SDS_LANE_PRESENT : Fld := ⟨SDS_LANE, 0, 1, .ro, .none⟩
def SDS_LANE_LOCK : Fld := ⟨SDS_LANE, 1, 1, .ro, .none⟩
def SDS_LANE_POL_INV : Fld := ⟨SDS_LANE, 2, 1, .ro, .none⟩
def SDS_LANE_LOGICAL : Fld := ⟨SDS_LANE, 3, 4, .ro, .none⟩
def SDS_LANE_SPARE : Fld := ⟨SDS_LANE, 7, 1, .ro, .none⟩
def SDS_LANE_PSTATE : Fld := ⟨SDS_LANE, 8, 2, .ro, .none⟩
def SDS_LANE_EYE : Fld := ⟨SDS_LANE, 16, 10, .ro, .none⟩
def SDS_LANE_EYE_W : Fld := ⟨SDS_LANE, 32, 10, .ro, .none⟩

/-- Equalisation Cache, offset 0x198 + 8l for l 0 to 8 (03_lanes_and_octets.md). -/
def SDS_EQ_CACHE : Reg := ⟨.sds, 0x198, 9, 8, 0x0, false, false, true⟩
def SDS_EQ_CACHE_P32 : Fld := ⟨SDS_EQ_CACHE, 0, 4, .rw, .none⟩
def SDS_EQ_CACHE_Q64 : Fld := ⟨SDS_EQ_CACHE, 4, 4, .rw, .none⟩
def SDS_EQ_CACHE_Q128 : Fld := ⟨SDS_EQ_CACHE, 8, 4, .rw, .none⟩
def SDS_EQ_CACHE_VALID32 : Fld := ⟨SDS_EQ_CACHE, 12, 1, .rw, .none⟩
def SDS_EQ_CACHE_VALID64 : Fld := ⟨SDS_EQ_CACHE, 13, 1, .rw, .none⟩
def SDS_EQ_CACHE_VALID128 : Fld := ⟨SDS_EQ_CACHE, 14, 1, .rw, .none⟩
def SDS_EQ_CACHE_CM2 : Fld := ⟨SDS_EQ_CACHE, 16, 6, .rw, .none⟩
def SDS_EQ_CACHE_CM1 : Fld := ⟨SDS_EQ_CACHE, 22, 6, .rw, .none⟩
def SDS_EQ_CACHE_CP1 : Fld := ⟨SDS_EQ_CACHE, 28, 6, .rw, .none⟩
def SDS_EQ_CACHE_CP2 : Fld := ⟨SDS_EQ_CACHE, 34, 6, .rw, .none⟩
def SDS_EQ_CACHE_DVALID : Fld := ⟨SDS_EQ_CACHE, 40, 1, .rw, .none⟩

/-- Health Thresholds, offset 0x1E0 (03_lanes_and_octets.md). -/
def SDS_HEALTH_CFG : Reg := ⟨.sds, 0x1e0, 1, 8, 0x4004010003e8, false, false, false⟩
def SDS_HEALTH_CFG_WINDOW : Fld := ⟨SDS_HEALTH_CFG, 0, 16, .rw, .none⟩
def SDS_HEALTH_CFG_ERR_THR : Fld := ⟨SDS_HEALTH_CFG, 16, 16, .rw, .none⟩
def SDS_HEALTH_CFG_SYNC_THR : Fld := ⟨SDS_HEALTH_CFG, 32, 8, .rw, .none⟩
def SDS_HEALTH_CFG_MARGIN_THR : Fld := ⟨SDS_HEALTH_CFG, 40, 10, .rw, .none⟩

/-- Lane Health, offset 0x1E8 + 8l for l 0 to 8 (03_lanes_and_octets.md). -/
def SDS_HEALTH : Reg := ⟨.sds, 0x1e8, 9, 8, 0x0, true, false, false⟩
def SDS_HEALTH_CORR : Fld := ⟨SDS_HEALTH, 0, 16, .ro, .sat⟩
def SDS_HEALTH_SYNC : Fld := ⟨SDS_HEALTH, 16, 8, .ro, .sat⟩
def SDS_HEALTH_DEGRADED : Fld := ⟨SDS_HEALTH, 24, 1, .ro, .none⟩
def SDS_HEALTH_FAILED : Fld := ⟨SDS_HEALTH, 25, 1, .ro, .none⟩

/-- Margining Control, offset 0x230 (03_lanes_and_octets.md). -/
def SDS_MARGIN_CTL : Reg := ⟨.sds, 0x230, 1, 8, 0x0, false, false, false⟩
def SDS_MARGIN_CTL_LANE : Fld := ⟨SDS_MARGIN_CTL, 0, 4, .rw, .none⟩
def SDS_MARGIN_CTL_TYPE : Fld := ⟨SDS_MARGIN_CTL, 4, 1, .rw, .none⟩
def SDS_MARGIN_CTL_DIR : Fld := ⟨SDS_MARGIN_CTL, 5, 1, .rw, .none⟩
def SDS_MARGIN_CTL_STEPS : Fld := ⟨SDS_MARGIN_CTL, 6, 7, .rw, .none⟩
def SDS_MARGIN_CTL_ERR_LIMIT : Fld := ⟨SDS_MARGIN_CTL, 13, 8, .rw, .none⟩
def SDS_MARGIN_CTL_DWELL : Fld := ⟨SDS_MARGIN_CTL, 21, 8, .rw, .none⟩
def SDS_MARGIN_CTL_GO : Fld := ⟨SDS_MARGIN_CTL, 29, 1, .wo, .none⟩
def SDS_MARGIN_CTL_STOP : Fld := ⟨SDS_MARGIN_CTL, 30, 1, .wo, .none⟩

/-- Margining Status, offset 0x238 (03_lanes_and_octets.md). -/
def SDS_MARGIN_STAT : Reg := ⟨.sds, 0x238, 1, 8, 0x0, false, false, false⟩
def SDS_MARGIN_STAT_BUSY : Fld := ⟨SDS_MARGIN_STAT, 0, 1, .ro, .none⟩
def SDS_MARGIN_STAT_RESULT : Fld := ⟨SDS_MARGIN_STAT, 1, 2, .ro, .none⟩
def SDS_MARGIN_STAT_ERRS : Fld := ⟨SDS_MARGIN_STAT, 8, 8, .ro, .sat⟩

/-- Lane Power, offset 0x240 (03_lanes_and_octets.md). -/
def SDS_PWR : Reg := ⟨.sds, 0x240, 1, 8, 0x0, false, false, false⟩
def SDS_PWR_LANE_OFF : Fld := ⟨SDS_PWR, 0, 9, .rw, .none⟩
def SDS_PWR_L1_EN : Fld := ⟨SDS_PWR, 9, 1, .rw, .none⟩
def SDS_PWR_L0P_EN : Fld := ⟨SDS_PWR, 10, 1, .rw, .none⟩

/-- Port Configuration, offset 0x140 (04_cxl_ports.md). -/
def PRT_CFG : Reg := ⟨.prt, 0x140, 1, 8, 0x198, false, false, false⟩
def PRT_CFG_ROLE : Fld := ⟨PRT_CFG, 0, 2, .rwc, .none⟩
def PRT_CFG_CACHE_EN : Fld := ⟨PRT_CFG, 2, 1, .rwc, .none⟩
def PRT_CFG_FLIT68_EN : Fld := ⟨PRT_CFG, 3, 1, .rwc, .none⟩
def PRT_CFG_LOPT_EN : Fld := ⟨PRT_CFG, 4, 1, .rwc, .none⟩
def PRT_CFG_PCIE_OK : Fld := ⟨PRT_CFG, 5, 1, .rwc, .none⟩
def PRT_CFG_IDE_REQ : Fld := ⟨PRT_CFG, 6, 1, .rwc, .none⟩
def PRT_CFG_MLD_EN : Fld := ⟨PRT_CFG, 7, 1, .rwc, .none⟩
def PRT_CFG_MEM_EN : Fld := ⟨PRT_CFG, 8, 1, .rwc, .none⟩

/-- Port Status, offset 0x148 (04_cxl_ports.md). -/
def PRT_STAT : Reg := ⟨.prt, 0x148, 1, 8, 0x0, true, false, false⟩
def PRT_STAT_LINK_UP : Fld := ⟨PRT_STAT, 0, 1, .ro, .none⟩
def PRT_STAT_DL_ACTIVE : Fld := ⟨PRT_STAT, 1, 1, .ro, .none⟩
def PRT_STAT_IO : Fld := ⟨PRT_STAT, 2, 1, .ro, .none⟩
def PRT_STAT_MEM : Fld := ⟨PRT_STAT, 3, 1, .ro, .none⟩
def PRT_STAT_CACHE : Fld := ⟨PRT_STAT, 4, 1, .ro, .none⟩
def PRT_STAT_FLIT : Fld := ⟨PRT_STAT, 5, 2, .ro, .none⟩
def PRT_STAT_MLD : Fld := ⟨PRT_STAT, 7, 1, .ro, .none⟩
def PRT_STAT_NUM_LD : Fld := ⟨PRT_STAT, 8, 5, .ro, .none⟩
def PRT_STAT_IDE_ACT : Fld := ⟨PRT_STAT, 13, 1, .ro, .none⟩
def PRT_STAT_IN_RESET : Fld := ⟨PRT_STAT, 14, 1, .ro, .none⟩
def PRT_STAT_PERST_IN : Fld := ⟨PRT_STAT, 15, 1, .ro, .none⟩
def PRT_STAT_PCIE_ONLY : Fld := ⟨PRT_STAT, 16, 1, .ro, .none⟩

/-- Link Control, offset 0x150 (04_cxl_ports.md). -/
def PRT_LINKCTL : Reg := ⟨.prt, 0x150, 1, 8, 0x0, false, false, false⟩
def PRT_LINKCTL_HOT_RESET : Fld := ⟨PRT_LINKCTL, 0, 1, .wo, .none⟩
def PRT_LINKCTL_RETRAIN : Fld := ⟨PRT_LINKCTL, 1, 1, .wo, .none⟩
def PRT_LINKCTL_DISABLE : Fld := ⟨PRT_LINKCTL, 2, 1, .rw, .none⟩

/-- PERST Mapping, offset 0x158 (04_cxl_ports.md). -/
def PRT_PERST : Reg := ⟨.prt, 0x158, 1, 8, 0x6400000000, false, false, false⟩
def PRT_PERST_OUT_EN : Fld := ⟨PRT_PERST, 0, 1, .rw, .none⟩
def PRT_PERST_OUT_PIN : Fld := ⟨PRT_PERST, 1, 5, .rw, .none⟩
def PRT_PERST_SLOT_EN : Fld := ⟨PRT_PERST, 6, 1, .rw, .none⟩
def PRT_PERST_SLOT : Fld := ⟨PRT_PERST, 7, 5, .rw, .none⟩
def PRT_PERST_ASSERT : Fld := ⟨PRT_PERST, 12, 1, .rw, .none⟩
def PRT_PERST_IN_EN : Fld := ⟨PRT_PERST, 13, 1, .rw, .none⟩
def PRT_PERST_IN_PIN : Fld := ⟨PRT_PERST, 14, 4, .rw, .none⟩
def PRT_PERST_DELAY : Fld := ⟨PRT_PERST, 32, 16, .rw, .none⟩

/-- Completion Timeout, offset 0x160 (04_cxl_ports.md). -/
def PRT_CPL_TO : Reg := ⟨.prt, 0x160, 1, 8, 0xfa0, false, false, false⟩
def PRT_CPL_TO_TIMEOUT : Fld := ⟨PRT_CPL_TO, 0, 20, .rw, .none⟩

/-- IDE Control, offset 0x168 (04_cxl_ports.md). -/
def PRT_IDE : Reg := ⟨.prt, 0x168, 1, 8, 0x1, false, false, false⟩
def PRT_IDE_AGG : Fld := ⟨PRT_IDE, 0, 3, .rwc, .none⟩
def PRT_IDE_STREAM_ID : Fld := ⟨PRT_IDE, 3, 8, .rwc, .none⟩
def PRT_IDE_SECURE : Fld := ⟨PRT_IDE, 11, 1, .ro, .none⟩
def PRT_IDE_KEY_SLOT : Fld := ⟨PRT_IDE, 12, 1, .ro, .none⟩

/-- GPF Status, offset 0x170 (04_cxl_ports.md). -/
def PRT_GPF : Reg := ⟨.prt, 0x170, 1, 8, 0x0, false, false, false⟩
def PRT_GPF_PH1_DONE : Fld := ⟨PRT_GPF, 0, 1, .ro, .none⟩
def PRT_GPF_PH2_DONE : Fld := ⟨PRT_GPF, 1, 1, .ro, .none⟩
def PRT_GPF_FAIL : Fld := ⟨PRT_GPF, 2, 1, .w1c, .none⟩

/-- Port Discards, offset 0x178 (04_cxl_ports.md). -/
def PRT_DROP : Reg := ⟨.prt, 0x178, 1, 8, 0x0, true, false, false⟩
def PRT_DROP_FLUSHED : Fld := ⟨PRT_DROP, 0, 32, .ro, .sat⟩
def PRT_DROP_MALFORMED : Fld := ⟨PRT_DROP, 32, 16, .ro, .sat⟩
def PRT_DROP_LATE : Fld := ⟨PRT_DROP, 48, 16, .ro, .sat⟩

/-- Link Attachment, offset 0x140 (05_dunrun_links.md). -/
def DRL_ATTACH : Reg := ⟨.drl, 0x140, 1, 8, 0x0, false, false, false⟩
def DRL_ATTACH_OCTET : Fld := ⟨DRL_ATTACH, 0, 6, .rwl, .none⟩
def DRL_ATTACH_VALID : Fld := ⟨DRL_ATTACH, 6, 1, .rwl, .none⟩
def DRL_ATTACH_CONFLICT : Fld := ⟨DRL_ATTACH, 7, 1, .ro, .none⟩

/-- Link Configuration, offset 0x148 (05_dunrun_links.md). -/
def DRL_CFG : Reg := ⟨.drl, 0x148, 1, 8, 0x81, false, false, false⟩
def DRL_CFG_NVC : Fld := ⟨DRL_CFG, 0, 3, .rwc, .none⟩
def DRL_CFG_ENC_REQ : Fld := ⟨DRL_CFG, 3, 1, .rwc, .none⟩
def DRL_CFG_SEG : Fld := ⟨DRL_CFG, 4, 4, .rwc, .none⟩

/-- VC Buffers 0 to 3, offset 0x150 (05_dunrun_links.md). -/
def DRL_VCBUF0 : Reg := ⟨.drl, 0x150, 1, 8, 0x10001000, false, false, false⟩
def DRL_VCBUF0_VC0 : Fld := ⟨DRL_VCBUF0, 0, 16, .rwc, .none⟩
def DRL_VCBUF0_VC1 : Fld := ⟨DRL_VCBUF0, 16, 16, .rwc, .none⟩
def DRL_VCBUF0_VC2 : Fld := ⟨DRL_VCBUF0, 32, 16, .rwc, .none⟩
def DRL_VCBUF0_VC3 : Fld := ⟨DRL_VCBUF0, 48, 16, .rwc, .none⟩

/-- VC Buffers 4 to 7, offset 0x158 (05_dunrun_links.md). -/
def DRL_VCBUF1 : Reg := ⟨.drl, 0x158, 1, 8, 0x0, false, false, false⟩
def DRL_VCBUF1_VC4 : Fld := ⟨DRL_VCBUF1, 0, 16, .rwc, .none⟩
def DRL_VCBUF1_VC5 : Fld := ⟨DRL_VCBUF1, 16, 16, .rwc, .none⟩
def DRL_VCBUF1_VC6 : Fld := ⟨DRL_VCBUF1, 32, 16, .rwc, .none⟩
def DRL_VCBUF1_VC7 : Fld := ⟨DRL_VCBUF1, 48, 16, .rwc, .none⟩

/-- VC Map, offset 0x160 (05_dunrun_links.md). -/
def DRL_VCMAP : Reg := ⟨.drl, 0x160, 1, 8, 0x41041048040, false, false, false⟩
def DRL_VCMAP_MAP : Fld := ⟨DRL_VCMAP, 0, 48, .rwc, .none⟩

/-- Link Timers, offset 0x168 (05_dunrun_links.md). -/
def DRL_TIMERS : Reg := ⟨.drl, 0x168, 1, 8, 0xa1920403e8, false, false, false⟩
def DRL_TIMERS_REPLAY_TO : Fld := ⟨DRL_TIMERS, 0, 16, .rw, .none⟩
def DRL_TIMERS_REPLAY_LIMIT : Fld := ⟨DRL_TIMERS, 16, 4, .rw, .none⟩
def DRL_TIMERS_ACK_PKT : Fld := ⟨DRL_TIMERS, 20, 6, .rw, .none⟩
def DRL_TIMERS_ACK_NS : Fld := ⟨DRL_TIMERS, 26, 10, .rw, .none⟩
def DRL_TIMERS_LIVE_TO : Fld := ⟨DRL_TIMERS, 36, 8, .rw, .none⟩

/-- Link Status, offset 0x170 (05_dunrun_links.md). -/
def DRL_STAT : Reg := ⟨.drl, 0x170, 1, 8, 0x0, true, false, false⟩
def DRL_STAT_STATE : Fld := ⟨DRL_STAT, 0, 4, .ro, .none⟩
def DRL_STAT_WIDTH : Fld := ⟨DRL_STAT, 4, 4, .ro, .none⟩
def DRL_STAT_PEER_DEVID : Fld := ⟨DRL_STAT, 8, 4, .ro, .none⟩
def DRL_STAT_PEER_OCTET : Fld := ⟨DRL_STAT, 12, 6, .ro, .none⟩
def DRL_STAT_ENC : Fld := ⟨DRL_STAT, 18, 1, .ro, .none⟩

/-- Sequence State, offset 0x178 (05_dunrun_links.md). -/
def DRL_SEQ : Reg := ⟨.drl, 0x178, 1, 8, 0x0, true, false, false⟩
def DRL_SEQ_TX_NEXT : Fld := ⟨DRL_SEQ, 0, 12, .ro, .none⟩
def DRL_SEQ_TX_OLDEST : Fld := ⟨DRL_SEQ, 12, 12, .ro, .none⟩
def DRL_SEQ_RX_EXPECT : Fld := ⟨DRL_SEQ, 24, 12, .ro, .none⟩
def DRL_SEQ_OUTSTANDING : Fld := ⟨DRL_SEQ, 36, 12, .ro, .none⟩

/-- Link Time, offset 0x180 (05_dunrun_links.md). -/
def DRL_TIME : Reg := ⟨.drl, 0x180, 1, 8, 0x1000000000000, false, false, false⟩
def DRL_TIME_DELAY : Fld := ⟨DRL_TIME, 0, 32, .ro, .none⟩
def DRL_TIME_ASYM : Fld := ⟨DRL_TIME, 32, 16, .rw, .none⟩
def DRL_TIME_SYNC_EN : Fld := ⟨DRL_TIME, 48, 1, .rw, .none⟩

/-- Link Security, offset 0x188 (05_dunrun_links.md). -/
def DRL_SEC : Reg := ⟨.drl, 0x188, 1, 8, 0x0, false, false, false⟩
def DRL_SEC_ACT_SLOT : Fld := ⟨DRL_SEC, 0, 1, .ro, .none⟩
def DRL_SEC_VALID0 : Fld := ⟨DRL_SEC, 1, 1, .ro, .none⟩
def DRL_SEC_VALID1 : Fld := ⟨DRL_SEC, 2, 1, .ro, .none⟩

/-- Link Discards, offset 0x190 (05_dunrun_links.md). -/
def DRL_DROP : Reg := ⟨.drl, 0x190, 1, 8, 0x0, true, false, false⟩
def DRL_DROP_UNACKED : Fld := ⟨DRL_DROP, 0, 16, .ro, .sat⟩
def DRL_DROP_FLUSHED : Fld := ⟨DRL_DROP, 16, 16, .ro, .sat⟩
def DRL_DROP_NOROUTE : Fld := ⟨DRL_DROP, 32, 16, .ro, .sat⟩
def DRL_DROP_TTL : Fld := ⟨DRL_DROP, 48, 16, .ro, .sat⟩

/-- Slice Forwarding Configuration, offset 0x140 (06_oven_switching_core.md). -/
def SLC_CFG : Reg := ⟨.slc, 0x140, 1, 8, 0x141, false, false, false⟩
def SLC_CFG_EXPRESS_EN : Fld := ⟨SLC_CFG, 0, 1, .rw, .none⟩
def SLC_CFG_STALL_TO : Fld := ⟨SLC_CFG, 4, 14, .rw, .none⟩

/-- Slice Discards, offset 0x148 (06_oven_switching_core.md). -/
def SLC_DROP : Reg := ⟨.slc, 0x148, 1, 8, 0x0, true, false, false⟩
def SLC_DROP_TAILBAD : Fld := ⟨SLC_DROP, 0, 16, .ro, .sat⟩
def SLC_DROP_STALLED : Fld := ⟨SLC_DROP, 16, 16, .ro, .sat⟩
def SLC_DROP_SIDEBAND : Fld := ⟨SLC_DROP, 32, 16, .ro, .sat⟩
def SLC_DROP_POISONED : Fld := ⟨SLC_DROP, 48, 16, .ro, .sat⟩

/-- Oven Configuration, offset 0x140 (06_oven_switching_core.md). -/
def OVN_CFG : Reg := ⟨.ovn, 0x140, 1, 8, 0x602000000, false, false, false⟩
def OVN_CFG_SEALED : Fld := ⟨OVN_CFG, 0, 1, .rwc, .none⟩
def OVN_CFG_INT_MIN : Fld := ⟨OVN_CFG, 16, 16, .rwc, .none⟩
def OVN_CFG_INT_ALPHA : Fld := ⟨OVN_CFG, 32, 4, .rwc, .none⟩

/-- Port Accounting, offset 0x148 + 8i for i 0 to 7 (port 8s + i) (06_oven_switching_core.md). -/
def OVN_PORTCFG : Reg := ⟨.ovn, 0x148, 8, 8, 0x60100, false, false, false⟩
def OVN_PORTCFG_MIN : Fld := ⟨OVN_PORTCFG, 0, 16, .rwc, .none⟩
def OVN_PORTCFG_ALPHA : Fld := ⟨OVN_PORTCFG, 16, 4, .rwc, .none⟩

/-- Port Occupancy, offset 0x188 + 8i for i 0 to 7 (06_oven_switching_core.md). -/
def OVN_PORTOCC : Reg := ⟨.ovn, 0x188, 8, 8, 0x0, true, false, false⟩
def OVN_PORTOCC_OCC : Fld := ⟨OVN_PORTOCC, 0, 20, .ro, .none⟩
def OVN_PORTOCC_HELD : Fld := ⟨OVN_PORTOCC, 20, 1, .ro, .none⟩

/-- Slice Pool, offset 0x1C8 (06_oven_switching_core.md). -/
def OVN_POOL : Reg := ⟨.ovn, 0x1c8, 1, 8, 0xa00b600c000, true, false, false⟩
def OVN_POOL_FREE : Fld := ⟨OVN_POOL, 0, 16, .ro, .none⟩
def OVN_POOL_SHARED_FREE : Fld := ⟨OVN_POOL, 16, 16, .ro, .none⟩
def OVN_POOL_RESERVED : Fld := ⟨OVN_POOL, 32, 16, .ro, .none⟩
def OVN_POOL_RETIRED : Fld := ⟨OVN_POOL, 48, 3, .ro, .none⟩

/-- Bank Retirement, offset 0x1D0 (06_oven_switching_core.md). -/
def OVN_RETIRE : Reg := ⟨.ovn, 0x1d0, 1, 8, 0x0, false, false, false⟩
def OVN_RETIRE_MAP : Fld := ⟨OVN_RETIRE, 0, 16, .ro, .none⟩
def OVN_RETIRE_BANK : Fld := ⟨OVN_RETIRE, 16, 4, .rw, .none⟩
def OVN_RETIRE_RETIRE : Fld := ⟨OVN_RETIRE, 20, 1, .wo, .none⟩
def OVN_RETIRE_BUSY : Fld := ⟨OVN_RETIRE, 21, 1, .ro, .none⟩

/-- Bank Error Thresholds, offset 0x1D8 (06_oven_switching_core.md). -/
def OVN_ECC : Reg := ⟨.ovn, 0x1d8, 1, 8, 0x103e80040, false, false, false⟩
def OVN_ECC_CE_THR : Fld := ⟨OVN_ECC, 0, 16, .rw, .none⟩
def OVN_ECC_WINDOW : Fld := ⟨OVN_ECC, 16, 16, .rw, .none⟩
def OVN_ECC_AUTO : Fld := ⟨OVN_ECC, 32, 1, .rw, .none⟩

/-- Arbiter Configuration, offset 0x140 (07_bank_arbitration.md). -/
def ARB_CFG : Reg := ⟨.arb, 0x140, 1, 8, 0x8008, false, false, false⟩
def ARB_CFG_N : Fld := ⟨ARB_CFG, 0, 7, .rwc, .none⟩
def ARB_CFG_SLOTS : Fld := ⟨ARB_CFG, 8, 8, .rwc, .none⟩
def ARB_CFG_TCSTRICT : Fld := ⟨ARB_CFG, 16, 8, .rwc, .none⟩
def ARB_CFG_SEALED : Fld := ⟨ARB_CFG, 24, 1, .ro, .none⟩

/-- Bank Arbiter State, offset 0x150 + 8b for b 0 to 15 (07_bank_arbitration.md). -/
def ARB_BANK : Reg := ⟨.arb, 0x150, 16, 8, 0xf0000, true, false, false⟩
def ARB_BANK_PTR : Fld := ⟨ARB_BANK, 0, 7, .ro, .none⟩
def ARB_BANK_GCNT : Fld := ⟨ARB_BANK, 8, 6, .ro, .none⟩
def ARB_BANK_RR : Fld := ⟨ARB_BANK, 16, 4, .ro, .none⟩
def ARB_BANK_BUSY : Fld := ⟨ARB_BANK, 20, 1, .ro, .none⟩
def ARB_BANK_OWNER : Fld := ⟨ARB_BANK, 21, 5, .ro, .none⟩

/-- Presented Request, offset 0x1D0 + 8r for r 0 to 15 (07_bank_arbitration.md). -/
def ARB_REQ : Reg := ⟨.arb, 0x1d0, 16, 8, 0x0, true, false, false⟩
def ARB_REQ_VALID : Fld := ⟨ARB_REQ, 0, 1, .ro, .none⟩
def ARB_REQ_BANK : Fld := ⟨ARB_REQ, 1, 4, .ro, .none⟩
def ARB_REQ_CELL : Fld := ⟨ARB_REQ, 5, 12, .ro, .none⟩
def ARB_REQ_TC : Fld := ⟨ARB_REQ, 17, 3, .ro, .none⟩
def ARB_REQ_AGE : Fld := ⟨ARB_REQ, 20, 10, .ro, .none⟩
def ARB_REQ_DOMAIN : Fld := ⟨ARB_REQ, 30, 10, .ro, .none⟩

/-- Policer Configuration, offset 0x140 (08_traffic_control.md). -/
def POL_CFG : Reg := ⟨.pol, 0x140, 1, 8, 0x0, false, false, false⟩
def POL_CFG_UNMATCHED : Fld := ⟨POL_CFG, 0, 1, .rwc, .none⟩

/-- Class to TC Map, offset 0x148 (08_traffic_control.md). -/
def POL_TCMAP : Reg := ⟨.pol, 0x148, 1, 8, 0x0, false, false, false⟩
def POL_TCMAP_MAP : Fld := ⟨POL_TCMAP, 0, 48, .rwc, .none⟩

/-- Pre-colour Map, offset 0x150 (08_traffic_control.md). -/
def POL_PRECOL : Reg := ⟨.pol, 0x150, 1, 8, 0xffff, false, false, false⟩
def POL_PRECOL_PRE : Fld := ⟨POL_PRECOL, 0, 16, .rwc, .none⟩

/-- Policer Counts 0, offset 0x158 (08_traffic_control.md). -/
def POL_STAT0 : Reg := ⟨.pol, 0x158, 1, 8, 0x0, true, false, false⟩
def POL_STAT0_GREEN : Fld := ⟨POL_STAT0, 0, 32, .ro, .sat⟩
def POL_STAT0_YELLOW : Fld := ⟨POL_STAT0, 32, 32, .ro, .sat⟩

/-- Policer Counts 1, offset 0x160 (08_traffic_control.md). -/
def POL_STAT1 : Reg := ⟨.pol, 0x160, 1, 8, 0x0, true, false, false⟩
def POL_STAT1_RED : Fld := ⟨POL_STAT1, 0, 32, .ro, .sat⟩
def POL_STAT1_DISCARDED : Fld := ⟨POL_STAT1, 32, 32, .ro, .sat⟩

/-- Egress Configuration, offset 0x140 (08_traffic_control.md). -/
def EGS_CFG : Reg := ⟨.egs, 0x140, 1, 8, 0x1130000, false, false, false⟩
def EGS_CFG_MODE : Fld := ⟨EGS_CFG, 0, 1, .rwc, .none⟩
def EGS_CFG_OVH : Fld := ⟨EGS_CFG, 1, 6, .rwc, .none⟩
def EGS_CFG_STRICT : Fld := ⟨EGS_CFG, 8, 8, .rwc, .none⟩
def EGS_CFG_REFILL : Fld := ⟨EGS_CFG, 16, 16, .rwc, .none⟩

/-- DRR Quanta, offset 0x148 (08_traffic_control.md). -/
def EGS_QUANTUM : Reg := ⟨.egs, 0x148, 1, 8, 0x1010101010101010, false, false, false⟩
def EGS_QUANTUM_QUANTUM : Fld := ⟨EGS_QUANTUM, 0, 64, .rwc, .none⟩

/-- Sampling Control, offset 0x150 (08_traffic_control.md). -/
def EGS_SAMPLE : Reg := ⟨.egs, 0x150, 1, 8, 0x3e8, false, false, false⟩
def EGS_SAMPLE_INTERVAL : Fld := ⟨EGS_SAMPLE, 0, 16, .rw, .none⟩
def EGS_SAMPLE_RING : Fld := ⟨EGS_SAMPLE, 16, 12, .rw, .none⟩
def EGS_SAMPLE_RING_EN : Fld := ⟨EGS_SAMPLE, 28, 1, .rw, .none⟩

/-- Sampling Thresholds, offset 0x158 (08_traffic_control.md). -/
def EGS_THR : Reg := ⟨.egs, 0x158, 1, 8, 0xfffffffffffff, false, false, false⟩
def EGS_THR_DELAY_THR : Fld := ⟨EGS_THR, 0, 32, .rw, .none⟩
def EGS_THR_DEPTH_THR : Fld := ⟨EGS_THR, 32, 20, .rw, .none⟩

/-- TC Queue Status, offset 0x160 + 8t for t 0 to 7 (08_traffic_control.md). -/
def EGS_TCSTAT : Reg := ⟨.egs, 0x160, 8, 8, 0x0, true, false, false⟩
def EGS_TCSTAT_CELLS : Fld := ⟨EGS_TCSTAT, 0, 20, .ro, .none⟩
def EGS_TCSTAT_MAXDLY : Fld := ⟨EGS_TCSTAT, 32, 32, .ro, .none⟩

/-- Gate Configuration, offset 0x140 (08_traffic_control.md). -/
def GTE_CFG : Reg := ⟨.gte, 0x140, 1, 8, 0x400, false, false, false⟩
def GTE_CFG_GATE_EN : Fld := ⟨GTE_CFG, 0, 1, .rwc, .none⟩
def GTE_CFG_SERVICE : Fld := ⟨GTE_CFG, 1, 1, .rwc, .none⟩
def GTE_CFG_LEN : Fld := ⟨GTE_CFG, 2, 8, .rwc, .none⟩
def GTE_CFG_FIT_ACT : Fld := ⟨GTE_CFG, 10, 1, .ro, .none⟩

/-- Cycle Time, offset 0x148 (08_traffic_control.md). -/
def GTE_CYCLE : Reg := ⟨.gte, 0x148, 1, 8, 0xf42400000, false, false, false⟩
def GTE_CYCLE_FRAC : Fld := ⟨GTE_CYCLE, 0, 16, .rwc, .none⟩
def GTE_CYCLE_NS : Fld := ⟨GTE_CYCLE, 16, 30, .rwc, .none⟩

/-- Base Time Word 0, offset 0x150 (08_traffic_control.md). -/
def GTE_BASE0 : Reg := ⟨.gte, 0x150, 1, 8, 0x0, false, false, false⟩
def GTE_BASE0_FRAC : Fld := ⟨GTE_BASE0, 0, 16, .rwc, .none⟩
def GTE_BASE0_NS : Fld := ⟨GTE_BASE0, 16, 30, .rwc, .none⟩

/-- Base Time Word 1, offset 0x158 (08_traffic_control.md). -/
def GTE_BASE1 : Reg := ⟨.gte, 0x158, 1, 8, 0x0, false, false, false⟩
def GTE_BASE1_SEC : Fld := ⟨GTE_BASE1, 0, 48, .rwc, .none⟩

/-- Longest Message per TC, offset 0x160 (08_traffic_control.md). -/
def GTE_MAXLEN : Reg := ⟨.gte, 0x160, 1, 8, 0x4040404040404040, false, false, false⟩
def GTE_MAXLEN_MAXLEN : Fld := ⟨GTE_MAXLEN, 0, 64, .rwc, .none⟩

/-- Gate Status, offset 0x168 (08_traffic_control.md). -/
def GTE_STAT : Reg := ⟨.gte, 0x168, 1, 8, 0x0, true, false, false⟩
def GTE_STAT_ENTRY : Fld := ⟨GTE_STAT, 0, 8, .ro, .none⟩
def GTE_STAT_GATES : Fld := ⟨GTE_STAT, 8, 8, .ro, .none⟩
def GTE_STAT_OVERSIZE : Fld := ⟨GTE_STAT, 16, 16, .ro, .sat⟩
def GTE_STAT_HELD : Fld := ⟨GTE_STAT, 32, 16, .ro, .sat⟩

/-- Last Start Word 0, offset 0x170 (08_traffic_control.md). -/
def GTE_LASTTS0 : Reg := ⟨.gte, 0x170, 1, 8, 0x0, true, false, false⟩
def GTE_LASTTS0_TS : Fld := ⟨GTE_LASTTS0, 0, 46, .ro, .none⟩

/-- Last Start Word 1, offset 0x178 (08_traffic_control.md). -/
def GTE_LASTTS1 : Reg := ⟨.gte, 0x178, 1, 8, 0x0, true, false, false⟩
def GTE_LASTTS1_SEC : Fld := ⟨GTE_LASTTS1, 0, 48, .ro, .none⟩

/-- Port Export, offset 0x140 + 8i for i 0 to 7 (port 8s + i) (09_decode_and_binding.md). -/
def DEC_EXPORT : Reg := ⟨.dec, 0x140, 8, 8, 0x0, false, false, false⟩
def DEC_EXPORT_OWNER : Fld := ⟨DEC_EXPORT, 0, 11, .rwc, .none⟩
def DEC_EXPORT_V : Fld := ⟨DEC_EXPORT, 11, 1, .rwc, .none⟩
def DEC_EXPORT_ANY : Fld := ⟨DEC_EXPORT, 12, 1, .rwc, .none⟩

/-- Larder LD Export, offset 0x180 + 8j for j 0 to 15 (09_decode_and_binding.md). -/
def DEC_LDEXPORT : Reg := ⟨.dec, 0x180, 16, 8, 0x0, false, true, false⟩
def DEC_LDEXPORT_OWNER : Fld := ⟨DEC_LDEXPORT, 0, 11, .rwc, .none⟩
def DEC_LDEXPORT_V : Fld := ⟨DEC_LDEXPORT, 11, 1, .rwc, .none⟩
def DEC_LDEXPORT_ANY : Fld := ⟨DEC_LDEXPORT, 12, 1, .rwc, .none⟩

/-- Mirror Event Log, offset 0x200 (09_decode_and_binding.md). -/
def DEC_MIRLOG : Reg := ⟨.dec, 0x200, 1, 8, 0x0, false, false, false⟩
def DEC_MIRLOG_VCS : Fld := ⟨DEC_MIRLOG, 0, 7, .ro, .none⟩
def DEC_MIRLOG_ENTRY : Fld := ⟨DEC_MIRLOG, 7, 5, .ro, .none⟩
def DEC_MIRLOG_MEMBER : Fld := ⟨DEC_MIRLOG, 12, 2, .ro, .none⟩
def DEC_MIRLOG_CAUSE : Fld := ⟨DEC_MIRLOG, 14, 2, .ro, .none⟩
def DEC_MIRLOG_VALID : Fld := ⟨DEC_MIRLOG, 63, 1, .w1c, .none⟩

/-- Decode Status, offset 0x208 (09_decode_and_binding.md). -/
def DEC_STAT : Reg := ⟨.dec, 0x208, 1, 8, 0x0, true, false, false⟩
def DEC_STAT_MISSES : Fld := ⟨DEC_STAT, 0, 16, .ro, .sat⟩
def DEC_STAT_FENCED : Fld := ⟨DEC_STAT, 16, 9, .ro, .none⟩
def DEC_STAT_RECALL : Fld := ⟨DEC_STAT, 25, 1, .ro, .none⟩

/-- Recall Count, offset 0x210 (09_decode_and_binding.md). -/
def DEC_RECALL : Reg := ⟨.dec, 0x210, 1, 8, 0x0, false, false, false⟩
def DEC_RECALL_LINES : Fld := ⟨DEC_RECALL, 0, 32, .ro, .sat⟩

/-- Directory Configuration, offset 0x140 (10_coherence_protocol.md). -/
def DIR_CFG : Reg := ⟨.dir, 0x140, 1, 8, 0x2801, false, false, false⟩
def DIR_CFG_GRANT_E : Fld := ⟨DIR_CFG, 0, 1, .rw, .none⟩
def DIR_CFG_SNOOP_TO : Fld := ⟨DIR_CFG, 8, 16, .rw, .none⟩
def DIR_CFG_HOME_TC : Fld := ⟨DIR_CFG, 24, 3, .rw, .none⟩

/-- Port Agent, offset 0x148 + 8i for i 0 to 7 (port 8s + i) (10_coherence_protocol.md). -/
def DIR_AGENT : Reg := ⟨.dir, 0x148, 8, 8, 0x0, false, false, false⟩
def DIR_AGENT_AGENT : Fld := ⟨DIR_AGENT, 0, 9, .rwc, .none⟩
def DIR_AGENT_V : Fld := ⟨DIR_AGENT, 9, 1, .rwc, .none⟩
def DIR_AGENT_OWN_OK : Fld := ⟨DIR_AGENT, 10, 1, .rwc, .none⟩

/-- Directory Status, offset 0x188 (10_coherence_protocol.md). -/
def DIR_STAT : Reg := ⟨.dir, 0x188, 1, 8, 0x0, true, false, false⟩
def DIR_STAT_ENTRIES : Fld := ⟨DIR_STAT, 0, 19, .ro, .none⟩
def DIR_STAT_BUSY : Fld := ⟨DIR_STAT, 19, 13, .ro, .none⟩
def DIR_STAT_COARSE : Fld := ⟨DIR_STAT, 32, 19, .ro, .none⟩
def DIR_STAT_RESEAL : Fld := ⟨DIR_STAT, 51, 1, .ro, .none⟩
def DIR_STAT_STALE_WB : Fld := ⟨DIR_STAT, 52, 12, .ro, .sat⟩

/-- Entry Peek Control, offset 0x190 (10_coherence_protocol.md). -/
def DIR_PEEK_CTL : Reg := ⟨.dir, 0x190, 1, 8, 0x0, false, false, false⟩
def DIR_PEEK_CTL_LINE : Fld := ⟨DIR_PEEK_CTL, 0, 46, .rw, .none⟩
def DIR_PEEK_CTL_TK : Fld := ⟨DIR_PEEK_CTL, 46, 12, .rw, .none⟩
def DIR_PEEK_CTL_GO : Fld := ⟨DIR_PEEK_CTL, 58, 1, .wo, .none⟩
def DIR_PEEK_CTL_BUSY : Fld := ⟨DIR_PEEK_CTL, 59, 1, .ro, .none⟩

/-- Entry Peek Word 0, offset 0x198 (10_coherence_protocol.md). -/
def DIR_PEEK0 : Reg := ⟨.dir, 0x198, 1, 8, 0x0, false, false, false⟩
def DIR_PEEK0_STATE : Fld := ⟨DIR_PEEK0, 0, 3, .ro, .none⟩
def DIR_PEEK0_SCC_V : Fld := ⟨DIR_PEEK0, 3, 1, .ro, .none⟩
def DIR_PEEK0_OWNER_SCC : Fld := ⟨DIR_PEEK0, 4, 1, .ro, .none⟩
def DIR_PEEK0_OWNER : Fld := ⟨DIR_PEEK0, 5, 9, .ro, .none⟩
def DIR_PEEK0_MODE : Fld := ⟨DIR_PEEK0, 14, 1, .ro, .none⟩
def DIR_PEEK0_BUSY : Fld := ⟨DIR_PEEK0, 15, 1, .ro, .none⟩
def DIR_PEEK0_DOMAIN : Fld := ⟨DIR_PEEK0, 16, 10, .ro, .none⟩
def DIR_PEEK0_P : Fld := ⟨DIR_PEEK0, 26, 1, .ro, .none⟩
def DIR_PEEK0_HIT : Fld := ⟨DIR_PEEK0, 27, 1, .ro, .none⟩
def DIR_PEEK0_WAY : Fld := ⟨DIR_PEEK0, 28, 4, .ro, .none⟩
def DIR_PEEK0_HOME : Fld := ⟨DIR_PEEK0, 32, 4, .ro, .none⟩

/-- Entry Peek Word 1, offset 0x1A0 (10_coherence_protocol.md). -/
def DIR_PEEK1 : Reg := ⟨.dir, 0x1a0, 1, 8, 0x0, false, false, false⟩
def DIR_PEEK1_SHARERS : Fld := ⟨DIR_PEEK1, 0, 64, .ro, .none⟩

/-- Directory Way Partition, offset 0x200 + 8i for i 0 to 15 (10_coherence_protocol.md). -/
def DIR_PART : Reg := ⟨.dir, 0x200, 16, 8, 0x0, false, false, false⟩
def DIR_PART_DOMAIN : Fld := ⟨DIR_PART, 0, 10, .rwc, .none⟩
def DIR_PART_V : Fld := ⟨DIR_PART, 10, 1, .rwc, .none⟩
def DIR_PART_WAYS : Fld := ⟨DIR_PART, 16, 16, .rwc, .none⟩

/-- Agent Devices, offset 0x400 + 8j for j 0 to 63 (10_coherence_protocol.md). -/
def DIR_AGDEV : Reg := ⟨.dir, 0x400, 64, 8, 0x0, false, true, false⟩
def DIR_AGDEV_MAP : Fld := ⟨DIR_AGDEV, 0, 40, .rwc, .none⟩

/-- Slice Cache Configuration, offset 0x140 (10_coherence_protocol.md). -/
def SCC_CFG : Reg := ⟨.scc, 0x140, 1, 8, 0x7, false, false, false⟩
def SCC_CFG_RDALLOC : Fld := ⟨SCC_CFG, 0, 1, .rw, .none⟩
def SCC_CFG_WRALLOC : Fld := ⟨SCC_CFG, 1, 1, .rw, .none⟩
def SCC_CFG_WBALLOC : Fld := ⟨SCC_CFG, 2, 1, .rw, .none⟩

/-- Slice Cache Way Partition, offset 0x148 + 8i for i 0 to 15 (10_coherence_protocol.md). -/
def SCC_PART : Reg := ⟨.scc, 0x148, 16, 8, 0x0, false, false, false⟩
def SCC_PART_DOMAIN : Fld := ⟨SCC_PART, 0, 10, .rwc, .none⟩
def SCC_PART_V : Fld := ⟨SCC_PART, 10, 1, .rwc, .none⟩
def SCC_PART_WAYS : Fld := ⟨SCC_PART, 16, 16, .rwc, .none⟩

/-- Slice Cache Status, offset 0x1C8 (10_coherence_protocol.md). -/
def SCC_STAT : Reg := ⟨.scc, 0x1c8, 1, 8, 0x0, true, false, false⟩
def SCC_STAT_VALID : Fld := ⟨SCC_STAT, 0, 17, .ro, .none⟩
def SCC_STAT_DIRTY : Fld := ⟨SCC_STAT, 17, 17, .ro, .none⟩
def SCC_STAT_PDIRTY : Fld := ⟨SCC_STAT, 34, 17, .ro, .none⟩

/-- Persistent Credit, offset 0x1D0 (10_coherence_protocol.md). -/
def SCC_PERS : Reg := ⟨.scc, 0x1d0, 1, 8, 0x20000, true, false, false⟩
def SCC_PERS_CREDIT : Fld := ⟨SCC_PERS, 0, 17, .ro, .none⟩
def SCC_PERS_GATED : Fld := ⟨SCC_PERS, 17, 1, .ro, .none⟩

/-- Slice Cache Clean, offset 0x1D8 (10_coherence_protocol.md). -/
def SCC_FLUSH : Reg := ⟨.scc, 0x1d8, 1, 8, 0x0, false, false, false⟩
def SCC_FLUSH_CLEAN : Fld := ⟨SCC_FLUSH, 0, 1, .wo, .none⟩
def SCC_FLUSH_BUSY : Fld := ⟨SCC_FLUSH, 1, 1, .ro, .none⟩

/-- Dead Agent Log, offset 0x1A8 (11_coherence_races_and_failures.md). -/
def DIR_DEATH : Reg := ⟨.dir, 0x1a8, 1, 8, 0x0, true, false, false⟩
def DIR_DEATH_AGENT : Fld := ⟨DIR_DEATH, 0, 9, .ro, .none⟩
def DIR_DEATH_DOMAIN : Fld := ⟨DIR_DEATH, 9, 10, .ro, .none⟩
def DIR_DEATH_CAUSE : Fld := ⟨DIR_DEATH, 19, 2, .ro, .none⟩
def DIR_DEATH_FROM : Fld := ⟨DIR_DEATH, 21, 4, .ro, .none⟩
def DIR_DEATH_QSCAN : Fld := ⟨DIR_DEATH, 25, 1, .ro, .none⟩
def DIR_DEATH_VALID : Fld := ⟨DIR_DEATH, 63, 1, .w1c, .none⟩

/-- Uncorrectable Entry Log, offset 0x1B0 (11_coherence_races_and_failures.md). -/
def DIR_UELOG : Reg := ⟨.dir, 0x1b0, 1, 8, 0x0, true, false, false⟩
def DIR_UELOG_SET : Fld := ⟨DIR_UELOG, 0, 14, .ro, .none⟩
def DIR_UELOG_WAY : Fld := ⟨DIR_UELOG, 14, 4, .ro, .none⟩
def DIR_UELOG_KIND : Fld := ⟨DIR_UELOG, 18, 2, .ro, .none⟩
def DIR_UELOG_SUSPECT : Fld := ⟨DIR_UELOG, 20, 15, .ro, .none⟩
def DIR_UELOG_VALID : Fld := ⟨DIR_UELOG, 63, 1, .w1c, .none⟩

/-- Agent Suspect State, offset 0x600 + 8j for j 0 to 63 (11_coherence_races_and_failures.md). -/
def DIR_SUSPECT : Reg := ⟨.dir, 0x600, 64, 8, 0x0, false, true, false⟩
def DIR_SUSPECT_STATE : Fld := ⟨DIR_SUSPECT, 0, 64, .ro, .none⟩

/-- Streaming Drain, offset 0x0040 in the register page of each function of the service endpoint (12_ordering_and_acceptance.md). -/
def DRAIN : Reg := ⟨.fn, 0x40, 1, 8, 0x0, false, false, false⟩
def DRAIN_DONE : Fld := ⟨DRAIN, 0, 32, .ro, .wrap⟩

/-- Tray Configuration, offset 0x140 (12_ordering_and_acceptance.md). -/
def TRY_CFG : Reg := ⟨.tray, 0x140, 1, 8, 0x40a, false, false, false⟩
def TRY_CFG_CMB_TO : Fld := ⟨TRY_CFG, 0, 10, .rw, .none⟩
def TRY_CFG_CMB_EN : Fld := ⟨TRY_CFG, 10, 1, .rw, .none⟩

/-- Port Tray Status, offset 0x148 + 8i for i 0 to 7 (port 8s + i) (12_ordering_and_acceptance.md). -/
def TRY_PORT : Reg := ⟨.tray, 0x148, 8, 8, 0x0, true, false, false⟩
def TRY_PORT_USED : Fld := ⟨TRY_PORT, 0, 9, .ro, .none⟩
def TRY_PORT_ORDERED : Fld := ⟨TRY_PORT, 9, 9, .ro, .none⟩
def TRY_PORT_PHELD : Fld := ⟨TRY_PORT, 18, 9, .ro, .none⟩
def TRY_PORT_HOLDQ : Fld := ⟨TRY_PORT, 27, 1, .ro, .none⟩

/-- Combining Buffer Status, offset 0x188 (12_ordering_and_acceptance.md). -/
def TRY_CMB : Reg := ⟨.tray, 0x188, 1, 8, 0x0, true, false, false⟩
def TRY_CMB_USED : Fld := ⟨TRY_CMB, 0, 7, .ro, .none⟩
def TRY_CMB_PHELD : Fld := ⟨TRY_CMB, 7, 7, .ro, .none⟩
def TRY_CMB_TMO : Fld := ⟨TRY_CMB, 16, 16, .ro, .sat⟩
def TRY_CMB_ORDERED : Fld := ⟨TRY_CMB, 32, 16, .ro, .sat⟩
def TRY_CMB_REPLACE : Fld := ⟨TRY_CMB, 48, 16, .ro, .sat⟩

/-- Acceptance Index Status, offset 0x190 (12_ordering_and_acceptance.md). -/
def TRY_IDX : Reg := ⟨.tray, 0x190, 1, 8, 0x0, false, false, false⟩
def TRY_IDX_USED : Fld := ⟨TRY_IDX, 0, 13, .ro, .none⟩

/-- Persistent Credit, offset 0x198 (12_ordering_and_acceptance.md). -/
def TRY_PERS : Reg := ⟨.tray, 0x198, 1, 8, 0x20000, true, false, false⟩
def TRY_PERS_CREDIT : Fld := ⟨TRY_PERS, 0, 17, .ro, .none⟩
def TRY_PERS_GATED : Fld := ⟨TRY_PERS, 17, 1, .ro, .none⟩

/-- Drain Status, offset 0x1A0 (12_ordering_and_acceptance.md). -/
def TRY_DRAIN : Reg := ⟨.tray, 0x1a0, 1, 8, 0x0, false, false, false⟩
def TRY_DRAIN_BUSY : Fld := ⟨TRY_DRAIN, 0, 8, .ro, .none⟩

/-- Lost Write Log, offset 0x1A8 (12_ordering_and_acceptance.md). -/
def TRY_LOSTLOG : Reg := ⟨.tray, 0x1a8, 1, 8, 0x0, false, false, false⟩
def TRY_LOSTLOG_LINE : Fld := ⟨TRY_LOSTLOG, 0, 46, .ro, .none⟩
def TRY_LOSTLOG_TK : Fld := ⟨TRY_LOSTLOG, 46, 12, .ro, .none⟩
def TRY_LOSTLOG_VALID : Fld := ⟨TRY_LOSTLOG, 63, 1, .w1c, .none⟩

/-- Channel Status, offset 0x140 (13_larder.md). -/
def LDR_CHSTAT : Reg := ⟨.ldr, 0x140, 1, 8, 0x0, true, false, false⟩
def LDR_CHSTAT_STATE : Fld := ⟨LDR_CHSTAT, 0, 3, .ro, .none⟩
def LDR_CHSTAT_MRDIMM : Fld := ⟨LDR_CHSTAT, 3, 1, .ro, .none⟩
def LDR_CHSTAT_RANKS : Fld := ⟨LDR_CHSTAT, 4, 2, .ro, .none⟩
def LDR_CHSTAT_CAP : Fld := ⟨LDR_CHSTAT, 6, 9, .ro, .none⟩
def LDR_CHSTAT_RATE : Fld := ⟨LDR_CHSTAT, 15, 4, .ro, .none⟩
def LDR_CHSTAT_TEMP : Fld := ⟨LDR_CHSTAT, 19, 8, .ro, .none⟩
def LDR_CHSTAT_TREF2X : Fld := ⟨LDR_CHSTAT, 27, 1, .ro, .none⟩
def LDR_CHSTAT_CACHED : Fld := ⟨LDR_CHSTAT, 28, 1, .ro, .none⟩

/-- Patrol Scrub, offset 0x148 (13_larder.md). -/
def LDR_SCRUB : Reg := ⟨.ldr, 0x148, 1, 8, 0x31, false, false, false⟩
def LDR_SCRUB_EN : Fld := ⟨LDR_SCRUB, 0, 1, .rw, .none⟩
def LDR_SCRUB_PERIOD : Fld := ⟨LDR_SCRUB, 1, 8, .rw, .none⟩
def LDR_SCRUB_PASSES : Fld := ⟨LDR_SCRUB, 32, 32, .ro, .wrap⟩

/-- Error Thresholds, offset 0x150 (13_larder.md). -/
def LDR_ECC : Reg := ⟨.ldr, 0x150, 1, 8, 0x10010, false, false, false⟩
def LDR_ECC_ROW_CE_THR : Fld := ⟨LDR_ECC, 0, 16, .rw, .none⟩
def LDR_ECC_AUTO_PPR : Fld := ⟨LDR_ECC, 16, 1, .rw, .none⟩

/-- Uncorrectable Error Log, offset 0x158 (13_larder.md). -/
def LDR_ERRLOG : Reg := ⟨.ldr, 0x158, 1, 8, 0x0, false, false, false⟩
def LDR_ERRLOG_LINE : Fld := ⟨LDR_ERRLOG, 0, 32, .ro, .none⟩
def LDR_ERRLOG_KIND : Fld := ⟨LDR_ERRLOG, 32, 3, .ro, .none⟩
def LDR_ERRLOG_VALID : Fld := ⟨LDR_ERRLOG, 63, 1, .w1c, .none⟩

/-- Error Counts, offset 0x160 (13_larder.md). -/
def LDR_ERRCNT : Reg := ⟨.ldr, 0x160, 1, 8, 0x0, true, false, false⟩
def LDR_ERRCNT_CE : Fld := ⟨LDR_ERRCNT, 0, 32, .ro, .sat⟩
def LDR_ERRCNT_UE : Fld := ⟨LDR_ERRCNT, 32, 16, .ro, .sat⟩

/-- Post-Package Repair, offset 0x168 (13_larder.md). -/
def LDR_PPR : Reg := ⟨.ldr, 0x168, 1, 8, 0x0, false, false, false⟩
def LDR_PPR_RANK : Fld := ⟨LDR_PPR, 0, 2, .rw, .none⟩
def LDR_PPR_BG : Fld := ⟨LDR_PPR, 2, 3, .rw, .none⟩
def LDR_PPR_BANK : Fld := ⟨LDR_PPR, 5, 2, .rw, .none⟩
def LDR_PPR_ROW : Fld := ⟨LDR_PPR, 8, 18, .rw, .none⟩
def LDR_PPR_HARD : Fld := ⟨LDR_PPR, 26, 1, .rw, .none⟩
def LDR_PPR_GO : Fld := ⟨LDR_PPR, 27, 1, .wo, .none⟩
def LDR_PPR_BUSY : Fld := ⟨LDR_PPR, 28, 1, .ro, .none⟩
def LDR_PPR_RESULT : Fld := ⟨LDR_PPR, 29, 3, .ro, .none⟩

/-- Thermal Thresholds, offset 0x170 (13_larder.md). -/
def LDR_THERM : Reg := ⟨.ldr, 0x170, 1, 8, 0x5f55, false, false, false⟩
def LDR_THERM_X2_C : Fld := ⟨LDR_THERM, 0, 8, .rw, .none⟩
def LDR_THERM_HOT_C : Fld := ⟨LDR_THERM, 8, 8, .rw, .none⟩

/-- Carve-out Layout, offset 0x200 (13_larder.md). -/
def LDR_CARVE : Reg := ⟨.ldr, 0x200, 1, 8, 0x0, false, true, false⟩
def LDR_CARVE_LD_LIMIT : Fld := ⟨LDR_CARVE, 0, 16, .ro, .none⟩
def LDR_CARVE_TAG_EN : Fld := ⟨LDR_CARVE, 16, 1, .ro, .none⟩
def LDR_CARVE_CTX_EN : Fld := ⟨LDR_CARVE, 17, 1, .ro, .none⟩
def LDR_CARVE_TLM_GIB : Fld := ⟨LDR_CARVE, 18, 7, .ro, .none⟩
def LDR_CARVE_WAYS : Fld := ⟨LDR_CARVE, 25, 4, .ro, .none⟩

/-- Logical Device Range, offset 0x240 + 8j for j 0 to 15 (13_larder.md). -/
def LDR_LD : Reg := ⟨.ldr, 0x240, 16, 8, 0x0, false, true, false⟩
def LDR_LD_BASE : Fld := ⟨LDR_LD, 0, 16, .rwc, .none⟩
def LDR_LD_SIZE : Fld := ⟨LDR_LD, 16, 16, .rwc, .none⟩
def LDR_LD_V : Fld := ⟨LDR_LD, 32, 1, .rwc, .none⟩

/-- Function Identity, offset 0x0000 (14_data_mover.md). -/
def FN_ID : Reg := ⟨.fn, 0x0, 1, 8, 0x0, false, false, false⟩
def FN_ID_VCS : Fld := ⟨FN_ID, 0, 7, .ro, .none⟩
def FN_ID_FN : Fld := ⟨FN_ID, 7, 7, .ro, .none⟩
def FN_ID_QBASE : Fld := ⟨FN_ID, 14, 20, .ro, .none⟩
def FN_ID_NQ : Fld := ⟨FN_ID, 34, 17, .ro, .none⟩

/-- Queue Select, offset 0x0100 (14_data_mover.md). -/
def FN_QSEL : Reg := ⟨.fn, 0x100, 1, 8, 0x0, false, false, false⟩
def FN_QSEL_QUEUE : Fld := ⟨FN_QSEL, 0, 16, .rw, .none⟩

/-- Queue Context, offset 0x0108 + 8i for i 0 to 5 (14_data_mover.md). -/
def FN_QCTX : Reg := ⟨.fn, 0x108, 6, 8, 0x0, false, false, false⟩
def FN_QCTX_DATA : Fld := ⟨FN_QCTX, 0, 64, .rw, .none⟩

/-- Queue Command, offset 0x0138 (14_data_mover.md). -/
def FN_QCMD : Reg := ⟨.fn, 0x138, 1, 8, 0x0, false, false, false⟩
def FN_QCMD_OP : Fld := ⟨FN_QCMD, 0, 3, .wo, .none⟩

/-- Queue Command Status, offset 0x0140 (14_data_mover.md). -/
def FN_QSTAT : Reg := ⟨.fn, 0x140, 1, 8, 0x0, false, false, false⟩
def FN_QSTAT_BUSY : Fld := ⟨FN_QSTAT, 0, 1, .ro, .none⟩
def FN_QSTAT_RESULT : Fld := ⟨FN_QSTAT, 1, 3, .ro, .none⟩

/-- Engine Status, offset 0x140 (14_data_mover.md). -/
def DMV_ESTAT : Reg := ⟨.dmv, 0x140, 1, 8, 0x0, true, false, false⟩
def DMV_ESTAT_QUEUE : Fld := ⟨DMV_ESTAT, 0, 20, .ro, .none⟩
def DMV_ESTAT_BUSY : Fld := ⟨DMV_ESTAT, 20, 1, .ro, .none⟩
def DMV_ESTAT_SHARE : Fld := ⟨DMV_ESTAT, 21, 4, .ro, .none⟩

/-- MOVE_LIVE Limits, offset 0x150 (14_data_mover.md). -/
def DMV_MLCFG : Reg := ⟨.dmv, 0x150, 1, 8, 0x41077d08, false, true, false⟩
def DMV_MLCFG_HOLD_GRAN : Fld := ⟨DMV_MLCFG, 0, 4, .rwc, .none⟩
def DMV_MLCFG_HOLD_NS : Fld := ⟨DMV_MLCFG, 4, 12, .rwc, .none⟩
def DMV_MLCFG_PASSES : Fld := ⟨DMV_MLCFG, 16, 8, .rwc, .none⟩
def DMV_MLCFG_TRIES : Fld := ⟨DMV_MLCFG, 24, 8, .rwc, .none⟩

/-- Queue Pool Status, offset 0x158 (14_data_mover.md). -/
def DMV_POOL : Reg := ⟨.dmv, 0x158, 1, 8, 0x0, true, true, false⟩
def DMV_POOL_ALLOC : Fld := ⟨DMV_POOL, 0, 21, .ro, .none⟩
def DMV_POOL_ENABLED : Fld := ⟨DMV_POOL, 21, 21, .ro, .none⟩
def DMV_POOL_DBDROP : Fld := ⟨DMV_POOL, 42, 22, .ro, .sat⟩

/-- Engine Time Share, offset 0x180 + 8i for i 0 to 15 (14_data_mover.md). -/
def DMV_SHARE : Reg := ⟨.dmv, 0x180, 16, 8, 0x0, false, false, false⟩
def DMV_SHARE_DOMAIN : Fld := ⟨DMV_SHARE, 0, 10, .rwc, .none⟩
def DMV_SHARE_KIND : Fld := ⟨DMV_SHARE, 10, 2, .rwc, .none⟩
def DMV_SHARE_SLOT : Fld := ⟨DMV_SHARE, 16, 16, .rwc, .none⟩

/-- Migration Status, offset 0x200 + 8m for m 0 to 63 (14_data_mover.md). -/
def DMV_MLSTAT : Reg := ⟨.dmv, 0x200, 64, 8, 0x0, false, true, false⟩
def DMV_MLSTAT_PHASE : Fld := ⟨DMV_MLSTAT, 0, 3, .ro, .none⟩
def DMV_MLSTAT_VCS : Fld := ⟨DMV_MLSTAT, 3, 7, .ro, .none⟩
def DMV_MLSTAT_ENTRY : Fld := ⟨DMV_MLSTAT, 10, 5, .ro, .none⟩
def DMV_MLSTAT_DIRTY : Fld := ⟨DMV_MLSTAT, 15, 19, .ro, .none⟩
def DMV_MLSTAT_PASS : Fld := ⟨DMV_MLSTAT, 34, 8, .ro, .none⟩
def DMV_MLSTAT_TRY : Fld := ⟨DMV_MLSTAT, 42, 8, .ro, .none⟩

/-- Endpoint Queue Block, offset 0x400 + 8u for u 0 to 127 (14_data_mover.md). -/
def DMV_EPCFG : Reg := ⟨.dmv, 0x400, 128, 8, 0x0, false, true, false⟩
def DMV_EPCFG_QBASE : Fld := ⟨DMV_EPCFG, 0, 20, .rwc, .none⟩
def DMV_EPCFG_PF_Q : Fld := ⟨DMV_EPCFG, 20, 17, .rwc, .none⟩
def DMV_EPCFG_VF_Q : Fld := ⟨DMV_EPCFG, 37, 17, .rwc, .none⟩
def DMV_EPCFG_TOTALVFS : Fld := ⟨DMV_EPCFG, 54, 7, .rwc, .none⟩
def DMV_EPCFG_EN : Fld := ⟨DMV_EPCFG, 61, 1, .rwc, .none⟩

/-- Access Control Configuration, offset 0x140 (15_protection_and_isolation.md). -/
def ACU_CFG : Reg := ⟨.acu, 0x140, 1, 8, 0x0, false, false, false⟩
def ACU_CFG_EN : Fld := ⟨ACU_CFG, 0, 1, .rwc, .none⟩

/-- Commit Error, offset 0x148 (15_protection_and_isolation.md). -/
def ACU_CMTERR : Reg := ⟨.acu, 0x148, 1, 8, 0x0, false, false, false⟩
def ACU_CMTERR_REGION_A : Fld := ⟨ACU_CMTERR, 0, 6, .ro, .none⟩
def ACU_CMTERR_REGION_B : Fld := ⟨ACU_CMTERR, 8, 6, .ro, .none⟩
def ACU_CMTERR_CODE : Fld := ⟨ACU_CMTERR, 16, 3, .ro, .none⟩

/-- Violation Log 0, offset 0x150 (15_protection_and_isolation.md). -/
def ACU_VIOLOG0 : Reg := ⟨.acu, 0x150, 1, 8, 0x0, false, false, false⟩
def ACU_VIOLOG0_LINE : Fld := ⟨ACU_VIOLOG0, 0, 46, .ro, .none⟩
def ACU_VIOLOG0_KIND : Fld := ⟨ACU_VIOLOG0, 46, 3, .ro, .none⟩
def ACU_VIOLOG0_CAUSE : Fld := ⟨ACU_VIOLOG0, 49, 3, .ro, .none⟩
def ACU_VIOLOG0_REQ : Fld := ⟨ACU_VIOLOG0, 52, 5, .ro, .none⟩
def ACU_VIOLOG0_VALID : Fld := ⟨ACU_VIOLOG0, 63, 1, .w1c, .none⟩

/-- Violation Log 1, offset 0x158 (15_protection_and_isolation.md). -/
def ACU_VIOLOG1 : Reg := ⟨.acu, 0x158, 1, 8, 0x0, false, false, false⟩
def ACU_VIOLOG1_QUEUE : Fld := ⟨ACU_VIOLOG1, 0, 20, .ro, .none⟩
def ACU_VIOLOG1_DOMAIN : Fld := ⟨ACU_VIOLOG1, 20, 10, .ro, .none⟩
def ACU_VIOLOG1_TAGCOL : Fld := ⟨ACU_VIOLOG1, 30, 8, .ro, .none⟩

/-- Access Control Status, offset 0x160 (15_protection_and_isolation.md). -/
def ACU_STAT : Reg := ⟨.acu, 0x160, 1, 8, 0x0, true, false, false⟩
def ACU_STAT_REFUSED : Fld := ⟨ACU_STAT, 0, 32, .ro, .sat⟩
def ACU_STAT_LATE : Fld := ⟨ACU_STAT, 32, 32, .ro, .sat⟩

/-- Tag Cache Status, offset 0x140 (15_protection_and_isolation.md). -/
def TAG_STAT : Reg := ⟨.tag, 0x140, 1, 8, 0x0, true, false, false⟩
def TAG_STAT_WORDS : Fld := ⟨TAG_STAT, 0, 16, .ro, .none⟩
def TAG_STAT_MISSQ : Fld := ⟨TAG_STAT, 16, 7, .ro, .none⟩

/-- Tag Cache Counts, offset 0x148 (15_protection_and_isolation.md). -/
def TAG_CNT : Reg := ⟨.tag, 0x148, 1, 8, 0x0, false, false, false⟩
def TAG_CNT_HITS : Fld := ⟨TAG_CNT, 0, 32, .ro, .sat⟩
def TAG_CNT_MISSES : Fld := ⟨TAG_CNT, 32, 32, .ro, .sat⟩

/-- Slot Configuration, offset 0x140 (16_slot_power_and_proof.md). -/
def SPU_CFG : Reg := ⟨.spu, 0x140, 1, 8, 0x7d018c81432, false, false, false⟩
def SPU_CFG_ILIM : Fld := ⟨SPU_CFG, 0, 7, .rwl, .none⟩
def SPU_CFG_PLIM : Fld := ⟨SPU_CFG, 8, 7, .rwl, .none⟩
def SPU_CFG_INS_DELAY : Fld := ⟨SPU_CFG, 16, 11, .rwl, .none⟩
def SPU_CFG_RETRIES : Fld := ⟨SPU_CFG, 27, 3, .rwl, .none⟩
def SPU_CFG_RSENSE : Fld := ⟨SPU_CFG, 32, 16, .rwl, .none⟩

/-- Slot Timers, offset 0x148 (16_slot_power_and_proof.md). -/
def SPU_TIMERS : Reg := ⟨.spu, 0x148, 1, 8, 0x1900832, false, false, false⟩
def SPU_TIMERS_RAMP_TO : Fld := ⟨SPU_TIMERS, 0, 10, .rwl, .none⟩
def SPU_TIMERS_OC_T : Fld := ⟨SPU_TIMERS, 10, 8, .rwl, .none⟩
def SPU_TIMERS_RETRY_T : Fld := ⟨SPU_TIMERS, 18, 12, .rwl, .none⟩

/-- Input Window, offset 0x150 (16_slot_power_and_proof.md). -/
def SPU_VIN : Reg := ⟨.spu, 0x150, 1, 8, 0x33902a30, false, false, false⟩
def SPU_VIN_UV : Fld := ⟨SPU_VIN, 0, 16, .rwl, .none⟩
def SPU_VIN_OV : Fld := ⟨SPU_VIN, 16, 16, .rwl, .none⟩

/-- Slot Command, offset 0x158 (16_slot_power_and_proof.md). -/
def SPU_CMD : Reg := ⟨.spu, 0x158, 1, 8, 0x0, false, false, false⟩
def SPU_CMD_OP : Fld := ⟨SPU_CMD, 0, 2, .wo, .none⟩

/-- Slot Status, offset 0x160 (16_slot_power_and_proof.md). -/
def SPU_STAT : Reg := ⟨.spu, 0x160, 1, 8, 0x0, true, false, false⟩
def SPU_STAT_STATE : Fld := ⟨SPU_STAT, 0, 3, .ro, .none⟩
def SPU_STAT_PRSNT : Fld := ⟨SPU_STAT, 3, 1, .ro, .none⟩
def SPU_STAT_PG : Fld := ⟨SPU_STAT, 4, 1, .ro, .none⟩
def SPU_STAT_CMD_ON : Fld := ⟨SPU_STAT, 5, 1, .ro, .none⟩
def SPU_STAT_RETRY_CNT : Fld := ⟨SPU_STAT, 6, 3, .ro, .none⟩
def SPU_STAT_FET_FAIL : Fld := ⟨SPU_STAT, 9, 1, .ro, .none⟩
def SPU_STAT_EN_N : Fld := ⟨SPU_STAT, 10, 1, .ro, .none⟩
def SPU_STAT_FAULT : Fld := ⟨SPU_STAT, 11, 3, .ro, .none⟩
def SPU_STAT_COOL_REM : Fld := ⟨SPU_STAT, 16, 16, .ro, .none⟩

/-- Slot Measurements, offset 0x168 (16_slot_power_and_proof.md). -/
def SPU_MEAS : Reg := ⟨.spu, 0x168, 1, 8, 0x0, true, false, false⟩
def SPU_MEAS_VIN : Fld := ⟨SPU_MEAS, 0, 16, .ro, .none⟩
def SPU_MEAS_VOUT : Fld := ⟨SPU_MEAS, 16, 16, .ro, .none⟩
def SPU_MEAS_IOUT : Fld := ⟨SPU_MEAS, 32, 16, .ro, .none⟩

/-- Proof Configuration 0, offset 0x140 (16_slot_power_and_proof.md). -/
def PRF_CFG0 : Reg := ⟨.prf, 0x140, 1, 8, 0xfa2af829040384, false, false, false⟩
def PRF_CFG0_ETA : Fld := ⟨PRF_CFG0, 0, 10, .rwl, .none⟩
def PRF_CFG0_VMIN : Fld := ⟨PRF_CFG0, 16, 16, .rwl, .none⟩
def PRF_CFG0_VLOW : Fld := ⟨PRF_CFG0, 32, 16, .rwl, .none⟩
def PRF_CFG0_DVMAX : Fld := ⟨PRF_CFG0, 48, 10, .rwl, .none⟩

/-- Proof Configuration 1, offset 0x148 (16_slot_power_and_proof.md). -/
def PRF_CFG1 : Reg := ⟨.prf, 0x148, 1, 8, 0x180b400fa0140550, false, false, false⟩
def PRF_CFG1_PHOLD : Fld := ⟨PRF_CFG1, 0, 16, .rwl, .none⟩
def PRF_CFG1_TDET : Fld := ⟨PRF_CFG1, 16, 12, .rwl, .none⟩
def PRF_CFG1_TGPF : Fld := ⟨PRF_CFG1, 28, 16, .rwl, .none⟩
def PRF_CFG1_BFLUSH : Fld := ⟨PRF_CFG1, 44, 12, .rwl, .none⟩
def PRF_CFG1_PERIOD : Fld := ⟨PRF_CFG1, 56, 8, .rwl, .none⟩

/-- Proof Configuration 2, offset 0x150 (16_slot_power_and_proof.md). -/
def PRF_CFG2 : Reg := ⟨.prf, 0x150, 1, 8, 0x52710, false, false, false⟩
def PRF_CFG2_RSNS : Fld := ⟨PRF_CFG2, 0, 16, .rwl, .none⟩
def PRF_CFG2_TLOAD : Fld := ⟨PRF_CFG2, 16, 5, .rwl, .none⟩
def PRF_CFG2_SLICE_MAX : Fld := ⟨PRF_CFG2, 32, 16, .rwl, .none⟩

/-- Proof Command, offset 0x158 (16_slot_power_and_proof.md). -/
def PRF_CMD : Reg := ⟨.prf, 0x158, 1, 8, 0x0, false, false, false⟩
def PRF_CMD_MEASURE : Fld := ⟨PRF_CMD, 0, 1, .wo, .none⟩

/-- Proof Result, offset 0x160 (16_slot_power_and_proof.md). -/
def PRF_RESULT : Reg := ⟨.prf, 0x160, 1, 8, 0x0, true, false, true⟩
def PRF_RESULT_CAP : Fld := ⟨PRF_RESULT, 0, 24, .ro, .none⟩
def PRF_RESULT_VALID : Fld := ⟨PRF_RESULT, 24, 1, .ro, .none⟩
def PRF_RESULT_VSTART : Fld := ⟨PRF_RESULT, 32, 16, .ro, .none⟩
def PRF_RESULT_ENERGY : Fld := ⟨PRF_RESULT, 48, 16, .ro, .none⟩

/-- Allowance, offset 0x168 (16_slot_power_and_proof.md). -/
def PRF_ALLOW : Reg := ⟨.prf, 0x168, 1, 8, 0x1000000000000, true, false, false⟩
def PRF_ALLOW_DMAX : Fld := ⟨PRF_ALLOW, 0, 24, .ro, .none⟩
def PRF_ALLOW_GRANTED : Fld := ⟨PRF_ALLOW, 24, 24, .ro, .none⟩
def PRF_ALLOW_GATED : Fld := ⟨PRF_ALLOW, 48, 1, .ro, .none⟩
def PRF_ALLOW_TEST : Fld := ⟨PRF_ALLOW, 49, 1, .ro, .none⟩

/-- Proof Status, offset 0x170 (16_slot_power_and_proof.md). -/
def PRF_STAT : Reg := ⟨.prf, 0x170, 1, 8, 0x0, true, false, false⟩
def PRF_STAT_STATE : Fld := ⟨PRF_STAT, 0, 3, .ro, .none⟩
def PRF_STAT_HU_OK : Fld := ⟨PRF_STAT, 3, 1, .ro, .none⟩
def PRF_STAT_PWRFAIL : Fld := ⟨PRF_STAT, 4, 1, .ro, .none⟩
def PRF_STAT_HELD : Fld := ⟨PRF_STAT, 5, 30, .ro, .none⟩

/-- Flush Log, offset 0x178 (16_slot_power_and_proof.md). -/
def PRF_LOG : Reg := ⟨.prf, 0x178, 1, 8, 0x0, false, false, true⟩
def PRF_LOG_TRIGGER : Fld := ⟨PRF_LOG, 0, 2, .ro, .none⟩
def PRF_LOG_FLUSH_US : Fld := ⟨PRF_LOG, 2, 16, .ro, .none⟩
def PRF_LOG_GPF_US : Fld := ⟨PRF_LOG, 18, 16, .ro, .none⟩
def PRF_LOG_GPF_MISS : Fld := ⟨PRF_LOG, 34, 1, .ro, .none⟩
def PRF_LOG_WR_FAIL : Fld := ⟨PRF_LOG, 35, 16, .ro, .sat⟩
def PRF_LOG_VALID : Fld := ⟨PRF_LOG, 63, 1, .w1c, .none⟩

/-- Security Status, offset 0x140 (17_security_and_identity.md). -/
def SEC_STAT : Reg := ⟨.sec, 0x140, 1, 8, 0x0, true, false, false⟩
def SEC_STAT_BOOT : Fld := ⟨SEC_STAT, 0, 3, .ro, .none⟩
def SEC_STAT_BANK : Fld := ⟨SEC_STAT, 3, 1, .ro, .none⟩
def SEC_STAT_FALLBACK : Fld := ⟨SEC_STAT, 4, 1, .ro, .none⟩
def SEC_STAT_CUSTKEY : Fld := ⟨SEC_STAT, 5, 1, .ro, .none⟩
def SEC_STAT_DBG : Fld := ⟨SEC_STAT, 6, 1, .ro, .none⟩
def SEC_STAT_LOCKBOOT : Fld := ⟨SEC_STAT, 7, 1, .ro, .none⟩
def SEC_STAT_ARC : Fld := ⟨SEC_STAT, 8, 7, .ro, .none⟩
def SEC_STAT_KREV : Fld := ⟨SEC_STAT, 15, 4, .ro, .none⟩
def SEC_STAT_TRNG_OK : Fld := ⟨SEC_STAT, 19, 1, .ro, .none⟩

/-- Security Command, offset 0x148 (17_security_and_identity.md). -/
def SEC_CMD : Reg := ⟨.sec, 0x148, 1, 8, 0x0, false, false, false⟩
def SEC_CMD_OP : Fld := ⟨SEC_CMD, 0, 4, .wo, .none⟩
def SEC_CMD_ARG : Fld := ⟨SEC_CMD, 8, 8, .wo, .none⟩

/-- Command Result, offset 0x150 (17_security_and_identity.md). -/
def SEC_RESULT : Reg := ⟨.sec, 0x150, 1, 8, 0x0, false, false, false⟩
def SEC_RESULT_BUSY : Fld := ⟨SEC_RESULT, 0, 1, .ro, .none⟩
def SEC_RESULT_DONE : Fld := ⟨SEC_RESULT, 1, 1, .w1c, .none⟩
def SEC_RESULT_CODE : Fld := ⟨SEC_RESULT, 8, 8, .ro, .none⟩
def SEC_RESULT_DETAIL : Fld := ⟨SEC_RESULT, 16, 16, .ro, .none⟩

/-- Window Control, offset 0x158 (17_security_and_identity.md). -/
def SEC_WIN_CTL : Reg := ⟨.sec, 0x158, 1, 8, 0x0, false, false, false⟩
def SEC_WIN_CTL_OFFSET : Fld := ⟨SEC_WIN_CTL, 0, 32, .rw, .none⟩
def SEC_WIN_CTL_LEN : Fld := ⟨SEC_WIN_CTL, 32, 10, .rw, .none⟩

/-- Bundle State, offset 0x160 (17_security_and_identity.md). -/
def SEC_BUNDLE : Reg := ⟨.sec, 0x160, 1, 8, 0x0, false, false, true⟩
def SEC_BUNDLE_SEQ : Fld := ⟨SEC_BUNDLE, 0, 32, .ro, .none⟩
def SEC_BUNDLE_RECORDS : Fld := ⟨SEC_BUNDLE, 32, 16, .ro, .none⟩

/-- Relay Status, offset 0x168 (17_security_and_identity.md). -/
def SEC_RELAY : Reg := ⟨.sec, 0x168, 1, 8, 0x0, false, false, false⟩
def SEC_RELAY_OUT_V : Fld := ⟨SEC_RELAY, 0, 1, .w1c, .none⟩
def SEC_RELAY_LINK : Fld := ⟨SEC_RELAY, 1, 5, .ro, .none⟩
def SEC_RELAY_OUTLEN : Fld := ⟨SEC_RELAY, 16, 10, .ro, .none⟩

/-- Command Window, offset 0x200 + 8i for i 0 to 63 (17_security_and_identity.md). -/
def SEC_WIN : Reg := ⟨.sec, 0x200, 64, 8, 0x0, false, false, false⟩
def SEC_WIN_DATA : Fld := ⟨SEC_WIN, 0, 64, .rw, .none⟩

/-- Relay Output, offset 0x400 + 8i for i 0 to 63 (17_security_and_identity.md). -/
def SEC_OUT : Reg := ⟨.sec, 0x400, 64, 8, 0x0, false, false, false⟩
def SEC_OUT_DATA : Fld := ⟨SEC_OUT, 0, 64, .ro, .none⟩

/-- Clock and Reset Status, offset 0x140 (18_reset_and_startup.md). -/
def CKR_STAT : Reg := ⟨.ckr, 0x140, 1, 8, 0x3, true, false, false⟩
def CKR_STAT_LEVAIN_LOCK : Fld := ⟨CKR_STAT, 0, 1, .ro, .none⟩
def CKR_STAT_REFCLK_OK : Fld := ⟨CKR_STAT, 1, 1, .ro, .none⟩
def CKR_STAT_QUIESCE : Fld := ⟨CKR_STAT, 2, 1, .ro, .none⟩
def CKR_STAT_DOMAIN_RST : Fld := ⟨CKR_STAT, 3, 1, .ro, .none⟩
def CKR_STAT_PORT_RST : Fld := ⟨CKR_STAT, 4, 1, .ro, .none⟩
def CKR_STAT_SLICE_RST : Fld := ⟨CKR_STAT, 16, 16, .ro, .none⟩

/-- Last Reset, offset 0x148 (18_reset_and_startup.md). -/
def CKR_RSTLOG : Reg := ⟨.ckr, 0x148, 1, 8, 0x10, false, false, false⟩
def CKR_RSTLOG_SCOPE : Fld := ⟨CKR_RSTLOG, 0, 3, .ro, .none⟩
def CKR_RSTLOG_TRIGGER : Fld := ⟨CKR_RSTLOG, 4, 4, .ro, .none⟩
def CKR_RSTLOG_TARGET : Fld := ⟨CKR_RSTLOG, 8, 10, .ro, .none⟩
def CKR_RSTLOG_PATH : Fld := ⟨CKR_RSTLOG, 18, 4, .ro, .none⟩
def CKR_RSTLOG_ESCALATED : Fld := ⟨CKR_RSTLOG, 22, 1, .ro, .none⟩
def CKR_RSTLOG_QUIESCE_T : Fld := ⟨CKR_RSTLOG, 24, 16, .ro, .sat⟩
def CKR_RSTLOG_ABANDONED : Fld := ⟨CKR_RSTLOG, 40, 23, .ro, .sat⟩

/-- Reset Configuration, offset 0x150 (18_reset_and_startup.md). -/
def CKR_RSTCFG : Reg := ⟨.ckr, 0x150, 1, 8, 0x414, false, false, false⟩
def CKR_RSTCFG_QUIESCE_TO : Fld := ⟨CKR_RSTCFG, 0, 10, .rw, .none⟩
def CKR_RSTCFG_RECALL : Fld := ⟨CKR_RSTCFG, 10, 1, .rw, .none⟩

/-- GPIO Outputs, offset 0x158 (18_reset_and_startup.md). -/
def CKR_GPIO : Reg := ⟨.ckr, 0x158, 1, 8, 0x0, false, false, false⟩
def CKR_GPIO_OUT : Fld := ⟨CKR_GPIO, 0, 16, .rw, .none⟩
def CKR_GPIO_OE : Fld := ⟨CKR_GPIO, 16, 16, .rw, .none⟩

/-- Conditioned Inputs 0, offset 0x160 (18_reset_and_startup.md). -/
def CKR_INSTAT0 : Reg := ⟨.ckr, 0x160, 1, 8, 0x0, true, false, false⟩
def CKR_INSTAT0_PRSNT : Fld := ⟨CKR_INSTAT0, 0, 32, .ro, .none⟩
def CKR_INSTAT0_PERST_IN : Fld := ⟨CKR_INSTAT0, 32, 16, .ro, .none⟩
def CKR_INSTAT0_GPIO : Fld := ⟨CKR_INSTAT0, 48, 16, .ro, .none⟩

/-- Conditioned Inputs 1, offset 0x168 (18_reset_and_startup.md). -/
def CKR_INSTAT1 : Reg := ⟨.ckr, 0x168, 1, 8, 0x0, true, false, false⟩
def CKR_INSTAT1_PWRFAIL : Fld := ⟨CKR_INSTAT1, 0, 1, .ro, .none⟩
def CKR_INSTAT1_SNAP_IN : Fld := ⟨CKR_INSTAT1, 1, 1, .ro, .none⟩
def CKR_INSTAT1_WARM_RST : Fld := ⟨CKR_INSTAT1, 2, 1, .ro, .none⟩

/-- Chatter Flags 0, offset 0x170 (18_reset_and_startup.md). -/
def CKR_CHAT0 : Reg := ⟨.ckr, 0x170, 1, 8, 0x0, false, false, false⟩
def CKR_CHAT0_FLAG : Fld := ⟨CKR_CHAT0, 0, 64, .w1c, .none⟩

/-- Chatter Flags 1, offset 0x178 (18_reset_and_startup.md). -/
def CKR_CHAT1 : Reg := ⟨.ckr, 0x178, 1, 8, 0x0, false, false, false⟩
def CKR_CHAT1_FLAG : Fld := ⟨CKR_CHAT1, 0, 3, .w1c, .none⟩

/-- Input Conditioning, offset 0x200 + 8i for i 0 to 66 (18_reset_and_startup.md). -/
def CKR_INCFG : Reg := ⟨.ckr, 0x200, 67, 8, 0x0, false, false, false⟩
def CKR_INCFG_DEB : Fld := ⟨CKR_INCFG, 0, 16, .rw, .none⟩
def CKR_INCFG_CH_MAX : Fld := ⟨CKR_INCFG, 16, 8, .rw, .none⟩
def CKR_INCFG_CH_WIN : Fld := ⟨CKR_INCFG, 24, 8, .rw, .none⟩
def CKR_INCFG_EDGE : Fld := ⟨CKR_INCFG, 32, 1, .rw, .none⟩

/-- Fault Status, offset 0x040 (19_fault_handling.md). -/
def FLT_STATUS (b : Blk) : Reg := ⟨b, 0x40, 1, 8, 0x0, true, false, false⟩
def FLT_STATUS_STATUS (b : Blk) : Fld := ⟨FLT_STATUS b, 0, 16, .w1c, .none⟩

/-- Fault Mask, offset 0x048 (19_fault_handling.md). -/
def FLT_MASK (b : Blk) : Reg := ⟨b, 0x48, 1, 8, 0x0, false, false, false⟩
def FLT_MASK_MASK (b : Blk) : Fld := ⟨FLT_MASK b, 0, 16, .rwl, .none⟩

/-- Fault Severity, offset 0x050 (19_fault_handling.md). -/
def FLT_SEV (b : Blk) : Reg := ⟨b, 0x50, 1, 8, 0x0, false, false, false⟩
def FLT_SEV_SEV (b : Blk) : Fld := ⟨FLT_SEV b, 0, 48, .rwl, .none⟩

/-- Fault Injection, offset 0x058 (19_fault_handling.md). -/
def FLT_INJECT (b : Blk) : Reg := ⟨b, 0x58, 1, 8, 0x0, false, false, false⟩
def FLT_INJECT_SOURCE (b : Blk) : Fld := ⟨FLT_INJECT b, 0, 4, .rw, .none⟩
def FLT_INJECT_SUB (b : Blk) : Fld := ⟨FLT_INJECT b, 8, 8, .rw, .none⟩
def FLT_INJECT_ARM (b : Blk) : Fld := ⟨FLT_INJECT b, 16, 1, .rw, .none⟩
def FLT_INJECT_CONT (b : Blk) : Fld := ⟨FLT_INJECT b, 17, 1, .rw, .none⟩

/-- First Fault, offset 0x060 (19_fault_handling.md). -/
def FLT_FIRST (b : Blk) : Reg := ⟨b, 0x60, 1, 8, 0x0, false, false, true⟩
def FLT_FIRST_SOURCE (b : Blk) : Fld := ⟨FLT_FIRST b, 0, 4, .ro, .none⟩
def FLT_FIRST_SEV (b : Blk) : Fld := ⟨FLT_FIRST b, 4, 3, .ro, .none⟩
def FLT_FIRST_ESC (b : Blk) : Fld := ⟨FLT_FIRST b, 7, 1, .ro, .none⟩
def FLT_FIRST_TS (b : Blk) : Fld := ⟨FLT_FIRST b, 16, 32, .ro, .none⟩
def FLT_FIRST_VALID (b : Blk) : Fld := ⟨FLT_FIRST b, 63, 1, .w1c, .none⟩

/-- Fault Count, offset 0x068 (19_fault_handling.md). -/
def FLT_COUNT (b : Blk) : Reg := ⟨b, 0x68, 1, 8, 0x0, false, false, true⟩
def FLT_COUNT_EVENTS (b : Blk) : Fld := ⟨FLT_COUNT b, 0, 32, .ro, .sat⟩
def FLT_COUNT_ESCALATIONS (b : Blk) : Fld := ⟨FLT_COUNT b, 32, 16, .ro, .sat⟩
def FLT_COUNT_CLR (b : Blk) : Fld := ⟨FLT_COUNT b, 63, 1, .wo, .none⟩

/-- Aggregator Configuration, offset 0x140 (19_fault_handling.md). -/
def FAG_CFG : Reg := ⟨.fag, 0x140, 1, 8, 0x9, false, false, false⟩
def FAG_CFG_ALERT_MIN : Fld := ⟨FAG_CFG, 0, 3, .rw, .none⟩
def FAG_CFG_ALERT_EN : Fld := ⟨FAG_CFG, 3, 1, .rw, .none⟩

/-- Aggregator Status, offset 0x148 (19_fault_handling.md). -/
def FAG_STAT : Reg := ⟨.fag, 0x148, 1, 8, 0x0, true, false, false⟩
def FAG_STAT_HALTED : Fld := ⟨FAG_STAT, 0, 1, .ro, .none⟩
def FAG_STAT_ALERT : Fld := ⟨FAG_STAT, 1, 1, .ro, .none⟩
def FAG_STAT_FATAL : Fld := ⟨FAG_STAT, 2, 1, .ro, .none⟩
def FAG_STAT_QUAR : Fld := ⟨FAG_STAT, 16, 16, .ro, .none⟩
def FAG_STAT_QDOM : Fld := ⟨FAG_STAT, 32, 9, .ro, .none⟩

/-- Halt Log, offset 0x150 (19_fault_handling.md). -/
def FAG_HALTLOG : Reg := ⟨.fag, 0x150, 1, 8, 0x0, false, false, true⟩
def FAG_HALTLOG_PAGE : Fld := ⟨FAG_HALTLOG, 0, 14, .ro, .none⟩
def FAG_HALTLOG_SOURCE : Fld := ⟨FAG_HALTLOG, 14, 4, .ro, .none⟩
def FAG_HALTLOG_CAUSE : Fld := ⟨FAG_HALTLOG, 18, 2, .ro, .none⟩
def FAG_HALTLOG_TS : Fld := ⟨FAG_HALTLOG, 20, 32, .ro, .none⟩
def FAG_HALTLOG_VALID : Fld := ⟨FAG_HALTLOG, 63, 1, .w1c, .none⟩

/-- Pending Pages, offset 0x180 + 8w for w 0 to 17 (19_fault_handling.md). -/
def FAG_PEND : Reg := ⟨.fag, 0x180, 18, 8, 0x0, true, false, false⟩
def FAG_PEND_PEND : Fld := ⟨FAG_PEND, 0, 64, .ro, .none⟩

/-- Level Select, offset 0x210 (19_fault_handling.md). -/
def FAG_LVL_SEL : Reg := ⟨.fag, 0x210, 1, 8, 0x0, false, false, false⟩
def FAG_LVL_SEL_PAGE : Fld := ⟨FAG_LVL_SEL, 0, 14, .rw, .none⟩

/-- Source Levels, offset 0x218 (19_fault_handling.md). -/
def FAG_LVL : Reg := ⟨.fag, 0x218, 1, 8, 0x0, false, false, false⟩
def FAG_LVL_LEVEL : Fld := ⟨FAG_LVL, 0, 48, .ro, .none⟩

/-- Counter, offset 0x080 + 8i for i 0 to 15 (20_observability.md). -/
def CNT (b : Blk) : Reg := ⟨b, 0x80, 16, 8, 0x0, true, false, false⟩
def CNT_COUNT (b : Blk) : Fld := ⟨CNT b, 0, 48, .ro, .none⟩
def CNT_SAT (b : Blk) : Fld := ⟨CNT b, 48, 1, .ro, .none⟩

/-- Domain Counter, offset 0x1000 + 8j (20_observability.md). -/
def FN_CNT : Reg := ⟨.fn, 0x1000, 64, 8, 0x0, false, false, false⟩
def FN_CNT_COUNT : Fld := ⟨FN_CNT, 0, 48, .ro, .none⟩
def FN_CNT_PAGE : Fld := ⟨FN_CNT, 48, 11, .ro, .none⟩
def FN_CNT_CNT : Fld := ⟨FN_CNT, 59, 4, .ro, .none⟩
def FN_CNT_V : Fld := ⟨FN_CNT, 63, 1, .ro, .none⟩

/-- Time Base Configuration, offset 0x140 (20_observability.md). -/
def TMB_CFG : Reg := ⟨.tmb, 0x140, 1, 8, 0x3e800000, false, false, false⟩
def TMB_CFG_ROLE : Fld := ⟨TMB_CFG, 0, 2, .rw, .none⟩
def TMB_CFG_PARENT : Fld := ⟨TMB_CFG, 2, 5, .rw, .none⟩
def TMB_CFG_BACKUP : Fld := ⟨TMB_CFG, 7, 5, .rw, .none⟩
def TMB_CFG_BKUP_V : Fld := ⟨TMB_CFG, 12, 1, .rw, .none⟩
def TMB_CFG_PTM_PORT : Fld := ⟨TMB_CFG, 13, 7, .rw, .none⟩
def TMB_CFG_STEP_THR : Fld := ⟨TMB_CFG, 20, 32, .rw, .none⟩

/-- Local Time, offset 0x148 (20_observability.md). -/
def TMB_LOCAL : Reg := ⟨.tmb, 0x148, 1, 8, 0x0, false, false, false⟩
def TMB_LOCAL_TICKS : Fld := ⟨TMB_LOCAL, 0, 64, .ro, .none⟩

/-- Fabric Time, offset 0x150 (20_observability.md). -/
def TMB_TIME : Reg := ⟨.tmb, 0x150, 1, 8, 0x0, true, false, false⟩
def TMB_TIME_TICKS : Fld := ⟨TMB_TIME, 0, 64, .ro, .none⟩

/-- Set Fabric Time, offset 0x158 (20_observability.md). -/
def TMB_SET : Reg := ⟨.tmb, 0x158, 1, 8, 0x0, false, false, false⟩
def TMB_SET_TICKS : Fld := ⟨TMB_SET, 0, 64, .wo, .none⟩

/-- Rate, offset 0x160 (20_observability.md). -/
def TMB_RATE : Reg := ⟨.tmb, 0x160, 1, 8, 0x0, false, false, false⟩
def TMB_RATE_PPB : Fld := ⟨TMB_RATE, 0, 32, .rw, .none⟩

/-- Time Base Status, offset 0x168 (20_observability.md). -/
def TMB_STAT : Reg := ⟨.tmb, 0x168, 1, 8, 0x0, true, false, false⟩
def TMB_STAT_LOCKED : Fld := ⟨TMB_STAT, 0, 1, .ro, .none⟩
def TMB_STAT_HOLDOVER : Fld := ⟨TMB_STAT, 1, 1, .ro, .none⟩
def TMB_STAT_LINK : Fld := ⟨TMB_STAT, 2, 5, .ro, .none⟩
def TMB_STAT_THETA : Fld := ⟨TMB_STAT, 32, 32, .ro, .none⟩

/-- Crumb Configuration, offset 0x140 (20_observability.md). -/
def CRB_CFG : Reg := ⟨.crb, 0x140, 1, 8, 0xa00bb, false, false, false⟩
def CRB_CFG_SEV_MIN : Fld := ⟨CRB_CFG, 0, 3, .rw, .none⟩
def CRB_CFG_EN_SW : Fld := ⟨CRB_CFG, 3, 1, .rw, .none⟩
def CRB_CFG_EN_FAULT : Fld := ⟨CRB_CFG, 4, 1, .rw, .none⟩
def CRB_CFG_EN_SNAPIN : Fld := ⟨CRB_CFG, 5, 1, .rw, .none⟩
def CRB_CFG_EN_TIME : Fld := ⟨CRB_CFG, 6, 1, .rw, .none⟩
def CRB_CFG_EN_TLM : Fld := ⟨CRB_CFG, 7, 1, .rw, .none⟩
def CRB_CFG_FABRIC : Fld := ⟨CRB_CFG, 8, 1, .rw, .none⟩
def CRB_CFG_OVERWRITE : Fld := ⟨CRB_CFG, 9, 1, .rw, .none⟩
def CRB_CFG_OUT_EN : Fld := ⟨CRB_CFG, 10, 1, .rw, .none⟩
def CRB_CFG_PULSE : Fld := ⟨CRB_CFG, 16, 8, .rw, .none⟩

/-- Crumb Command, offset 0x148 (20_observability.md). -/
def CRB_CMD : Reg := ⟨.crb, 0x148, 1, 8, 0x0, false, false, false⟩
def CRB_CMD_FIRE : Fld := ⟨CRB_CMD, 0, 1, .wo, .none⟩
def CRB_CMD_CLRALL : Fld := ⟨CRB_CMD, 1, 1, .wo, .none⟩

/-- Time Match, offset 0x150 (20_observability.md). -/
def CRB_MATCH : Reg := ⟨.crb, 0x150, 1, 8, 0x0, false, false, false⟩
def CRB_MATCH_TICKS : Fld := ⟨CRB_MATCH, 0, 64, .rw, .none⟩

/-- Latch Time, offset 0x158 (20_observability.md). -/
def CRB_LOG0 : Reg := ⟨.crb, 0x158, 1, 8, 0x0, false, false, false⟩
def CRB_LOG0_TICKS : Fld := ⟨CRB_LOG0, 0, 64, .ro, .none⟩

/-- Latch Record, offset 0x160 (20_observability.md). -/
def CRB_LOG1 : Reg := ⟨.crb, 0x160, 1, 8, 0x0, false, false, false⟩
def CRB_LOG1_CAUSE : Fld := ⟨CRB_LOG1, 0, 3, .ro, .none⟩
def CRB_LOG1_ORIGIN : Fld := ⟨CRB_LOG1, 3, 4, .ro, .none⟩
def CRB_LOG1_ID : Fld := ⟨CRB_LOG1, 7, 8, .ro, .none⟩
def CRB_LOG1_LATE : Fld := ⟨CRB_LOG1, 15, 1, .ro, .none⟩
def CRB_LOG1_KEPT : Fld := ⟨CRB_LOG1, 16, 12, .ro, .none⟩
def CRB_LOG1_DROPPED : Fld := ⟨CRB_LOG1, 28, 8, .ro, .sat⟩
def CRB_LOG1_LATE_BY : Fld := ⟨CRB_LOG1, 36, 28, .ro, .sat⟩

/-- Collector Configuration, offset 0x140 (20_observability.md). -/
def CCL_CFG : Reg := ⟨.ccl, 0x140, 1, 8, 0x3e800, false, false, false⟩
def CCL_CFG_EN : Fld := ⟨CCL_CFG, 0, 1, .rw, .none⟩
def CCL_CFG_LOC : Fld := ⟨CCL_CFG, 1, 1, .rw, .none⟩
def CCL_CFG_INTERVAL : Fld := ⟨CCL_CFG, 8, 20, .rw, .none⟩

/-- Image Base, offset 0x148 (20_observability.md). -/
def CCL_BASE : Reg := ⟨.ccl, 0x148, 1, 8, 0x0, false, false, false⟩
def CCL_BASE_ADDR : Fld := ⟨CCL_BASE, 12, 52, .rw, .none⟩

/-- Collector Status, offset 0x150 (20_observability.md). -/
def CCL_STAT : Reg := ⟨.ccl, 0x150, 1, 8, 0x0, false, false, false⟩
def CCL_STAT_SEQ : Fld := ⟨CCL_STAT, 0, 32, .ro, .wrap⟩
def CCL_STAT_BUF : Fld := ⟨CCL_STAT, 32, 1, .ro, .none⟩
def CCL_STAT_SKIPPED : Fld := ⟨CCL_STAT, 48, 16, .ro, .sat⟩

/-- Telemetry Configuration, offset 0x140 (20_observability.md). -/
def TLM_CFG : Reg := ⟨.tlm, 0x140, 1, 8, 0x2, false, false, false⟩
def TLM_CFG_FLT_EN : Fld := ⟨TLM_CFG, 0, 1, .rw, .none⟩
def TLM_CFG_FLT_MIN : Fld := ⟨TLM_CFG, 1, 3, .rw, .none⟩
def TLM_CFG_FLT_RING : Fld := ⟨TLM_CFG, 4, 12, .rw, .none⟩

/-- Ring Select, offset 0x148 (20_observability.md). -/
def TLM_SEL : Reg := ⟨.tlm, 0x148, 1, 8, 0x0, false, false, false⟩
def TLM_SEL_RING : Fld := ⟨TLM_SEL, 0, 12, .rw, .none⟩

/-- Ring Base, offset 0x150 (20_observability.md). -/
def TLM_RCFG0 : Reg := ⟨.tlm, 0x150, 1, 8, 0x0, false, false, false⟩
def TLM_RCFG0_BASE : Fld := ⟨TLM_RCFG0, 12, 52, .rw, .none⟩

/-- Ring Configuration, offset 0x158 (20_observability.md). -/
def TLM_RCFG1 : Reg := ⟨.tlm, 0x158, 1, 8, 0x30, false, false, false⟩
def TLM_RCFG1_EN : Fld := ⟨TLM_RCFG1, 0, 1, .rw, .none⟩
def TLM_RCFG1_LOC : Fld := ⟨TLM_RCFG1, 1, 1, .rw, .none⟩
def TLM_RCFG1_SIZE : Fld := ⟨TLM_RCFG1, 2, 5, .rw, .none⟩
def TLM_RCFG1_CT : Fld := ⟨TLM_RCFG1, 8, 16, .rw, .none⟩
def TLM_RCFG1_LEVEL : Fld := ⟨TLM_RCFG1, 24, 24, .rw, .none⟩
def TLM_RCFG1_CRUMB : Fld := ⟨TLM_RCFG1, 48, 1, .rw, .none⟩

/-- Ring Status, offset 0x160 (20_observability.md). -/
def TLM_RSTAT : Reg := ⟨.tlm, 0x160, 1, 8, 0x0, false, false, false⟩
def TLM_RSTAT_HEAD : Fld := ⟨TLM_RSTAT, 0, 25, .ro, .none⟩
def TLM_RSTAT_TAIL : Fld := ⟨TLM_RSTAT, 25, 25, .ro, .none⟩
def TLM_RSTAT_ERR : Fld := ⟨TLM_RSTAT, 50, 1, .ro, .none⟩
def TLM_RSTAT_GAP : Fld := ⟨TLM_RSTAT, 51, 1, .ro, .none⟩
def TLM_RSTAT_SEQ : Fld := ⟨TLM_RSTAT, 52, 8, .ro, .none⟩

/-- Ring Head Write, offset 0x168 (20_observability.md). -/
def TLM_RHEAD : Reg := ⟨.tlm, 0x168, 1, 8, 0x0, false, false, false⟩
def TLM_RHEAD_HEAD : Fld := ⟨TLM_RHEAD, 0, 25, .wo, .none⟩

/-- Ring Drops, offset 0x170 (20_observability.md). -/
def TLM_DROP : Reg := ⟨.tlm, 0x170, 1, 8, 0x0, false, false, false⟩
def TLM_DROP_PENDING : Fld := ⟨TLM_DROP, 0, 32, .ro, .sat⟩
def TLM_DROP_TOTAL : Fld := ⟨TLM_DROP, 32, 32, .ro, .sat⟩

/-- Ring Pop, offset 0x178 (20_observability.md). -/
def TLM_POP : Reg := ⟨.tlm, 0x178, 1, 8, 0x0, false, false, false⟩
def TLM_POP_WORD : Fld := ⟨TLM_POP, 0, 64, .ro, .none⟩

/-- Telemetry Status, offset 0x180 (20_observability.md). -/
def TLM_STAT : Reg := ⟨.tlm, 0x180, 1, 8, 0x0, false, false, false⟩
def TLM_STAT_NORING : Fld := ⟨TLM_STAT, 0, 32, .ro, .sat⟩

/-- Counter select, offset 0x100 + 8j: Table 20-3, counter 2j in bits 31:0 and 2j + 1 in bits 63:32. -/
def CNT_SEL (b : Blk) : Reg := ⟨b, 0x100, 8, 8, 0, false, false, false⟩
def CNT_SEL_EVENT0 (b : Blk) : Fld := ⟨CNT_SEL b, 0, 10, .rw, .none⟩
def CNT_SEL_EN0 (b : Blk) : Fld := ⟨CNT_SEL b, 10, 1, .rw, .none⟩
def CNT_SEL_EDGE0 (b : Blk) : Fld := ⟨CNT_SEL b, 11, 1, .rw, .none⟩
def CNT_SEL_USER0 (b : Blk) : Fld := ⟨CNT_SEL b, 12, 1, .rw, .none⟩
def CNT_SEL_CLR0 (b : Blk) : Fld := ⟨CNT_SEL b, 13, 1, .wo, .none⟩
def CNT_SEL_DOMAIN0 (b : Blk) : Fld := ⟨CNT_SEL b, 15, 10, .rw, .none⟩
def CNT_SEL_EVENT1 (b : Blk) : Fld := ⟨CNT_SEL b, 32, 10, .rw, .none⟩
def CNT_SEL_EN1 (b : Blk) : Fld := ⟨CNT_SEL b, 42, 1, .rw, .none⟩
def CNT_SEL_EDGE1 (b : Blk) : Fld := ⟨CNT_SEL b, 43, 1, .rw, .none⟩
def CNT_SEL_USER1 (b : Blk) : Fld := ⟨CNT_SEL b, 44, 1, .rw, .none⟩
def CNT_SEL_CLR1 (b : Blk) : Fld := ⟨CNT_SEL b, 45, 1, .wo, .none⟩
def CNT_SEL_DOMAIN1 (b : Blk) : Fld := ⟨CNT_SEL b, 47, 10, .rw, .none⟩
def CNT_SEL_flds (b : Blk) : List Fld :=
  [CNT_SEL_EVENT0 b, CNT_SEL_EN0 b, CNT_SEL_EDGE0 b, CNT_SEL_USER0 b, CNT_SEL_CLR0 b, CNT_SEL_DOMAIN0 b, CNT_SEL_EVENT1 b, CNT_SEL_EN1 b, CNT_SEL_EDGE1 b, CNT_SEL_USER1 b, CNT_SEL_CLR1 b, CNT_SEL_DOMAIN1 b]

/-- Table 2-4: the registers every page holds. -/
def commonRegs (b : Blk) : List RegD :=
  [ ⟨PGID b, [PGID_TYPE b, PGID_INST b, PGID_LAYOUT b]⟩,
    ⟨PGCAP b, [PGCAP_NFLT b, PGCAP_SNAP b, PGCAP_SHADOW b, PGCAP_LOCKABLE b, PGCAP_RULE b, PGCAP_BLKCAP b]⟩,
    ⟨PGSTAT b, [PGSTAT_FLT_PEND b, PGSTAT_SNAP_VALID b, PGSTAT_BUSY b, PGSTAT_AVAIL b, PGSTAT_CMT_ERR b, PGSTAT_CMT_CODE b]⟩,
    ⟨PGCTL b, [PGCTL_ENABLE b, PGCTL_BRST b, PGCTL_COMMIT b, PGCTL_FORCE b, PGCTL_DISCARD b]⟩,
    ⟨PGEPOCH b, [PGEPOCH_SEQ b, PGEPOCH_APPLIED b, PGEPOCH_PEND b]⟩,
    ⟨PGLOCK b, [PGLOCK_LOCKED b]⟩,
    ⟨FLT_STATUS b, [FLT_STATUS_STATUS b]⟩,
    ⟨FLT_MASK b, [FLT_MASK_MASK b]⟩,
    ⟨FLT_SEV b, [FLT_SEV_SEV b]⟩,
    ⟨FLT_INJECT b, [FLT_INJECT_SOURCE b, FLT_INJECT_SUB b, FLT_INJECT_ARM b, FLT_INJECT_CONT b]⟩,
    ⟨FLT_FIRST b, [FLT_FIRST_SOURCE b, FLT_FIRST_SEV b, FLT_FIRST_ESC b, FLT_FIRST_TS b, FLT_FIRST_VALID b]⟩,
    ⟨FLT_COUNT b, [FLT_COUNT_EVENTS b, FLT_COUNT_ESCALATIONS b, FLT_COUNT_CLR b]⟩,
    ⟨CNT b, [CNT_COUNT b, CNT_SAT b]⟩ ]

def regs_dev : List RegD :=
  [⟨DEV_ID, [DEV_ID_PART, DEV_ID_REV, DEV_ID_GRADE]⟩,
   ⟨DEV_SERIAL, [DEV_SERIAL_SERIAL]⟩,
   ⟨DEV_FABRIC, [DEV_FABRIC_DEVID, DEV_FABRIC_FABRIC_EN]⟩,
   ⟨DEV_RULE_EPOCH, [DEV_RULE_EPOCH_EPOCH, DEV_RULE_EPOCH_OLDEST, DEV_RULE_EPOCH_DRAINED]⟩,
   ⟨DEV_CFG_LOCK, [DEV_CFG_LOCK_LOCK, DEV_CFG_LOCK_ALL]⟩,
   ⟨DEV_READY, [DEV_READY_FABRIC_READY, DEV_READY_FW_RUN, DEV_READY_FUSES_OK, DEV_READY_LARDER_READY, DEV_READY_PROOF_DONE, DEV_READY_SDS_CAL]⟩,
   ⟨DEV_RST, [DEV_RST_SCOPE, DEV_RST_TARGET, DEV_RST_KEY]⟩,
   ⟨DEV_SCRATCH, [DEV_SCRATCH_DATA]⟩]
def regs_ckr : List RegD :=
  [⟨CKR_STAT, [CKR_STAT_LEVAIN_LOCK, CKR_STAT_REFCLK_OK, CKR_STAT_QUIESCE, CKR_STAT_DOMAIN_RST, CKR_STAT_PORT_RST, CKR_STAT_SLICE_RST]⟩,
   ⟨CKR_RSTLOG, [CKR_RSTLOG_SCOPE, CKR_RSTLOG_TRIGGER, CKR_RSTLOG_TARGET, CKR_RSTLOG_PATH, CKR_RSTLOG_ESCALATED, CKR_RSTLOG_QUIESCE_T, CKR_RSTLOG_ABANDONED]⟩,
   ⟨CKR_RSTCFG, [CKR_RSTCFG_QUIESCE_TO, CKR_RSTCFG_RECALL]⟩,
   ⟨CKR_GPIO, [CKR_GPIO_OUT, CKR_GPIO_OE]⟩,
   ⟨CKR_INSTAT0, [CKR_INSTAT0_PRSNT, CKR_INSTAT0_PERST_IN, CKR_INSTAT0_GPIO]⟩,
   ⟨CKR_INSTAT1, [CKR_INSTAT1_PWRFAIL, CKR_INSTAT1_SNAP_IN, CKR_INSTAT1_WARM_RST]⟩,
   ⟨CKR_CHAT0, [CKR_CHAT0_FLAG]⟩,
   ⟨CKR_CHAT1, [CKR_CHAT1_FLAG]⟩,
   ⟨CKR_INCFG, [CKR_INCFG_DEB, CKR_INCFG_CH_MAX, CKR_INCFG_CH_WIN, CKR_INCFG_EDGE]⟩]
def regs_tmb : List RegD :=
  [⟨TMB_CFG, [TMB_CFG_ROLE, TMB_CFG_PARENT, TMB_CFG_BACKUP, TMB_CFG_BKUP_V, TMB_CFG_PTM_PORT, TMB_CFG_STEP_THR]⟩,
   ⟨TMB_LOCAL, [TMB_LOCAL_TICKS]⟩,
   ⟨TMB_TIME, [TMB_TIME_TICKS]⟩,
   ⟨TMB_SET, [TMB_SET_TICKS]⟩,
   ⟨TMB_RATE, [TMB_RATE_PPB]⟩,
   ⟨TMB_STAT, [TMB_STAT_LOCKED, TMB_STAT_HOLDOVER, TMB_STAT_LINK, TMB_STAT_THETA]⟩]
def regs_prf : List RegD :=
  [⟨PRF_CFG0, [PRF_CFG0_ETA, PRF_CFG0_VMIN, PRF_CFG0_VLOW, PRF_CFG0_DVMAX]⟩,
   ⟨PRF_CFG1, [PRF_CFG1_PHOLD, PRF_CFG1_TDET, PRF_CFG1_TGPF, PRF_CFG1_BFLUSH, PRF_CFG1_PERIOD]⟩,
   ⟨PRF_CFG2, [PRF_CFG2_RSNS, PRF_CFG2_TLOAD, PRF_CFG2_SLICE_MAX]⟩,
   ⟨PRF_CMD, [PRF_CMD_MEASURE]⟩,
   ⟨PRF_RESULT, [PRF_RESULT_CAP, PRF_RESULT_VALID, PRF_RESULT_VSTART, PRF_RESULT_ENERGY]⟩,
   ⟨PRF_ALLOW, [PRF_ALLOW_DMAX, PRF_ALLOW_GRANTED, PRF_ALLOW_GATED, PRF_ALLOW_TEST]⟩,
   ⟨PRF_STAT, [PRF_STAT_STATE, PRF_STAT_HU_OK, PRF_STAT_PWRFAIL, PRF_STAT_HELD]⟩,
   ⟨PRF_LOG, [PRF_LOG_TRIGGER, PRF_LOG_FLUSH_US, PRF_LOG_GPF_US, PRF_LOG_GPF_MISS, PRF_LOG_WR_FAIL, PRF_LOG_VALID]⟩]
def regs_sec : List RegD :=
  [⟨SEC_STAT, [SEC_STAT_BOOT, SEC_STAT_BANK, SEC_STAT_FALLBACK, SEC_STAT_CUSTKEY, SEC_STAT_DBG, SEC_STAT_LOCKBOOT, SEC_STAT_ARC, SEC_STAT_KREV, SEC_STAT_TRNG_OK]⟩,
   ⟨SEC_CMD, [SEC_CMD_OP, SEC_CMD_ARG]⟩,
   ⟨SEC_RESULT, [SEC_RESULT_BUSY, SEC_RESULT_DONE, SEC_RESULT_CODE, SEC_RESULT_DETAIL]⟩,
   ⟨SEC_WIN_CTL, [SEC_WIN_CTL_OFFSET, SEC_WIN_CTL_LEN]⟩,
   ⟨SEC_BUNDLE, [SEC_BUNDLE_SEQ, SEC_BUNDLE_RECORDS]⟩,
   ⟨SEC_RELAY, [SEC_RELAY_OUT_V, SEC_RELAY_LINK, SEC_RELAY_OUTLEN]⟩,
   ⟨SEC_WIN, [SEC_WIN_DATA]⟩,
   ⟨SEC_OUT, [SEC_OUT_DATA]⟩]
def regs_lck : List RegD :=
  [⟨LCK_STAT, [LCK_STAT_HELD, LCK_STAT_BROKEN, LCK_STAT_CAUSE, LCK_STAT_PATH, LCK_STAT_TAG, LCK_STAT_REMAIN]⟩,
   ⟨LCK_CMD, [LCK_CMD_OP, LCK_CMD_TAG, LCK_CMD_LEASE]⟩]
def regs_mgt : List RegD :=
  [⟨MGT_FW_VER, [MGT_FW_VER_MINOR, MGT_FW_VER_MAJOR, MGT_FW_VER_SVN, MGT_FW_VER_BANK]⟩,
   ⟨MGT_HEARTBEAT, [MGT_HEARTBEAT_COUNT]⟩,
   ⟨MGT_ERRLOG, [MGT_ERRLOG_OFFSET, MGT_ERRLOG_WRITE, MGT_ERRLOG_PATH, MGT_ERRLOG_CAUSE, MGT_ERRLOG_VALID]⟩,
   ⟨MGT_IRQ_CTL, [MGT_IRQ_CTL_MASTER_EN]⟩,
   ⟨MGT_MBOX_CTL, [MGT_MBOX_CTL_GO, MGT_MBOX_CTL_BUSY, MGT_MBOX_CTL_DONE, MGT_MBOX_CTL_STATUS, MGT_MBOX_CTL_OPCODE, MGT_MBOX_CTL_LEN]⟩,
   ⟨MGT_MBOX_BUF, [MGT_MBOX_BUF_DATA]⟩]
def regs_fag : List RegD :=
  [⟨FAG_CFG, [FAG_CFG_ALERT_MIN, FAG_CFG_ALERT_EN]⟩,
   ⟨FAG_STAT, [FAG_STAT_HALTED, FAG_STAT_ALERT, FAG_STAT_FATAL, FAG_STAT_QUAR, FAG_STAT_QDOM]⟩,
   ⟨FAG_HALTLOG, [FAG_HALTLOG_PAGE, FAG_HALTLOG_SOURCE, FAG_HALTLOG_CAUSE, FAG_HALTLOG_TS, FAG_HALTLOG_VALID]⟩,
   ⟨FAG_PEND, [FAG_PEND_PEND]⟩,
   ⟨FAG_LVL_SEL, [FAG_LVL_SEL_PAGE]⟩,
   ⟨FAG_LVL, [FAG_LVL_LEVEL]⟩]
def regs_ccl : List RegD :=
  [⟨CCL_CFG, [CCL_CFG_EN, CCL_CFG_LOC, CCL_CFG_INTERVAL]⟩,
   ⟨CCL_BASE, [CCL_BASE_ADDR]⟩,
   ⟨CCL_STAT, [CCL_STAT_SEQ, CCL_STAT_BUF, CCL_STAT_SKIPPED]⟩]
def regs_crb : List RegD :=
  [⟨CRB_CFG, [CRB_CFG_SEV_MIN, CRB_CFG_EN_SW, CRB_CFG_EN_FAULT, CRB_CFG_EN_SNAPIN, CRB_CFG_EN_TIME, CRB_CFG_EN_TLM, CRB_CFG_FABRIC, CRB_CFG_OVERWRITE, CRB_CFG_OUT_EN, CRB_CFG_PULSE]⟩,
   ⟨CRB_CMD, [CRB_CMD_FIRE, CRB_CMD_CLRALL]⟩,
   ⟨CRB_MATCH, [CRB_MATCH_TICKS]⟩,
   ⟨CRB_LOG0, [CRB_LOG0_TICKS]⟩,
   ⟨CRB_LOG1, [CRB_LOG1_CAUSE, CRB_LOG1_ORIGIN, CRB_LOG1_ID, CRB_LOG1_LATE, CRB_LOG1_KEPT, CRB_LOG1_DROPPED, CRB_LOG1_LATE_BY]⟩]
def regs_tlm : List RegD :=
  [⟨TLM_CFG, [TLM_CFG_FLT_EN, TLM_CFG_FLT_MIN, TLM_CFG_FLT_RING]⟩,
   ⟨TLM_SEL, [TLM_SEL_RING]⟩,
   ⟨TLM_RCFG0, [TLM_RCFG0_BASE]⟩,
   ⟨TLM_RCFG1, [TLM_RCFG1_EN, TLM_RCFG1_LOC, TLM_RCFG1_SIZE, TLM_RCFG1_CT, TLM_RCFG1_LEVEL, TLM_RCFG1_CRUMB]⟩,
   ⟨TLM_RSTAT, [TLM_RSTAT_HEAD, TLM_RSTAT_TAIL, TLM_RSTAT_ERR, TLM_RSTAT_GAP, TLM_RSTAT_SEQ]⟩,
   ⟨TLM_RHEAD, [TLM_RHEAD_HEAD]⟩,
   ⟨TLM_DROP, [TLM_DROP_PENDING, TLM_DROP_TOTAL]⟩,
   ⟨TLM_POP, [TLM_POP_WORD]⟩,
   ⟨TLM_STAT, [TLM_STAT_NORING]⟩]
def regs_tbl : List RegD :=
  [⟨TBL_SEL, [TBL_SEL_TABLE, TBL_SEL_INST, TBL_SEL_INDEX, TBL_SEL_VIEW]⟩,
   ⟨TBL_DATA, [TBL_DATA_DATA]⟩,
   ⟨TBL_CMD, [TBL_CMD_OP, TBL_CMD_INC]⟩,
   ⟨TBL_STAT, [TBL_STAT_BUSY, TBL_STAT_OVR, TBL_STAT_ERR, TBL_STAT_WORDS]⟩]
def regs_prt : List RegD :=
  [⟨PRT_CFG, [PRT_CFG_ROLE, PRT_CFG_CACHE_EN, PRT_CFG_FLIT68_EN, PRT_CFG_LOPT_EN, PRT_CFG_PCIE_OK, PRT_CFG_IDE_REQ, PRT_CFG_MLD_EN, PRT_CFG_MEM_EN]⟩,
   ⟨PRT_STAT, [PRT_STAT_LINK_UP, PRT_STAT_DL_ACTIVE, PRT_STAT_IO, PRT_STAT_MEM, PRT_STAT_CACHE, PRT_STAT_FLIT, PRT_STAT_MLD, PRT_STAT_NUM_LD, PRT_STAT_IDE_ACT, PRT_STAT_IN_RESET, PRT_STAT_PERST_IN, PRT_STAT_PCIE_ONLY]⟩,
   ⟨PRT_LINKCTL, [PRT_LINKCTL_HOT_RESET, PRT_LINKCTL_RETRAIN, PRT_LINKCTL_DISABLE]⟩,
   ⟨PRT_PERST, [PRT_PERST_OUT_EN, PRT_PERST_OUT_PIN, PRT_PERST_SLOT_EN, PRT_PERST_SLOT, PRT_PERST_ASSERT, PRT_PERST_IN_EN, PRT_PERST_IN_PIN, PRT_PERST_DELAY]⟩,
   ⟨PRT_CPL_TO, [PRT_CPL_TO_TIMEOUT]⟩,
   ⟨PRT_IDE, [PRT_IDE_AGG, PRT_IDE_STREAM_ID, PRT_IDE_SECURE, PRT_IDE_KEY_SLOT]⟩,
   ⟨PRT_GPF, [PRT_GPF_PH1_DONE, PRT_GPF_PH2_DONE, PRT_GPF_FAIL]⟩,
   ⟨PRT_DROP, [PRT_DROP_FLUSHED, PRT_DROP_MALFORMED, PRT_DROP_LATE]⟩]
def regs_sds : List RegD :=
  [⟨SDS_MODE, [SDS_MODE_MODE, SDS_MODE_FORM, SDS_MODE_MAXRATE, SDS_MODE_POL_AUTO, SDS_MODE_REV_AUTO, SDS_MODE_CXL_DEGRADE, SDS_MODE_EQ_FAST]⟩,
   ⟨SDS_STAT, [SDS_STAT_STATE_A, SDS_STAT_STATE_B, SDS_STAT_RATE_A, SDS_STAT_RATE_B, SDS_STAT_WIDTH_A, SDS_STAT_WIDTH_B, SDS_STAT_SPARE_IN_USE, SDS_STAT_PLL_LOCK]⟩,
   ⟨SDS_LANE, [SDS_LANE_PRESENT, SDS_LANE_LOCK, SDS_LANE_POL_INV, SDS_LANE_LOGICAL, SDS_LANE_SPARE, SDS_LANE_PSTATE, SDS_LANE_EYE, SDS_LANE_EYE_W]⟩,
   ⟨SDS_EQ_CACHE, [SDS_EQ_CACHE_P32, SDS_EQ_CACHE_Q64, SDS_EQ_CACHE_Q128, SDS_EQ_CACHE_VALID32, SDS_EQ_CACHE_VALID64, SDS_EQ_CACHE_VALID128, SDS_EQ_CACHE_CM2, SDS_EQ_CACHE_CM1, SDS_EQ_CACHE_CP1, SDS_EQ_CACHE_CP2, SDS_EQ_CACHE_DVALID]⟩,
   ⟨SDS_HEALTH_CFG, [SDS_HEALTH_CFG_WINDOW, SDS_HEALTH_CFG_ERR_THR, SDS_HEALTH_CFG_SYNC_THR, SDS_HEALTH_CFG_MARGIN_THR]⟩,
   ⟨SDS_HEALTH, [SDS_HEALTH_CORR, SDS_HEALTH_SYNC, SDS_HEALTH_DEGRADED, SDS_HEALTH_FAILED]⟩,
   ⟨SDS_MARGIN_CTL, [SDS_MARGIN_CTL_LANE, SDS_MARGIN_CTL_TYPE, SDS_MARGIN_CTL_DIR, SDS_MARGIN_CTL_STEPS, SDS_MARGIN_CTL_ERR_LIMIT, SDS_MARGIN_CTL_DWELL, SDS_MARGIN_CTL_GO, SDS_MARGIN_CTL_STOP]⟩,
   ⟨SDS_MARGIN_STAT, [SDS_MARGIN_STAT_BUSY, SDS_MARGIN_STAT_RESULT, SDS_MARGIN_STAT_ERRS]⟩,
   ⟨SDS_PWR, [SDS_PWR_LANE_OFF, SDS_PWR_L1_EN, SDS_PWR_L0P_EN]⟩]
def regs_drl : List RegD :=
  [⟨DRL_ATTACH, [DRL_ATTACH_OCTET, DRL_ATTACH_VALID, DRL_ATTACH_CONFLICT]⟩,
   ⟨DRL_CFG, [DRL_CFG_NVC, DRL_CFG_ENC_REQ, DRL_CFG_SEG]⟩,
   ⟨DRL_VCBUF0, [DRL_VCBUF0_VC0, DRL_VCBUF0_VC1, DRL_VCBUF0_VC2, DRL_VCBUF0_VC3]⟩,
   ⟨DRL_VCBUF1, [DRL_VCBUF1_VC4, DRL_VCBUF1_VC5, DRL_VCBUF1_VC6, DRL_VCBUF1_VC7]⟩,
   ⟨DRL_VCMAP, [DRL_VCMAP_MAP]⟩,
   ⟨DRL_TIMERS, [DRL_TIMERS_REPLAY_TO, DRL_TIMERS_REPLAY_LIMIT, DRL_TIMERS_ACK_PKT, DRL_TIMERS_ACK_NS, DRL_TIMERS_LIVE_TO]⟩,
   ⟨DRL_STAT, [DRL_STAT_STATE, DRL_STAT_WIDTH, DRL_STAT_PEER_DEVID, DRL_STAT_PEER_OCTET, DRL_STAT_ENC]⟩,
   ⟨DRL_SEQ, [DRL_SEQ_TX_NEXT, DRL_SEQ_TX_OLDEST, DRL_SEQ_RX_EXPECT, DRL_SEQ_OUTSTANDING]⟩,
   ⟨DRL_TIME, [DRL_TIME_DELAY, DRL_TIME_ASYM, DRL_TIME_SYNC_EN]⟩,
   ⟨DRL_SEC, [DRL_SEC_ACT_SLOT, DRL_SEC_VALID0, DRL_SEC_VALID1]⟩,
   ⟨DRL_DROP, [DRL_DROP_UNACKED, DRL_DROP_FLUSHED, DRL_DROP_NOROUTE, DRL_DROP_TTL]⟩]
def regs_slc : List RegD :=
  [⟨SLC_CFG, [SLC_CFG_EXPRESS_EN, SLC_CFG_STALL_TO]⟩,
   ⟨SLC_DROP, [SLC_DROP_TAILBAD, SLC_DROP_STALLED, SLC_DROP_SIDEBAND, SLC_DROP_POISONED]⟩]
def regs_ovn : List RegD :=
  [⟨OVN_CFG, [OVN_CFG_SEALED, OVN_CFG_INT_MIN, OVN_CFG_INT_ALPHA]⟩,
   ⟨OVN_PORTCFG, [OVN_PORTCFG_MIN, OVN_PORTCFG_ALPHA]⟩,
   ⟨OVN_PORTOCC, [OVN_PORTOCC_OCC, OVN_PORTOCC_HELD]⟩,
   ⟨OVN_POOL, [OVN_POOL_FREE, OVN_POOL_SHARED_FREE, OVN_POOL_RESERVED, OVN_POOL_RETIRED]⟩,
   ⟨OVN_RETIRE, [OVN_RETIRE_MAP, OVN_RETIRE_BANK, OVN_RETIRE_RETIRE, OVN_RETIRE_BUSY]⟩,
   ⟨OVN_ECC, [OVN_ECC_CE_THR, OVN_ECC_WINDOW, OVN_ECC_AUTO]⟩]
def regs_arb : List RegD :=
  [⟨ARB_CFG, [ARB_CFG_N, ARB_CFG_SLOTS, ARB_CFG_TCSTRICT, ARB_CFG_SEALED]⟩,
   ⟨ARB_BANK, [ARB_BANK_PTR, ARB_BANK_GCNT, ARB_BANK_RR, ARB_BANK_BUSY, ARB_BANK_OWNER]⟩,
   ⟨ARB_REQ, [ARB_REQ_VALID, ARB_REQ_BANK, ARB_REQ_CELL, ARB_REQ_TC, ARB_REQ_AGE, ARB_REQ_DOMAIN]⟩]
def regs_dir : List RegD :=
  [⟨DIR_CFG, [DIR_CFG_GRANT_E, DIR_CFG_SNOOP_TO, DIR_CFG_HOME_TC]⟩,
   ⟨DIR_AGENT, [DIR_AGENT_AGENT, DIR_AGENT_V, DIR_AGENT_OWN_OK]⟩,
   ⟨DIR_STAT, [DIR_STAT_ENTRIES, DIR_STAT_BUSY, DIR_STAT_COARSE, DIR_STAT_RESEAL, DIR_STAT_STALE_WB]⟩,
   ⟨DIR_PEEK_CTL, [DIR_PEEK_CTL_LINE, DIR_PEEK_CTL_TK, DIR_PEEK_CTL_GO, DIR_PEEK_CTL_BUSY]⟩,
   ⟨DIR_PEEK0, [DIR_PEEK0_STATE, DIR_PEEK0_SCC_V, DIR_PEEK0_OWNER_SCC, DIR_PEEK0_OWNER, DIR_PEEK0_MODE, DIR_PEEK0_BUSY, DIR_PEEK0_DOMAIN, DIR_PEEK0_P, DIR_PEEK0_HIT, DIR_PEEK0_WAY, DIR_PEEK0_HOME]⟩,
   ⟨DIR_PEEK1, [DIR_PEEK1_SHARERS]⟩,
   ⟨DIR_PART, [DIR_PART_DOMAIN, DIR_PART_V, DIR_PART_WAYS]⟩,
   ⟨DIR_AGDEV, [DIR_AGDEV_MAP]⟩,
   ⟨DIR_DEATH, [DIR_DEATH_AGENT, DIR_DEATH_DOMAIN, DIR_DEATH_CAUSE, DIR_DEATH_FROM, DIR_DEATH_QSCAN, DIR_DEATH_VALID]⟩,
   ⟨DIR_UELOG, [DIR_UELOG_SET, DIR_UELOG_WAY, DIR_UELOG_KIND, DIR_UELOG_SUSPECT, DIR_UELOG_VALID]⟩,
   ⟨DIR_SUSPECT, [DIR_SUSPECT_STATE]⟩]
def regs_scc : List RegD :=
  [⟨SCC_CFG, [SCC_CFG_RDALLOC, SCC_CFG_WRALLOC, SCC_CFG_WBALLOC]⟩,
   ⟨SCC_PART, [SCC_PART_DOMAIN, SCC_PART_V, SCC_PART_WAYS]⟩,
   ⟨SCC_STAT, [SCC_STAT_VALID, SCC_STAT_DIRTY, SCC_STAT_PDIRTY]⟩,
   ⟨SCC_PERS, [SCC_PERS_CREDIT, SCC_PERS_GATED]⟩,
   ⟨SCC_FLUSH, [SCC_FLUSH_CLEAN, SCC_FLUSH_BUSY]⟩]
def regs_try : List RegD :=
  [⟨TRY_CFG, [TRY_CFG_CMB_TO, TRY_CFG_CMB_EN]⟩,
   ⟨TRY_PORT, [TRY_PORT_USED, TRY_PORT_ORDERED, TRY_PORT_PHELD, TRY_PORT_HOLDQ]⟩,
   ⟨TRY_CMB, [TRY_CMB_USED, TRY_CMB_PHELD, TRY_CMB_TMO, TRY_CMB_ORDERED, TRY_CMB_REPLACE]⟩,
   ⟨TRY_IDX, [TRY_IDX_USED]⟩,
   ⟨TRY_PERS, [TRY_PERS_CREDIT, TRY_PERS_GATED]⟩,
   ⟨TRY_DRAIN, [TRY_DRAIN_BUSY]⟩,
   ⟨TRY_LOSTLOG, [TRY_LOSTLOG_LINE, TRY_LOSTLOG_TK, TRY_LOSTLOG_VALID]⟩]
def regs_dec : List RegD :=
  [⟨DEC_EXPORT, [DEC_EXPORT_OWNER, DEC_EXPORT_V, DEC_EXPORT_ANY]⟩,
   ⟨DEC_LDEXPORT, [DEC_LDEXPORT_OWNER, DEC_LDEXPORT_V, DEC_LDEXPORT_ANY]⟩,
   ⟨DEC_MIRLOG, [DEC_MIRLOG_VCS, DEC_MIRLOG_ENTRY, DEC_MIRLOG_MEMBER, DEC_MIRLOG_CAUSE, DEC_MIRLOG_VALID]⟩,
   ⟨DEC_STAT, [DEC_STAT_MISSES, DEC_STAT_FENCED, DEC_STAT_RECALL]⟩,
   ⟨DEC_RECALL, [DEC_RECALL_LINES]⟩]
def regs_tag : List RegD :=
  [⟨TAG_STAT, [TAG_STAT_WORDS, TAG_STAT_MISSQ]⟩,
   ⟨TAG_CNT, [TAG_CNT_HITS, TAG_CNT_MISSES]⟩]
def regs_egs : List RegD :=
  [⟨EGS_CFG, [EGS_CFG_MODE, EGS_CFG_OVH, EGS_CFG_STRICT, EGS_CFG_REFILL]⟩,
   ⟨EGS_QUANTUM, [EGS_QUANTUM_QUANTUM]⟩,
   ⟨EGS_SAMPLE, [EGS_SAMPLE_INTERVAL, EGS_SAMPLE_RING, EGS_SAMPLE_RING_EN]⟩,
   ⟨EGS_THR, [EGS_THR_DELAY_THR, EGS_THR_DEPTH_THR]⟩,
   ⟨EGS_TCSTAT, [EGS_TCSTAT_CELLS, EGS_TCSTAT_MAXDLY]⟩]
def regs_pol : List RegD :=
  [⟨POL_CFG, [POL_CFG_UNMATCHED]⟩,
   ⟨POL_TCMAP, [POL_TCMAP_MAP]⟩,
   ⟨POL_PRECOL, [POL_PRECOL_PRE]⟩,
   ⟨POL_STAT0, [POL_STAT0_GREEN, POL_STAT0_YELLOW]⟩,
   ⟨POL_STAT1, [POL_STAT1_RED, POL_STAT1_DISCARDED]⟩]
def regs_gte : List RegD :=
  [⟨GTE_CFG, [GTE_CFG_GATE_EN, GTE_CFG_SERVICE, GTE_CFG_LEN, GTE_CFG_FIT_ACT]⟩,
   ⟨GTE_CYCLE, [GTE_CYCLE_FRAC, GTE_CYCLE_NS]⟩,
   ⟨GTE_BASE0, [GTE_BASE0_FRAC, GTE_BASE0_NS]⟩,
   ⟨GTE_BASE1, [GTE_BASE1_SEC]⟩,
   ⟨GTE_MAXLEN, [GTE_MAXLEN_MAXLEN]⟩,
   ⟨GTE_STAT, [GTE_STAT_ENTRY, GTE_STAT_GATES, GTE_STAT_OVERSIZE, GTE_STAT_HELD]⟩,
   ⟨GTE_LASTTS0, [GTE_LASTTS0_TS]⟩,
   ⟨GTE_LASTTS1, [GTE_LASTTS1_SEC]⟩]
def regs_acu : List RegD :=
  [⟨ACU_CFG, [ACU_CFG_EN]⟩,
   ⟨ACU_CMTERR, [ACU_CMTERR_REGION_A, ACU_CMTERR_REGION_B, ACU_CMTERR_CODE]⟩,
   ⟨ACU_VIOLOG0, [ACU_VIOLOG0_LINE, ACU_VIOLOG0_KIND, ACU_VIOLOG0_CAUSE, ACU_VIOLOG0_REQ, ACU_VIOLOG0_VALID]⟩,
   ⟨ACU_VIOLOG1, [ACU_VIOLOG1_QUEUE, ACU_VIOLOG1_DOMAIN, ACU_VIOLOG1_TAGCOL]⟩,
   ⟨ACU_STAT, [ACU_STAT_REFUSED, ACU_STAT_LATE]⟩]
def regs_ldr : List RegD :=
  [⟨LDR_CHSTAT, [LDR_CHSTAT_STATE, LDR_CHSTAT_MRDIMM, LDR_CHSTAT_RANKS, LDR_CHSTAT_CAP, LDR_CHSTAT_RATE, LDR_CHSTAT_TEMP, LDR_CHSTAT_TREF2X, LDR_CHSTAT_CACHED]⟩,
   ⟨LDR_SCRUB, [LDR_SCRUB_EN, LDR_SCRUB_PERIOD, LDR_SCRUB_PASSES]⟩,
   ⟨LDR_ECC, [LDR_ECC_ROW_CE_THR, LDR_ECC_AUTO_PPR]⟩,
   ⟨LDR_ERRLOG, [LDR_ERRLOG_LINE, LDR_ERRLOG_KIND, LDR_ERRLOG_VALID]⟩,
   ⟨LDR_ERRCNT, [LDR_ERRCNT_CE, LDR_ERRCNT_UE]⟩,
   ⟨LDR_PPR, [LDR_PPR_RANK, LDR_PPR_BG, LDR_PPR_BANK, LDR_PPR_ROW, LDR_PPR_HARD, LDR_PPR_GO, LDR_PPR_BUSY, LDR_PPR_RESULT]⟩,
   ⟨LDR_THERM, [LDR_THERM_X2_C, LDR_THERM_HOT_C]⟩,
   ⟨LDR_CARVE, [LDR_CARVE_LD_LIMIT, LDR_CARVE_TAG_EN, LDR_CARVE_CTX_EN, LDR_CARVE_TLM_GIB, LDR_CARVE_WAYS]⟩,
   ⟨LDR_LD, [LDR_LD_BASE, LDR_LD_SIZE, LDR_LD_V]⟩]
def regs_dmv : List RegD :=
  [⟨DMV_ESTAT, [DMV_ESTAT_QUEUE, DMV_ESTAT_BUSY, DMV_ESTAT_SHARE]⟩,
   ⟨DMV_MLCFG, [DMV_MLCFG_HOLD_GRAN, DMV_MLCFG_HOLD_NS, DMV_MLCFG_PASSES, DMV_MLCFG_TRIES]⟩,
   ⟨DMV_POOL, [DMV_POOL_ALLOC, DMV_POOL_ENABLED, DMV_POOL_DBDROP]⟩,
   ⟨DMV_SHARE, [DMV_SHARE_DOMAIN, DMV_SHARE_KIND, DMV_SHARE_SLOT]⟩,
   ⟨DMV_MLSTAT, [DMV_MLSTAT_PHASE, DMV_MLSTAT_VCS, DMV_MLSTAT_ENTRY, DMV_MLSTAT_DIRTY, DMV_MLSTAT_PASS, DMV_MLSTAT_TRY]⟩,
   ⟨DMV_EPCFG, [DMV_EPCFG_QBASE, DMV_EPCFG_PF_Q, DMV_EPCFG_VF_Q, DMV_EPCFG_TOTALVFS, DMV_EPCFG_EN]⟩]
def regs_spu : List RegD :=
  [⟨SPU_CFG, [SPU_CFG_ILIM, SPU_CFG_PLIM, SPU_CFG_INS_DELAY, SPU_CFG_RETRIES, SPU_CFG_RSENSE]⟩,
   ⟨SPU_TIMERS, [SPU_TIMERS_RAMP_TO, SPU_TIMERS_OC_T, SPU_TIMERS_RETRY_T]⟩,
   ⟨SPU_VIN, [SPU_VIN_UV, SPU_VIN_OV]⟩,
   ⟨SPU_CMD, [SPU_CMD_OP]⟩,
   ⟨SPU_STAT, [SPU_STAT_STATE, SPU_STAT_PRSNT, SPU_STAT_PG, SPU_STAT_CMD_ON, SPU_STAT_RETRY_CNT, SPU_STAT_FET_FAIL, SPU_STAT_EN_N, SPU_STAT_FAULT, SPU_STAT_COOL_REM]⟩,
   ⟨SPU_MEAS, [SPU_MEAS_VIN, SPU_MEAS_VOUT, SPU_MEAS_IOUT]⟩]
def regs_fn : List RegD :=
  [⟨DRAIN, [DRAIN_DONE]⟩,
   ⟨FN_ID, [FN_ID_VCS, FN_ID_FN, FN_ID_QBASE, FN_ID_NQ]⟩,
   ⟨FN_QSEL, [FN_QSEL_QUEUE]⟩,
   ⟨FN_QCTX, [FN_QCTX_DATA]⟩,
   ⟨FN_QCMD, [FN_QCMD_OP]⟩,
   ⟨FN_QSTAT, [FN_QSTAT_BUSY, FN_QSTAT_RESULT]⟩,
   ⟨FN_CNT, [FN_CNT_COUNT, FN_CNT_PAGE, FN_CNT_CNT, FN_CNT_V]⟩]

/-- The block-specific registers of a page type, in ascending offset. -/
def Blk.own : Blk → List RegD
  | .dev => regs_dev
  | .ckr => regs_ckr
  | .tmb => regs_tmb
  | .prf => regs_prf
  | .sec => regs_sec
  | .lck => regs_lck
  | .mgt => regs_mgt
  | .fag => regs_fag
  | .ccl => regs_ccl
  | .crb => regs_crb
  | .tlm => regs_tlm
  | .tbl => regs_tbl
  | .prt => regs_prt
  | .sds => regs_sds
  | .drl => regs_drl
  | .slc => regs_slc
  | .ovn => regs_ovn
  | .arb => regs_arb
  | .dir => regs_dir
  | .scc => regs_scc
  | .tray => regs_try
  | .dec => regs_dec
  | .tag => regs_tag
  | .egs => regs_egs
  | .pol => regs_pol
  | .gte => regs_gte
  | .acu => regs_acu
  | .ldr => regs_ldr
  | .dmv => regs_dmv
  | .spu => regs_spu
  | .fn => regs_fn

/-- Every register a page of the block holds (R48). -/
def Blk.regs (b : Blk) : List RegD :=
  match b with
  | .fn => regs_fn
  | _ => commonRegs b ++ b.own ++ [⟨CNT_SEL b, CNT_SEL_flds b⟩]

/-! ## Fault sources: number, default severity (0 LOG, 1 NOTIFY, 2 CONTAIN, 3 QUENCH, 4 HALT), attributable (Table 15-9) -/
def DEV_F_EPOCH_WAIT : FSrc := ⟨.dev, 0, 0, false⟩
def CKR_F_LEVAIN_UNLOCK : FSrc := ⟨.ckr, 0, 4, false⟩
def CKR_F_REFCLK_LOSS : FSrc := ⟨.ckr, 1, 4, false⟩
def CKR_F_CHATTER : FSrc := ⟨.ckr, 2, 1, false⟩
def CKR_F_QUIESCE_TO : FSrc := ⟨.ckr, 3, 1, false⟩
def CKR_F_RST_IGNORED : FSrc := ⟨.ckr, 4, 0, false⟩
def TMB_F_STEP : FSrc := ⟨.tmb, 0, 1, false⟩
def TMB_F_HOLDOVER : FSrc := ⟨.tmb, 1, 1, false⟩
def TMB_F_PTM_FAIL : FSrc := ⟨.tmb, 2, 1, false⟩
def PRF_F_MEAS_FAIL : FSrc := ⟨.prf, 0, 1, false⟩
def PRF_F_GATED : FSrc := ⟨.prf, 1, 1, false⟩
def PRF_F_LOW_BANK : FSrc := ⟨.prf, 2, 1, false⟩
def PRF_F_PWRFAIL : FSrc := ⟨.prf, 3, 1, false⟩
def PRF_F_FLUSH_INCOMPLETE : FSrc := ⟨.prf, 4, 1, false⟩
def SEC_F_BANK_FAIL : FSrc := ⟨.sec, 0, 1, false⟩
def SEC_F_BOOT_FAIL : FSrc := ⟨.sec, 1, 1, false⟩
def SEC_F_FUSE_ERR : FSrc := ⟨.sec, 2, 4, false⟩
def SEC_F_TRNG_FAIL : FSrc := ⟨.sec, 3, 1, false⟩
def SEC_F_BNDL_FAIL : FSrc := ⟨.sec, 4, 1, false⟩
def SEC_F_PEER_FAIL : FSrc := ⟨.sec, 5, 1, false⟩
def SEC_F_KEY_FAIL : FSrc := ⟨.sec, 6, 1, false⟩
def SEC_F_DBG_UNLOCKED : FSrc := ⟨.sec, 7, 1, false⟩
def LCK_F_NOT_OWNER : FSrc := ⟨.lck, 0, 0, false⟩
def LCK_F_LEASE_BROKEN : FSrc := ⟨.lck, 1, 0, false⟩
def MGT_F_BAD_ACCESS : FSrc := ⟨.mgt, 0, 0, false⟩
def MGT_F_FW_STALL : FSrc := ⟨.mgt, 1, 1, false⟩
def MGT_F_FW_RESTART : FSrc := ⟨.mgt, 2, 1, false⟩
def FAG_F_ESCALATION : FSrc := ⟨.fag, 0, 0, false⟩
def FAG_F_SEV_CAPPED : FSrc := ⟨.fag, 1, 0, false⟩
def FAG_F_PATH_PARITY : FSrc := ⟨.fag, 2, 1, false⟩
def CCL_F_SWEEP_SKIP : FSrc := ⟨.ccl, 0, 0, false⟩
def CCL_F_WRITE_FAIL : FSrc := ⟨.ccl, 1, 1, false⟩
def CCL_F_BAD_CFG : FSrc := ⟨.ccl, 2, 1, false⟩
def CRB_F_LATE : FSrc := ⟨.crb, 0, 0, false⟩
def CRB_F_DROPPED : FSrc := ⟨.crb, 1, 0, false⟩
def TLM_F_DROP : FSrc := ⟨.tlm, 0, 0, false⟩
def TLM_F_WRITE_FAIL : FSrc := ⟨.tlm, 1, 1, false⟩
def TLM_F_BAD_CFG : FSrc := ⟨.tlm, 2, 1, false⟩
def TLM_F_BAD_HEAD : FSrc := ⟨.tlm, 3, 0, false⟩
def TBL_F_OVR : FSrc := ⟨.tbl, 0, 0, false⟩
def TBL_F_UE : FSrc := ⟨.tbl, 1, 0, false⟩
def PRT_F_LINK_DOWN : FSrc := ⟨.prt, 0, 1, true⟩
def PRT_F_SURPRISE_DOWN : FSrc := ⟨.prt, 1, 1, false⟩
def PRT_F_FLIT_ERR : FSrc := ⟨.prt, 2, 0, true⟩
def PRT_F_REPLAY_EXHAUST : FSrc := ⟨.prt, 3, 0, true⟩
def PRT_F_MALFORMED : FSrc := ⟨.prt, 4, 1, true⟩
def PRT_F_CPL_TIMEOUT : FSrc := ⟨.prt, 5, 1, false⟩
def PRT_F_IDE_FAIL : FSrc := ⟨.prt, 6, 2, true⟩
def PRT_F_NEGOTIATION : FSrc := ⟨.prt, 7, 1, false⟩
def PRT_F_POISON_RX : FSrc := ⟨.prt, 8, 0, true⟩
def PRT_F_GPF_FAIL : FSrc := ⟨.prt, 9, 1, false⟩
def PRT_F_FLUSH : FSrc := ⟨.prt, 10, 0, false⟩
def SDS_F_PLL_UNLOCK : FSrc := ⟨.sds, 0, 1, false⟩
def SDS_F_CAL_FAIL : FSrc := ⟨.sds, 1, 1, false⟩
def SDS_F_TRAIN_FAIL : FSrc := ⟨.sds, 2, 1, false⟩
def SDS_F_LOCK_LOST : FSrc := ⟨.sds, 3, 0, false⟩
def SDS_F_LANE_ORDER : FSrc := ⟨.sds, 4, 1, false⟩
def SDS_F_PAIR_MISMATCH : FSrc := ⟨.sds, 5, 1, false⟩
def SDS_F_LANE_DEGRADED : FSrc := ⟨.sds, 6, 0, false⟩
def SDS_F_LANE_FAILED : FSrc := ⟨.sds, 7, 1, false⟩
def SDS_F_EQ_FALLBACK : FSrc := ⟨.sds, 8, 0, false⟩
def SDS_F_ELASTIC_ERR : FSrc := ⟨.sds, 9, 1, false⟩
def SDS_F_MARGIN_ABORT : FSrc := ⟨.sds, 10, 0, false⟩
def DRL_F_LINK_DOWN : FSrc := ⟨.drl, 0, 1, false⟩
def DRL_F_CONFIG_MISMATCH : FSrc := ⟨.drl, 1, 1, false⟩
def DRL_F_REPLAY : FSrc := ⟨.drl, 2, 0, false⟩
def DRL_F_REPLAY_EXHAUST : FSrc := ⟨.drl, 3, 1, false⟩
def DRL_F_TAIL_BAD : FSrc := ⟨.drl, 4, 0, false⟩
def DRL_F_SPARE_SWAP : FSrc := ⟨.drl, 5, 1, false⟩
def DRL_F_SPARE_FAIL : FSrc := ⟨.drl, 6, 1, false⟩
def DRL_F_LINK_SEC : FSrc := ⟨.drl, 7, 2, false⟩
def DRL_F_PROTO_ERR : FSrc := ⟨.drl, 8, 2, false⟩
def DRL_F_CREDIT_STALL : FSrc := ⟨.drl, 9, 1, false⟩
def DRL_F_NO_ROUTE : FSrc := ⟨.drl, 10, 1, false⟩
def DRL_F_TTL_DROP : FSrc := ⟨.drl, 11, 1, false⟩
def DRL_F_BLOCK_UNCORR : FSrc := ⟨.drl, 12, 0, false⟩
def SLC_F_STALL_CLOSE : FSrc := ⟨.slc, 0, 0, false⟩
def SLC_F_TAIL_BAD : FSrc := ⟨.slc, 1, 0, false⟩
def SLC_F_VOQ_FULL : FSrc := ⟨.slc, 2, 0, false⟩
def SLC_F_XBAR_PARITY : FSrc := ⟨.slc, 3, 1, false⟩
def SLC_F_BRIDGE : FSrc := ⟨.slc, 4, 1, false⟩
def OVN_F_CE : FSrc := ⟨.ovn, 0, 0, false⟩
def OVN_F_UE_DATA : FSrc := ⟨.ovn, 1, 1, false⟩
def OVN_F_UE_SIDEBAND : FSrc := ⟨.ovn, 2, 1, false⟩
def OVN_F_LIST_LOST : FSrc := ⟨.ovn, 3, 1, false⟩
def OVN_F_RETIRED : FSrc := ⟨.ovn, 4, 1, false⟩
def OVN_F_BANK_EXHAUST : FSrc := ⟨.ovn, 5, 1, false⟩
def OVN_F_FREELIST : FSrc := ⟨.ovn, 6, 2, false⟩
def ARB_F_AGE_SAT : FSrc := ⟨.arb, 0, 0, false⟩
def ARB_F_SLOT_UE : FSrc := ⟨.arb, 1, 1, false⟩
def ARB_F_REQ_PARITY : FSrc := ⟨.arb, 2, 1, false⟩
def DIR_F_CE : FSrc := ⟨.dir, 0, 0, false⟩
def DIR_F_UE : FSrc := ⟨.dir, 1, 1, false⟩
def DIR_F_SNOOP_TO : FSrc := ⟨.dir, 2, 1, true⟩
def DIR_F_AGENT_DEAD : FSrc := ⟨.dir, 3, 3, true⟩
def DIR_F_PROTO : FSrc := ⟨.dir, 4, 1, true⟩
def DIR_F_STALE_WB : FSrc := ⟨.dir, 5, 0, false⟩
def DIR_F_NO_AGENT : FSrc := ⟨.dir, 6, 1, true⟩
def DIR_F_RETRY_WAIT : FSrc := ⟨.dir, 7, 0, false⟩
def DIR_F_COARSE : FSrc := ⟨.dir, 8, 0, false⟩
def SCC_F_CE : FSrc := ⟨.scc, 0, 0, false⟩
def SCC_F_UE_CLEAN : FSrc := ⟨.scc, 1, 0, false⟩
def SCC_F_UE_DIRTY : FSrc := ⟨.scc, 2, 1, false⟩
def SCC_F_TAG_UE : FSrc := ⟨.scc, 3, 1, false⟩
def SCC_F_PGATED : FSrc := ⟨.scc, 4, 1, false⟩
def TRY_F_CE : FSrc := ⟨.tray, 0, 0, false⟩
def TRY_F_UE : FSrc := ⟨.tray, 1, 1, false⟩
def TRY_F_TRAY_FULL : FSrc := ⟨.tray, 2, 0, true⟩
def TRY_F_IDX_FULL : FSrc := ⟨.tray, 3, 0, false⟩
def TRY_F_PGATED : FSrc := ⟨.tray, 4, 1, false⟩
def TRY_F_LOST_WRITE : FSrc := ⟨.tray, 5, 1, false⟩
def DEC_F_DECODE_MISS : FSrc := ⟨.dec, 0, 0, true⟩
def DEC_F_MIRROR_STALE : FSrc := ⟨.dec, 1, 1, false⟩
def DEC_F_MIRROR_LOST : FSrc := ⟨.dec, 2, 1, false⟩
def DEC_F_MIRROR_RETRY : FSrc := ⟨.dec, 3, 0, false⟩
def DEC_F_FENCED : FSrc := ⟨.dec, 4, 1, false⟩
def DEC_F_REV_MISS : FSrc := ⟨.dec, 5, 1, false⟩
def DEC_F_EXPORT_VIOL : FSrc := ⟨.dec, 6, 1, true⟩
def DEC_F_TABLE_UE : FSrc := ⟨.dec, 7, 1, false⟩
def TAG_F_CE : FSrc := ⟨.tag, 0, 0, false⟩
def TAG_F_CACHE_UE : FSrc := ⟨.tag, 1, 0, false⟩
def EGS_F_TABLE_UE : FSrc := ⟨.egs, 0, 1, false⟩
def EGS_F_DELAY_THR : FSrc := ⟨.egs, 1, 0, false⟩
def EGS_F_DEPTH_THR : FSrc := ⟨.egs, 2, 0, false⟩
def POL_F_TABLE_UE : FSrc := ⟨.pol, 0, 1, false⟩
def POL_F_DISCARD : FSrc := ⟨.pol, 1, 0, true⟩
def GTE_F_LIST_UE : FSrc := ⟨.gte, 0, 1, false⟩
def GTE_F_FIT_ENTERED : FSrc := ⟨.gte, 1, 1, false⟩
def GTE_F_TIME_STEP : FSrc := ⟨.gte, 2, 1, false⟩
def GTE_F_OVERSIZE : FSrc := ⟨.gte, 3, 0, false⟩
def ACU_F_NO_REGION : FSrc := ⟨.acu, 0, 0, true⟩
def ACU_F_ATTR : FSrc := ⟨.acu, 1, 1, true⟩
def ACU_F_COLOUR : FSrc := ⟨.acu, 2, 1, true⟩
def ACU_F_DOMAIN : FSrc := ⟨.acu, 3, 1, true⟩
def ACU_F_TABLE_UE : FSrc := ⟨.acu, 4, 1, false⟩
def LDR_F_CE : FSrc := ⟨.ldr, 0, 0, false⟩
def LDR_F_UE : FSrc := ⟨.ldr, 1, 1, false⟩
def LDR_F_UE_SCRUB : FSrc := ⟨.ldr, 2, 1, false⟩
def LDR_F_UE_CARVE : FSrc := ⟨.ldr, 3, 1, false⟩
def LDR_F_PPR_FAIL : FSrc := ⟨.ldr, 4, 1, false⟩
def LDR_F_THERM_HOT : FSrc := ⟨.ldr, 5, 1, false⟩
def LDR_F_TRAIN_FAIL : FSrc := ⟨.ldr, 6, 1, false⟩
def LDR_F_CONFIG : FSrc := ⟨.ldr, 7, 1, false⟩
def LDR_F_LD_RANGE : FSrc := ⟨.ldr, 8, 0, false⟩
def LDR_F_DIE : FSrc := ⟨.ldr, 9, 2, false⟩
def LDR_F_CHAN_FAIL : FSrc := ⟨.ldr, 10, 2, false⟩
def DMV_F_DB_DROP : FSrc := ⟨.dmv, 0, 0, true⟩
def DMV_F_DB_OVERRUN : FSrc := ⟨.dmv, 1, 1, true⟩
def DMV_F_DESC_FETCH : FSrc := ⟨.dmv, 2, 1, true⟩
def DMV_F_CPL_WRITE : FSrc := ⟨.dmv, 3, 1, true⟩
def DMV_F_CTX_UE : FSrc := ⟨.dmv, 4, 2, false⟩
def DMV_F_STALE_CPL : FSrc := ⟨.dmv, 5, 0, true⟩
def DMV_F_ENGINE_UE : FSrc := ⟨.dmv, 6, 1, false⟩
def DMV_F_MOVE_END : FSrc := ⟨.dmv, 7, 1, true⟩
def SPU_F_VIN_WINDOW : FSrc := ⟨.spu, 0, 0, false⟩
def SPU_F_OV : FSrc := ⟨.spu, 1, 1, false⟩
def SPU_F_OC : FSrc := ⟨.spu, 2, 1, false⟩
def SPU_F_FAST_TRIP : FSrc := ⟨.spu, 3, 1, false⟩
def SPU_F_RAMP_FAULT : FSrc := ⟨.spu, 4, 1, false⟩
def SPU_F_FET_FAIL : FSrc := ⟨.spu, 5, 1, false⟩
def SPU_F_LATCHED : FSrc := ⟨.spu, 6, 1, false⟩
def SPU_F_PRESENCE : FSrc := ⟨.spu, 7, 0, false⟩
def SPU_F_VIN_LOW : FSrc := ⟨.spu, 8, 0, false⟩

/-- A block's fault sources in ascending number (PGCAP.NFLT is the length). -/
def Blk.faults : Blk → List FSrc
  | .dev => [DEV_F_EPOCH_WAIT]
  | .ckr => [CKR_F_LEVAIN_UNLOCK, CKR_F_REFCLK_LOSS, CKR_F_CHATTER, CKR_F_QUIESCE_TO, CKR_F_RST_IGNORED]
  | .tmb => [TMB_F_STEP, TMB_F_HOLDOVER, TMB_F_PTM_FAIL]
  | .prf => [PRF_F_MEAS_FAIL, PRF_F_GATED, PRF_F_LOW_BANK, PRF_F_PWRFAIL, PRF_F_FLUSH_INCOMPLETE]
  | .sec => [SEC_F_BANK_FAIL, SEC_F_BOOT_FAIL, SEC_F_FUSE_ERR, SEC_F_TRNG_FAIL, SEC_F_BNDL_FAIL, SEC_F_PEER_FAIL, SEC_F_KEY_FAIL, SEC_F_DBG_UNLOCKED]
  | .lck => [LCK_F_NOT_OWNER, LCK_F_LEASE_BROKEN]
  | .mgt => [MGT_F_BAD_ACCESS, MGT_F_FW_STALL, MGT_F_FW_RESTART]
  | .fag => [FAG_F_ESCALATION, FAG_F_SEV_CAPPED, FAG_F_PATH_PARITY]
  | .ccl => [CCL_F_SWEEP_SKIP, CCL_F_WRITE_FAIL, CCL_F_BAD_CFG]
  | .crb => [CRB_F_LATE, CRB_F_DROPPED]
  | .tlm => [TLM_F_DROP, TLM_F_WRITE_FAIL, TLM_F_BAD_CFG, TLM_F_BAD_HEAD]
  | .tbl => [TBL_F_OVR, TBL_F_UE]
  | .prt => [PRT_F_LINK_DOWN, PRT_F_SURPRISE_DOWN, PRT_F_FLIT_ERR, PRT_F_REPLAY_EXHAUST, PRT_F_MALFORMED, PRT_F_CPL_TIMEOUT, PRT_F_IDE_FAIL, PRT_F_NEGOTIATION, PRT_F_POISON_RX, PRT_F_GPF_FAIL, PRT_F_FLUSH]
  | .sds => [SDS_F_PLL_UNLOCK, SDS_F_CAL_FAIL, SDS_F_TRAIN_FAIL, SDS_F_LOCK_LOST, SDS_F_LANE_ORDER, SDS_F_PAIR_MISMATCH, SDS_F_LANE_DEGRADED, SDS_F_LANE_FAILED, SDS_F_EQ_FALLBACK, SDS_F_ELASTIC_ERR, SDS_F_MARGIN_ABORT]
  | .drl => [DRL_F_LINK_DOWN, DRL_F_CONFIG_MISMATCH, DRL_F_REPLAY, DRL_F_REPLAY_EXHAUST, DRL_F_TAIL_BAD, DRL_F_SPARE_SWAP, DRL_F_SPARE_FAIL, DRL_F_LINK_SEC, DRL_F_PROTO_ERR, DRL_F_CREDIT_STALL, DRL_F_NO_ROUTE, DRL_F_TTL_DROP, DRL_F_BLOCK_UNCORR]
  | .slc => [SLC_F_STALL_CLOSE, SLC_F_TAIL_BAD, SLC_F_VOQ_FULL, SLC_F_XBAR_PARITY, SLC_F_BRIDGE]
  | .ovn => [OVN_F_CE, OVN_F_UE_DATA, OVN_F_UE_SIDEBAND, OVN_F_LIST_LOST, OVN_F_RETIRED, OVN_F_BANK_EXHAUST, OVN_F_FREELIST]
  | .arb => [ARB_F_AGE_SAT, ARB_F_SLOT_UE, ARB_F_REQ_PARITY]
  | .dir => [DIR_F_CE, DIR_F_UE, DIR_F_SNOOP_TO, DIR_F_AGENT_DEAD, DIR_F_PROTO, DIR_F_STALE_WB, DIR_F_NO_AGENT, DIR_F_RETRY_WAIT, DIR_F_COARSE]
  | .scc => [SCC_F_CE, SCC_F_UE_CLEAN, SCC_F_UE_DIRTY, SCC_F_TAG_UE, SCC_F_PGATED]
  | .tray => [TRY_F_CE, TRY_F_UE, TRY_F_TRAY_FULL, TRY_F_IDX_FULL, TRY_F_PGATED, TRY_F_LOST_WRITE]
  | .dec => [DEC_F_DECODE_MISS, DEC_F_MIRROR_STALE, DEC_F_MIRROR_LOST, DEC_F_MIRROR_RETRY, DEC_F_FENCED, DEC_F_REV_MISS, DEC_F_EXPORT_VIOL, DEC_F_TABLE_UE]
  | .tag => [TAG_F_CE, TAG_F_CACHE_UE]
  | .egs => [EGS_F_TABLE_UE, EGS_F_DELAY_THR, EGS_F_DEPTH_THR]
  | .pol => [POL_F_TABLE_UE, POL_F_DISCARD]
  | .gte => [GTE_F_LIST_UE, GTE_F_FIT_ENTERED, GTE_F_TIME_STEP, GTE_F_OVERSIZE]
  | .acu => [ACU_F_NO_REGION, ACU_F_ATTR, ACU_F_COLOUR, ACU_F_DOMAIN, ACU_F_TABLE_UE]
  | .ldr => [LDR_F_CE, LDR_F_UE, LDR_F_UE_SCRUB, LDR_F_UE_CARVE, LDR_F_PPR_FAIL, LDR_F_THERM_HOT, LDR_F_TRAIN_FAIL, LDR_F_CONFIG, LDR_F_LD_RANGE, LDR_F_DIE, LDR_F_CHAN_FAIL]
  | .dmv => [DMV_F_DB_DROP, DMV_F_DB_OVERRUN, DMV_F_DESC_FETCH, DMV_F_CPL_WRITE, DMV_F_CTX_UE, DMV_F_STALE_CPL, DMV_F_ENGINE_UE, DMV_F_MOVE_END]
  | .spu => [SPU_F_VIN_WINDOW, SPU_F_OV, SPU_F_OC, SPU_F_FAST_TRIP, SPU_F_RAMP_FAULT, SPU_F_FET_FAIL, SPU_F_LATCHED, SPU_F_PRESENCE, SPU_F_VIN_LOW]
  | .fn => []

end Sys2Proof.Machine
end

