-- ==== Sys2Proof/Machine/Ops.lean ====
section
/-! DEFINITION. The named operations over registers, tables, counters, interrupts, Larder bytes and the ledger of
accesses in flight, which every meaning uses. Nothing here raises a fault; `Faults.lean` does. -/

namespace Sys2Proof.Machine

/-! ## Pages -/

/-- Table 2-2: type code, base, stride, instances. A service-endpoint function's registers lie beyond the control
space (the model's own place for them). -/
def Blk.map : Blk → Nat × Nat × Nat × Nat
  | .dev => (0x01, 0x0000000, 0x1000, 1) | .ckr => (0x02, 0x0001000, 0x1000, 1)
  | .tmb => (0x03, 0x0002000, 0x1000, 1) | .prf => (0x04, 0x0003000, 0x1000, 1)
  | .sec => (0x05, 0x0004000, 0x1000, 1) | .lck => (0x06, 0x0005000, 0x1000, 1)
  | .mgt => (0x07, 0x0006000, 0x1000, 1) | .fag => (0x08, 0x0008000, 0x1000, 1)
  | .ccl => (0x09, 0x0009000, 0x1000, 1) | .crb => (0x0A, 0x000A000, 0x1000, 1)
  | .tlm => (0x0B, 0x000B000, 0x1000, 1) | .tbl => (0x0C, 0x0010000, 0x1000, 16)
  | .prt => (0x10, 0x0100000, 0x1000, 128) | .sds => (0x11, 0x0180000, 0x1000, 64)
  | .drl => (0x12, 0x01C0000, 0x1000, 32) | .slc => (0x20, 0x0200000, 0x1000, 16)
  | .ovn => (0x21, 0x0210000, 0x1000, 16) | .arb => (0x22, 0x0220000, 0x1000, 16)
  | .dir => (0x23, 0x0230000, 0x1000, 16) | .scc => (0x24, 0x0240000, 0x1000, 16)
  | .tray => (0x25, 0x0250000, 0x1000, 16) | .dec => (0x26, 0x0260000, 0x1000, 16)
  | .tag => (0x27, 0x0270000, 0x1000, 16) | .egs => (0x30, 0x0280000, 0x1000, 128)
  | .pol => (0x31, 0x0300000, 0x1000, 128) | .gte => (0x32, 0x0380000, 0x1000, 128)
  | .acu => (0x33, 0x0400000, 0x1000, 128) | .ldr => (0x40, 0x0480000, 0x1000, 12)
  | .dmv => (0x41, 0x0500000, 0x1000, 64) | .spu => (0x42, 0x0540000, 0x1000, 32)
  | .fn => (0x00, 0x4000000, 0x2000, 16384)

def Blk.code (b : Blk) : Nat := b.map.1
def Blk.base (b : Blk) : Nat := b.map.2.1
def Blk.stride (b : Blk) : Nat := b.map.2.2.1
def Blk.insts (b : Blk) : Nat := b.map.2.2.2

/-- Every block of the control space, in ascending base. -/
def Blk.all : List Blk :=
  [.dev, .ckr, .tmb, .prf, .sec, .lck, .mgt, .fag, .ccl, .crb, .tlm, .tbl, .prt, .sds, .drl, .slc, .ovn, .arb,
   .dir, .scc, .tray, .dec, .tag, .egs, .pol, .gte, .acu, .ldr, .dmv, .spu]

/-- The eight pages of a slice (Table 2-7). -/
def Blk.slicePages : List Blk := [.slc, .ovn, .arb, .dir, .scc, .tray, .dec, .tag]

/-- Pages whose PGCTL.ENABLE resets to 1 and never clears (R72). -/
def Blk.alwaysOn (b : Blk) : Bool :=
  [Blk.dev, .ckr, .tmb, .prf, .sec, .lck, .mgt, .fag, .ccl, .crb, .tlm, .tbl, .ldr, .dmv, .spu].contains b

def Pg.addr (g : Pg) : Nat := g.blk.base + g.inst * g.blk.stride

/-- The page at a control-space byte address (R41); none in a reserved range. -/
def Pg.at? (a : Nat) : Option Pg :=
  Blk.all.findSome? fun b =>
    if b.base ≤ a && a < b.base + b.insts * b.stride then some ⟨b, (a - b.base) / b.stride⟩ else none

/-- Every page of the control space. -/
def Pg.all : List Pg := Blk.all.flatMap fun b => (List.range b.insts).map fun i => ⟨b, i⟩

/-- PGCAP bits by page (R48; each chapter): SNAP, SHADOW, LOCKABLE, RULE. -/
def Pg.snapCap (g : Pg) : Bool :=
  !([Blk.mgt, .lck, .tbl, .ccl, .crb, .tlm, .fn].contains g.blk)
def Pg.shadowCap (g : Pg) : Bool :=
  [Blk.dev, .sds, .prt, .drl, .ovn, .arb, .pol, .egs, .gte, .dec, .dir, .scc, .acu, .dmv].contains g.blk
    || (g.blk == .ldr && g.inst == 0)
def Pg.lockable (g : Pg) : Bool :=
  [Blk.dev, .sds, .prt, .drl, .ovn, .arb, .pol, .egs, .gte, .dec, .dir, .scc, .acu, .dmv, .ldr, .spu, .prf].contains
    g.blk || (g.blk == .tag && g.inst == 0)
def Pg.rule (g : Pg) : Bool := [Blk.dev, .dec, .tag, .acu].contains g.blk

/-- Page index of FAG_PEND and of record producers (Table 19-6). -/
def Pg.idx (g : Pg) : Nat :=
  match g.blk with
  | .dev => 0 | .ckr => 1 | .tmb => 2 | .prf => 3 | .sec => 4 | .lck => 5 | .mgt => 6 | .fag => 7 | .ccl => 8
  | .crb => 9 | .tlm => 10 | .tbl => 16 + g.inst | .prt => 128 + g.inst | .sds => 256 + g.inst
  | .drl => 320 + g.inst | .ldr => 352 + g.inst | .dmv => 384 + g.inst | .spu => 448 + g.inst
  | .slc => 512 + g.inst | .ovn => 528 + g.inst | .arb => 544 + g.inst | .dir => 560 + g.inst
  | .scc => 576 + g.inst | .tray => 592 + g.inst | .dec => 608 + g.inst | .tag => 624 + g.inst
  | .egs => 640 + g.inst | .pol => 768 + g.inst | .gte => 896 + g.inst | .acu => 1024 + g.inst
  | .fn => 2048

/-! ## Registers -/

/-- Byte address of index `j` of a register in instance `i` of its block. -/
def Reg.addr (r : Reg) (i j : Nat) : Nat := r.blk.base + i * r.blk.stride + r.off + j * r.stride

/-- FLT_SEV reset: bits 3i+2:3i hold the default severity of source i (chapter 19). -/
def Blk.sevReset (b : Blk) : Nat := (b.faults.map fun f => f.sev <<< (3 * f.num)).sum

/-- CKR_INCFG reset (Table 18-10). -/
def incfgReset (i : Nat) : Nat :=
  if i < 32 then 0x64102710 else if i < 48 then 0x0A10000A else if i < 64 then 0x01000064
  else if i = 64 then 0x101000002 else if i = 65 then 0x101080000 else 0x01000064

/-- The word a register holds after the reset that initialises it. (DESIGN CHOICE, log entry 5) -/
def Reg.resetAt (r : Reg) (i j : Nat) : W64 :=
  if r.off = 0x018 && r.blk != .fn then BitVec.ofNat 64 (b2n r.blk.alwaysOn)
  else if r.off = 0x050 && r.blk != .fn then BitVec.ofNat 64 r.blk.sevReset
  else if r.blk = .dev && r.off = 0x148 then Config.serial
  else if r.blk = .ckr && r.off = 0x200 then BitVec.ofNat 64 (incfgReset j)
  else if r.off = 0x000 && r.blk != .fn then BitVec.ofNat 64 (r.blk.code + i * 256 + 0x10000)
  else if r.off = 0x008 && r.blk != .fn then
    BitVec.ofNat 64 (r.blk.faults.length + 32 * b2n (Pg.snapCap ⟨r.blk, i⟩) + 64 * b2n (Pg.shadowCap ⟨r.blk, i⟩)
      + 128 * b2n (Pg.lockable ⟨r.blk, i⟩) + 256 * b2n (Pg.rule ⟨r.blk, i⟩))
  else BitVec.ofNat 64 r.rst

/-- The active word of a register. -/
def Dev.word (d : Dev) (r : Reg) (i : Nat) (j : Nat := 0) : W64 := SMap.get (r.resetAt i j) d.regs (r.addr i j)

def Dev.setWord (d : Dev) (r : Reg) (i : Nat) (w : W64) (j : Nat := 0) : Dev :=
  { d with regs := SMap.set (r.resetAt i j) d.regs (r.addr i j) w }

/-- The active value of a field. -/
def Dev.get (d : Dev) (f : Fld) (i : Nat := 0) (j : Nat := 0) : Nat := bits (d.word f.reg i j) f.lo f.width

def Dev.on (d : Dev) (f : Fld) (i : Nat := 0) (j : Nat := 0) : Bool := d.get f i j = 1

/-- Write the active value of a field. -/
def Dev.put (d : Dev) (f : Fld) (i : Nat) (v : Nat) (j : Nat := 0) : Dev :=
  d.setWord f.reg i (setBits (d.word f.reg i j) f.lo f.width v) j

/-- The shadow word of a register with RWC fields (R12). -/
def Dev.shWord (d : Dev) (r : Reg) (i : Nat) (j : Nat := 0) : W64 := SMap.get (r.resetAt i j) d.shadow (r.addr i j)

def Dev.setShWord (d : Dev) (r : Reg) (i : Nat) (w : W64) (j : Nat := 0) : Dev :=
  { d with shadow := SMap.set (r.resetAt i j) d.shadow (r.addr i j) w }

def Dev.getSh (d : Dev) (f : Fld) (i : Nat := 0) (j : Nat := 0) : Nat := bits (d.shWord f.reg i j) f.lo f.width

def Dev.putSh (d : Dev) (f : Fld) (i : Nat) (v : Nat) (j : Nat := 0) : Dev :=
  d.setShWord f.reg i (setBits (d.shWord f.reg i j) f.lo f.width v) j

/-! ## Counters (R636, R637) -/

/-- CNT_SEL fields of counter `c`: EVENT, EN, EDGE. -/
def Dev.cntSel (d : Dev) (b : Blk) (i c : Nat) : Nat × Bool × Bool :=
  let w := d.word (CNT_SEL b) i (c / 2)
  let s := 32 * (c % 2)
  (bits w s 10, bits w (s + 10) 1 = 1, bits w (s + 11) 1 = 1)

/-- Add `n` to counter `c` of a page; it stops at 2^48 − 1, where SAT sets. -/
def Dev.cntAdd (d : Dev) (b : Blk) (i c n : Nat) : Dev :=
  let v := d.get (CNT_COUNT b) i c + n
  if v ≥ 2 ^ 48 - 1 then (d.put (CNT_COUNT b) i (2 ^ 48 - 1) c).put (CNT_SAT b) i 1 c
  else d.put (CNT_COUNT b) i v c

/-- Event `ev` of a page occurs `n` times (or with amount `n`): every counter that selects it counts. -/
def Dev.count (d : Dev) (b : Blk) (i ev : Nat) (n : Nat := 1) : Dev :=
  (List.range 16).foldl (fun d c =>
    let (e, en, _) := d.cntSel b i c
    if en && e = ev then d.cntAdd b i c n else d) d

/-- The count fields of a page in ascending offset and bit order (Table 20-4, 0x100 + k). -/
def Blk.countFlds (b : Blk) : List (Fld × Nat) :=
  b.own.flatMap fun r => (List.range r.reg.cnt).flatMap fun j =>
    (r.flds.filter (fun f => f.cnt != .none)).map fun f => (f, j)

/-- Add `n` to a count field, saturating or wrapping as the field states, and count the occurrences. -/
def Dev.inc (d : Dev) (f : Fld) (i : Nat := 0) (j : Nat := 0) (n : Nat := 1) : Dev :=
  let v := d.get f i j + n
  let d := d.put f i (if f.cnt = .wrap then v else min v (2 ^ f.width - 1)) j
  match f.reg.blk.countFlds.findIdx? (fun e => e == (f, j)) with
  | some k => d.count f.reg.blk i (0x100 + k) n
  | none => d

/-! ## Free values, trace, time -/

/-- A value the spec leaves open: the next free value, and the state that has drawn it. (DESIGN CHOICE, log entry 4) -/
def Dev.fresh (d : Dev) : Nat × Dev := (Config.freeValue d.free, { d with free := d.free + 1 })

/-- Any bytes: the content of data the spec leaves open. (DESIGN CHOICE, log entry 4) -/
def Dev.freshBytes (d : Dev) (n : Nat) : Bytes × Dev :=
  let (v, d) := d.fresh
  (leBytes n v, d)

/-- Something leaves the device. (DESIGN CHOICE, log entry 30) -/
def Dev.emit (d : Dev) (e : Emit) : Dev := { d with out := d.out ++ [e] }

/-- Root ticks in a microsecond, a millisecond (8.8 GHz). -/
def tUs : Nat := 8800
def tMs : Nat := 8800000

/-- Local time at the last TIMECLK edge (R624). -/
def Dev.now (d : Dev) : Nat := d.obs.clk.local_

/-- Fabric time now, to the root tick (R27, R624). -/
def Dev.fab (d : Dev) : Nat := (d.obs.clk.local_ + d.obs.clk.sub + d.obs.clk.offset) % 2 ^ 64

/-- The root tick within the TIMECLK cycle at which what follows falls: the spec leaves it open (R27). (DESIGN CHOICE, log entry 129) -/
def Dev.instant (d : Dev) : Dev :=
  let (v, d) := d.fresh
  { d with obs := { d.obs with clk := { d.obs.clk with sub := v % 32 } } }

/-- TIMECLK count. -/
def Dev.tclk (d : Dev) : Nat := d.now / 32

/-! ## Tables behind the TBL windows -/

def tkey (t inst index w : Nat) : Nat := ((t * 256 + inst) * 2 ^ 32 + index) * 8 + w

/-- Reset word of a table entry: only the interrupt map's first four entries are not zero. -/
def tabReset (t index w : Nat) : W64 := if t = 0x0E && index < 4 && w = 0 then BitVec.ofNat 64 (0x10000 + index) else 0

def Dev.tab (d : Dev) (t inst index : Nat) (w : Nat := 0) : W64 :=
  SMap.get (tabReset t index w) d.tabs (tkey t inst index w)
def Dev.setTab (d : Dev) (t inst index w : Nat) (v : W64) : Dev :=
  { d with tabs := SMap.set (tabReset t index w) d.tabs (tkey t inst index w) v }
def Dev.tabS (d : Dev) (t inst index : Nat) (w : Nat := 0) : W64 :=
  SMap.get (tabReset t index w) d.tabSh (tkey t inst index w)
def Dev.setTabS (d : Dev) (t inst index w : Nat) (v : W64) : Dev :=
  { d with tabSh := SMap.set (tabReset t index w) d.tabSh (tkey t inst index w) v }

/-- A table of Table 2-6: owning block, instances, entries, words, shadowed, lockable; `own` is the instance of the
owning page for an instance of the table. -/
structure TabInfo where
  blk : Blk
  insts : Nat
  entries : Nat
  words : Nat
  shadowed : Bool
  lockable : Bool
  deriving DecidableEq, Repr

def tabInfo (t : Nat) : Option TabInfo :=
  match t with
  | 0x01 => some ⟨.dev, 1, 2048, 1, true, true⟩
  | 0x02 => some ⟨.dev, 1, 256, 1, true, true⟩
  | 0x03 => some ⟨.dec, 128, 128, 2, true, true⟩
  | 0x04 => some ⟨.dec, 128, 32, 4, true, true⟩
  | 0x05 => some ⟨.acu, 128, 64, 2, true, true⟩
  | 0x06 => some ⟨.acu, 128, 17, 1, true, true⟩
  | 0x07 => some ⟨.tag, 1, 134217728, 1, false, true⟩
  | 0x08 => some ⟨.arb, 16, 128, 1, true, true⟩
  | 0x09 => some ⟨.ovn, 16, 256, 1, true, true⟩
  | 0x0A => some ⟨.pol, 128, 128, 4, true, true⟩
  | 0x0B => some ⟨.egs, 128, 8, 4, true, true⟩
  | 0x0C => some ⟨.gte, 128, 256, 2, true, true⟩
  | 0x0D => some ⟨.dmv, 1, 2097152, 8, false, false⟩
  | 0x0E => some ⟨.mgt, 1, 8192, 1, false, false⟩
  | _ => none

/-- The page that owns an instance of a table (Table 2-6). -/
def tabOwner (t inst : Nat) : Pg :=
  match tabInfo t with
  | some ti => ⟨ti.blk, if t = 0x03 || t = 0x04 then inst / 8 else inst⟩
  | none => ⟨.dev, 0⟩

/-- The (table, instance) pairs a page owns that are shadowed. -/
def Pg.tables (g : Pg) : List (Nat × Nat) :=
  match g.blk with
  | .dev => [(0x01, 0), (0x02, 0)]
  | .dec => (List.range 8).flatMap fun i => [(0x03, 8 * g.inst + i), (0x04, 8 * g.inst + i)]
  | .acu => [(0x05, g.inst), (0x06, g.inst)]
  | .arb => [(0x08, g.inst)]
  | .ovn => [(0x09, g.inst)]
  | .pol => [(0x0A, g.inst)]
  | .egs => [(0x0B, g.inst)]
  | .gte => [(0x0C, g.inst)]
  | _ => []

/-- The active copy of a table entry is uncorrectable. -/
def Dev.tabBad (d : Dev) (t inst index : Nat) : Bool := d.tabUe.contains (tkey t inst index 0)

/-- Source and instance of the page that reports an uncorrectable entry of a table. -/
def tabUeSrc (t inst : Nat) : Option (FSrc × Nat) :=
  match t with
  | 0x03 | 0x04 => some (DEC_F_TABLE_UE, inst / 8)
  | 0x05 | 0x06 => some (ACU_F_TABLE_UE, inst)
  | 0x08 => some (ARB_F_SLOT_UE, inst)
  | 0x0A => some (POL_F_TABLE_UE, inst)
  | 0x0B => some (EGS_F_TABLE_UE, inst)
  | 0x0C => some (GTE_F_LIST_UE, inst)
  | _ => none

/-- An injection armed in a page for one of the sources `srcs`, in the unit `sub` where the page has units (R617): its source;
it is disarmed unless CONT is 1. (DESIGN CHOICE, log entry 24) -/
def Dev.injectAt (d : Dev) (b : Blk) (i : Nat) (srcs : List Nat) (sub : Option Nat) : Option Nat × Dev :=
  let src := d.get (FLT_INJECT_SOURCE b) i
  let here := match sub with | some u => d.get (FLT_INJECT_SUB b) i = u | none => true
  if d.on (FLT_INJECT_ARM b) i && srcs.contains src && here then
    (some src, if d.on (FLT_INJECT_CONT b) i then d else d.put (FLT_INJECT_ARM b) i 0)
  else (none, d)

/-! ## Interrupts (R63, R64) -/

/-- Source `i` has an event: it goes through the interrupt map to a vector, is sent, kept pending, or forgotten. -/
def Dev.irq (d : Dev) (i : Nat) : Dev :=
  let e := d.tab 0x0E 0 i
  let v := bits e 0 11
  if bits e 16 1 = 1 && d.on MGT_IRQ_CTL_MASTER_EN && d.ctl.msixEn then
    if d.ctl.fnMask || !d.ctl.vecOpen.contains v then
      { d with ctl := { d.ctl with vecPend := (v :: d.ctl.vecPend).dedup } }
    else
      let (a, w) := SMap.get (0, 0) d.ctl.vecMsg v
      d.emit (.msi v a w)
  else d

/-! ## The ledger of accesses in flight (R53, Table 15-7) -/

def Dev.epoch (d : Dev) : Nat := d.get DEV_RULE_EPOCH_EPOCH

/-- Enter an access checked now: its number, and the state. -/
def Dev.beginFlight (d : Dev) : Nat × Dev :=
  let n := d.ctl.nextFlight
  (n, { d with ctl := { d.ctl with flights := d.ctl.flights ++ [⟨n, d.epoch⟩], nextFlight := n + 1 } })

/-- The access is finished. -/
def Dev.endFlight (d : Dev) (n : Nat) : Dev :=
  { d with ctl := { d.ctl with flights := d.ctl.flights.filter (fun f => f.id ≠ n) } }

/-- The access is checked again under the current epoch (R488). -/
def Dev.restamp (d : Dev) (n : Nat) : Dev :=
  { d with ctl := { d.ctl with flights := d.ctl.flights.map fun f => if f.id = n then { f with epoch := d.epoch } else f } }

/-- DEV_RULE_EPOCH.OLDEST: the oldest epoch still in flight, or the current one (R53). -/
def Dev.oldestEpoch (d : Dev) : Nat :=
  d.ctl.flights.foldl (fun o f => if epochOlder f.epoch o then f.epoch else o) d.epoch

/-! ## Larder bytes (R433, R435) -/

/-- A byte of the Larder by LPA; a byte nothing has written reads 0. (DESIGN CHOICE, log entry 3) -/
def Dev.lbyte (d : Dev) (a : Nat) : Byte := SMap.get 0 d.ldr.mem a
def Dev.setLbyte (d : Dev) (a : Nat) (b : Byte) : Dev :=
  { d with ldr := { d.ldr with mem := SMap.set 0 d.ldr.mem a b } }

/-- `n` bytes from LPA `a`. -/
def Dev.lread (d : Dev) (a n : Nat) : Bytes := (List.range n).map fun i => d.lbyte (a + i)

/-- Write a run of bytes at LPA `a`. -/
def Dev.lwrite (d : Dev) (a : Nat) : Bytes → Dev
  | [] => d
  | b :: r => (d.setLbyte a b).lwrite (a + 1) r

/-- Write the bytes of a line whose enable bit is set. -/
def Dev.lwriteBe (d : Dev) (a be : Nat) (data : Bytes) : Dev :=
  (List.range 64).foldl (fun d i => if bit be i then d.setLbyte (a + i) (data.getD i 0) else d) d

def Dev.lword (d : Dev) (a : Nat) : W64 := BitVec.ofNat 64 (leNat (d.lread a 8))
def Dev.setLword (d : Dev) (a : Nat) (w : W64) : Dev := d.lwrite a (leBytes 8 w.toNat)

/-- Populated channels, ascending, and their number W (R433). -/
def Dev.channels (d : Dev) : List Nat :=
  (List.range 12).filter fun c => d.get LDR_CHSTAT_STATE c ≠ 0 && d.get LDR_CHSTAT_STATE c ≠ 5

/-- The channel of an LPA and its channel-local address (R433). -/
def Dev.lchan (d : Dev) (a : Nat) : Nat × Nat :=
  let w := max 1 d.channels.length
  (d.channels.getD ((a / 256) % w) 0, a / (256 * w) * 256 + a % 256)

/-- Carve-out bases (R435): tag table, queue contexts, telemetry. -/
def Dev.ldLimit (d : Dev) : Nat := d.get LDR_CARVE_LD_LIMIT * 2 ^ 28
def Dev.tagBase (d : Dev) : Nat := d.ldLimit
def Dev.ctxBase (d : Dev) : Nat := d.ldLimit + (if d.on LDR_CARVE_TAG_EN then 2 ^ 30 else 0)
def Dev.tlmBase (d : Dev) : Nat := d.ctxBase + 2 ^ 27
def Dev.tlmSize (d : Dev) : Nat := d.get LDR_CARVE_TLM_GIB * 2 ^ 30

/-! ## Numbering (Table 1-2) -/

def portOctet (p : Nat) : Nat := p / 2
def portSlice (p : Nat) : Nat := p / 8
def sliceDie (s : Nat) : Nat := s / 4
def octetChiplet (o : Nat) : Nat := o / 8

/-- A source's slice: ports 0 to 127, internal endpoints 128 + s. -/
def srcSlice (src : Nat) : Nat := if src < 128 then src / 8 else src - 128

/-! ## Per-instance state -/

def Dev.octet (d : Dev) (o : Nat) : Octet := SMap.get {} d.octets o
def Dev.setOctet (d : Dev) (o : Nat) (x : Octet) : Dev := { d with octets := SMap.set {} d.octets o x }
def Dev.port (d : Dev) (p : Nat) : Port := SMap.get {} d.ports p
def Dev.setPort (d : Dev) (p : Nat) (x : Port) : Dev := { d with ports := SMap.set {} d.ports p x }
def Dev.modPort (d : Dev) (p : Nat) (f : Port → Port) : Dev := d.setPort p (f (d.port p))
def Dev.link (d : Dev) (k : Nat) : Link := SMap.get {} d.links k
def Dev.setLink (d : Dev) (k : Nat) (x : Link) : Dev := { d with links := SMap.set {} d.links k x }
def Dev.modLink (d : Dev) (k : Nat) (f : Link → Link) : Dev := d.setLink k (f (d.link k))
def Octet.lane (x : Octet) (l : Nat) : Lane := SMap.get {} x.lanes l
def Octet.setLane (x : Octet) (l : Nat) (v : Lane) : Octet := { x with lanes := SMap.set {} x.lanes l v }
def Dev.lane (d : Dev) (o l : Nat) : Lane := (d.octet o).lane l
def Dev.modLane (d : Dev) (o l : Nat) (f : Lane → Lane) : Dev :=
  d.setOctet o ((d.octet o).setLane l (f (d.lane o l)))
def Dev.home (d : Dev) (h : Nat) : Home := SMap.get {} d.coh.homes h
def Dev.setHome (d : Dev) (h : Nat) (x : Home) : Dev := { d with coh := { d.coh with homes := SMap.set {} d.coh.homes h x } }
def Dev.modHome (d : Dev) (h : Nat) (f : Home → Home) : Dev := d.setHome h (f (d.home h))
def Dev.ring (d : Dev) (r : Nat) : Ring := SMap.get {} d.obs.rings r
def Dev.setRing (d : Dev) (r : Nat) (x : Ring) : Dev := { d with obs := { d.obs with rings := SMap.set {} d.obs.rings r x } }
def Dev.meter (d : Dev) (p e : Nat) : Meter := SMap.get {} d.traf.meters (p * 128 + e)
def Dev.setMeter (d : Dev) (p e : Nat) (x : Meter) : Dev :=
  { d with traf := { d.traf with meters := SMap.set {} d.traf.meters (p * 128 + e) x } }
def Dev.shaper (d : Dev) (p t : Nat) : Shaper := SMap.get {} d.traf.shapers (p * 8 + t)
def Dev.setShaper (d : Dev) (p t : Nat) (x : Shaper) : Dev :=
  { d with traf := { d.traf with shapers := SMap.set {} d.traf.shapers (p * 8 + t) x } }
def Dev.egress (d : Dev) (p : Nat) : Egress := SMap.get {} d.traf.egress p
def Dev.setEgress (d : Dev) (p : Nat) (x : Egress) : Dev :=
  { d with traf := { d.traf with egress := SMap.set {} d.traf.egress p x } }
def Dev.queue (d : Dev) (q : Nat) : Queue := SMap.get {} d.dmv.queues q
def Dev.setQueue (d : Dev) (q : Nat) (x : Queue) : Dev := { d with dmv := { d.dmv with queues := SMap.set {} d.dmv.queues q x } }

/-- Page state: enabled, available, locked (R72, R43, R56). -/
def Dev.enabled (d : Dev) (g : Pg) : Bool := g.blk.alwaysOn || d.on (PGCTL_ENABLE g.blk) g.inst
def Dev.locked (d : Dev) (g : Pg) : Bool := g.lockable && d.on (PGLOCK_LOCKED g.blk) g.inst
/-- DEV_CFG_LOCK.ALL (R56). -/
def Dev.allLocked (d : Dev) : Bool := Pg.all.all fun g => !g.lockable || d.on (PGLOCK_LOCKED g.blk) g.inst
/-- The eight pages of a slice all have ENABLE 1 (Table 2-7). -/
def Dev.sliceOn (d : Dev) (s : Nat) : Bool := Blk.slicePages.all fun b => d.enabled ⟨b, s⟩

/-- The fault key of a source of a page. -/
def fkey (g : Pg) (n : Nat) : Nat := (g.addr / 4096) * 16 + n

def Dev.quarantined (d : Dev) (e : Elem) : Bool := d.flt.quar.contains e

/-- Free-running conversion of fabric time to nanoseconds (R624). -/
def ticksNs (t : Nat) : Nat := t * 5 / 44

end Sys2Proof.Machine
end

