-- ==== Sys2Proof/Machine/LinkTx.lean ====
section
/-! DEFINITION. Dunrun: the block code, the packets' layouts, and the stream that a link transmits (chapter 5). -/

namespace Sys2Proof.Machine

/-! ## Block code (R156 to R159) -/

def syncData : Nat := 0x4B1E
def syncStart : Nat := 0x7887
def syncCtl : Nat := 0x2D78

/-- Product in GF(2^8) with x^8 + x^4 + x^3 + x^2 + 1. -/
def gfMul (a b : Nat) : Nat :=
  ((List.range 8).foldl (fun (acc : Nat × Nat) i =>
    let (r, a) := acc
    let r := if bit b i then Nat.xor r a else r
    let a2 := a * 2
    (r, if a2 ≥ 256 then Nat.xor a2 0x11D else a2)) (0, a)).1

/-- Bytes of interleave `r` of a block, ascending. -/
def interleave (blk : Bytes) (r : Nat) : List Nat :=
  ((List.range 256).filter (fun i => i % 3 = r)).map fun i => (blk.getD i 0).toNat

/-- Syndromes of a codeword: its values at 1 and at 2. -/
def syndromes (c : List Nat) : Nat × Nat :=
  (c.foldl Nat.xor 0, c.foldl (fun s x => Nat.xor (gfMul s 2) x) 0)

/-- Position and value of a codeword's single error: `some none` when it has none, `none` when it is uncorrectable. -/
def rsDecode (c : List Nat) : Option (Option (Nat × Nat)) :=
  let (s0, s1) := syndromes c
  if s0 = 0 && s1 = 0 then some none
  else if s0 = 0 || s1 = 0 then none
  else
    let n := c.length
    let p := (List.range n).foldl (fun (acc : Option Nat × Nat) k =>
      (if acc.1.isNone && acc.2 = s1 then some k else acc.1, gfMul acc.2 2)) (none, s0)
    match p.1 with
    | some k => some (some (n - 1 - k, s0))
    | none => none

/-- Corrected block and the number of bytes corrected; none when an interleave is uncorrectable (R159). -/
def blockCorrect (blk : Bytes) : Option (Bytes × Nat) :=
  (List.range 3).foldl (fun acc r =>
    match acc with
    | none => none
    | some (b, n) =>
      match rsDecode (interleave blk r) with
      | none => none
      | some none => some (b, n)
      | some (some (j, e)) =>
        let i := 3 * j + r
        some (b.set i (BitVec.ofNat 8 (Nat.xor (b.getD i 0).toNat e)), n + 1)) (some (blk, 0))

/-- A sync header is one of the three codes of Table 5-2. -/
def syncOk (h : Nat) : Bool := [syncData, syncStart, syncCtl].contains h

/-- The image a swapped pair gives. -/
def invertHdr (h : Nat) : Nat := Nat.xor h 0xAAAA

/-- The two check bytes of a codeword's other bytes, higher position first (R158): both syndromes vanish, and 0xF4 is the
inverse of 0x03. -/
def rsCheck (c : List Nat) : Nat × Nat :=
  let a := c.foldl Nat.xor 0
  let h := c.foldl (fun s x => Nat.xor (gfMul s 2) x) 0
  let c1 := gfMul (Nat.xor (gfMul h 4) a) 0xF4
  (c1, Nat.xor a c1)

/-- The 256 bytes of a block with sync header `sync` and payload `pl` (Table 5-1, R158). -/
def blockEncode (sync : Nat) (pl : Bytes) : Bytes :=
  let b := (leBytes 2 sync ++ pl).take 250
  let ck (r : Nat) : Nat × Nat := rsCheck (((List.range 250).filter (fun i => i % 3 = r)).map fun i => (b.getD i 0).toNat)
  b ++ ([(ck 1).1, (ck 2).1, (ck 0).1, (ck 1).2, (ck 2).2, (ck 0).2].map fun x => BitVec.ofNat 8 x)

/-! ## Check codes (R164) -/

def crc16Step (c : Nat) (b : Byte) : Nat :=
  (List.range 8).foldl (fun c _ => if c ≥ 0x8000 then Nat.xor (c * 2 % 65536) 0x1021 else c * 2 % 65536)
    (Nat.xor c (b.toNat * 256))

def crc16 (bs : Bytes) : Nat := bs.foldl crc16Step 0xFFFF

def crc32cStep (c : Nat) (b : Byte) : Nat :=
  (List.range 8).foldl (fun c _ => if c % 2 = 1 then Nat.xor (c / 2) 0x82F63B78 else c / 2) (Nat.xor c b.toNat)

def crc32c (bs : Bytes) : Nat := Nat.xor (bs.foldl crc32cStep 0xFFFFFFFF) 0xFFFFFFFF

/-! ## Packets (Tables 5-3, 5-5) -/

/-- A control packet: TYPE, SUB, and its other fields already at their bit positions. -/
def ctlPacket (type_ sub fields : Nat) : Bytes :=
  let b := leBytes 14 (type_ + 16 * sub + fields)
  b ++ leBytes 2 (crc16 b)

def pktAck (s : Nat) : Bytes := ctlPacket 0x8 0 (s * 2 ^ 8)
def pktNak (e : Nat) : Bytes := ctlPacket 0x8 1 (e * 2 ^ 8)
def pktCredit (vc cum : Nat) (c : Option Nat) : Bytes :=
  ctlPacket 0x9 vc (cum * 2 ^ 8 + (c.getD 0) * 2 ^ 28 + b2n c.isSome * 2 ^ 40)
def pktSpare (sub lane block trans : Nat) : Bytes := ctlPacket 0xB sub (lane * 2 ^ 8 + block * 2 ^ 12 + trans * 2 ^ 24)
def pktTime (sub id ts : Nat) : Bytes := ctlPacket 0xC sub (id * 2 ^ 8 + ts * 2 ^ 16)
def pktCrumb (id t origin : Nat) : Bytes := ctlPacket 0xD 0 (id * 2 ^ 8 + t * 2 ^ 16 + origin * 2 ^ 80)
def pktRoute (sub gport count : Nat) : Bytes := ctlPacket 0xE sub (gport * 2 ^ 8 + (count - 1) * 2 ^ 19)
def pktMac (tag : Nat) : Bytes := ctlPacket 0xF 0 (tag % 2 ^ 96 * 2 ^ 8)
def pktKeySwitch (slot : Nat) : Bytes := ctlPacket 0xF 1 (slot * 2 ^ 8)

/-- Fields of a packet as one number, bit 0 first. -/
def pktNat (b : Bytes) : Nat := leNat (b.take 16)
def fld (n lo w : Nat) : Nat := n / 2 ^ lo % 2 ^ w

def pktType (b : Bytes) : Nat := fld (pktNat b) 0 4
def pktSub (b : Bytes) : Nat := if pktType b = 0x9 then 0 else fld (pktNat b) 4 4
def pktCrcOk (b : Bytes) : Bool := fld (pktNat b) 112 16 = crc16 (b.take 14)

/-- TYPE and SUB are listed (R166): a message packet or a row of Table 5-5. A byte of TYPE 0 other than the IDLE byte 0x00
counts as not listed. (DESIGN CHOICE, log entry 122) -/
def pktListed (b : Bytes) : Bool :=
  match pktType b with
  | 0x1 => true
  | 0x8 => pktSub b ≤ 1
  | 0x9 => fld (pktNat b) 7 1 = 0
  | 0xA => pktSub b ≤ 1
  | 0xB => pktSub b ≤ 3
  | 0xC => pktSub b ≤ 2
  | 0xD => pktSub b = 0
  | 0xE => pktSub b ≤ 1
  | 0xF => pktSub b ≤ 1
  | _ => false

/-- Length of the packet whose header stands at the front. -/
def pktLen (b : Bytes) : Nat :=
  if pktType b = 0x1 then 16 + (if fld (pktNat b) 62 1 = 1 then 84 else 0) + 64 * (fld (pktNat b) 8 3 + 1) + 4 else 16

/-! ## Training control blocks (R94, R157) -/

/-- The lanes of octet o that are locked. -/
def Dev.lockedLanes (d : Dev) (o : Nat) : List Nat := (List.range 9).filter fun l => d.on SDS_LANE_LOCK o l

/-- The PRBS31 generator's next bit, of x^31 + x^28 + 1 (R94). (DESIGN CHOICE, log entry 118) -/
def prbsStep (s : Nat) : Nat × Nat :=
  let b := (s / 2 ^ 30 + s / 2 ^ 27) % 2
  (b, (2 * s + b) % 2 ^ 31)

/-- The generator's next byte, first bit lowest, and its state after it. -/
def prbsByte (s : Nat) : Byte × Nat :=
  let r := (List.range 8).foldl (fun (acc : Nat × Nat) i => let t := prbsStep acc.2; (acc.1 + t.1 * 2 ^ i, t.2)) (0, s)
  (BitVec.ofNat 8 r.1, r.2)

/-- Its next `n` bytes. -/
def prbsBytes (n s : Nat) : Bytes × Nat :=
  let r := (List.range n).foldl (fun (acc : Bytes × Nat) _ => let t := prbsByte acc.2; (t.1 :: acc.1, t.2)) (([] : Bytes), s)
  (r.1.reverse, r.2)

/-- Payload bytes 0 to 11 of the training control block a lane sends (Table 3-7). -/
def Dev.trainBytes (d : Dev) (o l : Nat) : Bytes :=
  let x := d.lane o l
  let (seq, req, pre) := x.req.getD (x.reqSeq, 0, none)
  let mask := ((d.lockedLanes o).map fun i => 2 ^ i).sum
  [0xA1, BitVec.ofNat 8 (l + 16 * seq), BitVec.ofNat 8 req,
   BitVec.ofNat 8 (pre.getD 0 + 8 * b2n pre.isSome + 16 * x.ansSeq.getD 0), BitVec.ofNat 8 x.ansResp,
   BitVec.ofNat 8 (b2n x.rxDone + 2 * d.get SDS_LANE_LOCK o l), BitVec.ofNat 8 mask, BitVec.ofNat 8 (mask / 256),
   BitVec.ofNat 8 (d.get DEV_FABRIC_DEVID), BitVec.ofNat 8 o, 0, 0]

/-- The next block with a CONTROL header that a lane sends: three pattern blocks and then a training control block, their PRBS31
going on from block to block (R94). (DESIGN CHOICE, log entry 118) -/
def Dev.ctlBlock (d : Dev) (o l : Nat) : Dev :=
  let x := d.lane o l
  let s0 := x.prbs.getD (1 + Config.prbsSeed o l % (2 ^ 31 - 1))
  let b := if x.ctlN % 4 < 3 then (let t := prbsBytes 247 s0; ((0xA0 :: t.1 : Bytes), t.2))
    else (let t := prbsBytes 236 s0; (d.trainBytes o l ++ t.1, t.2))
  (d.emit (.training o l b.1)).modLane o l fun x => { x with prbs := some b.2, ctlN := (x.ctlN + 1) % 4 }

/-- Four blocks that a lane in training sends (R94). (DESIGN CHOICE, log entry 118) -/
def Dev.trainSend (d : Dev) (o l : Nat) : Dev := (List.range 4).foldl (fun d _ => d.ctlBlock o l) d

/-- Lanes that carry CONTROL blocks while the data lanes carry the stream: the hot spare, and a lane whose stream has gone to it, until
its swap is complete (R157, R180). -/
def Dev.ctlLanes (d : Dev) (o : Nat) : List Nat := (d.octet o).txHot.toList ++ (d.octet o).txOld.toList

/-! ## Link state and the transmit stream (R160 to R162, R184, R185) -/

def lkDown : Nat := 0
def lkInit : Nat := 1
def lkKeywait : Nat := 2
def lkActive : Nat := 3
def lkRetrain : Nat := 4

def Dev.lkState (d : Dev) (k : Nat) : Nat := d.get DRL_STAT_STATE k
def Dev.lkOctet (d : Dev) (k : Nat) : Nat := d.get DRL_ATTACH_OCTET k

/-- Links in ACTIVE, ascending. -/
def Dev.activeLinks (d : Dev) : List Nat := (List.range 32).filter fun k => d.lkState k = lkActive

/-- The key in a slot of link k: transmit slots 0 and 1, receive slots 2 and 3. (DESIGN CHOICE, log entry 81) -/
def Dev.linkKey (d : Dev) (k slot : Nat) : Nat := SMap.get 0 (d.link k).keys slot

/-- The link's stream is sealed segment by segment: encryption is in use, or the keys wait for the peer's MAC (R184). -/
def Dev.encTx (d : Dev) (k : Nat) : Bool :=
  d.on DRL_STAT_ENC k || (d.lkState k = lkKeywait && d.on (if d.on DRL_SEC_ACT_SLOT k then DRL_SEC_VALID1 else DRL_SEC_VALID0) k)

/-- A byte of the payload stream: 0 of a message packet, 1 of a control packet or IDLE, 2 of a SEC packet; whether a packet or
IDLE begins at it. -/
abbrev TxByte := Nat × Bool × Byte

def pktStream (b : Bytes) : List TxByte :=
  let kind := match pktType b with | 0x1 => 0 | 0xF => 2 | _ => 1
  (List.range b.length).map fun i => (kind, i = 0, b.getD i 0)

def idleStream (n : Nat) : List TxByte := List.replicate n (1, true, 0)

/-- IDLE up to the end of the stream block (R161, R162). -/
def padStream (xs : List TxByte) : List TxByte := xs ++ idleStream ((248 - xs.length % 248) % 248)

/-- A block's bytes under a segment's key and counter, and the plaintext and AAD of the segment with them (R184). -/
def sealBytes (key n : Nat) (xs : List TxByte) (pt aad : Bytes) : Bytes × Bytes × Bytes :=
  xs.foldl (fun (acc : Bytes × Bytes × Bytes) x =>
    match x.1 with
    | 0 => (acc.1 ++ [x.2.2 ^^^ Config.gcmStream key n acc.2.1.length], acc.2.1 ++ [x.2.2], acc.2.2)
    | 1 => (acc.1 ++ [x.2.2], acc.2.1, acc.2.2 ++ [x.2.2])
    | _ => (acc.1 ++ [x.2.2], acc.2.1, acc.2.2)) (([] : Bytes), pt, aad)

/-- From its chosen block on, a lane's stream goes on the spare, and CONTROL blocks on the old lane (Table 5-8, step 2); a TIME exchange that spans the swap is
abandoned (R189). -/
def Dev.txSwap (d : Dev) (k : Nat) (x : Spare) : Dev :=
  let o := d.lkOctet k
  let y := d.octet o
  let sp := y.txHot.getD (((List.range 9).find? fun l => !y.txMap.contains l).getD 8)
  let d := d.setOctet o { y with txMap := y.txMap.set x.lane sp, txSpare := true, txHot := none, txOld := some (y.txMap.getD x.lane x.lane) }
  d.modLink k fun l => { l with spareTx := some { x with done := true }, t1 := none, t2 := none, t4 := none }

/-- Width in lanes of link k's octet, and its transmit lane block count (R160, R180). -/
def Dev.lkWidth (d : Dev) (k : Nat) : Nat := max 1 (d.get SDS_STAT_WIDTH_A (d.lkOctet k))
def Dev.txCount (d : Dev) (k : Nat) : Nat := (d.link k).txBlk / d.lkWidth k % 4096

/-- A block leaves on a lane; an armed injection inverts the two check bytes of its interleave 0 (Table 19-3). (DESIGN CHOICE, log entry 24) -/
def Dev.blockOut (d : Dev) (k lane : Nat) (raw : Bytes) : Dev :=
  let r := d.injectAt .drl k [DRL_F_BLOCK_UNCORR.num] (some lane)
  r.2.emit (.block (d.lkOctet k) lane (if r.1.isSome then (raw.set 252 (~~~ raw.getD 252 0)).set 255 (~~~ raw.getD 255 0) else raw))

/-- The packet as it leaves: an armed injection inverts every bit of a message packet's tail CRC (Table 19-3). (DESIGN CHOICE, log entry 24) -/
def Dev.tailOut (d : Dev) (k : Nat) (b : Bytes) : Bytes × Dev :=
  if pktType b ≠ 0x1 then (b, d)
  else
    let r := d.injectAt .drl k [DRL_F_TAIL_BAD.num] none
    (if r.1.isSome then b.take (b.length - 4) ++ (b.drop (b.length - 4)).map (~~~ ·) else b, r.2)

/-- One stream block leaves on its lane, at the start of a block time with the CONTROL blocks of the other lanes (R156, R157, R160, R162); under encryption it belongs to the segment in progress, whose tag
is due once SEG blocks have left (R184, R185). -/
def Dev.txBlock (d : Dev) (k : Nat) (xs : List TxByte) : Dev :=
  let d : Dev := match (d.link k).spareTx with
    | some x => if !x.done && (d.txCount k + 4096 - x.block.getD 0) % 4096 < 2048 then d.txSwap k x else d
    | none => d
  let n := (d.link k).txBlk % d.lkWidth k
  let d := if n = 0 then (d.ctlLanes (d.lkOctet k)).foldl (fun d l => d.ctlBlock (d.lkOctet k) l) d else d
  let l := d.link k
  let key := d.linkKey k (d.get DRL_SEC_ACT_SLOT k)
  let enc := d.encTx k
  let s := if enc then sealBytes key l.segTx xs l.txPt l.txAad else (xs.map (·.2.2), l.txPt, l.txAad)
  let sync := if (xs.headD (1, true, 0)).2.1 then syncStart else syncData
  let d := d.blockOut k ((d.octet (d.lkOctet k)).txMap.getD n n) (blockEncode sync s.1)
  if !enc then d.modLink k fun l => { l with txBlk := l.txBlk + 1 }
  else if l.txSegBlk + 1 < d.get DRL_CFG_SEG k then
    d.modLink k fun l => { l with txBlk := l.txBlk + 1, txSegBlk := l.txSegBlk + 1, txPt := s.2.1, txAad := s.2.2 }
  else
    let tag := Config.gcmTag key l.segTx s.2.2 s.2.1
    d.modLink k fun l =>
      { l with txBlk := l.txBlk + 1, txSegBlk := 0, txPt := [], txAad := [], txDue := l.txDue ++ [tag], segTx := l.segTx + 1 }

/-- The whole blocks of a stream leave. -/
def Dev.txBlocks (d : Dev) (k : Nat) (xs : List TxByte) : Dev :=
  (List.range (xs.length / 248)).foldl (fun d i => d.txBlock k ((xs.drop (248 * i)).take 248)) d

/-- A packet is counted and shown as it enters the stream. -/
def Dev.putPkt (d : Dev) (k : Nat) (b : Bytes) : Dev := (d.emit (.dunrun k b)).count .drl k 0x200

/-- The SEC.MAC packets of the segments whose tags are due (R185). -/
def Dev.macsDue (d : Dev) (k : Nat) : List TxByte × Dev :=
  let ms := (d.link k).txDue.map pktMac
  (ms.flatMap pktStream, (ms.foldl (fun d b => d.putPkt k b) d).modLink k fun l => { l with txDue := [] })

/-- A packet leaves, the MACs due behind it, and IDLE to the end of the stream block. -/
def Dev.txPacket (d : Dev) (k : Nat) (b : Bytes) : Dev :=
  let m := d.macsDue k
  let d := m.2.putPkt k b
  let xs := m.1 ++ pktStream b
  let n := xs.length / 248 * 248
  let d := d.txBlocks k (xs.take n)
  let m := d.macsDue k
  m.2.txBlocks k (padStream (xs.drop n ++ m.1))

/-- IDLE to the end of the segment in progress, whose MAC begins the next one (R185). -/
def Dev.txSegEnd (d : Dev) (k : Nat) : Dev :=
  let n := (d.link k).txSegBlk
  if n = 0 then d else d.txBlocks k (idleStream (248 * (d.get DRL_CFG_SEG k - n)))
def Dev.txMacs (d : Dev) (k : Nat) : Dev :=
  let m := d.macsDue k
  m.2.txBlocks k (padStream m.1)

/-- A packet leaves on link k, with IDLE behind it to the end of its stream block; under encryption to the end of its segment,
with the segment's MAC (R161, R162, R184, R185). (DESIGN CHOICE, log entry 79) -/
def Dev.sendPkt (d : Dev) (k : Nat) (b : Bytes) : Dev :=
  let (b, d) := d.tailOut k b
  if d.encTx k then ((d.txPacket k b).txSegEnd k).txMacs k else d.txPacket k b

/-- A whole segment of IDLE, and its MAC. -/
def Dev.txIdleSegment (d : Dev) (k : Nat) : Dev := (d.txBlocks k (idleStream (248 * d.get DRL_CFG_SEG k))).txMacs k

/-- The sender switches to another key slot: SEC.KEY_SWITCH ends its segment, and the next one uses the new slot (R187). -/
def Dev.txKeySwitch (d : Dev) (k slot : Nat) : Dev :=
  let d := if d.encTx k then (d.txPacket k (pktKeySwitch slot)).txSegEnd k else d
  let d := (d.put DRL_SEC_ACT_SLOT k slot).modLink k fun l => { l with segTx := 0 }
  if d.encTx k then d.txMacs k else d

def Dev.txN (d : Dev) (k : Nat) : Nat := d.get DRL_SEQ_TX_NEXT k
def Dev.txU (d : Dev) (k : Nat) : Nat := d.get DRL_SEQ_TX_OLDEST k
def Dev.rxE (d : Dev) (k : Nat) : Nat := d.get DRL_SEQ_RX_EXPECT k

/-- Write U and N with OUTSTANDING = N − U. -/
def Dev.setTx (d : Dev) (k u n : Nat) : Dev :=
  ((d.put DRL_SEQ_TX_OLDEST k u).put DRL_SEQ_TX_NEXT k n).put DRL_SEQ_OUTSTANDING k ((n + 4096 - u) % 4096)

def vcBufFld (v : Nat) : Fld :=
  match v with
  | 0 => DRL_VCBUF0_VC0 | 1 => DRL_VCBUF0_VC1 | 2 => DRL_VCBUF0_VC2 | 3 => DRL_VCBUF0_VC3
  | 4 => DRL_VCBUF1_VC4 | 5 => DRL_VCBUF1_VC5 | 6 => DRL_VCBUF1_VC6 | _ => DRL_VCBUF1_VC7

/-- VC of a class on a link (R176), and its size in cells. -/
def Dev.vcOf (d : Dev) (k cls : Nat) : Nat := bits (d.word DRL_VCMAP k) (3 * cls) 3
def Dev.vcSize (d : Dev) (k v : Nat) : Nat := d.get (vcBufFld v) k
def Dev.nvc (d : Dev) (k : Nat) : Nat := d.get DRL_CFG_NVC k + 1

def Dev.encReq (d : Dev) (k : Nat) : Bool := d.on DRL_CFG_ENC_REQ k

/-- NAK(E) sent; it is outstanding from now on (R171). -/
def Dev.sendNak (d : Dev) (k : Nat) : Dev :=
  (d.sendPkt k (pktNak (d.rxE k))).modLink k fun l => { l with nakOut := true }

/-- ACK(E − 1) sent (R172). -/
def Dev.sendAck (d : Dev) (k : Nat) : Dev :=
  (d.sendPkt k (pktAck ((d.rxE k + 4095) % 4096))).modLink k fun l => { l with accSinceAck := 0 }

/-- CREDIT for VC v sent (R178). -/
def Dev.sendCredit (d : Dev) (k v : Nat) : Dev :=
  let l := d.link k
  (d.sendPkt k (pktCredit v (SMap.get 0 l.cum v) l.consumed)).modLink k fun l =>
    { l with freed := SMap.set 0 l.freed v 0 }

end Sys2Proof.Machine
end

