-- ==== Sys2Proof/Machine/OvenOps.lean ====
section
/-! DEFINITION. Port forms, the Oven's account of cells, its lists, and the moves of a message through it that raise
no fault: store, link, deliver, discard, flush (chapters 1, 3 and 6). -/

namespace Sys2Proof.Machine

/-! ## Port forms (R16 to R19, R74, R75) -/

/-- An event of source `s` in instance `i` is to be raised once the quarantine or reset that causes it has acted. -/
def Dev.noteDue (d : Dev) (s : FSrc) (i : Nat) (w : Who := {}) : Dev := { d with flt := { d.flt with due := d.flt.due ++ [(s, i, w)] } }

/-- Committed mode of an octet: 0 OFF, 1 CXL, 2 DUNRUN. -/
def Dev.octMode (d : Dev) (o : Nat) : Nat := d.get SDS_MODE_MODE o
def Dev.octForm (d : Dev) (o : Nat) : Nat := d.get SDS_MODE_FORM o

/-- Octets 2k and 2k + 1 form an x16 port (R75). -/
def Dev.x16 (d : Dev) (o : Nat) : Bool :=
  let a := o / 2 * 2
  d.octMode a = 1 && d.octForm a = 2 && d.octMode (a + 1) = 1 && d.octForm (a + 1) = 2
    && d.get SDS_MODE_MAXRATE a = d.get SDS_MODE_MAXRATE (a + 1)

def Dev.portDunrun (d : Dev) (p : Nat) : Bool := d.octMode (p / 2) = 2

/-- The port exists under the committed octet forms (R17 to R19). -/
def Dev.portAvail (d : Dev) (p : Nat) : Bool :=
  let o := p / 2
  if d.x16 o then p % 4 = 0
  else if d.octMode o = 2 then p % 2 = 0
  else if d.octMode o = 1 && d.octForm o = 1 then p % 2 = 0
  else true

/-- The octets whose lanes a port uses. -/
def Dev.portOctets (d : Dev) (p : Nat) : List Nat :=
  if d.x16 (p / 2) then [p / 2 / 2 * 2, p / 2 / 2 * 2 + 1] else [p / 2]

/-- The physical lanes of octet `o` that serve port `p` (Table 3-1). -/
def Dev.portLanes (d : Dev) (p o : Nat) : List Nat :=
  if d.octMode o = 2 then List.range 9
  else if d.x16 o || d.octForm o = 1 then List.range 8
  else if p % 2 = 0 then [0, 1, 2, 3] else [4, 5, 6, 7]

/-- The ports of an octet that exist. -/
def Dev.octPorts (d : Dev) (o : Nat) : List Nat :=
  if d.x16 o then [o / 2 * 4] else [2 * o, 2 * o + 1].filter d.portAvail

/-- PRT_CFG.ROLE as it reads: 3 while the octet runs Dunrun (R122). -/
def Dev.role (d : Dev) (p : Nat) : Nat := if d.portDunrun p then 3 else d.get PRT_CFG_ROLE p

def Dev.isUp (d : Dev) (p : Nat) : Bool := p < 128 && d.role p = 1
def Dev.isDown (d : Dev) (p : Nat) : Bool := p < 128 && d.role p = 2

/-- The Dunrun link bound to an octet (R154). -/
def Dev.linkOf (d : Dev) (o : Nat) : Option Nat :=
  (List.range 32).find? fun k => d.on DRL_ATTACH_VALID k && d.get DRL_ATTACH_OCTET k = o

/-- The Dunrun port of link k, when its octet is in Dunrun mode. -/
def Dev.linkPort (d : Dev) (k : Nat) : Nat := 2 * d.get DRL_ATTACH_OCTET k

/-- DRL page available (R155). -/
def Dev.linkAvail (d : Dev) (k : Nat) : Bool :=
  d.on DRL_ATTACH_VALID k && d.octMode (d.get DRL_ATTACH_OCTET k) = 2

/-- PGSTAT.AVAIL of a page (R43, R155). -/
def Dev.avail (d : Dev) (g : Pg) : Bool :=
  match g.blk with
  | .prt | .egs | .pol | .gte | .acu => d.portAvail g.inst
  | .drl => d.linkAvail g.inst
  | _ => true

/-- State field of a port in SDS_STAT: STATE_A, or STATE_B for port 2o + 1. -/
def stateFld (p : Nat) : Fld := if p % 2 = 0 then SDS_STAT_STATE_A else SDS_STAT_STATE_B
def rateFld (p : Nat) : Fld := if p % 2 = 0 then SDS_STAT_RATE_A else SDS_STAT_RATE_B
def widthFld (p : Nat) : Fld := if p % 2 = 0 then SDS_STAT_WIDTH_A else SDS_STAT_WIDTH_B

def Dev.portState (d : Dev) (p : Nat) : Nat := d.get (stateFld p) (p / 2)

/-- Write a port's training state in every octet it uses. -/
def Dev.setPortState (d : Dev) (p s : Nat) : Dev :=
  (d.portOctets p).foldl (fun d o => d.put (stateFld p) o s) d

/-! ## Lists (Tables 6-3, 6-4) -/

/-- Table 6-4: the class joins the P list. -/
def clsP (c : Nat) : Bool := [0x0, 0x2, 0x5, 0x6, 0x8, 0xA, 0xC, 0xE].contains c

/-- Table 6-4: home channel, RSP 0, WB 1, REQ 2. -/
def clsChan (c : Nat) : Nat := if [0x2, 0x5, 0x6, 0x8, 0xA, 0xC, 0xE].contains c then 0 else if c = 0x4 then 1 else 2

/-- Response classes of Table 5-4. -/
def clsRsp (c : Nat) : Bool := [0x2, 0x5, 0x6, 0x8, 0xA, 0xC, 0xE].contains c

/-- Length before padding (R204): protocol header and payload. -/
def Msg.bytes (m : Msg) : Nat := m.body.hdrLen + m.body.data.length

/-- The message is held in extended form: header and payload exceed 512 bytes, or the header one cell's share (R204). -/
def Msg.isLong (m : Msg) : Bool := m.bytes > 512 || m.body.hdrLen > 84

/-- LEN (R204): cells − 1; 7 in extended form. -/
def Msg.lenOf (m : Msg) : Nat := if m.bytes > 512 then 7 else (max 1 m.bytes - 1) / 64

/-- The stored message is in the queue of (source, destination, TC or channel). -/
def Stored.sameQ (x : Stored) (src dest tc cls : Nat) : Bool :=
  x.m.src = src && x.dest = dest && !x.taken &&
    (if dest < 128 then x.m.tc = tc else clsChan x.m.cls = clsChan cls)

def Dev.queueLen (d : Dev) (src dest tc cls : Nat) : Nat :=
  (d.core.oven.filter (·.sameQ src dest tc cls)).length

/-! ## The account of cells (R216 to R220) -/

/-- Cells a stored message still holds. -/
def Stored.held (x : Stored) : Nat := (x.cells.filter (fun c => !c.read)).length + x.late + x.unseen

/-- OCC of a source. -/
def Dev.occ (d : Dev) (src : Nat) : Nat := ((d.core.oven.filter (·.m.src = src)).map Stored.held).sum

/-- Cells in use in a slice. -/
def Dev.sliceUsed (d : Dev) (s : Nat) : Nat :=
  ((d.core.oven.filter (fun x => srcSlice x.m.src = s)).map Stored.held).sum

def Dev.retired (d : Dev) (s b : Nat) : Bool := bit (d.get OVN_RETIRE_MAP s) b

/-- Cells of the banks in service (R217). -/
def Dev.inService (d : Dev) (s : Nat) : Nat := 3072 * ((List.range 16).filter (fun b => !d.retired s b)).length

def Dev.sealed (d : Dev) (s : Nat) : Bool := d.on OVN_CFG_SEALED s

/-- Cells of a link's enabled VC buffers. -/
def Dev.vcCells (d : Dev) (k : Nat) : Nat :=
  ((List.range (d.get DRL_CFG_NVC k + 1)).map fun v => d.get (vcBufFld v) k).sum

/-- VC buffer cells reserved for the Dunrun ports of a slice. -/
def Dev.vcReserved (d : Dev) (s : Nat) : Nat :=
  ((List.range 4).map fun i =>
    let o := 4 * s + i
    if d.octMode o = 2 then match d.linkOf o with | some k => d.vcCells k | none => 0 else 0).sum

/-- OVN_POOL.RESERVED (R217, R220). -/
def Dev.reserved (d : Dev) (s : Nat) : Nat :=
  (if d.sealed s then 0 else
    ((List.range 8).map fun i =>
      let p := 8 * s + i
      if d.portAvail p && !d.portDunrun p then d.get OVN_PORTCFG_MIN s i else 0).sum + d.get OVN_CFG_INT_MIN s)
    + d.vcReserved s

/-- MIN and ALPHA code of a source outside sealed mode. -/
def Dev.minOf (d : Dev) (src : Nat) : Nat :=
  if src < 128 then d.get OVN_PORTCFG_MIN (src / 8) (src % 8) else d.get OVN_CFG_INT_MIN (src - 128)
def Dev.alphaOf (d : Dev) (src : Nat) : Nat :=
  if src < 128 then d.get OVN_PORTCFG_ALPHA (src / 8) (src % 8) else d.get OVN_CFG_INT_ALPHA (src - 128)

/-- A valid Oven partition entry of a domain in a slice: cells and ALPHA (R246). -/
def Dev.partition (d : Dev) (s dom : Nat) : Option (Nat × Nat) :=
  (List.range 256).findSome? fun i =>
    let w := d.tab 0x09 s i
    if bits w 10 1 = 1 && bits w 0 10 = dom then some (bits w 16 16, bits w 32 4) else none

/-- Cells of all valid partitions of a slice. -/
def Dev.partCells (d : Dev) (s : Nat) : Nat :=
  ((List.range 256).map fun i => let w := d.tab 0x09 s i; if bits w 10 1 = 1 then bits w 16 16 else 0).sum

/-- Cells a source (or all sources of the slice) holds in a partition, or in the remainder. -/
def Dev.partUsed (d : Dev) (s : Nat) (src : Option Nat) (dom : Option Nat) : Nat :=
  ((d.core.oven.filter fun x =>
      srcSlice x.m.src = s && (src = none || src = some x.m.src) && x.m.link = none &&
      (match dom with
       | some k => x.m.domain = k
       | none => (d.partition s x.m.domain).isNone)).map Stored.held).sum

/-- Cells the Dunrun ports of a slice hold in their VC buffers. -/
def Dev.vcUsed (d : Dev) (s : Nat) : Nat :=
  ((d.core.oven.filter fun x => srcSlice x.m.src = s && x.m.link.isSome).map Stored.held).sum

/-- SHARED_FREE of a slice: of the shared pool, or of the remainder in sealed mode (R217, R220). (DESIGN CHOICE, log entry 113) -/
def Dev.sharedFree (d : Dev) (s : Nat) : Nat :=
  if d.sealed s then d.inService s - d.partCells s - d.reserved s - d.partUsed s none none
  else
    let extra := ((List.range 8).map fun i => let p := 8 * s + i; if d.portDunrun p then 0 else d.occ p - d.minOf p).sum
      + (d.occ (128 + s) - d.minOf (128 + s))
    d.inService s - d.reserved s - extra

/-- floor(2^(code − 6) × x) (R217). -/
def alphaMul (code x : Nat) : Nat := x * 2 ^ code / 64

/-- The admission rule of R217 for `n` more cells. -/
def admitRule (occ n mn alpha sf : Nat) : Bool :=
  (occ + n - mn ≤ alphaMul alpha sf) && sf ≥ (occ + n - mn) - (occ - mn)

/-- R214, R216 to R220, R243: may this message of source `m.src` toward `dest` be admitted now? (DESIGN CHOICE, log entry 113) -/
def Dev.canAdmit (d : Dev) (m : Msg) (dest : Nat) : Bool :=
  let s := srcSlice m.src
  let n := m.len + 1
  (d.queueLen m.src dest m.tc m.cls < 512) &&
  (d.inService s ≥ d.sliceUsed s + n) &&
  (if m.link.isSome then true
   else if d.sealed s then
     match d.partition s m.domain with
     | some (cells, a) => admitRule (d.partUsed s (some m.src) (some m.domain)) n 0 a (cells - d.partUsed s none (some m.domain))
     | none => admitRule (d.partUsed s (some m.src) none) n 0 (d.alphaOf m.src) (d.sharedFree s)
   else admitRule (d.occ m.src) n (d.minOf m.src) (d.alphaOf m.src) (d.sharedFree s))

/-! ## Free cells (R208) -/

/-- A cell of a bank is in use. -/
def Dev.cellUsed (d : Dev) (s b i : Nat) : Bool :=
  d.core.oven.any fun x => srcSlice x.m.src = s && x.cells.any fun c => c.bank = b && c.idx = i && !c.read

def Dev.bankUsed (d : Dev) (s b : Nat) : Nat :=
  ((d.core.oven.filter fun x => srcSlice x.m.src = s).map fun x =>
    (x.cells.filter fun c => c.bank = b && !c.read).length).sum

/-- First unused index of a bank at or after a starting one, cyclically. -/
def Dev.pickIdx (d : Dev) (s b start : Nat) : Nat :=
  ((List.range 3072).find? fun i => !d.cellUsed s b ((start + i) % 3072)).map (fun i => (start + i) % 3072) |>.getD 0

/-- First bank in service with a free cell, from `b0` cyclically, in which no earlier cell of the message lies and which no other
write of the cycle takes: the sources of a cycle present their cells `k` together. -/
def Dev.pickBank (d : Dev) (s b0 : Nat) (used : List Nat) (k : Nat) : Option Nat :=
  ((List.range 16).map fun i => (b0 + i) % 16).find? fun b =>
    !d.retired s b && !used.contains b && d.bankUsed s b < 3072 && !d.core.written.contains (8 * (16 * s + b) + k)

/-! ## Cell contents and the sideband (R204, R205) -/

/-- `n` bytes: the list cut, or padded with zeros. -/
def fitBytes (n : Nat) (l : Bytes) : Bytes := l.take n ++ List.replicate (n - l.length) 0

/-- The message's protocol header. (DESIGN CHOICE, log entry 9) -/
def Msg.header (m : Msg) : Bytes := fitBytes m.body.hdrLen (Config.bodyCells m.cls m.body)

/-- Bytes of cell `k`: those that came on a Dunrun link, else header and payload, or the payload alone in extended form, padded
with zeros (R163, R204). -/
def Msg.cellData (m : Msg) (k : Nat) : Bytes :=
  match m.wire with
  | some w => fitBytes 64 (w.2.drop (64 * k))
  | none => fitBytes 64 ((if m.xh then m.body.data else m.header ++ m.body.data).drop (64 * k))

/-- The header bytes beyond the cells of a message in extended form, as its Dunrun header extension holds them (R163). -/
def Msg.extBytes (m : Msg) : Bytes :=
  match m.wire with
  | some w => fitBytes 84 w.1
  | none => fitBytes 84 m.header

/-- Header-extension field of cell `k`: header bytes 12(k − 1) on of a message in extended form (R163, R205). -/
def Msg.cellExt (m : Msg) (k : Nat) : Bytes :=
  if k = 0 then [] else fitBytes 12 (if m.xh then m.extBytes.drop (12 * (k - 1)) else [])

/-- Sideband of cell `k`, 128 bits (Table 6-1, R205). -/
def Stored.sideband (x : Stored) (k : Nat) (c : Cell) : Nat :=
  let m := x.m
  let last := k = m.len || (m.tailBad && k + 1 = x.cells.length)
  let low := c.next + (if k = 0 then 2 ^ 16 else 0) + (if last then 2 ^ 17 + b2n m.tailBad * 2 ^ 18 else 0) + b2n m.poison * 2 ^ 19
    + b2n m.sf * 2 ^ 20
  if k = 0 then
    low + m.len * 2 ^ 21 + m.cls * 2 ^ 24 + m.tc * 2 ^ 28 + m.colour * 2 ^ 31 + m.hops * 2 ^ 33 + m.dst * 2 ^ 37 + m.srcG * 2 ^ 48
      + m.domain * 2 ^ 59 + m.epoch * 2 ^ 69 + m.ts * 2 ^ 85 + b2n m.int * 2 ^ 117 + m.fence * 2 ^ 118
  else low + b2n m.xh * 2 ^ 21 + leNat c.ext * 2 ^ 32

/-- A cell's place as NEXT holds it. -/
def Cell.place (c : Cell) : Nat := c.bank * 4096 + c.idx

/-! ## Storing (R208) -/

/-- The bank at which the search for the next cell begins: the starting bank, then the one after the previous cell's. -/
def Stored.from_ (x : Stored) : Nat := (x.cells.getLast?.map fun c => c.bank + 1).getD x.start

/-- Write up to `n` waiting cells of a message, each to the first bank that qualifies; a cell for which none does waits, and
the later ones behind it. The free index is the model's free value. (DESIGN CHOICE, log entry 11; DESIGN CHOICE, log entry 107) -/
def Dev.writeCells (d : Dev) (s : Nat) : Nat → Stored → Stored × Dev
  | 0, x => (x, d)
  | n + 1, x =>
    if x.late = 0 then (x, d)
    else match d.pickBank s x.from_ ((x.cells.filter fun c => !c.read).map Cell.bank) x.cells.length with
      | none => (x, d)
      | some b =>
        let k := x.cells.length
        let d : Dev := { d with core := { d.core with written := d.core.written ++ [8 * (16 * s + b) + k] } }
        let (inj, d) := d.injectAt .ovn s [OVN_F_CE.num, OVN_F_UE_DATA.num, OVN_F_UE_SIDEBAND.num, OVN_F_LIST_LOST.num] (some b)
        let c : Cell := { bank := b, idx := d.pickIdx s b (Config.cellPick (x.id * 8 + k) % 3072), data := x.m.cellData k,
                          ext := x.m.cellExt k, bad := inj }
        Dev.writeCells d s n { x with late := x.late - 1, cells := x.cells ++ [c] }

/-- Admit a message: reserve its cells and write those presented (R216, R208); it is not linked yet. -/
def Dev.store (d : Dev) (m : Msg) (dest seen : Nat) : Stored × Dev :=
  let s := srcSlice m.src
  let b0 := SMap.get 0 d.core.startBank s
  let (x, d) := d.writeCells s 8 { id := d.core.nextId, m := m, cells := [], start := b0, late := seen, unseen := m.len + 1 - seen, dest := dest }
  let d := { d with core := { d.core with oven := d.core.oven ++ [x], nextId := d.core.nextId + 1,
                                          startBank := SMap.set 0 d.core.startBank s ((b0 + 1) % 16) } }
  (x, (d.count .slc s 0x200).count .ovn s 0x200 x.cells.length)

def Dev.stored? (d : Dev) (id : Nat) : Option Stored := d.core.oven.find? (·.id = id)

def Dev.modStored (d : Dev) (id : Nat) (f : Stored → Stored) : Dev :=
  { d with core := { d.core with oven := d.core.oven.map fun x => if x.id = id then f x else x } }

def Dev.dropStored (d : Dev) (id : Nat) : Dev :=
  { d with core := { d.core with oven := d.core.oven.filter fun x => x.id ≠ id,
                                 partial_ := d.core.partial_.filter fun e => e.2 ≠ id } }

/-- The key of a VOQ's P counters. -/
def voqKey (src dest tc : Nat) : Nat := (src * 128 + dest) * 8 + tc

/-- Two stored messages of one list, or of one home-queue channel (Table 6-3). -/
def Stored.sameList (x y : Stored) : Bool :=
  y.m.src = x.m.src && y.dest = x.dest &&
    (if x.dest < 128 then y.m.tc = x.m.tc && clsP y.m.cls = clsP x.m.cls else clsChan y.m.cls = clsChan x.m.cls)

/-- Both copies of NEXT of a message's cells: the next cell of the message, and in the last one `after` (R205, R209). -/
def threadCells (after : Nat) : List Cell → List Cell
  | [] => []
  | [c] => [{ c with next := after, lnk := after }]
  | c :: e :: r => { c with next := e.place, lnk := e.place } :: threadCells after (e :: r)

/-- First cell of the message that follows `x` in its list, as NEXT holds it. -/
def Dev.afterOf (d : Dev) (x : Stored) : Nat :=
  let next := if x.linked && !x.taken && x.unseen = 0 && x.late = 0 then
      ((d.core.oven.dropWhile fun (y : Stored) => y.id ≠ x.id).drop 1).find? fun (y : Stored) => y.linked && !y.taken && x.sameList y
    else none
  ((next.bind fun y => y.cells.head?).map Cell.place).getD 0xFFFF

/-- NEXT of the slice's cells follows its lists, in sideband and link memory (R230, R243). -/
def Dev.rethread (d : Dev) (s : Nat) : Dev :=
  let f (x : Stored) : Stored := if srcSlice x.m.src = s then { x with cells := threadCells (d.afterOf x) x.cells } else x
  { d with core := { d.core with oven := d.core.oven.map f } }

/-- Link a stored message at the tail of its list, with its fence (R213, R230). -/
def Dev.linkStored (d : Dev) (id : Nat) : Dev :=
  match d.stored? id with
  | none => d
  | some x =>
    if x.linked then d else
    let k := voqKey x.m.src x.dest x.m.tc
    let pj := SMap.get 0 d.core.pj k
    let y : Stored := { x with linked := true, claim := false, m := { x.m with fence := pj } }
    let d : Dev := { d with core := { d.core with oven := d.core.oven.filter (fun z => z.id ≠ id) ++ [y] } }
    let d := if x.dest < 128 && clsP x.m.cls then
        { d with core := { d.core with pj := SMap.set 0 d.core.pj k ((pj + 1) % 1024) } } else d
    d.rethread (srcSlice x.m.src)

/-- A P-list message leaves its VOQ (R213). -/
def Dev.leaveList (d : Dev) (x : Stored) : Dev :=
  if x.dest < 128 && clsP x.m.cls && x.linked then
    let k := voqKey x.m.src x.dest x.m.tc
    { d with core := { d.core with pl := SMap.set 0 d.core.pl k ((SMap.get 0 d.core.pl k + 1) % 1024) } }
  else d

/-- The core has consumed a message that came on Dunrun in the link's present run of sequence numbers: its VC's CUM grows, and CREDIT is
sent at 64 cells freed (R178). -/
def Dev.consumeCredit (d : Dev) (m : Msg) : Dev :=
  match (m.link.filter fun k => (d.link k).session = m.sess) with
  | some k =>
    let n := SMap.get 0 (d.link k).freed m.vc + m.len + 1
    let d := d.modLink k fun l =>
      { l with cum := SMap.set 0 l.cum m.vc ((SMap.get 0 l.cum m.vc + m.len + 1) % 2 ^ 20),
               freed := SMap.set 0 l.freed m.vc n, consumed := some m.seq }
    if n ≥ 64 && d.lkState k = lkActive then d.sendCredit k m.vc else d
  | none => d

/-! ## Read requests at the bank arbiters (R248 to R250, R255, R257) -/

def destSlice (dest : Nat) : Nat := if dest < 128 then dest / 8 else dest - 128

/-- Rank of a TC: strict ones above, by TC; all others equal (R257). -/
def Dev.rankOf (d : Dev) (s tc : Nat) : Nat := if bit (d.get ARB_CFG_TCSTRICT s) tc then 8 + tc else 0

/-- The next unread cell of a message in delivery. -/
def Stored.nextCell (x : Stored) : Option Cell := x.cells.find? fun c => !c.read

/-- Cell reads pending from slice s for destination slice t, in the round-robin order of R249; of several of one internal endpoint the one
first stored comes first. (DESIGN CHOICE, log entry 138) -/
def Dev.pendingReads (d : Dev) (s t : Nat) : List (Nat × Stored) :=
  let xs := d.core.oven.filter fun x => x.taken && !x.express && srcSlice x.m.src = s && destSlice x.dest = t && x.nextCell.isSome
  let last := SMap.get 8 d.core.rrDest (16 * s + t)
  let idx (x : Stored) : Nat := if x.dest < 128 then x.dest % 8 else 8
  ((List.range 9).map fun i => (last + 1 + i) % 9).flatMap fun k => (xs.filter fun x => idx x = k).map fun x => (k, x)

/-- Destination slice t presents, or replaces, its request at the arbiter of slice s (R249); its round-robin place moves as it does. (DESIGN CHOICE, log entry 138) -/
def Dev.presentReq (d : Dev) (s t : Nat) : Dev :=
  let ps := d.pendingReads s t
  let best := ps.foldl (fun (acc : Option (Nat × Stored)) p =>
    match acc with
    | none => some p
    | some q => if d.rankOf s p.2.m.tc > d.rankOf s q.2.m.tc then some p else some q) none
  match best with
  | none => d
  | some (k, x) =>
    match x.nextCell with
    | none => d
    | some c =>
      let had := d.on ARB_REQ_VALID s t
      if had && d.rankOf s x.m.tc ≤ d.rankOf s (d.get ARB_REQ_TC s t) then d
      else
        let age := if !had then 0 else if d.sealed s && d.get ARB_REQ_DOMAIN s t ≠ x.m.domain then 0 else d.get ARB_REQ_AGE s t
        let d := { d with core := { d.core with rrDest := SMap.set 8 d.core.rrDest (16 * s + t) k } }
        let d := ((d.put ARB_REQ_VALID s 1 t).put ARB_REQ_BANK s c.bank t).put ARB_REQ_CELL s c.idx t
        let d := ((d.put ARB_REQ_TC s x.m.tc t).put ARB_REQ_AGE s age t).put ARB_REQ_DOMAIN s x.m.domain t
        let (inj, d) := d.injectAt .arb s [ARB_F_REQ_PARITY.num] none
        if inj.isSome then { d with core := { d.core with reqBad := d.core.reqBad ++ [16 * s + t] } } else d

/-- The request is gone: its fields read zero. -/
def Dev.clearReq (d : Dev) (s t : Nat) : Dev :=
  let d : Dev := { d with core := { d.core with reqBad := d.core.reqBad.filter (· ≠ 16 * s + t) } }
  ((((((d.put ARB_REQ_VALID s 0 t).put ARB_REQ_BANK s 0 t).put ARB_REQ_CELL s 0 t).put ARB_REQ_TC s 0 t).put ARB_REQ_AGE s 0 t).put
    ARB_REQ_DOMAIN s 0 t)

/-- Destination slices present what they have pending at the arbiter of slice s. -/
def Dev.presentAll (d : Dev) (s : Nat) (ts : List Nat) : Dev := ts.foldl (fun d t => d.presentReq s t) d

/-- Requesters whose request at its source slice's arbiter names an unread cell of a message. -/
def Dev.requestersOf (d : Dev) (x : Stored) : List Nat :=
  let s := srcSlice x.m.src
  (List.range 16).filter fun r => d.on ARB_REQ_VALID s r &&
    x.cells.any fun c => !c.read && c.bank = d.get ARB_REQ_BANK s r && c.idx = d.get ARB_REQ_CELL s r

/-- The cycle's writes in the slice are over (R208). -/
def Dev.cycleOver (d : Dev) (s : Nat) : Dev :=
  { d with core := { d.core with written := d.core.written.filter fun k => k / 128 ≠ s } }

/-- Waiting cells of the slice's messages are written as banks come to qualify (R208), in order of admission, and NEXT follows. -/
def Dev.writeLate (d : Dev) (s : Nat) : Dev :=
  ((((d.core.oven.filter fun x => 0 < x.late && srcSlice x.m.src = s).map (·.id)).foldl (fun d id =>
    match d.stored? id with
    | none => d
    | some x =>
      let (y, d) := d.writeCells s 8 x
      if y.cells.length = x.cells.length then d
      else
        let d := (d.modStored id fun _ => y).count .ovn s 0x200 (y.cells.length - x.cells.length)
        if y.taken then d.presentReq s (destSlice y.dest) else d) d).rethread s).cycleOver s

/-- Waiting cells of every slice. -/
def Dev.lateAll (d : Dev) : Dev := (List.range 16).foldl (fun d s => d.writeLate s) d

/-! ## Flushing and discarding -/

/-- A field of a page whose commit binds at a later event: the previous copy until PGEPOCH.APPLIED sets. -/
def Dev.getF (d : Dev) (f : Fld) (i : Nat) (j : Nat := 0) : Nat :=
  if d.on (PGEPOCH_APPLIED f.reg.blk) i then d.get f i j
  else bits (SMap.get (f.reg.resetAt i j) d.prev (f.reg.addr i j)) f.lo f.width

/-- A word of such a page's table. -/
def Dev.tabF (d : Dev) (t inst index : Nat) (w : Nat := 0) : W64 :=
  let g := tabOwner t inst
  if d.on (PGEPOCH_APPLIED g.blk) g.inst then d.tab t inst index w
  else SMap.get (tabReset t index w) d.tabPrev (tkey t inst index w)

/-- L charged for a message: its bytes and the port's overhead in force (R279, R281). -/
def Dev.chargeOf (d : Dev) (q : Nat) (m : Msg) : Nat := m.bytes + d.getF EGS_CFG_OVH q

/-- A message charged to a shaper of port q is discarded under R234 or flushed: its L comes back at the next refill (R282). -/
def Dev.refund (d : Dev) (q : Nat) (m : Msg) : Dev :=
  if m.charged = 0 then d
  else d.setShaper q m.tc { d.shaper q m.tc with owed := (d.shaper q m.tc).owed + m.charged }

/-- Messages a source holds for a destination (R221): the heads held. Their destination is in `dst`'s decode, which
the model takes from the message's own decoded port. -/
def Dev.relOf (d : Dev) (src : Nat) : List Msg := SMap.get [] d.core.rel src

/-! ## Routes and destinations (R193, R194) -/

/-- DST as a Dunrun header and the route table number it (R338). -/
def Msg.gdst (m : Msg) : Nat := if m.int then m.dst / 128 * 128 + m.dst % 16 * 8 else m.dst

/-- Candidate j of a route entry: its link, when valid. -/
def routeCand (e : W64) (j : Nat) : Option Nat := if bits e (6 * j + 5) 1 = 1 then some (bits e (6 * j) 5) else none

/-- A link usable for destination `dst` (R194). -/
def Dev.candOk (d : Dev) (dst k : Nat) : Bool :=
  (d.lkState k = lkActive || d.lkState k = lkRetrain) && !(d.link k).removed.contains dst && !(d.link k).gone.contains dst

/-- The link a message for global port `dst` takes (R194). -/
def Dev.route (d : Dev) (src dst : Nat) : Option Nat :=
  let e := d.tab 0x01 0 dst
  let valid := (List.range 4).filterMap (routeCand e)
  match bits e 24 2 with
  | 1 => valid.find? (d.candOk dst)
  | 2 =>
    let n := valid.length
    let h := Config.spread src dst % max 1 n
    ((valid.drop h) ++ (valid.take h)).find? (d.candOk dst)
  | _ => none

/-- Destination of a message held at the head of a source, once decoded: `Msg.dst` read as a local destination. -/
def Dev.localDest (d : Dev) (m : Msg) : Option Nat :=
  if m.int then (if m.dst / 128 = d.get DEV_FABRIC_DEVID then some (128 + m.dst % 16) else none)
  else if m.dst / 128 = d.get DEV_FABRIC_DEVID then some (m.dst % 128) else none

/-- Local destination of a message: a port, 128 + slice, or the Dunrun port its route takes (R193, R194). (DEDUCED, log entry 103) -/
def Dev.destOf (d : Dev) (m : Msg) : Option Nat :=
  match d.localDest m with
  | some x => some x
  | none => (d.route m.srcG m.gdst).map d.linkPort

/-- Messages of TC t left for port q, queued or held (R286). -/
def Dev.anyLeft (d : Dev) (q t : Nat) : Bool :=
  d.core.oven.any (fun x => x.dest = q && x.m.tc = t && !x.taken) ||
  d.core.held.any fun src => match d.relOf src with
    | m :: _ => m.ready && d.destOf m = some q && m.tc = t
    | [] => false

/-- Port q has no message of TC t left: DEF is no longer above zero (R286). -/
def Dev.defLeft (d : Dev) (q t : Nat) : Dev :=
  if q ≥ 128 || d.anyLeft q t then d
  else d.setEgress q { d.egress q with def_ := SMap.set 0 (d.egress q).def_ t (min (SMap.get 0 (d.egress q).def_ t) 0) }

/-- Remove a stored message without delivering it: the requests that name its cells are withdrawn, and what else their
requesters have pending is presented (R250); `credit`: its Dunrun VC's CUM grows as for one consumed. -/
def Dev.discard (d : Dev) (x : Stored) (credit : Bool) : Dev :=
  let s := srcSlice x.m.src
  let rs := d.requestersOf x
  let d := rs.foldl (fun d r => d.clearReq s r) d
  let d := if x.taken then d else d.leaveList x
  let d := if x.m.fid = 0 then d else d.endFlight x.m.fid
  let d := if credit then d.consumeCredit x.m else d
  (((d.dropStored x.id).presentAll s rs).writeLate s).defLeft x.dest x.m.tc

def Dev.setRel (d : Dev) (src : Nat) (l : List Msg) : Dev :=
  { d with core := { d.core with rel := SMap.set [] d.core.rel src l } }
/-- A message joins those its source presents; one of an internal endpoint has no check to pass (R227). -/
def Dev.pushRel (d : Dev) (m : Msg) : Dev :=
  let m := if m.link.isSome then m else { m with len := m.lenOf, xh := m.isLong, wire := none, charged := 0 }
  d.setRel m.src (d.relOf m.src ++ [{ m with ready := m.ready || m.src ≥ 128 }])
def Dev.setHeld (d : Dev) (src : Nat) (on : Bool) : Dev :=
  let h := d.core.held
  if on then { d with core := { d.core with held := if h.contains src then h else h ++ [src] } }
  else { d with core := { d.core with held := h.filter (· ≠ src), full := d.core.full.filter fun k => k % 1000 ≠ src } }

/-- Source `src` presents, decoded, a message for destination q. -/
def Dev.holdsFor (d : Dev) (q src : Nat) : Bool :=
  match d.relOf src with
  | m :: _ => m.ready && d.destOf m = some q
  | [] => false

/-- A head that is held for port q is dropped (R149). -/
def Dev.flushHead (d : Dev) (q src : Nat) : Dev :=
  match d.relOf src with
  | m :: r => (((d.setRel src r).setHeld src false).consumeCredit m).defLeft q m.tc
  | [] => d

/-- Flush the messages queued for port `q` that `sel` names, and the heads of the sources `hs`, held for it (R149, R200, R214, R221):
cells freed, link credit returned, shapers repaid (R282); the number flushed. -/
def Dev.flushSel (d : Dev) (q : Nat) (sel : Msg → Bool) (hs : List Nat) : Nat × Dev :=
  let xs := d.core.oven.filter fun x => x.dest = q && sel x.m
  let d1 := xs.foldl (fun d x => (d.refund q x.m).discard x true) d
  let ms := (d1.port q).tx.filter sel
  let d2 := (ms.foldl (fun d m => d.refund q m) d1).modPort q fun p => { p with tx := p.tx.filter fun m => !sel m }
  (xs.length + ms.length + hs.length, hs.foldl (fun d src => d.flushHead q src) d2)

/-- Flush every message queued for port `q`, and the heads of the sources `hs`. -/
def Dev.flushWith (d : Dev) (q : Nat) (hs : List Nat) : Nat × Dev := d.flushSel q (fun _ => true) hs

/-- Sources whose heads are held for port q. -/
def Dev.heldFor (d : Dev) (q : Nat) : List Nat := d.core.held.filter (d.holdsFor q)

/-- Flush every message queued for port `q`, held heads among them. -/
def Dev.flushDest (d : Dev) (q : Nat) : Nat × Dev := d.flushWith q (d.heldFor q)

/-- Messages partly received on a port are discarded without release (R131). -/
def Dev.dropIngress (d : Dev) (p : Nat) : Dev :=
  d.modPort p fun x => { x with parts := [], macWait := [], rxHold := false, rxHalf := false }

/-- Released messages of a port that the core has not admitted are discarded, their accesses over (Table 18-3). -/
def Dev.dropReleased (d : Dev) (p : Nat) : Dev :=
  let d := (d.relOf p).foldl (fun d m => if m.fid = 0 then d else d.endFlight m.fid) d
  (d.setRel p []).setHeld p false

/-! ## Delivery -/

/-- Hand a message to its destination: a port's link layer, or the home-queue channel of an internal endpoint. An
answer ends the read it answers (Table 15-7). -/
def Dev.handOver (d : Dev) (dest : Nat) (m : Msg) : Dev :=
  let d := if clsRsp m.cls && m.fid ≠ 0 then d.endFlight m.fid else d
  if dest < 128 then d.modPort dest fun p => { p with tx := p.tx ++ [m] }
  else
    let k := 3 * (dest - 128) + clsChan m.cls
    { d with core := { d.core with arrived := SMap.set [] d.core.arrived k (SMap.get [] d.core.arrived k ++ [m]) } }

/-- Selection already counted the message out of its list. -/
def Dev.leaveListIf (d : Dev) (x : Stored) : Dev := if x.taken then d else d.leaveList x

/-- All cells of a stored message have been read and its LAST cell is good: it is delivered and its cells are freed. -/
def Dev.deliver (d : Dev) (x : Stored) : Dev :=
  (((((d.leaveListIf x).dropStored x.id).handOver x.dest x.m).consumeCredit x.m).writeLate (srcSlice x.m.src)).defLeft x.dest x.m.tc

def Dev.arrivedAt (d : Dev) (h ch : Nat) : List Msg := SMap.get [] d.core.arrived (3 * h + ch)
def Dev.setArrived (d : Dev) (h ch : Nat) (l : List Msg) : Dev :=
  { d with core := { d.core with arrived := SMap.set [] d.core.arrived (3 * h + ch) l } }

/-! ## Eligibility (R223, Table 6-5) -/

/-- Precision mode of a port (R290). -/
def Dev.precision (d : Dev) (q : Nat) : Bool := q < 128 && d.on EGS_CFG_MODE q

/-- A linked message is eligible for its destination by its cells (Table 6-5). -/
def Dev.cellsEligible (d : Dev) (x : Stored) : Bool :=
  let full := x.unseen = 0 && x.late = 0 && x.m.last
  if x.dest ≥ 128 then !x.cells.isEmpty
  else if d.portDunrun x.dest && x.m.link.isNone && !d.precision x.dest then !x.cells.isEmpty
  else full && !x.m.tailBad

/-- Head of the P list (`p`) or N list of a VOQ: oldest linked, not taken. -/
def Dev.voqHead (d : Dev) (src q t : Nat) (p : Bool) : Option Stored :=
  d.core.oven.find? fun x => x.m.src = src && x.dest = q && x.m.tc = t && x.linked && !x.taken && clsP x.m.cls = p

/-- The message R225 would take from a VOQ among those the link layer takes (`ok`): the N head when eligible (R213), otherwise
the P head. -/
def Dev.eligibleHead (d : Dev) (src q t : Nat) (ok : Stored → Bool) : Option Stored :=
  let k := voqKey src q t
  let nOk := (d.voqHead src q t false).filter fun x =>
    d.cellsEligible x && (SMap.get 0 d.core.pl k + 1024 - x.m.fence) % 1024 < 512 && ok x
  match nOk with
  | some x => some x
  | none => (d.voqHead src q t true).filter fun x => d.cellsEligible x && ok x

/-- Head of a home-queue channel. -/
def Dev.homeHead (d : Dev) (src h ch : Nat) : Option Stored :=
  (d.core.oven.find? fun x => x.m.src = src && x.dest = 128 + h && clsChan x.m.cls = ch && x.linked && !x.taken).filter
    d.cellsEligible

/-- Destinations: a port is one; an internal endpoint is one per channel. In delivery or selected there. -/
def Dev.takenAt (d : Dev) (dest ch : Nat) : List Stored :=
  d.core.oven.filter fun x => x.taken && x.dest = dest && (dest < 128 || clsChan x.m.cls = ch)

/-- R226: the destination holds no message in delivery and none selected. -/
def Dev.idle (d : Dev) (dest ch : Nat) : Bool := (d.takenAt dest ch).isEmpty

end Sys2Proof.Machine
end

