-- ==== Sys2Proof/Machine/DunrunOps.lean ====
section
/-! DEFINITION. Dunrun: message packets, routes, and the moves of a link that raise no fault (chapter 5). -/

namespace Sys2Proof.Machine

/-! ## Message packets (Table 5-3) -/

/-- DST of a received header in the form of Table 6-1. -/
def Msg.fromGdst (m : Msg) : Msg :=
  if m.cls = 0xD || m.cls = 0xE || m.cls = 0xF then
    { m with int := true, dst := m.dst / 128 * 128 + m.dst % 128 / 8 }
  else m

/-- A message packet (Table 5-3) with its tail. -/
def msgPacket (m : Msg) (vc seq : Nat) (retx : Bool) : Bytes :=
  let h := 1 + vc * 2 ^ 4 + m.len * 2 ^ 8 + seq * 2 ^ 12 + m.gdst * 2 ^ 24 + m.srcG * 2 ^ 35 + m.domain * 2 ^ 46
    + m.tc * 2 ^ 56 + b2n m.poison * 2 ^ 59 + b2n retx * 2 ^ 60 + b2n m.sf * 2 ^ 61 + b2n m.xh * 2 ^ 62
    + m.cls * 2 ^ 64 + m.colour * 2 ^ 68 + m.hops * 2 ^ 72 + m.ts % 2 ^ 32 * 2 ^ 80
  let h14 := leBytes 14 h
  let hb := h14 ++ leBytes 2 (crc16 h14)
  let body := (if m.xh then m.extBytes else []) ++ (List.range (m.len + 1)).flatMap m.cellData
  hb ++ body ++ leBytes 4 (crc32c (hb ++ body))

/-- The same packet marked a replayed copy (R173). -/
def retxPacket (b : Bytes) : Bytes :=
  if pktType b = 0x1 && fld (pktNat b) 60 1 = 0 then
    let h14 := leBytes 14 (leNat (b.take 14) + 2 ^ 60)
    let hb := h14 ++ leBytes 2 (crc16 h14)
    let body := (b.drop 16).take (b.length - 20)
    hb ++ body ++ leBytes 4 (crc32c (hb ++ body))
  else b

/-- Bytes before the payload cells of the packet whose header stands at the front. -/
def pktHead (b : Bytes) : Nat := 16 + (if fld (pktNat b) 62 1 = 1 then 84 else 0)

/-- Header extension and payload cells of a packet, as far as they have come (R163). -/
def pktWire (b : Bytes) : Bytes × Bytes :=
  ((b.drop 16).take (pktHead b - 16), (b.drop (pktHead b)).take (64 * (fld (pktNat b) 8 3 + 1)))

/-- The message a received packet's header describes (R163), with its payload read back. -/
def msgOfPacket (b : Bytes) (k src : Nat) : Msg :=
  let n := pktNat b
  let cls := fld n 64 4
  let r : Msg := {
    cls := cls, src := src, srcG := fld n 35 11, dst := fld n 24 11, len := fld n 8 3, tc := fld n 56 3,
    domain := fld n 46 10, colour := fld n 68 2, hops := fld n 72 4, ts := fld n 80 32, poison := fld n 59 1 = 1,
    sf := fld n 61 1 = 1, xh := fld n 62 1 = 1, vc := fld n 4 3, seq := fld n 12 12, link := some k,
    wire := some (pktWire b), body := Config.cellsBody cls ((b.drop 16).take (b.length - 20)) }
  r.fromGdst

/-- That message on link k, in the link's present run of sequence numbers. -/
def Dev.packetMsg (d : Dev) (k : Nat) (b : Bytes) : Msg := { msgOfPacket b k (d.linkPort k) with sess := (d.link k).session }

/-- The message whose first `n` payload cells have come: its first cell gives its header (R170). (DESIGN CHOICE, log entry 9) -/
def Dev.partMsg (d : Dev) (k : Nat) (b : Bytes) (n : Nat) : Msg :=
  let m := d.packetMsg k (b.take (pktHead b + 64 * n))
  { m with last := false, body := Config.headOf m.cls ((pktWire b).1 ++ (pktWire b).2.take 64) }

def pktTailOk (b : Bytes) : Bool :=
  leNat (b.drop (b.length - 4)) = crc32c (b.take (b.length - 4))

/-! ## Routes (R193 to R199) -/

/-- Global ports this device can reach over Dunrun now. -/
def Dev.reach (d : Dev) : List Nat :=
  (List.range 2048).filter fun t => let e := d.tab 0x01 0 t
    (bits e 24 2 = 1 || bits e 24 2 = 2) && ((List.range 4).filterMap (routeCand e)).any (d.candOk t)

/-- Contiguous runs of an ascending list, each at most 128 long: first and count. -/
def runsOf (l : List Nat) : List (Nat × Nat) :=
  (l.foldl (fun (acc : List (Nat × Nat)) x =>
    match acc with
    | (a, n) :: r => if a + n = x && n < 128 then (a, n + 1) :: r else (x, 1) :: (a, n) :: r
    | [] => [(x, 1)]) []).reverse

/-- Send ROUTE.WITHDRAW (0) or RESTORE (1) for ports on every ACTIVE link but `exc` (R196). -/
def Dev.sendRoute (d : Dev) (sub : Nat) (ports : List Nat) (exc : Option Nat) : Dev :=
  (d.activeLinks.filter (fun k => exc ≠ some k)).foldl (fun d k =>
    (runsOf ports).foldl (fun d r => d.sendPkt k (pktRoute sub r.1 r.2)) d) d

/-- Announce the ports lost since `before`. -/
def Dev.withdrawLost (d : Dev) (before : List Nat) (exc : Option Nat) : Dev :=
  let after := d.reach
  let lost := before.filter fun t => !after.contains t
  if lost.isEmpty then d
  else { d with core := { d.core with lostPorts := (d.core.lostPorts ++ lost).dedup } }.sendRoute 0 lost exc

/-- Link k is a valid candidate for global port t. -/
def Dev.hasCand (d : Dev) (t k : Nat) : Bool := (List.range 4).any fun j => routeCand (d.tab 0x01 0 t) j = some k

/-- An accepted commit of the route table returns candidates whose cause of removal has ended: the link's going to DOWN, once
it is in ACTIVE or RETRAIN again; withdraws ports whose last candidate it takes; restores ports withdrawn before that it makes
reachable (R195, R196). (DESIGN CHOICE, log entry 123) -/
def Dev.routeCommitted (d : Dev) (before : List Nat) : Dev :=
  let d := (List.range 32).foldl (fun d k => d.modLink k fun l =>
    { l with removed := if d.lkState k = lkActive || d.lkState k = lkRetrain then [] else l.removed.filter fun t => d.hasCand t k,
             gone := l.withdrawn }) d
  let now := d.reach
  let back := d.core.lostPorts.filter now.contains
  let d : Dev := { d with core := { d.core with lostPorts := d.core.lostPorts.filter fun t => !now.contains t } }
  let d := if back.isEmpty then d else d.sendRoute 1 (back.mergeSort (· ≤ ·)) none
  d.withdrawLost before none

/-! ## Link-down without its fault event (R167, R200) -/

/-- What of a link's streams ends with them: packets in part, handshakes, a TIME exchange. -/
def Link.cut (l : Link) : Link :=
  { l with stream := [], strBlk := [], swapLane := [], skip := 0, spare := none, spareMore := [], spareTx := none,
           t1 := none, t2 := none, t4 := none }

/-- The octet comes to DR_ACTIVE, or the link is attached: block times are counted anew, from logical lane 0, in both directions (R160, R180). (DESIGN CHOICE, log entry 124) -/
def Link.blocksAnew (l : Link) : Link := { l with rxQ := [], rxLane := 0, blockCnt := 0, txBlk := 0 }

/-- The link goes to DOWN, its candidates removed (R195): from ACTIVE or RETRAIN its unacknowledged packets and the messages
queued for its port are discarded and counted, and LINK_DOWN is noted. -/
def Dev.linkToDown (d : Dev) (k : Nat) : Dev :=
  let was := d.lkState k = lkActive || d.lkState k = lkRetrain
  let before := if was then d.reach else []
  let hs := d.heldFor (d.linkPort k)
  let lost := if d.lkState k = lkDown then (d.link k).removed
    else (List.range 2048).filter fun t => (d.link k).removed.contains t || d.hasCand t k
  let d := if (d.link k).cfgWait && d.lkState k = lkInit then d.put (PGEPOCH_APPLIED .drl) k 1 else d
  let left := (d.link k).cfgWait && d.lkState k ≠ lkInit
  let d := ((d.put DRL_STAT_STATE k lkDown).put DRL_STAT_ENC k 0).put DRL_STAT_WIDTH k 0
  let n := (d.link k).replay.length
  let d := d.modLink k fun l =>
    { l.cut with replay := [], replays := 0, parseLost := false, openMsg := false, segHold := [], acc := [], nakOut := false, accSinceAck := 0,
                 removed := lost, mismatch := false, stall := [], macSeen := false, cfgWait := left, txDue := [], txPt := [],
                 txAad := [], txSegBlk := 0 }
  if was then
    let d := d.inc DRL_DROP_UNACKED k 0 n
    let (f, d) := d.flushWith (d.linkPort k) hs
    (((d.inc DRL_DROP_FLUSHED k 0 f).withdrawLost before none).noteDue DRL_F_LINK_DOWN k)
  else d

/-! ## Crumb packets (R190) -/

/-- Send CRUMB three times on every ACTIVE link but `exc`. -/
def Dev.sendCrumb (d : Dev) (id t origin : Nat) (exc : Option Nat) : Dev :=
  (d.activeLinks.filter (fun k => exc ≠ some k)).foldl (fun d k =>
    (List.range 3).foldl (fun d _ => d.sendPkt k (pktCrumb id t origin)) d) d

end Sys2Proof.Machine
end

