-- ==== Sys2Proof/Machine/ObsOps.lean ====
section
/-! DEFINITION. Crumb triggers, telemetry rings, the time base, and the outcome of a meaning: the moves of chapter 20
that raise no fault. -/

namespace Sys2Proof.Machine

/-- The cycle of the command's fault events is over (R597, R598): each command falls in a CTLCLK cycle of its own. (DESIGN CHOICE, log entry 28) -/
def Dev.cycleEnd (d : Dev) : Dev := { d with flt := { d.flt with cyc := [], cycFirst := [] } }

/-- A meaning's outcome: the device after the command, or the fault of a command that names what the device has not. -/
def run (ok : Bool) (row : String) (s : State) (d : Dev) : Host.Outcome State Fault Refusal :=
  if ok then .next { s with dev := d.cycleEnd } else .fault (.noSuchUnit row)

/-! ## Crumb (R630 to R635) -/

/-- The first CORECLK edge at or after a time in root ticks. -/
def coreEdge (t : Nat) : Nat := (t + 3) / 4 * 4

/-- A further trigger shares the edge; a fabric trigger gives it its origin and ID. -/
def Edge.join (e : Edge) (cause origin id : Nat) (lateBy : Option Nat) : Edge :=
  { at_ := e.at_, causes := e.causes ++ [cause], origin := if cause = 6 then origin else e.origin,
    id := if cause = 6 then id else e.id, lateBy := if lateBy.isSome then lateBy else e.lateBy }

/-- Take a latch edge: it joins an equal one; true when a fifth would be needed and it is dropped (R632). -/
def Dev.addEdge (d : Dev) (at_ cause origin id : Nat) (lateBy : Option Nat) : Bool × Dev :=
  let c := d.obs.crumb
  let put (l : List Edge) : Dev := { d with obs := { d.obs with crumb := { c with edges := l } } }
  if c.edges.any (·.at_ = at_) then
    (false, put (c.edges.map fun e => if e.at_ = at_ then e.join cause origin id lateBy else e))
  else if c.edges.length ≥ 4 then (true, d.inc CRB_LOG1_DROPPED)
  else
    (false, put (c.edges.filter (fun e => decide (e.at_ < at_)) ++ [⟨at_, [cause], origin, id, lateBy⟩]
      ++ c.edges.filter (fun e => decide (at_ < e.at_))))

def Dev.crumbEn (d : Dev) (cause : Nat) : Bool :=
  match cause with
  | 1 => d.on CRB_CFG_EN_SW
  | 2 => d.on CRB_CFG_EN_FAULT
  | 3 => d.on CRB_CFG_EN_SNAPIN
  | 4 => d.on CRB_CFG_EN_TIME
  | 5 => d.on CRB_CFG_EN_TLM
  | _ => true

/-- A trigger of CAUSE 1, 2, 3 or 5 (R630, R631); true when its own edge is dropped: a fabric trigger is sent all the same
(R190, R632). (DESIGN CHOICE, log entry 39) -/
def Dev.crumbTrigger (d : Dev) (cause : Nat) : Bool × Dev :=
  if !d.crumbEn cause then (false, d)
  else if d.on CRB_CFG_FABRIC && cause ≠ 3 then
    let dev := d.get DEV_FABRIC_DEVID
    let id := d.obs.crumb.nextId
    let t := d.fab + 2 * tUs
    let (drop, d) := d.addEdge (coreEdge t) cause dev id none
    let c := { d.obs.crumb with nextId := (id + 1) % 256, seen := (dev, id) :: d.obs.crumb.seen.take 63 }
    let d := { d with obs := { d.obs with crumb := c } }
    (drop, d.sendCrumb id t dev none)
  else d.addEdge (coreEdge (d.fab + 64)) cause (d.get DEV_FABRIC_DEVID) 0 none

/-! ## Rings (R642 to R650) -/

def Ring.bytes (r : Ring) : Nat := 2 ^ r.size
def Ring.fill (r : Ring) : Nat := (r.tail + 2 * r.bytes - r.head) % (2 * r.bytes)
def Ring.free (r : Ring) : Nat := r.bytes - r.fill

/-- Record header word (Table 20-7). -/
def recHeader (type_ : Nat) (long : Bool) (src len seq : Nat) : W64 :=
  BitVec.ofNat 64 (type_ + b2n long * 2 ^ 8 + src * 2 ^ 16 + len * 2 ^ 32 + seq % 256 * 2 ^ 56)

/-- A record's words: header, progress word when LONG, payload, zero padding to 16 bytes. (DESIGN CHOICE, log entry 35) -/
def recWords (ct type_ src seq : Nat) (payload : List W64) : List W64 :=
  let n := 8 * (1 + payload.length)
  let short := (n + 15) / 16 * 16
  let long := ct ≠ 0 && short > ct
  let len := if long then (n + 8 + 15) / 16 * 16 else short
  let ws := [recHeader type_ long src len seq] ++ (if long then [BitVec.ofNat 64 (8 * payload.length)] else []) ++ payload
  ws ++ List.replicate (len / 8 - ws.length) 0

def wordsBytes (ws : List W64) : Bytes := ws.flatMap fun w => leBytes 8 w.toNat

/-- Memory writes of the management PF from address a on. -/
def Dev.hostOut (d : Dev) (a : Nat) (b : Bytes) : Dev := d.emit (.hostWrite a b)

/-- The payload of a LONG record in writes of at most 512 bytes, each with the progress word behind it (R643): `n` writes are still
to come, `done` bytes have left. -/
def Dev.ringProgress (d : Dev) (a : Nat) : Nat → Nat → Bytes → Dev
  | 0, _, _ => d
  | n + 1, done, b =>
    let c := b.take 512
    let d := (d.hostOut (a + 16 + done) c).hostOut (a + 8) (leBytes 8 (done + c.length))
    d.ringProgress a n (done + c.length) (b.drop 512)

/-- Write a record at a ring offset: into the Larder, or as the management PF's memory writes in the order of R643. -/
def Dev.ringWrite (d : Dev) (r : Ring) (off : Nat) (ws : List W64) : Dev :=
  if r.larder then d.lwrite (d.tlmBase + r.base + off) (wordsBytes ws)
  else
    let a := r.base + off
    let h := ws.headD 0
    let d := d.hostOut a (leBytes 8 (setBits h 32 24 0).toNat)
    let b := wordsBytes (ws.drop 2)
    let d := if h.getLsbD 8 then (d.hostOut (a + 8) (leBytes 8 0)).ringProgress a ((b.length + 511) / 512) 0 b else d.hostOut (a + 8) (wordsBytes ws.tail)
    d.hostOut a (leBytes 8 h.toNat)

/-- Append a record at TAIL: it takes the next SEQ. -/
def Dev.ringAppend (d : Dev) (k : Nat) (ws : List W64) : Dev :=
  let r := d.ring k
  let len := 8 * ws.length
  let off := r.tail % r.bytes
  let d := d.ringWrite r off ws
  d.setRing k { r with tail := (r.tail + len) % (2 * r.bytes), seq := (r.seq + 1) % 256,
                       recs := r.recs ++ [⟨r.tail, len, true, ws⟩] }

/-- What became of a record offered to a ring. -/
inductive RingEnd | admitted | dropped | failed | noRing
  deriving DecidableEq, Repr

/-- Offer a record to ring `k` (R644, R645, R649, R650); true beside the end when the fill crosses LEVEL upward with
CRUMB set. `ok` is whether its writes to host memory succeed. -/
def Dev.ringPut (d : Dev) (k src type_ : Nat) (payload : List W64) (ok : Bool) : RingEnd × Bool × Dev :=
  let r := d.ring k
  if !r.en then (.noRing, false, d.inc TLM_STAT_NORING)
  else if r.err then (.dropped, false, d.setRing k { r with total := min (r.total + 1) (2 ^ 32 - 1) })
  else
    let len := 8 * (recWords r.ct type_ src r.seq payload).length
    let left := r.bytes - r.tail % r.bytes
    let need := (if len ≤ left then len else left + len) + 16
    if r.pending ≠ 0 || r.free < need then
      (.dropped, false, d.setRing k { r with pending := min (r.pending + 1) (2 ^ 32 - 1),
                                             total := min (r.total + 1) (2 ^ 32 - 1) })
    else if !ok && !r.larder then (.failed, false, d.setRing k { r with err := true })
    else
      let d := if len ≤ left then d else
        d.ringAppend k (recHeader 0x0E false 10 left r.seq :: List.replicate (left / 8 - 1) 0)
      let d := d.ringAppend k (recWords r.ct type_ src (d.ring k).seq payload)
      let r2 := d.ring k
      if r.level ≠ 0 && r.fill < r.level && r2.fill ≥ r.level then (.admitted, r.crumb, d.irq (256 + k))
      else (.admitted, false, d)

/-- HEAD has advanced: a pending gap marker is written (R649). -/
def Dev.ringGap (d : Dev) (k : Nat) : Dev :=
  let r := d.ring k
  if r.pending = 0 then d
  else
    let d := d.setRing k { r with pending := 0 }
    d.ringAppend k [recHeader 0x0F false 10 16 r.seq, BitVec.ofNat 64 r.pending]

/-! ## Time base (R624 to R629) -/

/-- TMB_RATE.PPB as it acts: two's complement, limited to ±100,000. -/
def Dev.ppb (d : Dev) : Int := max (-100000) (min 100000 (toSigned 32 (d.get TMB_RATE_PPB)))

/-- Cycles of a block's clock in one TIMECLK cycle (R26, Table 1-5), CTLCLK for PRF, whose registers it clocks; none for SDS
and SPU, whose clocks are no root clocks. -/
def Blk.cycles (b : Blk) : Option Nat :=
  match b with
  | .prt | .drl | .slc | .ovn | .arb | .dir | .scc | .tray | .dec | .tag | .egs | .pol | .acu | .dmv => some 8
  | .ldr => some 4
  | .dev | .ckr | .sec | .lck | .mgt | .fag | .ccl | .tlm | .tbl | .prf | .fn => some 2
  | .tmb | .crb | .gte => some 1
  | .sds | .spu => none

/-- Cycles of a block's clock that pass in one TIMECLK cycle: a free value where the clock's rate to TIMECLK is open. (DESIGN CHOICE, log entry 7) -/
def Dev.cyclesNow (d : Dev) (b : Blk) : Nat × Dev :=
  match b.cycles with
  | some n => (n, d)
  | none => d.fresh

/-- Level events of a page (Tables 20-4, 20-5): true or false now; none for an event that is no level. -/
def Dev.levelEvent (d : Dev) (g : Pg) (ev : Nat) : Option Bool :=
  match ev with
  | 0x001 => some true
  | 0x002 => some (d.on (PGSTAT_BUSY g.blk) g.inst)
  | 0x204 => if g.blk = .prt then some (d.portState g.inst = 5) else none
  | 0x202 => if g.blk = .slc then some (d.core.held.any fun src => srcSlice src = g.inst) else none
  | 0x201 => if g.blk = .tray then some (d.coh.tray.any fun e => portSlice e.port = g.inst && !e.ordered) else none
  | _ => none

/-- Counters enabled anywhere: page and counter, from the CNT_SEL words that are not at reset. -/
def Dev.liveCounters (d : Dev) : List (Pg × Nat) :=
  d.regs.flatMap fun e =>
    let o := e.1 % 4096
    if 0x100 ≤ o && o < 0x140 then
      match Pg.at? e.1 with
      | some g => [(g, (o - 0x100) / 4), (g, (o - 0x100) / 4 + 1)]
      | none => []
    else []

/-- Counters of level events count the cycles of a tick (R637): every cycle while true, or the one in which the event
becomes true when EDGE is set. -/
def Dev.tickCounters (d : Dev) : Dev :=
  let lv := d.liveCounters
  let d2 := lv.foldl (fun d gc =>
    let (g, c) := gc
    let (ev, en, edge) := d.cntSel g.blk g.inst c
    match (if en then d.levelEvent g ev else none) with
    | some true =>
      if edge then (if d.obs.levels.contains (fkey g 0 * 1024 + ev) then d else d.cntAdd g.blk g.inst c 1)
      else
        let (n, d) := d.cyclesNow g.blk
        d.cntAdd g.blk g.inst c n
    | _ => d) d
  let now := lv.filterMap fun gc =>
    let (ev, en, _) := d2.cntSel gc.1.blk gc.1.inst gc.2
    if en && d2.levelEvent gc.1 ev = some true then some (fkey gc.1 0 * 1024 + ev) else none
  { d2 with obs := { d2.obs with levels := now } }

/-- Refresh commands of the TIMECLK cycle (R451): a channel in use refreshes every 3.9 µs, or every 1.95 µs. (DESIGN CHOICE, log entry 128) -/
def Dev.refreshTick (d : Dev) : Dev :=
  (List.range 12).foldl (fun d c =>
    let t := if d.on LDR_CHSTAT_TREF2X c then 17160 else 34320
    if d.get LDR_CHSTAT_STATE c = 2 && d.obs.clk.local_ % t < 32 then d.count .ldr c 0x202 else d) d

/-- One TIMECLK cycle passes (R624): local time, fabric time at its rate, the firmware heartbeat, refresh, level counters. -/
def Dev.tick (d : Dev) : Dev :=
  let k := d.obs.clk
  let acc := k.rateRem + 32 * d.ppb
  let adj := acc / 1000000000
  let off : Nat := ((k.offset : Int) + adj + (2 ^ 64 : Nat)).toNat % 2 ^ 64
  let beat := k.beat + 32
  let run := d.on DEV_READY_FW_RUN
  let beat2 := if run then (if beat ≥ tMs then beat - tMs else beat) else k.beat
  let k2 : Clock := { k with local_ := (k.local_ + 32) % 2 ^ 64, sub := 0, offset := off, rateRem := acc % 1000000000, beat := beat2 }
  let d := { d with obs := { d.obs with clk := k2 } }
  let d := if run && beat ≥ tMs then 
      let d := d.put MGT_HEARTBEAT_COUNT 0 (d.get MGT_HEARTBEAT_COUNT + 1)
      { d with flt := { d.flt with persist := d.flt.persist.filter (· ≠ fkey ⟨.mgt, 0⟩ MGT_F_FW_STALL.num) } }
    else d
  d.refreshTick.tickCounters

/-- Set fabric time (R628). -/
def Dev.setFab (d : Dev) (v : Nat) : Dev :=
  { d with obs := { d.obs with clk := { d.obs.clk with offset := (v + 2 ^ 64 - d.obs.clk.local_ % 2 ^ 64) % 2 ^ 64 } } }

end Sys2Proof.Machine
end

