-- ==== Sys2Proof/Machine/DecodeOps.lean ====
section
/-! DEFINITION. Tables by rule epoch, the access check, forward and reverse decode, targets and homing (chapters 9, 10
and 15). -/

namespace Sys2Proof.Machine

/-! ## Copies by epoch (R326, R505) -/

/-- The copy of a page in force at epoch `e` is the previous one (R505). -/
def Dev.usePrev (d : Dev) (g : Pg) (e : Nat) : Bool :=
  !d.on (PGEPOCH_APPLIED g.blk) g.inst && epochOlder e (d.get (PGEPOCH_SEQ g.blk) g.inst)

/-- A table word as an access stamped with epoch `e` sees it. -/
def Dev.tabAt (d : Dev) (e t inst index : Nat) (w : Nat := 0) : W64 :=
  if d.usePrev (tabOwner t inst) e then SMap.get (tabReset t index w) d.tabPrev (tkey t inst index w)
  else d.tab t inst index w

/-- The copy of an entry that such an access sees is uncorrectable. -/
def Dev.tabBadAt (d : Dev) (e t inst index : Nat) : Bool :=
  if d.usePrev (tabOwner t inst) e then d.tabUePrev.contains (tkey t inst index 0) else d.tabBad t inst index

/-- A field of a rule page as an access stamped with epoch `e` sees it. -/
def Dev.getAt (d : Dev) (e : Nat) (f : Fld) (i : Nat) (j : Nat := 0) : Nat :=
  if d.usePrev ⟨f.reg.blk, i⟩ e then bits (SMap.get (f.reg.resetAt i j) d.prev (f.reg.addr i j)) f.lo f.width
  else d.get f i j

/-! ## Domains (R493, R495) -/

/-- The domain table holds a valid entry naming `dom`. -/
def Dev.domainOk (d : Dev) (e dom : Nat) : Bool :=
  (List.range 256).any fun i => let w := d.tabAt e 0x02 0 i; bits w 10 1 = 1 && bits w 0 10 = dom

def Dev.domainSlot (d : Dev) (dom : Nat) : Option Nat :=
  (List.range 256).find? fun i => let w := d.tab 0x02 0 i; bits w 10 1 = 1 && bits w 0 10 = dom

/-! ## Regions and colours (R496 to R501) -/

/-- A region entry (Table 15-4). -/
structure Region where
  v : Bool
  r : Bool
  w : Bool
  a : Bool
  p : Bool
  s : Bool
  e : Bool
  c : Bool
  k : Nat
  base : Nat
  tagBase : Nat
  deriving DecidableEq, Repr

def regionOf (w0 w1 : W64) : Region :=
  { v := bits w0 0 1 = 1, r := bits w0 1 1 = 1, w := bits w0 2 1 = 1, a := bits w0 3 1 = 1, p := bits w0 4 1 = 1,
    s := bits w0 5 1 = 1, e := bits w0 6 1 = 1, c := bits w0 7 1 = 1, k := bits w0 8 6, base := bits w0 16 36,
    tagBase := bits w1 0 30 }

def Region.lo (x : Region) : Nat := x.base * 2 ^ 16
def Region.hi (x : Region) : Nat := x.lo + 2 ^ x.k
def Region.holds (x : Region) (a : Nat) : Bool := x.v && x.lo ≤ a && a < x.hi

/-- The valid region of ACU[p] that holds a byte; an uncorrectable entry matches none (R515). -/
def Dev.regionAt (d : Dev) (e p a : Nat) : Option Region :=
  (List.range 64).findSome? fun i =>
    let x := regionOf (d.tabAt e 0x05 p i 0) (d.tabAt e 0x05 p i 1)
    if x.holds a && !d.tabBadAt e 0x05 p i then some x else none

/-- Access kinds of ACU_VIOLOG0.KIND. -/
inductive AccKind | read | write | atomic | own | wb
  deriving DecidableEq, Repr

def AccKind.code : AccKind → Nat
  | .read => 0 | .write => 1 | .atomic => 2 | .own => 3 | .wb => 4

/-- Table 15-5. -/
def Region.allows (x : Region) (k : AccKind) : Bool :=
  match k with
  | .read => x.r
  | .own => x.r && x.w
  | .write | .wb => x.w
  | .atomic => x.a

/-- Colour of a tag index, read from the tag table carve-out (R499); none when the carve-out is absent or the word is
uncorrectable (R501). -/
def Dev.colourOf (d : Dev) (t : Nat) : Option Nat :=
  let a := d.tagBase + t
  if !d.on LDR_CARVE_TAG_EN || d.ldr.ue.contains (a / 64) || d.ldr.poison.contains (a / 64) then none
  else some (d.lbyte a).toNat

/-- A requester's key and domain (Table 15-1). -/
structure Key where
  cols : List Nat
  domain : Nat
  /-- ACU_VIOLOG0.REQ, and the queue for 17 -/
  reqCode : Nat
  queue : Nat := 0
  /-- the entry is uncorrectable: its requester's accesses are refused (R515) -/
  bad : Bool := false
  deriving DecidableEq, Repr

/-- Key of requester entry `i` of ACU[p] (Table 15-2). -/
def Dev.portKey (d : Dev) (e p i : Nat) : Key :=
  let w := d.tabAt e 0x06 p i
  { cols := [bits w 0 8, bits w 8 8, bits w 16 8, bits w 24 8], domain := bits w 32 10, reqCode := i, bad := d.tabBadAt e 0x06 p i }

/-- Causes in the order of R506. -/
inductive Denial | noRegion | domain | attr | colour (tag : Nat)
  deriving DecidableEq, Repr

def Denial.code : Denial → Nat
  | .noRegion => 1 | .attr => 2 | .colour _ => 3 | .domain => 4

/-- The check of one byte run within a 4 KiB page (R498, R499, R506): the region, or the first cause and its byte. -/
def Dev.check (d : Dev) (e p : Nat) (key : Key) (kind : AccKind) (a len : Nat) : Except (Denial × Nat) Region :=
  let bad : Option (Denial × Nat) :=
    match d.regionAt e p a, d.regionAt e p (a + len - 1) with
    | none, _ => some (.noRegion, a)
    | _, none => some (.noRegion, a + len - 1)
    | some x, some y =>
      if !d.domainOk e key.domain || key.domain = 0x3FF || key.bad then some (.domain, a)
      else if !x.allows kind then some (.attr, a)
      else if !y.allows kind then some (.attr, a + len - 1)
      else if x.c then
        match d.colourOf (x.tagBase + (a - x.lo) / 65536) with
        | none => some (.colour 0, a)
        | some c => if c ≠ 0 && key.cols.contains c then none else some (.colour c, a)
      else none
  match bad, d.regionAt e p a with
  | some b, _ => .error b
  | none, some x => .ok x
  | none, none => .error (.noRegion, a)

/-! ## Binding and decoders (Tables 9-1, 9-2) -/

structure Bind where
  kind : Nat
  gport : Nat
  ld : Nat
  share : Bool
  slot : Nat
  slotV : Bool
  hpHost : Bool
  unbind : Nat
  deriving DecidableEq, Repr

def bindOf (w : W64) : Bind :=
  { kind := bits w 0 2, gport := bits w 2 11, ld := bits w 13 4, share := bits w 17 1 = 1, slot := bits w 18 5,
    slotV := bits w 23 1 = 1, hpHost := bits w 24 1 = 1, unbind := bits w 25 2 }

def Dev.bind (d : Dev) (e u v : Nat) : Bind := bindOf (d.tabAt e 0x03 u v)
def Dev.bindNow (d : Dev) (u v : Nat) : Bind := bindOf (d.tab 0x03 u v)

/-- Table and instance of a key of the table maps. -/
def keyTab (k : Nat) : Nat × Nat := (k / 2 ^ 43, k / 2 ^ 35 % 256)

/-- Every bound vPPB: VCS, vPPB, entry. -/
def Dev.boundAll (d : Dev) : List (Nat × Nat × Bind) :=
  (d.tabs.filter fun e => (keyTab e.1).1 = 0x03 && e.1 % 8 = 0).filterMap fun e =>
    let b := bindOf e.2
    if b.kind = 0 then none else some ((keyTab e.1).2, e.1 / 8 % 2 ^ 32, b)

/-- Slot Control and Slot Status of a vPPB: the dword of the PCIe capability the model places at 0x40, and its
changed bits: Power Fault Detected, Presence Detect Changed, Command Completed, Data Link Layer State Changed. (PRESUMED, log entry 31) -/
def slotDw : Nat := 0x16
def ssPowerFault : Nat := 17
def ssPresence : Nat := 19
def ssCmdDone : Nat := 20
def ssDll : Nat := 24

/-- Key of a dword of a vPPB's configuration space. -/
def vcfgKey (u v dw : Nat) : Nat := (u * 128 + v) * 4096 + dw

def Dev.slotWord (d : Dev) (u v : Nat) : BitVec 32 := SMap.get 0 d.coh.vcfg (vcfgKey u v slotDw)
def Dev.setSlotWord (d : Dev) (u v : Nat) (w : BitVec 32) : Dev :=
  { d with coh := { d.coh with vcfg := SMap.set 0 d.coh.vcfg (vcfgKey u v slotDw) w } }

/-- Device Control and Device Status of a vPPB, with PCIe's reset value. (PRESUMED, log entry 31) -/
def devCtlDw : Nat := 0x12
def Dev.devCtl (d : Dev) (u v : Nat) : BitVec 32 := SMap.get 0x2810 d.coh.vcfg (vcfgKey u v devCtlDw)

/-- A changed bit of Slot Status sets. -/
def Dev.slotFlag (d : Dev) (u v b : Nat) : Dev := d.setSlotWord u v (d.slotWord u v ||| BitVec.ofNat 32 (2 ^ b))

/-- The vPPB raises PCIe hot-plug events (R317): presence and link, or link alone. -/
def Dev.hotPlug (d : Dev) (u v : Nat) (pd : Bool) : Dev :=
  let d := if pd then d.slotFlag u v ssPresence else d
  (d.slotFlag u v ssDll).emit (.hotPlug u v)

/-- A physical target: a DOWNSTREAM port (with an LD of an MLD) or a Larder LD, of a device. -/
structure Tgt where
  dev : Nat
  larder : Bool
  port : Nat
  ld : Nat
  deriving DecidableEq, Repr

def Bind.tgt (b : Bind) : Option Tgt :=
  match b.kind with
  | 1 => some ⟨b.gport / 128, false, b.gport % 128, 0⟩
  | 2 => some ⟨b.gport / 128, false, b.gport % 128, b.ld⟩
  | 3 => some ⟨b.gport / 128, true, 0, b.ld⟩
  | _ => none

/-- Target key (R347). -/
def Tgt.key (t : Tgt) : Nat := if t.larder then 0x800 + t.ld else t.port * 16 + t.ld

structure Hdm where
  v : Bool
  mode : Nat
  nt : Nat
  ig : Nat
  home : Bool
  fenced : Bool
  mstate : List Nat
  base : Nat
  size : Nat
  dpa : Nat
  tgts : List Nat
  deriving DecidableEq, Repr

def hdmOf (w0 w1 w2 : W64) : Hdm :=
  { v := bits w0 0 1 = 1, mode := bits w0 1 2, nt := bits w0 3 2, ig := bits w0 5 4, home := bits w0 9 1 = 1,
    fenced := bits w0 10 1 = 1, mstate := (List.range 4).map fun k => bits w0 (12 + 2 * k) 2, base := bits w0 24 24,
    size := bits w1 0 24, dpa := bits w1 24 24, tgts := (List.range 4).map fun k => bits w2 (8 * k) 7 }

def Hdm.ways (x : Hdm) : Nat := x.nt + 1

/-- The entry at epoch `e`; one whose copy, or a target's binding, is uncorrectable acts as fenced (R322). (DEDUCED, log entry 139) -/
def Dev.hdm (d : Dev) (e u i : Nat) : Hdm :=
  let x := hdmOf (d.tabAt e 0x04 u i 0) (d.tabAt e 0x04 u i 1) (d.tabAt e 0x04 u i 2)
  { x with fenced := x.fenced || d.tabBadAt e 0x04 u i ||
             (List.range x.ways).any fun k => d.tabBadAt e 0x03 u (x.tgts.getD k 0) }

def Dev.hdmNow (d : Dev) (u i : Nat) : Hdm := hdmOf (d.tab 0x04 u i 0) (d.tab 0x04 u i 1) (d.tab 0x04 u i 2)

def Hdm.lo (x : Hdm) : Nat := x.base * 2 ^ 28
def Hdm.bytes (x : Hdm) : Nat := x.size * 2 ^ 28
def Hdm.gran (x : Hdm) : Nat := 256 * 2 ^ x.ig

/-- Way and DPA of an HPA in the entry (R320). -/
def Hdm.map (x : Hdm) (a : Nat) : Nat × Nat :=
  let off := a - x.lo
  let d0 := x.dpa * 2 ^ 28
  if x.mode = 1 then ((off / x.gran) % x.ways, d0 + off / (x.gran * x.ways) * x.gran + off % x.gran) else (0, d0 + off)

/-- HPA of a DPA at way k (R323). -/
def Hdm.unmap (x : Hdm) (k dpa : Nat) : Nat :=
  let o := dpa - x.dpa * 2 ^ 28
  if x.mode = 1 then x.lo + o / x.gran * x.gran * x.ways + k * x.gran + o % x.gran else x.lo + o

/-- DPA range length of a target of the entry. -/
def Hdm.dpaBytes (x : Hdm) : Nat := if x.mode = 1 then x.bytes / x.ways else x.bytes

/-- Result of forward decode. -/
structure Dec where
  entry : Nat
  hdm : Hdm
  vppb : Nat
  tgt : Tgt
  dpa : Nat
  deriving DecidableEq, Repr

/-- Forward decode of HPA `a` by VCS `u` at epoch `e` (R320). -/
def Dev.decode (d : Dev) (e u a : Nat) : Option Dec :=
  (List.range 32).findSome? fun i =>
    let x := d.hdm e u i
    if x.v && x.lo ≤ a && a < x.lo + x.bytes then
      let (k, dpa) := x.map a
      let v := x.tgts.getD k 0
      ((d.bind e u v).tgt).map fun t => ⟨i, x, v, t, dpa⟩
    else none

/-- Reverse decode for a sharer of VCS `u` (R323): the HPA of DPA `dpa` of target `t`. -/
def Dev.revDecode (d : Dev) (e u : Nat) (t : Tgt) (dpa : Nat) : Option Nat :=
  (List.range 32).findSome? fun i =>
    let x := d.hdm e u i
    if x.v && x.home then
      (List.range x.ways).findSome? fun k =>
        if (d.bind e u (x.tgts.getD k 0)).tgt = some t && x.dpa * 2 ^ 28 ≤ dpa && dpa < x.dpa * 2 ^ 28 + x.dpaBytes then
          let a := x.unmap k dpa
          if x.map a = (if x.mode = 1 then k else 0, dpa) then some a else none
        else none
    else none

def Dev.myId (d : Dev) : Nat := d.get DEV_FABRIC_DEVID
def Dev.vcsExists (d : Dev) (u : Nat) : Bool := d.isUp u

/-- Every (VCS, vPPB) of this device bound to a target. -/
def Dev.bindingsOf (d : Dev) (t : Tgt) : List (Nat × Nat) :=
  (d.tabs.filter fun e => e.1 / 2 ^ 43 = 0x03 && e.1 % 8 = 0).filterMap fun e =>
    let u := e.1 / 2 ^ 35 % 256
    let v := e.1 / 8 % 2 ^ 32
    if (d.bindNow u v).tgt = some t then some (u, v) else none

/-- The local targets behind port p: the port, or the LDs of its MLD. -/
def Dev.portTgts (d : Dev) (p : Nat) : List Tgt := (List.range 16).map fun l => ⟨d.myId, false, p, l⟩

/-- Port p is bound to a vPPB of this device, or exported (R151). -/
def Dev.portBound (d : Dev) (p : Nat) : Bool :=
  (d.portTgts p).any (fun t => !(d.bindingsOf t).isEmpty) || d.on DEC_EXPORT_V (p / 8) (p % 8)

/-- A decoder's FENCED bit: a fence binds the active entry, and the same entry in the previous copy kept for older epochs; a commit that
writes the entry clears it in the active one alone, so that older accesses stay fenced (R326, R336). (DEDUCED, log entry 139) -/
def Dev.setFenced (d : Dev) (u i : Nat) (on : Bool) : Dev :=
  let old (w : Nat) : W64 := SMap.get (tabReset 0x04 i w) d.tabPrev (tkey 0x04 u i w)
  let core (w : W64) : W64 := setBits (setBits w 10 1 0) 12 8 0
  let same := core (old 0) = core (d.tab 0x04 u i 0) && old 1 = d.tab 0x04 u i 1 && old 2 = d.tab 0x04 u i 2
  let d := d.setTab 0x04 u i 0 (setBits (d.tab 0x04 u i 0) 10 1 (b2n on))
  if !on || d.on (PGEPOCH_APPLIED .dec) (u / 8) || !same then d
  else { d with tabPrev := SMap.set (tabReset 0x04 i 0) d.tabPrev (tkey 0x04 u i 0) (setBits (old 0) 10 1 1) }

/-- Set a mirror member's state at once in every copy (R331). -/
def Dev.setMember (d : Dev) (u i k st : Nat) : Dev :=
  let f (w : W64) : W64 := setBits w (12 + 2 * k) 2 st
  let d := d.setTab 0x04 u i 0 (f (d.tab 0x04 u i 0))
  let d := d.setTabS 0x04 u i 0 (f (d.tabS 0x04 u i 0))
  let key := tkey 0x04 u i 0
  if d.on (PGEPOCH_APPLIED .dec) (u / 8) then d
  else { d with tabPrev := SMap.set (tabReset 0x04 i 0) d.tabPrev key (f (SMap.get (tabReset 0x04 i 0) d.tabPrev key)) }

/-- DEC_STAT.FENCED of a page. -/
def Dev.fencedCount (d : Dev) (s : Nat) : Nat :=
  (d.tabs.filter fun e => e.1 / 2 ^ 43 = 0x04 && e.1 % 8 = 0 && e.1 / 2 ^ 35 % 256 / 8 = s
    && bits e.2 10 1 = 1).length

/-! ## Homing (R347, R348) -/

def xorGroups (w n fuel : Nat) : Nat :=
  match fuel with
  | 0 => 0
  | f + 1 => Nat.xor (n % 2 ^ w) (xorGroups w (n / 2 ^ w) f)

def homeSlice (tk h : Nat) : Nat := Nat.xor (xorGroups 4 h 12) (xorGroups 4 tk 3)
def dirSet (tk h : Nat) : Nat := Nat.xor (xorGroups 14 h 4) tk
def sccSet (tk h : Nat) : Nat := dirSet tk h % 4096
def lineKey (tk h : Nat) : Nat := tk * 2 ^ 46 + h

/-- The target a local target key names. -/
def Dev.tgtOfKey (d : Dev) (tk : Nat) : Tgt :=
  if tk ≥ 0x800 then ⟨d.myId, true, 0, tk - 0x800⟩ else ⟨d.myId, false, tk / 16, tk % 16⟩

/-! ## Agents (R349, R352, R394) -/

/-- The agent of a local port. -/
def Dev.portAgent (d : Dev) (p : Nat) : Option Nat :=
  if d.on DIR_AGENT_V (p / 8) (p % 8) && (d.isUp p || d.on PRT_STAT_CACHE p) then some (d.get DIR_AGENT_AGENT (p / 8) (p % 8))
  else none

/-- The local port of an agent. -/
def Dev.agentPort (d : Dev) (a : Nat) : Option Nat := (List.range 128).find? fun p => d.portAgent p = some a

/-- The device that holds an agent, from DIR[0]_AGDEV. -/
def Dev.agentDev (d : Dev) (a : Nat) : Option Nat :=
  let w := d.word DIR_AGDEV 0 (a / 8)
  if bits w (5 * (a % 8) + 4) 1 = 1 then some (bits w (5 * (a % 8)) 4) else none

def Dev.ownOk (d : Dev) (a : Nat) : Bool :=
  match d.agentPort a with
  | some p => d.on DIR_AGENT_OWN_OK (p / 8) (p % 8)
  | none => false

def Dev.agentDead (d : Dev) (a : Nat) : Bool := d.coh.dead.contains a
def Dev.suspectOf (d : Dev) (a : Nat) : Nat := SMap.get 0 d.coh.suspect a
def Dev.setSuspect (d : Dev) (a n : Nat) : Dev := { d with coh := { d.coh with suspect := SMap.set 0 d.coh.suspect a n } }

/-- Domain of a port: of key 0 of its ACU (Table 15-9). -/
def Dev.portDomain (d : Dev) (p : Nat) : Nat := (d.portKey d.epoch p 0).domain

/-- The domain is quenched (R397, R399): some HOME entry fenced by its quench is unwritten, or its scan runs. -/
def Dev.quenched (d : Dev) (dom : Nat) : Bool := d.flt.qdom.contains dom

end Sys2Proof.Machine
end

