-- ==== Sys2Proof/Machine/HomeOps.lean ====
section
/-! DEFINITION. The home's data: directory sets, slice-cache sets, messages a home sends, target accesses, Tray entries,
and the scans of quench and removal; nothing here raises a fault (chapters 10 to 12). -/

namespace Sys2Proof.Machine

/-! ## Tree pseudo-LRU (R363, R388, R502) -/

/-- Point every node on the path of `way` away from it, in a tree of `lv` levels: node 1 is the root, node n has
children 2n and 2n + 1. (DEDUCED, log entry 75) -/
def treeTouch (lv t way : Nat) : Nat :=
  ((List.range lv).foldl (fun (acc : Nat × Nat) i =>
    let b := way / 2 ^ (lv - 1 - i) % 2
    let t := acc.1
    let t := if b = 0 then (if bit t acc.2 then t else t + 2 ^ acc.2) else (if bit t acc.2 then t - 2 ^ acc.2 else t)
    (t, 2 * acc.2 + b)) (t, 1)).1

/-- The way the tree points to among those allowed: at each node the pointed half when it holds an allowed way. (DEDUCED, log entry 75) -/
def treeVictim (lv t : Nat) (ok : Nat → Bool) : Option Nat :=
  if !(List.range (2 ^ lv)).any ok then none
  else
    some ((List.range lv).foldl (fun (acc : Nat × Nat) i =>
      let half := 2 ^ (lv - 1 - i)
      let want := b2n (bit t acc.2)
      let lo := acc.1 + want * half
      let b := if (List.range half).any (fun j => ok (lo + j)) then want else 1 - want
      (acc.1 + b * half, 2 * acc.2 + b)) (0, 1)).1

/-- Touch of a way of a sixteen-way set (R363). (DEDUCED, log entry 75) -/
def plruTouch (t way : Nat) : Nat := treeTouch 4 t way
/-- Victim of a sixteen-way set among the ways allowed (R363). (DEDUCED, log entry 75) -/
def plruVictim (t : Nat) (ok : Nat → Bool) : Option Nat := treeVictim 4 t ok

/-! ## Directory (R354 to R357) -/

def Dev.dirAt (d : Dev) (h set_ : Nat) : List DirEnt := SMap.get [] d.coh.dir (h * 16384 + set_)
def Dev.setDirAt (d : Dev) (h set_ : Nat) (l : List DirEnt) : Dev :=
  { d with coh := { d.coh with dir := SMap.set [] d.coh.dir (h * 16384 + set_) l } }

def Dev.ent? (d : Dev) (tk h : Nat) : Option DirEnt :=
  (d.dirAt (homeSlice tk h) (dirSet tk h)).find? fun e => e.tk = tk && e.h = h

/-- Write an entry in its way; an entry in state I is freed. -/
def Dev.putEnt (d : Dev) (e : DirEnt) : Dev :=
  let s := homeSlice e.tk e.h
  let i := dirSet e.tk e.h
  let l := (d.dirAt s i).filter fun x => x.way ≠ e.way
  d.setDirAt s i (if e.st = 0 then l else l ++ [e])

def Dev.freeEnt (d : Dev) (tk h : Nat) : Dev :=
  let s := homeSlice tk h
  let i := dirSet tk h
  d.setDirAt s i ((d.dirAt s i).filter fun x => ¬ (x.tk = tk ∧ x.h = h))

def Dev.modEnt (d : Dev) (tk h : Nat) (f : DirEnt → DirEnt) : Dev :=
  match d.ent? tk h with
  | some e => d.putEnt (f e)
  | none => d

/-- Agent sharers of an entry (R355). -/
def Dev.sharers (d : Dev) (e : DirEnt) : List Nat :=
  if e.coarse then (List.range 512).filter fun a => bit e.groups (a / 8) && (d.agentDev a).isSome else e.ptrs

/-- Agents that hold the line: sharers and an agent owner. -/
def Dev.holders (d : Dev) (e : DirEnt) : List Nat :=
  ((match e.owner with | some a => [a] | none => []) ++ d.sharers e).dedup

/-- Every agent whose DIR_AGDEV entry is valid, but the dead ones (R401). -/
def Dev.allAgents (d : Dev) : List Nat := (List.range 512).filter fun a => (d.agentDev a).isSome && !d.agentDead a

/-- Agents that may hold the line: every one while the holder array is uncorrectable (R401). -/
def Dev.mayHold (d : Dev) (e : DirEnt) : List Nat := if e.bad = 2 then d.allAgents else d.holders e

/-- Remove an agent from the sharers: group bits stay (R355). -/
def DirEnt.dropSharer (e : DirEnt) (a : Nat) : DirEnt := { e with ptrs := e.ptrs.filter (· ≠ a) }

/-- Add a sharer; true when the entry switches to the coarse vector (R355). -/
def DirEnt.addSharer (e : DirEnt) (a : Nat) : Bool × DirEnt :=
  let setG (g : Nat) (x : Nat) : Nat := if bit g (x / 8) then g else g + 2 ^ (x / 8)
  if e.coarse then (false, { e with groups := setG e.groups a })
  else if e.ptrs.contains a then (false, e)
  else if e.ptrs.length < 4 then (false, { e with ptrs := e.ptrs ++ [a] })
  else (true, { e with coarse := true, ptrs := [], groups := (a :: e.ptrs).foldl setG e.groups })

/-- The entry with no agent sharer. -/
def DirEnt.noSharers (e : DirEnt) : DirEnt := { e with ptrs := [], groups := 0, coarse := false }

/-! ## Slice cache (R362, R363) -/

def Dev.sccAt (d : Dev) (h set_ : Nat) : List SccLine := SMap.get [] d.coh.scc (h * 4096 + set_)
def Dev.setSccAt (d : Dev) (h set_ : Nat) (l : List SccLine) : Dev :=
  { d with coh := { d.coh with scc := SMap.set [] d.coh.scc (h * 4096 + set_) l } }
def Dev.scc? (d : Dev) (tk h : Nat) : Option SccLine :=
  (d.sccAt (homeSlice tk h) (sccSet tk h)).find? fun e => e.tk = tk && e.h = h
def Dev.putScc (d : Dev) (e : SccLine) : Dev :=
  let s := homeSlice e.tk e.h
  let i := sccSet e.tk e.h
  d.setSccAt s i ((d.sccAt s i).filter (fun x => x.way ≠ e.way) ++ [e])
def Dev.dropScc (d : Dev) (tk h : Nat) : Dev :=
  let s := homeSlice tk h
  let i := sccSet tk h
  d.setSccAt s i ((d.sccAt s i).filter fun x => ¬ (x.tk = tk ∧ x.h = h))

/-- Write a line in its way as the one used last, in its slice and in its set (R363, R374). (DEDUCED, log entry 75) -/
def Dev.useScc (d : Dev) (l : SccLine) : Dev :=
  let k := homeSlice l.tk l.h * 4096 + sccSet l.tk l.h
  let d := d.putScc { l with last := d.coh.sccUse + 1 }
  { d with coh := { d.coh with sccUse := d.coh.sccUse + 1,
                               sccLru := SMap.set 0 d.coh.sccLru k (plruTouch (SMap.get 0 d.coh.sccLru k) l.way) } }

/-- S or I, whichever the entry's remaining copies make it ("clean"). -/
def DirEnt.clean (e : DirEnt) (scc : Bool) : DirEnt :=
  let e := { e with owner := none, ownerScc := false, sccV := scc }
  let any := scc || !e.ptrs.isEmpty || e.groups ≠ 0
  { e with st := if any then 1 else 0 }

/-- Agent `a` holds nothing any more. -/
def DirEnt.lose (e : DirEnt) (a : Nat) : DirEnt := { (e.dropSharer a) with owner := if e.owner = some a then none else e.owner }

/-- Every directory entry and slice-cache line of slice `h`. -/
def Dev.dirOf (d : Dev) (h : Nat) : List DirEnt :=
  (d.coh.dir.filter fun e => e.1 / 16384 = h).flatMap Prod.snd
def Dev.sccOf (d : Dev) (h : Nat) : List SccLine :=
  (d.coh.scc.filter fun e => e.1 / 4096 = h).flatMap Prod.snd

/-- Ways a domain may use under a partition of 16 entries (R376). -/
def partWays (sealed_ : Bool) (parts : List (Bool × Nat × Nat)) (dom way : Nat) : Bool :=
  if !sealed_ then true
  else match parts.find? (fun p => p.1 && p.2.1 = dom) with
    | some p => bit p.2.2 way
    | none => !parts.any fun p => p.1 && bit p.2.2 way

def Dev.dirParts (d : Dev) (h : Nat) : List (Bool × Nat × Nat) :=
  (List.range 16).map fun i => (d.on DIR_PART_V h i, d.get DIR_PART_DOMAIN h i, d.get DIR_PART_WAYS h i)
def Dev.sccParts (d : Dev) (h : Nat) : List (Bool × Nat × Nat) :=
  (List.range 16).map fun i => (d.on SCC_PART_V h i, d.get SCC_PART_DOMAIN h i, d.get SCC_PART_WAYS h i)
def Dev.dirWayOk (d : Dev) (h dom way : Nat) : Bool := partWays (d.sealed h) (d.dirParts h) dom way
def Dev.sccWayOk (d : Dev) (h dom way : Nat) : Bool := partWays (d.sealed h) (d.sccParts h) dom way

/-- Dirty P lines of a slice's cache, against its persistent credit (R373). -/
def Dev.pDirty (d : Dev) (h : Nat) : Nat := ((d.sccOf h).filter fun l => l.dirty && l.p).length

/-! ## Messages of a home (R352, R353) -/

def svcOp (o : MOp) : Bool := [MOp.svcRd, .svcWr, .svcAtom].contains o
def ioOp (o : MOp) : Bool := [MOp.ioRd, .ioWr, .ioAtom].contains o
def cfgOp (o : MOp) : Bool := o = .cfgRd || o = .cfgWr
/-- Messages between a port and a target of its own on another device (R140, R145). -/
def ownOp (o : MOp) : Bool := List.contains [MOp.gpfAsk, .gpfAns, .rstAsk] o
def d2hOp (o : MOp) : Bool :=
  [MOp.rdShared, .rdAny, .rdOwn, .rdOwnNoData, .rdCurr, .itoMWr, .wrCur, .cMemWr, .dirtyEvict, .cleanEvict,
   .cleanEvictNoData].contains o

/-- A message presented by internal endpoint `h`. -/
def Dev.homeSend (d : Dev) (h : Nat) (m : Msg) : Dev :=
  d.pushRel { m with src := 128 + h, srcG := d.myId * 128 + 8 * h, ts := d.fab % 2 ^ 32, epoch := d.epoch }

/-- Class of the answer to a request. -/
def answerCls (o : MOp) (hasData : Bool) : Nat :=
  if svcOp o then 0xE else if ioOp o || o = .cfgRd || o = .cfgWr then 0x2 else if d2hOp o then 0xC else if hasData then 0x6 else 0x5

/-- A configuration request that device firmware sends for an FM API command (R343). -/
def Msg.ofFm (m : Msg) : Bool := m.src ≥ 128 && (m.body.op = .cfgRd || m.body.op = .cfgWr)

/-- Incoming colour of a message from a CXL port, by its TC (R271). -/
def Dev.preColour (d : Dev) (p tc : Nat) : Nat := bits (d.word POL_PRECOL p) (2 * tc) 2

/-- Answer a request from source `via`, a port or 128 + slice: nothing is sent for a posted write. A failed answer to a
read is poisoned data. A HOME_REQ of another device is answered as HOME_RSP to the internal endpoint of its port's slice (R338). -/
def Dev.replyFrom (d : Dev) (via : Nat) (m : Msg) (op : MOp) (data : Bytes) (poison : Bool) (st : Nat) : Dev :=
  let far := m.cls = 0xD && m.srcG / 128 ≠ d.myId
  if m.body.op = .ioWr && !far then d
  else if m.ofFm then d.emit (.fmResp (if op = .cplFail || op = .ioUr then 2 else 0) data)
  else
    let cls := if far then 0xE else answerCls m.body.op (!data.isEmpty || poison)
    let int := svcOp m.body.op || far
    let g := if via < 128 then d.myId * 128 + via else d.myId * 128 + 8 * (via - 128)
    d.pushRel { cls := cls, src := via, srcG := g, ts := d.fab % 2 ^ 32, epoch := d.epoch, ready := true, dst := if int then m.srcG / 128 * 128 + m.srcG % 128 / 8 else m.srcG, int := int,
                   tc := m.tc, colour := if via < 128 && !d.portDunrun via then d.preColour via m.tc else 3, domain := m.domain, fid := m.fid, poison := poison, req := m.req,
                   tray := m.tray,
                   body := { op := op, addr := m.body.addr, tag := m.body.tag, ld := m.body.ld, data := data, st := st,
                             agent := m.body.agent, tk := m.body.tk, arg := m.body.arg } }

/-- Answer a request from the internal endpoint of slice `s`. -/
def Dev.replyTo (d : Dev) (s : Nat) (m : Msg) (op : MOp) (data : Bytes) (poison : Bool) (st : Nat) : Dev :=
  d.replyFrom (128 + s) m op data poison st

/-- The failed outcome of R321 and R152: poisoned data for a read, a failed completion for a write. -/
def isReadOp (o : MOp) : Bool :=
  [MOp.memRdData, .memRdInv, .memInv, .memRdCur, .memRdNoOp, .rdShared, .rdAny, .rdOwn, .rdOwnNoData, .rdCurr, .svcRd,
   .ioRd, .cfgRd].contains o

def Dev.replyFailFrom (d : Dev) (via : Nat) (m : Msg) : Dev :=
  if isReadOp m.body.op then
    let (b, d) := d.freshBytes 64
    d.replyFrom via m .cplData b true 0
  else d.replyFrom via m .cplFail [] false 0

/-- Slice s answers a request failed. (DESIGN CHOICE, log entry 106) -/
def Dev.replyFail (d : Dev) (s : Nat) (m : Msg) : Dev := d.replyFailFrom (128 + s) m

/-- What became of a snoop (R324, R352, R398). -/
inductive SnpEnd | sent | revMiss (u : Nat) | unsent
  deriving DecidableEq, Repr

def remoteOp (k : MOp) : MOp :=
  match k with
  | .snpData => .rSnpData | .snpCur => .rSnpCur | _ => .rSnpInv

/-- Where a snoop for an agent of device `dev` goes: the SIE of its port's slice, as its messages have shown it, else SIE[0]
(R340). (DESIGN CHOICE, log entry 70) -/
def Dev.sharerDst (d : Dev) (dev agent : Nat) : Nat :=
  match SMap.get none d.coh.agSeen agent with
  | some (g, _) => if g / 128 = dev then g else dev * 128
  | none => dev * 128

/-- Send one snoop copy for line (tk, h) to an agent, decoded by the copies of epoch `ep` (R326, R352). -/
def Dev.sendSnoop (d : Dev) (tk h agent : Nat) (kind : MOp) (tc dom ep : Nat) : SnpEnd × Dev :=
  let s := homeSlice tk h
  let body : Body := { op := kind, agent := agent, tk := tk, addr := h * 64 }
  if d.agentDead agent then (.unsent, d)
  else match d.agentDev agent with
    | none => (.unsent, d)
    | some dev =>
      if dev ≠ d.myId then
        (.sent, d.homeSend s { cls := 0xD, dst := d.sharerDst dev agent, int := true, tc := tc, domain := dom,
                               body := { body with op := remoteOp kind } })
      else match d.agentPort agent with
        | none => (.unsent, d)
        | some p =>
          let vcs := if d.isUp p then some p
            else ((d.portTgts p).flatMap fun t => (d.bindingsOf t).map Prod.fst).min?
          match vcs with
          | none => (.unsent, d)
          | some u =>
            match d.revDecode ep u (d.tgtOfKey tk) (h * 64) with
            | none => (.revMiss u, d)
            | some a =>
              (.sent, d.homeSend s { cls := if d.isUp p then 0x7 else 0xB, dst := d.myId * 128 + p, tc := tc,
                                     domain := dom, body := { body with addr := a } })

/-! ## Tray (Table 12-1) -/

def Dev.trayEnt? (d : Dev) (id : Nat) : Option TrayEnt := d.coh.tray.find? (·.id = id)
def Dev.modTray (d : Dev) (id : Nat) (f : TrayEnt → TrayEnt) : Dev :=
  { d with coh := { d.coh with tray := d.coh.tray.map fun e => if e.id = id then f e else e } }
def Dev.trayOf (d : Dev) (p : Nat) : List TrayEnt := d.coh.tray.filter (·.port = p)

/-! ## Blocks of persistent credit (R373, R413, R537) -/

def Dev.sccB (d : Dev) (s : Nat) : Nat := SMap.get 0 d.prf.sccBlocks s
def Dev.tryB (d : Dev) (s : Nat) : Nat := SMap.get 0 d.prf.tryBlocks s
def Dev.granted (d : Dev) : Nat := ((List.range 16).map fun s => d.sccB s + d.tryB s).sum

/-- A pool of slice s holds n blocks. -/
def Dev.setBlocks (d : Dev) (s : Nat) (scc : Bool) (n : Nat) : Dev :=
  let d : Dev := { d with prf :=
    if scc then { d.prf with sccBlocks := SMap.set 0 d.prf.sccBlocks s n } else { d.prf with tryBlocks := SMap.set 0 d.prf.tryBlocks s n } }
  (d.put (if scc then SCC_PERS_CREDIT else TRY_PERS_CREDIT) s (64 * n)).put PRF_ALLOW_GRANTED 0 d.granted

/-- Credit lines of slice s that its Trays and combining buffer have taken (R413). -/
def Dev.persUsed (d : Dev) (s : Nat) : Nat :=
  (d.coh.tray.filter fun e => portSlice e.port = s && (e.row = 1 || e.row = 4)).length
    + (d.coh.cmb.filter fun e => portSlice e.port = s && e.m.attrP).length

/-- A pool returns the whole blocks it no longer needs, as one of its lines leaves it (R373, R413). (DESIGN CHOICE, log entry 59) -/
def Dev.returnBlocks (d : Dev) (s : Nat) (scc : Bool) : Dev :=
  let used := if scc then d.pDirty s else d.persUsed s
  let n := if scc then d.sccB s else d.tryB s
  let need := (used + 63) / 64
  if need < n then d.setBlocks s scc need else d

/-- An accept-early entry of Table 12-1, in its order slice's index from its ordering to its commit (R405). -/
def TrayEnt.early (e : TrayEnt) : Bool := e.row = 3 || e.row = 4

/-- The entry frees; the access it holds ends (Table 15-7). What a committed accept-early entry wrote is kept as long as accesses
are in flight, for reads that passed the index before (R406, R408). -/
def Dev.trayFree (d : Dev) (id : Nat) : Dev :=
  match d.trayEnt? id with
  | none => d
  | some e =>
    let d := { d with coh := { d.coh with tray := d.coh.tray.filter (·.id ≠ id) } }
    let d := if e.row = 1 || e.row = 4 then d.returnBlocks (portSlice e.port) false else d
    let d := if e.m.fid = 0 then d else d.endFlight e.m.fid
    let log := if d.ctl.flights.isEmpty then [] else if e.early && e.ordered && e.done = some true then d.coh.idxLog ++ [e] else d.coh.idxLog
    { d with coh := { d.coh with idxLog := log } }

/-- DRAIN writes whose flushes have all been accepted, or have ended, and that no streaming write which arrived before still
waits to enter the buffer, complete: DONE counts, BUSY falls with the last of
the port, and the reads behind them are answered (R420). -/
def Dev.drainSettle (d : Dev) : Dev :=
  let open_ (x : Drain) : Bool := (x.ids.any fun id => d.coh.tray.any fun e => e.id = id && !e.ordered) ||
    (d.relOf x.port).any fun m => m.drain ≠ 0 && m.drain ≤ x.seq
  let gone := d.coh.drains.filter fun x => !open_ x
  let d := { d with coh := { d.coh with drains := d.coh.drains.filter open_ } }
  gone.foldl (fun d x =>
    let n := (d.get DRAIN_DONE (x.port * 128) + 1) % 2 ^ 32
    let d := d.put DRAIN_DONE (x.port * 128) n
    let s := portSlice x.port
    let busy := d.get TRY_DRAIN_BUSY s
    let d := if (d.coh.drains.any fun y => y.port = x.port) || !bit busy (x.port % 8) then d
      else d.put TRY_DRAIN_BUSY s (busy - 2 ^ (x.port % 8))
    x.reads.foldl (fun d fn => d.emit (.fnRead (x.port * 128 + fn) n)) d) d

/-- Rows of Table 12-1 that complete to the agent at ordering. -/
def rowCompletesAtOrder (r : Nat) : Bool := r = 0 || r = 1 || r = 3 || r = 4

/-- The value of an atomic is its own answer; every other write is answered by its completion. (DESIGN CHOICE, log entry 105) -/
def atomOp (o : MOp) : Bool := o = .svcAtom || o = .ioAtom

/-- The migration of a decoder entry, if one is in progress (R487). -/
def Dev.migrOf (d : Dev) (u i : Nat) : Option (Nat × Migr) :=
  d.dmv.migr.findSome? fun e => match e.2 with
    | some g => if g.vcs = u && g.entry = i then some (e.1, g) else none
    | none => none

def Dev.migrating (d : Dev) (u i : Nat) : Bool := (d.migrOf u i).isSome

/-- The migration of the entry is in HOLD. -/
def Dev.inHold (d : Dev) (u i : Nat) : Bool :=
  match d.migrOf u i with | some (m, _) => d.get DMV_MLSTAT_PHASE 0 m = 3 | none => false

/-- A write decoded by an entry in migration has been accepted: its 4 KiB granule is dirty (R487). -/
def Dev.markDirty (d : Dev) (w : Msg) : Dev :=
  match d.migrOf w.vcs w.entry with
  | some (m, g) =>
    let k := (w.body.addr - (d.hdmNow g.vcs g.entry).dpa * 2 ^ 28) / 4096
    if w.homed || g.dirty.contains k then d
    else
      let d := { d with dmv := { d.dmv with migr := SMap.set none d.dmv.migr m (some { g with dirty := g.dirty ++ [k] }) } }
      d.put DMV_MLSTAT_DIRTY 0 (g.dirty.length + 1) m
  | none => d

/-- A write request of a queue has ended failed (R429). -/
def Dev.noteFailed (d : Dev) (r : Option Req) : Dev :=
  match r with
  | some (.queue q) => d.setQueue q { d.queue q with failSince := (d.queue q).failSince + 1 }
  | _ => d

/-- A write that reaches its ordering point takes its place among the ordered ones (R406). -/
def Dev.trayPlace (d : Dev) (e : TrayEnt) : Dev :=
  let d := (d.count .tray (portSlice e.port) 0x200).markDirty e.m
  ({ d with coh := { d.coh with nextTray := d.coh.nextTray + 1 } } : Dev).modTray e.id fun x => { x with idx := d.coh.nextTray }

/-- The completion of a write to its agent: failed where its data was lost in the Tray (R411). -/
def TrayEnt.endOp (e : TrayEnt) (ok : Bool) : MOp := if ok && !e.bad then .cplDone else .cplFail

/-- A Tray entry held for R31 (R404, R414): ordered with credit before its commit. -/
def TrayEnt.pHeld (e : TrayEnt) : Bool :=
  if e.cmb then e.m.attrP && (!e.ordered || e.row = 1 || e.row = 4) else e.ordered && (e.row = 1 || e.row = 4)

/-- A persistent entry may not be ordered before its commit now (R415): its slice's pools are gated, or hold as many lines as the
credit left. -/
def Dev.persStop (d : Dev) (e : TrayEnt) : Bool :=
  let s := portSlice e.port
  (e.row = 1 || e.row = 4) && !e.cmb && e.done.isNone &&
    (d.on TRY_PERS_GATED s ||
      d.get TRY_PERS_CREDIT s ≤ (d.coh.tray.filter fun x => portSlice x.port = s && x.pHeld).length
        + (d.coh.cmb.filter fun x => portSlice x.port = s && x.m.attrP).length)

/-- One Tray entry moves as far as it may (R404, R410, R415): a posted write waits for the port's earlier posted writes; then
it is ordered, unless it has failed by then, completes where its row says so, and frees with its commit. `s` is the slice that
answers. -/
def Dev.traySettleOne (d : Dev) (s id : Nat) : Dev :=
  match d.trayEnt? id with
  | none => d
  | some e =>
    let behind (x : TrayEnt) : Bool := x.port = e.port && x.posted && !x.ordered && x.id < e.id
    if !e.due || (e.posted && d.coh.tray.any behind) || (!e.ordered && d.persStop e) then d
    else
      let lost := e.done = some false && !e.ordered
      let atOrd := rowCompletesAtOrder e.row && !atomOp e.m.body.op && !e.ordered && !e.completed && !lost
      let d := if e.ordered || lost then d else d.trayPlace e
      let d := d.modTray id fun x => { x with ordered := !lost, completed := x.completed || atOrd }
      let d := if atOrd then d.replyTo s { e.m with fid := 0 } (e.endOp true) [] false 0 else d
      match e.done with
      | none => d
      | some ok =>
        let d := if e.completed || atOrd || atomOp e.m.body.op then d
          else d.replyTo s { e.m with fid := 0 } (e.endOp ok) [] false 0
        (if e.cmb && !ok then d.noteFailed e.m.req else d).trayFree id

/-- Entries of a port in order of arrival, then those of its slice that waited for persistent credit. -/
def Dev.traySettle (d : Dev) (s p : Nat) : Dev :=
  let d := ((d.trayOf p).map (·.id)).foldl (fun d id => d.traySettleOne s id) d
  let wait (e : TrayEnt) : Bool := e.due && !e.ordered && portSlice e.port = portSlice p && (e.row = 1 || e.row = 4)
  (((d.coh.tray.filter wait).map (·.id)).foldl (fun d id => d.traySettleOne (portSlice p) id) d).drainSettle

/-- The write reaches its ordering point (Table 12-1). -/
def Dev.trayOrder (d : Dev) (id s : Nat) : Dev :=
  match d.trayEnt? id with
  | none => d
  | some e => (d.modTray id fun x => { x with due := true }).traySettle s e.port

/-- The write commits (its target has answered) or fails. -/
def Dev.trayCommit (d : Dev) (id s : Nat) (ok : Bool) : Dev :=
  match d.trayEnt? id with
  | none => d
  | some e =>
    let d := if !ok && d.prf.phase = 1 && e.pHeld then d.inc PRF_LOG_WR_FAIL else d
    (d.modTray id fun x => { x with due := true, done := some ok }).traySettle s e.port

/-- A combining entry held for R31 (R414). -/
def CmbEnt.pHeld (e : CmbEnt) : Bool := e.m.attrP

/-- Lines held for R31: Tray entries, combining entries, dirty P lines of the slice caches. -/
def Dev.heldTotal (d : Dev) : Nat :=
  (d.coh.tray.filter TrayEnt.pHeld).length + (d.coh.cmb.filter CmbEnt.pHeld).length
    + ((List.range 16).map d.pDirty).sum

/-! ## Target accesses (R386) -/

/-- First LPA and bytes of Larder LD j; an LD with V 0 has none (R438). -/
def Dev.ldBase (d : Dev) (j : Nat) : Nat := d.get LDR_LD_BASE 0 j * 2 ^ 28
def Dev.ldSize (d : Dev) (j : Nat) : Nat := if d.on LDR_LD_V 0 j then d.get LDR_LD_SIZE 0 j * 2 ^ 28 else 0

/-- Queue an access at a Larder channel's controller. -/
def Dev.ldrQueue (d : Dev) (r : LdrReq) : Dev :=
  let c := (d.lchan (r.line * 64)).1
  { d with ldr := { d.ldr with reqs := SMap.set [] d.ldr.reqs c (SMap.get [] d.ldr.reqs c ++ [r]) } }

/-- An answer for internal endpoint `h` that no port carries. -/
def Dev.arriveRsp (d : Dev) (h : Nat) (m : Msg) : Dev := d.setArrived h 0 (d.arrivedAt h 0 ++ [m])

/-- Present an access to target `tk` at DPA `dpa` for slice `s`, carrying message `m` (its operation, data, enables). A
Larder DPA outside the LD's window is answered failed (R438). -/
def Dev.tgtAccess (d : Dev) (s tk dpa : Nat) (write : Bool) (m : Msg) : Dev :=
  if tk ≥ 0x800 then
    let j := tk - 0x800
    if dpa + 64 ≤ d.ldSize j then
      d.ldrQueue { line := (d.ldBase j + dpa) / 64, write := write, be := m.body.be, data := m.body.data,
                   poison := m.poison, home := s, m := m }
    else if m.home.isSome then d.arriveRsp s { m with body := { m.body with op := .tgtFail } }
    else if m.tray ≠ 0 then d.trayCommit m.tray s false
    else d.replyFail s m
  else
    d.homeSend s { m with cls := if write then 0x4 else 0x3, dst := d.myId * 128 + tk / 16, int := false,
                          body := { m.body with addr := dpa, ld := tk % 16 } }

/-- Domain of the device's own traffic (Table 15-1). (DEDUCED, log entry 132) -/
def devDomain : Nat := 0x3FF

/-- Present a target write of line (tk, h), or hold it while the write-pending list is full; `tag` comes back with its answer. -/
def Dev.tgtPut (d : Dev) (tk h : Nat) (data : Bytes) (poison : Bool) (tc dom tag : Nat) : Dev :=
  let s := homeSlice tk h
  let k := lineKey tk h
  let hm := d.home s
  if hm.wrPend.length ≥ 512 then d.setHome s { hm with wrHold := hm.wrHold ++ [⟨k, data, poison, tc, dom, tag⟩] }
  else
    let d := d.setHome s { hm with wrPend := hm.wrPend ++ [k] }
    let b : Body := { op := .memWr, addr := h * 64, tk := tk, be := 2 ^ 64 - 1, data := data, arg := tag }
    d.tgtAccess s tk (h * 64) true { cls := 0x4, tc := tc, domain := dom, poison := poison, home := some s, body := b }

/-- A target write of what the line holds now: its answer commits the writes merged before it (R404); `acc`: it carries an
accepted write (R412). -/
def Dev.tgtWriteAcc (d : Dev) (tk h : Nat) (data : Bytes) (poison : Bool) (tc dom : Nat) (acc : Bool) : Dev :=
  d.tgtPut tk h data poison tc dom (2 * d.coh.merges + b2n acc)

/-- A target write that carries no accepted write. -/
def Dev.tgtWrite (d : Dev) (tk h : Nat) (data : Bytes) (poison : Bool) (tc dom : Nat) : Dev :=
  d.tgtWriteAcc tk h data poison tc dom false

/-- A target write of the line waits to be presented. -/
def Dev.parked (d : Dev) (tk h : Nat) : Bool := (d.home (homeSlice tk h)).wrHold.any (·.key = lineKey tk h)

/-- A target write for the line is unanswered, or waits to be presented. -/
def Dev.wrBusy (d : Dev) (tk h : Nat) : Bool :=
  (d.home (homeSlice tk h)).wrPend.contains (lineKey tk h) || d.parked tk h

/-! ## Merging (Table 10-5, R371, R424) -/

/-- Merge bytes by enables. -/
def mergeBytes (old new : Bytes) (be : Nat) : Bytes :=
  (List.range 64).map fun i => if bit be i then new.getD i 0 else old.getD i 0

def fullBe : Nat := 2 ^ 64 - 1

/-- The line after an atomic: `arg` is its operation (0 SWAP, 1 ADD, 2 CAS) + 16 × its size in bytes, `data` its
operands A and B. -/
def atomLine (old : Bytes) (b : Body) : Bytes :=
  let n := b.arg / 16
  let off := b.addr % 64
  let v := (old.drop off).take n
  let x := b.data.take n
  let y := (b.data.drop n).take n
  let w := match b.arg % 16 with
    | 0 => fitBytes n x
    | 1 => leBytes n (leNat v + leNat x)
    | 2 => if v = x then fitBytes n y else v
    | _ => v
  old.take off ++ w ++ old.drop (off + n)

/-- The line a write or atomic leaves. -/
def writtenLine (old : Bytes) (b : Body) : Bytes := if atomOp b.op then atomLine old b else mergeBytes old b.data b.be

/-! ## Transactions -/

def Dev.txn? (d : Dev) (tk h : Nat) : Option Txn :=
  (d.home (homeSlice tk h)).txns.find? fun t => t.tk = tk && t.h = h && !t.noEntry

def Dev.delTxn (d : Dev) (t : Txn) : Dev :=
  d.modHome (homeSlice t.tk t.h) fun x => { x with txns := x.txns.erase t }

def Dev.setTxn (d : Dev) (t t2 : Txn) : Dev :=
  d.modHome (homeSlice t.tk t.h) fun x => { x with txns := x.txns.map fun y => if y = t then t2 else y }

def Dev.addTxn (d : Dev) (t : Txn) : Dev := d.modHome (homeSlice t.tk t.h) fun x => { x with txns := x.txns ++ [t] }

/-- The line is busy: a transaction is open on it, or its target write waits to be presented. -/
def Dev.lineBusy (d : Dev) (tk h : Nat) : Bool := (d.txn? tk h).isSome || d.parked tk h

/-- A transaction holds the line, or its allocation is pending on a victim. (DESIGN CHOICE, log entry 68) -/
def Dev.lineTaken (d : Dev) (tk h : Nat) : Bool :=
  d.lineBusy tk h || (d.home (homeSlice tk h)).txns.any fun t => match t.next with
    | some m => (m.body.tk, m.body.addr / 64) = (tk, h)
    | none => false

/-- Writebacks held for a line, by source. -/
def Dev.heldWb (d : Dev) (tk h : Nat) : List (Nat × Msg) :=
  (d.home (homeSlice tk h)).wbHold.filterMap fun x => match x.2 with
    | some m => if (m.body.tk, m.body.addr / 64) = (tk, h) then some (x.1, m) else none
    | none => none

/-- The hold entries of a line's writebacks free. -/
def Dev.freeHeld (d : Dev) (tk h : Nat) : Dev :=
  (d.heldWb tk h).foldl (fun d x => d.modHome (homeSlice tk h) fun y => { y with wbHold := SMap.set none y.wbHold x.1 none }) d

/-- Writebacks held for a line are answered failed. -/
def Dev.failHeld (d : Dev) (tk h : Nat) : Dev :=
  (d.heldWb tk h).foldl (fun d x => d.replyFail (homeSlice tk h) x.2) (d.freeHeld tk h)

/-- A write whose row frees with the line's busy state commits as the line leaves it (Table 12-1). -/
def Dev.trayLeave (d : Dev) (t : Txn) : Dev :=
  if t.m.tray ≠ 0 && (t.kind = .wr || t.kind = .atom) && ((d.trayEnt? t.m.tray).map (·.row)) = some 0 then
    d.trayCommit t.m.tray (homeSlice t.tk t.h) true
  else d

/-- A target snoop's answer (R371). -/
def Dev.biAnswer (d : Dev) (s : Nat) (m : Msg) (op : MOp) : Dev :=
  d.homeSend s { cls := 0x8, dst := m.srcG, tc := m.tc, domain := m.domain,
                 body := { op := op, addr := m.body.addr, tag := m.body.tag, ld := m.body.ld } }

/-- A target's snoop ends (R371). -/
def Dev.biEnd (d : Dev) (s : Nat) (m : Msg) : Dev :=
  match m.body.op with
  | .bisInv | .bisCur => d.biAnswer s m .biRspI
  | .bisData => d.biAnswer s m .biRspS
  | _ => d

/-- A request the home will not serve gets poisoned data or failure; a recall of the device's own is over. -/
def Dev.failReq (d : Dev) (s : Nat) (m : Msg) : Dev :=
  if m.tray ≠ 0 then d.trayCommit m.tray s false
  else match m.body.op with
  | .ioMsg => if m.fid = 0 then d else d.endFlight m.fid
  | .bisInv | .bisData | .bisCur => d.biEnd s m
  | _ => d.replyFail s m

/-- An open transaction ends at once: its requester gets poisoned data or failure, unless it has been answered; its awaited
answers are abandoned; a request that waited for its way joins its own line's queue. (DESIGN CHOICE, log entry 106) -/
def Dev.failTxn (d : Dev) (t : Txn) : Dev :=
  let s := homeSlice t.tk t.h
  let d := (d.delTxn t).failHeld t.tk t.h
  let d : Dev := match t.next with
    | some m => d.modHome s fun x => { x with waits := x.waits ++ [{ tk := m.body.tk, h := m.body.addr / 64, m := m }] }
    | none => d
  match t.fin with
  | some f => (d.putEnt { f with busy := false }).trayLeave t
  | none =>
    let d := if t.noEntry then d else d.modEnt t.tk t.h fun x => { x with busy := false }
    d.failReq s t.m

/-- Requests waiting on a line are answered as failed. -/
def Dev.failWaits (d : Dev) (s : Nat) (p : Wait → Bool) : Dev :=
  let ws := (d.home s).waits.filter p
  let d := d.modHome s fun x => { x with waits := x.waits.filter fun w => !p w }
  ws.foldl (fun d w => d.failReq s w.m) d

/-! ## Snoops of a transaction (R324, R391 to R394, R398) -/

/-- A message the home makes for no request: it carries HOME_TC (R353). -/
def Dev.homeMsg (d : Dev) (s dom : Nat) : Msg := { tc := d.get DIR_CFG_HOME_TC s, domain := dom, body := { agent := 512 } }

/-- Domain of an agent: of its port, or the one given (R394). -/
def Dev.agentDomain (d : Dev) (a dom : Nat) : Nat :=
  match d.agentPort a with | some p => d.portDomain p | none => dom

/-- A snoop copy to agent `a` times out at a home of slice `s` (R392, R393): SNOOP_TO is to be raised, the suspect count grows,
and at 3 the agent is to be declared dead (R394). -/
def Dev.copyLost (d : Dev) (s a dom : Nat) : Dev :=
  let n := min 3 (d.suspectOf a + 1)
  let d := (d.setSuspect a n).noteDue DIR_F_SNOOP_TO s { dom := some (d.agentDomain a dom), req := (d.agentPort a).map Req.port }
  if n ≥ 3 && !d.agentDead a then { d with flt := { d.flt with dying := (d.flt.dying ++ [(a, dom)]).dedup } } else d

/-- One snoop of a transaction on line (tk, h): agents awaited, agents whose snoop was not sent, the device. -/
def Dev.snoopStep (tk h tc dom ep : Nat) (kind : Nat → MOp) (acc : (List Nat × List Nat) × Dev) (a : Nat) :
    (List Nat × List Nat) × Dev :=
  let r := acc.2.sendSnoop tk h a (kind a) tc dom ep
  match r.1 with
  | .sent => ((acc.1.1 ++ [a], acc.1.2), r.2.count .dir (homeSlice tk h) 0x202)
  | .revMiss u => ((acc.1.1, acc.1.2 ++ [a]), r.2.noteDue DEC_F_REV_MISS (u / 8))
  | .unsent => ((acc.1.1, acc.1.2 ++ [a]), r.2)

/-- Snoops that were not sent: each agent leaves the entry, and its copy times out at once (R391). -/
def Dev.loseCopies (d : Dev) (e : DirEnt) (l : List Nat) : Dev :=
  l.foldl (fun d a => (d.modEnt e.tk e.h fun x => x.lose a).copyLost (homeSlice e.tk e.h) a e.domain) d

/-- Open an invalidation of every holder among `agents` for a scan (recall, removal, quench, reset); the entry stays,
busy, until the answers are in. (DESIGN CHOICE, log entry 73) -/
def Dev.openRecall (d : Dev) (e : DirEnt) (agents : List Nat) (discard poison : Bool) : Dev :=
  let m := d.homeMsg (homeSlice e.tk e.h) e.domain
  let r := agents.mergeSort.foldl (Dev.snoopStep e.tk e.h m.tc devDomain d.epoch fun _ => .snpInv) (([], []), d)
  let t : Txn := { tk := e.tk, h := e.h, kind := .recall, m := m, await := r.1.1, st0 := e.st, discard := discard,
                   poison := poison, owner := e.owner.filter r.1.1.contains, timedOut := !r.1.2.isEmpty }
  ((r.2.addTxn t).modEnt e.tk e.h fun x => { x with busy := true }).loseCopies e r.1.2

/-- Invalidate every agent copy of a line whose data has gone to its target: the line goes to I, at once when no answer is
awaited (R325, R364). -/
def Dev.openInval (d : Dev) (e : DirEnt) : Dev :=
  let hs := d.mayHold e
  if hs.isEmpty then d.freeEnt e.tk e.h
  else
    let d := d.openRecall e hs false false
    match d.txn? e.tk e.h with
    | some t => if t.await.isEmpty then (d.delTxn t).freeEnt e.tk e.h else d
    | none => d

/-! ## Uncorrectable entries (R400 to R402) -/

/-- The first uncorrectable entry is recorded in DIR_UELOG: `kind` 1 its holder array (R401), 2 its tag array (R402). -/
def Dev.logUeEntry (d : Dev) (s set_ way kind : Nat) : Dev :=
  if d.on DIR_UELOG_VALID s then d
  else (((d.put DIR_UELOG_SET s set_).put DIR_UELOG_WAY s way).put DIR_UELOG_KIND s kind).put DIR_UELOG_VALID s 1

/-- A set that is read holds entries whose tag-array words are lost: they are dropped, and the set is suspect from now
on; UE is raised unless it was suspect before (R402, R619). -/
def Dev.dropLost (d : Dev) (s set_ : Nat) : Dev :=
  match (d.dirAt s set_).find? (·.bad = 3) with
  | none => d
  | some e =>
    let was := (d.home s).suspectSets.contains set_
    let d := (d.logUeEntry s set_ e.way 2).setDirAt s set_ ((d.dirAt s set_).filter (·.bad ≠ 3))
    if was then d else (d.modHome s fun x => { x with suspectSets := x.suspectSets ++ [set_] }).noteDue DIR_F_UE s

/-- The home reads entry `e`: a bad tag-array word with a good copy is rewritten (R400). -/
def Dev.entFix (d : Dev) (e : DirEnt) : DirEnt × Dev :=
  if e.bad = 1 then ({ e with bad := 0 }, (d.modEnt e.tk e.h fun x => { x with bad := 0 }).noteDue DIR_F_CE (homeSlice e.tk e.h))
  else (e, d)

/-- A scan reads every set of slice `s`. -/
def Dev.dirSweep (d : Dev) (s : Nat) : Dev :=
  let sets := (d.coh.dir.filter fun e => e.1 / 16384 = s && e.2.any (·.bad = 3)).map (·.1 % 16384)
  let d := sets.foldl (fun d i => d.dropLost s i) d
  ((d.dirOf s).filter (·.bad = 1)).foldl (fun d e => (d.entFix e).2) d

/-! ## Quench (Table 11-2) without its fault event -/

/-- VCSs whose UPSTREAM port belongs to a domain. -/
def Dev.domainVcs (d : Dev) (dom : Nat) : List Nat := (List.range 128).filter fun u => d.isUp u && d.portDomain u = dom

/-- An agent belongs to a domain: its local port does, or the last message of an agent of another device carried it. (DEDUCED, log entry 76) -/
def Dev.agentIn (d : Dev) (dom a : Nat) : Bool :=
  match d.agentPort a with
  | some p => d.portDomain p = dom
  | none => (SMap.get none d.coh.agSeen a).any (·.2 = dom)

/-- Lines recalled or invalidated for DEC page `s`, saturating (DEC_RECALL). -/
def Dev.addLines (d : Dev) (s n : Nat) : Dev := d.put DEC_RECALL_LINES s (min (d.get DEC_RECALL_LINES s + n) (2 ^ 32 - 1))

/-- Surprise removals whose invalidations have ended: their lines are recorded, and the vPPBs show the loss (R317, R334). -/
def Dev.removalsEnd (d : Dev) : Dev :=
  let runs (r : Removal) : Bool := (List.range 16).any fun s => (d.home s).txns.any (fun t => t.tk = r.tk && t.discard) ||
    (d.home s).waits.any fun w => w.tk = r.tk && w.m.body.op = .ioMsg && w.m.body.agent < 512
  let gone := d.coh.removals.filter fun r => !runs r
  let d := { d with coh := { d.coh with removals := d.coh.removals.filter runs } }
  gone.foldl (fun d r => r.vppbs.foldl (fun d k =>
    d.hotPlug (k / 128) (k % 128) true) ((r.vppbs.map (· / 1024)).dedup.foldl (fun d s => d.addLines s r.lines) d)) d

/-- The scan of one slice for domain `dom` (R395); an entry whose holder array is lost may be held by any agent (R401). -/
def Dev.quenchSlice (d : Dev) (dom s : Nat) : Dev :=
  let d := d.dirSweep s
  ((d.dirOf s).filter (·.domain = dom)).foldl (fun d e =>
    let d := match d.txn? e.tk e.h with | some t => d.failTxn t | none => d
    let d := d.failWaits s fun w => w.tk = e.tk && w.h = e.h
    let d := match d.scc? e.tk e.h with
      | some l =>
        let d := d.dropScc e.tk e.h
        if l.dirty then d.tgtWriteAcc e.tk e.h l.data true (d.get DIR_CFG_HOME_TC s) dom l.acc else d
      | none => d
    let hs := (d.mayHold e).filter fun a => !d.agentIn dom a
    let d := if e.bad = 2 then (d.logUeEntry s (dirSet e.tk e.h) e.way 1).noteDue DIR_F_UE s else d
    (d.modEnt e.tk e.h fun x => { x with sccV := false, ownerScc := false, bad := 0 }).openRecall e hs false false) d

/-- Notices go as HOME_REQ to SIE[0] of every device the route table reaches (R396). -/
def Dev.reachedDevs (d : Dev) : List Nat :=
  (List.range 16).filter fun v => v ≠ d.myId && (List.range 128).any fun p =>
    let e := d.tab 0x01 0 (128 * v + p)
    (bits e 24 2 = 1 || bits e 24 2 = 2) && ((List.range 4).filterMap (routeCand e)).any (d.candOk (128 * v + p))

def Dev.notice (d : Dev) (b : Body) (dom : Nat) : Dev :=
  d.reachedDevs.foldl (fun d v =>
    d.homeSend 0 { cls := 0xD, dst := v * 128, int := true, tc := d.get DIR_CFG_HOME_TC 0, domain := dom, body := b }) d

/-- Quench domain `dom` (R395 to R397): `agent` is the dead agent the notice names, when one is sent. A quench of a
domain already quenched adds nothing (R606). (DESIGN CHOICE, log entry 71) -/
def Dev.quench (d : Dev) (dom : Nat) (agent : Option Nat) (send : Bool) : Dev :=
  if d.quenched dom then d
  else
    let us := d.domainVcs dom
    let d := us.foldl (fun d u =>
      let d := (List.range 32).foldl (fun d i =>
        let x := d.hdmNow u i
        if x.v && x.home then (d.setFenced u i true) else d) d
      d.emit (.aer u 128 0)) d
    let d := us.foldl (fun d u => { d with coh := { d.coh with fenced := (d.coh.fenced ++
      ((List.range 32).filter (fun i => (d.hdmNow u i).v && (d.hdmNow u i).home)).map (u * 32 + ·)).dedup } }) d
    let cacheV := (List.range 128).filter fun p => d.isDown p && d.on PRT_STAT_CACHE p && d.portDomain p = dom
    let d := cacheV.foldl (fun d p => ((d.portTgts p).flatMap d.bindingsOf).foldl (fun d uv => d.emit (.aer uv.1 uv.2 0)) d) d
    let d := { d with flt := { d.flt with qdom := d.flt.qdom ++ [dom] } }
    let d := match d.domainSlot dom with
      | some i => d.setTab 0x02 0 i 0 (setBits (d.tab 0x02 0 i) 11 1 1)
      | none => d
    let d := if send then d.notice { op := .quenchNotice, agent := agent.getD 512, arg := dom } dom else d
    (List.range 16).foldl (fun d s =>
      let d := (d.put DIR_DEATH_QSCAN s 1).modHome s fun x => { x with quenchScan := (x.quenchScan ++ [dom]).dedup }
      d.quenchSlice dom s) d

/-- Domains whose quench is over: no HOME entry their quench fenced is still unwritten, and no scan runs (R397). -/
def Dev.quenchEnd (d : Dev) : Dev :=
  let ended (dom : Nat) : Bool :=
    !(d.domainVcs dom).any (fun u => d.coh.fenced.any fun k => k / 32 = u) &&
    !(List.range 16).any fun s => (d.home s).quenchScan.contains dom
  let gone := d.flt.qdom.filter ended
  let d := { d with flt := { d.flt with qdom := d.flt.qdom.filter fun x => !ended x } }
  gone.foldl (fun d dom => match d.domainSlot dom with
    | some i => d.setTab 0x02 0 i 0 (setBits (d.tab 0x02 0 i) 11 1 0)
    | none => d) d

end Sys2Proof.Machine
end

