-- ==== Sys2Proof/Machine/CtxOps.lean ====
section
/-! DEFINITION. Data Mover queue contexts: where a context lies, its fields, and which queues a function holds
(chapter 14). -/

namespace Sys2Proof.Machine

/-! ## Queue states (Table 14-3) -/

def qUnalloc : Nat := 0
def qDisabled : Nat := 1
def qEnabled : Nat := 2
def qDisabling : Nat := 3
def qError : Nat := 4
def qQuar : Nat := 5

/-- A word of a queue's context: the cached copy when there is one, else the carve-out's (R465); 0 while no context
carve-out exists. -/
def Dev.ctxW (d : Dev) (q i : Nat) : W64 :=
  if !d.on LDR_CARVE_CTX_EN then 0
  else if d.ldr.ctxLru.contains q then (SMap.get [] d.ldr.ctx q).getD i 0
  else d.lword (d.ctxBase + 128 * q + 8 * i)

/-- Write a word of a context: words 4 to 6 into the cached copy alone while one exists (R465), every other word into
the carve-out too. -/
def Dev.setCtxW (d : Dev) (q i : Nat) (w : W64) : Dev :=
  if !d.on LDR_CARVE_CTX_EN then d
  else
    let cached := d.ldr.ctxLru.contains q
    let d := if cached then
        { d with ldr := { d.ldr with ctx := SMap.set [] d.ldr.ctx q ((SMap.get [] d.ldr.ctx q).set i w) } } else d
    if cached && 4 ≤ i && i ≤ 6 then d else d.setLword (d.ctxBase + 128 * q + 8 * i) w

/-- A field of a context: word, low bit, width. -/
structure CtxF where
  w : Nat
  lo : Nat
  n : Nat
  deriving DecidableEq, Repr

def cDqBase : CtxF := ⟨0, 0, 64⟩
def cCqBase : CtxF := ⟨1, 0, 64⟩
def cDqLog : CtxF := ⟨2, 0, 5⟩
def cCqLog : CtxF := ⟨2, 5, 5⟩
def cVector : CtxF := ⟨2, 10, 11⟩
def cIrqEn : CtxF := ⟨2, 21, 1⟩
def cTc : CtxF := ⟨2, 22, 3⟩
def cHead : CtxF := ⟨4, 0, 16⟩
def cTail : CtxF := ⟨4, 16, 16⟩
def cCqTail : CtxF := ⟨4, 32, 16⟩
def cGen : CtxF := ⟨4, 48, 8⟩
def cPhase : CtxF := ⟨4, 56, 1⟩
def cState : CtxF := ⟨4, 57, 3⟩
def cOldBusy : CtxF := ⟨4, 60, 1⟩
def cDone : CtxF := ⟨5, 0, 32⟩
def cStale : CtxF := ⟨5, 32, 32⟩
def cCqHead : CtxF := ⟨6, 0, 16⟩
def cDomain : CtxF := ⟨8, 0, 10⟩
def cKey : CtxF := ⟨8, 16, 32⟩
def cPriv : CtxF := ⟨8, 48, 1⟩
def cEslice : CtxF := ⟨9, 0, 4⟩
def cWeight : CtxF := ⟨9, 4, 8⟩
def cVcs : CtxF := ⟨9, 12, 7⟩
def cFn : CtxF := ⟨9, 19, 7⟩
def cAlloc : CtxF := ⟨9, 26, 1⟩

def Dev.q (d : Dev) (n : Nat) (f : CtxF) : Nat := bits (d.ctxW n f.w) f.lo f.n
def Dev.qPut (d : Dev) (n : Nat) (f : CtxF) (v : Nat) : Dev := d.setCtxW n f.w (setBits (d.ctxW n f.w) f.lo f.n v)

/-- The queue's key (Table 15-1). -/
def Dev.queueKey (d : Dev) (n : Nat) : Key :=
  let k := d.q n cKey
  { cols := [k % 256, k / 2 ^ 8 % 256, k / 2 ^ 16 % 256, k / 2 ^ 24 % 256], domain := d.q n cDomain, reqCode := 17,
    queue := n }

/-! ## Functions and their queues (R461) -/

/-- A function of endpoint u: 0 PF0, n VF n; it exists while the endpoint has EN and, for a VF, NumVFs reaches it. -/
def Dev.fnExists (d : Dev) (u fn : Nat) : Bool :=
  d.on DMV_EPCFG_EN 0 u && d.isUp u && (fn = 0 || fn ≤ SMap.get 0 d.dmv.vfs u)

/-- First queue and number of queues of a function under an endpoint block. -/
def blockOf (qbase pfq vfq fn : Nat) : Nat × Nat :=
  if fn = 0 then (qbase, pfq) else (qbase + pfq + (fn - 1) * vfq, vfq)

def Dev.fnBlock (d : Dev) (u fn : Nat) : Nat × Nat :=
  blockOf (d.get DMV_EPCFG_QBASE 0 u) (d.get DMV_EPCFG_PF_Q 0 u) (d.get DMV_EPCFG_VF_Q 0 u) fn

/-- The function number used as the key of MSI-X state and function registers. (DESIGN CHOICE, log entry 29) -/
def fnKey (u fn : Nat) : Nat := u * 128 + fn

/-- Queues that have run-time state here: those in ENABLED, DISABLING, ERROR or QUARANTINED show in `queues`. -/
def Dev.qState (d : Dev) (n : Nat) : Nat := d.q n cState

/-- A queue's state changes; DMV_POOL.ENABLED follows. -/
def Dev.setQState (d : Dev) (n st : Nat) : Dev :=
  let was := d.qState n
  let e := d.get DMV_POOL_ENABLED
  let e := e - b2n (was = qEnabled) + b2n (st = qEnabled)
  (d.put DMV_POOL_ENABLED 0 e).qPut n cState st

end Sys2Proof.Machine
end

