-- ==== Sys2Proof/Machine/Contain.lean ====
section
/-! DEFINITION. What CONTAIN quarantines, its ends, and a halt (Tables 19-1 and 19-2, R603 to R608); no fault is raised
here. -/

namespace Sys2Proof.Machine

/-! ## Training states (SDS_STAT.STATE_A) -/

def tsOff : Nat := 0
def tsCal : Nat := 1
def tsDetect : Nat := 2
def tsPolling : Nat := 3
def tsConfig : Nat := 4
def tsRecovery : Nat := 5
def tsL0 : Nat := 6
def tsL0p : Nat := 7
def tsL1 : Nat := 8
def tsHold : Nat := 9
def tsDrLock : Nat := 10
def tsDrTrain : Nat := 11
def tsDrAlign : Nat := 12
def tsDrActive : Nat := 13
def tsDrRetrain : Nat := 14
def tsFailed : Nat := 15

/-- Power states of a lane (Table 3-10). -/
def psOff : Nat := 0
def psStandby : Nat := 1
def psSpare : Nat := 2
def psActive : Nat := 3

/-- SDS_PWR.LANE_OFF forces the lane OFF (R115). (DESIGN CHOICE, log entry 87) -/
def Dev.laneOff (d : Dev) (o l : Nat) : Bool := bit (d.get SDS_PWR_LANE_OFF o) l

/-- Every lane of octet o takes power state `ps`, but those forced OFF (R115). -/
def Dev.setLanes (d : Dev) (o : Nat) (ls : List Nat) (ps : Nat) : Dev :=
  ls.foldl (fun d l => d.put SDS_LANE_PSTATE o (if d.laneOff o l then psOff else ps) l) d

/-- A margining run on one of the lanes ends aborted, its offset back at zero (R108, Table 3-11); its event is noted. -/
def Dev.marginHits (d : Dev) (o : Nat) (ls : List Nat) : Bool := (d.octet o).margin.any ls.contains
def Dev.marginOff (d : Dev) (o : Nat) (ls : List Nat) : Dev :=
  let x := d.octet o
  let mine := x.partnerMargin.any fun m => ls.contains m.lane
  let d := if mine then (d.setOctet o { x with partnerMargin := none }).noteDue SDS_F_MARGIN_ABORT o else d
  if d.marginHits o ls then
    (((d.setOctet o { d.octet o with margin := none }).put SDS_MARGIN_STAT_BUSY o 0).put SDS_MARGIN_STAT_RESULT o 2).noteDue
      SDS_F_MARGIN_ABORT o
  else d

/-- The physical link of port p is gone: state, rate, width, lock and the link bits of PRT_STAT. -/
def Dev.linkStop (d : Dev) (p st : Nat) : Dev :=
  let os := d.portOctets p
  let d := d.setPortState p st
  let d := os.foldl (fun d o =>
    let d := (d.put (rateFld p) o 0).put (widthFld p) o 0
    let ls := d.portLanes p o
    let d := ls.foldl (fun d l => d.put SDS_LANE_LOCK o 0 l) d
    let d := d.marginOff o ls
    d.setLanes o ls psOff) d
  (d.put PRT_STAT_LINK_UP p 0).put PRT_STAT_DL_ACTIVE p 0

/-- Messages queued for port p are flushed and counted in PRT_DROP.FLUSHED; those partly received are discarded
(R149, R131). The number flushed. (DESIGN CHOICE, log entry 96) -/
def Dev.flushPort (d : Dev) (p : Nat) : Nat × Dev :=
  let (n, d) := d.flushDest p
  (n, ((d.inc PRT_DROP_FLUSHED p 0 n)).dropIngress p)

/-- The link of port p is not allowed to come up: the port, its octet or its slice is quarantined. -/
def Dev.portQuar (d : Dev) (p : Nat) : Bool :=
  d.quarantined (.port p) || d.quarantined (.octet (p / 2)) || d.quarantined (.slice (p / 8))


/-- State FLUSHED: no message is admitted and nothing is answered on any port (R544). -/
def Dev.flushed (d : Dev) : Bool := d.get PRF_STAT_STATE = 5

/-- The data plane stands still: halted (R607), or FLUSHED. (DESIGN CHOICE, log entry 14) -/
def Dev.halted (d : Dev) : Bool := d.on FAG_STAT_HALTED || d.flushed

/-- A power-fail flush runs (R540). -/
def Dev.flushing (d : Dev) : Bool := d.prf.phase ≠ 0

/-- Request classes are not admitted from any port, and no descriptor starts: a power-fail flush, or the quiesce of a Warm
or Control reset (R540, R577). -/
def Dev.reqStop (d : Dev) : Bool := d.flushing || d.rst.phase = .quiesce

/-- Requests for the internal endpoint of slice h are answered as R321 states (Tables 18-8, 19-2). -/
def Dev.sieShut (d : Dev) (h : Nat) : Bool :=
  d.quarantined (.slice h) || d.rst.active.any fun r => r.scope = .slice && r.target = h

/-- A Domain reset of the domain is in progress. -/
def Dev.domainRst (d : Dev) (dom : Nat) : Bool := d.rst.active.any fun r => r.scope = .domain && r.target = dom

/-- The port answers requests as R321 states: quarantined (Table 19-2), disabled (R685) or in a Port reset (R586). -/
def Dev.portShut (d : Dev) (p : Nat) : Bool := d.portQuar p || d.on PRT_LINKCTL_DISABLE p || (d.port p).resetting

/-- A message asks for an answer. -/
def Msg.asks (m : Msg) : Bool := [0x1, 0x3, 0x4, 0x9].contains m.cls

/-- Messages queued for port p and not sent, heads held for it among them. -/
def Dev.queuedFor (d : Dev) (p : Nat) : List Msg :=
  (d.core.oven.filter fun x => x.dest = p).map (·.m) ++ (d.port p).tx ++
    (d.core.held.filter (d.holdsFor p)).filterMap fun src => (d.relOf src).head?

/-- Requests queued for port p and not sent, posted writes among them. (DESIGN CHOICE, log entry 96) -/
def Dev.queuedAsks (d : Dev) (p : Nat) : List Msg := (d.queuedFor p).filter fun m => m.asks || m.tray ≠ 0

/-- Take a port's link down for a quarantine: what is queued for it is flushed, its requests to be answered; where its data
link was active, its loss is still to be reported (R149, R151, Table 19-2). (DESIGN CHOICE, log entry 28) -/
def Dev.stopPort (d : Dev) (p : Nat) : Dev :=
  if d.portDunrun p then
    let d := match d.linkOf (p / 2) with
      | some k => d.linkToDown k
      | none => d
    (d.linkStop p tsHold).dropIngress p
  else
    let asks := if d.isDown p then d.queuedAsks p else []
    let up := d.on PRT_STAT_DL_ACTIVE p
    let d := ((d.linkStop p tsHold).flushPort p).2
    d.modPort p fun x => { x with ended := x.ended ++ asks, downDue := x.downDue || up }

def Dev.addQuar (d : Dev) (e : Elem) : Dev :=
  { d with flt := { d.flt with quar := if d.flt.quar.contains e then d.flt.quar else d.flt.quar ++ [e] } }
def Dev.endQuar (d : Dev) (e : Elem) : Dev :=
  { d with flt := { d.flt with quar := d.flt.quar.filter (· ≠ e) } }

/-- The element that CONTAIN quarantines for a page's own sources (Table 19-2); none: it acts as NOTIFY. `q` is the
queue a DMV event names. -/
def elemOf (g : Pg) (q : Option Nat) : Option Elem :=
  match g.blk with
  | .prt | .egs | .pol | .gte | .acu => some (.port g.inst)
  | .sds => some (.octet g.inst)
  | .drl => some (.link g.inst)
  | .slc | .ovn | .arb | .dir | .scc | .tray | .dec | .tag => some (.slice g.inst)
  | .ldr => some (.chan g.inst)
  | .dmv => some (match q with | some n => .queue n | none => .engine g.inst)
  | .spu => some (.slot g.inst)
  | .prf => some .proof
  | _ => none

/-- The element of a requester (R604). -/
def Req.elem : Req → Elem
  | .port p => .port p
  | .ld p l => .ldKey p l
  | .queue q => .queue q

/-- A condition of R143 that keeps a port's PERST_OUT_N asserted. -/
def Dev.perstCond (d : Dev) (p : Nat) : Bool :=
  (d.port p).resetting || (d.port p).perstMin || d.on PRT_PERST_ASSERT p ||
    (d.on PRT_PERST_SLOT_EN p && !(d.on SPU_STAT_PG (d.get PRT_PERST_SLOT p) && (d.port p).perstDelayDone))

/-- Output pin j is deasserted. -/
def Dev.perstHigh (d : Dev) (j : Nat) : Bool := d.rst.perstOut.contains j

/-- The PERST_OUT_N of DOWNSTREAM port p is asserted. -/
def Dev.perstLow (d : Dev) (p : Nat) : Bool := d.isDown p && d.on PRT_PERST_OUT_EN p && !d.perstHigh (d.get PRT_PERST_OUT_PIN p)

/-- PERST_OUT_N pins deasserted (R143, R589). -/
def Dev.perstUpdate (d : Dev) : Dev :=
  let up := d.rst.phase = .running || d.rst.phase = .quiesce
  let ps (j : Nat) : List Nat := (List.range 128).filter fun p => d.isDown p && d.on PRT_PERST_OUT_EN p && d.get PRT_PERST_OUT_PIN p = j
  { d with rst := { d.rst with perstOut := (List.range 32).filter fun j => up && !(ps j).isEmpty && !(ps j).any d.perstCond } }

/-- Slot n's gate turns off and the slot takes state `st`; power good ends with ON, and PERST_OUT_N follows it (R523, R143). -/
def Dev.slotOff (d : Dev) (n st : Nat) : Dev :=
  let was := d.get SPU_STAT_STATE n
  let d := (d.put SPU_STAT_STATE n st).put SPU_STAT_PG n 0
  let d := if was = 2 || was = 3 then d.emit (.gate n false) else d
  if was = 3 then
    (((List.range 128).filter fun p => d.get PRT_PERST_SLOT p = n).foldl (fun d p =>
      d.modPort p fun x => { x with perstDelayDone := false }) d).perstUpdate
  else d

/-- Put an element into quarantine (Table 19-2). (DESIGN CHOICE, log entry 28) -/
def Dev.contain (d : Dev) (e : Elem) : Dev :=
  let d := d.addQuar e
  match e with
  | .port p => d.stopPort p
  | .octet o => (d.octPorts o).foldl (fun d p => d.stopPort p) d
  | .link k => (d.linkToDown k)
  | .slice s => ((List.range 8).filter fun i => d.portAvail (8 * s + i)).foldl (fun d i => d.stopPort (8 * s + i)) d
  | .chan c => d.put LDR_CHSTAT_STATE c 4
  | .queue q => d.setQState q qQuar
  | .engine _ => d
  | .slot n => d.slotOff n 5
  | .proof => ({ d with prf := { d.prf with contained := true } } : Dev).put PRF_ALLOW_DMAX 0 0
  | .ldKey _ _ => d

/-- R607: the device halts. `cause` as FAG_HALTLOG.CAUSE. (DESIGN CHOICE, log entry 14) -/
def Dev.haltNow (d : Dev) (g : Pg) (src cause : Nat) : Dev :=
  if d.on FAG_STAT_HALTED then d
  else
    let d := ((d.put FAG_STAT_HALTED 0 1).put FAG_STAT_FATAL 0 1).put DEV_READY_FABRIC_READY 0 0
    let d := if d.on FAG_HALTLOG_VALID then d else
      ((((d.put FAG_HALTLOG_PAGE 0 (g.addr / 4096)).put FAG_HALTLOG_SOURCE 0 src).put FAG_HALTLOG_CAUSE 0 cause).put
        FAG_HALTLOG_TS 0 (d.fab % 2 ^ 32)).put FAG_HALTLOG_VALID 0 1
    let d := (List.range 12).foldl (fun d c =>
      if d.get LDR_CHSTAT_STATE c = 2 then d.put LDR_CHSTAT_STATE c 3 else d) d
    ((List.range 128).filter fun p => d.portAvail p && d.portState p ≠ tsOff).foldl (fun d p => d.linkStop p tsHold) d

/-- HALT of a source: held until HU_OK goes low during a power-fail flush, unless it is a clock loss (R608). (DESIGN CHOICE, log entry 14) -/
def Dev.haltBy (d : Dev) (g : Pg) (src cause : Nat) : Dev :=
  if d.flushing && cause ≠ 3 then
    (if d.flt.haltWait.isSome then d else { d with flt := { d.flt with haltWait := some (g.addr, src, cause) } })
  else d.haltNow g src cause

end Sys2Proof.Machine
end

