-- ==== Sys2Proof/Machine/Faults.lean ====
section
/-! DEFINITION. A fault event: what it records, the action of its severity, its escalation (chapter 19). -/

namespace Sys2Proof.Machine

/-- Level of a source (R609). -/
def Dev.level (d : Dev) (g : Pg) (n : Nat) : Nat :=
  if bit (d.get (FLT_STATUS_STATUS g.blk) g.inst) n then SMap.get 0 d.flt.levels (fkey g n) else 0

def Dev.masked (d : Dev) (g : Pg) (n : Nat) : Bool := bit (d.get (FLT_MASK_MASK g.blk) g.inst) n

/-- A page's own element, or one that holds it, is quarantined (R605). -/
def Dev.pageQuar (d : Dev) (g : Pg) (q : Option Nat) : Bool :=
  match g.blk with
  | .prt | .egs | .pol | .gte | .acu => d.portQuar g.inst
  | .sds => d.quarantined (.octet g.inst)
  | _ => match elemOf g q with | some e => d.quarantined e | none => false

/-- The queue a requester is. -/
def Who.queue (w : Who) : Option Nat := match w.req with | some (.queue q) => some q | _ => none

/-- The source is masked, or the element it belongs to is quarantined: the event acts as LOG (R599, R605). -/
def Dev.muted (d : Dev) (s : FSrc) (g : Pg) (w : Who) : Bool :=
  d.masked g s.num ||
    if s.attr then (match w.req with | some r => d.quarantined r.elem | none => false) else d.pageQuar g w.queue

/-- The source has had an event in this cycle: what follows is the same event for severity and escalation (R598). -/
def Dev.again (d : Dev) (s : FSrc) (g : Pg) : Bool := SMap.get 0 d.flt.cyc (fkey g s.num) ≠ 0

/-- Effective severity, and whether it was raised by escalation (R609, R612): the level is that before the cycle. -/
def Dev.effective (d : Dev) (s : FSrc) (g : Pg) (w : Who) : Nat × Bool :=
  let sev := min 4 (bits (d.word (FLT_SEV g.blk) g.inst) (3 * s.num) 3)
  let lvl := if d.again s g then SMap.get 0 d.flt.cyc (fkey g s.num) - 1 else d.level g s.num
  let cap := if s.attr then 3 else 4
  if d.muted s g w then (0, false)
  else if lvl ≥ 1 && g.blk ≠ .fag then
    let eff := min (max sev (lvl + 1)) cap
    (eff, eff > sev)
  else (min sev cap, false)

/-- The source's event belongs to this cycle. (DESIGN CHOICE, log entry 28) -/
def Dev.cycMark (d : Dev) (s : FSrc) (g : Pg) (w : Who) : Dev :=
  if d.muted s g w || d.again s g then d
  else { d with flt := { d.flt with cyc := SMap.set 0 d.flt.cyc (fkey g s.num) (d.level g s.num + 1) } }

/-- FLT_FIRST takes the event while it holds no record, or one of this cycle with a higher source number (R597, R598). -/
def Dev.firstFault (d : Dev) (s : FSrc) (g : Pg) (eff : Nat) (esc : Bool) : Dev :=
  let b := g.blk
  let i := g.inst
  let k := g.addr / 4096
  if d.on (FLT_FIRST_VALID b) i && !(d.flt.cycFirst.contains k && s.num < d.get (FLT_FIRST_SOURCE b) i) then d
  else
    let d : Dev := { d with flt := { d.flt with cycFirst := if d.flt.cycFirst.contains k then d.flt.cycFirst else d.flt.cycFirst ++ [k] } }
    ((((d.put (FLT_FIRST_SOURCE b) i s.num).put (FLT_FIRST_SEV b) i eff).put (FLT_FIRST_ESC b) i (b2n esc)).put
      (FLT_FIRST_TS b) i (d.fab % 2 ^ 32)).put (FLT_FIRST_VALID b) i 1

/-- Word of a fault event record (Table 20-8). -/
def faultWord (g : Pg) (n eff : Nat) (esc : Bool) (t : Nat) : W64 :=
  BitVec.ofNat 64 (g.idx % 2048 + n * 2 ^ 11 + eff * 2 ^ 15 + b2n esc * 2 ^ 18 + t % 2 ^ 32 * 2 ^ 32)

/-- What R597 records of an event; `count`: an escalation not counted yet in this cycle. -/
def Dev.recordFault (d : Dev) (s : FSrc) (g : Pg) (eff : Nat) (esc count : Bool) : Dev :=
  let b := g.blk
  let i := g.inst
  let st := d.get (FLT_STATUS_STATUS b) i
  let lvl := max (d.level g s.num) eff
  let d := d.put (FLT_STATUS_STATUS b) i (if bit st s.num then st else st + 2 ^ s.num)
  let d := { d with flt := { d.flt with levels := SMap.set 0 d.flt.levels (fkey g s.num) lvl } }
  let d := d.put (FLT_COUNT_EVENTS b) i (min (d.get (FLT_COUNT_EVENTS b) i + 1) (2 ^ 32 - 1))
  let d := if count then d.put (FLT_COUNT_ESCALATIONS b) i (min (d.get (FLT_COUNT_ESCALATIONS b) i + 1) 65535) else d
  (d.firstFault s g eff esc).count b i (0x010 + s.num)

/-- The actions of Table 19-1 from CONTAIN up. (DESIGN CHOICE, log entry 28) -/
def Dev.actFault (d : Dev) (s : FSrc) (g : Pg) (eff : Nat) (esc : Bool) (w : Who) : Dev :=
  let d := if eff ≥ 2 then
      (if s.attr then (match w.req with | some r => d.contain r.elem | none => d)
       else match elemOf g w.queue with | some e => d.contain e | none => d)
    else d
  let d := if eff = 3 && s.attr then (match w.dom with | some k => d.quench k none true | none => d) else d
  if eff ≥ 4 then d.haltBy g s.num (if esc then 2 else 1) else d

/-- The report of an event on the aggregation path is lost, where an injection is armed at FAG (R617): the page's own record
stands. (DESIGN CHOICE, log entry 24) -/
def Dev.reportLost (d : Dev) (s : FSrc) : Bool × Dev :=
  if s.blk = .fag then (false, d)
  else
    let r := d.injectAt .fag 0 [FAG_F_PATH_PARITY.num] none
    (r.1.isSome, r.2)

/-- One fault event of source `s` of instance `i` (R597, R602, R616, R646). `n` bounds the events it leads to in turn:
FAG's ESCALATION, Crumb's DROPPED, telemetry's DROP. -/
def Dev.raiseN (n : Nat) (d : Dev) (s : FSrc) (i : Nat) (w : Who) : Dev :=
  match n with
  | 0 => d
  | n + 1 =>
    let g : Pg := ⟨s.blk, i⟩
    let (eff, esc) := d.effective s g w
    let first := esc && !d.again s g
    let d := (d.cycMark s g w).recordFault s g eff esc first
    let (lost, d) := d.reportLost s
    let d := if eff ≥ 1 && !lost then d.irq 0 else d
    let d := d.actFault s g eff esc w
    let due := d.flt.due
    let d := due.foldl (fun d x => d.raiseN n x.1 x.2.1 x.2.2) { d with flt := { d.flt with due := [] } }
    let d := if lost then d.raiseN n FAG_F_PATH_PARITY 0 {} else d
    let d := if eff ≥ d.get CRB_CFG_SEV_MIN && !lost then
        match d.crumbTrigger 2 with
        | (true, d) => d.raiseN n CRB_F_DROPPED 0 {}
        | (false, d) => d
      else d
    let d := if d.on TLM_CFG_FLT_EN && eff ≥ d.get TLM_CFG_FLT_MIN && !(s.blk = .tlm && s.num = 0) then
        match d.ringPut (d.get TLM_CFG_FLT_RING) 7 2 [faultWord g s.num eff esc d.fab] true with
        | (.dropped, _, d) => d.raiseN n TLM_F_DROP 0 {}
        | (.failed, _, d) => d.raiseN n TLM_F_WRITE_FAIL 0 {}
        | (_, true, d) =>
          (match d.crumbTrigger 5 with
          | (true, d) => d.raiseN n CRB_F_DROPPED 0 {}
          | (false, d) => d)
        | (_, false, d) => d
      else d
    if first then d.raiseN n FAG_F_ESCALATION 0 {} else d

/-- A fault event of source `s` in instance `i`; `w` names the requester and domain of an attributable one. -/
def Dev.raise (d : Dev) (s : FSrc) (i : Nat) (w : Who := {}) : Dev := d.raiseN 4 s i w

/-- The events noted while a link, a port or an octet went down are raised. -/
def Dev.raiseDue (d : Dev) : Dev :=
  let due := d.flt.due
  due.foldl (fun d x => d.raise x.1 x.2.1 x.2.2) { d with flt := { d.flt with due := [] } }

/-- The checker of a table reads the entries `is` of an instance: its page raises each uncorrectable one once (R619). (DESIGN CHOICE, log entry 109) -/
def Dev.tabRead (d : Dev) (t inst : Nat) (is : List Nat) : Dev :=
  match tabUeSrc t inst with
  | none => d
  | some (src, pg) =>
    is.foldl (fun d i =>
      let k := tkey t inst i 0
      if !d.tabUe.contains k || d.tabUeSeen.contains k then d
      else
        let d : Dev := { d with tabUeSeen := d.tabUeSeen ++ [k] }
        d.raise src pg) d

/-- A condition that persists (R13, R611): its status bit sets again when cleared. (DESIGN CHOICE, log entry 28) -/
def Dev.persist (d : Dev) (s : FSrc) (i : Nat) (on : Bool) : Dev :=
  let k := fkey ⟨s.blk, i⟩ s.num
  let l := d.flt.persist.filter (· ≠ k)
  { d with flt := { d.flt with persist := if on then l ++ [k] else l } }

/-- A Crumb trigger with its DROPPED event. -/
def Dev.crumb (d : Dev) (cause : Nat) : Dev :=
  match d.crumbTrigger cause with
  | (true, d) => d.raise CRB_F_DROPPED 0
  | (false, d) => d

/-- A record offered to a ring, with its DROP, WRITE_FAIL and Crumb consequences (R645, R649, R650). -/
def Dev.putRecord (d : Dev) (k src type_ : Nat) (payload : List W64) (ok : Bool) : Dev :=
  match d.ringPut k src type_ payload ok with
  | (.dropped, _, d) => d.raise TLM_F_DROP 0
  | (.failed, _, d) => d.raise TLM_F_WRITE_FAIL 0
  | (_, true, d) => d.crumb 5
  | (_, false, d) => d

/-- Summary bits of a page's faults (R599, R609). -/
def Dev.fltPend (d : Dev) (g : Pg) : Bool :=
  let m := d.get (FLT_MASK_MASK g.blk) g.inst
  (List.range 16).any fun n => bit (d.get (FLT_STATUS_STATUS g.blk) g.inst) n && !bit m n
def Dev.pendAt (d : Dev) (g : Pg) (lvl : Nat) : Bool :=
  (List.range 16).any fun n => !d.masked g n && d.level g n ≥ lvl && d.level g n ≥ 1

/-- ALERT_N (R614): asserted. -/
def Dev.alert (d : Dev) : Bool :=
  d.on FAG_CFG_ALERT_EN && (d.on FAG_STAT_HALTED || Pg.all.any fun g => d.pendAt g (max 1 (d.get FAG_CFG_ALERT_MIN)))

/-- An access beyond a Larder LD raises LD_RANGE (R438); the access itself is `tgtAccess`. -/
def Dev.tgtReach (d : Dev) (s tk dpa : Nat) (write : Bool) (m : Msg) : Dev :=
  let bad := tk ≥ 0x800 && dpa + 64 > d.ldSize (tk - 0x800)
  let d := d.tgtAccess s tk dpa write m
  if bad then d.raise LDR_F_LD_RANGE 0 else d

end Sys2Proof.Machine
end

