-- ==== Sys2Proof/Machine/CtlOps.lean ====
section
/-! DEFINITION. Reaching the control space: the paths of Table 2-3, refused accesses, and what a control command needs
before it acts (chapter 2, R590). -/

namespace Sys2Proof.Machine

/-- A path can reach the control space now: the management PF while its link is up, the MCTP ports and device firmware
while firmware runs (R38), JTAG while debug is unlocked (Table 2-3). (DESIGN CHOICE, log entry 13) -/
def Dev.pathOpen (d : Dev) (path : Nat) : Bool :=
  match path with
  | 1 => d.ctl.pfUp
  | 2 | 3 | 4 => d.on DEV_READY_FW_RUN
  | 5 => d.on SEC_STAT_DBG
  | _ => false

/-- A refused access is recorded in MGT_ERRLOG, or counted, and raises BAD_ACCESS (R42). (DESIGN CHOICE, log entry 16) -/
def Dev.badAccess (d : Dev) (path addr cause : Nat) (write : Bool) : Dev :=
  let d := if d.on MGT_ERRLOG_VALID then d else
    ((((d.put MGT_ERRLOG_OFFSET 0 addr).put MGT_ERRLOG_WRITE 0 (b2n write)).put MGT_ERRLOG_PATH 0 path).put
      MGT_ERRLOG_CAUSE 0 cause).put MGT_ERRLOG_VALID 0 1
  d.raise MGT_F_BAD_ACCESS 0

/-- A page a Control start has not made reachable yet (R590). -/
def Dev.notYet (d : Dev) (b : Blk) : Bool :=
  d.rst.kind = .control && d.rst.phase = .starting && !d.on DEV_READY_FW_RUN && !(List.contains [Blk.dev, .ckr, .sec, .mgt] b)

/-- A write by a path to an offset of a page: `f` where it arrives. (DESIGN CHOICE, log entry 16) -/
def Dev.access (d : Dev) (path : Nat) (g : Pg) (off : Nat) (f : Dev → Dev) : Dev :=
  if !d.pathOpen path then d
  else if d.notYet g.blk then d.badAccess path (g.addr + off) 4 true
  else f d

/-- A write by a path to a page named by its number, BAR0 offset bits 25:12; a reserved page drops it (R42). -/
def Dev.accessPg (d : Dev) (path pg off : Nat) (f : Pg → Dev → Dev) : Dev :=
  match Pg.at? (pg * 4096) with
  | some g => d.access path g off (f g)
  | none => if d.pathOpen path then d.badAccess path (pg * 4096 + off) 2 true else d

end Sys2Proof.Machine
end

