-- ==== Sys2Proof/Machine/TrafficOps.lean ====
section
/-! DEFINITION. Policers, shapers, the egress scheduler and the gate schedule (chapter 8). -/

namespace Sys2Proof.Machine

/-! ## Policing (R272 to R277) -/

/-- One policer's bucket: refill by `rate` MB/s over `dt` TIMECLK cycles, limited to `size` (R274). -/
def bucketFill (rate dt size tok rem : Nat) : Nat × Nat :=
  let a := rate * dt + rem
  let t := tok + a / 275
  if t ≥ size then (size, 0) else (t, a % 275)

/-- Colour of a message of `b` bytes with incoming colour `pre` (0 green, 1 yellow, 2 red), and the meter after it. -/
def meterStep (w1 w2 : W64) (m : Meter) (b now pre : Nat) : Nat × Meter :=
  let dt := now - m.last
  let (tc, rc) := bucketFill (bits w1 0 20) dt (bits w1 20 24) m.tc m.rc
  let (tp, rp) := bucketFill (bits w2 0 20) dt (bits w2 20 24) m.tp m.rp
  if pre = 2 || tp < b then (2, ⟨now, tc, rc, tp, rp⟩)
  else if pre = 1 || tc < b then (1, ⟨now, tc, rc, tp - b, rp⟩)
  else (0, ⟨now, tc - b, rc, tp - b, rp⟩)

/-- Classes the device meters (R272). -/
def clsMetered (c : Nat) : Bool := [0x0, 0x1, 0x3, 0x4, 0xF].contains c

/-- Police a message at its first presentation by port `p`: whether it passes, and its colour. (DESIGN CHOICE, log entry 102) -/
def Dev.police (d : Dev) (p : Nat) (m : Msg) : Bool × Nat × Dev :=
  if !clsMetered m.cls then (true, m.colour, d)
  else
    let own (i : Nat) : Bool :=
      let w := d.tab 0x0A p i 0
      bits w 13 1 = 1 && bits w 0 10 = m.domain && bits w 10 3 = m.tc && !d.tabBad 0x0A p i
    let d := d.tabRead 0x0A p (List.range 128)
    let drop (d : Dev) : Dev :=
      (d.inc POL_STAT1_DISCARDED p).raise POL_F_DISCARD p { dom := some m.domain, req := m.req }
    match (List.range 128).find? own with
    | none => if d.on POL_CFG_UNMATCHED p then (false, m.colour, drop d) else (true, m.colour, d)
    | some i =>
      let w := d.tab 0x0A p i 0
      let pre := if bits w 14 1 = 0 || m.colour = 3 then 0 else m.colour
      let (c, mt) := meterStep (d.tab 0x0A p i 1) (d.tab 0x0A p i 2) (d.meter p i) m.bytes d.tclk pre
      let d := d.setMeter p i mt
      let d := if c = 0 then d.inc POL_STAT0_GREEN p else if c = 1 then d.inc POL_STAT0_YELLOW p else d.inc POL_STAT1_RED p
      if bits w (16 + 2 * c) 2 = 1 then (false, c, drop d) else (true, c, d)

/-! ## Shapers (R279 to R283) -/

def Dev.shEn (d : Dev) (q t : Nat) : Bool := bits (d.tabF 0x0B q t 2) 0 1 = 1

/-- Both buckets of a shaper with EN 0 count as positive. -/
def Dev.peakOk (d : Dev) (q t : Nat) : Bool := !d.shEn q t || 0 < (d.shaper q t).ptok
def Dev.commOk (d : Dev) (q t : Nat) : Bool := !d.shEn q t || 0 < (d.shaper q t).ctok

/-- What a selected message is charged: L, or nothing while its shaper is off (R279). -/
def Dev.lCharged (d : Dev) (q : Nat) (m : Msg) : Nat := if d.shEn q m.tc then d.chargeOf q m else 0

/-- Charge a selected message to its TC's shaper (R279). -/
def Dev.charge (d : Dev) (q : Nat) (m : Msg) : Dev :=
  if d.shEn q m.tc then
    let x := d.shaper q m.tc
    let l := d.chargeOf q m
    (d.setShaper q m.tc { x with ctok := x.ctok - l, ptok := x.ptok - l }).count .egs q (0x208 + m.tc) l
  else d

/-- One signed bucket gains (rate × n + remainder) div 275 bytes and what is owed back, up to its size (R280, R282). -/
def signedFill (rate n size owed : Nat) (tok : Int) (rem : Nat) : Int × Nat :=
  let a := rate * n + rem
  let t := tok + (a / 275 : Nat) + owed
  if t ≥ size then ((size : Int), 0) else (t, a % 275)

/-! ## The gate schedule (R291 to R300) -/

/-- Times are counted in units of 2^−16 / 11 ns, of which a root tick is 81,920 and a nanosecond 720,896. -/
def tickU (t : Nat) : Nat := t * 81920
def nsFracU (ns frac : Nat) : Nat := ns * 720896 + frac * 11
/-- First root tick at or after a time. -/
def uTick (u : Nat) : Nat := (u + 81919) / 81920

/-- A gate list with its base and cycle. -/
structure Sched where
  en : Bool
  base : Nat
  cycle : Nat
  entries : List (Nat × Nat)
  deriving DecidableEq, Repr

/-- The committed list of a port, or the previous one (R298). -/
def Dev.sched (d : Dev) (q : Nat) (prev : Bool) : Sched :=
  let g (f : Fld) : Nat := if prev then bits (SMap.get (f.reg.resetAt q 0) d.prev (f.reg.addr q 0)) f.lo f.width else d.get f q
  let t (i w : Nat) : W64 := if prev then SMap.get 0 d.tabPrev (tkey 0x0C q i w) else d.tab 0x0C q i w
  { en := g GTE_CFG_GATE_EN = 1,
    base := nsFracU (g GTE_BASE1_SEC * 1000000000 + g GTE_BASE0_NS) (g GTE_BASE0_FRAC),
    cycle := nsFracU (g GTE_CYCLE_NS) (g GTE_CYCLE_FRAC),
    entries := (List.range (g GTE_CFG_LEN + 1)).map fun i =>
      (nsFracU (bits (t i 0) 16 30) (bits (t i 0) 0 16), bits (t i 1) 0 8) }

/-- Beginning of each entry from its cycle's start. -/
def Sched.begins (s : Sched) : List Nat :=
  (s.entries.foldl (fun (acc : List Nat × Nat) e => (acc.1 ++ [acc.2], acc.2 + e.1)) ([], 0)).1

/-- Entry and gates in force at a time; every gate is open while no list runs. (DESIGN CHOICE, log entry 100) -/
def Sched.at_ (s : Sched) (u : Nat) : Nat × Nat :=
  if !s.en || u < s.base || s.cycle = 0 then (0, 255)
  else
    let r := (u - s.base) % s.cycle
    ((s.entries.zip s.begins).zipIdx).foldl (fun acc x =>
      if x.1.1.1 ≠ 0 && x.1.2 ≤ r then (x.2, x.1.1.2) else acc) (0, 0)

/-- Times at which the list may change its gates, in the cycle of `u` and the two after it. -/
def Sched.edges (s : Sched) (u : Nat) : List Nat :=
  if !s.en || s.cycle = 0 then []
  else
    let k := (u - s.base) / s.cycle
    (List.range 3).flatMap fun j =>
      (s.begins.filter (· < s.cycle)).map fun b => s.base + (k + j) * s.cycle + b

/-- Entry and gates of a port at fabric time `t` in root ticks; all gates are open while its page is disabled
(R72), and closed while the entry in force is uncorrectable (R308). (DESIGN CHOICE, log entry 100) -/
def Dev.gatesAt (d : Dev) (q t : Nat) : Nat × Nat :=
  let closed (prev : Bool) (x : Nat × Nat) : Nat × Nat :=
    if (d.sched q prev).en && (if prev then d.tabUePrev else d.tabUe).contains (tkey 0x0C q x.1 0) then (x.1, 0) else x
  if !d.enabled ⟨.gte, q⟩ then (0, 255)
  else match (d.egress q).switchAt with
  | some sw => if t < sw then (if (d.egress q).gateOn then closed true ((d.sched q true).at_ (tickU t)) else (0, 255))
               else closed false ((d.sched q false).at_ (tickU t))
  | none => closed false ((d.sched q false).at_ (tickU t))

/-- R300, R291: port q begins a message now. -/
def Dev.stampStart (d : Dev) (q : Nat) : Dev :=
  let x := tickU d.fab / 11
  (d.put GTE_LASTTS0_TS q (x / 65536 % 1000000000 * 65536 + x % 65536)).put GTE_LASTTS1_SEC q (x / 65536 / 1000000000)

def Dev.gateOpen (d : Dev) (q tc t : Nat) : Bool := bit (d.gatesAt q t).2 tc

/-- The next tick after `t` at which gate `tc` closes; none when it stays open. -/
def Dev.closeOf (d : Dev) (q tc t : Nat) : Option Nat :=
  let sw := (d.egress q).switchAt
  let es := (d.sched q false).edges (tickU (max t (sw.getD t)))
    ++ (if sw.isSome then (d.sched q true).edges (tickU t) else [])
  let ts := (es.map uTick ++ sw.toList).filter fun x => t < x && !d.gateOpen q tc x
  ts.min?

/-- Lane rate of a rate code in GT/s. -/
def rateGt (code : Nat) : Nat :=
  match code with
  | 3 => 8 | 4 => 16 | 5 => 32 | 6 => 64 | 7 => 128 | 8 => 112 | 9 => 128 | 2 => 5 | _ => 0

/-- Root ticks that `n` bytes take on a port: ceil(n × 8.8 / BR), BR = width × rate / 8. -/
def Dev.txTicks (d : Dev) (q n : Nat) : Nat :=
  let br := d.get (widthFld q) (q / 2) * rateGt (d.get (rateFld q) (q / 2))
  if br = 0 then 0 else (n * 704 + 10 * br - 1) / (10 * br)

def Dev.maxLen (d : Dev) (q t : Nat) : Nat := bits (d.word GTE_MAXLEN q) (8 * t) 8

/-- How a message is tested against its window: it may start; its guard band or a closed gate forbids it; it does not
fit and is held to the next opening (R295, R296). -/
inductive GateEnd | start | wait | hold (close : Nat)
  deriving DecidableEq, Repr

def Dev.gateFit (d : Dev) (q : Nat) (m : Msg) : Bool :=
  d.on GTE_CFG_FIT_ACT q || m.bytes > 8 * d.maxLen q m.tc

def Dev.gateTest (d : Dev) (q : Nat) (m : Msg) : GateEnd :=
  let t := d.fab
  if !d.precision q then .start
  else if !d.gateOpen q m.tc t then .wait
  else if (d.egress q).gateHeld.any (fun x => x % 8 = m.tc && t < x / 8) then .wait
  else match d.closeOf q m.tc t with
    | none => .start
    | some c =>
      if d.gateFit q m then (if t + d.txTicks q (d.chargeOf q m) ≤ c then .start else .hold c)
      else if t + d.txTicks q (8 * d.maxLen q m.tc + d.getF EGS_CFG_OVH q) < c then .start else .wait

/-- A message that does not fit holds its TC (R296). -/
def Dev.gateNote (d : Dev) (q : Nat) (m : Msg) : Dev :=
  match d.gateTest q m with
  | .hold c =>
    (d.inc GTE_STAT_HELD q).setEgress q
      { d.egress q with gateHeld := (d.egress q).gateHeld.filter (fun x => d.fab < x / 8) ++ [m.tc + 8 * c] }
  | _ => d

/-- A queued message is tested against its window: OVERSIZE counts it once (R296). -/
def Dev.gateHold (d : Dev) (q : Nat) (x : Stored) : Dev :=
  let m := x.m
  let large := d.precision q && !d.on GTE_CFG_FIT_ACT q && m.bytes > 8 * d.maxLen q m.tc && !m.oversize && d.gateTest q m ≠ .wait
  let d := if large then
      ((d.modStored x.id fun y => { y with m := { y.m with oversize := true } }).inc GTE_STAT_OVERSIZE q).raise GTE_F_OVERSIZE q else d
  d.gateNote q m

/-- The TCs held to the next opening of their gates, held before fabric time `t`, see the gates as they now stand (R296, R298, R299). -/
def Dev.regate (d : Dev) (q t : Nat) : Dev :=
  let keep (h : Nat) : Option Nat :=
    if d.gateOpen q (h % 8) d.fab then (d.closeOf q (h % 8) d.fab).map (fun c => h % 8 + 8 * c) else none
  d.setEgress q { d.egress q with gateHeld := ((d.egress q).gateHeld.filter fun h => t < h / 8).filterMap keep }

/-! ## The scheduler (R284 to R286) -/

/-- Room for a message in its VC at the far end of link `k` (R177). -/
def Dev.linkCredit (d : Dev) (k : Nat) (m : Msg) : Bool :=
  let v := d.vcOf k m.cls
  let l := d.link k
  (SMap.get 0 l.limit v + 2 ^ 20 - SMap.get 0 l.sent v) % 2 ^ 20 ≥ m.len + 1

/-- The destination's link layer takes messages now: a CXL port in L0 or L0p whose partner has not run the class out of credit,
a Dunrun port whose link is ACTIVE and has credit for the class (R223). (DESIGN CHOICE, log entry 125) -/
def Dev.linkTakes (d : Dev) (q : Nat) (m : Msg) : Bool :=
  if d.portDunrun q then
    match d.linkOf (q / 2) with
    | some k => d.lkState k = lkActive && d.linkCredit k m
    | none => false
  else d.on PRT_STAT_DL_ACTIVE q && (d.portState q = 6 || d.portState q = 7) && !(d.port q).dry.contains m.cls

/-- The message that source `src` would give port `q` in class `t` now. -/
def Dev.headFor (d : Dev) (src q t : Nat) : Option Stored := d.eligibleHead src q t fun x => d.linkTakes q x.m

/-- The source R225 would serve for (q, t): the first after the last one served. -/
def Dev.srcFor (d : Dev) (q t : Nat) : Option (Nat × Stored) :=
  let last := SMap.get 143 d.core.lastSrc (q * 8 + t)
  (List.range 144).findSome? fun i =>
    let src := (last + 1 + i) % 144
    (d.headFor src q t).map fun x => (src, x)

/-- The message R225 would take for TC t, when its shaper makes it a candidate: the one that is tested against its window (R296). -/
def Dev.gateTestee (d : Dev) (q t : Nat) : Option Stored :=
  if d.tabBad 0x0B q t || !d.peakOk q t then none else (d.srcFor q t).map (·.2)

/-- A TC is a candidate (R284, R305). -/
def Dev.cand (d : Dev) (q t : Nat) : Bool :=
  match d.srcFor q t with
  | some (_, x) => !d.tabBad 0x0B q t && d.peakOk q t && d.gateTest q x.m = .start
  | none => false

def Dev.strictTc (d : Dev) (q t : Nat) : Bool := bit (d.get EGS_CFG_STRICT q) t
def Dev.quantum (d : Dev) (q t : Nat) : Nat := bits (d.word EGS_QUANTUM q) (8 * t) 8

/-- The next TC after `t`, cyclically, that meets `p`. -/
def nextOf (t : Nat) (p : Nat → Bool) : Option Nat := ((List.range 8).map fun i => (t + 1 + i) % 8).find? p

/-- The deficit round of R285: advance CPTR, adding quanta, until a deficit is above zero. -/
def drrStep (quant : Nat → Nat) (ok : Nat → Bool) : Nat → SMap Int → Nat → Nat × SMap Int
  | 0, defs, c => (c, defs)
  | n + 1, defs, c =>
    match nextOf c ok with
    | none => (c, defs)
    | some t =>
      let v := SMap.get 0 defs t + 64 * quant t
      let defs := SMap.set 0 defs t v
      if 0 < v then (t, defs) else drrStep quant ok n defs t

/-- next_tc(q) (R285), with the tier it came from: true when committed. -/
def Dev.nextTc (d : Dev) (q : Nat) : Option (Nat × Bool) × Dev :=
  let cs := (List.range 8).filter (d.cand q)
  let x := d.egress q
  match (cs.filter (d.strictTc q)).reverse.head? with
  | some t => (some (t, false), d)
  | none =>
    let comm (t : Nat) : Bool := cs.contains t && !d.strictTc q t && d.commOk q t
    let exc (t : Nat) : Bool := cs.contains t && !d.strictTc q t
    if (List.range 8).any comm then
      if comm x.cptr && 0 < SMap.get 0 x.def_ x.cptr then (some (x.cptr, true), d)
      else
        let debt := ((List.range 8).map fun t => (SMap.get 0 x.def_ t).natAbs).sum
        let (t, defs) := drrStep (d.quantum q) comm (debt / 8 + 16) x.def_ x.cptr
        (some (t, true), d.setEgress q { x with cptr := t, def_ := defs })
    else match nextOf x.eptr exc with
      | some t => (some (t, false), d.setEgress q { x with eptr := t })
      | none => (none, d)

/-- DEF after a selection or express confirmation (R286). -/
def Dev.settleDef (d : Dev) (q : Nat) (m : Msg) (committed : Bool) : Dev :=
  let x := d.egress q
  let v := SMap.get 0 x.def_ m.tc - (if committed then (d.chargeOf q m : Int) else 0)
  let v := if d.anyLeft q m.tc then v else min v 0
  d.setEgress q { x with def_ := SMap.set 0 x.def_ m.tc v }

/-- Dequeue delay of a selection (R288). -/
def Dev.noteDelay (d : Dev) (q : Nat) (m : Msg) : Dev :=
  let dly := (d.fab % 2 ^ 32 + 2 ^ 32 - m.ts % 2 ^ 32) % 2 ^ 32
  if dly > d.get EGS_TCSTAT_MAXDLY q m.tc then d.put EGS_TCSTAT_MAXDLY q dly m.tc else d

end Sys2Proof.Machine
end

