-- ==== Sys2Proof/Machine/PathOps.lean ====
section
/-! DEFINITION. The way of an access into the core: access check, decode, mirror sets, the Tray and combining buffers,
admission, and the express path (chapters 6, 9, 12 and 15). -/

namespace Sys2Proof.Machine

/-! ## Kinds -/

/-- The access a request makes; none where the check passes it unexamined (Table 15-5, R494). -/
def accKind (o : MOp) : Option AccKind :=
  match o with
  | .memRdData | .memRdCur | .memRdNoOp | .rdShared | .rdAny | .rdCurr | .ioRd => some .read
  | .memRdInv | .memInv | .rdOwn | .rdOwnNoData => some .own
  | .memWr | .memWrPtl | .itoMWr | .wrCur | .cMemWr | .ioWr => some .write
  | .memWrI | .memWrS | .dirtyEvict => some .wb
  | .ioAtom => some .atomic
  | _ => none

def clnOp (o : MOp) : Bool := [MOp.memClnEvct, .cleanEvict, .cleanEvictNoData].contains o

/-- A message asks for an answer that this device awaits (R152). -/
def Msg.awaits (m : Msg) : Bool :=
  m.asks || ((m.cls = 0xD || m.cls = 0xF) && ((accKind m.body.op).isSome || clnOp m.body.op || svcOp m.body.op || cfgOp m.body.op))

/-- Requests that take a Tray entry (R403): kinds WR and ATOM, CXL.io memory writes. -/
def trayOp (o : MOp) : Bool :=
  [MOp.memWr, .memWrPtl, .itoMWr, .wrCur, .cMemWr, .ioWr, .ioAtom, .svcWr, .svcAtom].contains o

/-- Class of a message a CXL port receives (Table 5-4). `up`: from a host. (DEDUCED, log entry 103) -/
def opCls (o : MOp) (up : Bool) : Nat :=
  match o with
  | .memRdData | .memRdInv | .memInv | .memRdCur | .memRdNoOp | .memClnEvct => 0x3
  | .memWr | .memWrPtl | .memWrI | .memWrS => 0x4
  | .rdShared | .rdAny | .rdOwn | .rdOwnNoData | .rdCurr | .itoMWr | .wrCur | .cMemWr | .dirtyEvict | .cleanEvict
  | .cleanEvictNoData => 0x9
  | .ioRd | .ioAtom | .cfgRd | .cfgWr => 0x1
  | .ioWr | .ioMsg | .gpfAsk | .rstAsk | .fnMsi => 0x0
  | .gpfAns => 0x2
  | .uio => 0x1
  | .ioCpl | .ioUr => 0x2
  | .bisInv | .bisData | .bisCur => 0x7
  | .ansI | .ansS | .ansE => if up then 0x8 else 0xA
  | .cacheOther => if up then 0xB else 0x9
  | .tgtData => 0x6
  | .tgtDone | .tgtFail => 0x5
  | .biRspI | .biRspS => 0x8
  | .snpData | .snpInv | .snpCur => if up then 0xB else 0x7
  | .rSnpData | .rSnpInv | .rSnpCur | .removalNotice | .quenchNotice | .agentRemoved => 0xD
  | .svcRd | .svcWr | .svcAtom => 0xF
  | .cplData | .cplDone | .cplFail => 0x6

/-! ## The access check (R498 to R506) -/

/-- The region an access has while ACU_CFG.EN is 0. -/
def openRegion : Region :=
  { v := true, r := true, w := true, a := true, p := false, s := false, e := false, c := false, k := 52, base := 0,
    tagBase := 0 }

inductive CheckEnd | pass (r : Region) | miss (word : Nat) | deny (c : Denial) (at_ : Nat)
  deriving DecidableEq, Repr

/-- Tag index of a byte in a region, and its word (R499). -/
def Region.tagIdx (x : Region) (a : Nat) : Nat := x.tagBase + (a - x.lo) / 65536

def tagSet (s w : Nat) : Nat := s * 4096 + w % 4096
/-- Wrong check bits of a cached tag word: 0 none, 1 correctable, 2 uncorrectable. -/
def Dev.tagErr (d : Dev) (s w : Nat) : Nat := SMap.get 0 d.prot.tagErr (s * 2 ^ 27 + w)
def Dev.setTagErr (d : Dev) (s w e : Nat) : Dev := { d with prot := { d.prot with tagErr := SMap.set 0 d.prot.tagErr (s * 2 ^ 27 + w) e } }
/-- A word is cached, and can be read (R502). -/
def Dev.tagCached (d : Dev) (s w : Nat) : Bool := (SMap.get [] d.prot.tagCache (tagSet s w)).any (·.2 = w) && d.tagErr s w ≠ 2

/-- Check of an access at ACU[p] (R498, R499, R501, R436): a colour is known once its tag word is cached in the slice. (DESIGN CHOICE, log entry 102) -/
def Dev.accCheck (d : Dev) (e p : Nat) (key : Key) (kind : AccKind) (a len : Nat) : CheckEnd :=
  if d.getAt e ACU_CFG_EN p = 0 then .pass openRegion
  else
    let bare := match d.regionAt e p a with | some x => { x with c := false } | none => openRegion
    let word := bare.tagIdx a / 8
    let col := (d.lbyte (d.tagBase + bare.tagIdx a)).toNat
    match d.check e p key kind a len with
    | .error (.colour c, at_) =>
      if !d.on LDR_CARVE_TAG_EN || !d.ldr.up then .deny (.colour 0) at_
      else if !d.tagCached (portSlice p) word then .miss word
      else if col ≠ 0 && key.cols.contains col then .pass bare
      else .deny (.colour c) at_
    | .error (c, at_) => .deny c at_
    | .ok r =>
      if !r.c then .pass r
      else if !d.ldr.up then .deny (.colour 0) a
      else if d.tagCached (portSlice p) word then .pass r else .miss word

/-- A slice's cache drops a word. -/
def Dev.tagDrop (d : Dev) (s w : Nat) : Dev :=
  let k := tagSet s w
  ({ d with prot := { d.prot with tagCache := SMap.set [] d.prot.tagCache k ((SMap.get [] d.prot.tagCache k).filter (·.2 ≠ w)) } } : Dev).setTagErr s w 0

/-- A lookup that hits or misses; a word that cannot be read is dropped, and so missed (R502). -/
def Dev.tagTouch (d : Dev) (s w : Nat) : Dev :=
  let e := d.tagErr s w
  let d := if e = 2 then (d.tagDrop s w).raise TAG_F_CACHE_UE s else if e = 1 then (d.setTagErr s w 0).raise TAG_F_CE s else d
  let k := tagSet s w
  match (SMap.get [] d.prot.tagCache k).find? (·.2 = w) with
  | some e =>
    let d := { d with prot := { d.prot with tagLru := SMap.set 0 d.prot.tagLru k (treeTouch 3 (SMap.get 0 d.prot.tagLru k) e.1) } }
    d.inc TAG_CNT_HITS s
  | none => d.inc TAG_CNT_MISSES s

/-- A fetched word takes an invalid way of its set, or the one the tree points to, with the check bits an armed injection gives
it (R617). -/
def Dev.tagInsert (d : Dev) (s w : Nat) : Dev :=
  let k := tagSet s w
  let l := (SMap.get [] d.prot.tagCache k).filter (·.2 ≠ w)
  let t := SMap.get 0 d.prot.tagLru k
  let way := ((List.range 8).find? fun i => !l.any (·.1 = i)).getD ((treeVictim 3 t fun _ => true).getD 0)
  let l := l.filter (·.1 ≠ way) ++ [(way, w)]
  let d := { d with prot := { d.prot with tagCache := SMap.set [] d.prot.tagCache k l, tagLru := SMap.set 0 d.prot.tagLru k (treeTouch 3 t way) } }
  let (inj, d) := d.injectAt .tag s [TAG_F_CE.num, TAG_F_CACHE_UE.num] none
  d.setTagErr s w ((inj.map (· + 1)).getD 0)

/-- A tag word is written: every cache drops it, and a fill asked for before is discarded on arrival (R503). -/
def Dev.tagInvalidate (d : Dev) (w : Nat) : Dev :=
  (List.range 16).foldl (fun d s =>
    let d := d.tagDrop s w
    let st := SMap.get [] d.prot.stale s
    let st := if (SMap.get [] d.prot.misses s).contains w && !st.contains w then st ++ [w] else st
    { d with prot := { d.prot with stale := SMap.set [] d.prot.stale s st } }) d

/-- A refused access is recorded, counted and raised (R506). (DESIGN CHOICE, log entry 102) -/
def Dev.deny (d : Dev) (p : Nat) (key : Key) (kind : AccKind) (c : Denial) (a : Nat) (w : Who) : Dev :=
  let d := d.inc ACU_STAT_REFUSED p
  let d := if d.on ACU_VIOLOG0_VALID p then d else
    let d := (((d.put ACU_VIOLOG0_LINE p (a / 64)).put ACU_VIOLOG0_KIND p kind.code).put ACU_VIOLOG0_CAUSE p c.code).put
      ACU_VIOLOG0_REQ p key.reqCode
    let d := ((d.put ACU_VIOLOG1_QUEUE p key.queue).put ACU_VIOLOG1_DOMAIN p key.domain).put ACU_VIOLOG1_TAGCOL p
      (match c with | .colour t => t | _ => 0)
    d.put ACU_VIOLOG0_VALID p 1
  d.raise (match c with | .noRegion => ACU_F_NO_REGION | .attr => ACU_F_ATTR | .colour _ => ACU_F_COLOUR | .domain => ACU_F_DOMAIN)
    p w

/-- The answer of a refused access (Table 15-6). (DESIGN CHOICE, log entry 106) -/
def Dev.refuseAnswer (d : Dev) (p : Nat) (m : Msg) : Dev :=
  let d := if m.body.op = .ioRd || m.body.op = .ioAtom then d.replyTo (portSlice p) { m with fid := 0 } .cplFail [] false 0
    else d.replyFail (portSlice p) { m with fid := 0 }
  if m.fid = 0 then d else d.endFlight m.fid

/-- An access refused by its check: recorded, and answered. -/
def Dev.refuse (d : Dev) (p : Nat) (key : Key) (m : Msg) (kind : AccKind) (c : Denial) (a : Nat) : Dev :=
  (d.deny p key kind c a { dom := some m.domain, req := m.req }).refuseAnswer p m

/-! ## Destinations -/

/-- The lowest-numbered VCS in which a DOWNSTREAM port (its LD `l`) is bound. -/
def Dev.portVcs (d : Dev) (p l : Nat) : Option Nat := ((d.bindingsOf ⟨d.myId, false, p, l⟩).map Prod.fst).min?

/-- VCS whose decoders serve a message of port p. (DESIGN CHOICE, log entry 104) -/
def Dev.vcsFor (d : Dev) (p l : Nat) : Option Nat := if d.isUp p then some p else d.portVcs p l

/-- Address a request to a target (R338, R339, R348). -/
def Dev.aim (d : Dev) (m : Msg) (t : Tgt) (homed : Bool) (dpa : Nat) : Msg :=
  let h := dpa / 64
  let m := { m with homed := homed, body := { m.body with addr := dpa, tk := t.key, ld := if t.larder then m.body.ld else t.ld,
                                                          agent := m.agent.getD 512, st := b2n m.attrP + 2 * b2n homed } }
  let svc := m.cls = 0xF
  if homed || t.larder then
    { m with cls := if t.dev = d.myId then m.cls else 0xD, int := true, dst := t.dev * 128 + homeSlice t.key h }
  else
    { m with cls := if svc then (if m.body.op = .svcRd then 0x3 else 0x4) else m.cls, int := false,
             dst := t.dev * 128 + t.port }

/-- A target on this device refuses the access (R683, R685, Table 19-2): it has not negotiated HDM-DB, has no such LD, or
its port is shut. -/
def Dev.tgtRefuses (d : Dev) (t : Tgt) (homed : Bool) : Bool :=
  t.dev = d.myId && !t.larder &&
    (d.portShut t.port ||
     (d.on PRT_STAT_DL_ACTIVE t.port &&
       ((homed && !(d.port t.port).hdmDb) || (d.on PRT_STAT_MLD t.port && t.ld ≥ d.get PRT_STAT_NUM_LD t.port))))

/-- Answer a request of a port as R321 states. -/
def Dev.answerMiss (d : Dev) (m : Msg) : Dev :=
  let s := srcSlice m.src
  if ioOp m.body.op || cfgOp m.body.op then d.replyTo s { m with fid := 0 } .ioUr [] false 0 else d.replyFail s { m with fid := 0 }

/-- Counted miss of DEC page `s` (R321). (DESIGN CHOICE, log entry 104) -/
def Dev.decodeMiss (d : Dev) (s : Nat) (m : Msg) : Dev :=
  (d.inc DEC_STAT_MISSES s).raise DEC_F_DECODE_MISS s { dom := some m.domain, req := m.req }

/-- A decoder entry decoded an access. -/
def Dev.hit (d : Dev) (u i : Nat) : Dev :=
  let w := d.tab 0x04 u i 3
  d.setTab 0x04 u i 3 (setBits w 0 32 (min (bits w 0 32 + 1) (2 ^ 32 - 1)))

/-! ## Mirror sets (R329 to R331) -/

/-- Mark a member STALE (R329, R331): 1 write failed, 2 read timed out, 3 target removed. -/
def Dev.mirrorStale (d : Dev) (u i k cause : Nat) : Dev :=
  let s := u / 8
  let d := d.setMember u i k 1
  if d.on DEC_MIRLOG_VALID s then d
  else ((((d.put DEC_MIRLOG_VCS s u).put DEC_MIRLOG_ENTRY s i).put DEC_MIRLOG_MEMBER s k).put DEC_MIRLOG_CAUSE s cause).put
    DEC_MIRLOG_VALID s 1

def Hdm.membersIn (x : Hdm) (ok : Nat → Bool) : List Nat := (List.range x.ways).filter fun k => ok (x.mstate.getD k 0)

/-- The copy of a mirrored access for member k, ready for its target, by the bindings of the access's epoch (R326). -/
def Dev.mirrorCopy (d : Dev) (m : Msg) (x : Hdm) (u dpa k : Nat) : Msg :=
  match (d.bind m.epoch u (x.tgts.getD k 0)).tgt with
  | some t => { d.aim m t false dpa with memb := k }
  | none => m

/-- The messages a mirrored access becomes: a write goes to every ACTIVE and RESYNC member, a read to the lowest ACTIVE one (R329,
R330); none, and MIRROR_LOST for a write, when there is no such member. -/
def Dev.mirrorSplit (d : Dev) (m : Msg) : List Msg × Dev :=
  let x := d.hdm m.epoch m.vcs m.entry
  let wr := trayOp m.body.op || accKind m.body.op = some .wb
  let ks := if wr then x.membersIn (fun s => s = 0 || s = 2) else (x.membersIn (· = 0)).take 1
  if ks.isEmpty then
    ([], if wr then (d.setFenced m.vcs m.entry true).raise DEC_F_MIRROR_LOST (m.vcs / 8) else d)
  else
    let id := d.coh.nextTray
    let m := { m with mir := id, attrE := false, mirLater := false }
    let r : Mirror := { id := id, vcs := m.vcs, entry := m.entry, write := wr, members := ks, m := m }
    (ks.map fun k => d.mirrorCopy m x m.vcs m.body.addr k,
      { d with coh := { d.coh with nextTray := id + 1, mirrors := d.coh.mirrors ++ [r] } })

/-! ## Preparing a message (R216, R227, R270 to R277, R320 to R322) -/

/-- The message ends here: its access is over. -/
def Dev.endAccess (d : Dev) (m : Msg) : Dev := if m.fid = 0 then d else d.endFlight m.fid

/-- Direct a decoded access of VCS `u`: the messages it becomes, none when it is answered here. -/
def Dev.direct (d : Dev) (m : Msg) (u : Nat) (x : Dec) : List Msg × Dev :=
  let d := d.hit u x.entry
  let m := { m with vcs := u, entry := x.entry, ready := true }
  if x.hdm.fenced then ([], (d.replyFail (srcSlice m.src) { m with fid := 0 }).endAccess m)
  else if x.hdm.mode = 2 then
    let m := { m with body := { m.body with addr := x.dpa } }
    if trayOp m.body.op && !atomOp m.body.op && (m.attrS || m.stream) then
      ([{ d.mirrorCopy { m with attrE := false } x.hdm u x.dpa 0 with memb := 0, mirLater := true }], d)
    else
      let r := d.mirrorSplit m
      if r.1.isEmpty then ([], (r.2.replyFail (srcSlice m.src) { m with fid := 0 }).endAccess m) else r
  else if d.tgtRefuses x.tgt x.hdm.home then
    let d := if d.portShut x.tgt.port then d else d.decodeMiss (portSlice x.tgt.port) m
    ([], (d.answerMiss m).endAccess m)
  else ([d.aim m x.tgt x.hdm.home x.dpa], d)

/-- Pass a message of port p to the UPSTREAM port of its VCS unchanged (R127). (DESIGN CHOICE, log entry 104) -/
def Dev.passUp (d : Dev) (m : Msg) (p : Nat) : List Msg × Dev :=
  let m := { m with tp := none }
  match d.portVcs p m.body.ld with
  | some u => ([{ m with dst := d.myId * 128 + u, ready := true }], d)
  | none =>
    if d.on DEC_EXPORT_V (p / 8) (p % 8) then
      ([{ m with dst := d.get DEC_EXPORT_OWNER (p / 8) (p % 8), ready := true }], d)
    else ([], (d.answerMiss m).endAccess m)

/-- A configuration word after a write of `v`: the implementation fixes which bits a write changes. -/
def cfgMerge (k : Nat) (old v : BitVec 32) : BitVec 32 := (old &&& ~~~(Config.cfgMask k)) ||| (v &&& Config.cfgMask k)

/-- A configuration access to Larder LD j, one dword: a write changes the bits the implementation lets it, and what the spec
does not list reads as fixed by the implementation. -/
def Dev.ldCfg (d : Dev) (j off : Nat) (write : Bool) (val : Nat) : Nat × Dev :=
  let k := j * 1024 + off / 4 % 1024
  let old := SMap.get (Config.cfgWord (2 ^ 40 + k)) d.ldr.ldcfg k
  if write then (0, { d with ldr := { d.ldr with ldcfg := SMap.ins d.ldr.ldcfg k (cfgMerge (2 ^ 40 + k) old (BitVec.ofNat 32 val)) } })
  else (old.toNat, d)

/-- A message the check passes unexamined (R494): answers and snoops to their home, everything else by its vPPB or its
VCS. (DEDUCED, log entry 103) -/
def Dev.directOther (d : Dev) (m : Msg) (p : Nat) : List Msg × Dev :=
  let up := d.isUp p
  match m.body.op with
  | .ansI | .ansS | .ansE =>
    match (d.vcsFor p m.body.ld).bind fun u => (d.decode d.epoch u m.body.addr).orElse fun _ => d.decode d.oldestEpoch u m.body.addr with
    | some x =>
      let a := { m with body := { m.body with agent := (d.portAgent p).getD 512, addr := x.dpa, tk := x.tgt.key }, int := true,
                        ready := true, homed := true, dst := x.tgt.dev * 128 + homeSlice x.tgt.key (x.dpa / 64) }
      ([if x.tgt.dev = d.myId then a else { a with cls := 0xE }], d)
    | none => ([], d)
  | .bisInv | .bisData | .bisCur =>
    let tk := p * 16 + m.body.ld
    ([{ m with body := { m.body with tk := tk }, int := true, ready := true, homed := true,
               dst := d.myId * 128 + homeSlice tk (m.body.addr / 64) }], d)
  | _ =>
    if up then
      match (d.bindNow p m.body.arg).tgt with
      | some t =>
        if t.larder then
          let wr := m.body.op = .cfgWr
          if m.body.op ≠ .cfgRd && !wr then ([], d)
          else if t.dev ≠ d.myId then
            ([{ m with cls := 0xD, int := true, dst := t.dev * 128, ready := true, body := { m.body with ld := t.ld } }], d)
          else
            let (v, d) := d.ldCfg t.ld m.body.addr wr (leNat m.body.data)
            ([], d.replyTo (portSlice p) m .ioCpl (if wr then [] else leBytes 4 v) false 0)
        else ([{ m with dst := t.dev * 128 + t.port, ready := true, body := { m.body with ld := t.ld } }], d)
      | none =>
        if m.body.op = .cfgRd || m.body.op = .cfgWr then ([], d.replyTo (portSlice p) m .ioUr [] false 0) else ([], d)
    else d.passUp m p

/-- Key of a message from CXL port p: its port's, or its LD's on an MLD link. -/
def Dev.msgKey (d : Dev) (m : Msg) (p : Nat) : Key :=
  d.portKey d.epoch p (if d.isDown p && d.on PRT_STAT_MLD p then m.body.ld + 1 else 0)

/-- The message as its checks see it: flight number and epoch of the access, domain, requester, agent. -/
def Dev.stampMsg (d : Dev) (m : Msg) (p : Nat) : Msg × Dev :=
  let b := m.body
  let r := if (accKind b.op).isSome || clnOp b.op then d.beginFlight else (0, d)
  let mld := d.isDown p && d.on PRT_STAT_MLD p
  ({ m with fid := r.1, epoch := d.epoch, hpa := b.addr, domain := (d.msgKey m p).domain,
            req := some (if mld then .ld p b.ld else .port p), tp := if trayOp b.op then some p else none, agent := d.portAgent p }, r.2)

/-- The access check of a stamped message; an LD key that is quarantined is denied. -/
def Dev.checkMsg (d : Dev) (m : Msg) (p : Nat) : CheckEnd :=
  let b := m.body
  match accKind b.op with
  | none => .pass openRegion
  | some k =>
    if d.isDown p && d.on PRT_STAT_MLD p && d.quarantined (.ldKey p b.ld) then .deny .domain b.addr
    else d.accCheck d.epoch p (d.msgKey m p) k b.addr (if ioOp b.op then max 1 b.data.length else 64)

/-- A tag word is asked for. -/
def Dev.missAdd (d : Dev) (s w : Nat) : Dev :=
  let l := SMap.get [] d.prot.misses s
  if l.contains w then d else { d with prot := { d.prot with misses := SMap.set [] d.prot.misses s (l ++ [w]) } }

/-- Where a checked message goes: by forward decode, or by its vPPB or VCS. (DEDUCED, log entry 103) -/
def Dev.onward (d : Dev) (m : Msg) (p : Nat) : List Msg × Dev :=
  let b := m.body
  if (accKind b.op).isNone && !clnOp b.op then d.directOther m p
  else
    match d.vcsFor p b.ld with
    | none => d.passUp m p
    | some u =>
      match d.decode d.epoch u b.addr with
      | some x => if d2hOp b.op && !x.hdm.home then d.passUp m p else d.direct m u x
      | none =>
        if d.isDown p then d.passUp m p
        else ([], ((d.decodeMiss (p / 8) m).answerMiss m).endAccess m)

/-- A message its policer discards is answered, but for one of class IO_P (R277). -/
def Dev.policedOff (d : Dev) (s : Nat) (m : Msg) : Dev := if m.cls = 0x0 then d else d.replyFail s m

/-- A message its region lets pass, with the tag word it still waits for; `pol`: its policer lets it pass. -/
def Dev.accept (d : Dev) (pol : Bool) (m : Msg) (p : Nat) (r : Region) (w : Option Nat) : List Msg × Dev :=
  let b := m.body
  if (accKind b.op).isSome && d.domainRst m.domain then ([], d.refuseAnswer p m)
  else if !pol then ([], (d.policedOff (portSlice p) { m with fid := 0 }).endAccess m)
  else
    let s := portSlice p
    let d := if r.c then d.tagTouch s (r.tagIdx b.addr / 8) else d
    let d := match w with | some w => d.missAdd s w | none => d
    d.onward { m with attrP := r.p, attrS := r.s, attrE := r.e, wait := w.toList } p

/-- The tables that the checks of message `m` of port p read: regions and its requester's key, and its VCS's decoders and
bindings. -/
def Dev.tabsRead (d : Dev) (m : Msg) (p : Nat) : Dev :=
  if (accKind m.body.op).isNone then d
  else
    let d := (d.tabRead 0x05 p (List.range 64)).tabRead 0x06 p [if d.isDown p && d.on PRT_STAT_MLD p then m.body.ld + 1 else 0]
    match d.vcsFor p m.body.ld with
    | some u => (d.tabRead 0x04 u (List.range 32)).tabRead 0x03 u (List.range 128)
    | none => d

/-- A message from CXL port p meets its checks (Table 6-6): the messages it becomes, none when refused and answered; the
message itself, still waiting, when every tag miss slot is taken. -/
def Dev.prepare (d : Dev) (m : Msg) (p : Nat) : List Msg × Dev :=
  let x := d.stampMsg m p
  let q := (x.2.tabsRead x.1 p).police p x.1
  let m := { x.1 with colour := q.2.1 }
  let d := q.2.2
  match d.checkMsg m p with
  | .deny c a => ([], d.refuse p (d.msgKey m p) m ((accKind m.body.op).getD .read) c a)
  | .pass r => d.accept q.1 m p r none
  | .miss w => d.accept q.1 m p ((d.regionAt d.epoch p m.body.addr).getD openRegion) (some w)

/-- Every miss slot is taken and the message would miss (R502): it waits. -/
def Dev.missFull (d : Dev) (m : Msg) (p : Nat) : Bool :=
  match accKind m.body.op with
  | none => false
  | some k =>
    let mld := d.isDown p && d.on PRT_STAT_MLD p
    match d.accCheck d.epoch p (d.portKey d.epoch p (if mld then m.body.ld + 1 else 0)) k m.body.addr
        (if ioOp m.body.op then max 1 m.body.data.length else 64) with
    | .miss w => let l := SMap.get [] d.prot.misses (portSlice p); l.length ≥ 64 && !l.contains w
    | _ => false

/-! ## The Tray and combining buffers (R403 to R418) -/

/-- Persistent credit lines of slice `s` not yet held (R413). -/
def Dev.persFree (d : Dev) (s : Nat) : Bool :=
  !d.on TRY_PERS_GATED s && d.persUsed s < d.get TRY_PERS_CREDIT s

/-- Row of Table 12-1. -/
def Dev.trayRow (d : Dev) (m : Msg) (p : Nat) : Nat :=
  let cr := d.persFree (portSlice p)
  if m.mir ≠ 0 then 6
  else if m.homed then (if !m.attrP then 0 else if cr then 1 else 2)
  else if m.attrE then (if !m.attrP then 3 else if cr then 4 else 5)
  else 5

/-- Entries of the port's own Tray. -/
def Dev.trayUsed (d : Dev) (p : Nat) : Nat := ((d.trayOf p).filter (!·.cmb)).length

/-- Line of an access: the target's device, its key there, and DPA. -/
def Msg.tline (m : Msg) : Nat × Nat × Nat := (m.dst / 128, m.body.tk, m.body.addr / 64)

/-- The port whose Tray orders a message's access: the one that checks it, for a queue that of its function's VCS (R30, R403). -/
def Dev.atPort (d : Dev) (m : Msg) : Option Nat :=
  m.tp.orElse fun _ => match m.req with
    | some (.queue q) => some (d.q q cVcs)
    | _ => if m.src < 128 && m.link.isNone then some m.src else none

/-- The agent of a message: whose streaming writes and DRAINs go together. -/
def Msg.agentReq (m : Msg) : Req := m.req.getD (.port m.src)

/-- The message is an agent's own request, not a write that its Tray entry has let go. -/
def Msg.asked (m : Msg) : Bool :=
  m.link.isNone && m.home.isNone && m.tray = 0 && m.req.isSome && ((accKind m.body.op).isSome || clnOp m.body.op || svcOp m.body.op)

/-- Two accesses meet in one line: of one target, or decoded by one MIRROR entry at one DPA. -/
def Msg.meets (m e : Msg) : Bool :=
  e.tline = m.tline || ((m.mir ≠ 0 || m.mirLater) && (e.mir ≠ 0 || e.mirLater) && (e.vcs, e.entry, e.body.addr / 64) = (m.vcs, m.entry, m.body.addr / 64))

/-- R409: an entry for the line is in WAIT in the Tray of the request's port, or in a flush of its agent's streaming writes
(R418). -/
def Dev.lineWait (d : Dev) (m : Msg) : Bool :=
  m.asked && d.coh.tray.any fun e => !e.ordered && m.meets e.m && !(m.mir ≠ 0 && e.id = m.mir) &&
    (some e.port = d.atPort m || e.m.agentReq = m.agentReq)

/-- R408: the read is for a member that has still to answer a mirrored write of the line which is accepted: it waits. (DESIGN CHOICE, log entry 36) -/
def Dev.mirWait (d : Dev) (m : Msg) : Bool :=
  isReadOp m.body.op && d.coh.mirrors.any fun r => r.write && r.accepted && r.members.any fun k =>
    (d.mirrorCopy r.m (d.hdm r.m.epoch r.vcs r.entry) r.vcs r.m.body.addr k).tline = m.tline

/-- R410: a read or non-posted request behind a posted write not yet ordered. -/
def Dev.postedWait (d : Dev) (m : Msg) : Bool :=
  (m.body.op = .ioRd || m.body.op = .ioAtom || m.cls = 0x1) &&
    match d.atPort m with | some p => (d.trayOf p).any fun e => e.posted && !e.ordered | none => false

/-- A new Tray entry, and the message it lets go; an armed injection spoils its data (R411, R617). (DESIGN CHOICE, log entry 24) -/
def Dev.trayNew (d : Dev) (p : Nat) (m : Msg) (cmb : Bool) : Msg × Dev :=
  let id := if m.mir ≠ 0 then m.mir else d.coh.nextTray
  let (inj, d) := d.injectAt .tray (portSlice p) [TRY_F_CE.num, TRY_F_UE.num] none
  let ue := inj = some TRY_F_UE.num
  let m := { m with tray := id, poison := m.poison || ue }
  let e : TrayEnt := { id := id, port := p, line := m.body.addr / 64, tk := m.body.tk, m := m, bad := ue,
                       completed := cmb, row := d.trayRow m p, posted := m.body.op = .ioWr && !cmb, cmb := cmb }
  let d := { d with coh := { d.coh with tray := d.coh.tray ++ [e], nextTray := if m.mir ≠ 0 then d.coh.nextTray else id + 1 } }
  (m, if inj.isNone then d else d.raise (if ue then TRY_F_UE else TRY_F_CE) (portSlice p))

/-- Accept-early writes of a line from place `i` on, in order of recording: those in the index, and those committed since that
reads in flight still have to see (R406, R408). An atomic's entry holds operands and no bytes of the line. -/
def Dev.indexFrom (d : Dev) (m : Msg) (i : Nat) : List TrayEnt :=
  ((d.coh.idxLog ++ d.coh.tray.filter fun e => e.early && e.ordered).filter fun e =>
    i ≤ e.idx && !atomOp e.m.body.op && e.m.tline = m.tline).mergeSort fun a b => a.idx ≤ b.idx

/-- A read of an accept-early range passes the index: it sees every write recorded from now on, and those in the index (R406). (DEDUCED, log entry 137) -/
def Dev.withIndex (d : Dev) (m : Msg) : Msg :=
  if m.attrE && !m.homed && m.mir = 0 && isReadOp m.body.op then
    { m with idx0 := (((d.coh.tray.filter fun e => e.early && e.ordered && e.m.tline = m.tline).map (·.idx)).min?).getD d.coh.nextTray }
  else m

/-- The data of a read with the enabled bytes of the index's entries merged over it, in order of recording (R406). -/
def Dev.overlay (d : Dev) (m : Msg) (data : Bytes) : Bytes :=
  if m.idx0 = 0 then data
  else (d.indexFrom m m.idx0).foldl (fun b e => mergeBytes b e.m.body.data e.m.body.be) data

/-- Flush a combining entry: one write of its line with its byte enables, from its slice's internal endpoint (R418); a mirrored one
goes to its members (R329). (DEDUCED, log entry 58) -/
def Dev.flushCmb (d : Dev) (c : CmbEnt) : Dev :=
  let s := portSlice c.port
  let d := { d with coh := { d.coh with cmb := d.coh.cmb.erase c } }
  let m := { c.m with body := { c.m.body with be := c.be, data := c.data, hdrLen := 16 } }
  let r := if m.mirLater then d.mirrorSplit m else ([m], d)
  match r.1 with
  | [] => (r.2.noteFailed m.req).endAccess m
  | x :: xs =>
    let (y, d) := r.2.trayNew c.port x true
    ((y :: xs.map fun z => { z with tray := y.tray, poison := y.poison }).map fun (z : Msg) =>
      { z with src := 128 + s, srcG := d.myId * 128 + 8 * s, ts := d.fab % 2 ^ 32, ready := true, stream := false, tp := none,
               len := ({ z with src := 0 } : Msg).lenOf }).foldl Dev.pushRel d

/-- Flush every combining entry of an agent, as a barrier or DRAIN does. -/
def Dev.flushAgent (d : Dev) (a : Req) : Dev :=
  (d.coh.cmb.filter fun c => c.agent = a).foldl (fun d c => (d.inc TRY_CMB_ORDERED (portSlice c.port)).flushCmb c) d

/-- An open combining entry of the message's agent and line. -/
def Dev.cmbFor (d : Dev) (m : Msg) : Option CmbEnt :=
  d.coh.cmb.find? fun c => c.agent = m.agentReq && m.meets c.m

/-- The entry that a streaming write merges into: its agent's, for its line, under its epoch (R417). -/
def Dev.cmbMerge (d : Dev) (m : Msg) : Option CmbEnt := (d.cmbFor m).filter fun c => c.epoch = m.epoch && (c.m.attrP || !m.attrP)

/-- The message is a streaming write (R416, R487). -/
def Dev.streams (d : Dev) (p : Nat) (m : Msg) : Bool :=
  trayOp m.body.op && !atomOp m.body.op && m.mir = 0 && (m.attrS || m.stream) && d.on TRY_CFG_CMB_EN (portSlice p) &&
    (!m.attrP || d.persFree (portSlice p) || (d.cmbMerge m).isSome) && !d.migrating m.vcs m.entry

/-- A streaming write that arrived before a DRAIN write has entered: its entry is flushed, and the DRAIN waits for it (R420). -/
def Dev.drainJoin (d : Dev) (p : Nat) (m : Msg) (c : CmbEnt) : Dev :=
  if m.drain = 0 then (if c.be % 2 ^ 64 = fullBe then d.flushCmb c else d)
  else
    let id := d.coh.nextTray
    let d := (d.inc TRY_CMB_ORDERED (portSlice p)).flushCmb c
    { d with coh := { d.coh with drains := d.coh.drains.map fun x =>
        if x.port = p && m.drain ≤ x.seq then { x with ids := x.ids ++ [id] } else x } }

/-- A streaming write enters the combining buffer and completes (R416 to R418); false when it must wait for an entry, the oldest
being flushed for it once (`waited`: it waits already). -/
def Dev.enterCmb (d : Dev) (p : Nat) (m : Msg) (waited : Bool) : Bool × Dev :=
  let s := portSlice p
  let d := match d.cmbFor m with
    | some c => if (d.cmbMerge m).isSome then d else (d.inc TRY_CMB_ORDERED s).flushCmb c
    | none => d
  let done (d : Dev) : Dev := d.replyTo s { m with fid := 0 } .cplDone [] false 0
  match d.cmbMerge m with
  | some c =>
    let c2 := { c with be := Nat.lor c.be m.body.be, data := mergeBytes c.data m.body.data m.body.be,
                       m := { c.m with poison := c.m.poison || m.poison } }
    let d := { d with coh := { d.coh with cmb := d.coh.cmb.map fun x => if x = c then c2 else x } }
    (true, ((done d).endAccess m).drainJoin p m c2)
  | none =>
    let used := (d.coh.cmb.filter fun c => portSlice c.port = s).length
      + (d.coh.tray.filter fun e => e.cmb && portSlice e.port = s).length
    if used ≥ 64 then
      match (if waited then none else d.coh.cmb.find? fun c => portSlice c.port = s) with
      | some c => (false, (d.inc TRY_CMB_REPLACE s).flushCmb c)
      | none => (false, d)
    else
      let c : CmbEnt := { agent := m.agentReq, port := p, line := m.body.addr / 64, tk := m.body.tk, epoch := m.epoch,
                          be := m.body.be, data := mergeBytes [] m.body.data m.body.be, m := m }
      (true, (done { d with coh := { d.coh with cmb := d.coh.cmb ++ [c] } }).drainJoin p m c)

/-! ## Admission (R214 to R221, R227) -/

/-- Reset of a Larder LD: its configuration-space state only (R440). -/
def Dev.ldReset (d : Dev) (j : Nat) : Dev :=
  { d with ldr := { d.ldr with ldcfg := d.ldr.ldcfg.filter fun e => e.1 / 1024 ≠ j } }

/-- A configuration request of another device for a Larder LD is answered from slice `h` (R311). (DESIGN CHOICE, log entry 42) -/
def Dev.cfgServe (d : Dev) (h : Nat) (m : Msg) : Dev :=
  let wr := m.body.op = .cfgWr
  let (v, d) := d.ldCfg m.body.ld m.body.addr wr (leNat m.body.data)
  d.replyTo h m .ioCpl (if wr then [] else leBytes 4 v) false 0

/-- A request for a Larder LD that no home serves goes from the internal endpoint to its channel (R438, R439). -/
def Dev.takeDirect (d : Dev) (dest : Nat) : Dev :=
  if dest < 128 then d
  else
    let h := dest - 128
    (List.range 3).foldl (fun d ch =>
      let direct (m : Msg) : Bool := ch ≠ 0 && !m.homed && m.body.tk ≥ 0x800 && (accKind m.body.op).isSome || svcOp m.body.op && !m.homed
      let ms := (d.arrivedAt h ch).filter direct
      let rs := (d.arrivedAt h ch).filter fun m => m.body.op = .rstAsk
      let cs := (d.arrivedAt h ch).filter fun m => ch ≠ 0 && cfgOp m.body.op
      let d := d.setArrived h ch ((d.arrivedAt h ch).filter fun m => !direct m && m.body.op ≠ .rstAsk && !cs.contains m)
      let d := rs.foldl (fun d m => d.ldReset m.body.ld) d
      let d := cs.foldl (fun d m => d.cfgServe h m) d
      ms.foldl (fun d m => d.tgtReach h m.body.tk m.body.addr (!isReadOp m.body.op) m) d) d

/-- A message with no usable route candidate is discarded and counted (R194). -/
def Dev.noRoute (d : Dev) (m : Msg) : Dev :=
  let e := d.tab 0x01 0 m.gdst
  let k := if bits e 5 1 = 1 then bits e 0 5 else 0
  ((d.consumeCredit m).inc DRL_DROP_NOROUTE k).raise DRL_F_NO_ROUTE k

/-- The pages whose checks message `m` of port p needs are on: POL for a class R272 meters, ACU for an access R494 examines
(Table 2-7). -/
def Dev.checksOn (d : Dev) (p : Nat) (m : Msg) : Bool :=
  (d.enabled ⟨.pol, p⟩ || !clsMetered m.cls) && (d.enabled ⟨.acu, p⟩ || d.portDunrun p || (accKind m.body.op).isNone)

/-- A request held behind earlier ones (R408 to R410). -/
def Dev.orderWait (d : Dev) (m : Msg) : Bool := d.lineWait m || d.postedWait m || d.mirWait m

inductive Hold | none | plain | trayFull | voqFull | order
  deriving DecidableEq, Repr

/-- Whether a ready message may be admitted now, and why not (R214, R217, R403, R409, R410). -/
def Dev.holdOf (d : Dev) (m : Msg) (dest : Nat) : Hold :=
  match m.tp with
  | some p =>
    if d.orderWait m then .order
    else if d.trayUsed p ≥ 256 && !(m.mir ≠ 0 && (d.trayEnt? m.mir).isSome) then .trayFull
    else if d.queueLen m.src dest m.tc m.cls ≥ 512 then .voqFull
    else if d.canAdmit m dest then .none else .plain
  | none =>
    if d.orderWait m then .order
    else if d.queueLen m.src dest m.tc m.cls ≥ 512 then .voqFull
    else if d.canAdmit m dest then .none else .plain

/-- The destination confirms an express claim (R148, R226, R227, R283, Table 2-7). (DEDUCED, log entry 130) -/
def Dev.expressOk (d : Dev) (m : Msg) (dest : Nat) : Bool :=
  m.wait.isEmpty && !m.tailBad && !d.precision dest && d.idle dest (clsChan m.cls) &&
    (dest ≥ 128 || (d.enabled ⟨.egs, dest⟩ && d.peakOk dest m.tc && (d.portDunrun dest || d.portState dest ≠ tsRecovery)))

/-- A message is admitted: stored, and it makes an express claim when its queue was empty (Table 6-6); else it is linked
unless a check has still to report (R231). -/
def Dev.admitTo (d : Dev) (m : Msg) (dest : Nat) : Dev :=
  let claim := d.on SLC_CFG_EXPRESS_EN (srcSlice m.src) && d.queueLen m.src dest m.tc m.cls = 0
  let m := { m with ts := if m.link.isSome then m.ts else d.fab % 2 ^ 32, epoch := if m.fid = 0 then d.epoch else m.epoch }
  let (x, d) := d.store m dest (if m.last then m.len + 1 else max 1 (((m.wire.map fun w => w.2.length).getD 0) / 64))
  let d := d.modStored x.id fun y => { y with tagWait := m.wait, claim := claim }
  let d := if m.last then d else { d with core := { d.core with partial_ := SMap.set 0 d.core.partial_ m.src x.id } }
  let late := !m.wait.isEmpty && m.src < 128
  let d := if late then d.inc ACU_STAT_LATE m.src else d
  if !claim && m.wait.isEmpty then d.linkStored x.id else d

/-- What a beat from slice `s` met on its way across a crossbar or a die bridge: nothing, a parity error, which its source's slice raises and
counts, a bridge fault (R25, R245, Table 6-11). (DESIGN CHOICE, log entry 138) -/
def Dev.crossErr (d : Dev) (e : CrossErr) (s : Nat) (id : Nat) : Dev :=
  match e with
  | .none => d
  | .parity =>
    let d := d.modStored id fun x => { x with m := { x.m with poison := true } }
    (d.inc SLC_DROP_POISONED s).raise SLC_F_XBAR_PARITY s
  | .bridge => (List.range 4).foldl (fun d i => d.raise SLC_F_BRIDGE (s / 4 * 4 + i)) d

/-- An accepted express claim: the destination takes the message; its beats cross, and one whose LAST cell is present is
delivered (R228). -/
def Dev.expressTake (d : Dev) (x : Stored) (e : CrossErr) : Dev :=
  let (m, dest) := (x.m, x.dest)
  let d := if dest < 128 then d.modStored x.id fun y => { y with m := { y.m with charged := d.lCharged dest m } } else d
  let comm := dest < 128 && !d.strictTc dest m.tc && d.commOk dest m.tc
  let d := if dest < 128 then (d.charge dest m).settleDef dest m comm else d
  let served := if dest < 128 then d.core.lastSrc else SMap.set 143 d.core.lastSrc (1024 + 3 * (dest - 128) + clsChan m.cls) (m.src)
  let d : Dev := { d with core := { d.core with lastExp := SMap.set 143 d.core.lastExp dest m.src, lastSrc := served } }
  let (inj, d) := ((d.linkStored x.id).count .slc (srcSlice m.src) 0x201).injectAt .slc (srcSlice m.src) [SLC_F_XBAR_PARITY.num] none
  let d := d.crossErr (if inj.isSome then .parity else e) (srcSlice m.src) x.id
  match d.stored? x.id with
  | none => d
  | some y =>
    if m.last then (d.deliver y).takeDirect dest
    else ((d.leaveList y).modStored y.id fun z => { z with taken := true, express := true }).defLeft dest m.tc

/-- The claims that stand are decided (R227, R232): a destination takes the first of its claimants in rotating order of source,
starting after that of its last accepted express message; the other claims, and one it refuses, are linked. (DEDUCED, log entry 130) -/
def Dev.settleClaims (d : Dev) (e : CrossErr) : Dev :=
  let cs := d.core.oven.filter (·.claim)
  let rot (x : Stored) : Nat := (x.m.src + 143 - SMap.get 143 d.core.lastExp x.dest) % 144
  let order := (List.range 144).flatMap fun r => cs.filter fun x => rot x = r
  let at_ (x : Stored) : Nat × Nat := (x.dest, if x.dest < 128 then 0 else clsChan x.m.cls)
  (order.foldl (fun (acc : List (Nat × Nat) × Dev) x =>
    let d := acc.2.modStored x.id fun y => { y with claim := false }
    if !acc.1.contains (at_ x) && d.expressOk x.m x.dest then (at_ x :: acc.1, d.expressTake x e)
    else (acc.1, if x.m.wait.isEmpty then d.linkStored x.id else d)) ([], d)).2

/-- A request for a DOWNSTREAM port of this device that is shut: it waits for its answer (R685, R586, Table 19-2). -/
def Dev.shutFor (d : Dev) (m : Msg) (dest : Nat) : Bool :=
  dest < 128 && d.isDown dest && d.portShut dest && (m.asks || m.tray ≠ 0 || m.tp.isSome)

/-- A writeback to a target that no home serves: it takes no Tray entry (R403). -/
def Msg.writesBack (m : Msg) : Bool := accKind m.body.op = some .wb && !m.homed

/-- An answer for an UPSTREAM port whose link is down is discarded (R150). -/
def Dev.lateFor (d : Dev) (m : Msg) (dest : Nat) : Bool :=
  dest < 128 && d.isUp dest && clsRsp m.cls && !d.on PRT_STAT_DL_ACTIVE dest

/-- The head of source `src` is held and has met a full queue, (`k` 1000) a full Tray, whose fault is raised once, or (2000) a full
combining buffer, whose oldest entry is flushed once. -/
def Dev.noteFull (d : Dev) (src k : Nat) : Dev :=
  let d := d.setHeld src true
  { d with core := { d.core with full := d.core.full ++ [k + src] } }

/-- A ready head of source `src` is admitted or held (R216, R221). -/
def Dev.admitHead (d : Dev) (src : Nat) (m : Msg) (rest : List Msg) : Dev :=
  match d.destOf m with
  | none => (((d.setRel src rest).setHeld src false).noRoute m).endAccess m
  | some dest =>
    if d.lateFor m dest then ((((d.setRel src rest).setHeld src false).consumeCredit m).endAccess m).inc PRT_DROP_LATE dest
    else if d.shutFor m dest || (m.writesBack && d.inHold m.vcs m.entry) then d.setHeld src true
    else if dest ≥ 128 && !clsRsp m.cls && d.sieShut (dest - 128) then
      ((((d.setRel src rest).setHeld src false).consumeCredit m).answerMiss m).endAccess m
    else
      let tp := m.tp
      let stream := match tp with | some p => d.streams p m | none => false
      let hold := d.holdOf m dest
      let cmb := if stream || !m.asked then none else d.cmbFor m
      if cmb.isSome then
        (match cmb with
        | some c => ((d.inc TRY_CMB_ORDERED (portSlice c.port)).flushCmb c).setHeld src true
        | none => d)
      else if stream then
        let p := tp.getD 0
        if d.orderWait m then d.setHeld src true
        else
          let (ok, d) := d.enterCmb p m (d.core.full.contains (2000 + src))
          if ok then (d.setRel src rest).setHeld src false
          else if d.core.full.contains (2000 + src) then d else d.noteFull src 2000
      else match hold with
        | .none =>
          let d := (d.setRel src rest).setHeld src false
          let m := d.withIndex m
          (match tp with
          | some p =>
            match (if m.mir ≠ 0 then d.trayEnt? m.mir else none) with
            | some e => d.admitTo { m with tray := m.mir, poison := m.poison || e.bad } dest
            | none =>
              let (m, d) := d.trayNew p m false
              if d.inHold m.vcs m.entry then d.modTray m.tray fun x => { x with movelive := true }
              else d.admitTo m dest
          | none => d.admitTo m dest)
        | .trayFull =>
          if d.core.full.contains (1000 + src) then d
          else (d.noteFull src 1000).raise TRY_F_TRAY_FULL (portSlice (tp.getD 0)) { dom := some m.domain, req := m.req }
        | .voqFull => if d.core.full.contains src then d else (d.noteFull src 0).raise SLC_F_VOQ_FULL (srcSlice src)
        | .plain | .order => d.setHeld src true

/-- A ready head is admitted or held; a mirrored write that does not stream becomes its members' copies first (R329, R416). -/
def Dev.admitOpen (d : Dev) (src : Nat) (m : Msg) (rest : List Msg) : Dev :=
  if m.mirLater && !(m.tp.any fun p => d.streams p m) then
    match d.mirrorSplit m with
    | (x :: xs, d) => (d.setRel src (x :: (xs ++ rest))).admitHead src x (xs ++ rest)
    | ([], d) => (((d.setRel src rest).setHeld src false).replyFail (srcSlice m.src) { m with fid := 0 }).endAccess m
  else d.admitHead src m rest

/-- The head of source `src` is tried (R216, R221): a slice or a check page out of service holds it (Table 2-7); otherwise it
meets its checks once, and is admitted, held or answered. (DESIGN CHOICE, log entry 102) -/
def Dev.tryHead (d : Dev) (src : Nat) (m : Msg) (rest : List Msg) : Dev :=
  let r : Dev :=
    if !d.sliceOn (srcSlice src) || (!m.ready && !d.checksOn src m) then d.setHeld src true
    else if src < 128 && d.reqStop && !clsRsp m.cls then d
    else if m.ready then d.admitOpen src m rest
    else if m.link.isSome then
      let (ok, c, d) := d.police src m
      let m := { m with colour := c, ready := true, epoch := d.epoch }
      if ok then (d.setRel src (m :: rest)).admitHead src m rest
      else (((d.setRel src rest).setHeld src false).consumeCredit m).policedOff (srcSlice src) m
    else if d.missFull m src then d
    else
      let (ms, d) := d.prepare m src
      let d := d.setRel src (ms ++ rest)
      match ms with
      | x :: r => d.admitOpen src x (r ++ rest)
      | [] => d.setHeld src false
  if r.coh.drains.isEmpty then r else r.drainSettle

/-- The head of source `src`, not held, is presented (R216). (DESIGN CHOICE, log entry 102) -/
def Dev.present (d : Dev) (src : Nat) : Dev :=
  if d.halted || d.core.held.contains src then d
  else match d.relOf src with
    | [] => d
    | m :: rest => d.tryHead src m rest

/-- A held head is tried again (R221). -/
def Dev.retryHeld (d : Dev) (src : Nat) : Dev :=
  if d.halted || !d.core.held.contains src then d
  else match d.relOf src with
    | [] => d.setHeld src false
    | m :: rest => d.tryHead src m rest

end Sys2Proof.Machine
end

