-- ==== Sys2Proof/Machine/AnswerOps.lean ====
section
/-! DEFINITION. The answers of targets to accesses no home serves: Tray entries, mirrored accesses, reads (R329 to R331,
R404, R406, R412). -/

namespace Sys2Proof.Machine

/-! ## Mirrored accesses (R329 to R331) -/

def Dev.mirror? (d : Dev) (id : Nat) : Option Mirror := d.coh.mirrors.find? (·.id = id)
def Dev.dropMirror (d : Dev) (id : Nat) : Dev := { d with coh := { d.coh with mirrors := d.coh.mirrors.filter (·.id ≠ id) } }
def Dev.modMirror (d : Dev) (id : Nat) (f : Mirror → Mirror) : Dev :=
  { d with coh := { d.coh with mirrors := d.coh.mirrors.map fun r => if r.id = id then f r else r } }

/-- State of a member of a mirror set as an access of epoch `e` sees it: 0 ACTIVE, 1 STALE, 2 RESYNC. -/
def Dev.memberState (d : Dev) (e u i k : Nat) : Nat := (d.hdm e u i).mstate.getD k 1

/-- The original request of a mirrored access, answered from slice `s`. -/
def Mirror.reqMsg (r : Mirror) : Msg := { r.m with mir := 0 }

/-- A mirrored write completes to its requester. -/
def Dev.mirrorComplete (d : Dev) (s : Nat) (r : Mirror) (ok : Bool) : Dev :=
  match d.trayEnt? r.id with
  | some e =>
    if e.completed then d
    else
      let d := if e.m.body.op = .ioWr then d else d.replyTo s { e.m with fid := 0 } (e.endOp ok) [] false 0
      (d.modTray r.id fun x => { x with due := true, completed := true }).traySettle s e.port
  | none => (d.replyTo s { r.reqMsg with fid := 0 } (if ok then .cplDone else .cplFail) [] false 0).endAccess r.m

/-- Raise MIRROR_STALE for members that have failed. -/
def Dev.staleRaise (d : Dev) (u n : Nat) : Dev := (List.range n).foldl (fun d _ => d.raise DEC_F_MIRROR_STALE (u / 8)) d

/-- Every member has answered or failed. -/
def Dev.mirrorClose (d : Dev) (s : Nat) (r : Mirror) : Dev :=
  let d := d.dropMirror r.id
  let d := if r.accepted then d else
    ((d.setFenced r.vcs r.entry true).raise DEC_F_MIRROR_LOST (r.vcs / 8)).mirrorComplete s r false
  if (d.trayEnt? r.id).isSome then d.trayCommit r.id s r.accepted else d

/-- Member `k` of a mirrored write has accepted it, or failed with `cause` (1 error, 2 timeout, 3 removed). -/
def Dev.mirrorWrite (d : Dev) (s : Nat) (r : Mirror) (k : Nat) (ok : Bool) (cause : Nat) : Dev :=
  let act := d.memberState r.m.epoch r.vcs r.entry k = 0
  let r := { r with members := r.members.filter (· ≠ k) }
  let fin (d : Dev) (r : Mirror) : Dev := if r.members.isEmpty then d.mirrorClose s r else d.modMirror r.id fun _ => r
  if ok then
    if act && !r.accepted then
      let d := (d.staleRaise r.vcs r.failed).mirrorComplete s r true
      fin d { r with accepted := true, failed := 0 }
    else fin d r
  else
    let d := d.mirrorStale r.vcs r.entry k cause
    if r.accepted then fin (d.staleRaise r.vcs 1) r else fin d { r with failed := r.failed + 1 }

/-- A mirrored read goes on to the next ACTIVE member, MIRROR_RETRY being raised after poison, or its requester gets poison. -/
def Dev.mirrorRetry (d : Dev) (s : Nat) (r : Mirror) (k : Nat) (poison : Bool) : Dev :=
  let x := d.hdm r.m.epoch r.vcs r.entry
  match (x.membersIn (· = 0)).find? (k < ·) with
  | some n =>
    let d := if poison then d.raise DEC_F_MIRROR_RETRY (r.vcs / 8) else d
    let c := d.mirrorCopy r.m x r.vcs r.m.body.addr n
    (d.modMirror r.id fun y => { y with members := [n] }).pushRel { c with src := 128 + s, ready := true }
  | none => ((d.dropMirror r.id).replyFail s { r.reqMsg with fid := 0 }).endAccess r.m

/-- The answer of a member to a mirrored access. -/
def Dev.mirrorAnswer (d : Dev) (s : Nat) (m : Msg) (op : MOp) (data : Bytes) (poison : Bool) (cause : Nat) : Dev :=
  match d.mirror? m.mir with
  | none => d
  | some r =>
    if !r.members.contains m.memb then d
    else if r.write then d.mirrorWrite s r m.memb (op ≠ .tgtFail) (if cause = 2 then 1 else cause)
    else if op = .tgtFail then
      ((d.mirrorStale r.vcs r.entry m.memb cause).raise DEC_F_MIRROR_STALE (r.vcs / 8)).mirrorRetry s r m.memb false
    else if poison then d.mirrorRetry s r m.memb true
    else ((d.dropMirror r.id).replyTo s { r.reqMsg with fid := 0 } .cplData data false 0).endAccess r.m

/-! ## Other accesses -/

/-- The line of a lost write is recorded (R412). -/
def Dev.lostWrite (d : Dev) (s tk line : Nat) : Dev :=
  let d := if d.on TRY_LOSTLOG_VALID s then d else
    ((d.put TRY_LOSTLOG_LINE s line).put TRY_LOSTLOG_TK s tk).put TRY_LOSTLOG_VALID s 1
  d.raise TRY_F_LOST_WRITE s

/-- A target answers, or fails with `cause`, an access that its home did not make: `via` is where the answer comes in. -/
def Dev.accessAnswer (d : Dev) (via : Nat) (m : Msg) (op : MOp) (data : Bytes) (poison : Bool) (cause : Nat := 1) : Dev :=
  let s := srcSlice via
  if m.mir ≠ 0 then d.mirrorAnswer s m op data poison cause
  else if m.tray ≠ 0 then
    match d.trayEnt? m.tray with
    | none => d
    | some e =>
      let fail := op = .tgtFail
      let d := if fail && e.ordered && e.early then d.lostWrite (homeSlice e.tk e.line) e.tk e.line else d
      let d := if atomOp m.body.op && !fail && !e.bad then d.replyFrom via { e.m with fid := 0 } .cplData data poison 0
        else if atomOp m.body.op then d.replyFailFrom via { e.m with fid := 0 } else d
      d.trayCommit m.tray s (!fail)
  else if op = .tgtData then d.replyFrom via m .cplData (d.overlay m data) poison 0
  else if op = .tgtDone then (if isReadOp m.body.op then d else d.markDirty m).replyFrom via m .cplDone [] false 0
  else d.replyFailFrom via m

end Sys2Proof.Machine
end

