-- ==== Sys2Proof/Machine/LarderOps.lean ====
section
/-! DEFINITION. The Larder's lines: where they lie, the rows they activate, what a read or a write of one does (R433, R437,
R441 to R452). -/

namespace Sys2Proof.Machine

/-! ## Channels, rows and lines -/

/-- Channel-local line of an LPA line (R433). -/
def Dev.localLine (d : Dev) (line : Nat) : Nat := (d.lchan (line * 64)).2 / 64

/-- LPA line of a channel's local line. -/
def Dev.lpaLine (d : Dev) (c l : Nat) : Nat :=
  let w := max 1 d.channels.length
  let i := (d.channels.findIdx (· = c))
  (l * 64 / 256 * (256 * w) + i * 256 + l * 64 % 256) / 64

def rowKey (c key : Nat) : Nat := c * 2 ^ 26 + key

/-- Row, rank and bank of a channel's local line, as LDR_PPR places them. -/
def Dev.rowKeyOf (_d : Dev) (c l : Nat) : Nat := Config.rowOf c l % 2 ^ 26

/-- A repair of the line's bank is in progress (R448). -/
def Dev.bankBlocked (d : Dev) (c line : Nat) : Bool :=
  match SMap.get none d.ldr.repair c with
  | some k => d.rowKeyOf c (d.localLine line) % 128 = k % 128
  | none => false

/-- An access activates its row: the rolling count of the bank rises, and at the module's threshold an RFM command goes to the
bank and takes that many off the count (R452); threshold 0: the module asks for none. (DESIGN CHOICE, log entry 127) -/
def Dev.rowOpen (d : Dev) (c line : Nat) : Dev :=
  let k := c * 128 + d.rowKeyOf c (d.localLine line) % 128
  let n := SMap.get 0 d.ldr.raa k + 1
  let t := SMap.get 0 d.ldr.rfmThr c
  let due := t ≠ 0 && n ≥ t
  let d : Dev := { d with ldr := { d.ldr with raa := SMap.set 0 d.ldr.raa k (if due then n - t else n) } }
  if due then d.emit (.rfm c (k % 128)) else d

/-! ## Errors (R437, R442 to R444, R447) -/

/-- Record an uncorrectable error (LDR_ERRLOG, LDR_ERRCNT.UE). -/
def Dev.logUe (d : Dev) (c line kind : Nat) : Dev :=
  let d := d.inc LDR_ERRCNT_UE c
  if d.on LDR_ERRLOG_VALID c then d
  else ((d.put LDR_ERRLOG_LINE c (d.localLine line % 2 ^ 32)).put LDR_ERRLOG_KIND c kind).put LDR_ERRLOG_VALID c 1

def Dev.setLine (d : Dev) (line : Nat) (ce ue poison : Bool) : Dev :=
  let f (l : List Nat) (on : Bool) : List Nat := if on then (if l.contains line then l else l ++ [line]) else l.filter (· ≠ line)
  { d with ldr := { d.ldr with ce := f d.ldr.ce ce, ue := f d.ldr.ue ue, poison := f d.ldr.poison poison } }

/-- Start a soft repair of a row (R447, R450). -/
def Dev.startSoft (d : Dev) (c key : Nat) : Dev :=
  if d.on LDR_PPR_BUSY c then d
  else
    let d := { d with ldr := { d.ldr with repair := SMap.set none d.ldr.repair c (some key) } }
    d.put LDR_PPR_BUSY c 1

/-- A corrected error of a line: counted, raised, charged to its row (R442, R447). -/
def Dev.corrected (d : Dev) (c line : Nat) : Dev :=
  let d := (d.inc LDR_ERRCNT_CE c).raise LDR_F_CE c
  let key := d.rowKeyOf c (d.localLine line)
  let n := SMap.get 0 d.ldr.rowCe (rowKey c key) + 1
  let d := { d with ldr := { d.ldr with rowCe := SMap.set 0 d.ldr.rowCe (rowKey c key) n } }
  if d.on LDR_ECC_AUTO_PPR c && n ≥ max 1 (d.get LDR_ECC_ROW_CE_THR c) then d.startSoft c key else d

/-- The line of a carve-out at LPA `a` is read: whether it is lost, which its channel reports with `kind` (R437, R458). -/
def Dev.carveRead (d : Dev) (a kind : Nat) : Bool × Dev :=
  let line := a / 64
  let c := (d.lchan a).1
  let d := d.rowOpen c line
  if d.get LDR_CHSTAT_STATE c = 4 then (true, d)
  else if d.ldr.ue.contains line then (true, (d.logUe c line kind).raise LDR_F_UE_CARVE c)
  else (d.ldr.poison.contains line, if d.ldr.ce.contains line then d.corrected c line else d)

/-! ## Reads and writes of a line -/

/-- The data a read of a line gives, and whether it is poisoned (R442 to R444, R458). -/
def Dev.readLine (d : Dev) (c line : Nat) : Bytes × Bool × Dev :=
  if d.get LDR_CHSTAT_STATE c = 4 then
    let (b, d) := d.freshBytes 64
    (b, true, d)
  else if d.ldr.ue.contains line then
    let (b, d) := (d.rowOpen c line).freshBytes 64
    (b, true, (d.logUe c line 1).raise LDR_F_UE c)
  else
    let d := d.rowOpen c line
    let d2 := if d.ldr.ce.contains line then d.corrected c line else d
    (d.lread (line * 64) 64, d.ldr.poison.contains line, d2)

/-- An armed injection for the next write of the channel (R617): its source, then disarmed unless CONT. (DESIGN CHOICE, log entry 24) -/
def Dev.takeInject (d : Dev) (c line : Nat) (carve : Bool) : Option Nat × Dev :=
  let src := d.get (FLT_INJECT_SOURCE .ldr) c
  let sub := d.get (FLT_INJECT_SUB .ldr) c
  let fits := if carve then src = 3 else src ≤ 2
  if d.on (FLT_INJECT_ARM .ldr) c && fits && d.rowKeyOf c (d.localLine line) % 4 = sub % 4 then
    (some src, if d.on (FLT_INJECT_CONT .ldr) c then d else d.put (FLT_INJECT_ARM .ldr) c 0)
  else (none, d)

/-- A write reaches a line: bytes, poison bit and stored code (R444). -/
def Dev.writeLine (d : Dev) (c line be : Nat) (data : Bytes) (poison : Bool) : Dev :=
  let full := be % 2 ^ 64 = 2 ^ 64 - 1
  let wasUe := d.ldr.ue.contains line
  let keep := !full && (d.ldr.poison.contains line || wasUe)
  let d := (d.rowOpen c line).lwriteBe (line * 64) be data
  let (inj, d) := d.takeInject c line false
  let d := d.setLine line (inj = some 0) (inj = some 1 || inj = some 2) (poison || keep)
  if wasUe && !full then (d.logUe c line 1).raise LDR_F_UE c else d

end Sys2Proof.Machine
end

