-- ==== Sys2Proof/Machine/DmvOps.lean ====
section
/-! DEFINITION. The Data Mover's accesses, descriptors and migrations (chapter 14). -/

namespace Sys2Proof.Machine

/-! ## Descriptors (Table 14-5) -/

def Desc.w (x : Desc) (i : Nat) : W64 := x.words.getD i 0
def Desc.op (x : Desc) : Nat := bits (x.w 0) 0 8
def Desc.irq (x : Desc) : Bool := bits (x.w 0) 8 1 = 1
def Desc.nt (x : Desc) : Bool := bits (x.w 0) 9 1 = 1
def Desc.nocpl (x : Desc) : Bool := bits (x.w 0) 10 1 = 1
def Desc.tagField (x : Desc) : Nat := bits (x.w 0) 32 32
def Desc.srcA (x : Desc) : Nat := (x.w 1).toNat
def Desc.dstA (x : Desc) : Nat := (x.w 2).toNat
def Desc.len (x : Desc) : Nat := bits (x.w 3) 0 32
def Desc.aop (x : Desc) : Nat := bits (x.w 3) 32 4
def Desc.opA (x : Desc) (n : Nat) : Bytes := leBytes n ((x.w 4).toNat + (x.w 5).toNat * 2 ^ 64)
def Desc.opB (x : Desc) (n : Nat) : Bytes := leBytes n ((x.w 6).toNat + (x.w 7).toNat * 2 ^ 64)

/-- Status codes (Table 14-8). -/
def stOk : Nat := 0
def stBarrier : Nat := 1
def stDenied : Nat := 2
def stDecode : Nat := 3
def stWrite : Nat := 4
def stPoison : Nat := 5
def stRules : Nat := 6
def stInvalid : Nat := 7
def stAlign : Nat := 8
def stNotPriv : Nat := 9
def stMoveRefused : Nat := 0xA
def stMoveLimit : Nat := 0xB
def stMigrate : Nat := 0xC
def stFetch : Nat := 0xD
def stReadFailed : Nat := 0xE

/-- Operations that use LEN. -/
def opUsesLen (o : Nat) : Bool := 1 ≤ o && o ≤ 4
def opBarrier (o : Nat) : Bool := 8 ≤ o && o ≤ 0xA
/-- Operations whose accesses a BARRIER_LD, a BARRIER_ST holds. -/
def opReads (o : Nat) : Bool := [1, 3, 4, 5, 6, 7].contains o
def opWrites (o : Nat) : Bool := [1, 2, 5, 6, 7].contains o

def overlaps (a n b k : Nat) : Bool := a < b + k && b < a + n

/-- R474 to R476: the descriptor ends at once with this status. (DESIGN CHOICE, log entry 91) -/
def Desc.malformed (x : Desc) : Option Nat :=
  if bits (x.w 0) 11 21 ≠ 0 || bits (x.w 3) 36 28 ≠ 0 then some stInvalid
  else if opUsesLen x.op && (x.len < 1 || x.len > 2 ^ 30) then some stInvalid
  else if x.op = 1 && overlaps x.srcA x.len x.dstA x.len then some stInvalid
  else if x.op = 5 && x.aop > 2 then some stInvalid
  else if x.op = 5 && x.dstA % 8 ≠ 0 then some stAlign
  else if x.op = 6 && (x.dstA % 16 ≠ 0 || x.srcA % 16 ≠ 0) then some stAlign
  else none

/-- A record is written for the descriptor's end (NOCPL). -/
def Desc.recordDue (x : Desc) : Bool := !x.nocpl || x.status ≠ stOk || x.aborted

/-- A range cut at 64-byte boundaries: address, offset in the range, length of each piece. -/
def pieces (a len : Nat) : List (Nat × Nat × Nat) :=
  if len = 0 then []
  else (List.range ((a + len - 1) / 64 - a / 64 + 1)).map fun i =>
    let lo := max a (64 * (a / 64 + i))
    let hi := min (a + len) (64 * (a / 64 + i + 1))
    (lo, lo - a, hi - lo)

/-! ## Queues: states and requesters -/

def Dev.qWho (d : Dev) (q : Nat) : Who := { dom := some (d.q q cDomain), req := some (.queue q) }
/-- The page in which a queue's faults are raised. -/
def Dev.qPage (d : Dev) (q : Nat) : Nat := 4 * d.q q cEslice
def Dev.qRaise (d : Dev) (q : Nat) (f : FSrc) : Dev := d.raise f (d.qPage q) (d.qWho q)

/-- Queue `q`'s context is on chip (R465). -/
def Dev.cached (d : Dev) (q : Nat) : Bool := d.ldr.ctxLru.contains q

/-! ## Checks and ways of an access (R30, R473, R475, R507) -/

inductive Way | up | dec (x : Dec) | bad
  deriving DecidableEq, Repr

/-- Where an address of a queue leads, under epoch `e` of VCS `u`. -/
def Dev.wayOf (d : Dev) (e u a : Nat) : Way :=
  match d.decode e u a with
  | some x => if x.hdm.fenced then .bad else .dec x
  | none =>
    if (List.range 32).any fun i => let x := d.hdm e u i; x.v && x.lo ≤ a && a < x.lo + x.bytes then .bad else .up

/-- The first refusal within a range. (DESIGN CHOICE, log entry 91) -/
def Dev.rangeDenied (d : Dev) (q : Nat) (k : AccKind) (a len : Nat) : Option (Denial × Nat) :=
  let u := d.q q cVcs
  if d.get ACU_CFG_EN u = 0 then none
  else (pieces a len).findSome? fun p => match d.check d.epoch u (d.queueKey q) k p.1 p.2.2 with
    | .error e => some e
    | .ok _ => none

/-- A range of a descriptor does not decode. (DESIGN CHOICE, log entry 91) -/
def Dev.rangeBad (d : Dev) (q a len : Nat) : Bool :=
  (pieces a len).any fun p => d.wayOf d.epoch (d.q q cVcs) p.1 = .bad

/-- The tag words of a range are looked up in the cache of the ACU's slice, and fetched where they are missing; a lost word is
reported (R34, R502, R507). -/
def Dev.rangeTags (d : Dev) (u a len : Nat) : Dev :=
  let s := portSlice u
  let granules := if len = 0 then [] else (List.range ((a + len - 1) / 65536 - a / 65536 + 1)).map fun i => max a ((a / 65536 + i) * 65536)
  let words := granules.filterMap fun x => (d.regionAt d.epoch u x).bind fun r => if r.c then some (r.tagIdx x / 8) else none
  if d.get ACU_CFG_EN u = 0 || !d.on LDR_CARVE_TAG_EN || !d.ldr.up then d
  else words.dedup.foldl (fun d w =>
    let hit := d.tagCached s w
    let d := d.tagTouch s w
    if hit then d
    else
      let (lost, d) := d.carveRead (d.tagBase + 8 * w) 3
      if lost then d else d.tagInsert s w) d

/-- The checks of a descriptor's ranges before its first access: the status it ends with, if any. (DESIGN CHOICE, log entry 91) -/
def Dev.rangeCheck (d : Dev) (q : Nat) (l : List (AccKind × Nat × Nat)) : Option Nat × Dev :=
  let d := l.foldl (fun d r => d.rangeTags (d.q q cVcs) r.2.1 r.2.2) d
  match l.findSome? fun r => (d.rangeDenied q r.1 r.2.1 r.2.2).map fun e => (r.1, e) with
  | some (k, c, a) => (some stDenied, d.deny (d.q q cVcs) (d.queueKey q) k c a (d.qWho q))
  | none => (if l.any fun r => d.rangeBad q r.2.1 r.2.2 then some stDecode else none, d)

/-- The epoch a descriptor pins (R479). -/
def Dev.pinned (d : Dev) (fid : Nat) : Nat := ((d.ctl.flights.find? (·.id = fid)).map (·.epoch)).getD d.epoch

/-- A message of a queue from the internal endpoint of its slice (R473). -/
def Dev.queueMsg (d : Dev) (q : Nat) (b : Body) : Msg :=
  let s := d.q q cEslice
  { cls := 0xF, src := 128 + s, srcG := d.myId * 128 + 8 * s, int := true, tc := d.q q cTc, domain := d.q q cDomain,
    req := some (.queue q), ready := true, epoch := d.epoch, body := b }

/-- A queue's request on its way: decoded targets through the slice's internal endpoint, everything else to the
UPSTREAM port as a request of the function. True beside the state when it is over on issue; none when it cannot go. (DESIGN CHOICE, log entry 90) -/
def Dev.issue (d : Dev) (q fid : Nat) (op : MOp) (a tag be : Nat) (line : Bytes) (arg : Nat) (poison nt : Bool) :
    Option (Bool × Dev) :=
  let u := d.q q cVcs
  let e := d.pinned fid
  let r := if d.getAt e ACU_CFG_EN u = 0 then openRegion else (d.regionAt e u a).getD openRegion
  let b : Body := { op := op, addr := a, tag := tag, agent := 512, be := be, data := line, arg := arg }
  let m : Msg := { d.queueMsg q b with
    epoch := e, hpa := a, attrP := r.p, attrS := r.s, attrE := r.e, stream := nt, poison := poison,
    tp := if trayOp op then some u else none }
  match d.wayOf e u a with
  | .dec x =>
    let r := d.direct { m with len := m.lenOf } u x
    some (false, r.1.foldl Dev.pushRel r.2)
  | .up =>
    let m := { m with cls := if op = MOp.svcWr then 0x0 else 0x1, int := false, dst := d.myId * 128 + u, tp := none, stream := false, attrP := false }
    some (decide (op = MOp.svcWr), d.pushRel { m with len := m.lenOf })
  | .bad => none

/-- Line form of bytes at an address: enables, and the line's 64 bytes. (DESIGN CHOICE, log entry 93) -/
def lineForm (a : Nat) (b : Bytes) : Nat × Bytes :=
  ((2 ^ b.length - 1) * 2 ^ (a % 64), fitBytes 64 (List.replicate (a % 64) 0 ++ b))

def Dev.takeTag (d : Dev) : Nat × Dev := (d.dmv.nextTag, { d with dmv := { d.dmv with nextTag := d.dmv.nextTag + 1 } })

/-- A write request of a descriptor has ended failed. -/
def Desc.failWr (x : Desc) : Desc := { x with failedWr := x.failedWr + 1 }

/-- What an engine's buffer has written is lost where an injection is armed: it leaves poisoned (Table 14-11, R617). The event is
the engine's and names no queue (R15). (DESIGN CHOICE, log entry 24) -/
def Dev.bufferUe (d : Dev) (x : Desc) : Bool × Dev :=
  match d.injectAt .dmv x.eng [DMV_F_ENGINE_UE.num] none with
  | (some _, d) => (true, d.raise DMV_F_ENGINE_UE x.eng)
  | (none, d) => (false, d)

/-- Issue one write of at most 64 bytes within a line for a descriptor. -/
def Dev.issueWr (d : Dev) (q : Nat) (x : Desc) (a off : Nat) (b : Bytes) (poison : Bool) : Desc × Dev :=
  let (lost, d) := d.bufferUe x
  let poison := poison || lost
  let (tag, d) := d.takeTag
  let (be, line) := lineForm a b
  match d.issue q x.fid .svcWr a tag be line 0 poison x.nt with
  | some (true, d) => ({ x with moved := x.moved + b.length }, d)
  | some (false, d) => ({ x with accs := x.accs ++ [⟨tag, 2, a, off, b.length⟩] }, d)
  | none => (x.failWr, d.noteFailed (some (.queue q)))

/-- Issue one read of at most 64 bytes; a read that cannot go counts as poisoned. -/
def Dev.issueRd (d : Dev) (q : Nat) (x : Desc) (kind a off len : Nat) : Desc × Dev :=
  let (tag, d) := d.takeTag
  match d.issue q x.fid .svcRd a tag 0 [] 0 false false with
  | some (_, d) => ({ x with accs := x.accs ++ [⟨tag, kind, a, off, len⟩] }, d)
  | none => ({ x with poisonRd := x.poisonRd + 1 }, d)

def Dev.issueReads (d : Dev) (q : Nat) (x : Desc) (kind a len : Nat) : Desc × Dev :=
  (pieces a len).foldl (fun (acc : Desc × Dev) p => acc.2.issueRd q acc.1 kind p.1 p.2.1 p.2.2) (x, d)

/-- Write a run of bytes, cut at lines. (DESIGN CHOICE, log entry 90) -/
def Dev.issueBytes (d : Dev) (q : Nat) (x : Desc) (a off : Nat) (b : Bytes) (poison : Bool) : Desc × Dev :=
  (pieces a b.length).foldl (fun (acc : Desc × Dev) p =>
    acc.2.issueWr q acc.1 p.1 (off + p.2.1) ((b.drop p.2.1).take p.2.2) poison) (x, d)

/-- Issue an atomic of `n` bytes (R424, R476): operation, A then B. -/
def Dev.issueAtom (d : Dev) (q : Nat) (x : Desc) (aop n : Nat) : Desc × Dev :=
  let (tag, d) := d.takeTag
  match d.issue q x.fid .svcAtom x.dstA tag ((2 ^ n - 1) * 2 ^ (x.dstA % 64)) (x.opA n ++ x.opB n) (aop + 16 * n) false false with
  | some (_, d) => ({ x with accs := x.accs ++ [⟨tag, 3, x.dstA, 0, n⟩] }, d)
  | none => (x.failWr, d.noteFailed (some (.queue q)))

/-! ## Ends (R477 to R481) -/

/-- The bytes read by COMPARE's first (0) or second (1) range, or by CRC, in ascending offset. -/
def Desc.readBytes (x : Desc) (k : Nat) : Bytes := (x.chunks.filter fun c => c.1 % 2 = k).flatMap Prod.snd

/-- RESULT of a descriptor that ended well (Table 14-6). -/
def Desc.goodResult (x : Desc) : Nat :=
  match x.op with
  | 3 =>
    match (List.range x.len).find? fun i => (x.readBytes 0)[i]? ≠ (x.readBytes 1)[i]? with
    | some i => 2 ^ 63 + i
    | none => 0
  | 4 => Nat.xor ((x.readBytes 0).foldl crc32cStep (bits (x.w 4) 0 32)) 0xFFFFFFFF
  | 5 => leNat (x.readBytes 0)
  | 6 => b2n (x.readBytes 0 = x.opA 16)
  | _ => 0

/-- The end of a descriptor whose accesses have all ended (R479, R480). -/
def Desc.finish (x : Desc) : Desc :=
  let (st, r) :=
    if x.aborted then (stRules, x.moved)
    else if x.poisonRd ≠ 0 then (stPoison, x.poisonRd)
    else if x.failedWr ≠ 0 then (stWrite, x.failedWr)
    else (stOk, x.goodResult)
  { x with ended := true, status := st, result := r }

/-- End a descriptor with a status and no access. -/
def Desc.endWith (x : Desc) (st : Nat) (r : Nat := 0) : Desc := { x with started := true, ended := true, status := st, result := r }

/-- Count a record discarded (R481). -/
def Dev.staleOne (d : Dev) (q : Nat) (x : Desc) : Dev :=
  if x.recordDue then (d.qPut q cStale (min (d.q q cStale + 1) (2 ^ 32 - 1))).qRaise q DMV_F_STALE_CPL else d

def Dev.endFid (d : Dev) (fid : Nat) : Dev := if fid = 0 then d else d.endFlight fid

/-- One descriptor ends if it may: `before` says every earlier one has ended. -/
def Desc.settle (x : Desc) (before : Bool) : Desc :=
  if !x.started || x.ended || !x.accs.isEmpty then x
  else if x.op ≤ 6 then x.finish
  else if x.op = 0xB then (if before then x.finish else x)
  else x

/-- Settle a queue's descriptors in order, then those of its earlier generations. -/
def Dev.settleQueue (d : Dev) (q : Nat) : Dev :=
  let x := d.queue q
  let (_, ds, fids) := x.descs.foldl (fun (acc : Bool × List Desc × List Nat) y =>
    let z := y.settle acc.1
    (acc.1 && z.ended, acc.2.1 ++ [z], if z.ended && !y.ended then acc.2.2 ++ [z.fid] else acc.2.2)) (true, [], [])
  let gone := x.old.filter (·.accs.isEmpty)
  let old := x.old.filter fun y => !y.accs.isEmpty
  let d := d.setQueue q { x with descs := ds, old := old }
  let d := (fids ++ gone.map (·.fid)).foldl Dev.endFid d
  let d := gone.foldl (fun d y => d.staleOne q y) d
  if gone.isEmpty then d else d.qPut q cOldBusy (b2n !old.isEmpty)

/-- Replace the descriptor of a queue that holds an access tag. (DESIGN CHOICE, log entry 93) -/
def replaceAcc (tag : Nat) (y : Desc) (l : List Desc) : List Desc :=
  l.map fun x => if x.accs.any (·.tag = tag) then y else x

/-- The answer to an access of a descriptor: what it moves on to. `live`: not of an earlier generation. (DESIGN CHOICE, log entry 93) -/
def Dev.accEnded (d : Dev) (q : Nat) (x : Desc) (c : DAcc) (m : Msg) : Desc × Dev :=
  let go := !x.aborted
  let fail := m.body.op = .cplFail || m.body.op = .ioUr
  let poison := m.poison || fail
  let b := (fitBytes 64 m.body.data |>.drop (c.addr % 64)).take c.len
  if c.kind ≤ 1 then
    let x := if poison then { x with poisonRd := x.poisonRd + 1 } else x
    if x.op = 1 then (if go then d.issueBytes q x (x.dstA + c.off) c.off b poison else (x, d))
    else ({ x with chunks := SMap.ins x.chunks (2 * c.off + c.kind) b, moved := x.moved + c.len }, d)
  else if c.kind = 2 then
    if fail then (x.failWr, d.noteFailed (some (.queue q))) else ({ x with moved := x.moved + c.len }, d)
  else if fail then (x.failWr, d.noteFailed (some (.queue q)))
  else
    let x := if m.poison then { x with poisonRd := x.poisonRd + 1 } else x
    let x := { x with chunks := SMap.ins x.chunks 0 b, moved := x.moved + c.len }
    if x.op = 6 && x.srcA ≠ 0 && go then d.issueBytes q x x.srcA 0 b m.poison else (x, d)

/-- A record write failed: the queue enters ERROR (Table 14-3). -/
def Dev.recordFailed (d : Dev) (q : Nat) : Dev := (d.setQState q qError).qRaise q DMV_F_CPL_WRITE

/-- The answer to a record's write. -/
def Dev.recordAnswer (d : Dev) (q tag : Nat) (failed : Bool) : Dev :=
  if !(d.queue q).recs.contains tag then d
  else
    let d := d.setQueue q { d.queue q with recs := (d.queue q).recs.filter (· ≠ tag) }
    if failed then d.recordFailed q else d

/-- A queue's answer arrives at its slice; one that nothing awaits is discarded. -/
def Dev.dmvAnswer (d : Dev) (m : Msg) : Dev :=
  match m.req with
  | some (.queue q) =>
    let tag := m.body.tag
    match (d.queue q).descs.find? (fun x => x.accs.any (·.tag = tag)) |>.orElse fun _ =>
        (d.queue q).old.find? fun x => x.accs.any (·.tag = tag) with
    | none => d.recordAnswer q tag (m.body.op = .cplFail || m.body.op = .ioUr)
    | some x =>
      match x.accs.find? (·.tag = tag) with
      | none => d
      | some c =>
        let (y, d) := d.accEnded q { x with accs := x.accs.filter (·.tag ≠ tag) } c m
        let z := d.queue q
        (d.setQueue q { z with descs := replaceAcc tag y z.descs, old := replaceAcc tag y z.old }).settleQueue q
  | _ => d

/-! ## Reset, FLR, removal (R481, R482) -/

/-- The reset of R481: to state `st`, with words 0 to 3 zeroed when `clear`. (DESIGN CHOICE, log entry 95) -/
def Dev.qReset (d : Dev) (q st : Nat) (clear : Bool) : Dev :=
  let x := d.queue q
  let run := x.descs.filter (·.started)
  let live := run.filter fun y => !y.accs.isEmpty
  let dead := run.filter fun y => y.accs.isEmpty
  let d := dead.foldl (fun d y => ((if y.ended then d else d.endFid y.fid)).staleOne q { y with aborted := y.aborted || !y.ended }) d
  let old := x.old ++ live.map fun y => { y with aborted := true }
  let d := d.setQueue q { x with descs := [], old := old, heldReset := false, failSince := 0, ctxErr := false, recs := [] }
  let d := (d.setQState q st).endQuar (.queue q)
  let d := (((d.qPut q cHead 0).qPut q cTail 0).qPut q cCqTail 0).qPut q cCqHead 0
  let d := ((d.qPut q cPhase 1).qPut q cGen ((d.q q cGen + 1) % 256)).qPut q cOldBusy (b2n !old.isEmpty)
  let d := if x.ctxErr then
      let l := (d.ctxBase + 128 * q) / 64
      (((((d.setLine l false false false).setLine (l + 1) false false false).setCtxW q 8 0).qPut q cEslice 0).qPut q cWeight 0) else d
  if clear then (List.range 4).foldl (fun d i => d.setCtxW q i 0) d else d

/-- A RESET would make GEN equal to the generation of an access in flight (R482). (DESIGN CHOICE, log entry 95) -/
def Dev.resetHeld (d : Dev) (q : Nat) : Bool :=
  let g := (d.q q cGen + 1) % 256
  (d.queue q).old.any fun x => x.gen = g

/-! ## Functions (R463) -/

def Dev.fnQueues (d : Dev) (u fn : Nat) : List Nat :=
  let (b, n) := d.fnBlock u fn
  (List.range n).map (b + ·)

/-- Allocate a function's queues. -/
def Dev.allocFn (d : Dev) (u fn : Nat) : Dev :=
  (d.fnQueues u fn).foldl (fun d q =>
    if d.q q cAlloc = 1 then d
    else
      let d := (((d.setQState q qDisabled).qPut q cVcs u).qPut q cFn fn).qPut q cAlloc 1
      d.put DMV_POOL_ALLOC 0 (d.get DMV_POOL_ALLOC + 1)) d

/-- Remove queues (R463, R481). -/
def Dev.removeQueues (d : Dev) (l : List Nat) : Dev :=
  l.foldl (fun d q =>
    if d.q q cAlloc ≠ 1 then d
    else
      let d := (d.qReset q qUnalloc true).qPut q cAlloc 0
      d.put DMV_POOL_ALLOC 0 (d.get DMV_POOL_ALLOC - 1)) d

def Dev.removeFn (d : Dev) (u fn : Nat) : Dev := d.removeQueues (d.fnQueues u fn)

/-- VF Enable clears. -/
def Dev.dropVfs (d : Dev) (u : Nat) : Dev :=
  let n := SMap.get 0 d.dmv.vfs u
  let d := (List.range n).foldl (fun d i => d.removeFn u (i + 1)) d
  { d with dmv := { d.dmv with vfs := SMap.set 0 d.dmv.vfs u 0 } }

/-- The queue registers of a function return to their reset values. -/
def Dev.fnRegsReset (d : Dev) (u fn : Nat) : Dev :=
  let k := fnKey u fn
  let d := ((d.put FN_QSEL_QUEUE k 0).put FN_QSTAT_RESULT k 0).put FN_QSTAT_BUSY k 0
  (List.range 6).foldl (fun d i => d.put FN_QCTX_DATA k 0 i) d

/-- FLR of a function: every queue of it resets with words 0 to 3 zeroed. -/
def Dev.flrFn (d : Dev) (u fn : Nat) : Dev :=
  ((d.fnQueues u fn).foldl (fun d q => if d.q q cAlloc = 1 then d.qReset q qDisabled true else d) d).fnRegsReset u fn

/-- A hot reset or PERST of the UPSTREAM port u: the VFs' queues are removed and PF0's reset (R463). -/
def Dev.endpointReset (d : Dev) (u : Nat) : Dev :=
  if !d.on DMV_EPCFG_EN 0 u then d
  else
    let d := d.dropVfs u
    ((d.fnQueues u 0).foldl (fun d q => if d.q q cAlloc = 1 then d.qReset q qDisabled false else d) d).fnRegsReset u 0

/-! ## Aborts (R479, R509) -/

/-- Descriptors of a queue that `p` names stop and end RULES_CHANGED. -/
def Dev.abortDescs (d : Dev) (q : Nat) (p : Desc → Bool) : Dev :=
  let x := d.queue q
  let f (y : Desc) : Desc := if y.started && !y.ended && y.op ≠ 7 && y.fid ≠ 0 && p y then { y with aborted := true } else y
  (d.setQueue q { x with descs := x.descs.map f, old := x.old.map f }).settleQueue q

/-! ## New epochs (R53, R326) -/

/-- Keep a page's active words and tables as the previous copies. -/
def Dev.savePrev (d : Dev) (g : Pg) : Dev :=
  let mine (e : Nat × W64) : Bool := g.addr ≤ e.1 && e.1 < g.addr + 4096
  let tabOf (e : Nat × W64) : Bool := g.tables.contains (keyTab e.1)
  let ins (l : SMap W64) (e : Nat × W64) : SMap W64 := SMap.ins l e.1 e.2
  { d with prev := (d.regs.filter mine).foldl ins (d.prev.filter fun e => !mine e),
           tabPrev := (d.tabs.filter tabOf).foldl ins (d.tabPrev.filter fun e => !tabOf e),
           tabUePrev := d.tabUePrev.filter (fun k => !g.tables.contains (keyTab k)) ++ d.tabUe.filter fun k => g.tables.contains (keyTab k) }

/-- The rule epoch rises by one with a change of page `g`; APPLIED clears. -/
def Dev.raiseEpoch (d : Dev) (g : Pg) : Dev :=
  let e := (d.epoch + 1) % 65536
  ((d.put DEV_RULE_EPOCH_EPOCH 0 e).put (PGEPOCH_SEQ g.blk) g.inst e).put (PGEPOCH_APPLIED g.blk) g.inst 0

/-! ## Migrations (R486 to R490) -/

def Dev.migr? (d : Dev) (m : Nat) : Option Migr := SMap.get none d.dmv.migr m
def Dev.setMigr (d : Dev) (m : Nat) (g : Option Migr) : Dev := { d with dmv := { d.dmv with migr := SMap.set none d.dmv.migr m g } }

/-- A line of a target as R408 makes it visible: its bytes under the accepted writes of the Trays, and its poison; none
when the target returns no data. -/
def Dev.visibleLine (d : Dev) (t : Tgt) (line : Nat) : Option (Bytes × Bool) × Dev :=
  let over_ (b : Bytes) : Bytes :=
    let es := d.coh.tray.filter fun e => e.ordered && e.tk = t.key && e.line = line && t.dev = d.myId
    (es.mergeSort fun x y => x.idx ≤ y.idx).foldl (fun b e => writtenLine b e.m.body) b
  if t.larder && t.dev = d.myId then
    let a := d.ldBase t.ld + 64 * line
    if 64 * line + 64 > d.ldSize t.ld then (none, d)
    else
      let (b, p, d) := d.readLine (d.lchan a).1 (a / 64)
      (some (over_ b, p), d)
  else if t.dev = d.myId && !d.on PRT_STAT_DL_ACTIVE t.port then (none, d)
  else
    let (b, d) := d.freshBytes 64
    (some (over_ b, false), d)

/-- Write a line of a target for a copy; false when the write ends failed. The memory behind a port is not the
device's. (DESIGN CHOICE, log entry 92) -/
def Dev.copyWrite (d : Dev) (t : Tgt) (line : Nat) (b : Bytes) (poison : Bool) : Bool × Dev :=
  if t.larder && t.dev = d.myId then
    let a := d.ldBase t.ld + 64 * line
    if 64 * line + 64 > d.ldSize t.ld || d.get LDR_CHSTAT_STATE (d.lchan a).1 = 4 then (false, d)
    else (true, d.writeLine (d.lchan a).1 (a / 64) fullBe b poison)
  else (!(t.dev = d.myId) || d.on PRT_STAT_DL_ACTIVE t.port, d)

/-- Why a copy stops short of a swap. -/
inductive CopyEnd | ok (poison : Bool) | readFailed | writeFailed
  deriving DecidableEq, Repr

/-- Copy 4 KiB granules from the old location to the new (R487, R490). (DESIGN CHOICE, log entry 92) -/
def Dev.copyGranules (d : Dev) (src dst : Tgt) (lo new : Nat) (l : List Nat) : CopyEnd × Dev :=
  (l.flatMap fun k => (List.range 64).map fun i => 64 * k + i).foldl (fun (acc : CopyEnd × Dev) i =>
    match acc.1 with
    | .ok p =>
      (match acc.2.visibleLine src (lo / 64 + i) with
      | (none, d) => (.readFailed, d)
      | (some (b, q), d) =>
        match d.copyWrite dst (new / 64 + i) b q with
        | (true, d) => (.ok (p || q), d)
        | (false, d) => (.writeFailed, d))
    | e => (e, acc.2)) (.ok false, d)

/-- Old and new targets of a migration. -/
def Dev.migrTgts (d : Dev) (g : Migr) : Option (Tgt × Tgt) :=
  match (d.bindNow g.vcs ((d.hdmNow g.vcs g.entry).tgts.getD 0 0)).tgt, (d.bindNow g.vcs g.tgt).tgt with
  | some a, some b => some (a, b)
  | _, _ => none

/-- Granules of the entry. -/
def Dev.migrGranules (d : Dev) (g : Migr) : Nat := (d.hdmNow g.vcs g.entry).bytes / 4096

/-- DMV_MLSTAT of a slot returns to idle. -/
def Dev.mlIdle (d : Dev) (m : Nat) : Dev := d.setWord DMV_MLSTAT 0 0 m

/-- The descriptor of a migration ends. -/
def Dev.endMoveDesc (d : Dev) (g : Migr) (st : Nat) : Dev :=
  let x := d.queue g.queue
  let f (y : Desc) : Desc := if y.accs.any (·.tag = g.tag) then { y.endWith st g.copied with accs := [] } else y
  (d.setQueue g.queue { x with descs := x.descs.map f, old := x.old.map f }).settleQueue g.queue

/-- The check of a held write under the rules as they stand: its key, and the refusal if it meets one (R488). -/
def Dev.heldCheck (d : Dev) (e : TrayEnt) : Key × Option (Denial × Nat) :=
  let m := e.m
  let key := match m.req with
    | some (.queue q) => d.queueKey q
    | some (.ld _ l) => d.portKey d.epoch e.port (l + 1)
    | _ => d.portKey d.epoch e.port 0
  if d.get ACU_CFG_EN e.port = 0 then (key, none)
  else match d.check d.epoch e.port key (if atomOp m.body.op then .atomic else .write) m.hpa 1 with
    | .error r => (key, some r)
    | .ok _ => (key, none)

/-- A write leaves HOLD: by the decoders as they stand, or failed. -/
def Dev.releaseOne (d : Dev) (u : Nat) (e : TrayEnt) (m : Msg) : Dev :=
  let s := portSlice e.port
  match d.decode d.epoch u m.hpa with
  | some x =>
    if x.hdm.fenced then d.trayCommit e.id s false
    else
      let m := { d.aim m x.tgt x.hdm.home x.dpa with epoch := d.epoch }
      let d := d.modTray e.id fun y => { y with movelive := false, m := m, tk := m.body.tk, line := m.body.addr / 64 }
      d.pushRel { m with src := 128 + s, srcG := d.myId * 128 + 8 * s, tp := none, ready := true, stream := false }
  | none => d.trayCommit e.id s false

/-- Held writes of the entry leave HOLD in Tray order (R487, R488): each is directed by the decoders as they stand, after a
check under the new epoch when `again` is set. -/
def Dev.releaseHeld (d : Dev) (u i : Nat) (again : Bool) : Dev :=
  (d.coh.tray.filter fun e => e.movelive && e.m.vcs = u && e.m.entry = i).foldl (fun d e =>
    let m := e.m
    if !again then d.releaseOne u e m
    else
      let d := (d.restamp m.fid).rangeTags e.port m.hpa 1
      match d.heldCheck e with
      | (key, some (c, a)) =>
        (d.deny e.port key (if atomOp m.body.op then .atomic else .write) c a { dom := some m.domain, req := m.req }).trayCommit e.id
          (portSlice e.port) false
      | (_, none) => d.releaseOne u e m) d

/-- A migration ends without a swap. -/
def Dev.migrFail (d : Dev) (m : Nat) (g : Migr) (st : Nat) : Dev :=
  let d := (d.setMigr m none).mlIdle m
  let d := d.releaseHeld g.vcs g.entry false
  (d.endMoveDesc g st).raise DMV_F_MOVE_END 0 (d.qWho g.queue)

/-- Migrations that `p` names end with a status. -/
def Dev.migrStop (d : Dev) (p : Migr → Bool) (st : Nat) : Dev :=
  (List.range 64).foldl (fun d m => match d.migr? m with
    | some g => if p g then d.migrFail m g st else d
    | none => d) d

/-- Copy a set of granules; the migration after it, or its end. (DESIGN CHOICE, log entry 92) -/
def Dev.migrCopy (d : Dev) (m : Nat) (g : Migr) (l : List Nat) : Option Migr × Dev :=
  match d.migrTgts g with
  | none => (none, d.migrFail m g stReadFailed)
  | some (a, b) =>
    let r := d.copyGranules a b ((d.hdmNow g.vcs g.entry).dpa * 2 ^ 28) (g.base * 2 ^ 28) l
    match r.1 with
    | .ok p =>
      let g := { g with poison := g.poison || p, copied := g.copied + l.length }
      (some g, r.2.setMigr m (some g))
    | .readFailed => (none, r.2.migrFail m g stReadFailed)
    | .writeFailed => (none, r.2.migrFail m g stWrite)

end Sys2Proof.Machine
end

