-- ==== Sys2Proof/Machine/HomeFlow.lean ====
section
/-! DEFINITION. The home at work: a request's decision, the snoops and target accesses it opens, the answers it takes,
the state and answer it ends with, victims, queues, timeouts and dead agents (Tables 10-3 to 10-5, chapter 11). -/

namespace Sys2Proof.Machine

/-! ## Kinds (Table 10-3) -/

def kindOf (o : MOp) : Option Kind :=
  match o with
  | .memRdData | .rdShared | .rdAny => some .rdS
  | .memRdInv | .memInv | .rdOwn => some .rdO
  | .rdOwnNoData => some .ownNd
  | .memRdCur | .memRdNoOp | .rdCurr | .svcRd | .ioRd => some .rdC
  | .memWr | .memWrPtl | .itoMWr | .wrCur | .cMemWr | .svcWr | .ioWr => some .wr
  | .svcAtom | .ioAtom => some .atom
  | .memWrI | .dirtyEvict => some .wbI
  | .memWrS => some .wbS
  | .memClnEvct | .cleanEvict | .cleanEvictNoData => some .cln
  | .bisInv => some .bisI
  | .bisData => some .bisS
  | .bisCur => some .bisC
  | _ => none

/-- Agent that sent a homed message; none for a non-caching requester. -/
def Msg.agentId (m : Msg) : Option Nat := if m.body.agent < 512 then some m.body.agent else none

/-- Line of a homed message. -/
def Msg.hline (m : Msg) : Nat := m.body.addr / 64

/-- The region's P attribute, as it came with the message. -/
def Msg.isP (m : Msg) : Bool := m.attrP || (m.link.isSome && m.body.st % 2 = 1)

/-- Kinds that invalidate the sharers. -/
def Kind.invs (k : Kind) : Bool := [Kind.rdO, .ownNd, .wr, .atom, .bisI, .dirVictim, .conserv].contains k

/-- Kinds whose answer needs the line's data. (DEDUCED, log entry 74) -/
def Kind.needsData (k : Kind) : Bool := [Kind.rdS, .rdO, .rdC, .wr, .atom].contains k

/-- Snoop an agent owner gets (Table 10-5, R360). -/
def Kind.ownerSnoop (k : Kind) (st : Nat) (ownOk : Bool) : Option MOp :=
  match k with
  | .rdS => some (if st = 4 || ownOk then .snpCur else .snpData)
  | .rdC | .bisC => some .snpCur
  | .bisS => some .snpData
  | .rdO | .ownNd | .wr | .atom | .bisI | .dirVictim | .conserv => some .snpInv
  | _ => none

/-- Kinds a requester waits for. -/
def Kind.asks (k : Kind) : Bool := [Kind.rdS, .rdO, .ownNd, .rdC, .wr, .atom].contains k

/-- What a request's transaction leaves without its requester. -/
def Kind.quiet (k : Kind) : Kind :=
  match k with
  | .rdS => .bisS | .rdC => .bisC | .rdO | .ownNd | .wr | .atom => .bisI | k => k

/-! ## Suspects and dead agents (R393 to R399) -/

/-- Declare an agent dead (R394 to R397): `cause` as DIR_DEATH.CAUSE. (DEDUCED, log entry 76) -/
def Dev.declareDead (d : Dev) (a cause from_ dom : Nat) : Dev :=
  if d.agentDead a then d
  else
    let dom := d.agentDomain a dom
    let pg := match d.agentPort a with | some p => p / 8 | none => 0
    let req := (d.agentPort a).map Req.port
    let d := { d with coh := { d.coh with dead := d.coh.dead ++ [a] } }
    if d.quenched dom then d
    else
      let d := if d.on DIR_DEATH_VALID pg then d else
        ((((d.put DIR_DEATH_AGENT pg a).put DIR_DEATH_DOMAIN pg dom).put DIR_DEATH_CAUSE pg cause).put DIR_DEATH_FROM pg from_).put
          DIR_DEATH_VALID pg 1
      (d.quench dom (some a) (cause ≠ 3)).raise DIR_F_AGENT_DEAD pg { dom := some dom, req := req }

/-- Agents whose suspect count reached 3 are declared dead; a quench may add some in turn. -/
def Dev.deathsGo (d : Dev) : Nat → Dev
  | 0 => d
  | n + 1 =>
    let l := d.flt.dying
    if l.isEmpty then d
    else Dev.deathsGo (l.foldl (fun d x => d.declareDead x.1 1 0 x.2) { d with flt := { d.flt with dying := [] } }) n

/-- What lost snoop copies call for: their faults are raised, and agents are declared dead (R392 to R394). -/
def Dev.copiesEnd (d : Dev) : Dev := d.raiseDue.deathsGo 8

/-- A snoop of agent `a` timed out at a home of this device (R392, R393). -/
def Dev.snoopTimedOut (d : Dev) (s a dom : Nat) : Dev := (d.copyLost s a dom).copiesEnd

/-! ## Slice-cache ways (R363, R369) -/

/-- Way the slice cache may take for a line of domain `dom`, and the line it replaces. -/
def Dev.sccPick (d : Dev) (s set_ dom : Nat) : Option (Nat × Option SccLine) :=
  let l := d.sccAt s set_
  let ok (w : Nat) : Bool := d.sccWayOk s dom w && !(d.home s).disabledWays.contains (set_ * 16 + w)
  match (List.range 16).find? fun w => ok w && !l.any (·.way = w) with
  | some w => some (w, none)
  | none =>
    (plruVictim (SMap.get 0 d.coh.sccLru (s * 4096 + set_)) fun w =>
      ok w && l.any fun e => e.way = w && !d.lineBusy e.tk e.h).map fun w => (w, l.find? (·.way = w))

/-- The slice-cache copy found when a line is read is corrected, or lost (R364): the entry after it, and whether dirty data was lost,
so that every agent copy is invalidated. A lost tag disables its way. -/
def Dev.sccCheck (d : Dev) (e : DirEnt) : DirEnt × Bool × Dev :=
  match d.scc? e.tk e.h with
  | none => (e, false, d)
  | some l =>
    let s := homeSlice e.tk e.h
    if l.bad = 0 then (e, false, d)
    else if l.bad = 1 then (e, false, (d.putScc { l with bad := 0 }).raise SCC_F_CE s)
    else
      let d := if l.bad = 3 then
          (d.modHome s fun x => { x with disabledWays := x.disabledWays ++ [sccSet e.tk e.h * 16 + l.way] }).raise SCC_F_TAG_UE s
        else d
      let d := d.dropScc e.tk e.h
      if (if l.bad = 3 then e.ownerScc else l.dirty) then
        let (b, d) := d.freshBytes 64
        let d := (d.tgtWriteAcc e.tk e.h b true (d.get DIR_CFG_HOME_TC s) e.domain l.acc).raise SCC_F_UE_DIRTY s
        (({ e with ownerScc := false, sccV := false } : DirEnt).clean false, true, d)
      else (if e.st = 1 then e.clean false else { e with sccV := false }, false, d.raise SCC_F_UE_CLEAN s)

/-- A slice-cache line leaves as an SCC victim (Table 10-5), its write carrying domain `dom`, as its data allows (R364), and blocks
of credit no longer needed go back; `keep`: a clean copy stays (SCC_FLUSH). -/
def Dev.sccVictim (d : Dev) (l : SccLine) (keep : Bool) (dom : Nat) : Dev :=
  let s := homeSlice l.tk l.h
  match d.ent? l.tk l.h with
  | none => d.dropScc l.tk l.h
  | some e =>
    let r := d.sccCheck e
    if l.bad ≥ 2 then (if r.2.1 then r.2.2.openInval r.1 else r.2.2.putEnt r.1).copiesEnd
    else
      let d := r.2.2
      let d := if l.dirty then
          (d.tgtWriteAcc l.tk l.h l.data l.poison (d.get DIR_CFG_HOME_TC s) dom l.acc).count .scc s 0x202 else d
      let d := if keep then d.putScc { l with dirty := false, acc := false, bad := 0 } else d.dropScc l.tk l.h
      let d := d.putEnt (if e.ownerScc || e.st = 1 then e.clean keep else { e with sccV := keep })
      if l.dirty && l.p then d.returnBlocks s true else d

/-- Write back slice-cache lines that no transaction holds; `keep`: clean copies stay. -/
def Dev.writeBack (d : Dev) (ls : List SccLine) (keep : Bool) : Dev :=
  ls.foldl (fun d l => if d.lineTaken l.tk l.h then d else match d.scc? l.tk l.h with
    | some x => d.sccVictim x keep devDomain
    | none => d) d

/-- Slice cache s writes back dirty P lines beyond its credit, least recently used first (R374). (DESIGN CHOICE, log entry 57) -/
def Dev.trimSlice (d : Dev) (s : Nat) : Dev :=
  let excess := d.pDirty s - d.get SCC_PERS_CREDIT s
  let ls := (d.sccOf s).filter fun l => l.dirty && l.p && !d.lineTaken l.tk l.h
  if excess = 0 then d else d.writeBack ((ls.mergeSort fun a b => a.last ≤ b.last).take excess) true

/-- The check bits an injected source gives a slice-cache line (R617). (DESIGN CHOICE, log entry 24) -/
def sccBad (src : Nat) : Nat := if src = 0 then 1 else if src = 3 then 3 else 2

/-- Hold a line in the slice cache, where it lies already or in a way taken for it; false when it cannot be held. -/
def Dev.sccHold (d : Dev) (tk h dom : Nat) (p : Bool) (data : Bytes) (poison dirty acc : Bool) : Bool × Dev :=
  let s := homeSlice tk h
  let set_ := sccSet tk h
  let was := (d.scc? tk h).any fun l => l.dirty && l.acc
  let mk_ (w : Nat) : SccLine := { tk := tk, h := h, way := w, data := data, dirty := dirty, poison := poison, domain := dom, p := p,
                                   acc := dirty && (acc || was) }
  let put_ (d : Dev) (w : Nat) : Dev :=
    let (inj, d) := d.injectAt .scc s [0, 1, 2, 3] (some w)
    let x := mk_ w
    d.useScc { x with bad := (inj.map sccBad).getD 0 }
  let room := !dirty || !p || (!d.on SCC_PERS_GATED s && (d.pDirty s < d.get SCC_PERS_CREDIT s ||
    ((d.scc? tk h).map fun l => l.dirty && l.p).getD false))
  if !room then (false, d)
  else match d.scc? tk h with
    | some l => (true, put_ d l.way)
    | none =>
      match d.sccPick s set_ dom with
      | none => (false, d)
      | some (w, none) => (true, put_ d w)
      | some (w, some v) => (true, put_ (d.sccVictim v false dom) w)

/-! ## Results (Table 10-5) -/

/-- A request for a line, to be decided when the present step has ended; the directory way kept for it (R389). -/
abbrev Next := Msg × Option Nat

/-- The base data of a transaction: the owner's dirty data, the slice-cache copy, or the target's. -/
def Dev.baseData (d : Dev) (t : Txn) : Option (Bytes × Bool) :=
  match t.dirty with
  | some x => some (x, t.poison)
  | none => match (if t.noEntry then none else d.scc? t.tk t.h) with
    | some l => some (l.data, l.poison || t.poison)
    | none => t.mem.map fun x => (x.1, x.2 || t.poison)

def Dev.rdAlloc (d : Dev) (s : Nat) : Bool := d.on SCC_CFG_RDALLOC s

/-- Keep a clean copy of data just read or written, while RDALLOC is 1 and a way is free. -/
def Dev.keepClean (d : Dev) (e : DirEnt) (data : Bytes) (poison : Bool) : Bool × Dev :=
  if d.rdAlloc (homeSlice e.tk e.h) then d.sccHold e.tk e.h e.domain e.p data poison false false else (false, d.dropScc e.tk e.h)

/-- The slice cache holds the line dirty with an accepted write that has not committed (R412). -/
def Dev.accLine (d : Dev) (tk h : Nat) : Bool := (d.scc? tk h).any fun l => l.dirty && l.acc

/-- "SCC holds X, else clean" (R369): the dirty line is held, or written to the target and a clean copy kept. -/
def Dev.holdDirty (d : Dev) (e : DirEnt) (policy : Bool) (st tc : Nat) (data : Bytes) (poison acc : Bool) : DirEnt × Dev :=
  let acc := acc || d.accLine e.tk e.h
  let (ok, d) := if policy then d.sccHold e.tk e.h e.domain e.p data poison true acc else (false, d)
  if ok then ({ e with st := st, owner := none, ownerScc := true, sccV := true }, d)
  else
    let d := d.tgtWriteAcc e.tk e.h data poison tc e.domain acc
    let (kept, d) := d.keepClean e data poison
    (e.clean kept, d)

/-- An agent joins the sharers; COARSE is raised when the entry switches to the vector. -/
def Dev.share (d : Dev) (e : DirEnt) (a : Nat) : DirEnt × Dev :=
  let (sw, e) := e.addSharer a
  (e, if sw then d.raise DIR_F_COARSE (homeSlice e.tk e.h) else d)

def Dev.shareOpt (d : Dev) (e : DirEnt) (a : Option Nat) : DirEnt × Dev :=
  match a with | some x => d.share e x | none => (e, d)

/-- The slice-cache copy is dropped, if there is one. -/
def Dev.dropCopy (d : Dev) (e : DirEnt) : DirEnt × Dev := ({ e with sccV := false, ownerScc := false }, d.dropScc e.tk e.h)

/-- Entry granted to the requester alone: M for a CXL.cache requester when dirty, else E with the line written (R370). -/
def Dev.grantOwn (d : Dev) (e : DirEnt) (m : Msg) (dirty : Bool) (data : Bytes) (poison : Bool) : DirEnt × Nat × Dev :=
  let toM := dirty && d2hOp m.body.op
  let d := if dirty && !toM then d.tgtWriteAcc e.tk e.h data poison m.tc e.domain (d.accLine e.tk e.h) else d
  let (e, d) := d.dropCopy e
  let st := if toM then 3 else 2
  ({ e.noSharers with owner := m.agentId, st := st }, st, d)

/-- Whether a write of this message leaves no byte of the old line. -/
def Msg.wholeLine (m : Msg) : Bool := !atomOp m.body.op && m.body.be % 2 ^ 64 = fullBe

/-- The answer of a read. -/
def Dev.readReply (d : Dev) (t : Txn) (data : Bytes) (poison : Bool) (st : Nat) : Dev :=
  d.replyTo (homeSlice t.tk t.h) t.m .cplData data (poison || t.timedOut) st

/-- The entry after a read that leaves no owner: the slice cache takes target data where read allocation is on. -/
def Dev.cleanAfter (d : Dev) (t : Txn) (e : DirEnt) (data : Bytes) (poison : Bool) : DirEnt × Dev :=
  if t.timedOut then (e.clean false, d)
  else if t.dirty.isNone && t.mem.isSome && d.rdAlloc (homeSlice t.tk t.h) then
    let r := d.keepClean e data poison
    (e.clean r.1, r.2)
  else (e.clean e.sccV, d)

/-- Data written to the target by a transaction that takes the line from its owner or the slice cache. -/
def Dev.giveBack (d : Dev) (t : Txn) (e : DirEnt) (sccOwn : Bool) (data : Bytes) (poison : Bool) : Dev :=
  if (t.dirty.isSome || sccOwn) && !t.timedOut then d.tgtWriteAcc e.tk e.h data poison t.m.tc e.domain (d.accLine e.tk e.h) else d

/-- The slice-cache copy is clean now. -/
def Dev.sccClear (d : Dev) (e : DirEnt) : Dev :=
  match d.scc? e.tk e.h with | some l => d.putScc { l with dirty := false, acc := false } | none => d

/-- RD_S that took dirty data from the owner: the owner stays, or the slice cache or the target takes it; the old owner takes its
pointer before the requester (the example of Table 10-6). -/
def Dev.resRdSOwned (d : Dev) (t : Txn) (e : DirEnt) (was : Option Nat) (data : Bytes) (poison : Bool) : DirEnt × Dev :=
  let stays := t.st0 = 4 || (was.map d.ownOk).getD false
  if stays then
    let r := d.shareOpt { e with owner := was } t.m.agentId
    ({ r.1 with st := 4 }, r.2.readReply t data poison 1)
  else
    let r := d.shareOpt { e with owner := none } (if t.ownerS then was else none)
    let r := r.2.shareOpt r.1 t.m.agentId
    let r := r.2.holdDirty r.1 true 4 t.m.tc data poison false
    (r.1, r.2.readReply t data poison 1)

def Dev.resRdS (d : Dev) (t : Txn) (e : DirEnt) (sccOwn : Bool) (was : Option Nat) (data : Bytes) (poison : Bool) : DirEnt × Dev :=
  if t.st0 = 0 then
    if d.on DIR_CFG_GRANT_E (homeSlice t.tk t.h) && t.m.agentId.isSome then ({ e with owner := t.m.agentId, st := 2 }, d.readReply t data poison 2)
    else
      let r := d.shareOpt e t.m.agentId
      let r := r.2.cleanAfter t r.1 data poison
      (r.1, r.2.readReply t data poison 1)
  else if sccOwn && !t.timedOut then
    let r := d.shareOpt e t.m.agentId
    ({ r.1 with st := 4 }, r.2.readReply t data poison 1)
  else if t.dirty.isSome && t.owner.isSome then d.resRdSOwned t e was data poison
  else
    let r := d.shareOpt { e with owner := none } (if t.ownerS then was else none)
    let r := r.2.shareOpt r.1 t.m.agentId
    let r := r.2.cleanAfter t r.1 data poison
    (r.1, r.2.readReply t data poison 1)

def Dev.resRdO (d : Dev) (t : Txn) (e : DirEnt) (sccOwn : Bool) (data : Bytes) (poison : Bool) : DirEnt × Dev :=
  let r := d.grantOwn { e with owner := none } t.m ((t.dirty.isSome || sccOwn) && !t.timedOut) data poison
  (r.1, r.2.2.readReply t data poison r.2.1)

def Dev.resOwnNd (d : Dev) (t : Txn) (e : DirEnt) : DirEnt × Dev :=
  let r := d.dropCopy e
  ({ r.1.noSharers with owner := t.m.agentId, st := 3 }, r.2.replyTo (homeSlice t.tk t.h) t.m .cplDone [] t.timedOut 3)

/-- RD_C resolved (Table 10-5). (DEDUCED, log entry 74) -/
def Dev.resRdC (d : Dev) (t : Txn) (e : DirEnt) (data : Bytes) (poison : Bool) : DirEnt × Dev :=
  if t.timedOut then (({ e with owner := none } : DirEnt).clean false, d.readReply t data poison 0)
  else if t.st0 = 1 then
    let r := d.cleanAfter t e data poison
    (r.1, r.2.readReply t data poison 0)
  else (e, d.readReply t data poison 0)

/-- Where the written line goes: the target after a timeout, else the slice cache or the target. -/
def Dev.placeWrite (d : Dev) (t : Txn) (e : DirEnt) (sccOwn : Bool) (line : Bytes) (pois : Bool) : DirEnt × Dev :=
  let e1 := { e.noSharers with owner := none }
  if t.timedOut then (e1.clean false, (d.tgtWriteAcc e.tk e.h line pois t.m.tc e.domain true).dropScc e.tk e.h)
  else if sccOwn && t.st0 = 3 then d.holdDirty e1 true 3 t.m.tc line pois true
  else d.holdDirty e1 (d.on SCC_CFG_WRALLOC (homeSlice t.tk t.h)) 3 t.m.tc line pois true

/-- A write is merged: its place among the merges, by which the answer of a target write tells what it commits (R404). -/
def Dev.mergeTray (d : Dev) (m : Msg) : Dev :=
  let n := d.coh.merges + 1
  ({ d with coh := { d.coh with merges := n } } : Dev).modTray m.tray fun x => { x with merge := n }

/-- Whether the line of the entry is held dirty by the slice cache against its own credit (Table 12-1). -/
def DirEnt.sccHeld (e : DirEnt) : Bool := e.ownerScc && e.p

/-- A write of another device's Tray: its last answer, at once or with its line's commit (Table 12-1). -/
def Dev.endFar (d : Dev) (t : Txn) (e : DirEnt) : Dev :=
  let s := homeSlice t.tk t.h
  if t.m.isP && !e.sccHeld then d.modHome s fun x => { x with far := x.far ++ [(d.coh.merges, t.m)] }
  else d.replyTo s t.m .cplDone [] false 0

/-- The completion of a write or atomic that is not left to the end of the busy time: an atomic's value, a write with no Tray
entry, and one whose line the slice cache holds against its own credit. An atomic whose Tray data is lost completes failed (R411). -/
def Dev.endWrite (d : Dev) (t : Txn) (e : DirEnt) (data : Bytes) (poison : Bool) : Dev :=
  let s := homeSlice t.tk t.h
  let m := t.m
  let ent := d.trayEnt? m.tray
  let value (d : Dev) (m : Msg) : Dev :=
    if (ent.map (·.bad)).getD false then d.replyTo s m .cplFail [] false 0 else d.replyTo s m .cplData data (poison || t.timedOut) 0
  if m.tray ≠ 0 then
    let d := if t.kind = .atom then value d { m with fid := 0 } else d
    if (ent.map (·.row)) = some 1 && e.sccHeld then d.trayCommit m.tray s true else d
  else if t.kind = .atom then value d m
  else if m.cls = 0xD then d.endFar t e
  else d.replyTo s m .cplDone [] false 0

def Dev.resWrite (d : Dev) (t : Txn) (e : DirEnt) (sccOwn : Bool) (data : Bytes) (poison : Bool) : DirEnt × Dev :=
  let r := (d.mergeTray t.m).placeWrite t e sccOwn (writtenLine data t.m.body) (((poison || t.timedOut) && !t.m.wholeLine) || t.m.poison)
  (r.1, r.2.endWrite t r.1 data poison)

def Dev.resBisI (d : Dev) (t : Txn) (e : DirEnt) (sccOwn : Bool) (data : Bytes) (poison : Bool) : DirEnt × Dev :=
  let r := (d.giveBack t e sccOwn data poison).dropCopy e
  ({ r.1.noSharers with owner := none, st := 0 }, r.2)

def Dev.resBisS (d : Dev) (t : Txn) (e : DirEnt) (sccOwn : Bool) (was : Option Nat) (data : Bytes) (poison : Bool) : DirEnt × Dev :=
  let d := d.giveBack t e sccOwn data poison
  let d := if sccOwn && !t.timedOut then d.sccClear e else d
  let r := d.shareOpt { e with owner := none } (if t.ownerS && t.owner.isSome then was else none)
  (r.1.clean r.1.sccV, r.2)

def Dev.resBisC (d : Dev) (t : Txn) (e : DirEnt) (sccOwn : Bool) (data : Bytes) (poison : Bool) : DirEnt × Dev :=
  let d := d.giveBack t e sccOwn data poison
  if sccOwn && !t.timedOut then (e.clean e.sccV, d.sccClear e)
  else if t.timedOut then (({ e with owner := none } : DirEnt).clean false, d)
  else (e, d)

/-- The dirty data of a recall goes to its target, unless it is discarded (R328, R333) or a copy timed out, which has written it
with poison (R392). -/
def Dev.resRecall (d : Dev) (t : Txn) (e : DirEnt) : DirEnt × Dev :=
  let d := match t.dirty with
    | some x => if t.discard || t.timedOut then d else d.tgtWrite e.tk e.h x t.poison t.m.tc e.domain
    | none => d
  let e := if t.owner.isSome then { e with owner := none } else e
  (if e.ownerScc || e.owner.isSome then e else e.clean e.sccV, d)

/-- A conservative invalidation ends in I (R401); UE is raised for the entry that called for it, not for one a suspect set called
for (R402, R619). -/
def Dev.resConserv (d : Dev) (t : Txn) (e : DirEnt) : DirEnt × Dev :=
  let s := homeSlice t.tk t.h
  let d := if t.timedOut then d else match t.dirty with
    | some x => d.tgtWrite e.tk e.h x t.poison t.m.tc e.domain
    | none => match d.scc? e.tk e.h with
      | some l => if l.dirty then d.tgtWriteAcc e.tk e.h l.data l.poison t.m.tc e.domain l.acc else d
      | none => d
  let r := d.dropCopy e
  ({ r.1.noSharers with owner := none, st := 0 }, if t.m.swept then r.2 else r.2.raise DIR_F_UE s)

/-- After a snoop that timed out the line is written to the target with poison, unless the target is lost, and the slice-cache copy
dropped (R392). -/
def Dev.lateLine (d : Dev) (t : Txn) (e : DirEnt) (data : Bytes) : Dev :=
  if t.timedOut && !(t.kind = .wr || t.kind = .atom) then
    (if t.discard then d else d.tgtWriteAcc e.tk e.h data true t.m.tc e.domain (d.accLine e.tk e.h)).dropScc e.tk e.h
  else d

/-- The entry without agents that timed out was already trimmed; this is the state and the answer of a transaction whose
answers and data are in (Table 10-5, R392). `data` is meaningless where the kind needs none. -/
def Dev.result (d : Dev) (t : Txn) (e : DirEnt) (data : Bytes) (poison : Bool) : DirEnt × Dev :=
  let was := e.owner
  let own := e.ownerScc
  let d := d.lateLine t e data
  let e := if t.timedOut then { e with sccV := false, ownerScc := false } else e
  match t.kind with
  | .rdS => d.resRdS t e own was data poison
  | .rdO => d.resRdO t e own data poison
  | .ownNd => d.resOwnNd t e
  | .rdC => d.resRdC t e data poison
  | .wr | .atom => d.resWrite t e own data poison
  | .bisI | .dirVictim => d.resBisI t e own data poison
  | .bisS => d.resBisS t e own was data poison
  | .bisC => d.resBisC t e own data poison
  | .recall => d.resRecall t e
  | .conserv => d.resConserv t e
  | .wbI | .wbS | .cln | .sccVictim => (e, d)

/-! ## Writebacks and clean evictions (R366, R383, R384) -/

/-- A stale writeback or eviction (Table 10-5). -/
def Dev.staleWb (d : Dev) (s : Nat) (m : Msg) : Dev :=
  ((d.inc DIR_STAT_STALE_WB s).raise DIR_F_STALE_WB s).replyTo s m .cplDone [] false 0

/-- An agent that owned a line dirty has lost it: poison to the target, line to I, PROTO (R366). -/
def Dev.lostDirty (d : Dev) (e : DirEnt) (a tc : Nat) : Dev :=
  let s := homeSlice e.tk e.h
  let (b, d) := d.freshBytes 64
  let d := ((d.tgtWrite e.tk e.h b true tc e.domain).dropScc e.tk e.h).freeEnt e.tk e.h
  d.raise DIR_F_PROTO s { dom := some (d.agentDomain a e.domain), req := (d.agentPort a).map Req.port }

/-- Write an entry whose decision has ended, with the check bits an armed injection gives it (R617); whether an uncorrectable one
lies in the holder array or in both copies of the tag-array word is a free value (R401, R402). (DESIGN CHOICE, log entry 126) -/
def Dev.writeEnt (d : Dev) (e : DirEnt) : Dev :=
  let s := homeSlice e.tk e.h
  let (inj, d) := d.injectAt .dir s [0, 1] (some e.way)
  match inj with
  | some 0 => d.putEnt { e with busy := false, bad := 1 }
  | some 1 => let r := d.fresh; r.2.putEnt { e with busy := false, bad := 2 + r.1 % 2 }
  | _ => d.putEnt { e with busy := false }

/-- A writeback or eviction ends: the entry is written and the sender answered. -/
def Dev.wbDone (d : Dev) (s : Nat) (m : Msg) (e : DirEnt) : Dev := (d.writeEnt e).replyTo s m .cplDone [] false 0

/-- A clean eviction meets its entry. -/
def Dev.wbClean (d : Dev) (s : Nat) (m : Msg) (e : DirEnt) : Dev :=
  let isOw := e.owner.isSome && e.owner = m.agentId
  if isOw && (e.st = 3 || e.st = 4) then (d.lostDirty e (m.agentId.getD 0) m.tc).staleWb s m
  else if isOw then d.wbDone s m (({ e with owner := none } : DirEnt).clean e.sccV)
  else if e.st = 1 || (e.st = 4 && m.agentId.any (d.sharers e).contains) then
    let e := match m.agentId with | some a => e.dropSharer a | none => e
    d.wbDone s m (if e.st = 1 then e.clean e.sccV else e)
  else d.staleWb s m

/-- A writeback meets its entry; `keep`: the sender keeps a shared copy. -/
def Dev.wbDirty (d : Dev) (s : Nat) (m : Msg) (e : DirEnt) (keep : Bool) : Dev :=
  if !(e.owner.isSome && e.owner = m.agentId) then d.staleWb s m
  else
    let r := if keep then d.shareOpt { e with owner := none } m.agentId else ({ e with owner := none }, d)
    let st := if r.1.st = 4 || keep then 4 else 3
    let r := r.2.holdDirty r.1 (r.2.on SCC_CFG_WBALLOC s) st m.tc m.body.data m.poison false
    r.2.wbDone s m r.1

def Dev.touchDir (d : Dev) (s set_ way : Nat) : Dev :=
  let k := s * 16384 + set_
  { d with coh := { d.coh with dirLru := SMap.set 0 d.coh.dirLru k (plruTouch (SMap.get 0 d.coh.dirLru k) way) } }

/-- A WB or CLN decided on a line that is not busy (Table 10-5, R384). -/
def Dev.decideWb (d : Dev) (m : Msg) (k : Kind) : Dev :=
  let tk := m.body.tk
  let h := m.hline
  let s := homeSlice tk h
  match d.ent? tk h with
  | none =>
    if (k = .wbI || k = .wbS) && (d.home s).suspectSets.contains (dirSet tk h) then
      (d.tgtWrite tk h m.body.data m.poison m.tc m.domain).replyTo s m .cplDone [] false 0
    else d.staleWb s m
  | some e =>
    let d := d.touchDir s (dirSet tk h) e.way
    if k = .cln then d.wbClean s m e else d.wbDirty s m e (k = .wbS)

/-! ## Transactions (R357, R361, R372, R386) -/

/-- The agent owner a transaction leaves (R383). -/
def Dev.ownerAfter (d : Dev) (t : Txn) : Option Nat :=
  let now := (d.ent? t.tk t.h).bind (·.owner)
  match t.fin with
  | some f => f.owner
  | none => match t.kind with
    | .rdO | .ownNd => t.m.agentId
    | .rdC | .bisC => now
    | .recall => if t.owner.isSome then none else now
    | .rdS => if t.st0 = 0 then t.m.agentId
      else match now with
        | some a => if t.st0 = 4 || d.ownOk a then some a else none
        | none => none
    | _ => none

/-- Writebacks held for a line are to be decided, in order of taking (R381). -/
def Dev.takeHeld (d : Dev) (tk h : Nat) : List Next × Dev := ((d.heldWb tk h).map fun x => (x.2, none), d.freeHeld tk h)

/-- A message that only names a line: the line is evicted. -/
def DirEnt.evictNext (e : DirEnt) : Next := ({ body := { op := .ioMsg, agent := 512, tk := e.tk, addr := e.h * 64 } }, some e.way)

/-- A sealed slice's line that lies outside its domain's ways leaves as it ceases to be busy (R378): its entry, or its slice-cache
copy. -/
def Dev.resealLine (d : Dev) (t : Txn) (e : DirEnt) : List Next × Dev :=
  let s := homeSlice t.tk t.h
  if !(d.home s).reseal || t.kind = .dirVictim || e.st = 0 then ([], d)
  else if !d.dirWayOk s e.domain e.way then ([e.evictNext], d)
  else match d.scc? t.tk t.h with
    | some l => ([], if d.sccWayOk s l.domain l.way then d else d.sccVictim l false devDomain)
    | none => ([], d)

/-- The line leaves busy (R357): the entry takes its final state, a target's snoop is answered (R371), and what the home handles next is
returned: writebacks held for the line, and the request its way was wanted for (R381, R389). Credit lowered meanwhile is honoured
(R374). (DEDUCED, log entry 74) -/
def Dev.closeTxn (d : Dev) (t : Txn) (e : DirEnt) : List Next × Dev :=
  let s := homeSlice t.tk t.h
  let d := if t.kind = .recall || t.kind = .dirVictim || t.kind = .conserv then d.endAccess t.m else d
  let d := (((d.biEnd s t.m).writeEnt e).trayLeave t).trimSlice s
  let r := d.takeHeld t.tk t.h
  let q := r.2.resealLine t e
  (r.1 ++ (match t.next with | some m => [(m, some e.way)] | none => []) ++ q.1, q.2)

/-- A transaction ends (R357, R386): it stays busy while its target write waits to be presented. (DEDUCED, log entry 74) -/
def Dev.finishTxn (d : Dev) (t : Txn) (data : Bytes) (poison : Bool) : List Next × Dev :=
  let s := homeSlice t.tk t.h
  let d := d.delTxn t
  if t.noEntry then ([], d.replyTo s t.m .cplData data (poison || t.poison) 0)
  else
    match d.ent? t.tk t.h with
    | none =>
      let r := (d.failReq s t.m).takeHeld t.tk t.h
      (r.1 ++ (t.next.map fun m => (m, none)).toList, r.2)
    | some e =>
      let (e2, d) := d.result t e data poison
      if d.parked t.tk t.h then
        ([], (d.putEnt { e2 with st := if e2.st = 0 then e.st else e2.st, busy := true }).addTxn { t with fin := some e2, await := [] })
      else d.closeTxn t e2

/-- A target read of the line, for a transaction. -/
def Dev.askMem (d : Dev) (t : Txn) : Dev :=
  let s := homeSlice t.tk t.h
  let d := d.setTxn t { t with askedMem := true }
  d.tgtReach s t.tk (t.h * 64) false { tc := t.m.tc, domain := t.m.domain, home := some s,
                                       body := { op := .memRdNoOp, addr := t.h * 64, tk := t.tk } }

/-- STATE of the answer that carries a home's ordered signal to the Tray of another device (R372). (DESIGN CHOICE, log entry 72) -/
def stOrdered : Nat := 7

/-- A transaction goes as far as it can: ordered once its answers are in, its data asked for, then its end. -/
def Dev.advance (d : Dev) (t : Txn) : List Next × Dev :=
  let s := homeSlice t.tk t.h
  if !t.await.isEmpty then ([], d)
  else
    let ord := (t.kind = .wr || t.kind = .atom) && !t.ordered
    let t2 := if ord then { t with ordered := true } else t
    let d := if ord then (d.setTxn t t2) else d
    let d := if ord && t.m.tray ≠ 0 then d.trayOrder t.m.tray s
      else if ord && t.m.cls = 0xD then d.replyTo s { t.m with fid := 0 } .cplDone [] false stOrdered else d
    let base := d.baseData t2
    match base with
    | some (x, p) => d.finishTxn t2 x p
    | none =>
      if t2.kind.needsData then (if t2.askedMem || d.wrBusy t2.tk t2.h then ([], d) else ([], d.askMem t2))
      else if t2.timedOut then
        let (b, d) := d.freshBytes 64
        d.finishTxn t2 b true
      else d.finishTxn t2 [] t2.poison

/-- Open a transaction on an entry: snoop copies to the owner and sharers in ascending agent ID; a snoop that is not sent
times out at its presentation (R391). (DEDUCED, log entry 74) -/
def Dev.openTxn (d : Dev) (e : DirEnt) (k : Kind) (m : Msg) (st0 : Nat) (next : Option Msg) : List Next × Dev :=
  let s := homeSlice e.tk e.h
  let others (l : List Nat) : List Nat := l.filter fun a => m.agentId ≠ some a
  let inv := if k = .conserv then d.allAgents else if k.invs then others (d.sharers e) else []
  let own := if k = .conserv then none else e.owner
  let snp := own.bind fun a => k.ownerSnoop st0 (d.ownOk a)
  let targets := ((inv ++ (if snp.isSome then own.toList else [])).dedup).mergeSort
  let kind (a : Nat) : MOp := if own = some a then snp.getD .snpInv else .snpInv
  let r := targets.foldl (Dev.snoopStep e.tk e.h m.tc e.domain (if m.fid = 0 then d.epoch else m.epoch) kind)
    (([], []), d.putEnt { e with busy := true })
  let t : Txn := { tk := e.tk, h := e.h, kind := k, m := m, await := r.1.1, owner := if snp.isSome then own.filter r.1.1.contains else none,
                   st0 := st0, next := next, timedOut := !r.1.2.isEmpty, poison := false }
  let d := ((r.2.addTxn t).loseCopies e r.1.2).copiesEnd
  if (d.home s).txns.contains t then d.advance t else ([], d)

/-- Open the invalidation that a lost holder array calls for (R401); `next` is decided after it. -/
def Dev.openConserv (d : Dev) (e : DirEnt) (m : Msg) (next : Option Msg) : List Next × Dev :=
  let s := homeSlice e.tk e.h
  (d.logUeEntry s (dirSet e.tk e.h) e.way 1).openTxn { e with bad := 0 } .conserv m e.st next

/-- Evict an entry, by a directory victim's transaction; its code and its slice-cache copy are read first (R364, R389, R400, R401). -/
def Dev.evict (d : Dev) (e : DirEnt) (m : Msg) (next : Option Msg) : List Next × Dev :=
  if e.bad = 2 then d.openConserv e m next
  else
    let r := d.entFix e
    let c := r.2.raiseDue.sccCheck r.1
    if c.1.st = 0 then
      ((match next with | some x => [(x, some e.way)] | none => []), (c.2.2.freeEnt e.tk e.h).endAccess m)
    else (c.2.2.putEnt c.1).openTxn c.1 .dirVictim m c.1.st next

/-- Invalidate a line's copies at agents `hs` for a scan; `fid` is the ledger number that a recall holds (R325, R400, R401). -/
def Dev.startRecall (d : Dev) (e : DirEnt) (hs : List Nat) (discard poison : Bool) (fid : Nat) : List Next × Dev :=
  if e.bad = 2 then d.openConserv e { d.homeMsg (homeSlice e.tk e.h) e.domain with fid := fid } none
  else
    let r := d.entFix e
    let d := r.2.openRecall r.1 hs discard poison
    match d.txn? e.tk e.h with
    | some t =>
      let t2 := { t with m := { t.m with fid := fid } }
      (d.setTxn t t2).advance t2
    | none => ([], d)

/-- An agent lies in VCS u. -/
def Dev.agentVcs (d : Dev) (u a : Nat) : Bool :=
  match d.agentPort a with
  | some p => d.vcsFor p 0 = some u
  | none => false

/-- The target of a line is lost to VCS u: its agents' copies are invalidated and their dirty data discarded (R333). -/
def Dev.removeFrom (d : Dev) (e : DirEnt) (u : Nat) : List Next × Dev :=
  let hs := (d.mayHold e).filter (d.agentVcs u)
  if hs.isEmpty then ([], d) else d.startRecall e hs true false 0

/-! ## Allocation (R388 to R390) -/

/-- The way an allocation takes: lowest invalid, else the tree's choice of a non-busy one. -/
def Dev.dirPick (d : Dev) (s set_ dom : Nat) : Option (Nat × Option DirEnt) :=
  let l := d.dirAt s set_
  match (List.range 16).find? fun w => d.dirWayOk s dom w && !l.any (·.way = w) with
  | some w => some (w, none)
  | none =>
    (plruVictim (SMap.get 0 d.coh.dirLru (s * 16384 + set_)) fun w =>
      d.dirWayOk s dom w && l.any fun e => e.way = w && !e.busy && !d.lineBusy e.tk e.h).map fun w => (w, l.find? (·.way = w))

/-- A request waits: in its line's queue, or for a way of its set (R381, R390). (DESIGN CHOICE, log entry 68) -/
def Dev.enqueue (d : Dev) (m : Msg) (retry : Bool) : Dev :=
  (if retry then d.count .dir (homeSlice m.body.tk m.hline) 0x203 else d).modHome (homeSlice m.body.tk m.hline) fun x =>
    { x with waits := x.waits ++ [{ tk := m.body.tk, h := m.hline, m := m, retry := retry }] }

/-- The message's line lies in a suspect set (R402). -/
def Dev.suspect (d : Dev) (m : Msg) : Bool := (d.home (homeSlice m.body.tk m.hline)).suspectSets.contains (dirSet m.body.tk m.hline)

/-- Start a request's transaction on an entry allocated for it in way `w`. -/
def Dev.allocIn (d : Dev) (m : Msg) (k : Kind) (w : Nat) : List Next × Dev :=
  let tk := m.body.tk
  let h := m.hline
  let s := homeSlice tk h
  let e : DirEnt := { tk := tk, h := h, way := w, st := 1, busy := true, domain := m.domain, p := m.isP }
  let d := (d.touchDir s (dirSet tk h) w).putEnt e
  if d.suspect m && !m.swept then
    d.openTxn e .conserv { d.homeMsg s m.domain with swept := true } 1 (some { m with swept := true })
  else d.openTxn e k m 0 none

/-- The way kept for a request may hold its line: it is free, and one of its domain's (R376). -/
def Dev.wayFor (d : Dev) (m : Msg) (w : Nat) : Bool :=
  let s := homeSlice m.body.tk m.hline
  d.dirWayOk s m.domain w && !(d.dirAt s (dirSet m.body.tk m.hline)).any (·.way = w)

/-- Allocate for a request on a line in I: a free way, a victim, or the retry queue. -/
def Dev.allocate (d : Dev) (m : Msg) (k : Kind) : List Next × Dev :=
  let s := homeSlice m.body.tk m.hline
  let set_ := dirSet m.body.tk m.hline
  let queued := (d.home s).waits.any fun w => w.retry && dirSet w.tk w.h = set_
  match (if queued then none else d.dirPick s set_ m.domain) with
  | none => ([], (d.enqueue m true).raise DIR_F_RETRY_WAIT s)
  | some (w, none) => d.allocIn m k w
  | some (_, some v) => d.evict v (d.homeMsg s v.domain) (some m)

/-! ## Decisions (R366, R368, R381) -/

/-- A slice-cache copy is used (R363). -/
def Dev.touchScc (d : Dev) (tk h : Nat) : Dev := match d.scc? tk h with | none => d | some l => d.useScc l

/-- Decide one request whose line is free (R366, R388, Table 10-5). `way`: the directory way kept for it. (DESIGN CHOICE, log entry 68) -/
def Dev.decideReq (d : Dev) (m : Msg) (k0 : Kind) (way : Option Nat) : List Next × Dev :=
  let tk := m.body.tk
  let h := m.hline
  let s := homeSlice tk h
  let noAg := (k0 = .rdS || k0 = .rdO || k0 = .ownNd) && m.agentId.isNone
  let d := if noAg then d.raise DIR_F_NO_AGENT s { dom := some m.domain, req := m.req } else d
  let k := if noAg then .rdC else k0
  let onI (d : Dev) : List Next × Dev :=
    if d.suspect m && !m.swept then
      match way with
      | some w => if d.wayFor m w then d.allocIn m k w else d.allocate m k
      | none => d.allocate m k
    else match k with
    | .rdC =>
      let t : Txn := { tk := tk, h := h, kind := .rdC, m := m, noEntry := true }
      (d.modHome s fun x => { x with txns := x.txns ++ [t] }).advance t
    | .bisI | .bisS | .bisC => ([], d.biAnswer s m (if k = .bisS then .biRspS else .biRspI))
    | .wbI | .wbS | .cln => ([], d.decideWb m k)
    | _ => match way with
      | some w => if d.wayFor m w then d.allocIn m k w else d.allocate m k
      | none => d.allocate m k
  match d.ent? tk h with
  | none => onI d
  | some e =>
    let d := d.touchDir s (dirSet tk h) e.way
    if k = .wbI || k = .wbS || k = .cln then ([], d.decideWb m k)
    else
      let (e, lost, d) := d.sccCheck e
      let d := d.touchScc tk h
      if e.st = 0 then
        onI (d.freeEnt tk h)
      else if lost then ((d.putEnt e).openTxn e .dirVictim (d.homeMsg s e.domain) e.st (some m))
      else if d.home s |>.txns.any (fun t => (t.tk, t.h) = (tk, h) && !t.noEntry) then ([], d)
      else
        -- R366: a request from a recorded holder shows that it no longer holds the line
        match m.agentId with
        | none => d.openTxn e k m e.st none
        | some a =>
          if e.owner = some a then
            if e.st = 3 || e.st = 4 then onI (d.lostDirty e a m.tc)
            else onI (d.freeEnt tk h)
          else
            let e2 := e.dropSharer a
            let e2 := if e2.st = 1 then e2.clean e2.sccV else e2
            if e2.st = 0 then onI (d.freeEnt tk h) else d.openTxn e2 k m e2.st none

/-- A writeback takes its source's hold entry (R383). -/
def Dev.holdWb (d : Dev) (src : Nat) (m : Msg) : Dev :=
  d.modHome (homeSlice m.body.tk m.hline) fun x => { x with wbHold := SMap.set none x.wbHold src (some m) }

/-- A writeback's data is the dirty data of the answer its sender still owes; a second one's is poisoned (R383, R401). -/
def Dev.wbAnswer (d : Dev) (t : Txn) (m : Msg) : Dev :=
  let s := homeSlice t.tk t.h
  let twice := t.kind = .conserv && t.dirty.isSome
  let d := if twice then d.raise DIR_F_PROTO s { dom := some m.domain, req := m.req } else d
  (d.setTxn t { t with dirty := some m.body.data, poison := t.poison || twice || m.poison }).replyTo s m .cplDone [] false 0

/-- A writeback for a busy line (R383): its open transaction awaits the sender, or the sender is owner after it, or it is stale. -/
def Dev.wbBusy (d : Dev) (src : Nat) (m : Msg) : List Next × Dev :=
  let tk := m.body.tk
  let h := m.hline
  let s := homeSlice tk h
  match d.txn? tk h with
  | none =>
    ([], if m.agentId.isSome && (d.ent? tk h).bind (·.owner) = m.agentId then d.holdWb src m else d.staleWb s m)
  | some t =>
    if (t.kind = .conserv || (t.owner.isSome && t.owner = m.agentId)) && t.await.contains (m.agentId.getD 512) then ([], d.wbAnswer t m)
    else if m.agentId.isNone || d.ownerAfter t ≠ m.agentId then ([], d.staleWb s m)
    else ([], d.holdWb src m)

/-- A writeback meets an entry whose holder array is lost: it counts as its sender's answer to the conservative invalidation (R401). -/
def Dev.wbConserv (d : Dev) (e : DirEnt) (m : Msg) : List Next × Dev :=
  let s := homeSlice e.tk e.h
  let r := d.openConserv e (d.homeMsg s e.domain) none
  let q := r.2.wbBusy m.src m
  if r.2.lineTaken e.tk e.h then (r.1 ++ q.1, q.2) else (r.1, r.2.staleWb s m)

/-- A decision is counted, with what the directory and, for a request, the slice cache find (Table 20-5). -/
def Dev.countDecision (d : Dev) (tk h : Nat) (req : Bool) : Dev :=
  let s := homeSlice tk h
  let d := d.count .dir s 0x200
  let d := if (d.ent? tk h).isSome then d.count .dir s 0x201 else d
  if req then d.count .scc s (if (d.scc? tk h).isSome then 0x200 else 0x201) else d

/-- The entry a decision reads, its code checked (R400, R402): a lost one is dropped, a bad word with a good copy is rewritten. -/
def Dev.readSet (d : Dev) (tk h : Nat) : Dev :=
  let d := d.dropLost (homeSlice tk h) (dirSet tk h)
  (match d.ent? tk h with
  | some e => (d.entFix e).2
  | none => d).raiseDue

/-- A line found free is decided upon: message of kind `k`; an entry whose holder array is lost is invalidated first (R401). -/
def Dev.decideFree (d : Dev) (m : Msg) (k : Kind) (way : Option Nat) : List Next × Dev :=
  let tk := m.body.tk
  let h := m.hline
  let wb := k = .wbI || k = .wbS
  let d := d.countDecision tk h !wb
  match d.ent? tk h with
  | some e =>
    if e.bad = 2 then (if wb then d.wbConserv e m else d.openConserv e (d.homeMsg (homeSlice tk h) e.domain) (some m))
    else if wb then ([], d.decideWb m k) else d.decideReq m k way
  | none => if wb && !(d.suspect m && !m.swept) then ([], d.decideWb m k) else d.decideReq m k way

/-- Decide, or queue, one message of the home; a message that only names a line evicts it (R378), or, naming a VCS, removes it there (R333). -/
def Dev.decideOne (d : Dev) (x : Next) : List Next × Dev :=
  let m := x.1
  let tk := m.body.tk
  let h := m.hline
  let d := d.readSet tk h
  match kindOf m.body.op with
  | none =>
    if d.lineTaken tk h then ([], if m.fid = 0 then d else d.enqueue m false)
    else match d.ent? tk h with
      | some e => if m.body.agent < 512 then d.removeFrom e m.body.agent
        else d.evict e { d.homeMsg (homeSlice tk h) e.domain with fid := m.fid, epoch := m.epoch } none
      | none => ([], d.endAccess m)
  | some k =>
    if d.lineTaken tk h then (if k = .wbI || k = .wbS then d.wbBusy m.src m else ([], d.enqueue m false))
    else d.decideFree m k x.2

/-- Decide messages and what their ends bring, in order. (DESIGN CHOICE, log entry 46) -/
def Dev.decideAll : Nat → List Next → Dev → Dev
  | 0, _, d => d
  | _, [], d => d
  | n + 1, x :: xs, d =>
    let (nx, d) := d.decideOne x
    d.decideAll n (nx ++ xs)

def Dev.runHome (r : List Next × Dev) : Dev := (r.2.decideAll 400 r.1).copiesEnd.removalsEnd

/-! ## Answers -/

/-- An agent's answer is consumed by the transaction that awaits it, or discarded (R382, R393, R401). -/
def Dev.snoopAnswered (d : Dev) (m : Msg) : Dev :=
  let tk := m.body.tk
  let h := m.hline
  let a := m.body.agent
  let d := if d.agentDead a then d else d.setSuspect a 0
  match d.txn? tk h with
  | none => d
  | some t =>
    if !t.await.contains a || d.agentDead a then d
    else
      let hasD := !m.body.data.isEmpty
      let isOw := t.owner = some a || t.kind = .conserv
      let twice := t.kind = .conserv && hasD && t.dirty.isSome
      let d := if twice then d.raise DIR_F_PROTO (homeSlice tk h) { dom := some (d.agentDomain a m.domain), req := (d.agentPort a).map Req.port } else d
      let t2 := { t with await := t.await.filter (· ≠ a), dirty := if hasD && isOw then some m.body.data else t.dirty,
                         ownerS := t.ownerS || (isOw && m.body.op ≠ .ansI), poison := t.poison || twice || (hasD && m.poison) }
      let keep := t.owner = some a
      let d := (d.setTxn t t2).modEnt tk h fun e => if keep || t.kind = .conserv then e else e.dropSharer a
      Dev.runHome (d.advance t2)

/-- A snoop copy has timed out (R392). -/
def Dev.snoopExpire (d : Dev) (tk h a : Nat) : Dev :=
  let s := homeSlice tk h
  match d.txn? tk h with
  | none => d
  | some t =>
    if !t.await.contains a then d
    else
      let dom := ((d.ent? tk h).map (·.domain)).getD t.m.domain
      let t2 := { t with await := t.await.filter (· ≠ a), timedOut := true, owner := if t.owner = some a then none else t.owner }
      let d := (d.setTxn t t2).modEnt tk h fun e => e.lose a
      let d := d.snoopTimedOut s a dom
      if (d.home s).txns.contains t2 then Dev.runHome (d.advance t2) else d

/-- Transactions of a line whose reads waited for its target write go on (R386). -/
def Dev.wakeReads (d : Dev) (tk h : Nat) : Dev :=
  let s := homeSlice tk h
  ((d.home s).txns.filter fun t => t.tk = tk && t.h = h && t.kind.needsData && !t.askedMem && t.fin.isNone && t.await.isEmpty).foldl (fun d t =>
    if (d.home s).txns.contains t then Dev.runHome (d.advance t) else d) d

/-- The last write of a line that waited is presented: a transaction that waited only for it leaves busy, and a line no transaction
held is free (R357, R386). -/
def Dev.lineFreed (d : Dev) (tk h : Nat) : List Next × Dev :=
  match d.txn? tk h with
  | some t => match t.fin with
    | some f => (d.delTxn t).closeTxn t f
    | none => ([], d)
  | none => d.takeHeld tk h

/-- An entry of the write-pending list frees: a held write is presented (R386). -/
def Dev.wrRelease (d : Dev) (s : Nat) : Dev :=
  let hm := d.home s
  match hm.wrHold with
  | x :: r =>
    if hm.wrPend.length < 512 then
      let tk := x.key / 2 ^ 46
      let h := x.key % 2 ^ 46
      let d := (d.setHome s { hm with wrHold := r }).tgtPut tk h x.data x.poison x.tc x.dom x.tag
      if d.parked tk h then d else Dev.runHome (d.lineFreed tk h)
    else d
  | [] => d

/-- A clean slice-cache copy is dropped: later reads return what the target holds (R412). -/
def Dev.dropClean (d : Dev) (tk h : Nat) : Dev :=
  match d.scc? tk h with
  | some l =>
    if l.dirty then d
    else (d.dropScc tk h).modEnt tk h fun e => if e.st = 1 && !e.busy then e.clean false else { e with sccV := false }
  | none => d

/-- Lines whose target write failed are written with poison when their target answers again (R412). -/
def Dev.rewriteFailed (d : Dev) (s tk : Nat) : Dev :=
  let xs := (d.home s).failedWr.filter fun x => x.1 / 2 ^ 46 = tk
  let d := d.modHome s fun x => { x with failedWr := x.failedWr.filter fun y => y.1 / 2 ^ 46 ≠ tk }
  xs.foldl (fun d x =>
    let (b, d) := (d.dropClean tk (x.1 % 2 ^ 46)).freshBytes 64
    d.tgtWrite tk (x.1 % 2 ^ 46) b true (d.get DIR_CFG_HOME_TC s) x.2) d

/-- A target write of the line has been answered: Tray entries of persistent rows merged before it commit, and writes of other
devices that wait for it are answered (Table 12-1). -/
def Dev.commitLine (d : Dev) (s tk h : Nat) (ok : Bool) (n : Nat) : Dev :=
  let es := d.coh.tray.filter fun e => e.m.homed && e.m.mir = 0 && (e.row = 1 || e.row = 2) && e.ordered && e.merge ≠ 0 && e.merge ≤ n &&
    e.tk = tk && e.line = h
  let d := es.foldl (fun d e => d.trayCommit e.id s ok) d
  let fs := (d.home s).far.filter fun x => x.1 ≤ n && x.2.body.tk = tk && x.2.hline = h
  let d := d.modHome s fun x => { x with far := x.far.filter fun y => !fs.contains y }
  fs.foldl (fun d x => d.replyTo s x.2 (if ok then .cplDone else .cplFail) [] false 0) d

/-- A target write that the home of slice `s` presented has been answered, or has failed (R386, R404, R412). -/
def Dev.homeWritten (d : Dev) (s : Nat) (m : Msg) (ok : Bool) : Dev :=
  let tk := m.body.tk
  let h := m.hline
  let key := lineKey tk h
  let d := d.modHome s fun x => { x with wrPend := x.wrPend.erase key }
  let d := if !ok && d.prf.phase = 1 && d.prf.flushWr.contains key then d.inc PRF_LOG_WR_FAIL else d
  let d := if ok then d else
    let d := (d.modHome s fun x => { x with failedWr := x.failedWr ++ [(key, m.domain)] }).dropClean tk h
    if m.body.arg % 2 = 1 then d.lostWrite s tk h else d
  ((d.commitLine s tk h ok (m.body.arg / 2)).wrRelease s).wakeReads tk h

/-- A target's answer to an access the home of slice `s` made (R386, R412). -/
def Dev.homeTarget (d : Dev) (s : Nat) (m : Msg) : Dev :=
  let tk := m.body.tk
  let h := m.hline
  let fail := m.body.op = .tgtFail
  let d := if fail then d else d.rewriteFailed s tk
  if m.body.op = .tgtDone || (fail && m.cls = 0x4) then d.homeWritten s m (!fail)
  else match (d.home s).txns.find? fun t => t.tk = tk && t.h = h && t.askedMem && t.mem.isNone with
    | none => d
    | some t =>
      let (b, p, d) := if m.body.op = .tgtData then (m.body.data, m.poison, d) else
        let (b, d) := d.freshBytes 64
        (b, true, d)
      let t2 := { t with mem := some (b, p) }
      let d := d.setTxn t t2
      Dev.runHome (d.advance t2)

/-! ## Taking messages (R215, R383, R385) -/

/-- A source the home takes nothing from on a channel: stalled (R385), or its hold entry is occupied (R383). -/
def Dev.chanBlocked (d : Dev) (s ch src : Nat) : Bool :=
  (ch = 2 && (d.home s).stalled.contains src) || (ch = 1 && (SMap.get none (d.home s).wbHold src).isSome)

/-- A request that the WB channel carries waits with its source's requests; writebacks pass it (R385). -/
def Dev.msgBlocked (d : Dev) (s ch : Nat) (m : Msg) : Bool :=
  d.chanBlocked s ch m.src || (ch = 1 && (d.home s).stalled.contains m.src && kindOf m.body.op ≠ some .wbI && kindOf m.body.op ≠ some .wbS)

/-- The first message of a channel the home may take now, with the rest. (DESIGN CHOICE, log entry 68) -/
def Dev.takeFrom (d : Dev) (s ch : Nat) : Option (Msg × Dev) :=
  let l := d.arrivedAt s ch
  (l.find? fun m => !d.msgBlocked s ch m).map fun m => (m, d.setArrived s ch (l.erase m))

/-- The first request of a line's queue. -/
def Dev.lineFirst (d : Dev) (tk h : Nat) : Option Wait := (d.home (homeSlice tk h)).waits.find? fun w => !w.retry && w.tk = tk && w.h = h

/-- Requests of a free line's queue are decided, in order, until one takes the line: ahead of any message taken for it (R381). -/
def Dev.lineGo (d : Dev) (tk h : Nat) : Nat → Dev
  | 0 => d
  | n + 1 =>
    if d.lineTaken tk h then d
    else match d.lineFirst tk h with
      | some w => Dev.lineGo (Dev.runHome ((d.modHome (homeSlice tk h) fun x => { x with waits := x.waits.erase w }).decideOne (w.m, none))) tk h n
      | none => d

/-- An agent of another device is known by its message: the port it came from, and its domain. (DEDUCED, log entry 76) -/
def Dev.seeAgent (d : Dev) (m : Msg) : Dev :=
  match m.agentId with
  | some a => if m.cls = 0xD then { d with coh := { d.coh with agSeen := SMap.set none d.coh.agSeen a (some (m.srcG, m.domain)) } } else d
  | none => d

/-- A message of kind `k` taken from a channel: a request joins its line's queue behind those that wait there, a writeback comes
after those that may be decided; one that must wait while the wait buffer is full stalls its source there (R381, R385). -/
def Dev.takeMsg (d : Dev) (s : Nat) (k : Kind) (m : Msg) (d2 : Dev) : Dev :=
  if kindOf m.body.op ≠ some k then d
  else
    let d2 := d2.seeAgent m
    let wb := k = .wbI || k = .wbS
    let waits := (d.home s).waits.any fun w => !w.retry && w.tk = m.body.tk && w.h = m.hline
    let r :=
      if waits && !wb then d2.enqueue m false
      else Dev.runHome ((d2.lineGo m.body.tk m.hline ((d.home s).waits.length)).decideOne (m, none))
    if !wb && (d.home s).waits.length ≥ 1024 && (r.home s).waits.length > (d.home s).waits.length then
      d.modHome s fun x => { x with stalled := (x.stalled ++ [m.src]).dedup }
    else r

/-- R367: the home of slice `s` takes its next message (RSP ahead of WB ahead of REQ, R215) when that is a request or
writeback of kind `k`. -/
def Dev.takeKind (d : Dev) (s : Nat) (k : Kind) : Dev :=
  if d.halted || !(d.arrivedAt s 0).isEmpty then d
  else match d.takeFrom s 1 with
    | some (m, d2) => d.takeMsg s k m d2
    | none => match d.takeFrom s 2 with
      | some (m, d2) => d.takeMsg s k m d2
      | none => d

end Sys2Proof.Machine
end

