-- ==== Sys2Proof/Machine/PortOps.lean ====
section
/-! DEFINITION. What ends a port's work: answers for outstanding requests, surprise removal, removal of an agent,
link-down, Port reset, PERST (chapters 4, 9 and 18). -/

namespace Sys2Proof.Machine

/-- Who a fault of a port concerns (Table 15-9). (DESIGN CHOICE, log entry 96) -/
def Dev.portWho (d : Dev) (p : Nat) : Who := { dom := some (d.portDomain p), req := some (.port p) }

/-! ## Outstanding requests (R152, R333) -/

/-- An access that left by port p ends here: its home, or its requester, has the answer. -/
def Dev.endAsk (d : Dev) (p : Nat) (m : Msg) (op : MOp) (data : Bytes) (poison : Bool) (cause : Nat) : Dev :=
  match m.home with
  | some h => d.arriveRsp h { m with poison := poison, body := { m.body with op := op, data := data } }
  | none => d.accessAnswer p m op data poison cause

/-- Outstanding requests of a port that `sel` names complete at once, a read poisoned and a write failed; late answers to
them are discarded. (DESIGN CHOICE, log entry 96) -/
def Dev.failOutst (d : Dev) (p : Nat) (sel : Outst → Bool) (cause : Nat) : Dev :=
  let os := (d.port p).outst.filter sel
  let d := d.modPort p fun x => { x with outst := x.outst.filter (fun o => !sel o), lateTags := x.lateTags ++ os.map (·.tag) }
  os.foldl (fun d o => d.endAsk p o.m .tgtFail [] false cause) d

/-- Flush what `sel` names of a port's queue; requests flushed end failed. The number flushed. -/
def Dev.flushSome (d : Dev) (p : Nat) (sel : Msg → Bool) : Nat × Dev :=
  let ms := if d.isDown p || d.portDunrun p then (d.queuedFor p).filter fun m => (m.awaits || m.tray ≠ 0) && sel m else []
  let (n, d) := d.flushSel p sel ((d.heldFor p).filter fun src => (d.relOf src).head?.any sel)
  (n, ms.foldl (fun d m => d.endAsk p m .tgtFail [] false 3) (if d.portDunrun p then d else d.inc PRT_DROP_FLUSHED p 0 n))

/-- Flush a port's queue and what it has partly received; requests flushed end failed. The number flushed. -/
def Dev.flushAnswered (d : Dev) (p : Nat) : Nat × Dev :=
  let r := d.flushSome p fun _ => true
  (r.1, r.2.dropIngress p)

/-- Requests that a quarantine flushed are answered (Table 19-2). -/
def Dev.answerEnded (d : Dev) (p : Nat) : Dev :=
  let ms := (d.port p).ended
  ms.foldl (fun d m => d.endAsk p m .tgtFail [] false 3) (d.modPort p fun x => { x with ended := [] })

/-! ## Recalls -/

/-- Recall a line from agents `hs` and go on as far as the answers allow. -/
def Dev.recallLine (d : Dev) (e : DirEnt) (hs : List Nat) (discard poison : Bool) (fid : Nat) : Dev :=
  Dev.runHome (d.startRecall e hs discard poison fid)

/-- A line whose transaction is open is evicted behind it, under rule epoch `ep`. -/
def evictMsg (e : DirEnt) (fid ep : Nat) : Msg := { fid := fid, epoch := ep, body := { op := .ioMsg, agent := 512, tk := e.tk, addr := e.h * 64 } }

/-- A message of the home's own waits behind a line's open transaction. -/
def Dev.lineWaits (d : Dev) (m : Msg) : Dev :=
  d.modHome (homeSlice m.body.tk m.hline) fun x => { x with waits := x.waits ++ [{ tk := m.body.tk, h := m.hline, m := m }] }

/-- Recall agents `hs` from a line, behind its open transaction when it has one. (DESIGN CHOICE, log entry 73) -/
def Dev.recallOrWait (d : Dev) (e : DirEnt) (hs : List Nat) (fid : Nat) : Dev :=
  if d.lineTaken e.tk e.h then d.lineWaits (evictMsg e fid d.epoch) else d.recallLine e hs false false fid

/-- A scan reads every directory set: what it finds bad is rewritten or dropped (R400, R402). -/
def Dev.sweepAll (d : Dev) : Dev := ((List.range 16).foldl (fun d s => d.dirSweep s) d).raiseDue

/-! ## Surprise removal (R333 to R336, Table 9-3) -/

/-- A line loses its target to every VCS: what is open or waits on it ends failed, its slice-cache copy is dropped, and its holders are
invalidated (Table 9-3). -/
def Dev.removeLine (d : Dev) (e : DirEnt) : Dev :=
  let s := homeSlice e.tk e.h
  let hs := d.mayHold e
  let d := match d.txn? e.tk e.h with | some t => d.failTxn t | none => d
  let d := (d.failWaits s fun w => w.tk = e.tk && w.h = e.h).dropScc e.tk e.h
  let x : DirEnt := { e.noSharers with owner := none, ownerScc := false, sccV := false, st := 1, busy := false, bad := 0 }
  (d.putEnt x).recallLine x hs true false 0

/-- Lines homed in a lost target: slice-cache copies dropped, holders invalidated with their dirty data discarded, entries
freed as the invalidations end. The number of lines. `only`: the removal as one VCS sees it, while others keep the
target. (DESIGN CHOICE, log entry 97) -/
def Dev.removeLines (d : Dev) (tk : Nat) (only : Option Nat) : Nat × Dev :=
  let d := d.sweepAll
  let es := ((List.range 16).flatMap fun s => (d.dirOf s).filter (·.tk = tk)).filter fun e =>
    only.all fun u => d.lineTaken e.tk e.h || (d.mayHold e).any (d.agentVcs u)
  (es.length, es.foldl (fun d e0 =>
    match d.ent? e0.tk e0.h with
    | none => d
    | some e =>
      match only with
      | some u =>
        if d.lineTaken e.tk e.h then d.lineWaits { body := { op := .ioMsg, agent := u, tk := e.tk, addr := e.h * 64 } }
        else Dev.runHome (d.removeFrom e u)
      | none => d.removeLine e) d)

/-- Fence the entries of VCS u that name vPPB v, or set the lost mirror member STALE. -/
def Dev.fenceFor (d : Dev) (u v : Nat) : Dev :=
  (List.range 32).foldl (fun d i =>
    let x := d.hdmNow u i
    let ks := (List.range x.ways).filter fun k => x.tgts.getD k 0 = v
    if !x.v || ks.isEmpty then d
    else if x.mode = 2 && (x.membersIn (· = 0)).any (fun k => !ks.contains k) then
      ks.foldl (fun d k => if d.memberState d.epoch u i k = 1 then d else (d.mirrorStale u i k 3).raise DEC_F_MIRROR_STALE (u / 8)) d
    else if x.fenced then d
    else (d.setFenced u i true).raise DEC_F_FENCED (u / 8) (d.portWho u)) d

/-- Requests of VCS `only`, or of every one, to target t. -/
def Dev.tgtAsk (d : Dev) (t : Tgt) (only : Option Nat) (m : Msg) : Bool :=
  only.all (· = m.vcs) && m.dst / 128 = t.dev && m.awaits && (m.link.isNone || (only.isNone && t.dev = d.myId)) &&
    (if m.int then m.body.tk = t.key
     else m.dst % 128 = t.port && (m.body.ld = t.ld || (t.dev = d.myId && !d.on PRT_STAT_MLD t.port)) && !t.larder)

/-- A transaction's requester is answered failed at once; the line goes on to the state its snoops leave (R333). -/
def Dev.dropAsker (d : Dev) (t : Txn) : Dev :=
  let s := homeSlice t.tk t.h
  if t.noEntry then d.failTxn t
  else
    let t2 := { t with kind := t.kind.quiet, m := d.homeMsg s t.m.domain, askedMem := false }
    let d := (d.setTxn t t2).failReq s t.m
    if t.await.isEmpty then Dev.runHome (d.advance t2) else d

/-- Requests of VCS `only`, or of every one, for lines homed in local target t: those the homes hold, and those for a Larder LD. -/
def Dev.endHomeAsks (d : Dev) (t : Tgt) (only : Option Nat) : Dev :=
  let mine (m : Msg) : Bool := only.all (· = m.vcs)
  let d := (List.range 16).foldl (fun d s =>
    let ms := (d.arrivedAt s 2).filter (d.tgtAsk t only)
    let d := ms.foldl (fun d m => d.failReq s m) (d.setArrived s 2 ((d.arrivedAt s 2).filter fun m => !ms.contains m))
    let d := d.failWaits s fun w => w.tk = t.key && w.m.body.op ≠ .ioMsg && mine w.m
    ((d.home s).txns.filter fun x => x.tk = t.key && x.fin.isNone && x.kind.asks && mine x.m).foldl (fun d x => d.dropAsker x) d) d
  let xs := d.core.oven.filter fun x => x.dest ≥ 128 && d.tgtAsk t only x.m
  let d := xs.foldl (fun d x => (d.discard x true).failReq (x.dest - 128) { x.m with fid := 0 }) d
  let gone (r : LdrReq) : Bool := r.m.home.isNone && r.m.body.tk = t.key && mine r.m
  let rs := (d.ldr.reqs.flatMap Prod.snd).filter gone
  let d : Dev := { d with ldr := { d.ldr with reqs := d.ldr.reqs.map fun e => (e.1, e.2.filter fun r => !gone r) } }
  rs.foldl (fun d r => d.accessAnswer (128 + r.home) r.m .tgtFail [] false 3) d

/-- What is queued for target t, and what is outstanding to it, ends failed at once (Table 9-3, R333 to R335). (DESIGN CHOICE, log entry 97) -/
def Dev.endAsks (d : Dev) (t : Tgt) (only : Option Nat) : Dev :=
  let ps := if t.dev ≠ d.myId then (List.range 32).map d.linkPort else if t.larder then [] else [t.port]
  let d := ps.foldl (fun d p =>
    let r := d.flushSome p (d.tgtAsk t only)
    let d := if r.1 > 0 && !d.portDunrun p then r.2.raise PRT_F_FLUSH p else r.2
    d.failOutst p (fun o => d.tgtAsk t only o.m) 3) d
  if t.dev = d.myId then d.endHomeAsks t only else d

/-- A target is lost (Table 9-3): to every VCS of this device, or to VCS `only`. Its vPPBs show the loss when the invalidations have
ended. (DESIGN CHOICE, log entry 97) -/
def Dev.removeTarget (d : Dev) (t : Tgt) (only : Option Nat) : Dev :=
  let bs := (d.bindingsOf t).filter fun uv => only.all (· = uv.1)
  let rest := only.isSome && (d.bindingsOf t).any fun uv => some uv.1 ≠ only
  let ks := bs.map fun (uv : Nat × Nat) => uv.1 * 128 + uv.2
  let d := { d with coh := { d.coh with removed := (d.coh.removed ++ ks).dedup } }
  let d := bs.foldl (fun d uv => d.fenceFor uv.1 uv.2) d
  let mine (g : Migr) : Bool := only.all (· = g.vcs)
  let d := d.migrStop (fun g => mine g && (d.bindNow g.vcs ((d.hdmNow g.vcs g.entry).tgts.getD 0 0)).tgt = some t) stReadFailed
  let d := d.migrStop (fun g => mine g && (d.bindNow g.vcs g.tgt).tgt = some t) stWrite
  let (n, d) := if t.dev = d.myId then d.removeLines t.key (if rest then only else none) else (0, d)
  let d := d.endAsks t only
  ({ d with coh := { d.coh with removals := d.coh.removals ++ [{ tk := if t.dev = d.myId then t.key else 2 ^ 12, vppbs := ks, lines := n }] } }
    : Dev).removalsEnd

/-- Targets are lost together: LINES counts from zero in the pages of the VCSs that see it. -/
def Dev.removeTargets (d : Dev) (ts : List Tgt) : Dev :=
  let d := (ts.flatMap d.bindingsOf).foldl (fun d uv => d.put DEC_RECALL_LINES (uv.1 / 8) 0) d
  ts.foldl (fun d t => d.removeTarget t none) d

/-- Targets behind port p that are bound here or exported. -/
def Dev.lostTgts (d : Dev) (p : Nat) : List Tgt :=
  let ex := d.on DEC_EXPORT_V (p / 8) (p % 8)
  (d.portTgts p).filter fun t => ex || !(d.bindingsOf t).isEmpty

/-- Notice of a lost target to the fabric (R335): LD-ID, or 16 for every LD. -/
def Dev.removalNotice (d : Dev) (p ld : Nat) : Dev :=
  d.notice { op := .removalNotice, arg := d.myId * 128 + p, ld := ld } (d.portDomain p)

/-! ## Removal of an agent (R586) -/

/-- An open transaction no longer waits for an agent: as for a snoop not answered (R584, R392), without suspicion. -/
def Dev.dropAwait (d : Dev) (tk h a : Nat) : Dev :=
  match d.txn? tk h with
  | none => d
  | some t =>
    if !t.await.contains a then d
    else
      let t2 := { t with await := t.await.filter (· ≠ a), timedOut := t.timedOut || t.owner = some a, owner := if t.owner = some a then none else t.owner }
      let d := (d.setTxn t t2).modEnt tk h fun e => e.lose a
      Dev.runHome (d.advance t2)

/-- The entry after agent `a` has been removed from it, poison being written to the target of a line it owned. -/
def Dev.entWithout (d : Dev) (e : DirEnt) (a : Nat) : DirEnt × Dev :=
  let x := e.lose a
  if e.owner = some a then
    let (b, d) := d.freshBytes 64
    ({ x.noSharers with st := 0 }, (d.tgtWrite e.tk e.h b true (d.get DIR_CFG_HOME_TC (homeSlice e.tk e.h)) e.domain).dropScc e.tk e.h)
  else (if x.st = 1 then x.clean x.sccV else x, d)

/-- The agent leaves entry `e` (R586): while its line is busy, the entry it will have. -/
def Dev.removeHolder (d : Dev) (e : DirEnt) (a : Nat) : Dev :=
  if !(d.holders e).contains a && !(d.txn? e.tk e.h).any (·.fin.isSome) then d
  else if !e.busy then
    let r := d.entWithout e a
    r.2.putEnt r.1
  else
    let d := d.modEnt e.tk e.h fun x => x.lose a
    match d.txn? e.tk e.h with
    | some t => match t.fin with
      | some f => if !(d.holders f).contains a then d else
        let r := d.entWithout f a
        r.2.setTxn t { t with fin := some r.1 }
      | none => d
    | none => d

/-- The agent leaves every directory entry; a line it owns in E, M or O goes to its target with poison. (DESIGN CHOICE, log entry 97) -/
def Dev.removeAgent (d : Dev) (a : Nat) (send : Bool) : Dev :=
  let d := d.sweepAll
  let d := ((List.range 16).flatMap d.dirOf).foldl (fun d e0 =>
    let d := d.dropAwait e0.tk e0.h a
    match d.ent? e0.tk e0.h with
    | none => d
    | some e => if e.bad = 2 then d.recallOrWait e [] 0 else d.removeHolder e a) d
  if send then d.notice { op := .agentRemoved, agent := a, st := 1 } (d.agentDomain a 0x3FF) else d

/-! ## Training, hot reset and PERST (R142 to R146) -/

/-- A PERST_IN_N mapped to UPSTREAM port p is asserted (R142). -/
def Dev.perstHeld (d : Dev) (p : Nat) : Bool :=
  d.isUp p && d.on PRT_PERST_IN_EN p && bit (d.get CKR_INSTAT0_PERST_IN) (d.get PRT_PERST_IN_PIN p)

/-- Transmitters stay in electrical idle: a Port reset's PERST_OUT_N is still asserted (R144). -/
def Dev.perstIdles (d : Dev) (p : Nat) : Bool := (d.port p).perstMin || ((d.port p).perstIdle && d.perstLow p)

/-- The port may train: it has a role, its page is enabled, FABRIC_READY has risen, and nothing holds it. -/
def Dev.mayTrain (d : Dev) (p : Nat) : Bool :=
  (d.isUp p || d.isDown p) && d.portAvail p && d.on (PGCTL_ENABLE .prt) p && (d.rst.phase = .running || d.rst.phase = .quiesce) &&
    !d.portShut p && !d.perstHeld p && !d.perstIdles p && !d.halted && (d.portOctets p).all fun o => (d.octet o).calibrated && d.on (PGCTL_ENABLE .sds) o

/-- The port begins training when it may (Detect), its lanes ACTIVE; a role committed is then in force (R120). (DESIGN CHOICE, log entry 136) -/
def Dev.trainStart (d : Dev) (p : Nat) : Dev :=
  if d.mayTrain p && (d.portState p = tsOff || d.portState p = tsHold || d.portState p = tsCal) then
    let d := (d.portOctets p).foldl (fun d o => d.setLanes o (d.portLanes p o) psActive) d
    ((d.setPortState p tsDetect).modPort p fun x => { x with perstIdle := false }).put (PGEPOCH_APPLIED .prt) p 1
  else d

/-- PERST_OUT_N pins follow their ports, and a port that waited for its pin trains (R143, R144). -/
def Dev.perstGo (d : Dev) : Dev :=
  ((List.range 128).filter fun p => (d.port p).perstIdle).foldl (fun d p => d.trainStart p) d.perstUpdate

/-- Send a hot reset to the partner of DOWNSTREAM port q (R146): its queue stays. -/
def Dev.sendHot (d : Dev) (q : Nat) : Dev :=
  if !d.on PRT_STAT_LINK_UP q then d
  else
    let d := ((d.emit (.hotReset q)).put PRT_STAT_DL_ACTIVE q 0).put PRT_STAT_LINK_UP q 0
    (d.setPortState q tsDetect).modPort q fun x => { x with hotSent := true }

/-- A message on behalf of UPSTREAM port u to a target on another device, sent from the port's slice: in class 0x0 to its port, or as
HOME_REQ to SIE[0] for a Larder LD; its body names u. (DESIGN CHOICE, log entry 98) -/
def Dev.toRemote (d : Dev) (u : Nat) (t : Tgt) (b : Body) : Dev :=
  let s := portSlice u
  d.pushRel { cls := if t.larder then 0xD else 0x0, src := 128 + s, srcG := d.myId * 128 + 8 * s, dst := t.dev * 128 + t.port, int := t.larder,
              tc := d.get DIR_CFG_HOME_TC s, ready := true, domain := d.portDomain u, ts := d.fab % 2 ^ 32, epoch := d.epoch,
              body := { b with agent := u } }

/-- A hot reset, or an LD reset, for a target on another device (R145). (DESIGN CHOICE, log entry 98) -/
def Dev.remoteReset (d : Dev) (u : Nat) (t : Tgt) (port : Bool) : Dev :=
  d.toRemote u t { op := .rstAsk, ld := if port then 16 else t.ld }

/-- R145: the VCS's vPPB configuration state returns to defaults, and its bound ports and LDs are reset. (DESIGN CHOICE, log entry 98) -/
def Dev.vcsReset (d : Dev) (u : Nat) : Dev :=
  let d := { d with coh := { d.coh with vcfg := d.coh.vcfg.filter fun e => e.1 / 4096 / 128 ≠ u } }
  (List.range 128).foldl (fun d v =>
    let b := d.bindNow u v
    match b.tgt with
    | none => d
    | some t =>
      if t.dev ≠ d.myId then d.remoteReset u t (b.kind = 1)
      else if t.larder then d.ldReset t.ld
      else if b.kind = 2 || d.on PRT_STAT_MLD t.port then d.emit (.ldReset t.port t.ld)
      else d.sendHot t.port) d

/-! ## Port reset (R584 to R586, R685, Table 18-8) -/

/-- Counters, status and FLT_STATUS of a page return to reset. -/
def Dev.clearStatus (d : Dev) (g : Pg) : Dev :=
  let d := g.blk.countFlds.foldl (fun d f => d.put f.1 g.inst 0 f.2) d
  let d := (List.range 16).foldl (fun d c => (d.put (CNT_COUNT g.blk) g.inst 0 c).put (CNT_SAT g.blk) g.inst 0 c) d
  let d := d.put (FLT_STATUS_STATUS g.blk) g.inst 0
  { d with flt := { d.flt with levels := d.flt.levels.filter fun e => e.1 / 16 ≠ g.addr / 4096 } }

/-- Tray entries in WAIT that `sel` names are discarded with their messages; `answer`: answered failed. -/
def Dev.dropWaits (d : Dev) (sel : TrayEnt → Bool) (answer : Bool) : Dev :=
  (d.coh.tray.filter fun e => sel e && !e.ordered).foldl (fun d e =>
    let d := if answer && !e.completed then d.replyFail (portSlice e.port) { e.m with fid := 0 } else d
    let d := (d.core.oven.filter fun x => x.m.tray = e.id).foldl (fun d x => d.discard { x with m := { x.m with fid := 0 } } true) d
    d.trayFree e.id) d

/-- Dirty slice-cache copies of lines homed in port p's targets are written back and kept clean. -/
def Dev.writeBackPort (d : Dev) (p : Nat) : Dev :=
  ((List.range 16).flatMap d.sccOf).foldl (fun d l =>
    if l.dirty && l.tk < 0x800 && l.tk / 16 = p then d.sccVictim l true devDomain else d) d

/-- The actions of a Port reset after its recall; the port then stands in state `st`. (DESIGN CHOICE, log entry 96) -/
def Dev.portResetNow (d : Dev) (p st : Nat) : Dev :=
  let a := d.portAgent p
  let d := if d.isDown p then d.writeBackPort p else d
  let d := d.dropWaits (fun e => e.port = p && !e.cmb) false
  let d := match a with | some x => d.removeAgent x true | none => d
  let d := [Blk.prt, .egs, .pol, .gte, .acu].foldl (fun d b => d.clearStatus ⟨b, p⟩) d
  let d := if d.portDunrun p then (match d.linkOf (p / 2) with | some k => d.linkToDown k | none => d) else d
  let d := ((d.flushAnswered p).2.dropReleased p).answerEnded p
  let d := if d.isDown p then d.failOutst p (fun _ => true) 3 else d
  let d := d.linkStop p st
  let d := (d.put PRT_STAT_IDE_ACT p 0).put PRT_IDE_SECURE p 0
  let d := d.modPort p fun x =>
    { x with rxNext := 0, rxHold := false, parts := [], macWait := [], macFlits := 0, resetting := false, recallOnly := false,
             hotSent := false, gpf := none, perstMin := d.isDown p, perstIdle := d.isDown p, rxHalf := false, downDue := false, dry := [] }
  let d := if d.isUp p then d.endpointReset p else d
  let k := if d.portDunrun p then d.linkOf (p / 2) else none
  let gone (e : Elem) : Bool := e = .port p || some e = k.map Elem.link || (List.range 16).any fun l => e = .ldKey p l
  let d : Dev := { d with sec := { d.sec with linkSess := SMap.set 0 d.sec.linkSess p 0 },
                          flt := { d.flt with quar := d.flt.quar.filter fun e => !gone e } }
  d.raiseDue

/-- The port's agent and the lines it holds. -/
def Dev.agentLines (d : Dev) (a : Nat) : List DirEnt := ((List.range 16).flatMap d.dirOf).filter fun e => (d.mayHold e).contains a

/-- A recall of agent `a` is still running (R586). -/
def Dev.recalling (d : Dev) (a : Nat) : Bool :=
  (List.range 16).any fun s => (d.home s).txns.any (fun t => t.await.contains a) ||
    (d.home s).waits.any fun w => kindOf w.m.body.op = none

/-- A Port reset through a register or DISABLE begins: a coherent agent's lines are recalled while the port is in L0
(R586); without a recall it ends at once. -/
def Dev.portResetStart (d : Dev) (p : Nat) : Dev :=
  let d := d.modPort p fun x => { x with resetting := true }
  match d.portAgent p with
  | some a =>
    if d.on CKR_RSTCFG_RECALL && (d.portState p = tsL0 || d.portState p = tsL0p) && !(d.agentLines a).isEmpty then
      let d := (d.modPort p fun x => { x with recallOnly := true }).sweepAll
      (d.agentLines a).foldl (fun d e => match d.ent? e.tk e.h with
        | some e2 => d.recallOrWait e2 [a] 0
        | none => d) d
    else (d.portResetNow p tsHold).perstGo
  | none => (d.portResetNow p tsHold).perstGo

/-- A Port reset is over: a DOWNSTREAM port waits for its PERST_OUT_N minimum, every other one trains when it may. -/
def Dev.portResetOver (d : Dev) (p : Nat) : Dev :=
  (d.put PRT_STAT_IN_RESET p (b2n (d.perstHeld p || d.on PRT_LINKCTL_DISABLE p))).perstGo.trainStart p

/-! ## Reset requests (R576) -/

/-- A reset that contains Slice, Domain and Port scopes is in progress. -/
def Dev.bigReset (d : Dev) : Bool := d.rst.phase ≠ .running

/-- A Port reset of port p is contained in one in progress. -/
def Dev.portContained (d : Dev) (p : Nat) : Bool :=
  d.bigReset || (d.port p).resetting || d.rst.active.any fun r => (r.scope = .slice && r.target = p / 8) || (r.scope = .port && r.target = p)

def Dev.rstIgnored (d : Dev) : Dev := d.raise CKR_F_RST_IGNORED 0

/-- CKR_RSTLOG takes a reset: scope code, trigger, target, path. -/
def Dev.rstLog (d : Dev) (scope trigger target path : Nat) (escalated : Bool) : Dev :=
  let d := (d.setWord CKR_RSTLOG 0 0).put CKR_RSTLOG_SCOPE 0 scope
  let d := ((d.put CKR_RSTLOG_TRIGGER 0 trigger).put CKR_RSTLOG_TARGET 0 target).put CKR_RSTLOG_PATH 0 path
  d.put CKR_RSTLOG_ESCALATED 0 (b2n escalated)

/-- A hot reset or PERST of UPSTREAM port p: Port reset without recall (R145, R586). -/
def Dev.hostReset (d : Dev) (p trigger : Nat) : Dev :=
  if d.flushing || d.portContained p then d.rstIgnored
  else
    let d := (d.rstLog 5 trigger p 0 false).vcsReset p
    (d.portResetNow p tsHold).portResetOver p

/-- Input i is mapped to port p. -/
def Dev.perstPort (d : Dev) (i p : Nat) : Bool := d.isUp p && d.on PRT_PERST_IN_EN p && d.get PRT_PERST_IN_PIN p = i

/-- PERST_IN_N[i] changes its conditioned value (R142). -/
def Dev.perstIn (d : Dev) (i : Nat) (on : Bool) : Dev :=
  let w := d.get CKR_INSTAT0_PERST_IN
  if bit w i = on then d
  else
    let d := d.put CKR_INSTAT0_PERST_IN 0 (if on then w + 2 ^ i else w - 2 ^ i)
    ((List.range 128).filter (d.perstPort i)).foldl (fun d p =>
      let d := d.put PRT_STAT_PERST_IN p (b2n on)
      if on then d.hostReset p 6 else d.portResetOver p) d

/-! ## Link-down (R149 to R151) -/

/-- A bound or exported DOWNSTREAM port has lost its partner (R151, R334). -/
def Dev.surpriseDown (d : Dev) (p : Nat) : Dev :=
  let d := (d.raise PRT_F_SURPRISE_DOWN p).failOutst p (fun _ => true) 3
  (d.removeTargets (d.lostTgts p)).removalNotice p 16

/-- The data link of a CXL port is lost outside a requested reset or DISABLE. -/
def Dev.portLinkDown (d : Dev) (p : Nat) : Dev :=
  let a := d.portAgent p
  let bound := d.isDown p && d.portBound p
  let d := (d.raise PRT_F_LINK_DOWN p (d.portWho p)).answerEnded p
  let (n, d) := d.flushAnswered p
  let d := (d.linkStop p (if d.portQuar p then tsHold else tsDetect)).modPort p fun x =>
    { x with hotSent := false, downDue := false, dry := [], rxHalf := false }
  let d := (if n > 0 then d.raise PRT_F_FLUSH p else d).raiseDue
  let d := if bound then d.surpriseDown p else d
  match a with
  | some x => d.declareDead x 2 0 (d.portDomain p)
  | none => d

end Sys2Proof.Machine
end

