-- ==== Sys2Proof/Machine/HomeRows.lean ====
section
/-! DEFINITION. The commands of the home slices (chapters 10 and 11, R340). -/

namespace Sys2Proof.Machine

/-! ## Requests and writebacks (R367, R368) -/

def Dev.rdSRow (d : Dev) (h : Nat) : Dev := d.takeKind h .rdS
def Dev.rdORow (d : Dev) (h : Nat) : Dev := d.takeKind h .rdO
def Dev.ownNdRow (d : Dev) (h : Nat) : Dev := d.takeKind h .ownNd
def Dev.rdCRow (d : Dev) (h : Nat) : Dev := d.takeKind h .rdC
def Dev.wrRow (d : Dev) (h : Nat) : Dev := d.takeKind h .wr
def Dev.atomRow (d : Dev) (h : Nat) : Dev := d.takeKind h .atom
def Dev.wbIRow (d : Dev) (h : Nat) : Dev := d.takeKind h .wbI
def Dev.wbSRow (d : Dev) (h : Nat) : Dev := d.takeKind h .wbS
def Dev.clnRow (d : Dev) (h : Nat) : Dev := d.takeKind h .cln
def Dev.bisIRow (d : Dev) (h : Nat) : Dev := d.takeKind h .bisI
def Dev.bisSRow (d : Dev) (h : Nat) : Dev := d.takeKind h .bisS
def Dev.bisCRow (d : Dev) (h : Nat) : Dev := d.takeKind h .bisC

/-! ## Answers (R382, R386) -/

def ansOp (o : MOp) : Bool := [MOp.ansI, .ansS, .ansE].contains o
def tgtOp (o : MOp) : Bool := [MOp.tgtData, .tgtDone, .tgtFail].contains o

/-- The front of the RSP channel, with the rest taken. -/
def Dev.frontRsp (d : Dev) (h : Nat) : Option (Msg × Dev) :=
  match d.arrivedAt h 0 with
  | [] => none
  | m :: r => some (m, d.setArrived h 0 r)

/-- An answer is always taken (R382): consumed by the transaction that awaits it, else discarded. (DESIGN CHOICE, log entry 70) -/
def Dev.snoopAnswerRow (d : Dev) (h : Nat) : Dev :=
  if d.halted then d
  else match d.frontRsp h with
    | some (m, d2) => if ansOp m.body.op then d2.snoopAnswered m else d
    | none => d

/-- The request of this device that a HOME_RSP from another device answers: the Dunrun port that sent it, and it. -/
def Dev.homeAsk (d : Dev) (tag : Nat) : Option (Nat × Outst) :=
  (List.range 32).findSome? fun k =>
    let p := d.linkPort k
    if d.portDunrun p then ((d.port p).outst.find? (·.tag = tag)).map fun o => (p, o) else none

/-- The home of another device has answered request `m` (R339): the requester gets the state and data it granted. (DESIGN CHOICE, log entry 72) -/
def Dev.remoteAnswered (d : Dev) (h : Nat) (m a : Msg) : Dev :=
  if m.mir ≠ 0 || m.tray ≠ 0 then
    d.accessAnswer (128 + h) m (match a.body.op with | .cplData => .tgtData | .cplFail | .ioUr => .tgtFail | _ => .tgtDone)
      a.body.data a.poison
  else d.replyTo h m a.body.op a.body.data a.poison a.body.st

/-- A target's answer, or an answer to a request this device made, taken from the RSP channel; a home's ordered signal in advance of its
last answer orders the write in the Tray that issued it (R372). (DESIGN CHOICE, log entry 72) -/
def Dev.targetAnswerRow (d : Dev) (h : Nat) : Dev :=
  if d.halted then d
  else match d.frontRsp h with
    | none => d
    | some (m, d2) =>
      if ansOp m.body.op then d
      else if tgtOp m.body.op then d2.homeTarget h m
      else if m.link.isNone then d2.dmvAnswer m
      else match d2.homeAsk m.body.tag with
        | some (p, o) =>
          if m.body.st = stOrdered then (if o.m.tray = 0 then d2 else d2.trayOrder o.m.tray h)
          else (d2.modPort p fun x => { x with outst := x.outst.erase o }).remoteAnswered h o.m m
        | none => d2

/-! ## Waiting requests (R381, R385, R390) -/

/-- The head of a line's queue is decided once the line is free; `line` is TK × 2^46 + H. -/
def Dev.lineQueueHeadRow (d : Dev) (h line : Nat) : Dev :=
  let tk := line / 2 ^ 46
  let n := line % 2 ^ 46
  if d.halted || homeSlice tk n ≠ h || d.lineTaken tk n then d
  else match d.lineFirst tk n with
    | some w => Dev.runHome ((d.modHome h fun x => { x with waits := x.waits.erase w }).decideOne (w.m, none))
    | none => d

def Dev.waitBufferEntryFreeRow (d : Dev) (h src : Nat) : Dev :=
  if (d.home h).waits.length < 1024 then
    d.modHome h fun x => { x with stalled := x.stalled.filter fun y => y ≠ src && y ≠ 1000 + src }
  else d

/-- The winner of an offer: greatest age, earliest among equals. -/
def oldestWait (l : List Wait) : Option Wait :=
  l.foldl (fun (b : Option Wait) w => match b with | none => some w | some x => if w.age > x.age then some w else b) none

/-- The winner takes the way offered (R388, R389). (DESIGN CHOICE, log entry 73) -/
def Dev.takeWay (d : Dev) (h set_ way : Nat) (m : Msg) : Dev :=
  let tk := m.body.tk
  match kindOf m.body.op with
  | none => d
  | some k =>
    if d.lineTaken tk m.hline then d.enqueue m false
    else
      let d := d.readSet tk m.hline
      if (d.ent? tk m.hline).isSome then Dev.runHome (d.decideFree m k none)
      else match (d.dirAt h set_).find? (·.way = way) with
        | none => Dev.runHome (d.decideReq m k (some way))
        | some v => Dev.runHome (d.evict v (d.homeMsg h v.domain) (some m))

/-- The entry in the way, if any, is not busy. -/
def Dev.wayFree (d : Dev) (h set_ way : Nat) : Bool :=
  !(d.dirAt h set_).any fun e => e.way = way && (e.busy || d.lineBusy e.tk e.h)

/-- A retry entry of the set. -/
def Wait.here (w : Wait) (set_ : Nat) : Bool := w.retry && dirSet w.tk w.h = set_

def Dev.retryWaits (d : Dev) (h set_ way : Nat) : List Wait := (d.home h).waits.filter fun w => w.here set_ && d.dirWayOk h w.m.domain way

/-- The winner leaves the wait buffer, and the others of its set grow older. (DESIGN CHOICE, log entry 73) -/
def Dev.retryTake (d : Dev) (h set_ : Nat) (w : Wait) : Dev :=
  d.modHome h fun x => { x with waits := (x.waits.erase w).map fun y => if y.here set_ then { y with age := min 1023 (y.age + 1) } else y }

/-- A way that has ceased to be busy is offered to the retry entries of its set that may use it. (DESIGN CHOICE, log entry 73) -/
def Dev.retryOfferRow (d : Dev) (h set_ way : Nat) : Dev :=
  if d.halted || !d.wayFree h set_ way then d
  else match oldestWait (d.retryWaits h set_ way) with
    | none => d
    | some w => (d.retryTake h set_ w).takeWay h set_ way w.m

/-! ## Timeouts, dead agents, quench (R392 to R397) -/

def Dev.snoopTimeoutRow (d : Dev) (h line agent : Nat) : Dev :=
  let tk := line / 2 ^ 46
  let n := line % 2 ^ 46
  if d.halted || homeSlice tk n ≠ h then d else d.snoopExpire tk n agent

/-- The message of SIE[h]'s REQ channel that `hit` names, if it is the first of its source there and the source is not stalled (R385). (DESIGN CHOICE, log entry 71) -/
def Dev.firstOf (d : Dev) (h : Nat) (hit : Msg → Bool) : Option Msg :=
  ((d.arrivedAt h 2).find? hit).filter fun m => !d.chanBlocked h 2 m.src && ((d.arrivedAt h 2).find? (·.src = m.src)) = some m

/-- The message is the quench notice a command names. (DESIGN CHOICE, log entry 71) -/
def quenchHit (agent domain dev : Nat) (m : Msg) : Bool :=
  m.body.op = .quenchNotice && m.body.arg = domain && m.srcG / 128 = dev && min 512 m.body.agent = min 512 agent

/-- A quench notice is received by SIE[0]; `agent` 512 and above: it names none. (DESIGN CHOICE, log entry 71) -/
def Dev.quenchNoticeRow (d : Dev) (agent domain dev : Nat) : Dev :=
  match (if d.halted then none else d.firstOf 0 (quenchHit agent domain dev)) with
  | none => d
  | some m =>
    let d := d.setArrived 0 2 ((d.arrivedAt 0 2).erase m)
    if agent ≥ 512 || d.agentDead agent then d.quench domain none false else d.declareDead agent 3 dev domain

/-- The transaction's entry lies in the domain. -/
def Dev.txnIn (d : Dev) (dom : Nat) (t : Txn) : Bool := !t.noEntry && ((d.ent? t.tk t.h).map (·.domain)) = some dom

/-- Domains of the slice's scan whose invalidations are answered. (DESIGN CHOICE, log entry 71) -/
def Dev.quenchReady (d : Dev) (h : Nat) : List Nat :=
  (d.home h).quenchScan.filter fun dom => !(d.home h).txns.any fun t => d.txnIn dom t && !t.await.isEmpty

def Dev.quenchScanEnd (d : Dev) (h : Nat) (ready : List Nat) : Dev :=
  let mine (dom : Nat) (t : Txn) : Bool := d.txnIn dom t
  let d := ready.foldl (fun d dom =>
    let d := ((d.home h).txns.filter (mine dom)).foldl (fun d t => d.failTxn t) d
    ((d.dirOf h).filter (·.domain = dom)).foldl (fun d e => (d.dropScc e.tk e.h).freeEnt e.tk e.h) d) d
  let d := d.modHome h fun x => { x with quenchScan := x.quenchScan.filter fun y => !ready.contains y }
  let d := if (d.home h).quenchScan.isEmpty then d.put DIR_DEATH_QSCAN h 0 else d
  d.quenchEnd.removalsEnd

/-- The slice's quench invalidations have ended: the entries of each domain whose invalidations are answered are freed, and
QSCAN clears with the last (Table 11-2). (DESIGN CHOICE, log entry 71) -/
def Dev.quenchScanDoneRow (d : Dev) (h : Nat) : Dev :=
  if d.halted || (d.quenchReady h).isEmpty then d else d.quenchScanEnd h (d.quenchReady h)

/-! ## Peek and clean (R354, R363) -/

/-- DIR_PEEK1 of an entry. -/
def DirEnt.sharersWord (e : DirEnt) : W64 :=
  if e.coarse then BitVec.ofNat 64 e.groups
  else BitVec.ofNat 64 ((e.ptrs.zipIdx.map fun (x : Nat × Nat) => (x.1 + 512) <<< (16 * x.2)).sum)

/-- DIR_PEEK0 of an entry found, of state, owner and flags. -/
def DirEnt.word0 (e : DirEnt) : Nat :=
  e.st + 2 ^ 3 * b2n e.sccV + 2 ^ 4 * b2n e.ownerScc + 2 ^ 5 * e.owner.getD 0 + 2 ^ 14 * b2n e.coarse + 2 ^ 15 * b2n e.busy
    + 2 ^ 16 * e.domain + 2 ^ 26 * b2n e.p + 2 ^ 27 + 2 ^ 28 * e.way

/-- DIR_PEEK_CTL.GO: the entry of LINE and TK is read; no state changes. -/
def Dev.dirPeek (d : Dev) (h : Nat) : Dev :=
  let n := d.get DIR_PEEK_CTL_LINE h
  let tk := d.get DIR_PEEK_CTL_TK h
  let hs := homeSlice tk n
  let e := (if hs = h then d.ent? tk n else none).map fun e => { e with busy := e.busy || d.lineBusy tk n }
  let w0 := (e.map DirEnt.word0).getD 0 + 2 ^ 32 * hs
  (d.setWord DIR_PEEK0 h (BitVec.ofNat 64 w0)).setWord DIR_PEEK1 h ((e.map DirEnt.sharersWord).getD 0)

def Dev.dirPeekRow (d : Dev) (path h : Nat) : Dev := d.access path ⟨.dir, h⟩ DIR_PEEK_CTL.off fun d => d.dirPeek h

/-- SCC_FLUSH.CLEAN: every dirty line leaves as an SCC victim that keeps a clean copy. (DESIGN CHOICE, log entry 69) -/
def Dev.sccClean (d : Dev) (h : Nat) : Dev :=
  if d.halted then d else ((d.sccOf h).filter (·.dirty)).foldl (fun d l => d.sccVictim l true devDomain) d

/-- SCC_FLUSH written. (DESIGN CHOICE, log entry 69) -/
def Dev.sccFlushCleanRow (d : Dev) (path h : Nat) : Dev := d.access path ⟨.scc, h⟩ SCC_FLUSH.off fun d => d.sccClean h

/-! ## Remote snoops (R340) -/

def localSnoop (o : MOp) : Option MOp :=
  match o with
  | .rSnpData => some .snpData
  | .rSnpInv => some .snpInv
  | .rSnpCur => some .snpCur
  | _ => none

/-- The target a key of device `v` names. -/
def tgtAt (v tk : Nat) : Tgt := if tk ≥ 0x800 then ⟨v, true, 0, tk - 0x800⟩ else ⟨v, false, tk / 16, tk % 16⟩

/-- Snoop the local sharer that a remote home names; no snoop is sent where there is none to send (R324, R352, R398). (DESIGN CHOICE, log entry 70) -/
def Dev.remoteSnoop (d : Dev) (h : Nat) (m : Msg) (k : MOp) : Dev :=
  let a := m.body.agent
  match (if d.agentDead a then none else d.agentPort a) with
  | none => d
  | some p =>
    match (if d.isUp p then some p else ((d.portTgts p).flatMap fun t => (d.bindingsOf t).map Prod.fst).min?) with
    | none => d
    | some u =>
      match d.revDecode d.epoch u (tgtAt (m.srcG / 128) m.body.tk) m.body.addr with
      | none => d.raise DEC_F_REV_MISS (u / 8)
      | some x =>
        d.homeSend h { cls := if d.isUp p then 0x7 else 0xB, dst := d.myId * 128 + p, tc := m.tc, domain := m.domain,
                       body := { op := k, agent := a, tk := m.body.tk, addr := x } }

/-- A snoop of another device's home. (DESIGN CHOICE, log entry 70) -/
def Dev.remoteSnoopRow (d : Dev) (h : Nat) : Dev :=
  if d.halted || !(d.arrivedAt h 0).isEmpty || (d.takeFrom h 1).isSome then d
  else match d.takeFrom h 2 with
    | none => d
    | some (m, d2) =>
      match localSnoop m.body.op with
      | some k => d2.remoteSnoop h m k
      | none => d

/-! ## Commands -/

/-- RD_S (R368). -/
def execRdS (h : Nat) (s : State) : Host.Outcome State Fault Refusal :=
  run (decide (h < 16)) "RD_S" s (s.dev.rdSRow h)

/-- RD_O (R368). -/
def execRdO (h : Nat) (s : State) : Host.Outcome State Fault Refusal :=
  run (decide (h < 16)) "RD_O" s (s.dev.rdORow h)

/-- OWN_ND (R368). -/
def execOwnNd (h : Nat) (s : State) : Host.Outcome State Fault Refusal :=
  run (decide (h < 16)) "OWN_ND" s (s.dev.ownNdRow h)

/-- RD_C (R368). -/
def execRdC (h : Nat) (s : State) : Host.Outcome State Fault Refusal :=
  run (decide (h < 16)) "RD_C" s (s.dev.rdCRow h)

/-- WR (R372). -/
def execWr (h : Nat) (s : State) : Host.Outcome State Fault Refusal :=
  run (decide (h < 16)) "WR" s (s.dev.wrRow h)

/-- ATOM (R424). -/
def execAtom (h : Nat) (s : State) : Host.Outcome State Fault Refusal :=
  run (decide (h < 16)) "ATOM" s (s.dev.atomRow h)

/-- WB_I (R383). -/
def execWbI (h : Nat) (s : State) : Host.Outcome State Fault Refusal :=
  run (decide (h < 16)) "WB_I" s (s.dev.wbIRow h)

/-- WB_S (R368). -/
def execWbS (h : Nat) (s : State) : Host.Outcome State Fault Refusal :=
  run (decide (h < 16)) "WB_S" s (s.dev.wbSRow h)

/-- CLN (R384). -/
def execCln (h : Nat) (s : State) : Host.Outcome State Fault Refusal :=
  run (decide (h < 16)) "CLN" s (s.dev.clnRow h)

/-- BIS_I (R371). -/
def execBisI (h : Nat) (s : State) : Host.Outcome State Fault Refusal :=
  run (decide (h < 16)) "BIS_I" s (s.dev.bisIRow h)

/-- BIS_S (R371). -/
def execBisS (h : Nat) (s : State) : Host.Outcome State Fault Refusal :=
  run (decide (h < 16)) "BIS_S" s (s.dev.bisSRow h)

/-- BIS_C (R371). -/
def execBisC (h : Nat) (s : State) : Host.Outcome State Fault Refusal :=
  run (decide (h < 16)) "BIS_C" s (s.dev.bisCRow h)

/-- SNOOP_ANSWER (R382). -/
def execSnoopAnswer (h : Nat) (s : State) : Host.Outcome State Fault Refusal :=
  run (decide (h < 16)) "SNOOP_ANSWER" s (s.dev.snoopAnswerRow h)

/-- TARGET_ANSWER (R386). -/
def execTargetAnswer (h : Nat) (s : State) : Host.Outcome State Fault Refusal :=
  run (decide (h < 16)) "TARGET_ANSWER" s (s.dev.targetAnswerRow h)

/-- LINE_QUEUE_HEAD (R381). -/
def execLineQueueHead (h : Nat) (line : Nat) (s : State) : Host.Outcome State Fault Refusal :=
  run (decide (h < 16)) "LINE_QUEUE_HEAD" s (s.dev.lineQueueHeadRow h line)

/-- WAIT_BUFFER_ENTRY_FREE (R385). -/
def execWaitBufferEntryFree (h : Nat) (src : Nat) (s : State) : Host.Outcome State Fault Refusal :=
  run (decide (h < 16) && decide (src < 144)) "WAIT_BUFFER_ENTRY_FREE" s (s.dev.waitBufferEntryFreeRow h src)

/-- RETRY_OFFER (R390). -/
def execRetryOffer (h : Nat) (set_ : Nat) (way : Nat) (s : State) : Host.Outcome State Fault Refusal :=
  run (decide (h < 16) && decide (set_ < 16384) && decide (way < 16)) "RETRY_OFFER" s (s.dev.retryOfferRow h set_ way)

/-- SNOOP_TIMEOUT (R392). -/
def execSnoopTimeout (h : Nat) (line : Nat) (agent : Nat) (s : State) : Host.Outcome State Fault Refusal :=
  run (decide (h < 16)) "SNOOP_TIMEOUT" s (s.dev.snoopTimeoutRow h line agent)

/-- QUENCH_NOTICE (R396). -/
def execQuenchNotice (agent : Nat) (domain : Nat) (dev : Nat) (s : State) : Host.Outcome State Fault Refusal :=
  run (decide (agent < 4096) && decide (domain < 1024) && decide (dev < 16)) "QUENCH_NOTICE" s (s.dev.quenchNoticeRow agent domain dev)

/-- QUENCH_SCAN_DONE (R395). -/
def execQuenchScanDone (h : Nat) (s : State) : Host.Outcome State Fault Refusal :=
  run (decide (h < 16)) "QUENCH_SCAN_DONE" s (s.dev.quenchScanDoneRow h)

/-- DIR_PEEK (R354). -/
def execDirPeek (path : Nat) (h : Nat) (s : State) : Host.Outcome State Fault Refusal :=
  run (okPath path && decide (h < 16)) "DIR_PEEK" s (s.dev.dirPeekRow path h)

/-- SCC_FLUSH_CLEAN (R363). -/
def execSccFlushClean (path : Nat) (h : Nat) (s : State) : Host.Outcome State Fault Refusal :=
  run (okPath path && decide (h < 16)) "SCC_FLUSH_CLEAN" s (s.dev.sccFlushCleanRow path h)

/-- REMOTE_SNOOP (R340). -/
def execRemoteSnoop (h : Nat) (s : State) : Host.Outcome State Fault Refusal :=
  run (decide (h < 16)) "REMOTE_SNOOP" s (s.dev.remoteSnoopRow h)

end Sys2Proof.Machine
end

