-- ==== Sys2Proof/Machine/LinkOps.lean ====
section
/-! DEFINITION. The time base's servo, octets and their training states, and the states of a Dunrun link (chapters 3, 5
and 20). -/

namespace Sys2Proof.Machine

/-! ## Time base (R624 to R628) -/

/-- Fabric time has been stepped by `delta` root ticks (R628, R299). -/
def Dev.timeStepped (d : Dev) (delta : Int) : Dev :=
  if delta.natAbs ≤ 1 then d
  else
    let was := ((d.fab : Int) - delta).toNat
    ((List.range 128).filter d.portAvail).foldl (fun d q => (d.regate q was).raise GTE_F_TIME_STEP q) (d.raise TMB_F_STEP 0)

/-- The link a FOLLOW device tracks now (Table 20-1). -/
def Dev.trackLink (d : Dev) : Option Nat :=
  let p := d.get TMB_CFG_PARENT
  let b := d.get TMB_CFG_BACKUP
  if d.get TMB_CFG_ROLE ≠ 2 then none
  else if d.lkState p = lkActive then some p
  else if d.on TMB_CFG_BKUP_V && d.lkState b = lkActive then some b
  else none

/-- The device holds over (R627). -/
def Dev.holdover (d : Dev) : Dev :=
  if d.on TMB_STAT_HOLDOVER then d
  else
    let d := { d with obs := { d.obs with clk := { d.obs.clk with lockRun := 0 } } }
    ((d.put TMB_STAT_HOLDOVER 0 1).put TMB_STAT_LOCKED 0 0).raise TMB_F_HOLDOVER 0

def Dev.trackCheck (d : Dev) : Dev :=
  if d.get TMB_CFG_ROLE ≠ 2 then d
  else match d.trackLink with
    | some k => d.put TMB_STAT_LINK 0 k
    | none => d.holdover

/-- A TIMECLK edge: a new fabric time set before it comes into force (R628). (DESIGN CHOICE, log entry 6) -/
def Dev.clockEdge (d : Dev) : Dev :=
  let d := d.tick
  let d := match d.obs.clk.setNext with
    | none => d
    | some v =>
      let delta := toSigned 64 (v + 2 ^ 64 - d.fab)
      let d := { d with obs := { d.obs with clk := { d.obs.clk with setNext := none } } }
      (d.setFab v).timeStepped delta
  d.trackCheck

/-- An offset error θ in root ticks has been measured (R626). (DESIGN CHOICE, log entry 36) -/
def Dev.servo (d : Dev) (theta : Int) : Dev :=
  let k := d.obs.clk
  let run := if theta.natAbs ≤ 4 then min 8 (k.lockRun + 1) else 0
  let d := { d with obs := { d.obs with clk := { k with lockRun := run } } }
  let d := ((d.put TMB_STAT_THETA 0 (ofSigned 32 theta)).put TMB_STAT_HOLDOVER 0 0).put TMB_STAT_LOCKED 0 (b2n (run ≥ 8))
  if theta.natAbs > d.get TMB_CFG_STEP_THR then
    { d with obs := { d.obs with clk := { d.obs.clk with setNext := some (ofSigned 64 ((d.fab : Int) + 32 + theta)) } } }
  else d.put TMB_RATE_PPB 0 (ofSigned 32 (max (-100000) (min 100000 (theta * 1000000000 / 8800000))))

/-! ## Margining and rate changes -/

/-- R108: a margining run on one of the lanes aborts. (DESIGN CHOICE, log entry 86) -/
def Dev.marginAbort (d : Dev) (o : Nat) (ls : List Nat) : Dev :=
  (d.marginOff o ls).raiseDue

def Dev.marginPort (d : Dev) (p : Nat) : Dev := (d.portOctets p).foldl (fun d o => d.marginAbort o (d.portLanes p o)) d

/-- Corrections and invalid headers of a lane, and other errors met on it, count in its window, or against the margining run on
it, which ends at its error limit (R105, R109, R110). -/
def Dev.laneCounts (d : Dev) (o l corr sync err : Nat) : Dev :=
  let x := d.octet o
  let limit : Option Nat :=
    if x.margin = some l then some (d.get SDS_MARGIN_CTL_ERR_LIMIT o)
    else (x.partnerMargin.filter fun m => m.lane = l).map (·.limit)
  match limit with
  | none => d.modLane o l fun x => { x with corr := x.corr + corr, sync := x.sync + sync }
  | some n =>
    let e := min 255 (d.get SDS_MARGIN_STAT_ERRS o + corr + sync + err)
    let d := d.put SDS_MARGIN_STAT_ERRS o e
    if e ≥ max 1 n then d.marginAbort o [l] else d

/-- The negotiated width and rate of port p are known; a first negotiation counts as a change (R297). (DEDUCED, log entry 100) -/
def Dev.noteBr (d : Dev) (p width rate : Nat) : Dev :=
  let e := d.egress p
  let br := 16 * width + rate
  let d1 := d.setEgress p { e with lastBr := br }
  if e.lastBr ≠ br then (d1.put GTE_CFG_FIT_ACT p 1).raise GTE_F_FIT_ENTERED p else d1

/-! ## Dunrun link states (Table 5-6) -/

def Dev.fieldsInit (d : Dev) (k : Nat) : Nat :=
  d.myId * 2 ^ 8 + d.lkOctet k * 2 ^ 12 + d.get DRL_CFG_NVC k * 2 ^ 18 + d.get DRL_CFG_ENC_REQ k * 2 ^ 21
    + d.get DEV_FABRIC_FABRIC_EN * 2 ^ 22

/-- INIT (0) or INIT_ACK (1) sent. -/
def Dev.sendInit (d : Dev) (k sub : Nat) : Dev := d.sendPkt k (ctlPacket 0xA sub (d.fieldsInit k))

/-- Link k goes to DOWN (R167, R200). -/
def Dev.linkDownEv (d : Dev) (k : Nat) : Dev :=
  if d.lkState k = lkDown then d
  else (d.linkToDown k).raiseDue.trackCheck

/-- Sequence, credit and withdrawal state start anew (Table 5-6, row INIT). -/
def Dev.seqReset (d : Dev) (k : Nat) : Dev :=
  let d := (d.setTx k 0 0).put DRL_SEQ_RX_EXPECT k 0
  let cum : SMap Nat := (List.range (d.nvc k)).foldl (fun m v => SMap.set 0 m v (d.vcSize k v)) []
  d.modLink k fun l =>
    { l with replay := [], replays := 0, sent := [], limit := [], cum := cum, freed := [], consumed := none, nakOut := false,
             accSinceAck := 0, withdrawn := [], openMsg := false, stall := [], skip := 0, session := l.session + 1 }

/-- DOWN to INIT. -/
def Dev.initEnter (d : Dev) (k : Nat) : Dev :=
  (((d.seqReset k).modLink k fun l => { l.cut with mismatch := false, macSeen := false, parseLost := false, segHold := [], acc := [] }).put
    DRL_STAT_STATE k lkInit).sendInit k 0

/-- The initial CREDIT of every VC (Table 5-6, row ACTIVE). -/
def Dev.initCredit (d : Dev) (k : Nat) : Dev := (List.range (d.nvc k)).foldl (fun d v => d.sendCredit k v) d

/-- The link becomes ACTIVE from INIT or KEYWAIT: initial CREDIT for every VC. -/
def Dev.activeEnter (d : Dev) (k : Nat) : Dev :=
  let d := (d.put DRL_STAT_STATE k lkActive).put DRL_STAT_ENC k (d.get DRL_CFG_ENC_REQ k)
  let d := d.put DRL_STAT_WIDTH k (d.get SDS_STAT_WIDTH_A (d.lkOctet k))
  (d.initCredit k).trackCheck

/-- KEYWAIT ends when the active slot's keys are valid and a MAC has been verified. -/
def Dev.keyTry (d : Dev) (k : Nat) : Dev :=
  let v := if d.on DRL_SEC_ACT_SLOT k then d.on DRL_SEC_VALID1 k else d.on DRL_SEC_VALID0 k
  if d.lkState k = lkKeywait && v && (d.link k).freshKeys && (d.link k).macSeen then d.activeEnter k else d

/-! ## Octet states (Tables 3-4, 3-10) -/

def Dev.octState (d : Dev) (o : Nat) : Nat := d.get SDS_STAT_STATE_A o

/-- The Dunrun octet takes a training state; its link follows (Table 5-6). -/
def Dev.drState (d : Dev) (o st : Nat) : Dev :=
  let d := d.put SDS_STAT_STATE_A o st
  match d.linkOf o with
  | none => d
  | some k =>
    if st = tsDrRetrain then
      if d.lkState k = lkActive then
        ((d.put DRL_STAT_STATE k lkRetrain).modLink k fun l =>
          { l.cut with parseLost := true }).trackCheck
      else d
    else if st = tsDrActive then
      let d := d.modLink k Link.blocksAnew
      if d.lkState k = lkRetrain then
        let d := (d.put DRL_STAT_STATE k lkActive).put DRL_STAT_WIDTH k (d.get SDS_STAT_WIDTH_A o)
        ((d.initCredit k).sendNak k).trackCheck
      else d
    else if st = tsDrAlign then d
    else d.linkDownEv k

/-- A lane that hunts anew, or trains anew. -/
def Lane.unlocked (x : Lane) : Lane :=
  { x with laneId := none, req := none, ansSeq := none, rxDone := false, partnerDone := false, run := 0, hist := [] }

/-- Lock of every lane is gone, and the partner's locks are unknown. -/
def Dev.unlockAll (d : Dev) (o : Nat) : Dev :=
  let d := (List.range 9).foldl (fun d l => (d.put SDS_LANE_LOCK o 0 l).modLane o l Lane.unlocked) d
  d.setOctet o { d.octet o with lockMask := 0 }

/-- Preset D0 to D7 (Table 3-6). (DESIGN CHOICE, log entry 83) -/
def drPreset (i : Nat) : Taps :=
  match i with
  | 0 => ⟨0, 0, 0, 0⟩ | 1 => ⟨0, 0, -8, 0⟩ | 2 => ⟨0, -4, -8, 0⟩ | 3 => ⟨0, -8, -8, 0⟩ | 4 => ⟨0, -4, -12, 0⟩
  | 5 => ⟨2, -8, -12, 0⟩ | 6 => ⟨2, -10, -12, 2⟩ | _ => ⟨0, 0, -16, 0⟩

/-- Cached taps of a lane (R98). -/
def Dev.cachedTaps (d : Dev) (o l : Nat) : Option Taps :=
  if d.on SDS_EQ_CACHE_DVALID o l then
    some ⟨toSigned 6 (d.get SDS_EQ_CACHE_CM2 o l), toSigned 6 (d.get SDS_EQ_CACHE_CM1 o l),
      toSigned 6 (d.get SDS_EQ_CACHE_CP1 o l), toSigned 6 (d.get SDS_EQ_CACHE_CP2 o l)⟩
  else none

/-- Training starts from the cached taps and receiver settings of lanes with DVALID set, or from D3 and the receiver's
defaults (R98, R117). -/
def Dev.startTaps (d : Dev) (o : Nat) (cached tx : Bool) : Dev :=
  (List.range 9).foldl (fun d l =>
    let c := if cached then d.cachedTaps o l else none
    d.modLane o l fun x =>
      { x with tx := if tx then drPreset 3 else x.tx, partner := c.getD (drPreset 3), rx := if c.isSome then SMap.get 0 x.rxSet 3 else 0 }) d

/-- DR_LOCK: every lane sends training blocks and hunts. Every DR_LOCK since a Warm or Control reset counts as a training
after that reset. (DESIGN CHOICE, log entry 116) -/
def Dev.enterDrLock (d : Dev) (o : Nat) : Dev :=
  let d := (d.drState o tsDrLock).marginAbort o (List.range 9)
  ((d.setLanes o (List.range 9) psActive).unlockAll o).startTaps o (d.rst.kind ≠ .cold) true

/-- FAILED: from CAL the transmitters are in electrical idle, else they send training blocks at D3. (DESIGN CHOICE, log entry 87) -/
def Dev.enterFailed (d : Dev) (o : Nat) (cal : Bool) (s : FSrc) : Dev :=
  let d := (d.drState o tsFailed).marginAbort o (List.range 9)
  let d := if d.get SDS_STAT_STATE_B o = tsCal then d.put SDS_STAT_STATE_B o tsFailed else d
  let d := d.setOctet o { d.octet o with failedCal := cal, trainRetry := false }
  let d := if cal then d.setLanes o (List.range 9) psOff else (d.setLanes o (List.range 9) psActive).startTaps o false true
  d.raise s o

/-- What a reset of the octet leaves of it: with `cal`, that it has calibrated; the receiver settings cached on its lanes, which
stay with their SDS_EQ_CACHE entries (R86, R88). -/
def Octet.kept (x : Octet) (cal : Bool) : Octet :=
  { lanes := x.lanes.foldl (fun m e => SMap.set {} m e.1 { rxSet := e.2.rxSet }) [],
    calibrated := cal && x.calibrated, pllLost := cal && x.pllLost }

/-- Calibration begins. -/
def Dev.enterCal (d : Dev) (o : Nat) : Dev :=
  let d := (d.drState o tsCal).put SDS_STAT_STATE_B o (if d.octMode o = 1 && d.octForm o = 0 then tsCal else 0)
  let d := (((d.put SDS_STAT_RATE_A o 0).put SDS_STAT_RATE_B o 0).put SDS_STAT_WIDTH_A o 0).put SDS_STAT_WIDTH_B o 0
  let d := (d.put SDS_STAT_SPARE_IN_USE o 0).put SDS_STAT_PLL_LOCK o 1
  let d := (List.range 9).foldl (fun d l => ((d.put SDS_LANE_POL_INV o 0 l).put SDS_LANE_LOGICAL o 0xF l).put SDS_LANE_SPARE o 0 l) d
  let d := ((d.marginAbort o (List.range 9)).setLanes o (List.range 9) psOff).unlockAll o
  d.setOctet o { d.octet o with calibrated := false, failedCal := false, trainRetry := false, pllLost := false }

/-- A commit or a start-up calls for calibration: at once, or, while the chiplet's PLL is lost, once it locks again (R81, R82). -/
def Dev.recal (d : Dev) (o : Nat) : Dev := if (d.octet o).pllLost then d else d.enterCal o

/-- The octet has left CAL: its ports wait in HOLD. Of an x16 port the other octet keeps its own state (R75). -/
def Dev.calHold (d : Dev) (o : Nat) : Dev :=
  let d := if d.octState o = tsCal then d.put SDS_STAT_STATE_A o tsHold else d
  if d.get SDS_STAT_STATE_B o = tsCal then d.put SDS_STAT_STATE_B o tsHold else d

/-- The octet goes on from calibration in its mode (R75, R81, Tables 2-7 and 3-4). -/
def Dev.octetGo (d : Dev) (o : Nat) : Dev :=
  if !d.on (PGCTL_ENABLE .sds) o then ((d.put SDS_STAT_STATE_A o tsOff).put SDS_STAT_STATE_B o tsOff).setLanes o (List.range 9) psOff
  else if d.quarantined (.octet o) || d.quarantined (.slice (o / 4)) then d.put SDS_STAT_STATE_A o tsHold
  else if d.octMode o = 2 then d.enterDrLock o
  else if d.octMode o = 1 then
    if d.octForm o = 2 && !d.x16 o then (d.put SDS_STAT_STATE_A o tsHold).raise SDS_F_PAIR_MISMATCH o
    else (d.octPorts o).foldl (fun d p => d.trainStart p) (d.calHold o)
  else d.put SDS_STAT_STATE_A o tsOff

/-- The other octet of an x16 pair. -/
def pairOf (o : Nat) : Nat := if o % 2 = 0 then o + 1 else o - 1

/-- Octet o has changed: its x16 partner, in service, goes on under the pair's new form (R75). `was`: the two had formed a
port. -/
def Dev.pairGo (d : Dev) (o : Nat) (was : Bool) : Dev :=
  let q := pairOf o
  if (was || (d.octMode q = 1 && d.octForm q = 2)) && (d.octet q).calibrated && d.on (PGCTL_ENABLE .sds) q then d.octetGo q else d

/-- A port of an octet that goes down reports its own link-down (R23, R76). -/
def Dev.portLost (d : Dev) (p : Nat) : Dev :=
  if d.portDunrun p then match d.linkOf (p / 2) with | some k => d.linkDownEv k | none => d
  else if d.on PRT_STAT_DL_ACTIVE p && !(d.port p).resetting then (d.marginPort p).portLinkDown p
  else (d.linkStop p tsHold).raiseDue

/-- R82: octet o loses its chiplet's PLL. (DESIGN CHOICE, log entry 84) -/
def Dev.octetPllLoss (d : Dev) (o : Nat) : Dev :=
  let d := (d.octPorts o).foldl (fun d p => d.portLost p) d
  let d := (d.drState o tsHold).put SDS_STAT_STATE_B o (if d.octForm o = 0 && d.octMode o = 1 then tsHold else 0)
  let d := ((d.setLanes o (List.range 9) psOff).unlockAll o).put SDS_STAT_PLL_LOCK o 0
  let d := d.setOctet o { d.octet o with pllLost := true, calibrated := false }
  (d.raise SDS_F_PLL_UNLOCK o).persist SDS_F_PLL_UNLOCK o true

/-- DR_ACTIVE to DR_RETRAIN: every lane sends training blocks and relocks, from its cached taps (R98, R114, Table 3-4). -/
def Dev.drRetrain (d : Dev) (o : Nat) : Dev :=
  if d.octState o ≠ tsDrActive then d
  else
    let d := (d.marginAbort o (List.range 9)).drState o tsDrRetrain
    ((d.setLanes o (List.range 9) psActive).unlockAll o).startTaps o true false

/-! ## Sparing (R111 to R113, R180 to R182) -/

/-- The swap cannot be made: the octet retrains (R182). -/
def Dev.spareFail (d : Dev) (k : Nat) : Dev :=
  ((d.modLink k fun l => { l with spare := none, spareMore := [] }).raise DRL_F_SPARE_FAIL k).drRetrain (d.lkOctet k)

/-- The receiver asks for logical lane `lane` to be spared: the first lane takes the spare, a further one asks behind it and
is answered NACK (R113, R180, R182). -/
def Dev.spareAsk (d : Dev) (o lane : Nat) : Dev :=
  match d.linkOf o with
  | none => d
  | some k =>
    if d.lkState k ≠ lkActive then d
    else
      let t := (d.link k).spareTrans
      let x : Spare := { lane := lane, trans := t }
      (d.modLink k fun l => { l with spare := if l.spare.isSome then l.spare else some x,
                                     spareMore := if l.spare.isSome then l.spareMore ++ [x] else l.spareMore,
                                     spareTrans := (t + 1) % 16 }).sendPkt k (pktSpare 0 lane 0 t)

/-- A data lane of a Dunrun octet in service. -/
def Dev.dataLane (d : Dev) (o l : Nat) : Bool :=
  d.get SDS_LANE_LOGICAL o l < d.get SDS_STAT_WIDTH_A o && !d.on SDS_LANE_SPARE o l && d.get SDS_LANE_PSTATE o l = psActive

/-- Octet in DR_ACTIVE: a lane degraded or failed leaves service; a data lane asks for the spare (R111), the spare loses its
role (R112). -/
def Dev.laneOut (d : Dev) (o l : Nat) (s : FSrc) : Dev :=
  let d := d.raise s o
  if d.octState o ≠ tsDrActive || (d.lane o l).outOfService then d
  else
    let d := d.modLane o l fun x => { x with outOfService := true }
    if d.on SDS_LANE_SPARE o l then
      (((d.put SDS_LANE_SPARE o 0 l).put SDS_LANE_LOGICAL o 0xF l).put SDS_STAT_SPARE_IN_USE o 1).put SDS_LANE_PSTATE o psOff l
    else if d.dataLane o l then d.spareAsk o (d.get SDS_LANE_LOGICAL o l)
    else d

/-- A lane has lost lock or signal (R110). (DESIGN CHOICE, log entry 87) -/
def Dev.laneFail (d : Dev) (o l : Nat) : Dev :=
  ((d.put SDS_HEALTH_FAILED o 1 l).marginAbort o [l]).laneOut o l SDS_F_LANE_FAILED

/-- Lock is lost: in DR_ACTIVE the lane has failed, and with no lane locked the octet starts again; elsewhere it hunts on
(R103, R110). -/
def Dev.lockLost (d : Dev) (o lane : Nat) : Dev :=
  let d := ((d.put SDS_LANE_LOCK o 0 lane).modLane o lane fun x => { x with run := 0, hist := [] }).marginAbort o [lane]
  if d.octState o ≠ tsDrActive then d.put SDS_HEALTH_FAILED o 1 lane
  else
    let d := d.raise SDS_F_LOCK_LOST o
    if (List.range 9).all fun l => !d.on SDS_LANE_LOCK o l then ((d.put SDS_HEALTH_FAILED o 1 lane).raise SDS_F_LANE_FAILED o).enterDrLock o
    else d.laneFail o lane

/-- Valid headers of a lane: normal ones, or, on a lane that has locked inverted, the inverted images (R99, R157). -/
def Dev.hdrOk (d : Dev) (o l h : Nat) : Bool :=
  if d.on SDS_LANE_POL_INV o l then syncOk (invertHdr h) else syncOk h

/-- A block's header on a locked lane: 8 invalid ones within 64 consecutive blocks lose lock (R103). -/
def Dev.laneHeader (d : Dev) (o lane h : Nat) : Dev :=
  let bad := !d.hdrOk o lane h
  let hist := (bad :: (d.lane o lane).hist).take 64
  let d := d.modLane o lane fun x => { x with hist := hist }
  if bad && (hist.filter id).length ≥ 8 then d.lockLost o lane else d

/-! ## Answers a partner gives -/

/-- Answer operations of a partner to a request this device sent. -/
def rspOp (o : MOp) : Option MOp :=
  match o with
  | .tgtData | .cplData | .ioCpl => some .tgtData
  | .tgtDone | .cplDone => some .tgtDone
  | .tgtFail | .cplFail | .ioUr => some .tgtFail
  | _ => none

end Sys2Proof.Machine
end

