-- ==== Sys2Proof/Machine/CxlPort.lean ====
section
/-! DEFINITION. Commands of the CXL ports (chapter 4). -/

namespace Sys2Proof.Machine

def Dev.cxlPort (d : Dev) (p : Nat) : Bool := (d.isUp p || d.isDown p) && d.portAvail p && !d.halted

/-! ## Lanes of a CXL port (R74, R90, R115) -/

/-- The lanes of port p in the order of Table 3-1: octet and physical lane. -/
def Dev.laneMap (d : Dev) (p : Nat) : List (Nat × Nat) :=
  (d.portOctets p).flatMap fun o => (d.portLanes p o).map fun l => (o, l)

/-- The block of `w` lanes, all good, at one end of the port; where both ends would do, at the low one (R90). (DESIGN CHOICE, log entry 115) -/
def pickLanes (good : List Bool) (w : Nat) : Option (List Nat) :=
  let n := good.length
  let ok (l : List Nat) : Bool := l.all fun i => good.getD i false
  let lo := List.range w
  let hi := (List.range w).map (n - w + ·)
  if w > n then none else if ok lo then some lo else if ok hi then some hi else none

/-- The width a port's good lanes support (R90); none without a good lane. -/
def widest (good : List Bool) : Option Nat := [16, 8, 4, 2, 1].find? fun w => (pickLanes good w).isSome

/-- Lanes of a port that may be used: present, neither failed, nor out of service, nor forced OFF (R115). -/
def Dev.goodLanes (d : Dev) (p : Nat) : List Bool :=
  (d.laneMap p).map fun (ol : Nat × Nat) =>
    d.on SDS_LANE_PRESENT ol.1 ol.2 && !d.on SDS_HEALTH_FAILED ol.1 ol.2 && !(d.lane ol.1 ol.2).outOfService && !d.laneOff ol.1 ol.2

/-- The port enters Recovery (R148): its queues stay. -/
def Dev.toRecovery (d : Dev) (p : Nat) : Dev :=
  if d.cxlPort p && [tsL0, tsL0p, tsL1].contains (d.portState p) then (d.marginPort p).setPortState p tsRecovery else d

/-- The port goes on without the lanes that are no longer good (R90). -/
def Dev.narrow (d : Dev) (p : Nat) : Dev :=
  match widest (d.goodLanes p) with
  | none => (d.marginPort p).portLinkDown p
  | some w =>
    let d := d.toRecovery p
    let w := min w (d.get (widthFld p) (p / 2))
    let d := (d.portOctets p).foldl (fun d o => d.put (widthFld p) o w) d
    d.noteBr p w (d.get (rateFld p) (p / 2))

/-- A lane is lost: octet and physical lane. -/
def Dev.laneGone (d : Dev) (ol : Nat × Nat) : Dev :=
  let d := ((d.put SDS_LANE_LOCK ol.1 0 ol.2).put SDS_LANE_PRESENT ol.1 0 ol.2).marginAbort ol.1 [ol.2]
  ((d.put SDS_HEALTH_FAILED ol.1 1 ol.2).modLane ol.1 ol.2 fun x => { x with outOfService := true }).raise SDS_F_LANE_FAILED ol.1

/-! ## Negotiation (R123 to R128) -/

/-- What a partner offers: bit 0 CXL, 1 CXL.mem, 2 CXL.cache, 3 latency-optimised, 4 standard and 5 68-byte flits, 6 MLD,
7 HDM-DB, 8 restricted CXL device mode or HDM-D, 13:9 LD count. -/
def offers (partner i : Nat) : Bool := bit partner i

/-- CXL.cache is advertised (R123). -/
def Dev.advCache (d : Dev) (p : Nat) : Bool :=
  if d.isUp p then (List.range 128).any fun q => d.isDown q && d.on PRT_CFG_CACHE_EN q && (List.range 16).any fun l => (d.bindingsOf ⟨d.myId, false, q, l⟩).any (·.1 = p)
  else d.on PRT_CFG_CACHE_EN p

/-- Flit mode both ends support, in the order of R124: 3, 2, 1, or 0. -/
def Dev.flitMode (d : Dev) (p partner : Nat) : Nat :=
  if d.on PRT_CFG_LOPT_EN p && offers partner 3 then 3
  else if offers partner 4 then 2
  else if d.on PRT_CFG_FLIT68_EN p && offers partner 5 then 1
  else 0

/-- The protocols and facts of a link. -/
def Dev.putLink (d : Dev) (p : Nat) (mem cache : Bool) (flit : Nat) (mld : Bool) (lds : Nat) (pcie : Bool) : Dev :=
  let d := ((d.put PRT_STAT_IO p 1).put PRT_STAT_MEM p (b2n mem)).put PRT_STAT_CACHE p (b2n cache)
  let d := ((d.put PRT_STAT_FLIT p flit).put PRT_STAT_MLD p (b2n mld)).put PRT_STAT_NUM_LD p (min 16 lds)
  d.put PRT_STAT_PCIE_ONLY p (b2n pcie)

/-- Another port of a VCS in which p is bound has CXL.cache (R126). -/
def Dev.cacheTaken (d : Dev) (p : Nat) : Bool :=
  let vs := (d.portTgts p).flatMap fun t => (d.bindingsOf t).map Prod.fst
  (List.range 128).any fun q => q ≠ p && d.isDown q && d.on PRT_STAT_CACHE q &&
    (d.portTgts q).any fun t => (d.bindingsOf t).any fun uv => vs.contains uv.1

/-- The link is held in Configuration, its transmitters in electrical idle, and the partner reported (R124, R125, R128). (DESIGN CHOICE, log entry 98) -/
def Dev.refusePartner (d : Dev) (p : Nat) : Dev :=
  let d := (d.portOctets p).foldl (fun d o => d.setLanes o (d.portLanes p o) psOff) d
  ((d.setPortState p tsConfig).modPort p fun x => { x with negFail := true }).raise PRT_F_NEGOTIATION p

/-- R123 to R128: the partner's offers are known; of two ports of one VCS with CACHE_EN, the first to negotiate CXL.cache has it
(R126). (DESIGN CHOICE, log entry 98) -/
def Dev.protocolNegotiationRow (d : Dev) (p partner : Nat) : Dev :=
  if !d.cxlPort p || !(List.contains [tsDetect, tsPolling, tsConfig] (d.portState p)) then d
  else if !offers partner 0 then
    if d.isDown p && d.on PRT_CFG_PCIE_OK p then
      ((d.setPortState p tsConfig).modPort p fun x => { x with negFail := false, hdmDb := false }).putLink p false false 0 false 0 true
    else d.refusePartner p
  else if offers partner 8 || (offers partner 6 && (d.isUp p || !d.on PRT_CFG_MLD_EN p)) || d.flitMode p partner = 0 then
    d.refusePartner p
  else
    let mem := offers partner 1 && (d.isUp p || d.on PRT_CFG_MEM_EN p)
    let mld := offers partner 6
    ((d.setPortState p tsConfig).modPort p fun x => { x with negFail := false, hdmDb := offers partner 7 && mem }).putLink p mem
      (offers partner 2 && d.advCache p && !(d.isDown p && d.cacheTaken p)) (d.flitMode p partner) mld (if mld then partner / 512 % 32 else 0) false

/-! ## Ingress (R130 to R139) -/

/-- The link carries messages: up, and secure where IDE is required. -/
def Dev.carries (d : Dev) (p : Nat) : Bool :=
  d.cxlPort p && d.on PRT_STAT_DL_ACTIVE p && (d.portState p = tsL0 || d.portState p = tsL0p) && !(d.port p).insecure &&
    (!d.on PRT_CFG_IDE_REQ p || d.on PRT_STAT_IDE_ACT p)

/-- Class of a completion as it enters the core on port p, and its TC (Table 8-1). -/
def Dev.tcIn (d : Dev) (p cls : Nat) (b : Body) : Nat := if cls ≤ 2 then b.tc % 8 else bits (d.word POL_TCMAP p) (3 * cls) 3

/-- A completion arrives: it ends the request it names, or is late (R152). -/
def Dev.completionIn (d : Dev) (p : Nat) (b : Body) (op : MOp) (poison : Bool) : Dev :=
  match (d.port p).outst.find? (·.tag = b.tag) with
  | some o =>
    let d := d.modPort p fun x => { x with outst := x.outst.erase o }
    let tc := d.tcIn p (opCls b.op (d.isUp p)) b
    (match o.m.home with
    | some h =>
      d.pushRel { o.m with cls := if op = .tgtData then 0x6 else 0x5, src := p, srcG := d.myId * 128 + p, int := true,
                           dst := d.myId * 128 + h, ready := true, poison := poison, tp := none, stream := false, epoch := d.epoch,
                           tc := tc, colour := d.preColour p tc, body := { o.m.body with op := op, data := b.data } }
    | none => d.endAsk p { o.m with tc := tc } op b.data poison 1)
  | none =>
    (d.modPort p fun x => { x with lateTags := x.lateTags.erase b.tag }).inc PRT_DROP_LATE p

/-- A message is released to the core (R131, R135, R270, R271). (DESIGN CHOICE, log entry 101) -/
def Dev.release (d : Dev) (p : Nat) (b : Body) (poison : Bool) : Dev :=
  let cls := opCls b.op (d.isUp p)
  let m : Msg := { cls := cls, src := p, srcG := d.myId * 128 + p, poison := poison, body := b }
  let d := (d.count .prt p 0x200).count .prt p 0x202 m.bytes
  let d := if poison then d.raise PRT_F_POISON_RX p (d.portWho p) else d
  match rspOp b.op with
  | some op => d.completionIn p b op poison
  | none =>
    if (d.port p).resetting && !([MOp.ansI, .ansS, .ansE].contains b.op) then d
    else
      let tc := d.tcIn p cls b
      d.pushRel { m with tc := tc, colour := d.preColour p tc, ts := d.fab % 2 ^ 32 }

/-- Max_Payload_Size that binds a TLP received on port p: 512 bytes, or what the vPPB that the DOWNSTREAM port is bound to is
programmed with (R130). (PRESUMED, log entry 31) -/
def Dev.maxPayload (d : Dev) (p ld : Nat) : Nat :=
  match (if d.isDown p then (d.bindingsOf ⟨d.myId, false, p, ld⟩).head? else none) with
  | some (u, v) => min 512 (128 * 2 ^ bits (BitVec.ofNat 64 (d.devCtl u v).toNat) 5 3)
  | none => 512

/-- A TLP. -/
def tlpOp (o : MOp) : Bool := ioOp o || cfgOp o || List.contains [MOp.ioMsg, .ioCpl, .ioUr, .uio] o

/-- Malformed: payload or header beyond the limits, an unordered I/O request, or as the receiver finds it (R129, R130). -/
def Dev.malformed (d : Dev) (p : Nat) (x : FlitPart) : Bool :=
  x.malformed || x.body.op = .uio || x.body.hdrLen > 84 || x.body.data.length > 512 ||
    (tlpOp x.body.op && x.body.data.length > d.maxPayload p x.body.ld)

/-- A message whose parts are joined: the content in order, its poison and its faults kept (R131, R135). -/
def joinPart (a b : FlitPart) : FlitPart :=
  { body := { a.body with data := a.body.data ++ b.body.data }, poison := a.poison || b.poison, malformed := a.malformed || b.malformed }

/-- Messages a good flit completes, and what is left of one still to come (R131). -/
def joinParts (held : List FlitPart) (f : Flit) : List FlitPart × List FlitPart :=
  let l := match held, f.parts with
    | h :: _, b :: r => joinPart h b :: r
    | _, ps => ps
  if f.complete then (l, []) else (l.dropLast, l.getLast?.toList)

/-- The stream is insecure (R138). -/
def Dev.ideFail (d : Dev) (p : Nat) : Dev :=
  let d := d.modPort p fun x => { x with macWait := [], macFlits := 0, parts := [], insecure := true }
  ((d.put PRT_STAT_IDE_ACT p 0).put PRT_IDE_SECURE p 0).raise PRT_F_IDE_FAIL p (d.portWho p)

/-- One malformed message is discarded before release (R130). -/
def Dev.dropMalformed (d : Dev) (p : Nat) : Dev := (d.inc PRT_DROP_MALFORMED p).raise PRT_F_MALFORMED p (d.portWho p)

/-- Messages complete: each is released, or held for its MAC, a malformed one discarded (R130, R137). A half counts with its flit
toward the flits of one MAC. (DESIGN CHOICE, log entry 101) -/
def Dev.complete (d : Dev) (p : Nat) (l : List FlitPart) (f : Flit) : Dev :=
  let ok := l.filter fun x => !d.malformed p x
  let d := (l.filter (d.malformed p)).foldl (fun d _ => d.dropMalformed p) d
  let bad := (ok.filter fun x => x.body.ecrc = some false).length
  let d := if bad = 0 then d else d.modPort p fun x => { x with ecrcBad := x.ecrcBad + bad }
  if !d.on PRT_STAT_IDE_ACT p then ok.foldl (fun d x => d.release p x.body x.poison) d
  else
    let n := (d.port p).macFlits + (if f.half = 1 then 0 else 1)
    let w := (d.port p).macWait ++ ok.map fun x => ({ poison := x.poison, body := x.body } : Msg)
    match f.mac with
    | none =>
      if f.half ≠ 1 && n ≥ d.get PRT_IDE_AGG p then d.ideFail p
      else d.modPort p fun x => { x with macWait := w, macFlits := n }
    | some true => w.foldl (fun d m => d.release p m.body m.poison) (d.modPort p fun x => { x with macWait := [], macFlits := 0 })
    | some false => d.ideFail p

/-- Corrections and framing errors of a flit count on its lanes: FEC bytes at 64 and 128 GT/s, block framing below (R110). -/
def Dev.flitLanes (d : Dev) (p : Nat) (f : Flit) : Dev :=
  let ls := d.laneMap p
  let fec := d.get (rateFld p) (p / 2) ≥ 6
  let hit (d : Dev) (i : Nat) : Dev := match ls[i]? with
    | some (o, l) => if fec then d.laneCounts o l 1 0 0 else d.laneCounts o l 0 1 0
    | none => d
  (if fec then f.corr else f.sync).foldl hit d

/-- The flit, or half, is the one the receiver awaits: a first half is taken once, a second after its first. -/
def Port.awaits (x : Port) (f : Flit) : Bool :=
  f.seq = x.rxNext && (f.half = 0 && !x.rxHalf || f.half = 1 && !x.rxHalf || f.half = 2 && x.rxHalf)

/-- A good flit, or half, is taken: its messages go on (R131, R132). -/
def Dev.flitGood (d : Dev) (p : Nat) (f : Flit) : Dev :=
  let j := joinParts (d.port p).parts f
  let d := d.modPort p fun x =>
    { x with rxNext := if f.half = 1 then x.rxNext else (x.rxNext + 1) % 1024, rxHalf := f.half = 1, rxHold := false, parts := j.2, dry := f.dry }
  d.complete p j.1 f

/-- A flit, or half, has failed its check: it and each later one are discarded until the replayed copy (R133). -/
def Dev.flitBad (d : Dev) (p : Nat) : Dev :=
  let d := (d.modPort p fun x => { x with rxHold := true }).emit (.flitNak p (d.port p).rxNext)
  d.raise PRT_F_FLIT_ERR p (d.portWho p)

/-- R131 to R139: a flit, or in latency-optimised mode a flit half, arrives. (DESIGN CHOICE, log entry 101) -/
def Dev.flitReceiveRow (d : Dev) (p : Nat) (f : Flit) : Dev :=
  if !d.carries p || (f.half ≠ 0 && d.get PRT_STAT_FLIT p ≠ 3) then d
  else
    let d := d.flitLanes p f
    let x := d.port p
    if !d.carries p || (x.rxHold && f.seq ≠ x.rxNext) then d
    else if !f.crcOk then d.flitBad p
    else if !x.awaits f then d
    else d.flitGood p f

/-! ## GPF (R140, R141, R147) -/

/-- Ports of other devices bound in VCS u, by global port ID. -/
def Dev.vcsRemote (d : Dev) (u : Nat) : List Tgt :=
  ((List.range 128).filterMap fun v => (d.bindNow u v).tgt.filter fun t => t.dev ≠ d.myId && !t.larder).dedup

/-- Local DOWNSTREAM ports bound in VCS u whose links are active: one that is down has nothing to answer. (DESIGN CHOICE, log entry 99) -/
def Dev.vcsPorts (d : Dev) (u : Nat) : List Nat :=
  ((List.range 128).filterMap fun v => match (d.bindNow u v).tgt with
    | some t => if t.dev = d.myId && !t.larder && d.on PRT_STAT_DL_ACTIVE t.port then some t.port else none
    | none => none).dedup

/-- Nothing that host u wrote to a persistent region is still on its way (R140). -/
def Dev.persDone (d : Dev) (u : Nat) : Bool :=
  let mine (m : Msg) : Bool := m.attrP && m.vcs = u
  !(d.coh.tray.any fun e => mine e.m) && !(d.coh.cmb.any fun c => mine c.m) &&
    !((List.range 16).any fun s => (d.sccOf s).any fun l => l.dirty && l.p && l.domain = d.portDomain u) &&
    (List.range 16).all fun s => (d.home s).wrPend.isEmpty && (d.home s).wrHold.isEmpty

/-- Combining entries and dirty persistent lines of host u go to their targets. -/
def Dev.persFlush (d : Dev) (u : Nat) : Dev :=
  let d := (d.coh.cmb.filter fun c => c.m.attrP && c.m.vcs = u).foldl (fun d c => d.flushCmb c) d
  ((List.range 16).flatMap d.sccOf).foldl (fun d l =>
    if l.dirty && l.p && l.domain = d.portDomain u && !d.lineBusy l.tk l.h then d.sccVictim l true devDomain else d) d

/-- The phase of UPSTREAM port u ends; a hot reset received during it follows without an answer (R147). (DESIGN CHOICE, log entry 99) -/
def Dev.gpfEnd (d : Dev) (u : Nat) (g : Gpf) (ok : Bool) : Dev :=
  let hot := (d.port u).hotAfterGpf
  let d := d.modPort u fun x => { x with gpf := none, hotAfterGpf := false }
  if hot then d.hostReset u 5
  else
    let d := d.emit (.gpf u g.phase ok)
    d.put (if g.phase = 1 then PRT_GPF_PH1_DONE else PRT_GPF_PH2_DONE) u 1

/-- The GPF phase of UPSTREAM port u ends once every answer is in (R140). (DESIGN CHOICE, log entry 99) -/
def Dev.gpfTry (d : Dev) (u : Nat) : Dev :=
  match (d.port u).gpf with
  | some g => if g.ports.isEmpty && g.remote.isEmpty && g.lds.isEmpty && (g.phase = 1 || d.persDone u) then d.gpfEnd u g true else d
  | none => d

/-- A phase goes out on DOWNSTREAM port q, to be answered to `u`: an UPSTREAM port, 128 for Proof, or 256 and, for one on another
device, its global port ID + 2048 × the traffic class of its request. -/
def Dev.gpfIssue (d : Dev) (q phase u : Nat) : Dev :=
  (d.emit (.gpf q phase true)).modPort q fun x => { x with gpfAsk := x.gpfAsk ++ [(phase, u)] }

/-- R140: UPSTREAM port p receives a GPF phase. (DESIGN CHOICE, log entry 99) -/
def Dev.gpfPhaseRow (d : Dev) (p phase : Nat) : Dev :=
  if !d.carries p || !d.isUp p || (phase ≠ 1 && phase ≠ 2) || (d.port p).gpf.isSome then d
  else if d.flushing then
    -- R542: answered with the outcome of the device's own phase
    let d := d.modPort p fun x => { x with gpf := some { phase := phase, ports := [], lds := [16] } }
    if phase = 1 && d.prf.phase = 3 then d.gpfEnd p { phase := 1, ports := [], lds := [] } true else d
  else
    let qs := d.vcsPorts p
    let ts := d.vcsRemote p
    let d := d.modPort p fun x => { x with gpf := some { phase := phase, ports := qs, remote := ts.map fun t => t.dev * 128 + t.port, lds := [] } }
    let d := qs.foldl (fun d q => d.gpfIssue q phase p) d
    let d := ts.foldl (fun d t => d.toRemote p t { op := .gpfAsk, arg := phase, ld := t.ld }) d
    if phase = 2 then d.persFlush p else d

/-- The answer to a phase goes back to UPSTREAM port `g` of another device, in class 0x2 and the traffic class `tc` of what it
answers. (DESIGN CHOICE, log entry 99) -/
def Dev.gpfReply (d : Dev) (p g tc : Nat) : Dev :=
  let s := portSlice p
  d.pushRel { cls := 0x2, src := 128 + s, srcG := d.myId * 128 + 8 * s, dst := g, ready := true, domain := d.portDomain p, tc := tc,
              ts := d.fab % 2 ^ 32, epoch := d.epoch, body := { op := .gpfAns, agent := p } }

/-- R140: the partner of DOWNSTREAM port p answers the oldest phase sent to it; at UPSTREAM port p, the host is answered
once every answer is in and, for phase 2, persistence is reached. (DESIGN CHOICE, log entry 99) -/
def Dev.gpfAnswerRow (d : Dev) (p : Nat) : Dev :=
  if d.halted then d
  else if d.isDown p then
    match (d.port p).gpfAsk with
    | [] => d
    | (_, u) :: r =>
      let d := d.modPort p fun x => { x with gpfAsk := r }
      if u ≥ 256 then d.gpfReply p ((u - 256) % 2048) ((u - 256) / 2048)
      else if u ≥ 128 then { d with prf := { d.prf with waitPorts := d.prf.waitPorts.filter (· ≠ p) } }
      else (d.modPort u fun x => { x with gpf := x.gpf.map fun g => { g with ports := g.ports.filter (· ≠ p) } }).gpfTry u
  else d.gpfTry p

/-- The local ports that have not answered raise GPF_FAIL, and the host is told; PH1_DONE and PH2_DONE keep their values, the phase
having failed. (DESIGN CHOICE, log entry 99) -/
def Dev.gpfExpire (d : Dev) (p : Nat) (g : Gpf) : Dev :=
  let d := g.ports.foldl (fun d q => (d.modPort q fun x => { x with gpfAsk := x.gpfAsk.filter (·.2 ≠ p) }).raise PRT_F_GPF_FAIL q) d
  let hot := (d.port p).hotAfterGpf
  let d := d.modPort p fun x => { x with gpf := none, hotAfterGpf := false }
  if hot then d.hostReset p 5 else (d.emit (.gpf p g.phase false)).put PRT_GPF_FAIL p 1

/-- DOWNSTREAM port p has not answered a phase of a host on another device in its duration: it raises GPF_FAIL on its own device. (DESIGN CHOICE, log entry 99) -/
def Dev.gpfLate (d : Dev) (p : Nat) : Dev :=
  let late := (d.port p).gpfAsk.filter (256 ≤ ·.2)
  late.foldl (fun d _ => d.raise PRT_F_GPF_FAIL p) (d.modPort p fun x => { x with gpfAsk := x.gpfAsk.filter (·.2 < 256) })

/-- R141: the phase duration has passed on UPSTREAM port p without every answer, or on DOWNSTREAM port p without its own to a host on
another device. -/
def Dev.gpfTimeoutRow (d : Dev) (p : Nat) : Dev :=
  if d.isDown p then d.gpfLate p
  else match (d.port p).gpf with
  | none => d
  | some g =>
    if g.ports.isEmpty && g.remote.isEmpty then d else d.gpfExpire p g

/-! ## Egress (R134) -/

/-- A request leaves under a tag of the device's own (R152). -/
def Dev.askOut (d : Dev) (p : Nat) (m : Msg) : Dev :=
  let t := d.core.nextTag
  let d : Dev := { d with core := { d.core with nextTag := t + 1 } }
  let d := d.modPort p fun x => { x with outst := x.outst ++ [{ tag := t, ld := m.body.ld, m := m }] }
  d.emit (.portMsg p { m with body := { m.body with tag := t } })

/-- A message for the port's own use, from another device: a GPF phase or its answer, a reset (R140, R145). (DESIGN CHOICE, log entries 98 and 99) -/
def Dev.portOwn (d : Dev) (p : Nat) (m : Msg) : Dev :=
  match m.body.op with
  | .gpfAsk => if d.isDown p then d.gpfIssue p m.body.arg (256 + (m.srcG / 128 * 128 + m.body.agent) + 2048 * m.tc) else d
  | .gpfAns => (d.modPort p fun x => { x with gpf := x.gpf.map fun g =>
      { g with remote := g.remote.filter (· ≠ m.srcG / 128 * 128 + m.body.agent) } }).gpfTry p
  | _ => if !d.isDown p then d else if m.body.ld < 16 && d.on PRT_STAT_MLD p then d.emit (.ldReset p m.body.ld) else d.sendHot p

/-- A flit leaves the port, its CRC inverted by an armed injection (R617). (DESIGN CHOICE, log entry 24) -/
def Dev.flitOut (d : Dev) (p : Nat) : Dev :=
  let r := d.injectAt .prt p [PRT_F_FLIT_ERR.num] none
  if r.1.isSome then r.2.emit (.flitBad p) else d

/-- A message goes out on the link. -/
def Dev.sendOut (d : Dev) (p : Nat) (m : Msg) : Dev :=
  let d := (((d.count .prt p 0x201).count .prt p 0x203 m.bytes).stampStart p).flitOut p
  if m.body.op = .fnMsi then d.emit (.vfMsi (m.body.arg / 2048) (m.body.arg % 2048))
  else if m.asks then d.askOut p m else d.emit (.portMsg p m)

/-- A request for an LD that the MLD on port p lacks (R683). -/
def Dev.ldLacks (d : Dev) (p : Nat) (m : Msg) : Bool :=
  d.isDown p && d.on PRT_STAT_MLD p && m.body.ld ≥ d.get PRT_STAT_NUM_LD p && (m.asks || m.tray ≠ 0)

/-- Such a request is refused here and answered as R321 states. -/
def Dev.ldMiss (d : Dev) (p : Nat) (m : Msg) : Dev :=
  let d := d.decodeMiss (portSlice p) m
  if m.home.isSome || m.mir ≠ 0 || m.tray ≠ 0 then d.endAsk p m .tgtFail [] false 1 else (d.answerMiss m).endAccess m

/-- Of the messages handed to port p, oldest first, the first that its gate lets start; no later one of its TC overtakes one held (R294 to
R296). -/
def Dev.txPick (d : Dev) (p : Nat) : List Nat → List Msg → Option Msg
  | _, [] => none
  | held, m :: r =>
    if held.contains m.tc then d.txPick p held r
    else if ownOp m.body.op || d.gateTest p m = .start then some m
    else d.txPick p (m.tc :: held) r

/-- R134: the port's link layer starts its oldest message that its window lets start; a request gets a tag under which its answer is
awaited. -/
def Dev.egressStartRow (d : Dev) (p : Nat) : Dev :=
  let tx := (d.port p).tx.filter fun m => !(d.port p).recallOnly || m.cls = 0x7 || m.cls = 0xB
  if !d.carries p then d
  else
    let d := tx.foldl (fun d m => d.gateNote p m) d
    match d.txPick p [] tx with
    | none => d
    | some m =>
      let d := d.modPort p fun x => { x with tx := x.tx.erase m }
      if ownOp m.body.op then d.portOwn p m else if d.ldLacks p m then d.ldMiss p m else d.sendOut p m

/-- R139: the stream switches to its pending key set. -/
def Dev.ideKeySwitchRow (d : Dev) (p : Nat) : Dev :=
  if d.on PRT_STAT_IDE_ACT p && (d.port p).keyPend then
    (d.modPort p fun x => { x with keyPend := false }).put PRT_IDE_KEY_SLOT p (1 - d.get PRT_IDE_KEY_SLOT p)
  else d

/-! ## PERST and resets (R142 to R147, R685) -/

def Dev.perstInAssertRow (d : Dev) (i : Nat) : Dev := d.perstIn i true
def Dev.perstInDeassertRow (d : Dev) (i : Nat) : Dev := d.perstIn i false

/-- R143: DELAY ms have passed since the port's slot had power good. -/
def Dev.perstOutDelayRow (d : Dev) (p : Nat) : Dev :=
  if d.on SPU_STAT_PG (d.get PRT_PERST_SLOT p) then (d.modPort p fun x => { x with perstDelayDone := true }).perstGo else d

/-- R144: the 1 ms minimum of a Port reset ends. -/
def Dev.perstOutHoldRow (d : Dev) (p : Nat) : Dev :=
  if (d.port p).perstMin then (d.modPort p fun x => { x with perstMin := false }).portResetOver p else d

/-- R145, R147: a hot reset arrives on UPSTREAM port p. -/
def Dev.hotResetReceivedRow (d : Dev) (p : Nat) : Dev :=
  if !d.cxlPort p || !d.isUp p || !d.on PRT_STAT_LINK_UP p then d
  else if (d.port p).gpf.isSome then d.modPort p fun x => { x with hotAfterGpf := true }
  else d.hostReset p 5

/-- R146: PRT_LINKCTL.HOT_RESET written. (DESIGN CHOICE, log entry 98) -/
def Dev.hotResetRow (d : Dev) (path p : Nat) : Dev :=
  d.access path ⟨.prt, p⟩ 0x150 fun d => if d.cxlPort p && d.isDown p then d.sendHot p else d

/-- R146: 100 ms without a return to L0. -/
def Dev.hotResetTimeoutRow (d : Dev) (p : Nat) : Dev := if d.cxlPort p && (d.port p).hotSent then d.portLinkDown p else d

/-- R148: PRT_LINKCTL.RETRAIN written. -/
def Dev.retrainRow (d : Dev) (path p : Nat) : Dev := d.access path ⟨.prt, p⟩ 0x150 fun d => d.toRecovery p

/-- PRT_LINKCTL.DISABLE set; clear. -/
def Dev.disableOn (d : Dev) (p : Nat) : Dev :=
  if d.portDunrun p || d.on PRT_LINKCTL_DISABLE p then d
  else
    let d := d.put PRT_LINKCTL_DISABLE p 1
    if d.cxlPort p then d.portResetStart p else d
def Dev.disableOff (d : Dev) (p : Nat) : Dev :=
  if d.portDunrun p || !d.on PRT_LINKCTL_DISABLE p then d
  else
    let d := d.put PRT_LINKCTL_DISABLE p 0
    if (d.port p).resetting then d else d.portResetOver p

/-- R685. -/
def Dev.disableRow (d : Dev) (path p : Nat) : Dev := d.access path ⟨.prt, p⟩ 0x150 fun d => d.disableOn p
def Dev.disableClearRow (d : Dev) (path p : Nat) : Dev := d.access path ⟨.prt, p⟩ 0x150 fun d => d.disableOff p

/-! ## Link-down and timeouts (R149 to R152) -/

/-- R149: the data link of port p goes down, or that of a quarantined one has gone down. -/
def Dev.linkDownRow (d : Dev) (p : Nat) : Dev :=
  if !d.cxlPort p || (d.port p).resetting then d
  else if d.on PRT_STAT_DL_ACTIVE p || (d.port p).downDue then d.portLinkDown p
  else d.answerEnded p

/-- R152: request `tag` of port p has had no completion within PRT_CPL_TO. -/
def Dev.cplTimeoutRow (d : Dev) (p tag : Nat) : Dev :=
  match (d.port p).outst.find? (·.tag = tag) with
  | none => d
  | some o =>
    if d.halted then d
    else
      let d := d.modPort p fun x => { x with outst := x.outst.erase o, lateTags := x.lateTags ++ [tag] }
      (d.raise PRT_F_CPL_TIMEOUT p).endAsk p o.m .tgtFail [] false 2

/-! ## Commands -/

/-- PROTOCOL_NEGOTIATION (R124). -/
def execProtocolNegotiation (p : Nat) (partner : Nat) (s : State) : Host.Outcome State Fault Refusal :=
  run (decide (p < 128)) "PROTOCOL_NEGOTIATION" s (s.dev.protocolNegotiationRow p partner)

/-- FLIT_RECEIVE (R131). -/
def execFlitReceive (p : Nat) (flit : Flit) (s : State) : Host.Outcome State Fault Refusal :=
  run (decide (p < 128)) "FLIT_RECEIVE" s (s.dev.flitReceiveRow p flit)

/-- EGRESS_START (R134). -/
def execEgressStart (p : Nat) (s : State) : Host.Outcome State Fault Refusal :=
  run (decide (p < 128)) "EGRESS_START" s (s.dev.egressStartRow p)

/-- IDE_KEY_SWITCH (R139). -/
def execIdeKeySwitch (p : Nat) (s : State) : Host.Outcome State Fault Refusal :=
  run (decide (p < 128)) "IDE_KEY_SWITCH" s (s.dev.ideKeySwitchRow p)

/-- GPF_PHASE (R140). -/
def execGpfPhase (p : Nat) (phase : Nat) (s : State) : Host.Outcome State Fault Refusal :=
  run (decide (p < 128)) "GPF_PHASE" s (s.dev.gpfPhaseRow p phase)

/-- GPF_ANSWER (R140). -/
def execGpfAnswer (p : Nat) (s : State) : Host.Outcome State Fault Refusal :=
  run (decide (p < 128)) "GPF_ANSWER" s (s.dev.gpfAnswerRow p)

/-- GPF_TIMEOUT (R141). -/
def execGpfTimeout (p : Nat) (s : State) : Host.Outcome State Fault Refusal :=
  run (decide (p < 128)) "GPF_TIMEOUT" s (s.dev.gpfTimeoutRow p)

/-- PERST_IN_ASSERT (R142). -/
def execPerstInAssert (i : Nat) (s : State) : Host.Outcome State Fault Refusal :=
  run (decide (i < 16)) "PERST_IN_ASSERT" s (s.dev.perstInAssertRow i)

/-- PERST_IN_DEASSERT (R142). -/
def execPerstInDeassert (i : Nat) (s : State) : Host.Outcome State Fault Refusal :=
  run (decide (i < 16)) "PERST_IN_DEASSERT" s (s.dev.perstInDeassertRow i)

/-- PERST_OUT_DELAY (R143). -/
def execPerstOutDelay (p : Nat) (s : State) : Host.Outcome State Fault Refusal :=
  run (decide (p < 128)) "PERST_OUT_DELAY" s (s.dev.perstOutDelayRow p)

/-- PERST_OUT_HOLD (R144). -/
def execPerstOutHold (p : Nat) (s : State) : Host.Outcome State Fault Refusal :=
  run (decide (p < 128)) "PERST_OUT_HOLD" s (s.dev.perstOutHoldRow p)

/-- HOT_RESET_RECEIVED (R145). -/
def execHotResetReceived (p : Nat) (s : State) : Host.Outcome State Fault Refusal :=
  run (decide (p < 128)) "HOT_RESET_RECEIVED" s (s.dev.hotResetReceivedRow p)

/-- HOT_RESET (R146). -/
def execHotReset (path : Nat) (p : Nat) (s : State) : Host.Outcome State Fault Refusal :=
  run (okPath path && decide (p < 128)) "HOT_RESET" s (s.dev.hotResetRow path p)

/-- HOT_RESET_TIMEOUT (R146). -/
def execHotResetTimeout (p : Nat) (s : State) : Host.Outcome State Fault Refusal :=
  run (decide (p < 128)) "HOT_RESET_TIMEOUT" s (s.dev.hotResetTimeoutRow p)

/-- RETRAIN (R148). -/
def execRetrain (path : Nat) (p : Nat) (s : State) : Host.Outcome State Fault Refusal :=
  run (okPath path && decide (p < 128)) "RETRAIN" s (s.dev.retrainRow path p)

/-- DISABLE (R685). -/
def execDisable (path : Nat) (p : Nat) (s : State) : Host.Outcome State Fault Refusal :=
  run (okPath path && decide (p < 128)) "DISABLE" s (s.dev.disableRow path p)

/-- DISABLE_CLEAR (R685). -/
def execDisableClear (path : Nat) (p : Nat) (s : State) : Host.Outcome State Fault Refusal :=
  run (okPath path && decide (p < 128)) "DISABLE_CLEAR" s (s.dev.disableClearRow path p)

/-- LINK_DOWN (R149). -/
def execLinkDown (p : Nat) (s : State) : Host.Outcome State Fault Refusal :=
  run (decide (p < 128)) "LINK_DOWN" s (s.dev.linkDownRow p)

/-- CPL_TIMEOUT (R152). -/
def execCplTimeout (p : Nat) (tag : Nat) (s : State) : Host.Outcome State Fault Refusal :=
  run (decide (p < 128)) "CPL_TIMEOUT" s (s.dev.cplTimeoutRow p tag)

end Sys2Proof.Machine
end

