-- ==== Sys2Proof/Machine/Oven.lean ====
section
/-! DEFINITION. Commands of the Oven, its destinations and its bank arbiters (chapters 6 and 7, R502). -/

namespace Sys2Proof.Machine

/-! ## Presenting and admitting -/

/-- The head of source `src` asks a port that is shut: it is answered as R321 states; a mirrored copy has failed at its member,
a home's access at its target (R685, R586, Table 19-2). -/
def Dev.shutHead (d : Dev) (src : Nat) : Dev :=
  match d.relOf src with
  | [] => d
  | m :: rest =>
    match (if m.ready then d.localDest m else none) with
    | none => d
    | some q =>
      if !d.shutFor m q then d
      else
        let d := ((d.setRel src rest).setHeld src false).consumeCredit m
        if m.home.isSome || m.mir ≠ 0 || m.tray ≠ 0 then d.endAsk q m .tgtFail [] false 1 else (d.answerMiss m).endAccess m

/-- R216: in one cycle the sources `srcs` present their next messages, in the order of R208; the express claims of the cycle are then decided
together (R232). -/
def Dev.cellPresentRow (d : Dev) (srcs : List Nat) (e : CrossErr) : Dev :=
  if d.halted then d
  else ((((List.range 144).filter srcs.contains).foldl (fun d src => (d.present src).shutHead src) d).settleClaims e).lateAll

/-- R221: a held message retries its admission. (DESIGN CHOICE, log entry 113) -/
def Dev.heldAdmitRow (d : Dev) (src : Nat) (e : CrossErr) : Dev :=
  if d.halted then d else (((d.retryHeld src).shutHead src).settleClaims e).lateAll

/-! ## Tag fills (R502, R503) -/

/-- Key of the requester of a message checked at port p. -/
def Dev.keyOf (d : Dev) (m : Msg) (p : Nat) : Key :=
  d.portKey m.epoch p (match m.req with | some (.ld _ l) => l + 1 | _ => 0)

/-- Colour check of a waiting message now that its word is cached: none when it passes, else the refusal. -/
def Dev.recheck (d : Dev) (m : Msg) (ue : Bool) : Option (Denial × Nat) :=
  let kind := (accKind m.body.op).getD .read
  if ue then some (.colour 0, m.hpa)
  else match d.accCheck m.epoch m.src (d.keyOf m m.src) kind m.hpa 1 with
    | .deny c a => some (c, a)
    | _ => none

/-- The refusal of a message whose colour check fails late; copies of one mirrored access are refused once. -/
def Dev.refuseLate (d : Dev) (m : Msg) (c : Denial) (a : Nat) : Dev :=
  let once := m.mir = 0 || d.coh.mirrors.any (·.id = m.mir)
  let d := { d with coh := { d.coh with mirrors := d.coh.mirrors.filter fun r => r.id ≠ m.mir || m.mir = 0,
                                        tray := d.coh.tray.filter fun e => e.id ≠ m.tray || m.tray = 0 } }
  if once then d.refuse m.src (d.keyOf m m.src) m ((accKind m.body.op).getD .read) c a else d

/-- A stored message whose tag word has arrived is linked, or refused and discarded. -/
def Dev.tagReport (d : Dev) (id : Nat) (ue : Bool) : Dev :=
  match d.stored? id with
  | none => d
  | some x =>
    match d.recheck x.m ue with
    | none => (d.modStored id fun y => { y with tagWait := [] }).linkStored id
    | some (c, a) => (((d.dropStored id).writeLate (srcSlice x.m.src)).defLeft x.dest x.m.tc).refuseLate x.m c a

/-- A message of a source that holds it unadmitted: its word has arrived. -/
def Dev.tagReportHeld (d : Dev) (src w : Nat) (ue : Bool) : Dev :=
  (d.relOf src).foldl (fun d m =>
    if !m.wait.contains w then d
    else match d.recheck m ue with
      | none => d.setRel src ((d.relOf src).map fun y => if y = m then { y with wait := [] } else y)
      | some (c, a) => ((d.setRel src ((d.relOf src).erase m)).setHeld src (d.core.held.contains src && (d.relOf src).head? ≠ some m)).refuseLate m c a) d

/-- A tag word that is waited for arrives: it is cached, and the messages that wait for it are judged. -/
def Dev.tagArrive (d : Dev) (s word : Nat) (ue : Bool) : Dev :=
  let d := { d with prot := { d.prot with misses := SMap.set [] d.prot.misses s ((SMap.get [] d.prot.misses s).filter (· ≠ word)) } }
  let a := d.tagBase + 8 * word
  let (bad, d) := (if ue then d.setLine (a / 64) false true false else d).carveRead a 3
  let d := if bad then d else d.tagInsert s word
  let ids := (d.core.oven.filter fun x => x.m.src < 128 && srcSlice x.m.src = s && x.tagWait.contains word).map (·.id)
  let d := ids.foldl (fun d id => d.tagReport id bad) d
  (List.range 8).foldl (fun d i => d.tagReportHeld (8 * s + i) word bad) d

/-- R502, R503, R34: tag word `word` arrives at slice `s`. -/
def Dev.tagFillRow (d : Dev) (s word : Nat) (ue : Bool) : Dev :=
  let ms := SMap.get [] d.prot.misses s
  if !ms.contains word then d
  else if (SMap.get [] d.prot.stale s).contains word then
    { d with prot := { d.prot with stale := SMap.set [] d.prot.stale s ((SMap.get [] d.prot.stale s).filter (· ≠ word)) } }
  else d.tagArrive s word ue

/-! ## Selecting (R223 to R226, R234, R235) -/

/-- A message found tail-bad is discarded: counted, raised, its credit not returned as consumed (R234, R235). -/
def Dev.dropTailBad (d : Dev) (x : Stored) : Dev :=
  let s := srcSlice x.m.src
  (((d.refund x.dest x.m).discard x false).inc SLC_DROP_TAILBAD s).raise SLC_F_TAIL_BAD s

/-- No linked message stands before `x` in its list. -/
def Dev.atHead (d : Dev) (x : Stored) : Bool :=
  match d.core.oven.find? fun y => y.linked && !y.taken && x.sameList y with
  | some y => y.id = x.id
  | none => false

/-- Tail-bad messages at the heads of the destination's lists are removed (R235). -/
def Dev.purgeBad (d : Dev) (dest : Nat) : Dev :=
  (d.core.oven.filter fun x => x.dest = dest && x.linked && !x.taken && x.unseen = 0 && x.m.tailBad).foldl (fun d x =>
    if d.atHead x then d.dropTailBad x else d) d

/-- The message is selected: it leaves its list and its first read is requested. -/
def Dev.take (d : Dev) (x : Stored) : Dev :=
  let d := (d.leaveList x).modStored x.id fun y => { y with taken := true }
  d.presentReq (srcSlice x.m.src) (destSlice x.dest)

/-- An egress port selects its next message (R225, R284 to R286, R296). -/
def Dev.selectPort (d : Dev) (q : Nat) : Dev :=
  if !d.portAvail q || !d.enabled ⟨.egs, q⟩ || !d.idle q 0 then d
  else
    let d := (d.tabRead 0x0B q (List.range 8))
    let d := (List.range 8).foldl (fun d t => match d.gateTestee q t with | some x => d.gateHold q x | none => d) d
    match d.nextTc q with
    | (none, d) => d
    | (some (t, comm), d) =>
      match d.srcFor q t with
      | none => d
      | some (src, x) =>
        let d := { d with core := { d.core with lastSrc := SMap.set 143 d.core.lastSrc (q * 8 + t) src } }
        let d := ((d.take x).modStored x.id fun y => { y with m := { y.m with charged := d.lCharged q x.m } }).charge q x.m
        ((d.settleDef q x.m comm).noteDelay q x.m).count .egs q (0x200 + t)

/-- Sources the home takes nothing from on a channel: stalled for the wait buffer (R385), hold entry occupied (R383). -/
def Dev.srcBlocked (d : Dev) (h ch src : Nat) : Bool :=
  d.chanBlocked h ch src

/-- An internal endpoint takes its next message: RSP, then WB, then REQ, round-robin within each (R215). -/
def Dev.selectHome (d : Dev) (h : Nat) : Dev :=
  let pick := (List.range 3).findSome? fun ch =>
    if !d.idle (128 + h) ch then none
    else
      let last := SMap.get 143 d.core.lastSrc (1024 + 3 * h + ch)
      (List.range 144).findSome? fun i =>
        let src := (last + 1 + i) % 144
        if d.srcBlocked h ch src then none else (d.homeHead src h ch).map fun x => (ch, src, x)
  match pick with
  | none => d
  | some (ch, src, x) =>
    ({ d with core := { d.core with lastSrc := SMap.set 143 d.core.lastSrc (1024 + 3 * h + ch) src } }).take x

/-- R225: a destination selects its next message; `bridge`: a fault of its die's bridge interface is met (R25). -/
def Dev.egressSelectRow (d : Dev) (dest : Nat) (bridge : Bool) : Dev :=
  if d.halted then d
  else
    let d := d.crossErr (if bridge then .bridge else .none) (destSlice dest) 0
    let d := d.purgeBad dest
    if dest < 128 then d.selectPort dest else if d.sliceOn (dest - 128) then d.selectHome (dest - 128) else d

/-! ## Bank decisions (R251 to R268) -/

/-- Slot-table entry P of a bank: 0 free or idle, 1 with a slice, 2 with a domain; an uncorrectable entry is free. (DESIGN CHOICE, log entry 109) -/
def Dev.slotAt (d : Dev) (s b : Nat) : Nat × Nat :=
  let p := d.get ARB_BANK_PTR s b
  let w := d.tab 0x08 s p
  if d.core.slotUe.contains (128 * s + p) || d.tabBad 0x08 s p then (0, 0)
  else match bits w 0 2 with
    | 1 => (1, bits w 2 4)
    | 2 => (2, bits w 8 10)
    | _ => (0, 0)

/-- Requesters eligible for bank b, without those a parity error hides. -/
def Dev.eligible (d : Dev) (s b : Nat) (hidden : List Nat) : List Nat :=
  (List.range 16).filter fun r => d.on ARB_REQ_VALID s r && d.get ARB_REQ_BANK s r = b && !hidden.contains r

/-- Order of R257 among requesters: rank first; then, unsealed, cyclic slice order after RR; sealed, age, then slice. -/
def Dev.firstByRank (d : Dev) (s b : Nat) (rs : List Nat) : Option Nat :=
  let key (r : Nat) : Nat := d.rankOf s (d.get ARB_REQ_TC s r)
  let top := (rs.map key).max?.getD 0
  let best := rs.filter fun r => key r = top
  if d.sealed s then
    let age := (best.map fun r => d.get ARB_REQ_AGE s r).max?.getD 0
    best.find? fun r => d.get ARB_REQ_AGE s r = age
  else
    let rr := d.get ARB_BANK_RR s b
    ((List.range 16).map fun i => (rr + 1 + i) % 16).find? fun r => best.contains r

/-- Requester with the greatest age, ties by R257. -/
def Dev.oldestReq (d : Dev) (s b : Nat) (rs : List Nat) : Option Nat :=
  let age := (rs.map fun r => d.get ARB_REQ_AGE s r).max?.getD 0
  d.firstByRank s b (rs.filter fun r => d.get ARB_REQ_AGE s r = age)

/-- What a decision gives (Table 7-1): the winner and its step. -/
inductive Win | reloc | bakery (r : Nat) | slot (r : Nat) (dom : Bool) | rank (r : Nat) | idle
  deriving DecidableEq, Repr

def Win.req : Win → Option Nat
  | .bakery r | .slot r _ | .rank r => some r
  | _ => none

def Dev.decide_ (d : Dev) (s b : Nat) (hidden : List Nat) : Win :=
  let el := d.eligible s b hidden
  let dom (k : Nat) : List Nat := el.filter fun r => d.get ARB_REQ_DOMAIN s r = k
  let (kind, v) := d.slotAt s b
  let key := 16 * s + b
  if d.core.retiring.contains key && d.bankUsed s b > 0 && !d.core.lastReloc.contains key then .reloc
  else
    let qual := if !d.sealed s then el else if kind = 2 then dom v else []
    let bak := if d.get ARB_BANK_GCNT s b = d.get ARB_CFG_N s - 1 then d.oldestReq s b qual else none
    match bak with
    | some r => .bakery r
    | none =>
      let sl := if kind = 1 && !d.sealed s then (if el.contains v then some v else none)
        else if kind = 2 then d.firstByRank s b (dom v) else none
      match sl with
      | some r => .slot r (kind = 2)
      | none =>
        if d.sealed s then .idle
        else match d.firstByRank s b el with
          | some r => .rank r
          | none => .idle

/-- Banks of a slice retired already. -/
def Dev.retiredCount (d : Dev) (s : Nat) : Nat := ((List.range 16).filter (d.retired s)).length

/-- R242: fewer than four banks are retired, and a bank's worth of shared pool stays. -/
def Dev.canRetire (d : Dev) (s : Nat) : Bool :=
  let cells := d.inService s - 3072
  let pool := if d.sealed s then cells - d.partCells s - d.reserved s else cells - d.reserved s
  d.retiredCount s < 4 && 3072 ≤ pool

def Dev.retireNow (d : Dev) (s b : Nat) : Dev :=
  let d := (d.put OVN_RETIRE_MAP s (d.get OVN_RETIRE_MAP s + 2 ^ b)).put OVN_RETIRE_BUSY s 1
  { d with core := { d.core with retiring := d.core.retiring ++ [16 * s + b] } }

/-- Retire a bank unless the limits of R242 refuse it. -/
def Dev.retireBank (d : Dev) (s b : Nat) : Dev :=
  if d.retired s b then d else if d.canRetire s then d.retireNow s b else d.raise OVN_F_BANK_EXHAUST s

/-- An uncorrectable error retires the bank while AUTO is 1. -/
def Dev.autoRetire (d : Dev) (s b : Nat) : Dev := if d.on OVN_ECC_AUTO s then d.retireBank s b else d

/-- A corrected error, counted within its window (R240, R242). -/
def Dev.bankCorrected (d : Dev) (s b : Nat) : Dev :=
  let d := d.raise OVN_F_CE s
  let win := max 1 (d.get OVN_ECC_WINDOW s) * tMs
  let l := (SMap.get [] d.core.bankCe (16 * s + b)).filter (fun t => d.now < t + win) ++ [d.now]
  let d := { d with core := { d.core with bankCe := SMap.set [] d.core.bankCe (16 * s + b) l } }
  if l.length > d.get OVN_ECC_CE_THR s then d.autoRetire s b else d

/-- Copy one cell of a retiring bank to another bank (R243, R259). -/
def Dev.relocate (d : Dev) (s b : Nat) (id : Nat) (c : Cell) : Dev :=
  match d.pickBank s (SMap.get 0 d.core.startBank s) [b] 0 with
  | none => d
  | some nb =>
    let ni := d.pickIdx s nb (Config.cellPick (d.core.nextId * 8 + 7) % 3072)
    let d := d.modStored id fun x => { x with cells := x.cells.map fun y => if y = c then { y with bank := nb, idx := ni, bad := none } else y }
    let d := (List.range 16).foldl (fun d r =>
      if d.on ARB_REQ_VALID s r && d.get ARB_REQ_BANK s r = b && d.get ARB_REQ_CELL s r = c.idx then
        (d.put ARB_REQ_BANK s nb r).put ARB_REQ_CELL s ni r
      else d) d
    d.rethread s

/-- The next cell of a bank to copy, with its message. -/
def Dev.relocCell (d : Dev) (s b : Nat) : Option (Nat × Cell) :=
  d.core.oven.findSome? fun x =>
    if srcSlice x.m.src = s then (x.cells.find? fun c => c.bank = b && !c.read).map fun c => (x.id, c) else none

/-- Messages of its list from `x` on, `x` among them (R241). The rule discards every message from the lost NEXT on; that
the message being read goes with them is the model's choice. (DESIGN CHOICE, log entry 133) -/
def Dev.listFrom (d : Dev) (x : Stored) : List Stored :=
  let l := if x.taken then d.core.oven else d.core.oven.dropWhile fun (y : Stored) => y.id ≠ x.id
  x :: l.filter fun y => y.linked && !y.taken && y.id ≠ x.id && x.sameList y

/-- The message's cells have all gone to its destination: a good message is delivered, a tail-bad one discarded (R234). (DESIGN CHOICE, log entry 107) -/
def Dev.finishRead (d : Dev) (id : Nat) : Dev :=
  match d.stored? id with
  | none => d
  | some x =>
    if (x.express || (x.taken && x.nextCell.isNone)) && x.unseen = 0 && x.late = 0 && x.m.last then
      (if x.m.tailBad then d.dropTailBad x else (d.deliver x).takeDirect x.dest)
    else d

/-- A message its input has closed: its destination, where it holds it, discards it when it is tail-bad and is free at once
(R234, R237), else asks for its remaining cells. (DEDUCED, log entry 131) -/
def Dev.closed (d : Dev) (id : Nat) : Dev :=
  match d.stored? id with
  | none => d
  | some x =>
    if !x.taken then d
    else if x.m.tailBad then d.dropTailBad x
    else (d.finishRead id).presentReq (srcSlice x.m.src) (destSlice x.dest)

/-- Poison the message (R240). -/
def Dev.poisonStored (d : Dev) (id : Nat) : Dev := d.modStored id fun x => { x with m := { x.m with poison := true } }

/-- What the read of a cell of bank b met, whoever asked for it (R240 to R242): `first`, the cell's sideband has FIRST set. -/
def Dev.readErr (d : Dev) (s b : Nat) (x : Stored) (first : Bool) (err : BankErr) : Dev :=
  match err with
  | .ce => d.bankCorrected s b
  | .ueData => (((d.poisonStored x.id).inc SLC_DROP_POISONED s).raise OVN_F_UE_DATA s).autoRetire s b
  | .ueSide =>
    if first then
      let d := match d.stored? x.id with | some y => d.discard y true | none => d
      ((d.inc SLC_DROP_SIDEBAND s).raise OVN_F_UE_SIDEBAND s).autoRetire s b
    else d.autoRetire s b
  | .listLost =>
    let ids := (d.listFrom x).map (·.id)
    let d := ids.foldl (fun (d : Dev) id => match d.stored? id with
      | some z => (d.discard z true).inc SLC_DROP_SIDEBAND s | none => d) d
    (d.raise OVN_F_LIST_LOST s).autoRetire s b
  | _ => d

/-- What a read of cell `c` meets: what the command says, or else what inverted check bits give (R618). -/
def Cell.meets (c : Cell) (err : BankErr) : BankErr :=
  if err ≠ .none then err
  else match c.bad with
    | none => .none
    | some n => if n = OVN_F_CE.num then .ce else if n = OVN_F_UE_DATA.num then .ueData
      else if n = OVN_F_UE_SIDEBAND.num then .ueSide else .listLost

/-- Relocation is granted a cell of a retiring bank: the cell is copied, with what its read met (R243, R265). -/
def Dev.relocStep (d : Dev) (s b : Nat) (err : BankErr) : Dev :=
  let d := d.put ARB_BANK_OWNER s 16 b
  match d.relocCell s b with
  | none => d
  | some (id, c) =>
    match d.stored? id with
    | none => d
    | some x => (d.relocate s b id c).readErr s b x (x.cells.head? = some c) (c.meets err)

/-- Requester r is granted the cell it asked for in bank b; `err` is what the read met. (DESIGN CHOICE, log entry 107; DESIGN CHOICE, log entry 133) -/
def Dev.grant (d : Dev) (s b r : Nat) (err : BankErr) : Dev :=
  let ci := d.get ARB_REQ_CELL s r
  let d := (d.clearReq s r).put ARB_BANK_OWNER s r b
  let d := (d.count .arb s 0x200).count .ovn s 0x201
  match d.core.oven.find? fun x => x.taken && srcSlice x.m.src = s && destSlice x.dest = r && x.cells.any fun c =>
      c.bank = b && c.idx = ci && !c.read with
  | none => d.presentReq s r
  | some x =>
    let first := (x.cells.head?).any fun c => c.bank = b && c.idx = ci
    let d := d.modStored x.id fun y => { y with cells := y.cells.map fun c => if c.bank = b && c.idx = ci && !c.read then { c with read := true } else c }
    let met := ((x.cells.find? fun c => c.bank = b && c.idx = ci && !c.read).map fun c => c.meets err).getD err
    let (inj, d) := d.injectAt .slc s [SLC_F_XBAR_PARITY.num] none
    let d := (d.readErr s b x first met).crossErr (if err = .parity || inj.isSome then .parity else .none) s x.id
    ((d.finishRead x.id).presentReq s r).writeLate s

/-- Ages of the requesters eligible and not granted (R255); AGE_SAT for each that reaches 1,023 (R684). -/
def Dev.ageLosers (d : Dev) (s : Nat) (ls : List Nat) : Dev :=
  ls.foldl (fun d r =>
    let a := d.get ARB_REQ_AGE s r
    let d := d.put ARB_REQ_AGE s (min 1023 (a + 1)) r
    if a = 1022 then d.raise ARB_F_AGE_SAT s else d) d

/-- One decision of a bank: P, GCNT, RR and ages move, and the winner is served (R253 to R258). (DESIGN CHOICE, log entry 107) -/
def Dev.bankTurn (d : Dev) (s b : Nat) (hidden : List Nat) (err : BankErr) : Dev :=
  let el := d.eligible s b hidden
  let w := d.decide_ s b hidden
  let reloc := w = .reloc
  let n := max 1 (d.get ARB_CFG_N s)
  let slots := max 1 (d.get ARB_CFG_SLOTS s)
  let d := d.put ARB_BANK_PTR s ((d.get ARB_BANK_PTR s b + 1) % slots) b
  let adv := if d.sealed s then !reloc else w.req.isSome
  let d := if adv then d.put ARB_BANK_GCNT s ((d.get ARB_BANK_GCNT s b + 1) % n) b else d
  let d := match w with
    | .slot r true | .rank r => d.put ARB_BANK_RR s r b
    | _ => d
  let d := d.ageLosers s (el.filter fun r => w.req ≠ some r)
  let key := 16 * s + b
  let lr := d.core.lastReloc.filter (· ≠ key)
  let d := { d with core := { d.core with lastReloc := if reloc then lr ++ [key] else lr } }
  match w with
  | .reloc => d.relocStep s b err
  | .bakery r => (d.count .arb s 0x201).grant s b r err
  | .slot r _ | .rank r => d.grant s b r err
  | .idle => if el.isEmpty then d else d.count .arb s 0x202

/-- A bank's turn: it decides when a requester is eligible, relocation among them, and while sealed in any case (R252); a
request that arrives with a parity error is ignored (R268). (DESIGN CHOICE, log entry 107) -/
def Dev.bankStep (d : Dev) (s b : Nat) (err : BankErr) : Dev :=
  let p := d.get ARB_BANK_PTR s b
  let d := if err = .slotUe && !d.core.slotUe.contains (128 * s + p) then
      ({ d with core := { d.core with slotUe := d.core.slotUe ++ [128 * s + p] } }).raise ARB_F_SLOT_UE s else d
  let d := d.tabRead 0x08 s [p]
  let d := if err = .freeUe then d.raise OVN_F_FREELIST s else d
  let bad (r : Nat) : Bool := err = .reqParity r || d.core.reqBad.contains (16 * s + r)
  let hidden := (d.eligible s b []).filter bad
  let d : Dev := { d with core := { d.core with reqBad := d.core.reqBad.filter fun k => !hidden.any fun r => k = 16 * s + r } }
  let d := hidden.foldl (fun d _ => d.raise ARB_F_REQ_PARITY s) d
  let relocs := d.core.retiring.contains (16 * s + b) && d.bankUsed s b > 0
  if !relocs && (d.eligible s b hidden).isEmpty && !d.sealed s then d else d.bankTurn s b hidden err

/-- R253 to R258: one decision of bank b of slice s; what a slice out of service has admitted goes on (Table 2-7). (DESIGN CHOICE, log entry 107; DESIGN CHOICE, log entry 109) -/
def Dev.bankDecisionRow (d : Dev) (s b : Nat) (err : BankErr) : Dev :=
  if d.halted then d else d.bankStep s b err

/-! ## Stall timer and retirement -/

/-- The link layer of a stall-closed packet drops the rest of it and sends NAK(E) (R238); in DR_RETRAIN the rest does not come,
and NAK(E) follows on the return to ACTIVE. -/
def Dev.stallLink (d : Dev) (k seq : Nat) : Dev :=
  let d := d.modLink k fun l => { l with openMsg := false }
  if d.lkState k = lkActive then (d.modLink k fun l => { l with stall := l.stall ++ [seq] }).sendNak k else d

/-- The message closes tail-bad, STALL_CLOSE is raised, and its link is told (R237, R238). -/
def Dev.stallClose (d : Dev) (s id : Nat) (x : Stored) : Dev :=
  let d := d.modStored id fun y => { y with unseen := 0, m := { y.m with last := true, tailBad := true } }
  let d : Dev := { d with core := { d.core with partial_ := d.core.partial_.filter fun e => e.2 ≠ id } }
  let d := (d.inc SLC_DROP_STALLED s).raise SLC_F_STALL_CLOSE s
  let d := match x.m.link with | some k => d.stallLink k x.m.seq | none => d
  (d.rethread s).closed id

/-- R237 to R239: a message whose input has stopped is closed tail-bad, and its link sends NAK. -/
def Dev.stallTimeoutRow (d : Dev) (s id : Nat) : Dev :=
  match d.stored? id with
  | none => d
  | some x =>
    if srcSlice x.m.src ≠ s || (x.unseen = 0 && x.m.last) then d
    else d.stallClose s id x

/-- OVN_RETIRE written with RETIRE 1 (R242). -/
def Dev.retireRow (d : Dev) (path s b : Nat) : Dev :=
  d.access path ⟨.ovn, s⟩ 0x1D0 fun d => (d.put OVN_RETIRE_BANK s b).retireBank s b

/-- R243: every cell of the slice's retiring banks has been copied. -/
def Dev.retirementDoneRow (d : Dev) (s : Nat) : Dev :=
  let mine := d.core.retiring.filter fun k => k / 16 = s
  if mine.isEmpty || mine.any (fun k => d.bankUsed s (k % 16) > 0) then d
  else
    let d := { d with core := { d.core with retiring := d.core.retiring.filter fun k => k / 16 ≠ s } }
    mine.foldl (fun d _ => d.raise OVN_F_RETIRED s) (d.put OVN_RETIRE_BUSY s 0)

/-! ## Commands -/

/-- CELL_PRESENT (R216). -/
def execCellPresent (b : Presented) (s : State) : Host.Outcome State Fault Refusal :=
  run (b.srcs.all fun x => decide (x < 144)) "CELL_PRESENT" s (s.dev.cellPresentRow b.srcs b.err)

/-- HELD_ADMIT (R221). -/
def execHeldAdmit (b : HeldRetry) (s : State) : Host.Outcome State Fault Refusal :=
  run (decide (b.src < 144)) "HELD_ADMIT" s (s.dev.heldAdmitRow b.src b.err)

/-- TAG_FILL (R502). -/
def execTagFill (sl : Nat) (word : Nat) (ue : Bool) (s : State) : Host.Outcome State Fault Refusal :=
  run (decide (sl < 16)) "TAG_FILL" s (s.dev.tagFillRow sl word ue)

/-- EGRESS_SELECT (R225). -/
def execEgressSelect (e : Selection) (s : State) : Host.Outcome State Fault Refusal :=
  run (decide (e.dest < 144)) "EGRESS_SELECT" s (s.dev.egressSelectRow e.dest e.bridge)

/-- BANK_DECISION (R253). -/
def execBankDecision (sl : Nat) (b : Nat) (err : BankErr) (s : State) : Host.Outcome State Fault Refusal :=
  run (decide (sl < 16) && decide (b < 16)) "BANK_DECISION" s (s.dev.bankDecisionRow sl b err)

/-- STALL_TIMEOUT (R237). -/
def execStallTimeout (sl : Nat) (id : Nat) (s : State) : Host.Outcome State Fault Refusal :=
  run (decide (sl < 16)) "STALL_TIMEOUT" s (s.dev.stallTimeoutRow sl id)

/-- RETIRE (R242). -/
def execRetire (path : Nat) (sl : Nat) (b : Nat) (s : State) : Host.Outcome State Fault Refusal :=
  run (okPath path && decide (sl < 16) && decide (b < 16)) "RETIRE" s (s.dev.retireRow path sl b)

/-- RETIREMENT_DONE (R243). -/
def execRetirementDone (sl : Nat) (s : State) : Host.Outcome State Fault Refusal :=
  run (decide (sl < 16)) "RETIREMENT_DONE" s (s.dev.retirementDoneRow sl)

end Sys2Proof.Machine
end

