-- ==== Sys2Proof/Machine/Dunrun.lean ====
section
/-! DEFINITION. Commands of the Dunrun links (chapter 5). -/

namespace Sys2Proof.Machine

/-! ## The receive stream (R160 to R166, Table 5-7) -/

/-- Encryption is in use. -/
def Dev.encOn (d : Dev) (k : Nat) : Bool := d.on DRL_STAT_ENC k

/-- The received stream is a sealed one: encryption is in use, or the link waits in KEYWAIT (R184). -/
def Dev.encRx (d : Dev) (k : Nat) : Bool := d.encOn k || d.lkState k = lkKeywait

/-- Segment of a stream block. (DESIGN CHOICE, log entry 81) -/
def Dev.segOf (d : Dev) (k blk : Nat) : Nat :=
  (d.link k).segFirst + (blk - (d.link k).rxOrigin) / max 1 (d.get DRL_CFG_SEG k)

/-- Fabric time at which a stream block arrived (R189). -/
def Dev.blkTime (d : Dev) (k blk : Nat) : Nat := (((d.link k).blkAt.find? (·.1 = blk)).map (·.2)).getD d.fab

/-- Plaintext and AAD taken so far from the blocks of segment s. -/
def Dev.segAcc (d : Dev) (k s : Nat) : Bytes × Bytes :=
  let xs := ((d.link k).acc.filter fun e => d.segOf k e.1 = s).map (·.2)
  (xs.flatMap (·.1), xs.flatMap (·.2))

/-- Key slot and counter of segment s (R184, R187). -/
def Link.slotOf (l : Link) (s : Nat) : Nat × Nat :=
  if s < l.segBase then (l.rxPrev.1, s - l.rxPrev.2) else (l.rxSlot, s - l.segBase)

/-- Bytes of a message packet, which come in the stream blocks `blks`, opened: each under its segment's key and its place in
the segment's plaintext (R184). -/
def Dev.opened (d : Dev) (k : Nat) (bs : Bytes) (blks : List Nat) : Bytes :=
  let r := (bs.zip blks).foldl (fun (acc : Bytes × SMap Nat) x =>
    let s := d.segOf k x.2
    let i := SMap.get 0 acc.2 s
    let (slot, n) := (d.link k).slotOf s
    (acc.1 ++ [x.1 ^^^ Config.gcmStream (d.linkKey k (2 + slot)) n ((d.segAcc k s).1.length + i)], SMap.set 0 acc.2 s (i + 1)))
    (([] : Bytes), ([] : SMap Nat))
  r.1

/-- A sealed message packet begins at byte i of the stream: its first 16 bytes, opened, are a header whose CRC16 passes. (DESIGN CHOICE, log entry 81) -/
def Dev.msgAt (d : Dev) (k i : Nat) : Bool :=
  let bs := ((d.link k).stream.drop i).take 16
  let h := d.opened k bs (((d.link k).strBlk.drop i).take 16)
  bs.length = 16 && pktType h = 0x1 && pktCrcOk h

/-- IDLE bytes at the front of the stream (R161). -/
def Dev.idleLen (d : Dev) (k : Nat) : Nat :=
  let s := (d.link k).stream
  if d.encRx k then ((List.range s.length).find? fun i => s.getD i 0 ≠ 0 || d.msgAt k i).getD s.length
  else (s.takeWhile (· = 0)).length

/-- The stream from its first byte that is not IDLE; a sealed message packet there is opened. -/
def Dev.rxBytes (d : Dev) (k : Nat) : Bytes :=
  let i := d.idleLen k
  let s := (d.link k).stream.drop i
  if !(d.encRx k && d.msgAt k i) then s
  else
    let bl := (d.link k).strBlk.drop i
    let n := pktLen (d.opened k (s.take 16) bl)
    d.opened k (s.take n) bl ++ s.drop n

/-- The packet at the front, when all of it has arrived. -/
def Dev.front (d : Dev) (k : Nat) : Option Bytes :=
  let s := d.rxBytes k
  if s.length < 16 || s.length < pktLen s then none else some (s.take (pktLen s))

/-- A byte taken from stream block `blk` counts in its segment: `kind` 0 plaintext, 1 AAD, 2 neither (R184). -/
def Link.account (l : Link) (kind blk : Nat) (b : Byte) : Link :=
  let e := SMap.get ([], []) l.acc blk
  match kind with
  | 0 => { l with acc := SMap.set ([], []) l.acc blk (e.1 ++ [b], e.2) }
  | 1 => { l with acc := SMap.set ([], []) l.acc blk (e.1, e.2 ++ [b]) }
  | _ => l

/-- The packet `b` at the front, and the IDLE before it, leave the stream. -/
def Dev.popFront (d : Dev) (k : Nat) (b : Bytes) : Dev :=
  let i := d.idleLen k
  let l := d.link k
  let kind := match pktType b with | 0x1 => 0 | 0xF => 2 | _ => 1
  let l1 := if !d.encRx k then l else
    let idle := (l.strBlk.take i).foldl (fun l x => l.account 1 x 0) l
    (b.zip (l.strBlk.drop i)).foldl (fun l x => l.account kind x.2 x.1) idle
  d.setLink k { l1 with stream := l.stream.drop (i + b.length), strBlk := l.strBlk.drop (i + b.length) }

/-- Stream blocks that hold the packet at the front, of `n` bytes. -/
def Dev.frontBlks (d : Dev) (k n : Nat) : List Nat := ((d.link k).strBlk.drop (d.idleLen k)).take n

/-- A message whose tail has come: closed bad, or with what the whole packet `m` carries. -/
def Msg.closedBy (x : Msg) (bad : Bool) (m : Msg) : Msg :=
  if bad then { x with last := true, tailBad := true }
  else { x with last := true, tailBad := false, poison := m.poison, body := m.body, wire := m.wire }

/-- The message open on link k shows its first `n` payload cells, which have come as `w` (R170). -/
def Dev.showCells (d : Dev) (k : Nat) (w : Bytes × Bytes) (n : Nat) : Dev :=
  let p := d.linkPort k
  let w := (w.1, w.2.take (64 * n))
  if (d.relOf p).any fun m => !m.last then
    d.setRel p ((d.relOf p).map fun m => if m.last then m else { m with wire := some w })
  else match d.stored? (SMap.get 0 d.core.partial_ p) with
    | none => d
    | some x =>
      let new := n + x.unseen - (x.m.len + 1)
      if new = 0 then d
      else (d.modStored x.id fun y => { y with late := y.late + new, unseen := y.unseen - new, m := { y.m with wire := some w } }).writeLate
        (srcSlice x.m.src)

/-- A stored message whose packet's tail has come is complete: its remaining cells are written, or freed when it closes
bad (R233, Table 5-7); its destination sees it closed. -/
def Dev.closeStored (d : Dev) (id : Nat) (bad : Bool) (m : Msg) : Dev :=
  let f (y : Stored) : Stored :=
    { y with unseen := 0, late := if bad then y.late else y.late + y.unseen, m := y.m.closedBy bad m }
  let s := (d.stored? id).map fun x => srcSlice x.m.src
  let d := d.modStored id f
  let d : Dev := { d with core := { d.core with partial_ := d.core.partial_.filter fun e => e.2 ≠ id } }
  match s with | some s => (d.writeLate s).closed id | none => d

/-- The message released cut-through on link k is complete. (DESIGN CHOICE, log entry 89) -/
def Dev.closeOpen (d : Dev) (k : Nat) (bad : Bool) (b : Msg) : Dev :=
  let p := d.linkPort k
  let d := d.modLink k fun l => { l with openMsg := false }
  if (d.relOf p).any fun m => !m.last then
    d.setRel p ((d.relOf p).map fun m => if m.last then m else m.closedBy bad b)
  else
    let id := SMap.get 0 d.core.partial_ p
    if id = 0 then d else d.closeStored id bad b

/-- TAIL_BAD: the open message closes bad (Table 5-7). (DESIGN CHOICE, log entry 89) -/
def Dev.closeBad (d : Dev) (k : Nat) : Dev :=
  if (d.link k).openMsg then (d.closeOpen k true {}).raise DRL_F_TAIL_BAD k else d

/-- Parse lost: everything up to the next DATA_START is discarded, and with it the rest of a packet stall-closed, but for one that waits
for its segments' MACs; NAK(E). -/
def Dev.parseLose (d : Dev) (k : Nat) : Dev :=
  let enc := d.encRx k
  let d := (if enc then d else d.closeBad k).modLink k fun l =>
    { l with stream := [], strBlk := [], parseLost := true, stall := if enc then l.stall else [], skip := 0 }
  if d.lkState k = lkActive then d.sendNak k else d

/-- The check of what now stands at the front: its CRC16, then its TYPE and SUB (R166). -/
def Dev.frontCheck (d : Dev) (k : Nat) : Dev :=
  let s := d.rxBytes k
  if s.length < 16 then d
  else if !pktCrcOk s then d.parseLose k
  else if !pktListed s then (d.linkDownEv k).raise DRL_F_PROTO_ERR k
  else d

/-! ## Messages received (R163, R170 to R173, R199, R341) -/

/-- Discarded under R199: a transit message at the hop limit, or one that comes back to its origin. -/
def Dev.ttlBad (d : Dev) (m : Msg) : Bool := m.srcG / 128 = d.myId || (m.dst / 128 ≠ d.myId && m.hops ≥ 14)

/-- Refused by R341: for a DOWNSTREAM port, or a Larder LD, that is not exported to its source, which a message of a port's own names;
the DEC page. (DEDUCED, log entry 88) -/
def Dev.exportBad (d : Dev) (m : Msg) : Option Nat :=
  let from_ := if ownOp m.body.op then m.srcG / 128 * 128 + m.body.agent else m.srcG
  let ok (v any : Bool) (owner : Nat) : Bool := v && (any || owner = from_)
  let req := m.cls = 0xD && ((accKind m.body.op).isSome || clnOp m.body.op || svcOp m.body.op)
  let port (p : Nat) : Option Nat :=
    if ok (d.on DEC_EXPORT_V (p / 8) (p % 8)) (d.on DEC_EXPORT_ANY (p / 8) (p % 8)) (d.get DEC_EXPORT_OWNER (p / 8) (p % 8)) then none
    else some (p / 8)
  let ld (j : Nat) : Option Nat :=
    if ok (d.on DEC_LDEXPORT_V 0 j) (d.on DEC_LDEXPORT_ANY 0 j) (d.get DEC_LDEXPORT_OWNER 0 j) then none else some 0
  if m.dst / 128 ≠ d.myId then none
  else if !m.int then (if d.isDown (m.dst % 128) then port (m.dst % 128) else none)
  else if m.cls = 0xD && (m.body.op = .rstAsk || cfgOp m.body.op) then ld m.body.ld
  else if req && m.body.tk ≥ 0x800 then ld (m.body.tk - 0x800)
  else if req then port (m.body.tk / 16)
  else none

/-- The request of this device that an answer received on a Dunrun link ends: the Dunrun port that sent it, and it. (DEDUCED, log entry 88) -/
def Dev.askOf (d : Dev) (m : Msg) : Option (Nat × Outst) :=
  if m.int || m.dst / 128 ≠ d.myId || !List.contains [0x2, 0x5, 0x6, 0xC] m.cls then none
  else (List.range 32).findSome? fun k =>
    let p := d.linkPort k
    if d.portDunrun p then ((d.port p).outst.find? (·.tag = m.body.tag)).map fun o => (p, o) else none

/-- A HOME access from another device to a local target whose link has not negotiated HDM-DB, or an LD it lacks (R683). -/
def Dev.homeRefuses (d : Dev) (m : Msg) : Bool :=
  m.int && m.dst / 128 = d.myId && m.cls = 0xD && ((accKind m.body.op).isSome || clnOp m.body.op) && m.body.tk < 0x800 &&
    d.tgtRefuses (d.tgtOfKey m.body.tk) (bit m.body.st 1)

/-- A home request of another device carries its region's P attribute and whether its entry is HOME in its STATE (R345). -/
def Msg.asHome (m : Msg) : Msg :=
  if m.int && m.cls = 0xD && ((accKind m.body.op).isSome || clnOp m.body.op || svcOp m.body.op) then
    { m with attrP := bit m.body.st 0, homed := bit m.body.st 1 }
  else m

/-- A whole message that its packet has delivered enters the device. -/
def Dev.deliverIn (d : Dev) (k : Nat) (m : Msg) : Dev :=
  let p := d.linkPort k
  let m := m.asHome
  if d.ttlBad m then ((d.consumeCredit m).inc DRL_DROP_TTL k).raise DRL_F_TTL_DROP k
  else
    let d := if m.poison then d.raise PRT_F_POISON_RX p { dom := some m.domain } else d
    match d.exportBad m with
    | some s =>
      let d := (d.consumeCredit m).raise DEC_F_EXPORT_VIOL s { dom := some m.domain }
      if m.body.op = .rstAsk then d
      else if ioOp m.body.op || cfgOp m.body.op then d.replyTo (srcSlice p) { m with fid := 0 } .ioUr [] false 0
      else if m.asks || m.cls = 0xD then d.replyFail (srcSlice p) { m with fid := 0 } else d
    | none =>
      match d.askOf m with
      | some (q, o) =>
        let d := (d.consumeCredit m).modPort q fun x => { x with outst := x.outst.erase o }
        d.endAsk q o.m ((rspOp m.body.op).getD .tgtDone) m.body.data m.poison 1
      | none =>
        if d.homeRefuses m then
          let d := if d.portShut (m.body.tk / 16) then d else d.decodeMiss (m.body.tk / 128) m
          (d.consumeCredit m).replyFail (srcSlice p) { m with fid := 0 }
        else if !m.int && m.dst / 128 = d.myId && List.contains [0x2, 0x5, 0x6, 0xC] m.cls && !ownOp m.body.op then d.consumeCredit m
        else ((d.count .prt p 0x200).count .prt p 0x202 m.bytes).pushRel m

/-- The header of the packet at the front may be released before its tail: the message goes into the core, and is none that
ends here as an answer to the device's own request, or as a home request whose R341 check needs its payload. A packet of one cell has
only its LAST one, which waits for the tail (R233). (DESIGN CHOICE, log entry 89) -/
def Dev.cutThrough (d : Dev) (k : Nat) (m : Msg) : Bool :=
  let here := m.dst / 128 = d.myId
  1 ≤ m.len && !d.ttlBad m && !(here && !m.int && List.contains [0x2, 0x5, 0x6, 0xC] m.cls) && !(here && m.cls = 0xD) && (d.exportBad m).isNone

/-- A header is released cut-through with the first `n` payload cells: the message opens (Table 5-7). -/
def Dev.openHeader (d : Dev) (k : Nat) (b : Bytes) (n : Nat) : Dev :=
  (d.modLink k fun l => { l with openMsg := true }).pushRel (d.partMsg k b n)

/-- A message closes bad that was not released: all the same it reaches the core, tail-bad (R233), unless its header ends it here. -/
def Dev.pushBad (d : Dev) (m : Msg) : Dev :=
  if d.ttlBad m || (!m.int && (d.exportBad m).isSome) then d else d.pushRel { m with tailBad := true }

/-! ## Message packets (R170 to R172) -/

/-- ACK(E − 1) after ACK_PKT acceptances (R172). -/
def Dev.ackAfter (d : Dev) (k : Nat) : Dev :=
  let n := (d.link k).accSinceAck + 1
  let d := d.modLink k fun l => { l with accSinceAck := n }
  if n ≥ max 1 (d.get DRL_TIMERS_ACK_PKT k) then d.sendAck k else d

/-- A whole message packet is handled as Table 5-7 states. (DEDUCED, log entry 88) -/
def Dev.takeMessage (d : Dev) (k : Nat) (b : Bytes) : Dev :=
  let l := d.link k
  let e := d.rxE k
  let m := d.packetMsg k b
  let diff := (m.seq + 4096 - e) % 4096
  if diff = 0 then
    if l.stall.contains m.seq then d.modLink k fun l => { l with stall := l.stall.erase m.seq }
    else if pktTailOk b then
      let d := ((d.put DRL_SEQ_RX_EXPECT k ((e + 1) % 4096)).modLink k fun l => { l with nakOut := false }).count .drl k 0x201
      let d := if l.openMsg then
          let d := if m.poison then d.raise PRT_F_POISON_RX (d.linkPort k) { dom := some m.domain } else d
          d.closeOpen k false m
        else d.deliverIn k m
      d.ackAfter k
    else
      let d := if l.openMsg then d.closeOpen k true {} else d.pushBad m
      (d.raise DRL_F_TAIL_BAD k).sendNak k
  else if diff < 2048 then (if l.nakOut then d else d.sendNak k)
  else d.sendAck k

/-! ## Acknowledgement and replay (R169 to R174) -/

/-- Packets from U to `s` leave the replay buffer, when `s` lies in U to N − 1. -/
def Dev.releaseTo (d : Dev) (k s : Nat) : Dev :=
  let u := d.txU k
  let n := (s + 4096 - u) % 4096
  if n < (d.txN k + 4096 - u) % 4096 then
    (d.setTx k ((s + 1) % 4096) (d.txN k)).modLink k fun l => { l with replay := l.replay.drop (n + 1), replays := 0 }
  else d

/-- Every packet from `e` to N − 1 is sent again with RETX set; at REPLAY_LIMIT the octet retrains (R174). -/
def Dev.replayFrom (d : Dev) (k e : Nat) : Dev :=
  let ps := (d.link k).replay.drop ((e + 4096 - d.txU k) % 4096)
  if ps.isEmpty then d
  else
    let d := ps.foldl (fun d r => (d.sendPkt k (retxPacket r.bytes)).count .drl k 0x202) (d.raise DRL_F_REPLAY k)
    let n := (d.link k).replays + 1
    if n ≥ max 1 (d.get DRL_TIMERS_REPLAY_LIMIT k) then
      ((d.modLink k fun l => { l with replays := 0 }).raise DRL_F_REPLAY_EXHAUST k).drRetrain (d.lkOctet k)
    else d.modLink k fun l => { l with replays := n }

/-- NAK(E) received (R173): packets from U to s = E − 1 are released, provided s lies in U to N − 1, and those from E on are
replayed; any other NAK is ignored as stale, and the replay timer repairs what it asked for. -/
def Dev.takeNak (d : Dev) (k e : Nat) : Dev :=
  let u := d.txU k
  let s := (e + 4095) % 4096
  if (s + 4096 - u) % 4096 < (d.txN k + 4096 - u) % 4096 then (d.releaseTo k s).replayFrom k e else d

/-! ## Control packets (Table 5-5) -/

/-- CREDIT received (R173, R177). -/
def Dev.takeCredit (d : Dev) (k : Nat) (b : Bytes) : Dev :=
  let n := pktNat b
  let v := fld n 4 3
  let d := if v < d.nvc k then d.modLink k fun l => { l with limit := SMap.set 0 l.limit v (fld n 8 20) } else d
  if fld n 40 1 = 1 then d.releaseTo k (fld n 28 12) else d

/-- Fields of INIT or INIT_ACK (R168). -/
def Dev.takePeer (d : Dev) (k : Nat) (b : Bytes) : Dev :=
  (d.put DRL_STAT_PEER_DEVID k (fld (pktNat b) 8 4)).put DRL_STAT_PEER_OCTET k (fld (pktNat b) 12 6)

def Dev.initMatch (d : Dev) (k : Nat) (b : Bytes) : Bool :=
  let n := pktNat b
  fld n 8 4 ≠ d.myId && fld n 22 1 = 1 && d.on DEV_FABRIC_FABRIC_EN && fld n 18 3 = d.get DRL_CFG_NVC k &&
    fld n 21 1 = d.get DRL_CFG_ENC_REQ k

/-- INIT received: sequence state starts anew; answered with INIT_ACK. (DESIGN CHOICE, log entry 78) -/
def Dev.takeInit (d : Dev) (k : Nat) (b : Bytes) : Dev := ((d.takePeer k b).seqReset k).sendInit k 1

/-- INIT_ACK received in INIT (R167, R168). (DESIGN CHOICE, log entry 78) -/
def Dev.takeInitAck (d : Dev) (k : Nat) (b : Bytes) : Dev :=
  if d.lkState k ≠ lkInit then d
  else
    let d := d.takePeer k b
    if d.initMatch k b then
      let d := (d.put (PGEPOCH_APPLIED .drl) k 1).modLink k fun l => { l with cfgWait := false }
      if d.encReq k then (d.put DRL_STAT_STATE k lkKeywait).keyTry k else d.activeEnter k
    else if (d.link k).mismatch then d
    else (d.modLink k fun l => { l with mismatch := true }).raise DRL_F_CONFIG_MISMATCH k

/-- SPARE.REQ received (Table 5-8, step 2; R182): answered ACK with the block from which the lane's stream will come on the
spare, or NACK where the spare is in use. (DESIGN CHOICE, log entry 80) -/
def Dev.takeSpareReq (d : Dev) (k lane t : Nat) : Dev :=
  match (d.link k).spareTx with
  | some x => if x.trans = t then d.sendPkt k (pktSpare 1 x.lane (x.block.getD 0) t) else d.sendPkt k (pktSpare 3 lane 0 t)
  | none =>
    if (d.octet (d.lkOctet k)).txSpare then d.sendPkt k (pktSpare 3 lane 0 t)
    else
      let at_ := (d.txCount k + 64) % 4096
      (d.modLink k fun l => { l with spareTx := some { lane := lane, trans := t, block := some at_ } }).sendPkt k (pktSpare 1 lane at_ t)

/-- SPARE received (Table 5-8, R113, R182). (DESIGN CHOICE, log entry 80) -/
def Dev.takeSpare (d : Dev) (k : Nat) (b : Bytes) : Dev :=
  let n := pktNat b
  let blk := fld n 12 12
  let t := fld n 24 4
  let l := d.link k
  match pktSub b with
  | 0 => d.takeSpareReq k (fld n 8 4) t
  | 1 =>
    (match l.spare with
    | some x => if x.trans = t && x.block.isNone then d.modLink k fun l => { l with spare := some { x with block := some blk } } else d
    | none => d)
  | 2 =>
    (match l.spareTx with
    | some x =>
      if x.trans ≠ t then d
      else
        let d := (if x.done then d else d.txSwap k x).modLink k fun l => { l with spareTx := none }
        d.setOctet (d.lkOctet k) { d.octet (d.lkOctet k) with txOld := none }
    | none => d)
  | _ => if (l.spare.toList ++ l.spareMore).any fun x => x.trans = t then d.spareFail k else d

/-- TIME received (R188, R626), its first byte at fabric time `at_` (R189); half of an odd round trip is rounded down. (DESIGN CHOICE, log entry 36) -/
def Dev.takeTime (d : Dev) (k : Nat) (b : Bytes) (at_ : Nat) : Dev :=
  let n := pktNat b
  let id := fld n 8 8
  let ts := fld n 16 64
  let l := d.link k
  match pktSub b with
  | 0 => (d.sendPkt k (pktTime 1 id at_)).sendPkt k (pktTime 2 id d.fab)
  | 1 => if id = l.timeId && l.t1.isSome then d.modLink k fun l => { l with t2 := some ts, t4 := some at_ } else d
  | _ =>
    match l.t1, l.t2, l.t4 with
    | some t1, some t2, some t4 =>
      if id ≠ l.timeId then d
      else
        let asym := toSigned 16 (d.get DRL_TIME_ASYM k)
        let up := toSigned 64 (t2 + 2 ^ 64 - t1)
        let dn := toSigned 64 (t4 + 2 ^ 64 - ts)
        let rt := toSigned 64 (t4 + 2 ^ 64 - t1) - toSigned 64 (ts + 2 ^ 64 - t2)
        let d := (d.modLink k fun l => { l with t1 := none, t2 := none, t4 := none }).put DRL_TIME_DELAY k (ofSigned 32 (rt / 2 + asym))
        if d.trackLink = some k then d.servo ((up - dn) / 2 - asym) else d
    | _, _, _ => d

/-- CRUMB received (R190, R191, R631, R632). (DESIGN CHOICE, log entry 39) -/
def Dev.takeCrumb (d : Dev) (k : Nat) (b : Bytes) : Dev :=
  let n := pktNat b
  let id := fld n 8 8
  let t := fld n 16 64
  let origin := fld n 80 4
  let c := d.obs.crumb
  if c.seen.contains (origin, id) then d
  else
    let d := { d with obs := { d.obs with crumb := { c with seen := (origin, id) :: c.seen.take 63 } } }
    let d := d.sendCrumb id t origin (some k)
    let late := d.fab > t
    let (drop, d) := d.addEdge (coreEdge (if late then d.fab else t)) 6 origin id (if late then some (coreEdge d.fab - t) else none)
    if drop then d.raise CRB_F_DROPPED 0 else d

/-- ROUTE received (R195, R196). -/
def Dev.takeRoute (d : Dev) (k : Nat) (b : Bytes) : Dev :=
  let n := pktNat b
  let ports := (List.range (fld n 19 7 + 1)).map (fld n 8 11 + ·)
  if pktSub b = 0 then
    let before := d.reach
    let d := d.modLink k fun l => { l with withdrawn := (l.withdrawn ++ ports).dedup, gone := (l.gone ++ ports).dedup }
    d.withdrawLost before (some k)
  else d.modLink k fun l => { l with withdrawn := l.withdrawn.filter fun x => !ports.contains x }

/-- A packet other than SEC takes effect; its first byte came at fabric time `at_`. -/
def Dev.takePacket (d : Dev) (k : Nat) (b : Bytes) (at_ : Nat) : Dev :=
  match pktType b with
  | 0x1 => d.takeMessage k b
  | 0x8 => if pktSub b = 0 then d.releaseTo k (fld (pktNat b) 8 12) else d.takeNak k (fld (pktNat b) 8 12)
  | 0x9 => d.takeCredit k b
  | 0xA => if pktSub b = 0 then d.takeInit k b else d.takeInitAck k b
  | 0xB => d.takeSpare k b
  | 0xC => d.takeTime k b at_
  | 0xD => d.takeCrumb k b
  | 0xE => d.takeRoute k b
  | _ => d

/-! ## Encryption (R184 to R187) -/

/-- Payload cells of a packet, its LAST one apart, that lie in segments up to n; `blks`: the stream block of each byte. -/
def Dev.cellsTo (d : Dev) (k n : Nat) (blks : List Nat) (b : Bytes) : Nat :=
  ((List.range (fld (pktNat b) 8 3)).takeWhile fun j => d.segOf k (blks.getD (pktHead b + 64 * j + 63) 0) ≤ n).length

/-- The packet that goes on releases, or has released, what has come of it: its header and `n` payload cells (R170). -/
def Dev.releaseCells (d : Dev) (k : Nat) (b : Bytes) (n : Nat) : Dev :=
  let m := d.packetMsg k b
  if n = 0 || pktType b ≠ 0x1 || m.seq ≠ d.rxE k || (d.link k).stall.contains m.seq then d
  else if (d.link k).openMsg then d.showCells k (pktWire b) n
  else if d.cutThrough k m then d.openHeader k b n
  else d

/-- Segment n has passed: packets that end in it or before take effect; of one that goes on, the parts that lie in it or before
are released (R185). -/
def Dev.segPassed (d : Dev) (k n : Nat) : Dev :=
  let hs := (d.link k).segHold
  let whole (h : List Nat × Bytes) : Bool := d.segOf k (h.1.getLastD 0) ≤ n
  let d := d.modLink k fun l => { l with segHold := l.segHold.filter fun h => !whole h }
  hs.foldl (fun d h =>
    if whole h then d.takePacket k h.2 (d.blkTime k (h.1.headD 0))
    else d.releaseCells k h.2 (d.cellsTo k n h.1 h.2)) d

/-- SEC.MAC received in stream block `blk`: it verifies the segment whose MAC comes next (R185); a failure discards the packets
that wait, and the link goes down (R186). In KEYWAIT the first MAC shows where the segment whose MAC comes next began. (DESIGN CHOICE, log entry 81) -/
def Dev.takeMac (d : Dev) (k blk : Nat) (b : Bytes) : Dev :=
  let d := if (d.link k).macSeen then d else d.modLink k fun l => { l with rxOrigin := blk - d.get DRL_CFG_SEG k, segFirst := l.macNext }
  let l := d.link k
  let n := l.macNext
  let (slot, i) := l.slotOf n
  let valid := d.on (if slot = 0 then DRL_SEC_VALID0 else DRL_SEC_VALID1) k
  let (pt, aad) := d.segAcc k n
  if valid && fld (pktNat b) 8 96 = Config.gcmTag (d.linkKey k (2 + slot)) i aad pt % 2 ^ 96 then
    let keep := l.acc.filter fun e => n < d.segOf k e.1
    let d := d.modLink k fun l => { l with acc := keep, macNext := n + 1, macSeen := true }
    (d.segPassed k n).keyTry k
  else
    let d := d.modLink k fun l => { l with segHold := [], freshKeys := false }
    ((d.closeBad k).linkDownEv k).raise DRL_F_LINK_SEC k

/-- SEC.KEY_SWITCH received as the last packet of its segment: the next one uses the new slot (R187). -/
def Dev.takeKeySwitch (d : Dev) (k blk : Nat) (b : Bytes) : Dev :=
  let s := d.segOf k blk + 1
  d.modLink k fun l => { l with rxPrev := (l.rxSlot, l.segBase), rxSlot := fld (pktNat b) 8 1, segBase := s }

/-! ## Rows of received packets -/

/-- A packet may take effect in the link's state (Table 5-6). (DESIGN CHOICE, log entry 78) -/
def Dev.pktNow (d : Dev) (k t : Nat) : Bool :=
  let st := d.lkState k
  if st = lkDown then false
  else if st = lkInit then t = 0xA
  else if st = lkKeywait then t = 0xA || t = 0xF
  else true

/-- A TIME packet that lies in a swapped or replayed block is discarded, and its exchange abandoned (R189). -/
def Dev.timeCut (d : Dev) (k : Nat) : Dev := d.modLink k fun l => { l with t1 := none, t2 := none, t4 := none }

/-- A replayed message marks the blocks it lies in (R189). -/
def Dev.retxMark (d : Dev) (k : Nat) (b : Bytes) (blks : List Nat) : Dev :=
  if pktType b = 0x1 && fld (pktNat b) 60 1 = 1 then d.modLink k fun l => { l with markBlk := (blks.dedup ++ l.markBlk).take 16 } else d

/-- A packet `b`, taken from the stream blocks `blks`, meets the link: SEC takes effect; under encryption another waits for
its segments' MACs (R185). -/
def Dev.packetIn (d : Dev) (k : Nat) (b : Bytes) (blks : List Nat) : Dev :=
  let t := pktType b
  let blk := blks.headD 0
  let d := d.retxMark k b blks
  if t = 0xC && blks.any fun x => (d.link k).markBlk.contains x then d.timeCut k
  else if t = 0xF then (if pktSub b = 0 then d.takeMac k blk b else d.takeKeySwitch k blk b)
  else if d.encOn k then
    d.modLink k fun l => { l with segHold := l.segHold ++ [(blks, b)] }
  else d.takePacket k b (d.blkTime k blk)

/-- The packet `b` at the front is taken, held for its segment's MAC, or, in a state that does not allow it, discarded. -/
def Dev.takeFront (d : Dev) (k : Nat) (b : Bytes) : Dev :=
  let blks := d.frontBlks k b.length
  let d := d.popFront k b
  (if d.pktNow k (pktType b) then d.packetIn k b blks else d).frontCheck k

/-- The packet at the front is of type `t` and sub-type `sub`: it is taken. -/
def Dev.rowPkt (d : Dev) (k t : Nat) (sub : Option Nat) : Dev :=
  match d.front k with
  | none => d
  | some b => if d.halted || pktType b ≠ t || sub.any (· ≠ pktSub b) then d else d.takeFront k b

/-- Whole packets that wait at the front of the stream are taken, in order, before a loss behind them acts. (DESIGN CHOICE, log entry 89) -/
def Dev.takeWhole : Nat → Dev → Nat → Dev
  | 0, d, _ => d
  | f + 1, d, k =>
    if d.lkState k = lkDown || (d.link k).parseLost then d
    else match d.front k with
      | none => d
      | some b => Dev.takeWhole f (d.takeFront k b) k

/-- What of the packet in progress at the front has come is released, when nothing seals it (R170). -/
def Dev.cellsCome (d : Dev) (k : Nat) : Dev :=
  let s := d.rxBytes k
  if d.encRx k || s.length < 16 || !d.pktNow k 0x1 then d
  else d.releaseCells k s (min (fld (pktNat s) 8 3) ((s.length - pktHead s) / 64))

/-! ## Blocks (R156 to R160) -/

/-- Bytes of the packet in progress still to come, when its header has come and is no longer to be judged. -/
def Dev.pktRest (d : Dev) (k : Nat) : Option Nat :=
  let s := d.rxBytes k
  if (d.link k).skip > 0 then some (d.link k).skip
  else if s.length ≥ 16 && s.length < pktLen s then some (pktLen s - s.length) else none

/-- A packet that expects more of itself loses part of it: with SEQ = E it closes tail-bad, its header having been released;
ahead of E or behind, it is discarded as Table 5-7 states (R159, R170). -/
def Dev.packetCut (d : Dev) (k : Nat) : Dev :=
  let m := d.packetMsg k (d.rxBytes k)
  let diff := (m.seq + 4096 - d.rxE k) % 4096
  let nak (d : Dev) : Dev := if d.lkState k = lkActive then d.sendNak k else d
  if diff = 0 then
    if (d.link k).stall.contains m.seq then d
    else
      let d := if (d.link k).openMsg then d.closeOpen k true {} else d.pushBad m
      nak (d.raise DRL_F_TAIL_BAD k)
  else if diff < 2048 then (if (d.link k).nakOut then d else nak d)
  else if d.lkState k = lkActive then d.sendAck k else d

/-- A block's payload is lost (R159): inside a packet the parse goes on behind it, else it is lost. -/
def Dev.blockLost (d : Dev) (k : Nat) : Dev :=
  let d := d.takeWhole ((d.link k).stream.length / 16 + 1) k
  if (d.link k).parseLost || d.lkState k = lkDown then d
  else match d.pktRest k with
    | some r =>
      if r < 248 then (if (d.link k).skip > 0 then d else d.packetCut k).parseLose k
      else
        let d := if (d.link k).skip > 0 then d else d.packetCut k
        d.modLink k fun l => { l with stream := [], strBlk := [], skip := r - 248 }
    | none => d.parseLose k

/-- A data block's payload, of stream block `n`, joins the stream. -/
def Dev.blockData (d : Dev) (k n : Nat) (start : Bool) (pl : Bytes) : Dev :=
  let d := if start then d.takeWhole ((d.link k).stream.length / 16 + 1) k else d
  let l := d.link k
  if d.lkState k = lkDown then d
  else if start && (l.parseLost || !l.stream.isEmpty || l.skip > 0) then
    let d := if l.parseLost || ((d.rxBytes k).isEmpty && l.skip = 0) then d else d.parseLose k
    let idle := if d.encRx k then (l.strBlk.foldl (fun l x => l.account 1 x 0) l).acc else l.acc
    let acc := if l.parseLost || !(d.rxBytes k).isEmpty then l.acc else idle
    (d.modLink k fun l =>
      { l with stream := pl, strBlk := List.replicate pl.length n, acc := acc, parseLost := false, skip := 0 }).frontCheck k
  else if l.parseLost then d
  else
    let j := min l.skip pl.length
    let had := (d.rxBytes k).length ≥ 16
    let d := d.modLink k fun l =>
      { l with stream := l.stream ++ pl.drop j, strBlk := l.strBlk ++ List.replicate (pl.length - j) n, skip := l.skip - j }
    let d := if had then d else d.frontCheck k
    if (d.link k).openMsg then d.cellsCome k else d

/-- The next block of the stream: what logical lane `lane` has brought. -/
def Dev.streamBlock (d : Dev) (k lane : Nat) (x : RxBlk) : Dev :=
  let l := d.link k
  let n := l.rxBlk
  let swapped := l.swapLane.contains lane
  let d := d.modLink k fun l =>
    { l with rxBlk := n + 1, blockCnt := (l.blockCnt + b2n (lane = 0)) % 4096, swapLane := l.swapLane.filter (· ≠ lane), markBlk := if swapped then n :: l.markBlk.take 15 else l.markBlk }
  if d.lkState k = lkDown then d
  else match x with
    | .data start pl t => (d.modLink k fun l => { l with blkAt := (n, t) :: l.blkAt.take 63 }).blockData k n start pl
    | .lost => d.blockLost k
    | .other => d

/-- Blocks join the stream in stream order: block w·t + l from logical lane l (R160). A lane that no locked lane carries brings
lost ones. (DESIGN CHOICE, log entry 124) -/
def Dev.rxDrain : Nat → Dev → Nat → Dev
  | 0, d, _ => d
  | f + 1, d, k =>
    let l := d.link k
    let o := d.lkOctet k
    let next := (l.rxLane + 1) % d.lkWidth k
    match SMap.get [] l.rxQ l.rxLane with
    | x :: r =>
      let d := d.modLink k fun y => { y with rxQ := SMap.set [] y.rxQ l.rxLane r, rxLane := next }
      Dev.rxDrain f (d.streamBlock k l.rxLane x) k
    | [] =>
      if l.rxQ.isEmpty || (List.range 9).any fun i => d.on SDS_LANE_LOCK o i && d.dataLane o i && d.get SDS_LANE_LOGICAL o i = l.rxLane then d
      else Dev.rxDrain f ((d.modLink k fun y => { y with rxLane := next }).streamBlock k l.rxLane .lost) k

/-- A block of logical lane n waits for its place, and the stream goes on. -/
def Dev.blockIn (d : Dev) (k n : Nat) (x : RxBlk) : Dev :=
  let d := d.modLink k fun l =>
    { l with rxQ := SMap.set [] l.rxQ n (SMap.get [] l.rxQ n ++ [x]) }
  Dev.rxDrain (8 * (((d.link k).rxQ.map fun e => e.2.length).sum + 1)) d k

/-- A block that its code cannot correct, or that its lane loses; `bad`: its header is invalid (R83, R109, R159). (DESIGN CHOICE, log entry 89) -/
def Dev.blockUncorr (d : Dev) (k lane bad : Nat) : Dev :=
  let o := d.lkOctet k
  let d := (d.laneCounts o lane 0 bad (1 - bad)).raise DRL_F_BLOCK_UNCORR k
  if d.dataLane o lane then d.blockIn k (d.get SDS_LANE_LOGICAL o lane) .lost else d

/-- A block corrected in `n` symbols: its payload joins the stream. -/
def Dev.blockGood (d : Dev) (k lane bad : Nat) (b : Bytes) (n : Nat) : Dev :=
  let o := d.lkOctet k
  let d := d.laneCounts o lane n bad 0
  let h := leNat (b.take 2)
  let x : RxBlk := if h = syncData || h = syncStart then .data (h = syncStart) ((b.drop 2).take 248) d.fab else .other
  if d.dataLane o lane then d.blockIn k (d.get SDS_LANE_LOGICAL o lane) x else d

/-- R103, R158: a block arrives on a lane of link k's octet. -/
def Dev.dunrunBlockRow (d : Dev) (k lane : Nat) (raw : Bytes) : Dev :=
  let o := d.lkOctet k
  if d.halted || !d.linkAvail k || d.octState o ≠ tsDrActive || d.get SDS_LANE_LOCK o lane = 0 || raw.length ≠ 256 then d
  else
    let h := leNat (raw.take 2)
    let bad := b2n (!d.hdrOk o lane h)
    let blk := if d.on SDS_LANE_POL_INV o lane then raw.map fun b => b ^^^ 0xAA else raw
    let d := match blockCorrect blk with
      | none => d.blockUncorr k lane bad
      | some (b, n) => d.blockGood k lane bad b n
    d.laneHeader o lane h

/-! ## Packet rows -/

/-- R170: a message packet; while its tail has not come, its header is released cut-through with the payload cells that have come,
which encryption delays to the MACs of their segments (R185). -/
def Dev.messagePacketRow (d : Dev) (k : Nat) : Dev :=
  match d.front k with
  | some _ => d.rowPkt k 0x1 none
  | none => if d.halted then d else d.cellsCome k

def Dev.ackRow (d : Dev) (k : Nat) : Dev := d.rowPkt k 0x8 (some 0)
def Dev.nakRow (d : Dev) (k : Nat) : Dev := d.rowPkt k 0x8 (some 1)
def Dev.creditRow (d : Dev) (k : Nat) : Dev := d.rowPkt k 0x9 none
def Dev.initRow (d : Dev) (k : Nat) : Dev := d.rowPkt k 0xA (some 0)
def Dev.initAckRow (d : Dev) (k : Nat) : Dev := d.rowPkt k 0xA (some 1)
/-- SPARE.REQ received (R180). (DESIGN CHOICE, log entry 80) -/
def Dev.spareReqRow (d : Dev) (k : Nat) : Dev := d.rowPkt k 0xB (some 0)
def Dev.spareAckRow (d : Dev) (k : Nat) : Dev := d.rowPkt k 0xB (some 1)
def Dev.spareDoneRow (d : Dev) (k : Nat) : Dev := d.rowPkt k 0xB (some 2)
def Dev.spareNackRow (d : Dev) (k : Nat) : Dev := d.rowPkt k 0xB (some 3)
def Dev.timeReqRow (d : Dev) (k : Nat) : Dev := d.rowPkt k 0xC (some 0)
def Dev.timeRespRow (d : Dev) (k : Nat) : Dev := d.rowPkt k 0xC (some 1)
def Dev.timeFollowRow (d : Dev) (k : Nat) : Dev := d.rowPkt k 0xC (some 2)
def Dev.crumbRow (d : Dev) (k : Nat) : Dev := d.rowPkt k 0xD (some 0)
def Dev.routeWithdrawRow (d : Dev) (k : Nat) : Dev := d.rowPkt k 0xE (some 0)
def Dev.routeRestoreRow (d : Dev) (k : Nat) : Dev := d.rowPkt k 0xE (some 1)
/-- SEC.MAC received (R185). (DESIGN CHOICE, log entry 81) -/
def Dev.secMacRow (d : Dev) (k : Nat) : Dev := d.rowPkt k 0xF (some 0)
def Dev.keySwitchRow (d : Dev) (k : Nat) : Dev := d.rowPkt k 0xF (some 1)

/-! ## The link's own moves -/

def Dev.lkActiveNow (d : Dev) (k : Nat) : Bool := !d.halted && d.lkState k = lkActive

/-- R154: DRL_ATTACH written. (DESIGN CHOICE, log entry 26) -/
def Dev.drlAttach (d : Dev) (k oct : Nat) (valid : Bool) : Dev :=
  if d.locked ⟨.drl, k⟩ || d.on (PGCTL_ENABLE .drl) k then d
  else if valid && (List.range 32).any fun j => j ≠ k && d.on DRL_ATTACH_VALID j && d.get DRL_ATTACH_OCTET j = oct then
    d.put DRL_ATTACH_CONFLICT k 1
  else (((d.put DRL_ATTACH_OCTET k oct).put DRL_ATTACH_VALID k (b2n valid)).put DRL_ATTACH_CONFLICT k 0).modLink k Link.blocksAnew

def Dev.drlAttachRow (d : Dev) (path k oct : Nat) (valid : Bool) : Dev :=
  d.access path ⟨.drl, k⟩ 0x140 fun d => d.drlAttach k oct valid

/-- Table 5-6: DOWN to INIT. -/
def Dev.linkInitRow (d : Dev) (k : Nat) : Dev :=
  if d.halted || d.lkState k ≠ lkDown || !d.linkAvail k || !d.on (PGCTL_ENABLE .drl) k || d.quarantined (.link k) ||
      d.octState (d.lkOctet k) ≠ tsDrActive then d
  else d.initEnter k

def Dev.initResendRow (d : Dev) (k : Nat) : Dev :=
  if !d.halted && (d.lkState k = lkInit || d.lkState k = lkKeywait) then d.sendInit k 0 else d

/-- R171: REPLAY_TO after a NAK that is still outstanding. -/
def Dev.nakResendRow (d : Dev) (k : Nat) : Dev := if d.lkActiveNow k && (d.link k).nakOut then d.sendNak k else d

/-- R172. -/
def Dev.ackNsTimerRow (d : Dev) (k : Nat) : Dev := if d.lkActiveNow k && (d.link k).accSinceAck > 0 then d.sendAck k else d
def Dev.ackIdleTimerRow (d : Dev) (k : Nat) : Dev := if d.lkActiveNow k then d.sendAck k else d

/-- R174: the replay timer reaches REPLAY_TO. -/
def Dev.replayTimeoutRow (d : Dev) (k : Nat) : Dev := if d.lkActiveNow k then d.replayFrom k (d.txU k) else d

/-- R175. -/
def Dev.liveTimeoutRow (d : Dev) (k : Nat) : Dev := if d.lkActiveNow k then d.linkDownEv k else d

/-- Bytes in the replay buffer. -/
def Link.replayBytes (l : Link) : Nat := (l.replay.map fun r => r.bytes.length).sum

/-- The device awaits the answer of a message of its own. (DESIGN CHOICE, log entry 72) -/
def Dev.ownAsk (d : Dev) (m : Msg) : Bool := m.link.isNone && m.srcG / 128 = d.myId && m.awaits

/-- The packet of a message that link k sends next (R163, R199). -/
def Dev.packetOf (d : Dev) (k : Nat) (m : Msg) : Bytes :=
  let m1 := { m with hops := if m.link.isSome then m.hops + 1 else 0, sf := m.link.isSome,
                     body := { m.body with tag := if d.ownAsk m then d.core.nextTag else m.body.tag } }
  msgPacket m1 (d.vcOf k m.cls) (d.txN k) false

/-- The message leaves: its packet, numbered N, enters the replay buffer and is charged to its VC. (DESIGN CHOICE, log entry 79) -/
def Dev.packetOut (d : Dev) (k : Nat) (m : Msg) (rest : List Msg) : Dev :=
  let p := d.linkPort k
  let n := d.txN k
  let t := d.core.nextTag
  let mine := d.ownAsk m
  let v := d.vcOf k m.cls
  let b := d.packetOf k m
  let d := d.modPort p fun x => { x with tx := rest, outst := if mine then x.outst ++ [{ tag := t, ld := m.body.ld, m := m }] else x.outst }
  let d := if mine then { d with core := { d.core with nextTag := t + 1 } } else d
  let d := (d.setTx k (d.txU k) ((n + 1) % 4096)).modLink k fun l =>
    { l with replay := l.replay ++ [⟨n, v, b⟩], sent := SMap.set 0 l.sent v ((SMap.get 0 l.sent v + m.len + 1) % 2 ^ 20) }
  (((d.count .prt p 0x201).count .prt p 0x203 m.bytes).stampStart p).sendPkt k b

/-- Of the messages handed to the Dunrun port, oldest first, the first that its VC's credit lets go; messages behind one of the
same VC wait with it (R177, R179). -/
def Dev.sendable (d : Dev) (k : Nat) : List Msg → List Nat → Option Msg
  | [], _ => none
  | m :: r, held =>
    let v := d.vcOf k m.cls
    if !held.contains v && d.linkCredit k m then some m else d.sendable k r (v :: held)

/-- R177, R179: a message handed to the Dunrun port is sent. -/
def Dev.messagePacketSendRow (d : Dev) (k : Nat) : Dev :=
  let ms := (d.port (d.linkPort k)).tx
  match d.sendable k ms [] with
  | none => d
  | some m =>
    if !d.lkActiveNow k || (d.txN k + 4096 - d.txU k) % 4096 ≥ 2048 ||
        (d.link k).replayBytes + (d.packetOf k m).length > 262144 then d
    else d.packetOut k m (ms.erase m)

/-- R178: CREDIT for each VC. -/
def Dev.creditTimerRow (d : Dev) (k : Nat) : Dev :=
  if d.lkActiveNow k then (List.range (d.nvc k)).foldl (fun d v => d.sendCredit k v) d else d

/-- Messages that wait for link k. -/
def Dev.toSend (d : Dev) (k : Nat) : List Msg :=
  (d.port (d.linkPort k)).tx ++ ((d.core.oven.filter fun x => x.dest = d.linkPort k).map (·.m))

/-- R179: a packet of VC `vc` has waited 1 ms for credit. -/
def Dev.creditStallRow (d : Dev) (k vc : Nat) : Dev :=
  if d.lkActiveNow k && (d.toSend k).any (fun m => d.vcOf k m.cls = vc && !d.linkCredit k m) then d.raise DRL_F_CREDIT_STALL k else d

/-- R188: a TIME exchange begins. -/
def Dev.timeExchangeRow (d : Dev) (k : Nat) : Dev :=
  if d.lkActiveNow k && d.on DRL_TIME_SYNC_EN k then
    let id := ((d.link k).timeId + 1) % 256
    (d.modLink k fun l => { l with timeId := id, t1 := some d.fab, t2 := none, t4 := none }).sendPkt k (pktTime 0 id d.fab)
  else d

/-- The spare takes the lane's place, and DONE is sent (Table 5-8, steps 3 and 4; R189). (DESIGN CHOICE, log entry 80) -/
def Dev.spareSwap (d : Dev) (k : Nat) (x : Spare) (sp : Nat) : Dev :=
  let o := d.lkOctet k
  let d := match (List.range 9).find? fun l => d.get SDS_LANE_LOGICAL o l = x.lane && !d.on SDS_LANE_SPARE o l with
    | some l => ((d.put SDS_LANE_LOGICAL o 0xF l).put SDS_LANE_LOCK o 0 l).setLanes o [l] psOff
    | none => d
  let d := ((d.put SDS_LANE_LOGICAL o x.lane sp).put SDS_LANE_SPARE o 0 sp).setLanes o [sp] psActive
  let d := ((d.put SDS_STAT_SPARE_IN_USE o 1).timeCut k).modLink k fun l => { l with spare := none, swapLane := x.lane :: l.swapLane }
  (d.sendPkt k (pktSpare 2 x.lane (x.block.getD 0) x.trans)).raise DRL_F_SPARE_SWAP k

/-- Table 5-8, step 3: once block time BLOCK has come, the lane's stream comes on the spare. -/
def Dev.spareBlockSwitchRow (d : Dev) (k : Nat) : Dev :=
  let o := d.lkOctet k
  match (d.link k).spare with
  | none => d
  | some x =>
    match (List.range 9).find? fun l => d.on SDS_LANE_SPARE o l with
    | none => d
    | some sp =>
      if !(x.block.any fun b => ((d.link k).blockCnt + 4096 - b) % 4096 < 2048) || !d.lkActiveNow k then d
      else d.spareSwap k x sp

/-- R180: every REQ is repeated until it is answered. -/
def Dev.spareReqRepeatRow (d : Dev) (k : Nat) : Dev :=
  let xs := ((d.link k).spare.toList ++ (d.link k).spareMore).filter fun x => x.block.isNone
  if d.lkActiveNow k then xs.foldl (fun d x => d.sendPkt k (pktSpare 0 x.lane 0 x.trans)) d else d

/-- R182: the swap is not complete 5 µs after REQ. -/
def Dev.spareTimeoutRow (d : Dev) (k : Nat) : Dev :=
  let l := d.link k
  if d.lkActiveNow k && (l.spare.isSome || !l.spareMore.isEmpty) then d.spareFail k else d

/-! ## Commands -/

/-- DRL_ATTACH (R154). -/
def execDrlAttach (path : Nat) (k : Nat) (oct : Nat) (valid : Bool) (s : State) : Host.Outcome State Fault Refusal :=
  run (okPath path && decide (k < 32) && decide (oct < 64)) "DRL_ATTACH" s (s.dev.drlAttachRow path k oct valid)

/-- DUNRUN_BLOCK (R158). -/
def execDunrunBlock (k : Nat) (lane : Nat) (raw : Bytes) (s : State) : Host.Outcome State Fault Refusal :=
  run (decide (k < 32) && decide (lane < 9)) "DUNRUN_BLOCK" s (s.dev.dunrunBlockRow k lane raw)

/-- MESSAGE_PACKET (R170). -/
def execMessagePacket (k : Nat) (s : State) : Host.Outcome State Fault Refusal :=
  run (decide (k < 32)) "MESSAGE_PACKET" s (s.dev.messagePacketRow k)

/-- ACK (R173). -/
def execAck (k : Nat) (s : State) : Host.Outcome State Fault Refusal :=
  run (decide (k < 32)) "ACK" s (s.dev.ackRow k)

/-- NAK (R173). -/
def execNak (k : Nat) (s : State) : Host.Outcome State Fault Refusal :=
  run (decide (k < 32)) "NAK" s (s.dev.nakRow k)

/-- CREDIT (R177). -/
def execCredit (k : Nat) (s : State) : Host.Outcome State Fault Refusal :=
  run (decide (k < 32)) "CREDIT" s (s.dev.creditRow k)

/-- INIT (R167). -/
def execInit (k : Nat) (s : State) : Host.Outcome State Fault Refusal :=
  run (decide (k < 32)) "INIT" s (s.dev.initRow k)

/-- INIT_ACK (R168). -/
def execInitAck (k : Nat) (s : State) : Host.Outcome State Fault Refusal :=
  run (decide (k < 32)) "INIT_ACK" s (s.dev.initAckRow k)

/-- SPARE_REQ (R180). -/
def execSpareReq (k : Nat) (s : State) : Host.Outcome State Fault Refusal :=
  run (decide (k < 32)) "SPARE_REQ" s (s.dev.spareReqRow k)

/-- SPARE_ACK (R180). -/
def execSpareAck (k : Nat) (s : State) : Host.Outcome State Fault Refusal :=
  run (decide (k < 32)) "SPARE_ACK" s (s.dev.spareAckRow k)

/-- SPARE_DONE (R180). -/
def execSpareDone (k : Nat) (s : State) : Host.Outcome State Fault Refusal :=
  run (decide (k < 32)) "SPARE_DONE" s (s.dev.spareDoneRow k)

/-- SPARE_NACK (R182). -/
def execSpareNack (k : Nat) (s : State) : Host.Outcome State Fault Refusal :=
  run (decide (k < 32)) "SPARE_NACK" s (s.dev.spareNackRow k)

/-- SPARE_BLOCK_SWITCH (R180). -/
def execSpareBlockSwitch (k : Nat) (s : State) : Host.Outcome State Fault Refusal :=
  run (decide (k < 32)) "SPARE_BLOCK_SWITCH" s (s.dev.spareBlockSwitchRow k)

/-- SPARE_REQ_REPEAT (R180). -/
def execSpareReqRepeat (k : Nat) (s : State) : Host.Outcome State Fault Refusal :=
  run (decide (k < 32)) "SPARE_REQ_REPEAT" s (s.dev.spareReqRepeatRow k)

/-- SPARE_TIMEOUT (R182). -/
def execSpareTimeout (k : Nat) (s : State) : Host.Outcome State Fault Refusal :=
  run (decide (k < 32)) "SPARE_TIMEOUT" s (s.dev.spareTimeoutRow k)

/-- TIME_REQ (R188). -/
def execTimeReq (k : Nat) (s : State) : Host.Outcome State Fault Refusal :=
  run (decide (k < 32)) "TIME_REQ" s (s.dev.timeReqRow k)

/-- TIME_RESP (R188). -/
def execTimeResp (k : Nat) (s : State) : Host.Outcome State Fault Refusal :=
  run (decide (k < 32)) "TIME_RESP" s (s.dev.timeRespRow k)

/-- TIME_FOLLOW (R626). -/
def execTimeFollow (k : Nat) (s : State) : Host.Outcome State Fault Refusal :=
  run (decide (k < 32)) "TIME_FOLLOW" s (s.dev.timeFollowRow k)

/-- CRUMB (R190). -/
def execCrumb (k : Nat) (s : State) : Host.Outcome State Fault Refusal :=
  run (decide (k < 32)) "CRUMB" s (s.dev.crumbRow k)

/-- ROUTE_WITHDRAW (R196). -/
def execRouteWithdraw (k : Nat) (s : State) : Host.Outcome State Fault Refusal :=
  run (decide (k < 32)) "ROUTE_WITHDRAW" s (s.dev.routeWithdrawRow k)

/-- ROUTE_RESTORE (R196). -/
def execRouteRestore (k : Nat) (s : State) : Host.Outcome State Fault Refusal :=
  run (decide (k < 32)) "ROUTE_RESTORE" s (s.dev.routeRestoreRow k)

/-- SEC_MAC (R185). -/
def execSecMac (k : Nat) (s : State) : Host.Outcome State Fault Refusal :=
  run (decide (k < 32)) "SEC_MAC" s (s.dev.secMacRow k)

/-- KEY_SWITCH (R187). -/
def execKeySwitch (k : Nat) (s : State) : Host.Outcome State Fault Refusal :=
  run (decide (k < 32)) "KEY_SWITCH" s (s.dev.keySwitchRow k)

/-- LINK_INIT (R167). -/
def execLinkInit (k : Nat) (s : State) : Host.Outcome State Fault Refusal :=
  run (decide (k < 32)) "LINK_INIT" s (s.dev.linkInitRow k)

/-- INIT_RESEND (R167). -/
def execInitResend (k : Nat) (s : State) : Host.Outcome State Fault Refusal :=
  run (decide (k < 32)) "INIT_RESEND" s (s.dev.initResendRow k)

/-- NAK_RESEND (R171). -/
def execNakResend (k : Nat) (s : State) : Host.Outcome State Fault Refusal :=
  run (decide (k < 32)) "NAK_RESEND" s (s.dev.nakResendRow k)

/-- ACK_NS_TIMER (R172). -/
def execAckNsTimer (k : Nat) (s : State) : Host.Outcome State Fault Refusal :=
  run (decide (k < 32)) "ACK_NS_TIMER" s (s.dev.ackNsTimerRow k)

/-- ACK_IDLE_TIMER (R172). -/
def execAckIdleTimer (k : Nat) (s : State) : Host.Outcome State Fault Refusal :=
  run (decide (k < 32)) "ACK_IDLE_TIMER" s (s.dev.ackIdleTimerRow k)

/-- REPLAY_TIMEOUT (R174). -/
def execReplayTimeout (k : Nat) (s : State) : Host.Outcome State Fault Refusal :=
  run (decide (k < 32)) "REPLAY_TIMEOUT" s (s.dev.replayTimeoutRow k)

/-- LIVE_TIMEOUT (R175). -/
def execLiveTimeout (k : Nat) (s : State) : Host.Outcome State Fault Refusal :=
  run (decide (k < 32)) "LIVE_TIMEOUT" s (s.dev.liveTimeoutRow k)

/-- MESSAGE_PACKET_SEND (R177). -/
def execMessagePacketSend (k : Nat) (s : State) : Host.Outcome State Fault Refusal :=
  run (decide (k < 32)) "MESSAGE_PACKET_SEND" s (s.dev.messagePacketSendRow k)

/-- CREDIT_TIMER (R178). -/
def execCreditTimer (k : Nat) (s : State) : Host.Outcome State Fault Refusal :=
  run (decide (k < 32)) "CREDIT_TIMER" s (s.dev.creditTimerRow k)

/-- CREDIT_STALL (R179). -/
def execCreditStall (k : Nat) (vc : Nat) (s : State) : Host.Outcome State Fault Refusal :=
  run (decide (k < 32) && decide (vc < 8)) "CREDIT_STALL" s (s.dev.creditStallRow k vc)

/-- TIME_EXCHANGE (R188). -/
def execTimeExchange (k : Nat) (s : State) : Host.Outcome State Fault Refusal :=
  run (decide (k < 32)) "TIME_EXCHANGE" s (s.dev.timeExchangeRow k)

end Sys2Proof.Machine
end

