-- ==== Sys2Proof/Machine/Lanes.lean ====
section
/-! DEFINITION. Commands of lanes, octets and training (chapter 3). -/

namespace Sys2Proof.Machine

/-! ## Calibration (R81, R82, R92) -/

/-- DEV_READY.SDS_CAL: no octet's calibration is still running. (DESIGN CHOICE, log entry 84) -/
def Dev.calNote (d : Dev) : Dev :=
  if (List.range 64).any fun o => d.octState o = tsCal then d else d.put DEV_READY_SDS_CAL 0 1

/-- R81: octet o is calibrated. -/
def Dev.calDoneRow (d : Dev) (o : Nat) : Dev :=
  if d.halted || d.octState o ≠ tsCal then d
  else
    let d := d.setOctet o { d.octet o with calibrated := true, failedCal := false }
    ((d.put (PGEPOCH_APPLIED .sds) o 1).octetGo o).calNote

def Dev.calTimeoutRow (d : Dev) (o : Nat) : Dev :=
  if d.halted || d.octState o ≠ tsCal then d
  else ((d.put (PGEPOCH_APPLIED .sds) o 1).enterFailed o true SDS_F_CAL_FAIL).calNote

/-- Table 3-4, row FAILED: 10 ms have passed. -/
def Dev.failedRetryRow (d : Dev) (o : Nat) : Dev :=
  if d.halted || d.octState o ≠ tsFailed || d.octMode o ≠ 2 then d
  else if (d.octet o).failedCal then d.enterCal o else d.enterDrLock o

/-- R23, R82: chiplet c loses its PLL. (DESIGN CHOICE, log entry 84) -/
def Dev.chipletPllLossRow (d : Dev) (c : Nat) : Dev := (List.range 8).foldl (fun d i => d.octetPllLoss (8 * c + i)) d

/-- A chiplet's PLL has locked again (R82). (DESIGN CHOICE, log entry 84) -/
def Dev.pllRelockRow (d : Dev) (c : Nat) : Dev :=
  (List.range 8).foldl (fun d i =>
    let o := 8 * c + i
    if (d.octet o).pllLost && !d.halted then (d.persist SDS_F_PLL_UNLOCK o false).enterCal o else d) d

/-- ELASTIC_ERR of a lane: its flit or block in progress is discarded as a CRC failure. -/
def Dev.elasticBad (d : Dev) (o lane : Nat) : Dev :=
  let d := d.raise SDS_F_ELASTIC_ERR o
  if d.octMode o = 2 then
    match d.linkOf o with
    | some k => if d.octState o = tsDrActive && d.on SDS_LANE_LOCK o lane then d.blockUncorr k lane 0 else d
    | none => d
  else
    match (d.octPorts o).find? fun p => (d.portLanes p o).contains lane with
    | some p =>
      if d.on PRT_STAT_DL_ACTIVE p && (d.portState p = tsL0 || d.portState p = tsL0p) then
        d.flitBad p
      else d
    | none => d

/-- R83. -/
def Dev.elasticErrRow (d : Dev) (o lane : Nat) : Dev :=
  if d.halted then d else d.elasticBad o lane

/-! ## CXL training (R84 to R91, R101, R116) -/

/-- Cache index of a rate with an equalisation cache: 32, 64, 128 GT/s. -/
def rateCache (rate : Nat) : Option (Fld × Fld × Nat) :=
  match rate with
  | 5 => some (SDS_EQ_CACHE_P32, SDS_EQ_CACHE_VALID32, 0)
  | 6 => some (SDS_EQ_CACHE_Q64, SDS_EQ_CACHE_VALID64, 1)
  | 7 => some (SDS_EQ_CACHE_Q128, SDS_EQ_CACHE_VALID128, 2)
  | _ => none

/-- Every lane of the port has a valid cache entry for the rate, and EQ_FAST is set (R84, R86); of an x16 port the lower octet's
EQ_FAST counts. (DESIGN CHOICE, log entry 115) -/
def Dev.cacheOk (d : Dev) (p rate : Nat) : Bool :=
  match rateCache rate with
  | some (_, v, _) => d.on SDS_MODE_EQ_FAST (p / 2) && (d.laneMap p).all fun (ol : Nat × Nat) => d.on v ol.1 ol.2
  | none => false

/-- R85: full equalisation at a rate has ended on a lane: its partner's preset and the receiver settings reached are in force,
and are stored for a rate with a cache. -/
def Dev.eqFull (d : Dev) (rate : Nat) (ol : Nat × Nat) (preset : Nat) : Dev :=
  let (v, d) := d.fresh
  let d := d.modLane ol.1 ol.2 fun x => { x with preset := preset % 16, rx := v + 1 }
  match rateCache rate with
  | some (f, ok, i) => ((d.put f ol.1 preset ol.2).put ok ol.1 1 ol.2).modLane ol.1 ol.2 fun x => { x with rxSet := SMap.set 0 x.rxSet i (v + 1) }
  | none => d

/-- R86, R117: a lane takes its cached preset; its receiver takes the cached settings, or adapts from its defaults where a
software write has made them invalid. -/
def Dev.eqCached (d : Dev) (rate : Nat) (ol : Nat × Nat) : Dev :=
  match rateCache rate with
  | some (f, _, i) =>
    let (v, d) := d.fresh
    d.modLane ol.1 ol.2 fun x =>
      { x with preset := d.get f ol.1 ol.2, rx := if SMap.get 0 x.rxSet i = 0 then v + 1 else SMap.get 0 x.rxSet i }
  | none => d

/-- A Detect that finds no receiver on a lane clears its cache entry (R88). -/
def Dev.noReceiver (d : Dev) (ol : Nat × Nat) : Dev :=
  ((d.setWord SDS_EQ_CACHE ol.1 0 ol.2).put SDS_LANE_PRESENT ol.1 0 ol.2).modLane ol.1 ol.2 fun x => { x with rxSet := [] }

/-- Highest rate code the port may run (R77, R78). -/
def Dev.topRate (d : Dev) (p : Nat) : Nat :=
  let m := d.get SDS_MODE_MAXRATE (p / 2)
  if d.get PRT_STAT_FLIT p = 1 then min 5 m else m

/-- The highest rate that both partners advertise, up to what the port may run (R77); the rates below 8 GT/s only train. -/
def Dev.commonRate (d : Dev) (p : Nat) (rates : List Nat) : Option Nat :=
  [7, 6, 5, 4, 3].find? fun r => r ≤ d.topRate p && rates.contains r

/-- Lanes, by place, that may carry the port as training finds them: from Detect every lane that trains, else those in service
(R84, R90, R91, R101, R115). -/
def Dev.trainLanes (d : Dev) (p : Nat) (fresh : Bool) (t : CxlTrain) : List Bool :=
  let ls := d.laneMap p
  (List.range ls.length).map fun i =>
    let (o, l) := ls.getD i (0, 0)
    !t.absent.contains i && !t.unlocked.contains i && !d.laneOff o l && (d.on SDS_MODE_POL_AUTO o || !t.swapped.contains i) &&
      (fresh || (d.goodLanes p).getD i false)

/-- The rates at which training equalises: every one from 8 GT/s on the way from Detect, or, where both ends offer bypass and in
a retrain, the last alone (R84). -/
def eqRates (rate : Nat) (fresh bypass : Bool) : List Nat :=
  if fresh && !bypass then (List.range (rate + 1)).filter (3 ≤ ·) else [rate]

/-- Presets that full equalisation reached at a rate. -/
def presetsAt (t : CxlTrain) (rate : Nat) : Option (List Nat) := (t.presets.find? (·.1 = rate)).map (·.2)

/-- Equalisation of lanes `used` at one rate: with the cached values, or in full (R84 to R86). -/
def Dev.equalise (d : Dev) (p rate : Nat) (cached : Bool) (used presets : List Nat) : Dev :=
  let ls := d.laneMap p
  let d := d.emit (.equalise p rate (!cached))
  used.foldl (fun d i => if cached then d.eqCached rate (ls.getD i (0, 0)) else d.eqFull rate (ls.getD i (0, 0)) (presets.getD i 0)) d

/-- Lane (o, l) of a port that reaches L0: in use as logical lane n, or off (R74, R101, R114). -/
def Dev.l0Lane (d : Dev) (o l n : Nat) (used : Bool) : Dev :=
  if used then
    let d := ((d.put SDS_LANE_PRESENT o 1 l).put SDS_LANE_LOCK o 1 l).put SDS_LANE_LOGICAL o n l
    ((d.put SDS_HEALTH_FAILED o 0 l).setLanes o [l] psActive).modLane o l fun x => { x with outOfService := false }
  else ((d.put SDS_LANE_LOCK o 0 l).put SDS_LANE_LOGICAL o 0xF l).setLanes o [l] psOff

/-- The link-layer work that a port's entry to L0 does. (DESIGN CHOICE, log entry 85) -/
def Dev.l0Go (d : Dev) (p rate : Nat) (used : List Nat) : Dev :=
  let ls := d.laneMap p
  let width := used.length
  let d := (List.range ls.length).foldl (fun d i =>
    d.l0Lane (ls.getD i (0, 0)).1 (ls.getD i (0, 0)).2 (if (d.port p).rev then ls.length - 1 - i else i) (used.contains i)) d
  let d := (d.portOctets p).foldl (fun d o => (d.put (rateFld p) o rate).put (widthFld p) o width) d
  let was := d.on PRT_STAT_DL_ACTIVE p
  let d := ((d.setPortState p tsL0).put PRT_STAT_LINK_UP p 1).put PRT_STAT_DL_ACTIVE p 1
  let d := d.modPort p fun x =>
    { x with hotSent := false, rxNext := if was then x.rxNext else 0, rxHold := was && x.rxHold, rxHalf := was && x.rxHalf, dry := if was then x.dry else [] }
  let d := d.noteBr p width rate
  let d := if was || !d.isUp p then d else d.emit (.gpfDuration p 250)
  if was || !d.isDown p then d
  else ((d.portTgts p).flatMap d.bindingsOf).foldl (fun d uv => d.hotPlug uv.1 uv.2 false) d

/-- Detect and polarity as training finds them: a lane without a receiver loses its cache entry (R88, R101). -/
def Dev.detected (d : Dev) (p : Nat) (t : CxlTrain) : Dev :=
  let ls := d.laneMap p
  let d := (List.range ls.length).foldl (fun d i =>
    let (o, l) := ls.getD i (0, 0)
    if t.absent.contains i then d.noReceiver (o, l)
    else (d.put SDS_LANE_PRESENT o 1 l).put SDS_LANE_POL_INV o (b2n (t.swapped.contains i && d.on SDS_MODE_POL_AUTO o)) l) d
  d.modPort p fun x => { x with rev := t.reversed }

/-- The lane order can be made right: the partner's order, or, where REV_AUTO lets the device reverse its own lanes, the
reversed one (R101). (DESIGN CHOICE, log entry 114) -/
def Dev.orderOk (d : Dev) (p : Nat) (t : CxlTrain) : Bool := !t.reversed || (d.portOctets p).all fun o => d.on SDS_MODE_REV_AUTO o

/-- The presets that training needs have been reached: at every rate with a cache that is equalised in full. -/
def presetsReached (t : CxlTrain) (rates : List Nat) : Bool :=
  rates.all fun r => (rateCache r).isNone || (presetsAt t r).isSome

/-- Training, from Detect (`fresh`) or Recovery, ends: the port reaches L0 at the highest common rate and the widest width its
good lanes support, equalised in full or from the cache (R77, R84 to R86, R90, R91); where it cannot, it goes on training. (DESIGN CHOICE, log entry 114) -/
def Dev.trainEnd (d : Dev) (p : Nat) (fresh : Bool) (t : CxlTrain) : Dev :=
  let d := if fresh then d.detected p t else d
  match d.commonRate p t.rates, widest (d.trainLanes p fresh t) with
  | some rate, some w =>
    let used := (pickLanes (d.trainLanes p fresh t) w).getD []
    let cached := d.cacheOk p rate
    let rs := eqRates rate fresh t.bypass
    let full := rs.filter fun r => !(cached && r = rate)
    if (fresh && !d.orderOk p t) || !presetsReached t full then d
    else
      let d := d.emit (.eqOffer p true cached)
      let d := rs.foldl (fun d r => d.equalise p r (cached && r = rate) used ((presetsAt t r).getD [])) d
      (d.modPort p fun x => { x with cachedEq := cached }).l0Go p rate used
  | _, _ => d

/-- A port leaves L1 or L0p: its lanes, rate and width stay. -/
def Dev.l0Back (d : Dev) (p : Nat) : Dev :=
  let ls := d.laneMap p
  let used := (List.range ls.length).filter fun i => d.get SDS_LANE_LOGICAL (ls.getD i (0, 0)).1 (ls.getD i (0, 0)).2 ≠ 0xF
  d.l0Go p (d.get (rateFld p) (p / 2)) used

/-- R85: port p reaches L0. (DESIGN CHOICE, log entry 85) -/
def Dev.l0EntryRow (d : Dev) (p : Nat) (t : CxlTrain) : Dev :=
  let st := d.portState p
  if !d.cxlPort p || (d.port p).negFail then d
  else if List.contains [tsDetect, tsPolling, tsConfig] st then d.trainEnd p true t
  else if st = tsRecovery then d.trainEnd p false t
  else if st = tsL1 || st = tsL0p then d.l0Back p
  else d

/-- The port's cache entries for the rate are dropped, and a port in L0 retrains; of an x16 port the lower octet's page raises
the event. (DESIGN CHOICE, log entry 115) -/
def Dev.eqDrop (d : Dev) (p rate : Nat) : Dev :=
  let d := (d.laneMap p).foldl (fun d ol => match rateCache rate with
    | some (_, v, _) => d.put v ol.1 0 ol.2
    | none => d) d
  let d := d.raise SDS_F_EQ_FALLBACK (p / 2)
  if d.portState p = tsL0 then d.toRecovery p else d

/-- R87: a retrain to `rate` with cached presets has failed: it has not reached L0, or, in L0, has met an uncorrectable flit error
early. (DESIGN CHOICE, log entry 87) -/
def Dev.eqFallbackRow (d : Dev) (p rate : Nat) : Dev :=
  let st := d.portState p
  if !d.cxlPort p || !d.cacheOk p rate then d
  else if List.contains [tsDetect, tsPolling, tsConfig, tsRecovery] st ||
      (st = tsL0 && (d.port p).cachedEq && d.get (rateFld p) (p / 2) = rate) then d.eqDrop p rate
  else d

/-- R148: the port enters Recovery; `exhaust`: its replay limit has been reached (Table 4-6). -/
def Dev.recoveryRow (d : Dev) (p : Nat) (exhaust : Bool) : Dev :=
  if exhaust && d.carries p then (d.raise PRT_F_REPLAY_EXHAUST p (d.portWho p)).toRecovery p else d.toRecovery p

/-- Logical lanes of port p, in use, that a list names. -/
def Dev.lostLanes (d : Dev) (p : Nat) (lost : List Nat) : List Nat :=
  let ls := d.laneMap p
  (List.range ls.length).filter fun i => lost.contains i && d.get SDS_LANE_LOGICAL (ls.getD i (0, 0)).1 (ls.getD i (0, 0)).2 ≠ 0xF

/-- R90: port p loses logical lanes. (DESIGN CHOICE, log entry 87) -/
def Dev.laneLossRow (d : Dev) (p : Nat) (lost : List Nat) : Dev :=
  if !d.cxlPort p || !(List.contains [tsL0, tsL0p, tsL1, tsRecovery] (d.portState p)) then d
  else
    let hit := d.lostLanes p lost
    if hit.isEmpty then d else (hit.foldl (fun e i => e.laneGone ((d.laneMap p).getD i (0, 0))) d).narrow p

/-- R116: port p enters L0p, its low lanes going on, or ASPM L1 at its partner's request. (DESIGN CHOICE, log entry 85) -/
def Dev.l1EntryRow (d : Dev) (p : Nat) (l0p : Bool) : Dev :=
  if !d.cxlPort p || d.portState p ≠ tsL0 || d.get PRT_STAT_FLIT p < 2 then d
  else
    let ls := (d.laneMap p).filter fun (ol : Nat × Nat) => d.get SDS_LANE_LOGICAL ol.1 ol.2 ≠ 0xF
    if l0p then
      if !(d.portOctets p).all (fun o => d.on SDS_PWR_L0P_EN o) || ls.length < 2 then d
      else
        let (v, d) := d.fresh
        let w := max 1 (ls.length / 2 ^ (1 + v % 4))
        (ls.drop w).foldl (fun d ol => d.setLanes ol.1 [ol.2] psStandby) (d.setPortState p tsL0p)
    else if !(d.portOctets p).all fun o => d.on SDS_PWR_L1_EN o then d
    else ls.foldl (fun d ol => d.setLanes ol.1 [ol.2] psStandby) (d.setPortState p tsL1)

/-! ## Lane health (R110 to R114) -/

/-- A lane's window is judged: true when it has become degraded (R110, R111); while the
condition lasts it is not reported again, and a lane that is off or in standby is not judged. (DEDUCED, log entry 117) -/
def Dev.laneJudge (d : Dev) (o : Nat) (cfg : W64) (eyes : List Nat) (l : Nat) : Bool × Dev :=
  let x := d.lane o l
  let eye := match eyes[l]? with | some e => min 1023 e | none => d.get SDS_LANE_EYE o l
  let ps := d.get SDS_LANE_PSTATE o l
  let deg := (ps = psActive || ps = psSpare) && d.get SDS_LANE_LOGICAL o l ≠ 0xF && (x.corr > bits cfg 16 16 || x.sync > bits cfg 32 8 || eye < bits cfg 40 10)
  let w := d.fresh
  let n := (((w.2.put SDS_LANE_EYE o eye l).put SDS_LANE_EYE_W o w.1 l).put SDS_HEALTH_CORR o (min 65535 x.corr) l).put SDS_HEALTH_SYNC o (min 255 x.sync) l
  (deg && !d.on SDS_HEALTH_DEGRADED o l, (n.put SDS_HEALTH_DEGRADED o (b2n deg) l).modLane o l fun x => { x with corr := 0, sync := 0 })

/-- Lanes `new` have become degraded (R112 to R114). -/
def Dev.degraded (d : Dev) (o : Nat) (new : List Nat) : Dev :=
  if d.octMode o = 2 then new.foldl (fun d l => d.laneOut o l SDS_F_LANE_DEGRADED) d
  else
    let d := new.foldl (fun d _ => d.raise SDS_F_LANE_DEGRADED o) d
    if !d.on SDS_MODE_CXL_DEGRADE o then d
    else
      let d := new.foldl (fun d l => d.modLane o l fun x => { x with outOfService := true }) d
      (d.octPorts o).foldl (fun d p =>
        if new.any (d.portLanes p o).contains && d.cxlPort p && d.on PRT_STAT_DL_ACTIVE p then d.narrow p else d) d

/-- The nine lanes are judged, and the window takes SDS_HEALTH_CFG as it now stands. -/
def Dev.windowEnd (d : Dev) (o : Nat) (eyes : List Nat) : Dev :=
  let cfg := BitVec.ofNat 64 ((d.octet o).windowCfg.getD (d.word SDS_HEALTH_CFG o).toNat)
  let r := (List.range 9).foldl (fun (acc : List Nat × Dev) l =>
    let j := acc.2.laneJudge o cfg eyes l
    (if j.1 then acc.1 ++ [l] else acc.1, j.2)) (([] : List Nat), d)
  let d := r.2.setOctet o { r.2.octet o with windowCfg := none }
  d.degraded o r.1

/-- R110: the health window of octet o ends; `eyes` are the eye heights sampled. -/
def Dev.healthWindowRow (d : Dev) (o : Nat) (eyes : List Nat) : Dev :=
  if d.halted then d else d.windowEnd o eyes

/-! ## Dunrun training (R92 to R104) -/

/-- The response to a tap request: the taps after it and RESP (R96). (DESIGN CHOICE, log entry 83) -/
def tapAnswer (t : Taps) (req : Nat) : Taps × Nat :=
  let step (i : Nat) : Int := match req / 4 ^ i % 4 with | 1 => 1 | 2 => -1 | _ => 0
  let asked (i : Nat) : Bool := step i ≠ 0
  let atEnd (v lo hi : Int) (i : Nat) : Bool := (step i = 1 && v ≥ hi) || (step i = -1 && v ≤ lo)
  let ends : List Bool := [atEnd t.cm2 (-8) 8 0, atEnd t.cm1 (-24) 0 1, atEnd t.cp1 (-24) 0 2, atEnd t.cp2 (-8) 8 3]
  let mv (i : Nat) (v : Int) : Int := if ends.getD i false then v else v + step i
  let n : Taps := ⟨mv 0 t.cm2, mv 1 t.cm1, mv 2 t.cp1, mv 3 t.cp2⟩
  let c0 : Int := 64 - (n.cm2.natAbs + n.cm1.natAbs + n.cp1.natAbs + n.cp2.natAbs : Nat)
  let resp (f : Nat → Nat) : Nat := ((List.range 4).map fun i => f i * 4 ^ i).sum
  if c0 < 32 then (t, resp fun i => if asked i then 3 else 0)
  else (n, resp fun i => if !asked i then 0 else if ends.getD i false then 2 else 1)

/-- The response to a preset request. (DESIGN CHOICE, log entry 83) -/
def presetAnswer (t : Taps) (p : Nat) : Taps × Nat :=
  let n := drPreset p
  (n, b2n (n.cm2 ≠ t.cm2) + 4 * b2n (n.cm1 ≠ t.cm1) + 16 * b2n (n.cp1 ≠ t.cp1) + 64 * b2n (n.cp2 ≠ t.cp2))

/-- The receiver's own adaptation is not the spec's: its next request, or that it has finished, is a free value (R95). (DESIGN CHOICE, log entry 72) (DESIGN CHOICE, log entry 83) -/
def Dev.nextReq (d : Dev) (o l : Nat) : Dev :=
  let x := d.lane o l
  if d.octState o ≠ tsDrTrain || x.req.isSome || x.rxDone then d
  else
    let (v, d) := d.fresh
    if v % 2 = 0 then d.modLane o l fun x => { x with rxDone := true, rx := v / 2 + 1 }
    else
      let s := (x.reqSeq + 1) % 16
      let q (i : Nat) : Nat := v / 2 / 3 ^ i % 3 * 4 ^ i
      d.modLane o l fun x =>
        { x with reqSeq := s, req := some (s, q 0 + q 1 + q 2 + q 3, if v / 162 % 9 < 8 then some (v / 162 % 9) else none) }

/-- The partner's answer to the request outstanding. -/
def answered (x : Lane) (seq resp : Nat) : Lane :=
  match x.req with
  | none => x
  | some (s, req, pre) =>
    if s ≠ seq then x
    else
      let up (i : Nat) : Int := if resp / 4 ^ i % 4 ≠ 1 then 0 else match req / 4 ^ i % 4 with | 1 => 1 | 2 => -1 | _ => 0
      let t := match pre with
        | some p => drPreset p
        | none => ⟨x.partner.cm2 + up 0, x.partner.cm1 + up 1, x.partner.cp1 + up 2, x.partner.cp2 + up 3⟩
      { x with req := none, partner := t }

/-- What a lane makes of a training control block's payload (Table 3-7): the partner's answer, its request answered. -/
def Lane.trained (x : Lane) (payload : Bytes) : Lane :=
  let by_ (i : Nat) : Nat := (payload.getD i 0).toNat
  let x := answered x (by_ 3 / 16) (by_ 4)
  let seq := by_ 1 / 16
  let ask := by_ 3 / 8 % 2 = 1 || by_ 2 ≠ 0
  let x :=
    if !ask || x.ansSeq = some seq then x
    else
      let (t, r) := if by_ 3 / 8 % 2 = 1 then presetAnswer x.tx (by_ 3 % 8) else tapAnswer x.tx (by_ 2)
      { x with tx := t, ansSeq := some seq, ansResp := r }
  { x with laneId := some (by_ 1 % 16), partnerDone := by_ 5 % 2 = 1 }

/-- A training control block is taken, and the lane sends its own; in DR_ACTIVE the spare's go out with the stream (R157). (DESIGN CHOICE, log entry 83) -/
def Dev.trainTake (d : Dev) (o lane : Nat) (payload : Bytes) : Dev :=
  let d := d.modLane o lane fun x => x.trained payload
  let d := d.setOctet o { d.octet o with lockMask := ((payload.getD 6 0).toNat + 256 * (payload.getD 7 0).toNat) % 512 }
  if d.octState o = tsDrActive then d else (d.nextReq o lane).trainSend o lane

/-- R94 to R97: a training control block arrives on a locked lane. -/
def Dev.trainingControlBlockRow (d : Dev) (o lane : Nat) (payload : Bytes) : Dev :=
  if d.halted || d.octMode o ≠ 2 || !(List.contains [tsDrLock, tsDrTrain, tsDrAlign, tsDrRetrain] (d.octState o) ||
      (d.octState o = tsDrActive && d.on SDS_LANE_SPARE o lane)) || !d.on SDS_LANE_LOCK o lane || (payload.getD 0 0).toNat ≠ 0xA1 then d
  else d.trainTake o lane payload

/-- R99, R102: a lane that hunts finds `h` at its candidate position, after a block time. A header that is neither valid nor, with
`auto`, a valid one's inverted image moves the candidate by one symbol; an inverted one sets the lane's polarity, which a lane
that has locked with it keeps. The lane with its polarity. (DEDUCED, log entry 119) -/
def Lane.hunt (x : Lane) (auto inv : Bool) (h : Nat) : Lane × Bool :=
  let norm := syncOk h && !(inv && x.polFix)
  let img := auto && syncOk (invertHdr h)
  if (inv && img) || (!inv && norm) then ({ x with run := x.run + 1 }, inv)
  else if norm || img then ({ x with run := 1 }, img)
  else ({ x with run := 0, cand := (x.cand + 1) % 1024 }, inv && x.polFix)

/-- Headers found one after the other, until the lane locks. -/
def Lane.hunts (x : Lane) (auto inv : Bool) (hs : List Nat) : Lane × Bool :=
  hs.foldl (fun (acc : Lane × Bool) h => if acc.1.run ≥ 32 then acc else acc.1.hunt auto acc.2 h) (x, inv)

/-- R99, R102: a lane that hunts finds `headers`; it locks after 32 consecutive valid ones at one position. -/
def Dev.laneLockRow (d : Dev) (o lane : Nat) (headers : List Nat) : Dev :=
  if d.halted || d.octMode o ≠ 2 || !(List.contains [tsDrLock, tsDrTrain, tsDrRetrain, tsDrActive] (d.octState o)) ||
      d.on SDS_LANE_LOCK o lane || d.laneOff o lane then d
  else
    let r := (d.lane o lane).hunts (d.on SDS_MODE_POL_AUTO o) (d.on SDS_LANE_POL_INV o lane) headers
    let d := d.put SDS_LANE_POL_INV o (b2n r.2) lane
    if r.1.run < 32 then d.modLane o lane fun _ => r.1
    else
      let d := d.modLane o lane fun _ => { r.1 with run := 0, hist := [], polFix := r.2 }
      ((d.put SDS_LANE_LOCK o 1 lane).put SDS_LANE_PRESENT o 1 lane).put SDS_HEALTH_FAILED o 0 lane

/-- R103, R110 to R112: headers arrive on a locked lane. -/
def Dev.lockLostRow (d : Dev) (o lane : Nat) (headers : List Nat) : Dev :=
  if d.halted || d.octMode o ≠ 2 then d
  else headers.foldl (fun d h => if d.on SDS_LANE_LOCK o lane then d.laneHeader o lane h else d) d

/-- Lanes locked at the partner. -/
def Dev.peerLocked (d : Dev) (o : Nat) : Nat := ((List.range 9).filter fun l => bit (d.octet o).lockMask l).length

/-- R98: the partner's final taps are cached, with the receiver settings in use. -/
def Dev.storeTaps (d : Dev) (o : Nat) : Dev :=
  (d.lockedLanes o).foldl (fun d l =>
    let t := (d.lane o l).partner
    let d := ((d.put SDS_EQ_CACHE_CM2 o (ofSigned 6 t.cm2) l).put SDS_EQ_CACHE_CM1 o (ofSigned 6 t.cm1) l).put SDS_EQ_CACHE_CP1 o
      (ofSigned 6 t.cp1) l
    ((d.put SDS_EQ_CACHE_CP2 o (ofSigned 6 t.cp2) l).put SDS_EQ_CACHE_DVALID o 1 l).modLane o l fun x =>
      { x with rxSet := SMap.set 0 x.rxSet 3 x.rx }) d

/-- R93: width in lanes. (DESIGN CHOICE, log entry 82) -/
def Dev.drWidth (d : Dev) (o : Nat) : Nat := if (d.lockedLanes o).length ≥ 8 && d.peerLocked o ≥ 8 then 8 else 4

def Dev.enterDrTrain (d : Dev) (o : Nat) : Dev :=
  let d := ((d.storeTaps o).drState o tsDrTrain).put SDS_STAT_WIDTH_A o (d.drWidth o)
  (List.range 9).foldl (fun d l => d.modLane o l fun x => { x with req := none, rxDone := false, partnerDone := false }) d

/-- R93: every lane is locked in both directions. -/
def Dev.drLockDoneRow (d : Dev) (o : Nat) : Dev :=
  if !d.halted && d.octState o = tsDrLock && (d.lockedLanes o).length = 9 && d.peerLocked o = 9 then d.enterDrTrain o else d

def Dev.drLockTimeoutRow (d : Dev) (o : Nat) : Dev :=
  if d.halted || d.octState o ≠ tsDrLock then d
  else if (d.lockedLanes o).length ≥ 4 && d.peerLocked o ≥ 4 then d.enterDrTrain o
  else d.enterFailed o false SDS_F_TRAIN_FAIL

def Dev.drTrainDoneRow (d : Dev) (o : Nat) : Dev :=
  if !d.halted && d.octState o = tsDrTrain && (d.lockedLanes o).all fun l => (d.lane o l).rxDone && (d.lane o l).partnerDone then
    (d.storeTaps o).drState o tsDrAlign
  else d

def Dev.drTrainTimeoutRow (d : Dev) (o : Nat) : Dev :=
  if d.halted || d.octState o ≠ tsDrTrain then d
  else if (d.octet o).trainRetry then d.enterFailed o false SDS_F_TRAIN_FAIL
  else (d.setOctet o { d.octet o with trainRetry := true }).enterDrLock o

/-- R100: the mapping the LANE_IDs show: identity, reversal, or none that is allowed. (DESIGN CHOICE, log entry 82) -/
def Dev.laneOrder (d : Dev) (o : Nat) : Option Bool :=
  let ls := d.lockedLanes o
  if ls.all fun l => (d.lane o l).laneId = some l then some false
  else if d.on SDS_MODE_REV_AUTO o && ls.all fun l => (d.lane o l).laneId = some (8 - l) then some true
  else none

/-- Logical numbers at DR_ALIGN: physical lane, logical number, spare role (R93, R100, R183). (DESIGN CHOICE, log entry 82) -/
def alignLanes (locked : List Nat) (rev : Bool) (w : Nat) : List (Nat × Nat × Bool) :=
  let lg (l : Nat) : Nat := if rev then 8 - l else l
  let ls := (locked.map fun l => (lg l, l)).mergeSort fun a b => a.1 ≤ b.1
  if w = 8 then
    let miss := (List.range 8).find? fun n => !ls.any (·.1 = n)
    ls.map fun x => if x.1 = 8 then (match miss with | some n => (x.2, n, false) | none => (x.2, 8, true)) else (x.2, x.1, false)
  else
    let used := ls.take 4
    (List.range used.length).map (fun i => ((used.getD i (0, 0)).2, i, false)) ++
      ((ls.drop 4).filter (·.1 = 8)).map fun x => (x.2, 8, true)

/-- The transmit direction's lanes, as the partner has locked them: LANE_ID l is this end's transmit lane l, which the partner
receives on its lane l, or 8 − l under reversal (R93, R100). (DESIGN CHOICE, log entry 120) -/
def Dev.txAlign (d : Dev) (o : Nat) (rev : Bool) (w : Nat) : Dev :=
  let x := d.octet o
  let ls := (List.range 9).filter fun l => bit x.lockMask (if rev then 8 - l else l)
  let m := alignLanes ls false w
  let at_ (n : Nat) : Nat := match m.find? fun e => e.2.1 = n && !e.2.2 with | some e => e.1 | none => n
  d.setOctet o { x with txMap := (List.range w).map at_, txSpare := !m.any fun e => e.2.2, txHot := (m.find? fun e => e.2.2).map (·.1), txOld := none }

/-- DR_ALIGN done: lanes take their logical numbers and the octet is active (R93, R98, R100, R114, R183). -/
def Dev.alignDone (d : Dev) (o : Nat) (rev : Bool) : Dev :=
  let w := d.drWidth o
  let m := alignLanes (d.lockedLanes o) rev w
  let d := d.storeTaps o
  let d := (List.range 9).foldl (fun d l =>
    match m.find? (·.1 = l) with
    | some (_, n, sp) =>
      let d := ((d.put SDS_LANE_LOGICAL o n l).put SDS_LANE_SPARE o (b2n sp) l).setLanes o [l] (if sp then psSpare else psActive)
      d.modLane o l fun x => { x with outOfService := false }
    | none => ((d.put SDS_LANE_LOGICAL o (if rev then 8 - l else l) l).put SDS_LANE_SPARE o 0 l).setLanes o [l] psOff) d
  let d := (d.put SDS_STAT_SPARE_IN_USE o (b2n (!m.any fun x => x.2.2))).put SDS_STAT_WIDTH_A o w
  let d := d.put SDS_STAT_RATE_A o (d.get SDS_MODE_MAXRATE o)
  let d := (d.setOctet o { d.octet o with trainRetry := false }).txAlign o rev w
  (d.drState o tsDrActive).noteBr (2 * o) w (d.get SDS_MODE_MAXRATE o)

/-- Table 3-4: DR_ALIGN done, with `skew` the greatest skew between lanes in PAM4 symbols, 1,024 to a block time (R100, R104). (DESIGN CHOICE, log entry 82) -/
def Dev.drAlignDoneRow (d : Dev) (o skew : Nat) : Dev :=
  if d.halted || d.octState o ≠ tsDrAlign || (d.lockedLanes o).isEmpty then d
  else if skew > 2048 then d.enterFailed o false SDS_F_TRAIN_FAIL
  else match d.laneOrder o with
    | none => d.enterFailed o false SDS_F_LANE_ORDER
    | some rev => d.alignDone o rev

/-- R104. -/
def Dev.drAlignTimeoutRow (d : Dev) (o : Nat) : Dev :=
  if !d.halted && d.octState o = tsDrAlign then d.enterFailed o false SDS_F_TRAIN_FAIL else d

/-- A relocked lane whose receiver settings a software write has made invalid adapts its receiver from its defaults, from the cached
taps (R98, R117). (DESIGN CHOICE, log entry 83) -/
def Dev.adaptRx (d : Dev) (o l : Nat) : Dev :=
  if (d.lane o l).rx ≠ 0 then d
  else
    let (v, d) := d.fresh
    d.modLane o l fun x => { x with rx := v + 1 }

/-- R183: the lanes that relock go on to DR_ALIGN; with fewer than four of them in a direction DR_RETRAIN goes on until its
time-out, as DR_LOCK does. (DESIGN CHOICE, log entry 121) -/
def Dev.drRetrainDoneRow (d : Dev) (o : Nat) : Dev :=
  if !d.halted && d.octState o = tsDrRetrain && (d.lockedLanes o).length ≥ 4 && d.peerLocked o ≥ 4 then
    ((d.lockedLanes o).foldl (fun d l => d.adaptRx o l) d).drState o tsDrAlign
  else d

def Dev.drRetrainTimeoutRow (d : Dev) (o : Nat) : Dev :=
  if !d.halted && d.octState o = tsDrRetrain then d.enterDrLock o else d

/-! ## Margining (R105 to R109) -/

/-- R107: a local run may use the lane. -/
def Dev.marginLaneOk (d : Dev) (o l : Nat) : Bool :=
  if l > 8 then false
  else if d.octMode o = 2 then
    d.octState o = tsDrActive && d.on SDS_LANE_LOCK o l &&
      (d.on SDS_LANE_SPARE o l || (d.dataLane o l && !d.on SDS_STAT_SPARE_IN_USE o))
  else (d.octPorts o).any fun p => (d.portLanes p o).contains l && d.portState p = tsL0 && d.on SDS_LANE_LOCK o l

def Dev.marginSteps (d : Dev) (o : Nat) : Bool :=
  let n := d.get SDS_MARGIN_CTL_STEPS o
  1 ≤ n && n ≤ (if d.on SDS_MARGIN_CTL_TYPE o then 127 else 63)

def Dev.marginRun (d : Dev) (o : Nat) : Dev :=
  (((d.put SDS_MARGIN_STAT_BUSY o 1).put SDS_MARGIN_STAT_RESULT o 0).put SDS_MARGIN_STAT_ERRS o 0).setOctet o
    { d.octet o with margin := some (d.get SDS_MARGIN_CTL_LANE o) }

/-- SDS_MARGIN_CTL.GO written. -/
def Dev.marginStart (d : Dev) (o : Nat) : Dev :=
  let l := d.get SDS_MARGIN_CTL_LANE o
  if (d.octet o).margin.isSome then d
  else if d.halted || (d.octet o).partnerMargin.isSome || !d.marginLaneOk o l || !d.marginSteps o then
    d.put SDS_MARGIN_STAT_RESULT o 3
  else d.marginRun o

/-- SDS_MARGIN_CTL.STOP written; the run ends aborted. (DESIGN CHOICE, log entry 86) -/
def Dev.marginEnd (d : Dev) (o : Nat) : Dev :=
  match (d.octet o).margin with
  | some l => d.marginAbort o [l]
  | none => d

/-- SDS_MARGIN_CTL.GO written (R106, R107). (DESIGN CHOICE, log entry 86) -/
def Dev.marginGoRow (d : Dev) (path o : Nat) : Dev := d.access path ⟨.sds, o⟩ 0x230 fun d => d.marginStart o
def Dev.marginStopRow (d : Dev) (path o : Nat) : Dev := d.access path ⟨.sds, o⟩ 0x230 fun d => d.marginEnd o

/-- A parameter of Table 3-9 as the partner asks for it. -/
def marginParam (i : Nat) : Nat := match i with | 0 => 63 | 1 => 49 | 2 => 127 | _ => 1

/-- The partner's run at an offset of Table 3-9 begins, or its offset moves (R105). -/
def Dev.partnerStep (d : Dev) (o lane : Nat) (voltage right : Bool) (steps limit : Nat) : Dev :=
  if steps = 0 || steps > (if voltage then 127 else 63) then d.emit (.marginBusy o lane)
  else
    let m : PMargin := { lane := lane, voltage := voltage, right := right, steps := steps, limit := limit }
    ((d.setOctet o { d.octet o with partnerMargin := some m }).put SDS_MARGIN_STAT_ERRS o 0).emit (.marginAnswer o lane 0)

/-- R105, R106: a margining command of the partner for a lane. (DESIGN CHOICE, log entry 86) -/
def Dev.partnerMarginingRow (d : Dev) (o lane : Nat) (cmd : MarginCmd) : Dev :=
  let x := d.octet o
  let mine := x.partnerMargin.any fun m => m.lane = lane
  if d.halted || d.octMode o ≠ 1 then d
  else match cmd with
    | .report i => d.emit (.marginAnswer o lane (marginParam i))
    | .step voltage right steps limit =>
      if x.margin.isSome || (x.partnerMargin.isSome && !mine) || !d.marginLaneOk o lane then d.emit (.marginBusy o lane)
      else d.partnerStep o lane voltage right steps limit
    | .clearErrors => if mine then (d.put SDS_MARGIN_STAT_ERRS o 0).emit (.marginAnswer o lane 0) else d.emit (.marginBusy o lane)
    | .normal =>
      if mine then (d.setOctet o { x with partnerMargin := none }).emit (.marginAnswer o lane (d.get SDS_MARGIN_STAT_ERRS o))
      else d.emit (.marginAnswer o lane 0)

/-- DWELL elapses with `errs` errors more than those already counted: the run passes below ERR_LIMIT. -/
def Dev.marginDwellEndRow (d : Dev) (o errs : Nat) : Dev :=
  match (d.octet o).margin with
  | none => d
  | some l =>
    let n := d.get SDS_MARGIN_STAT_ERRS o + errs
    let d := d.put SDS_MARGIN_STAT_ERRS o (min 255 n)
    if n ≥ max 1 (d.get SDS_MARGIN_CTL_ERR_LIMIT o) then d.marginAbort o [l]
    else ((d.put SDS_MARGIN_STAT_BUSY o 0).put SDS_MARGIN_STAT_RESULT o 1).setOctet o { d.octet o with margin := none }

/-- The errors of the run, local or the partner's, reach its limit (R105). -/
def Dev.marginErrLimitRow (d : Dev) (o : Nat) : Dev :=
  match (d.octet o).margin, (d.octet o).partnerMargin with
  | some l, _ => (d.put SDS_MARGIN_STAT_ERRS o (max 1 (d.get SDS_MARGIN_CTL_ERR_LIMIT o))).marginAbort o [l]
  | none, some m => (d.put SDS_MARGIN_STAT_ERRS o (min 255 (max 1 m.limit))).marginAbort o [m.lane]
  | none, none => d

/-! ## The equalisation cache (R117) -/

/-- SDS_EQ_CACHE[l] takes the bits of `v` that `m` names: a VALID bit set marks the lane's receiver settings invalid. -/
def Dev.eqCacheWrite (d : Dev) (o l : Nat) (v m : W64) : Dev :=
  let hit (i : Nat) : Bool := bits (v &&& m) i 1 = 1
  let gone := ((List.range 3).filter fun i => hit (12 + i)) ++ (if hit 40 then [3] else [])
  let k : W64 := m &&& BitVec.ofNat 64 (2 ^ 41 - 1 - 2 ^ 15)
  (d.setWord SDS_EQ_CACHE o ((d.word SDS_EQ_CACHE o l &&& ~~~k) ||| (v &&& k)) l).modLane o l
    fun x => { x with rxSet := x.rxSet.filter fun e => !gone.contains e.1 }

def Dev.eqCacheWriteRow (d : Dev) (path o lane val : Nat) : Dev :=
  d.access path ⟨.sds, o⟩ (0x198 + 8 * lane) fun d => d.eqCacheWrite o lane (BitVec.ofNat 64 val) (BitVec.allOnes 64)

/-! ## Commands -/

/-- CAL_DONE (R81). -/
def execCalDone (o : Nat) (s : State) : Host.Outcome State Fault Refusal :=
  run (decide (o < 64)) "CAL_DONE" s (s.dev.calDoneRow o)

/-- CAL_TIMEOUT (R81). -/
def execCalTimeout (o : Nat) (s : State) : Host.Outcome State Fault Refusal :=
  run (decide (o < 64)) "CAL_TIMEOUT" s (s.dev.calTimeoutRow o)

/-- FAILED_RETRY (R92). -/
def execFailedRetry (o : Nat) (s : State) : Host.Outcome State Fault Refusal :=
  run (decide (o < 64)) "FAILED_RETRY" s (s.dev.failedRetryRow o)

/-- CHIPLET_PLL_LOSS (R82). -/
def execChipletPllLoss (c : Nat) (s : State) : Host.Outcome State Fault Refusal :=
  run (decide (c < 8)) "CHIPLET_PLL_LOSS" s (s.dev.chipletPllLossRow c)

/-- PLL_RELOCK (R82). -/
def execPllRelock (c : Nat) (s : State) : Host.Outcome State Fault Refusal :=
  run (decide (c < 8)) "PLL_RELOCK" s (s.dev.pllRelockRow c)

/-- ELASTIC_ERR (R83). -/
def execElasticErr (o : Nat) (lane : Nat) (s : State) : Host.Outcome State Fault Refusal :=
  run (decide (o < 64) && decide (lane < 9)) "ELASTIC_ERR" s (s.dev.elasticErrRow o lane)

/-- L0_ENTRY (R85). -/
def execL0Entry (p : Nat) (rates : List Nat) (bypass : Bool) (lanes : CxlLanes) (s : State) : Host.Outcome State Fault Refusal :=
  run (decide (p < 128)) "L0_ENTRY" s (s.dev.l0EntryRow p { lanes with rates, bypass })

/-- EQ_FALLBACK (R87). -/
def execEqFallback (e : EqRetrain) (s : State) : Host.Outcome State Fault Refusal :=
  run (decide (e.port < 128)) "EQ_FALLBACK" s (s.dev.eqFallbackRow e.port e.rate)

/-- RECOVERY (R148). -/
def execRecovery (e : RecoveryEvent) (s : State) : Host.Outcome State Fault Refusal :=
  run (decide (e.port < 128)) "RECOVERY" s (s.dev.recoveryRow e.port e.exhaust)

/-- LANE_LOSS (R90). -/
def execLaneLoss (p : Nat) (lost : List Nat) (s : State) : Host.Outcome State Fault Refusal :=
  run (decide (p < 128)) "LANE_LOSS" s (s.dev.laneLossRow p lost)

/-- HEALTH_WINDOW (R110). -/
def execHealthWindow (o : Nat) (eyes : List Nat) (s : State) : Host.Outcome State Fault Refusal :=
  run (decide (o < 64)) "HEALTH_WINDOW" s (s.dev.healthWindowRow o eyes)

/-- TRAINING_CONTROL_BLOCK (R95). -/
def execTrainingControlBlock (o : Nat) (lane : Nat) (payload : Bytes) (s : State) : Host.Outcome State Fault Refusal :=
  run (decide (o < 64) && decide (lane < 9)) "TRAINING_CONTROL_BLOCK" s (s.dev.trainingControlBlockRow o lane payload)

/-- LANE_LOCK (R102). -/
def execLaneLock (o : Nat) (lane : Nat) (headers : List Nat) (s : State) : Host.Outcome State Fault Refusal :=
  run (decide (o < 64) && decide (lane < 9)) "LANE_LOCK" s (s.dev.laneLockRow o lane headers)

/-- LOCK_LOST (R103). -/
def execLockLost (o : Nat) (lane : Nat) (headers : List Nat) (s : State) : Host.Outcome State Fault Refusal :=
  run (decide (o < 64) && decide (lane < 9)) "LOCK_LOST" s (s.dev.lockLostRow o lane headers)

/-- DR_LOCK_DONE (R93). -/
def execDrLockDone (o : Nat) (s : State) : Host.Outcome State Fault Refusal :=
  run (decide (o < 64)) "DR_LOCK_DONE" s (s.dev.drLockDoneRow o)

/-- DR_LOCK_TIMEOUT (R92). -/
def execDrLockTimeout (o : Nat) (s : State) : Host.Outcome State Fault Refusal :=
  run (decide (o < 64)) "DR_LOCK_TIMEOUT" s (s.dev.drLockTimeoutRow o)

/-- DR_TRAIN_DONE (R92). -/
def execDrTrainDone (o : Nat) (s : State) : Host.Outcome State Fault Refusal :=
  run (decide (o < 64)) "DR_TRAIN_DONE" s (s.dev.drTrainDoneRow o)

/-- DR_TRAIN_TIMEOUT (R92). -/
def execDrTrainTimeout (o : Nat) (s : State) : Host.Outcome State Fault Refusal :=
  run (decide (o < 64)) "DR_TRAIN_TIMEOUT" s (s.dev.drTrainTimeoutRow o)

/-- DR_ALIGN_DONE (R100). -/
def execDrAlignDone (a : Aligned) (s : State) : Host.Outcome State Fault Refusal :=
  run (decide (a.octet < 64)) "DR_ALIGN_DONE" s (s.dev.drAlignDoneRow a.octet a.skew)

/-- DR_ALIGN_TIMEOUT (R104). -/
def execDrAlignTimeout (o : Nat) (s : State) : Host.Outcome State Fault Refusal :=
  run (decide (o < 64)) "DR_ALIGN_TIMEOUT" s (s.dev.drAlignTimeoutRow o)

/-- DR_RETRAIN_TIMEOUT (R92). -/
def execDrRetrainTimeout (o : Nat) (s : State) : Host.Outcome State Fault Refusal :=
  run (decide (o < 64)) "DR_RETRAIN_TIMEOUT" s (s.dev.drRetrainTimeoutRow o)

/-- MARGIN_GO (R105). -/
def execMarginGo (path : Nat) (o : Nat) (s : State) : Host.Outcome State Fault Refusal :=
  run (okPath path && decide (o < 64)) "MARGIN_GO" s (s.dev.marginGoRow path o)

/-- MARGIN_STOP (R108). -/
def execMarginStop (path : Nat) (o : Nat) (s : State) : Host.Outcome State Fault Refusal :=
  run (okPath path && decide (o < 64)) "MARGIN_STOP" s (s.dev.marginStopRow path o)

/-- PARTNER_MARGINING (R106). -/
def execPartnerMargining (o : Nat) (m : LaneMargin) (s : State) : Host.Outcome State Fault Refusal :=
  run (decide (o < 64) && decide (m.lane < 9)) "PARTNER_MARGINING" s (s.dev.partnerMarginingRow o m.lane m.cmd)

/-- MARGIN_DWELL_END (R105). -/
def execMarginDwellEnd (o : Nat) (errs : Nat) (s : State) : Host.Outcome State Fault Refusal :=
  run (decide (o < 64)) "MARGIN_DWELL_END" s (s.dev.marginDwellEndRow o errs)

/-- MARGIN_ERR_LIMIT (R105). -/
def execMarginErrLimit (o : Nat) (s : State) : Host.Outcome State Fault Refusal :=
  run (decide (o < 64)) "MARGIN_ERR_LIMIT" s (s.dev.marginErrLimitRow o)

/-- EQ_CACHE_WRITE (R117). -/
def execEqCacheWrite (path : Nat) (o : Nat) (lane : Nat) (val : Nat) (s : State) : Host.Outcome State Fault Refusal :=
  run (okPath path && decide (o < 64) && decide (lane < 9)) "EQ_CACHE_WRITE" s (s.dev.eqCacheWriteRow path o lane val)

/-- L1_ENTRY (R116). -/
def execL1Entry (p : Nat) (l0p : Bool) (s : State) : Host.Outcome State Fault Refusal :=
  run (decide (p < 128)) "L1_ENTRY" s (s.dev.l1EntryRow p l0p)

/-- DR_RETRAIN_DONE (R92). -/
def execDrRetrainDone (o : Nat) (s : State) : Host.Outcome State Fault Refusal :=
  run (decide (o < 64)) "DR_RETRAIN_DONE" s (s.dev.drRetrainDoneRow o)

end Sys2Proof.Machine
end

