-- ==== Sys2Proof/Machine/LarderRows.lean ====
section
/-! DEFINITION. The Larder's commands (chapter 13). -/

namespace Sys2Proof.Machine

/-! ## Channels and lines -/

/-- A channel serves accesses: READY, or FAILED with failed answers (R458). -/
def Dev.chanServes (d : Dev) (c : Nat) : Bool := d.get LDR_CHSTAT_STATE c = 2 || d.get LDR_CHSTAT_STATE c = 4

/-- First request of a list that meets `p`, with no earlier request to its line. (DESIGN CHOICE, log entry 110) -/
def firstReq (p : LdrReq → Bool) : List LdrReq → List Nat → Option LdrReq
  | [], _ => none
  | r :: rs, seen => if p r && !seen.contains r.line then some r else firstReq p rs (r.line :: seen)

/-- The request of a channel that is served next. (DESIGN CHOICE, log entry 110) -/
def Dev.takeReq (d : Dev) (c : Nat) (write : Bool) : Option LdrReq :=
  if !d.chanServes c then none
  else firstReq (fun r => r.write = write && !d.bankBlocked c r.line) (SMap.get [] d.ldr.reqs c) []

def Dev.dropReq (d : Dev) (c : Nat) (r : LdrReq) : Dev :=
  { d with ldr := { d.ldr with reqs := SMap.set [] d.ldr.reqs c ((SMap.get [] d.ldr.reqs c).erase r) } }

/-- The channel's answer: to the home that made the access, or to the access's requester. -/
def Dev.ldrAnswer (d : Dev) (r : LdrReq) (op : MOp) (data : Bytes) (poison : Bool) : Dev :=
  if r.m.home.isSome then d.arriveRsp r.home { r.m with poison := poison, body := { r.m.body with op := op, data := data } }
  else d.accessAnswer (128 + r.home) r.m op data poison

/-- R442 to R444, R458: the oldest read that may be served is read and answered. (DESIGN CHOICE, log entry 110) -/
def Dev.larderReadRow (d : Dev) (c : Nat) : Dev :=
  match d.takeReq c false with
  | none => d
  | some r =>
    let (b, p, d) := ((d.dropReq c r).count .ldr c 0x200).readLine c r.line
    d.ldrAnswer r .tgtData b p

/-- R431, R444, R458: the oldest write that may be taken is stored and answered; a FAILED channel completes it
failed. -/
def Dev.larderWriteRow (d : Dev) (c : Nat) : Dev :=
  match d.takeReq c true with
  | none => d
  | some r =>
    let d := (d.dropReq c r).count .ldr c 0x201
    if d.get LDR_CHSTAT_STATE c = 4 then d.ldrAnswer r .tgtFail [] false
    else if atomOp r.m.body.op then
      let (b, p, d) := d.readLine c r.line
      (d.writeLine c r.line fullBe (atomLine b r.m.body) (p || r.poison)).ldrAnswer r .tgtData b p
    else (d.writeLine c r.line r.be r.data r.poison).ldrAnswer r .tgtDone [] false

/-- Lines of a channel's local address space: C GiB less 1 MiB. -/
def Dev.localLines (d : Dev) (c : Nat) : Nat := (d.get LDR_CHSTAT_CAP c * 2 ^ 30 - 2 ^ 20) / 64

def Dev.scrubMove (d : Dev) (c n : Nat) : Dev := { d with ldr := { d.ldr with scrubPos := SMap.set 0 d.ldr.scrubPos c n } }

/-- Local line l of a channel is scrubbed. -/
def Dev.scrubLine (d : Dev) (c l : Nat) : Dev :=
  let line := d.lpaLine c l
  let d := d.rowOpen c line
  let wrap := l + 1 ≥ d.localLines c
  let d := d.scrubMove c (if wrap then 0 else l + 1)
  let d := if wrap then d.put LDR_SCRUB_PASSES c (d.get LDR_SCRUB_PASSES c + 1) else d
  if d.ldr.ue.contains line then
    ((d.logUe c line 2).setLine line false false true).raise LDR_F_UE_SCRUB c
  else if d.ldr.ce.contains line then
    (d.corrected c line).setLine line false false (d.ldr.poison.contains line)
  else d

/-- R445, R446: patrol scrub reads its next line and rewrites it; read and rewrite are one step. (DESIGN CHOICE, log entry 110) -/
def Dev.scrubReadRow (d : Dev) (c : Nat) : Dev :=
  if !d.on LDR_SCRUB_EN c || d.get LDR_CHSTAT_STATE c ≠ 2 || d.localLines c = 0 then d
  else d.scrubLine c (SMap.get 0 d.ldr.scrubPos c)

/-- Row named by LDR_PPR. -/
def Dev.pprKey (d : Dev) (c : Nat) : Nat := bits (d.word LDR_PPR c) 0 26

/-- A hard repair is recorded, RESULT pending. -/
def Dev.pprRecord (d : Dev) (c : Nat) : Dev :=
  let d : Dev := { d with ldr := { d.ldr with hardRep := (d.ldr.hardRep ++ [rowKey c (d.pprKey c)]).dedup } }
  d.put LDR_PPR_RESULT c 2

/-- LDR_PPR.GO with the fields as they stand: a soft repair starts, or a hard one is recorded with RESULT pending; a GO
while BUSY is ignored (R447, R449, R450). (DESIGN CHOICE, log entry 112) -/
def Dev.pprGo (d : Dev) (c : Nat) : Dev :=
  if d.on LDR_PPR_BUSY c then d
  else if d.on LDR_PPR_HARD c then d.pprRecord c
  else d.startSoft c (d.pprKey c)

/-- LDR_PPR written with HARD 0 and GO 1. -/
def Dev.pprSoftRow (d : Dev) (path c : Nat) : Dev :=
  d.access path ⟨.ldr, c⟩ 0x168 fun d => (d.put LDR_PPR_HARD c 0).pprGo c

/-- LDR_PPR written with HARD 1 and GO 1. -/
def Dev.pprHardRow (d : Dev) (path c : Nat) : Dev :=
  d.access path ⟨.ldr, c⟩ 0x168 fun d => (d.put LDR_PPR_HARD c 1).pprGo c

/-- R448, R450: the repair in progress ends: 1 done, 3 no spare, 4 failed. The row's contents are kept. (DESIGN CHOICE, log entry 112) -/
def Dev.pprDoneRow (d : Dev) (c res : Nat) : Dev :=
  match SMap.get none d.ldr.repair c with
  | none => d
  | some k =>
    if res ≠ 1 && res ≠ 3 && res ≠ 4 then d
    else
      let d := { d with ldr := { d.ldr with
        repair := SMap.set none d.ldr.repair c none,
        rowCe := if res = 1 then SMap.set 0 d.ldr.rowCe (rowKey c k) 0 else d.ldr.rowCe,
        softRep := if res = 1 then (d.ldr.softRep ++ [rowKey c k]).dedup else d.ldr.softRep } }
      let d := (d.put LDR_PPR_BUSY c 0).put LDR_PPR_RESULT c res
      if res = 1 then d else d.raise LDR_F_PPR_FAIL c

/-- A module's temperature, in degrees: refresh rate and throttle follow. -/
def Dev.thermal (d : Dev) (c temp : Nat) : Dev :=
  let x2 := d.get LDR_THERM_X2_C c
  let hot := d.get LDR_THERM_HOT_C c
  let d := d.put LDR_CHSTAT_TEMP c temp
  let d := if temp ≥ x2 then d.put LDR_CHSTAT_TREF2X c 1
    else if temp + 3 ≤ x2 then d.put LDR_CHSTAT_TREF2X c 0 else d
  let on := d.ldr.throttled.contains c
  if temp ≥ hot && !on then
    { d with ldr := { d.ldr with throttled := d.ldr.throttled ++ [c] } }.raise LDR_F_THERM_HOT c
  else if temp + 3 ≤ hot && on then { d with ldr := { d.ldr with throttled := d.ldr.throttled.filter (· ≠ c) } }
  else d

/-- R451, R453: the module's temperature sets the refresh rate and the throttle. -/
def Dev.dimmThermalReadRow (d : Dev) (c temp : Nat) : Dev :=
  if !d.chanServes c then d else d.thermal c temp

/-- R24, R458: a channel enters FAILED. A consequence of a channel already FAILED raises nothing further (R619). -/
def Dev.chanFailRow (d : Dev) (c _cause : Nat) : Dev :=
  if d.get LDR_CHSTAT_STATE c = 0 || d.get LDR_CHSTAT_STATE c = 4 || d.get LDR_CHSTAT_STATE c = 5 then d
  else (d.put LDR_CHSTAT_STATE c 4).raise LDR_F_CHAN_FAIL c

/-- R24: a Larder I/O die faults: its six channels report DIE and stand FAILED (R458). -/
def Dev.ioDieFaultRow (d : Dev) (die : Nat) : Dev :=
  ((List.range 6).map fun i => 6 * die + i).foldl (fun d c =>
    let d := if d.get LDR_CHSTAT_STATE c ≠ 0 && d.get LDR_CHSTAT_STATE c ≠ 5 then d.put LDR_CHSTAT_STATE c 4 else d
    d.raise LDR_F_DIE c) d

/-! ## Training (R431 to R435, R449, R454, R455) -/

def rateCode (r : Nat) : Nat :=
  if r = 5600 then 1 else if r = 6400 then 2 else if r = 8000 then 3 else if r = 8800 then 4 else 0

/-- Every module fits Table 13-1, they agree, and the populated channels are all 12 or 0 to 2 and 6 to 8 (R431). -/
def populationOk (ms : List Module) : Bool :=
  let cs := (ms.map (·.chan)).mergeSort
  (cs = List.range 12 || cs = [0, 1, 2, 6, 7, 8]) &&
  ms.all fun m =>
    [32, 64, 128, 256].contains m.gib && 1 ≤ m.ranks && m.ranks ≤ 4 &&
    (if m.typ = 1 then m.rate = 8800 || m.rate = 8000 else m.typ = 0 && (m.rate = 6400 || m.rate = 5600)) &&
    ms.all fun n => n.typ = m.typ && n.gib = m.gib && n.ranks = m.ranks && n.rate = m.rate

/-- LDR_CHSTAT of a module. -/
def Dev.chStat (d : Dev) (m : Module) (state : Nat) : Dev :=
  let c := m.chan
  (((((d.put LDR_CHSTAT_STATE c state).put LDR_CHSTAT_MRDIMM c m.typ).put LDR_CHSTAT_RANKS c (m.ranks - 1)).put
    LDR_CHSTAT_CAP c m.gib).put LDR_CHSTAT_RATE c (rateCode m.rate)).put LDR_CHSTAT_CACHED c (b2n m.cached)

/-- LDR_CARVE of a Cold start (R433 to R435): `w` channels of `gib` GiB. (DESIGN CHOICE, log entry 48) -/
def Dev.layCarve (d : Dev) (w gib : Nat) : Dev :=
  let space := w * (gib * 1024 - 1)
  let carve := (if d.ldr.wantTag then 1024 else 0) + 128 + d.ldr.wantTlm * 1024
  ((((d.put LDR_CARVE_LD_LIMIT 0 ((space - carve) / 256)).put LDR_CARVE_TAG_EN 0 (b2n d.ldr.wantTag)).put
    LDR_CARVE_CTX_EN 0 1).put LDR_CARVE_TLM_GIB 0 d.ldr.wantTlm).put LDR_CARVE_WAYS 0 w

/-- A recorded hard repair of the channel ends with the training (R449). (DESIGN CHOICE, log entry 111) -/
def Dev.endHard (d : Dev) (m : Module) : Dev :=
  if d.ldr.hardRep.any (fun k => k / 2 ^ 26 = m.chan) then
    let d := { d with ldr := { d.ldr with
      rowCe := if m.ppr = 1 then d.ldr.rowCe.filter (fun e => !d.ldr.hardRep.contains e.1 || e.1 / 2 ^ 26 ≠ m.chan) else d.ldr.rowCe,
      hardRep := d.ldr.hardRep.filter fun k => k / 2 ^ 26 ≠ m.chan } }
    let res := if m.ppr = 3 || m.ppr = 4 then m.ppr else 1
    let d := d.put LDR_PPR_RESULT m.chan res
    if res = 1 then d else d.raise LDR_F_PPR_FAIL m.chan
  else d

/-- The Larder comes up with these modules: carve-outs are laid out at a Cold start. (DESIGN CHOICE, log entry 111) -/
def Dev.larderUp (d : Dev) (mods : List Module) : Dev :=
  let cold := d.rst.kind = .cold
  let d := mods.foldl (fun d m =>
    let m := { m with cached := m.cached && !cold }
    let d := (d.chStat m 2).endHard m
    let d : Dev := { d with ldr := { d.ldr with rfmThr := SMap.set 0 d.ldr.rfmThr m.chan m.rfm } }
    if !cold && !m.cached then d.raise LDR_F_TRAIN_FAIL m.chan else d) d
  let d := if cold then d.layCarve mods.length ((mods.headD { chan := 0 }).gib) else d
  { d with ldr := { d.ldr with up := true } }.put DEV_READY_LARDER_READY 0 1

/-- R432: training ends, and the carve-outs are laid out, or the Larder is not brought up. (DESIGN CHOICE, log entry 111) -/
def Dev.larderTrainDoneRow (d : Dev) (mods : List Module) : Dev :=
  if d.rst.phase ≠ .starting || d.on DEV_READY_LARDER_READY then d
  else if !(mods.map (·.chan)).all (· < 12) then d
  else if !populationOk mods then
    if mods.isEmpty then d.raise LDR_F_CONFIG 0
    else mods.foldl (fun d m => (d.chStat m 5).raise LDR_F_CONFIG m.chan) d
  else if mods.any (fun m => !m.trained) then
    mods.foldl (fun d m => let d := d.chStat m (if m.trained then 2 else 4)
      if m.trained then d else d.raise LDR_F_TRAIN_FAIL m.chan) d
  else d.larderUp mods

/-! ## Commands -/

/-- LARDER_READ (R443). -/
def execLarderRead (c : Nat) (s : State) : Host.Outcome State Fault Refusal :=
  run (decide (c < 12)) "LARDER_READ" s (s.dev.larderReadRow c)

/-- LARDER_WRITE (R444). -/
def execLarderWrite (c : Nat) (s : State) : Host.Outcome State Fault Refusal :=
  run (decide (c < 12)) "LARDER_WRITE" s (s.dev.larderWriteRow c)

/-- SCRUB_READ (R445). -/
def execScrubRead (c : Nat) (s : State) : Host.Outcome State Fault Refusal :=
  run (decide (c < 12)) "SCRUB_READ" s (s.dev.scrubReadRow c)

/-- PPR_SOFT (R447). -/
def execPprSoft (path : Nat) (c : Nat) (s : State) : Host.Outcome State Fault Refusal :=
  run (okPath path && decide (c < 12)) "PPR_SOFT" s (s.dev.pprSoftRow path c)

/-- PPR_HARD (R449). -/
def execPprHard (path : Nat) (c : Nat) (s : State) : Host.Outcome State Fault Refusal :=
  run (okPath path && decide (c < 12)) "PPR_HARD" s (s.dev.pprHardRow path c)

/-- PPR_DONE (R448). -/
def execPprDone (c : Nat) (res : Nat) (s : State) : Host.Outcome State Fault Refusal :=
  run (decide (c < 12) && decide (res < 5)) "PPR_DONE" s (s.dev.pprDoneRow c res)

/-- DIMM_THERMAL_READ (R451). -/
def execDimmThermalRead (c : Nat) (temp : Nat) (s : State) : Host.Outcome State Fault Refusal :=
  run (decide (c < 12) && decide (temp < 256)) "DIMM_THERMAL_READ" s (s.dev.dimmThermalReadRow c temp)

/-- LARDER_TRAIN_DONE (R432). -/
def execLarderTrainDone (mods : List Module) (s : State) : Host.Outcome State Fault Refusal :=
  run (true) "LARDER_TRAIN_DONE" s (s.dev.larderTrainDoneRow mods)

/-- CHAN_FAIL (R458). -/
def execChanFail (c : Nat) (cause : Nat) (s : State) : Host.Outcome State Fault Refusal :=
  run (decide (c < 12)) "CHAN_FAIL" s (s.dev.chanFailRow c cause)

/-- IO_DIE_FAULT (R24). -/
def execIoDieFault (die : Nat) (s : State) : Host.Outcome State Fault Refusal :=
  run (decide (die < 2)) "IO_DIE_FAULT" s (s.dev.ioDieFaultRow die)

end Sys2Proof.Machine
end

