-- ==== Sys2Proof/Machine/MoverOps.lean ====
section
/-! DEFINITION. The Data Mover's descriptors, completion records, share entries and migrations (chapter 14, R427 to
R429). -/

namespace Sys2Proof.Machine

/-! ## Starting a descriptor (R472, R474 to R477, R483, R484) -/

/-- The share entry in force of a sealed engine serves a domain. -/
def Dev.shareServes (d : Dev) (e dom : Nat) : Bool :=
  let kind (i : Nat) : Nat := d.getF DMV_SHARE_KIND e i
  let cur := SMap.get 0 d.dmv.share e
  if kind cur = 1 then d.getF DMV_SHARE_DOMAIN e cur = dom
  else if kind cur = 2 then !(List.range 16).any fun i => kind i = 1 && d.getF DMV_SHARE_DOMAIN e i = dom
  else false

/-- An earlier barrier holds a descriptor of operation `op` (Table 12-4). -/
def barrierHolds (earlier : List Desc) (op : Nat) : Bool :=
  earlier.any fun b => !b.ended &&
    ((b.op = 8 && opReads op) || (b.op = 9 && opWrites op) || (b.op = 0xA && (opReads op || opWrites op)))

/-- A completion slot is free (R472). -/
def Dev.cplSlot (d : Dev) (q used : Nat) : Bool :=
  (d.q q cCqTail + used + 65536 - d.q q cCqHead) % 65536 < 2 ^ d.q q cCqLog

/-- The queue's next descriptor, where nothing but its turn holds it (R466, R468, R472, R477). -/
def Dev.readyDesc (d : Dev) (q : Nat) : Option Desc :=
  let ds := (d.queue q).descs
  let earlier := ds.takeWhile (·.started)
  if d.halted || d.reqStop || d.sieShut (d.q q cEslice) || !d.sliceOn (d.q q cEslice) || !d.enabled ⟨.acu, d.q q cVcs⟩ || d.qState q ≠ qEnabled || !d.cached q || !d.cplSlot q earlier.length then none
  else (ds.find? fun x => !x.started).filter fun x => !barrierHolds earlier x.op

/-! ## Turns of the engines (R483) -/

/-- Engine e serves the queue: one of its slice and, where it is sealed, of the share entry in force. -/
def Dev.serves (d : Dev) (e q : Nat) : Bool :=
  d.q q cEslice = e / 4 && !d.quarantined (.engine e) && (!d.sealed (e / 4) || d.shareServes e (d.q q cDomain))

/-- The queue whose turn at engine e goes on: it has a descriptor ready and has not moved WEIGHT × 4 KiB. -/
def Dev.turnOf (d : Dev) (e : Nat) : Option Nat :=
  let t := SMap.get {} d.dmv.turn e
  t.queue.filter fun q => d.serves e q && (d.readyDesc q).isSome && t.moved < 4096 * max 1 (d.q q cWeight)

/-- The queue of the round that engine e takes next: one with a descriptor ready to which no engine gives its turn. (DESIGN CHOICE, log entry 135) -/
def Dev.nextTurn (d : Dev) (e : Nat) : Option Nat :=
  let s := e / 4
  let held := (List.range 4).filterMap fun i => d.turnOf (4 * s + i)
  let l := (d.dmv.queues.map Prod.fst).filter fun q => d.serves e q && (d.readyDesc q).isSome && !held.contains q
  (l.find? fun q => SMap.get 0 d.dmv.round s ≤ q).orElse fun _ => l.head?

/-- The engine that takes the queue's next descriptor now: the one whose turn the queue has, or one that gives it the next. -/
def Dev.engineFor (d : Dev) (q : Nat) : Option Nat :=
  let es := (List.range 4).map (4 * d.q q cEslice + ·)
  (es.find? fun e => d.turnOf e = some q).orElse fun _ => es.find? fun e => d.turnOf e = none && d.nextTurn e = some q

/-- The queue's next descriptor, when it has operation `op` and may start: the engine and the descriptor. -/
def Dev.nextDesc (d : Dev) (q op : Nat) : Option (Nat × Desc) :=
  match d.readyDesc q, d.engineFor q with
  | some x, some e => if x.op = op then some (e, x) else none
  | _, _ => none

/-- Replace the first descriptor not started. -/
def putStarted (y : Desc) : List Desc → List Desc
  | [] => []
  | x :: r => if x.started then x :: putStarted y r else y :: r

/-- A new turn of engine e for queue q: the slice's round goes on behind it. (DESIGN CHOICE, log entry 135) -/
def Dev.newTurn (d : Dev) (q e : Nat) : Dev :=
  { d with dmv := { d.dmv with
    turn := SMap.set {} d.dmv.turn e { queue := some q }, round := SMap.set 0 d.dmv.round (e / 4) ((q + 1) % 1048576) } }

/-- Engine e takes a descriptor of queue q. -/
def Dev.takeEngine (d : Dev) (q e : Nat) : Dev :=
  let d := d.put DMV_ESTAT_QUEUE e q
  let d := if d.turnOf e = some q then d else d.newTurn q e
  if d.sealed (d.q q cEslice) then d.put DMV_ESTAT_SHARE e (SMap.get 0 d.dmv.share e) else d

/-- A descriptor that moves bytes counts them against its queue's turn; any other ends the turn. (DESIGN CHOICE, log entry 135) -/
def Dev.turnTaken (d : Dev) (x : Desc) : Dev :=
  let t := SMap.get {} d.dmv.turn x.eng
  let t := if opUsesLen x.op && !x.ended then { t with moved := t.moved + x.len } else {}
  { d with dmv := { d.dmv with turn := SMap.set {} d.dmv.turn x.eng t } }

/-- The descriptor as its start has left it takes its place in the queue, in the state the start gives. -/
def Dev.afterStart (r : Desc × Dev) (q : Nat) : Dev :=
  let d := r.2.turnTaken r.1
  (d.setQueue q { d.queue q with descs := putStarted r.1 (d.queue q).descs }).settleQueue q

/-- Start the next descriptor of operation `op`: `f` says what it does. (DESIGN CHOICE, log entry 90) -/
def Dev.startDesc (d : Dev) (q op : Nat) (f : Desc → Dev → Desc × Dev) : Dev :=
  match d.nextDesc q op with
  | none => d
  | some (e, x) =>
    let d := d.takeEngine q e
    match x.malformed with
    | some st => Dev.afterStart ({ x with eng := e }.endWith st, d) q
    | none => Dev.afterStart (f { x with started := true, eng := e } d) q

/-- Check the ranges, stamp the epoch, then issue (R475, R479, R507). -/
def Dev.checkedStart (d : Dev) (q : Nat) (x : Desc) (l : List (AccKind × Nat × Nat)) (go : Desc → Dev → Desc × Dev) : Desc × Dev :=
  match d.rangeCheck q l with
  | (some st, d) => (x.endWith st, d)
  | (none, d) =>
    let (fid, d) := d.beginFlight
    go { x with fid := fid } d

/-! ## Operations (Table 14-6) -/

def Dev.nopRow (d : Dev) (q : Nat) : Dev := d.startDesc q 0x00 fun x d => (x, d)

/-- COPY starts (Table 14-4). (DESIGN CHOICE, log entry 90) -/
def Dev.copyRow (d : Dev) (q : Nat) : Dev :=
  d.startDesc q 0x01 fun x d =>
    d.checkedStart q x [(.read, x.srcA, x.len), (.write, x.dstA, x.len)] fun x d => d.issueReads q x 0 x.srcA x.len

/-- The bytes FILL writes from address `a`. -/
def fillBytes (a n : Nat) (pat : Bytes) : Bytes := (List.range n).map fun k => pat.getD ((a + k) % 8) 0

def Dev.fillRow (d : Dev) (q : Nat) : Dev :=
  d.startDesc q 0x02 fun x d =>
    d.checkedStart q x [(.write, x.dstA, x.len)] fun x d =>
      d.issueBytes q x x.dstA 0 (fillBytes x.dstA x.len (x.opA 8)) false

def Dev.compareRow (d : Dev) (q : Nat) : Dev :=
  d.startDesc q 0x03 fun x d =>
    d.checkedStart q x [(.read, x.srcA, x.len), (.read, x.dstA, x.len)] fun x d =>
      let r := d.issueReads q x 0 x.srcA x.len
      r.2.issueReads q r.1 1 x.dstA x.len

def Dev.crcRow (d : Dev) (q : Nat) : Dev :=
  d.startDesc q 0x04 fun x d =>
    d.checkedStart q x [(.read, x.srcA, x.len)] fun x d => d.issueReads q x 0 x.srcA x.len

/-- ATOMIC8 starts (Table 14-4). (DESIGN CHOICE, log entry 105) -/
def Dev.atomic8Row (d : Dev) (q : Nat) : Dev :=
  d.startDesc q 0x05 fun x d =>
    d.checkedStart q x [(.atomic, x.dstA, 8)] fun x d => d.issueAtom q x x.aop 8

/-- ATOMIC16 is a compare and swap of 16 bytes; SRC, when not 0, takes the old value. -/
def Dev.atomic16Row (d : Dev) (q : Nat) : Dev :=
  d.startDesc q 0x06 fun x d =>
    let l := (AccKind.atomic, x.dstA, 16) :: (if x.srcA = 0 then [] else [(AccKind.write, x.srcA, 16)])
    d.checkedStart q x l fun x d => d.issueAtom q x 2 16

/-- A barrier starts; BARRIER_ST and BARRIER_FULL flush the queue's streaming writes (R418, R427). -/
def Dev.barrierLdRow (d : Dev) (q : Nat) : Dev := d.startDesc q 0x08 fun x d => (x, d)
def Dev.barrierStRow (d : Dev) (q : Nat) : Dev := d.startDesc q 0x09 fun x d => (x, d.flushAgent (.queue q))
def Dev.barrierFullRow (d : Dev) (q : Nat) : Dev := d.startDesc q 0x0A fun x d => (x, d.flushAgent (.queue q))

/-- INTERRUPT ends when every earlier descriptor has; its signal follows its record (R478). -/
def Dev.interruptRow (d : Dev) (q : Nat) : Dev := d.startDesc q 0x0B fun x d => (x, d)

/-! ## Barriers (R427 to R429) -/

/-- A write request of the queue with this tag is accepted (Table 12-1). -/
def Dev.wrAccepted (d : Dev) (q tag : Nat) : Bool :=
  d.coh.tray.any fun e => e.m.req = some (.queue q) && e.m.body.tag = tag && e.ordered

/-- The reads of earlier descriptors are complete. -/
def readsDone (l : List Desc) : Bool := l.all fun x => x.accs.all fun c => c.kind = 2
/-- Their writes are accepted or ended failed, and none is still to come. -/
def Dev.writesDone (d : Dev) (q : Nat) (l : List Desc) : Bool :=
  (l.all fun x => x.accs.all fun c => if c.kind = 2 then d.wrAccepted q c.tag else c.kind ≤ 1 && x.op ≠ 1) &&
  !(d.coh.cmb.any fun c => c.agent = .queue q) &&
  !(d.coh.tray.any fun e => e.cmb && e.m.req = some (.queue q) && !e.ordered)

/-- A barrier that has started and not ended. -/
def openBarrier (y : Desc) : Bool := y.started && !y.ended && opBarrier y.op

/-- Descriptors before the queue's oldest open barrier. (DESIGN CHOICE, log entry 90) -/
def Dev.beforeBarrier (d : Dev) (q : Nat) : List Desc := (d.queue q).descs.takeWhile fun y => !openBarrier y

/-- The barrier's condition is met (R427). -/
def Dev.barrierMet (d : Dev) (q : Nat) (b : Desc) : Bool :=
  (b.op = 9 || readsDone (d.beforeBarrier q)) && (b.op = 8 || d.writesDone q (d.beforeBarrier q))

/-- The barrier ends: with BARRIER status when a write failed since the last one (R429). -/
def Dev.barrierEnd (d : Dev) (q : Nat) (b : Desc) : Dev :=
  let x := d.queue q
  let before := d.beforeBarrier q
  let n := if b.op = 8 then 0 else x.failSince
  let y := b.endWith (if n = 0 then stOk else stBarrier) n
  let ds := before ++ y :: x.descs.drop (before.length + 1)
  (d.setQueue q { x with descs := ds, failSince := if b.op = 8 then x.failSince else 0 }).settleQueue q

/-- R427, R429: the oldest started barrier's condition is met. -/
def Dev.barrierCompleteRow (d : Dev) (q : Nat) : Dev :=
  match (d.queue q).descs.find? openBarrier with
  | none => d
  | some b => if d.halted || !d.barrierMet q b then d else d.barrierEnd q b

/-! ## Completion records (R472, R478) -/

/-- The 16 bytes of a record (Table 14-7). -/
def Dev.record (d : Dev) (q : Nat) (x : Desc) : Bytes :=
  leBytes 8 (x.status + x.gen * 2 ^ 8 + d.q q cPhase * 2 ^ 16 + x.op * 2 ^ 24 + x.tagField * 2 ^ 32) ++ leBytes 8 x.result

/-- Write a record at its slot, as an access of the queue; false when it is refused or cannot go. Upstream it follows the
queue's posted writes (R473, R478). (DESIGN CHOICE, log entry 93) -/
def Dev.writeRecord (d : Dev) (q : Nat) (b : Bytes) : Bool × Dev :=
  let a := d.q q cCqBase + 16 * (d.q q cCqTail % 2 ^ d.q q cCqLog)
  match d.rangeCheck q [(.write, a, 16)] with
  | (some _, d) => (false, d)
  | (none, d) =>
    let (tag, d) := d.takeTag
    let (be, line) := lineForm a b
    match d.issue q 0 .svcWr a tag be line 0 false false with
    | some (true, d) => (true, d)
    | some (false, d) => (true, d.setQueue q { d.queue q with recs := (d.queue q).recs ++ [tag] })
    | none => (false, d)

/-- The descriptor's interrupt goes upstream behind its record (R478). (DESIGN CHOICE, log entry 94) -/
def Dev.descIrq (d : Dev) (q : Nat) (x : Desc) : Dev :=
  if d.q q cIrqEn = 1 && (x.irq || x.op = 0xB) then
    let m := d.queueMsg q { op := .fnMsi, arg := fnKey (d.q q cVcs) (d.q q cFn) * 2048 + d.q q cVector, agent := 512 }
    d.pushRel { m with cls := 0x0, int := false, dst := d.myId * 128 + d.q q cVcs }
  else d

/-- The completion queue's tail moves on; the phase turns with each pass. (DESIGN CHOICE, log entry 93) -/
def Dev.recordWritten (d : Dev) (q : Nat) : Dev :=
  let t := d.q q cCqTail + 1
  let d := if t % 2 ^ d.q q cCqLog = 0 then d.qPut q cPhase (1 - d.q q cPhase) else d
  (d.qPut q cCqTail (t % 65536)).qPut q cDone ((d.q q cDone + 1) % 2 ^ 32)

/-- R478: the oldest descriptor has ended, so its record is written; `ok` is whether the write succeeds. The write is held while its ACU page
is off (Table 2-7). -/
def Dev.completionRecordRow (d : Dev) (q : Nat) (ok : Bool) : Dev :=
  match (d.queue q).descs with
  | [] => d
  | x :: rest =>
    if d.halted || !d.enabled ⟨.acu, d.q q cVcs⟩ || !x.ended || !d.cplSlot q 0 then d
    else
      let d := ((d.setQueue q { d.queue q with descs := rest }).count .dmv x.eng 0x200).count .dmv x.eng 0x201 x.moved
      if !x.recordDue then d.descIrq q x
      else
        match d.writeRecord q (d.record q x) with
        | (true, d) =>
          if !ok then d.recordFailed q else (d.recordWritten q).descIrq q x
        | (false, d) => d.recordFailed q

/-! ## Share entries (R484, R485) -/

/-- The valid share entry that follows the one in force. -/
def Dev.nextShare (d : Dev) (e : Nat) : Option Nat :=
  ((List.range 16).map fun i => (SMap.get 0 d.dmv.share e + 1 + i) % 16).find? fun i => d.get DMV_SHARE_KIND e i ≠ 0

/-- R484, R485: the share entry in force ends; the next valid one begins, from the committed table. -/
def Dev.shareEntryEndRow (d : Dev) (e : Nat) : Dev :=
  let d := d.put (PGEPOCH_APPLIED .dmv) e 1
  match d.nextShare e with
  | some i =>
    let d : Dev := { d with dmv := { d.dmv with share := SMap.set 0 d.dmv.share e i } }
    if d.sealed (e / 4) then d.put DMV_ESTAT_SHARE e i else d
  | none => d

/-! ## MOVE_LIVE (R486 to R490) -/

/-- DPA ranges a valid entry maps on a target. -/
def Dev.entryRanges (d : Dev) (u i : Nat) (t : Tgt) : List (Nat × Nat) :=
  let x := d.hdmNow u i
  if !x.v then []
  else ((List.range x.ways).filter fun k => (d.bindNow u (x.tgts.getD k 0)).tgt = some t).map fun _ => (x.dpa * 2 ^ 28, x.dpaBytes)

/-- R486's refusals; the two targets when there is none. (DESIGN CHOICE, log entry 92) -/
def Dev.moveOk (d : Dev) (u entry tgt base : Nat) : Bool :=
  let x := d.hdmNow u entry
  let b := d.bindNow u tgt
  match b.tgt, (d.bindNow u (x.tgts.getD 0 0)).tgt with
  | some t, some o =>
    let n := x.bytes
    let all := (List.range 32).flatMap fun i => d.entryRanges u i t
    let others := ((List.range 32).filter (· ≠ entry)).flatMap fun i => d.entryRanges u i o
    x.v && x.mode = 0 && !x.home && !x.fenced && x.size ≤ 4 && !d.migrating u entry && !d.locked ⟨.dec, u / 8⟩ &&
      !b.share && !(all.any fun r => overlaps (base * 2 ^ 28) n r.1 r.2) &&
      !(others.any fun r => overlaps (x.dpa * 2 ^ 28) n r.1 r.2)
  | _, _ => false

/-- A migration takes slot m. (DESIGN CHOICE, log entry 92) -/
def Dev.moveBegin (d : Dev) (q m : Nat) (x : Desc) : Desc × Dev :=
  let u := d.q q cVcs
  let entry := x.srcA % 32
  let d := (d.coh.cmb.filter fun c => c.m.vcs = u && c.m.entry = entry).foldl (fun d c => d.flushCmb c) d
  let r := d.takeTag
  let d := r.2
  let g : Migr := { queue := q, tag := r.1, vcs := u, entry := entry, tgt := x.dstA / 2 ^ 32 % 128, base := x.dstA % 2 ^ 24,
                    gran := max 1 (d.get DMV_MLCFG_HOLD_GRAN), passes := max 1 (d.get DMV_MLCFG_PASSES),
                    tries := max 1 (d.get DMV_MLCFG_TRIES) }
  let d := d.setMigr m (some g)
  let d := ((d.mlIdle m).put DMV_MLSTAT_PHASE 0 1 m).put DMV_MLSTAT_VCS 0 u m
  ({ x with accs := [⟨r.1, 9, 0, 0, 0⟩] }, d.put DMV_MLSTAT_ENTRY 0 entry m)

/-- MOVE_LIVE: refused, or its migration takes a slot and begins to copy. -/
def Dev.moveLiveRow (d : Dev) (q : Nat) : Dev :=
  d.startDesc q 0x07 fun x d =>
    let u := d.q q cVcs
    let entry := x.srcA % 32
    let base := x.dstA % 2 ^ 24
    let tgt := x.dstA / 2 ^ 32 % 128
    if d.q q cPriv ≠ 1 then (x.endWith stNotPriv, d)
    else match (List.range 64).find? fun m => (d.migr? m).isNone with
      | none => (x.endWith stMoveLimit, d)
      | some m =>
        if !d.moveOk u entry tgt base then (x.endWith stMoveRefused, d)
        else d.moveBegin q m x

def Dev.mlPhase (d : Dev) (m : Nat) : Nat := d.get DMV_MLSTAT_PHASE 0 m

/-- R487: COPY has copied every granule. -/
def Dev.moveLiveCopyDoneRow (d : Dev) (m : Nat) : Dev :=
  match d.migr? m with
  | some g =>
    if d.halted || d.mlPhase m ≠ 1 then d
    else match d.migrCopy m g (List.range (d.migrGranules g)) with
      | (some _, d) => d.put DMV_MLSTAT_PHASE 0 2 m
      | (none, d) => d
  | none => d

/-- R487: one pass of RECOPY has ended. -/
def Dev.moveLiveRecopyDoneRow (d : Dev) (m : Nat) : Dev :=
  match d.migr? m with
  | some g =>
    if d.halted || d.mlPhase m ≠ 2 then d
    else
      let d := (d.setMigr m (some { g with dirty := [] })).put DMV_MLSTAT_DIRTY 0 0 m
      match d.migrCopy m { g with dirty := [] } (g.dirty.mergeSort) with
      | (none, d) => d
      | (some g, d) =>
        let n := d.get DMV_MLSTAT_PASS 0 m + 1
        let d := d.put DMV_MLSTAT_PASS 0 n m
        if g.dirty.length ≤ g.gran && d.on (PGEPOCH_APPLIED .dec) (g.vcs / 8) then d.put DMV_MLSTAT_PHASE 0 3 m
        else if n ≥ g.passes then d.migrFail m g stMigrate
        else d
  | none => d

/-- Writes decoded by the entry and admitted before the hold that are neither accepted nor ended. -/
def Dev.holdWaits (d : Dev) (u i : Nat) : Bool :=
  let out := d.core.oven.map (·.m) ++ (List.range 128).flatMap (fun p => (d.port p).tx ++ (d.port p).outst.map (·.m)) ++
    (d.ldr.reqs.flatMap Prod.snd).map (·.m)
  (d.coh.tray.any fun e => e.m.vcs = u && e.m.entry = i && !e.movelive && !e.ordered) ||
    out.any fun m => m.writesBack && m.vcs = u && m.entry = i

/-- The swap writes TGT0 and DPA_BASE into the active and shadow copies and raises the epoch (R488). -/
def Dev.swapEntry (d : Dev) (g : Migr) : Dev :=
  let s := g.vcs / 8
  let d := d.savePrev ⟨.dec, s⟩
  let f1 (w : W64) : W64 := setBits w 24 24 g.base
  let f2 (w : W64) : W64 := setBits w 0 7 g.tgt
  let d := (d.setTab 0x04 g.vcs g.entry 1 (f1 (d.tab 0x04 g.vcs g.entry 1))).setTabS 0x04 g.vcs g.entry 1 (f1 (d.tabS 0x04 g.vcs g.entry 1))
  let d := (d.setTab 0x04 g.vcs g.entry 2 (f2 (d.tab 0x04 g.vcs g.entry 2))).setTabS 0x04 g.vcs g.entry 2 (f2 (d.tabS 0x04 g.vcs g.entry 2))
  d.raiseEpoch ⟨.dec, s⟩

/-- R487, R488: the last dirty granules are copied, the entry swapped and the held writes released under it. -/
def Dev.moveLiveHoldReadyRow (d : Dev) (m : Nat) : Dev :=
  match d.migr? m with
  | some g =>
    if d.halted || d.mlPhase m ≠ 3 || d.holdWaits g.vcs g.entry then d
    else match d.migrCopy m g (g.dirty.mergeSort) with
      | (none, d) => d
      | (some g, d) =>
        let d := ((d.setMigr m none).mlIdle m).swapEntry g
        (d.releaseHeld g.vcs g.entry true).endMoveDesc g (if g.poison then stPoison else stOk)
  | none => d

/-- R487: HOLD_NS has passed without a swap. -/
def Dev.moveLiveHoldTimeoutRow (d : Dev) (m : Nat) : Dev :=
  match d.migr? m with
  | some g =>
    if d.halted || d.mlPhase m ≠ 3 then d
    else
      let n := d.get DMV_MLSTAT_TRY 0 m + 1
      let d := d.put DMV_MLSTAT_TRY 0 n m
      if n ≥ g.tries then d.migrFail m g stMigrate
      else (d.put DMV_MLSTAT_PHASE 0 2 m).releaseHeld g.vcs g.entry false
  | none => d

/-! ## Commands -/

/-- NOP (R475). -/
def execNop (q : Nat) (s : State) : Host.Outcome State Fault Refusal :=
  run (decide (q < 1048576)) "NOP" s (s.dev.nopRow q)

/-- COPY (R475). -/
def execCopy (q : Nat) (s : State) : Host.Outcome State Fault Refusal :=
  run (decide (q < 1048576)) "COPY" s (s.dev.copyRow q)

/-- FILL (R475). -/
def execFill (q : Nat) (s : State) : Host.Outcome State Fault Refusal :=
  run (decide (q < 1048576)) "FILL" s (s.dev.fillRow q)

/-- COMPARE (R475). -/
def execCompare (q : Nat) (s : State) : Host.Outcome State Fault Refusal :=
  run (decide (q < 1048576)) "COMPARE" s (s.dev.compareRow q)

/-- CRC (R475). -/
def execCrc (q : Nat) (s : State) : Host.Outcome State Fault Refusal :=
  run (decide (q < 1048576)) "CRC" s (s.dev.crcRow q)

/-- ATOMIC8 (R476). -/
def execAtomic8 (q : Nat) (s : State) : Host.Outcome State Fault Refusal :=
  run (decide (q < 1048576)) "ATOMIC8" s (s.dev.atomic8Row q)

/-- ATOMIC16 (R476). -/
def execAtomic16 (q : Nat) (s : State) : Host.Outcome State Fault Refusal :=
  run (decide (q < 1048576)) "ATOMIC16" s (s.dev.atomic16Row q)

/-- MOVE_LIVE (R486). -/
def execMoveLive (q : Nat) (s : State) : Host.Outcome State Fault Refusal :=
  run (decide (q < 1048576)) "MOVE_LIVE" s (s.dev.moveLiveRow q)

/-- BARRIER_LD (R427). -/
def execBarrierLd (q : Nat) (s : State) : Host.Outcome State Fault Refusal :=
  run (decide (q < 1048576)) "BARRIER_LD" s (s.dev.barrierLdRow q)

/-- BARRIER_ST (R427). -/
def execBarrierSt (q : Nat) (s : State) : Host.Outcome State Fault Refusal :=
  run (decide (q < 1048576)) "BARRIER_ST" s (s.dev.barrierStRow q)

/-- BARRIER_FULL (R427). -/
def execBarrierFull (q : Nat) (s : State) : Host.Outcome State Fault Refusal :=
  run (decide (q < 1048576)) "BARRIER_FULL" s (s.dev.barrierFullRow q)

/-- INTERRUPT (R475). -/
def execInterrupt (q : Nat) (s : State) : Host.Outcome State Fault Refusal :=
  run (decide (q < 1048576)) "INTERRUPT" s (s.dev.interruptRow q)

/-- BARRIER_COMPLETE (R429). -/
def execBarrierComplete (q : Nat) (s : State) : Host.Outcome State Fault Refusal :=
  run (decide (q < 1048576)) "BARRIER_COMPLETE" s (s.dev.barrierCompleteRow q)

/-- COMPLETION_RECORD (R478). -/
def execCompletionRecord (q : Nat) (ok : Bool) (s : State) : Host.Outcome State Fault Refusal :=
  run (decide (q < 1048576)) "COMPLETION_RECORD" s (s.dev.completionRecordRow q ok)

/-- SHARE_ENTRY_END (R484). -/
def execShareEntryEnd (e : Nat) (s : State) : Host.Outcome State Fault Refusal :=
  run (decide (e < 64)) "SHARE_ENTRY_END" s (s.dev.shareEntryEndRow e)

/-- MOVE_LIVE_COPY_DONE (R487). -/
def execMoveLiveCopyDone (m : Nat) (s : State) : Host.Outcome State Fault Refusal :=
  run (decide (m < 64)) "MOVE_LIVE_COPY_DONE" s (s.dev.moveLiveCopyDoneRow m)

/-- MOVE_LIVE_RECOPY_DONE (R487). -/
def execMoveLiveRecopyDone (m : Nat) (s : State) : Host.Outcome State Fault Refusal :=
  run (decide (m < 64)) "MOVE_LIVE_RECOPY_DONE" s (s.dev.moveLiveRecopyDoneRow m)

/-- MOVE_LIVE_HOLD_READY (R487). -/
def execMoveLiveHoldReady (m : Nat) (s : State) : Host.Outcome State Fault Refusal :=
  run (decide (m < 64)) "MOVE_LIVE_HOLD_READY" s (s.dev.moveLiveHoldReadyRow m)

/-- MOVE_LIVE_HOLD_TIMEOUT (R487). -/
def execMoveLiveHoldTimeout (m : Nat) (s : State) : Host.Outcome State Fault Refusal :=
  run (decide (m < 64)) "MOVE_LIVE_HOLD_TIMEOUT" s (s.dev.moveLiveHoldTimeoutRow m)

end Sys2Proof.Machine
end

