-- ==== Sys2Proof/Machine/ObsRegs.lean ====
section
/-! DEFINITION. Writes that act on the time base, Crumb, the counters, the collector and the telemetry rings, and the
collector's image (chapter 20). -/

namespace Sys2Proof.Machine

/-! ## Time base (R628) -/

/-- TMB_SET: taken in FREE and MASTER, in force at the next TIMECLK edge. -/
def Dev.timeSet (d : Dev) (v : Nat) : Dev :=
  if d.get TMB_CFG_ROLE ≥ 2 then d else { d with obs := { d.obs with clk := { d.obs.clk with setNext := some (v % 2 ^ 64) } } }

/-! ## Crumb (R633) -/

def Dev.clrAll (d : Dev) : Dev := Pg.all.foldl (fun d g => d.put (PGSTAT_SNAP_VALID g.blk) g.inst 0) d

/-! ## Counters (R636, R637) -/

def Dev.cntZero (d : Dev) (g : Pg) (c : Nat) : Dev := (d.put (CNT_COUNT g.blk) g.inst 0 c).put (CNT_SAT g.blk) g.inst 0 c

/-- The select field of counter c takes the bits of `v` that `m` names, both 32 bits wide. -/
def Dev.cntSelSet (d : Dev) (g : Pg) (c v m : Nat) : Dev :=
  let r := CNT_SEL g.blk
  let s := 32 * (c % 2)
  let keep := 0x1FF9FFF
  let old := bits (d.word r g.inst (c / 2)) s 32
  let m1 := Nat.land m keep
  let new := (List.range 32).foldl (fun n i => if bit (if bit m1 i then v else old) i then n + 2 ^ i else n) 0
  let ev (x : Nat) : Nat := x % 1024 + x / 2048 % 2 * 1024
  let d := d.setWord r g.inst (setBits (d.word r g.inst (c / 2)) s 32 new) (c / 2)
  if ev new ≠ ev old || (bit m 13 && bit v 13) then d.cntZero g c else d

/-! ## Telemetry rings (R644, R647, R648) -/

def Dev.selRing (d : Dev) : Nat := d.get TLM_SEL_RING

def Ring.cfg0 (r : Ring) : W64 := BitVec.ofNat 64 (r.base / 4096 * 4096)
def Ring.cfg1 (r : Ring) : W64 :=
  BitVec.ofNat 64 (b2n r.en + b2n r.larder * 2 + r.size * 4 + r.ct * 2 ^ 8 + r.level * 2 ^ 24 + b2n r.crumb * 2 ^ 48)

/-- The ring may be enabled: SIZE and alignment, and its place in the telemetry area. -/
def Dev.ringOk (d : Dev) (r : Ring) : Bool :=
  12 ≤ r.size && r.size ≤ 24 && r.base % 2 ^ r.size = 0 &&
    (!r.larder || (d.ldr.up && d.get LDR_CARVE_TLM_GIB ≠ 0 && r.base + 2 ^ r.size ≤ d.tlmSize))

/-- TLM_RCFG0 takes word `w`: a ring that is enabled keeps its base. -/
def Dev.ringBase (d : Dev) (w : W64) : Dev :=
  let r := d.ring d.selRing
  if r.en then d else d.setRing d.selRing { r with base := w.toNat / 4096 * 4096 }

/-- TLM_RCFG1 takes word `w`: an enabled ring takes only a write of EN 0; EN set enables it or is refused. -/
def Dev.ringCfg (d : Dev) (w : W64) : Dev :=
  let k := d.selRing
  let r := d.ring k
  let en := bits w 0 1 = 1
  if r.en && en then d
  else
    let r := { r with en := false, larder := bits w 1 1 = 1, size := bits w 2 5, ct := bits w 8 16, level := bits w 24 24, crumb := bits w 48 1 = 1 }
    if !en then d.setRing k r
    else if d.ringOk r then d.setRing k { r with en := true, head := 0, tail := 0, seq := 0, pending := 0, err := false, recs := [], popped := 0 }
    else (d.setRing k r).raise TLM_F_BAD_CFG 0

/-- HEAD moves past `n` records. -/
def Dev.ringAdvance (d : Dev) (k n head : Nat) : Dev :=
  let r := d.ring k
  let d := d.setRing k { r with head := head, recs := r.recs.drop n, popped := 0 }
  if head = r.head then d else d.ringGap k

/-- The word TLM_POP shows (R647). -/
def Ring.popWord (r : Ring) : W64 :=
  match r.recs with
  | x :: _ => if x.done then x.words.getD r.popped 0 else 0
  | [] => 0

/-- The word at HEAD is read where it lies: one lost in the Larder is reported, and what is shown then is open (R437). (DESIGN CHOICE, log entry 35) -/
def Dev.popRead (d : Dev) (r : Ring) : W64 × Dev :=
  if !r.larder then (r.popWord, d)
  else
    let (lost, d) := d.carveRead (d.tlmBase + r.base + r.head % r.bytes + 8 * r.popped) 5
    if !lost then (r.popWord, d)
    else
      let (v, d) := d.fresh
      (BitVec.ofNat 64 v, d)

/-- A read of TLM_POP. -/
def Dev.ringPop (d : Dev) : W64 × Dev :=
  let k := d.selRing
  let r := d.ring k
  match r.recs with
  | [] => (0, d)
  | x :: _ =>
    if !x.done then (0, d)
    else
      let (w, d) := d.popRead r
      if r.popped + 1 < x.words.length then (w, d.setRing k { r with popped := r.popped + 1 })
      else (w, d.ringAdvance k 1 ((r.head + x.len) % (2 * r.bytes)))

/-- TLM_RHEAD (R648). -/
def Dev.ringHead (d : Dev) (v : Nat) : Dev :=
  let k := d.selRing
  let r := d.ring k
  if v = r.tail then d.ringAdvance k r.recs.length v
  else match r.recs.findIdx? (fun x => x.off = v && x.done) with
    | some n => d.ringAdvance k n v
    | none => d.raise TLM_F_BAD_HEAD 0

/-! ## The collector (R638 to R640) -/

/-- The image area of LOC 1 exists and holds both buffers. -/
def Dev.collectOk (d : Dev) (larder : Bool) (base : Nat) : Bool :=
  !larder || (d.ldr.up && d.get LDR_CARVE_TLM_GIB ≠ 0 && base + 0x80000 ≤ d.tlmSize)

def Dev.collectBase (d : Dev) : Nat := d.get CCL_BASE_ADDR * 4096

/-- CCL_CFG has been written: EN stays 0 where the image has no place. -/
def Dev.collectCfg (d : Dev) (was : Bool) : Dev :=
  if d.on CCL_CFG_EN && !was && !d.collectOk (d.on CCL_CFG_LOC) d.collectBase then (d.put CCL_CFG_EN 0 0).raise CCL_F_BAD_CFG 0 else d

/-- The counters of every page, by 16 × page index + counter. -/
def Dev.collectImage (d : Dev) : SMap W64 :=
  Pg.all.foldl (fun m g =>
    if d.avail g then (List.range 16).foldl (fun m c => SMap.set 0 m (16 * g.idx + c) (d.word (CNT g.blk) g.inst c)) m else m) []

/-- Bytes of a buffer after word 0 (Table 20-6). -/
def Sweep.bytes (x : Sweep) : Bytes :=
  leBytes 8 x.start ++ leBytes 8 x.last ++ List.replicate 40 0 ++
    (List.range (16 * 2047)).flatMap fun i => leBytes 8 (SMap.get 0 x.image i).toNat

/-- A sweep's image is written, word 0 last. -/
def Dev.collectWrite (d : Dev) (x : Sweep) (seq : Nat) : Dev :=
  let a := x.base + seq % 2 * 0x40000
  if x.larder then (d.lwrite (d.tlmBase + a + 8) x.bytes).lwrite (d.tlmBase + a) (leBytes 8 seq)
  else (d.emit (.hostWrite (a + 8) x.bytes)).emit (.hostWrite a (leBytes 8 seq))

end Sys2Proof.Machine
end

