-- ==== Sys2Proof/Machine/Order.lean ====
section
/-! DEFINITION. Commands of ordering and acceptance: the acceptance index, releases of held requests, combining
buffers, DRAIN (chapter 12). -/

namespace Sys2Proof.Machine

/-! ## Acceptance index (R405) -/

/-- The slice that orders an accept-early write. -/
def TrayEnt.orderSlice (e : TrayEnt) : Nat := homeSlice e.tk e.line

/-- Entries of a slice's acceptance index in use: accept-early writes recorded and not committed. -/
def Dev.indexUsed (d : Dev) (s : Nat) : Nat :=
  (d.coh.tray.filter fun e => (e.row = 3 || e.row = 4) && e.due && e.orderSlice = s).length

/-- R405: the order slice records accept-early write `id`, or the write waits for index space; one that MOVE_LIVE holds has not been
checked again yet and is not recorded (R487). -/
def Dev.acceptanceIndexRecordRow (d : Dev) (id : Nat) : Dev :=
  match d.trayEnt? id with
  | none => d
  | some e =>
    if d.halted || !(e.row = 3 || e.row = 4) || e.due || e.movelive then d
    else if d.indexUsed e.orderSlice < 4096 then d.trayOrder id (portSlice e.port)
    else if e.idxWait then d
    else (d.modTray id fun x => { x with idxWait := true }).raise TRY_F_IDX_FULL e.orderSlice

/-! ## Releases (R221, R409, R410) -/

/-- R409, R410: a source's held head whose entries are ordered now is admitted. -/
def Dev.trayHoldReleaseRow (d : Dev) (src : Nat) : Dev :=
  if d.halted || !d.core.held.contains src then d
  else match d.relOf src with
    | [] => d
    | m :: rest =>
      if d.lineWait m || d.postedWait m then d else (d.tryHead src m rest).settleClaims .none

/-! ## Streaming writes (R416 to R418) -/

/-- The head is a write that its region, or its descriptor, makes a streaming one. -/
def Dev.headStreams (d : Dev) (src : Nat) (m : Msg) : Bool :=
  if m.ready then (match m.tp with | some p => d.streams p m | none => false)
  else trayOp m.body.op && !atomOp m.body.op && src < 128 &&
    ((d.regionAt d.epoch src m.body.addr).map (·.s)).getD false && d.on TRY_CFG_CMB_EN (portSlice src)

/-- R416: source `src` presents a streaming write, or retries one that waits for an entry. -/
def Dev.streamingWriteRow (d : Dev) (src : Nat) : Dev :=
  if d.halted then d
  else match d.relOf src with
    | [] => d
    | m :: rest =>
      if !d.headStreams src m then d
      else ((if d.core.held.contains src then d.tryHead src m rest else d.present src)).settleClaims .none

/-- Requester a code names: a port, 128 + 16p + l an LD of an MLD, 4096 + q a queue. -/
def reqOfCode (a : Nat) : Req :=
  if a < 128 then .port a else if a < 4096 then .ld ((a - 128) / 16) ((a - 128) % 16) else .queue (a - 4096)

/-- R418: CMB_TO has elapsed for the entry of a line and agent. -/
def Dev.cmbTimeoutRow (d : Dev) (s line agent : Nat) : Dev :=
  match d.coh.cmb.find? fun c => portSlice c.port = s && lineKey c.tk c.line = line && c.agent = reqOfCode agent with
  | some c => (d.inc TRY_CMB_TMO s).flushCmb c
  | none => d

/-! ## DRAIN (R420) -/

/-- Port p's streaming writes go on their way, and DRAIN is done when they are ordered; those that have arrived and wait to enter the
buffer are marked, and are flushed as they enter it. (DESIGN CHOICE, log entry 29) -/
def Dev.drainStart (d : Dev) (p : Nat) : Dev :=
  let n := d.coh.nextTray
  let d := d.flushAgent (.port p)
  let ids := (d.coh.tray.filter fun e => e.cmb && !e.ordered && e.m.agentReq = .port p).map (·.id)
  let d := d.setRel p ((d.relOf p).map fun m => if m.drain = 0 && d.headStreams p m then { m with drain := n } else m)
  let busy := d.get TRY_DRAIN_BUSY (portSlice p)
  let d := if bit busy (p % 8) then d else d.put TRY_DRAIN_BUSY (portSlice p) (busy + 2 ^ (p % 8))
  ({ d with coh := { d.coh with nextTray := max d.coh.nextTray (n + 1), drains := d.coh.drains ++ [{ port := p, seq := n, ids := ids }] } } : Dev).drainSettle

/-- R420: DRAIN is written through function `fn` of the endpoint of UPSTREAM port p. -/
def Dev.drainWriteRow (d : Dev) (p fn : Nat) : Dev := if d.halted || !d.fnExists p fn then d else d.drainStart p

/-- R420: DRAIN is read: the answer waits for the port's earlier DRAIN writes. -/
def Dev.drainReadRow (d : Dev) (p fn : Nat) : Dev :=
  if d.halted || !d.fnExists p fn then d
  else match (d.coh.drains.filter (·.port = p)).getLast? with
    | none => d.emit (.fnRead (fnKey p fn) (d.get DRAIN_DONE (p * 128)))
    | some x =>
      { d with coh := { d.coh with drains := d.coh.drains.map fun y => if y = x then { y with reads := y.reads ++ [fn] } else y } }

/-! ## Commands -/

/-- ACCEPTANCE_INDEX_RECORD (R405). -/
def execAcceptanceIndexRecord (id : Nat) (s : State) : Host.Outcome State Fault Refusal :=
  run (true) "ACCEPTANCE_INDEX_RECORD" s (s.dev.acceptanceIndexRecordRow id)

/-- TRAY_HOLD_RELEASE (R409). -/
def execTrayHoldRelease (src : Nat) (s : State) : Host.Outcome State Fault Refusal :=
  run (decide (src < 144)) "TRAY_HOLD_RELEASE" s (s.dev.trayHoldReleaseRow src)

/-- STREAMING_WRITE (R416). -/
def execStreamingWrite (src : Nat) (s : State) : Host.Outcome State Fault Refusal :=
  run (decide (src < 144)) "STREAMING_WRITE" s (s.dev.streamingWriteRow src)

/-- CMB_TIMEOUT (R418). -/
def execCmbTimeout (sl : Nat) (line : Nat) (agent : Nat) (s : State) : Host.Outcome State Fault Refusal :=
  run (decide (sl < 16)) "CMB_TIMEOUT" s (s.dev.cmbTimeoutRow sl line agent)

/-- DRAIN_WRITE (R420). -/
def execDrainWrite (p : Nat) (fn : Nat) (s : State) : Host.Outcome State Fault Refusal :=
  run (decide (p < 128) && decide (fn < 128)) "DRAIN_WRITE" s (s.dev.drainWriteRow p fn)

/-- DRAIN_READ (R420). -/
def execDrainRead (p : Nat) (fn : Nat) (s : State) : Host.Outcome State Fault Refusal :=
  run (decide (p < 128) && decide (fn < 128)) "DRAIN_READ" s (s.dev.drainReadRow p fn)

end Sys2Proof.Machine
end

