-- ==== Sys2Proof/Machine/CommitChk.lean ====
section
/-! DEFINITION. What a commit moves into force, and what it is refused for: the checks of each block's shadow values
(R51, Table 2-5, and the block's chapter). -/

namespace Sys2Proof.Machine

/-! ## Shadows (R12, R51, Table 2-6) -/

/-- RWC bits of word `w` of a table's entry: the others read zero, or are RO. -/
def tabMask (t w : Nat) : Nat :=
  match t, w with
  | 0x01, 0 => 2 ^ 26 - 1
  | 0x02, 0 => 2 ^ 11 - 1
  | 0x03, 0 => 2 ^ 27 - 1
  | 0x04, 0 => 0xFFFFFF0FF3FF
  | 0x04, 1 => 2 ^ 48 - 1
  | 0x04, 2 => 0x7F7F7F7F
  | 0x05, 0 => 2 ^ 52 - 2 ^ 16 + 0x3FFF
  | 0x05, 1 => 2 ^ 30 - 1
  | 0x06, 0 => 2 ^ 42 - 1
  | 0x07, 0 => 2 ^ 64 - 1
  | 0x08, 0 => 0x3FF3F
  | 0x09, 0 => 2 ^ 36 - 2 ^ 16 + 0x7FF
  | 0x0A, 0 => 0x3F7FFF
  | 0x0A, 1 | 0x0A, 2 | 0x0B, 0 | 0x0B, 1 => 2 ^ 44 - 1
  | 0x0B, 2 => 1
  | 0x0C, 0 => 2 ^ 46 - 1
  | 0x0C, 1 => 0xFF
  | 0x0E, 0 => 0x107FF
  | _, _ => 0

def mergeMask (mask : Nat) (old new : W64) : W64 :=
  let m : W64 := BitVec.ofNat 64 mask
  (old &&& ~~~m) ||| (new &&& m)

/-- RWC fields of a page's registers, with their indexes. -/
def Pg.rwcFlds (g : Pg) : List (Fld × Nat) :=
  g.blk.own.flatMap fun r =>
    if r.reg.only0 && g.inst ≠ 0 then []
    else (r.flds.filter fun f => f.acc = .rwc).flatMap fun f => (List.range r.reg.cnt).map fun j => (f, j)

/-- Keys of the page's shadowed tables that either copy lists. -/
def Dev.pageKeys (d : Dev) (g : Pg) : List Nat :=
  (d.tabs.map Prod.fst ++ d.tabSh.map Prod.fst).filter fun k => g.tables.contains (keyTab k)

/-- Entries of the page written since its last accepted commit carry their check bits into the active copy (R61). -/
def Dev.activateUe (d : Dev) (g : Pg) : Dev :=
  let wr (k : Nat) : Bool := g.tables.contains (keyTab k) && d.ctl.written.contains k
  { d with tabUe := d.tabUe.filter (fun k => !wr k) ++ d.tabUeSh.filter wr, tabUeSeen := d.tabUeSeen.filter fun k => !wr k }

/-- All shadows of the page become active. -/
def Dev.activate (d : Dev) (g : Pg) : Dev :=
  let d2 := g.rwcFlds.foldl (fun (x : Dev) fj => x.put fj.1 g.inst (d.getSh fj.1 g.inst fj.2) fj.2) d
  let f (l : SMap W64) (k : Nat) : SMap W64 :=
    SMap.set 0 l k (mergeMask (tabMask (keyTab k).1 (k % 8)) (SMap.get 0 d.tabs k) (SMap.get 0 d.tabSh k))
  ({ d2 with tabs := (d.pageKeys g).foldl f d.tabs }).activateUe g

/-- DISCARD: the active values go back into every shadow of the page (R682). -/
def Dev.unshadow (d : Dev) (g : Pg) : Dev :=
  let d2 := g.rwcFlds.foldl (fun (x : Dev) fj => x.putSh fj.1 g.inst (d.get fj.1 g.inst fj.2) fj.2) d
  let f (l : SMap W64) (k : Nat) : SMap W64 :=
    SMap.set 0 l k (mergeMask (tabMask (keyTab k).1 (k % 8)) (SMap.get 0 d.tabSh k) (SMap.get 0 d.tabs k))
  let mine (k : Nat) : Bool := g.tables.contains (keyTab k)
  { d2 with tabSh := (d.pageKeys g).foldl f d.tabSh, tabUeSh := d.tabUeSh.filter (fun k => !mine k) ++ d.tabUe.filter mine,
            ctl := { d2.ctl with written := d2.ctl.written.filter fun k => !g.tables.contains (keyTab k) } }

/-! ## Helpers -/

/-- Two members of a list, at different places, that `r` relates. -/
def anyPair {α : Type} (r : α → α → Bool) : List α → Bool
  | [] => false
  | x :: xs => xs.any (fun y => r x y || r y x) || anyPair r xs

def rangesMeet (a b : Nat × Nat) : Bool := a.1 < b.1 + b.2 && b.1 < a.1 + a.2

/-! ## Checks: `n` is the device as the commit would leave it -/

/-- R19 and Table of SDS_MODE. -/
def Dev.badSds (n : Dev) (o : Nat) : Bool :=
  let m := n.get SDS_MODE_MODE o
  let r := n.get SDS_MODE_MAXRATE o
  m = 3 || n.get SDS_MODE_FORM o = 3 || (m = 0 && !(3 ≤ r && r ≤ 9)) || (m = 1 && !(3 ≤ r && r ≤ 7)) || (m = 2 && !(8 ≤ r && r ≤ 9)) ||
    (m = 2 && ((List.range 64).filter fun x => n.octMode x = 2).length > 32)

/-- R121; AGG outside 1 to 5. -/
def Dev.badPrt (d n : Dev) (p : Nat) : Bool :=
  let was := d.get PRT_CFG_ROLE p
  let now := n.get PRT_CFG_ROLE p
  now = 3 || (was = 1 && now ≠ 1 && (List.range 128).any fun v => (d.bindNow p v).kind ≠ 0) ||
    (was = 2 && now ≠ 2 && (d.portTgts p).any fun t => !(d.bindingsOf t).isEmpty) ||
    !(1 ≤ n.get PRT_IDE_AGG p && n.get PRT_IDE_AGG p ≤ 5)

/-- R176, R222. -/
def Dev.badDrl (n : Dev) (k : Nat) : Bool :=
  let vc (c : Nat) : Nat := bits (n.word DRL_VCMAP k) (3 * c) 3
  let nvc := n.nvc k
  ((List.range 16).any fun a => clsRsp a && (List.range 16).any fun b => !clsRsp b && vc a = vc b) ||
    ((List.range 16).any fun c => vc c ≥ nvc) || ((List.range nvc).any fun v => n.get (vcBufFld v) k < 64) ||
    n.vcCells k > 8192 || nvc = 1 || !(1 ≤ n.get DRL_CFG_SEG k && n.get DRL_CFG_SEG k ≤ 8) ||
    (n.on DRL_ATTACH_VALID k && n.reserved (n.lkOctet k / 4) > 40960)

/-- R222. -/
def Dev.badOvn (n : Dev) (s : Nat) : Bool :=
  let parts := ((List.range 256).map fun i => n.tab 0x09 s i).filter fun w => bits w 10 1 = 1
  ((List.range 8).any fun i => n.get OVN_PORTCFG_ALPHA s i > 9 || n.get OVN_PORTCFG_MIN s i > 8192) ||
    n.get OVN_CFG_INT_ALPHA s > 9 || n.get OVN_CFG_INT_MIN s > 8192 || parts.any (fun w => bits w 32 4 > 9 || bits w 16 16 > 49152) ||
    n.reserved s > 40960 || (n.sealed s && n.partCells s + n.reserved s > n.inService s) ||
    anyPair (fun a b => bits a 0 10 = bits b 0 10) parts

/-- R262. -/
def Dev.badArb (n : Dev) (s : Nat) : Bool :=
  !(2 ≤ n.get ARB_CFG_N s && n.get ARB_CFG_N s ≤ 64) || !(1 ≤ n.get ARB_CFG_SLOTS s && n.get ARB_CFG_SLOTS s ≤ 128) ||
    (List.range 128).any fun i => bits (n.tab 0x08 s i) 0 2 = 3

/-- R273, R301. -/
def Dev.badPol (n : Dev) (p : Nat) : Bool :=
  let es := (List.range 128).filter fun i => bits (n.tab 0x0A p i) 13 1 = 1
  (es.any fun i =>
    let w := n.tab 0x0A p i
    let (cir, cbs) := (bits (n.tab 0x0A p i 1) 0 20, bits (n.tab 0x0A p i 1) 20 24)
    let (pir, pbs) := (bits (n.tab 0x0A p i 2) 0 20, bits (n.tab 0x0A p i 2) 20 24)
    bits w 16 2 ≥ 2 || bits w 18 2 ≥ 2 || bits w 20 2 ≥ 2 || pir < cir || pbs < cbs || cbs < 512) ||
    anyPair (fun i j => bits (n.tab 0x0A p i) 0 13 = bits (n.tab 0x0A p j) 0 13) es

/-- R290, R304, a QUANTUM byte of 0. -/
def Dev.badEgs (n : Dev) (p : Nat) : Bool :=
  (n.on EGS_CFG_MODE p && n.portDunrun p) || !(71 ≤ n.get EGS_CFG_REFILL p && n.get EGS_CFG_REFILL p ≤ 17600) ||
    ((List.range 8).any fun t => n.quantum p t = 0) ||
    (List.range 8).any fun t =>
      let (cir, cbs) := (bits (n.tab 0x0B p t 0) 0 20, bits (n.tab 0x0B p t 0) 20 24)
      let (pir, pbs) := (bits (n.tab 0x0B p t 1) 0 20, bits (n.tab 0x0B p t 1) 20 24)
      bits (n.tab 0x0B p t 2) 0 1 = 1 && (pir = 0 || pir < cir || pbs < cbs)

/-- CYCLE 0 or above 1 s, an NS field above 999,999,999, a MAXLEN of 0. -/
def Dev.badGte (n : Dev) (p : Nat) : Bool :=
  let ns := n.get GTE_CYCLE_NS p
  let cyc := nsFracU ns (n.get GTE_CYCLE_FRAC p)
  cyc = 0 || cyc > nsFracU 1000000000 0 || ns > 999999999 || n.get GTE_BASE0_NS p > 999999999 ||
    ((List.range 256).any fun i => bits (n.tab 0x0C p i) 16 30 > 999999999) || (List.range 8).any fun t => n.maxLen p t = 0

/-- R377. -/
def badParts (l : List (Bool × Nat × Nat)) : Bool :=
  let v := l.filter (·.1)
  anyPair (fun (a b : Bool × Nat × Nat) => a.2.2 &&& b.2.2 ≠ 0 || a.2.1 = b.2.1) v || v.any (fun x => x.2.2 = 0) ||
    v.foldl (fun acc x => acc ||| x.2.2) 0 = 0xFFFF

/-- R351, R377. -/
def Dev.badDir (n : Dev) (s : Nat) : Bool :=
  let ag := (List.range 128).filter fun p => n.on DIR_AGENT_V (p / 8) (p % 8)
  anyPair (fun p q => n.get DIR_AGENT_AGENT (p / 8) (p % 8) = n.get DIR_AGENT_AGENT (q / 8) (q % 8)) ag || badParts (n.dirParts s)

/-- R493, R495, MODE of Table 5-9. -/
def Dev.badDev (n : Dev) : Bool :=
  let doms := ((List.range 256).map fun i => n.tab 0x02 0 i).filter fun w => bits w 10 1 = 1
  doms.any (fun w => bits w 0 10 = 0x3FF) || anyPair (fun a b => bits a 0 10 = bits b 0 10) doms ||
    (List.range 2048).any fun i => bits (n.tab 0x01 0 i) 24 2 = 3

/-- R439: `d` before the commit. -/
def Dev.badLdr (d n : Dev) : Bool :=
  let v := (List.range 16).filter fun j => n.on LDR_LD_V 0 j
  let rng (j : Nat) : Nat × Nat := (n.get LDR_LD_BASE 0 j, n.get LDR_LD_SIZE 0 j)
  anyPair (fun i j => rangesMeet (rng i) (rng j)) v ||
    v.any (fun j => (rng j).2 = 0 || (rng j).1 + (rng j).2 > n.get LDR_CARVE_LD_LIMIT) ||
    (List.range 16).any fun j => d.word LDR_LD 0 j ≠ n.word LDR_LD 0 j &&
      (!(d.bindingsOf ⟨d.myId, true, 0, j⟩).isEmpty || d.on DEC_LDEXPORT_V 0 j)

/-- R485, and R462 for DMV[0]. -/
def Dev.badDmv (d n : Dev) (e : Nat) : Bool :=
  let share := (List.range 16).any fun i =>
    n.get DMV_SHARE_KIND e i = 3 || (n.get DMV_SHARE_KIND e i ≠ 0 && n.get DMV_SHARE_SLOT e i = 0)
  let en := (List.range 128).filter fun u => n.on DMV_EPCFG_EN 0 u
  let blk (u : Nat) : Nat × Nat := (n.get DMV_EPCFG_QBASE 0 u, n.get DMV_EPCFG_PF_Q 0 u + n.get DMV_EPCFG_TOTALVFS 0 u * n.get DMV_EPCFG_VF_Q 0 u)
  let inUse (u : Nat) : Bool := SMap.get 0 d.dmv.vfs u ≠ 0 ||
    (d.on DMV_EPCFG_EN 0 u && (List.range (1 + d.get DMV_EPCFG_TOTALVFS 0 u)).any fun fn => (d.fnQueues u fn).any fun q => d.qState q = qEnabled)
  share || (e = 0 &&
    (anyPair (fun u v => rangesMeet (blk u) (blk v)) en || en.any (fun u => (blk u).1 + (blk u).2 > 1048576) ||
      ((List.range 128).any fun u => n.get DMV_EPCFG_PF_Q 0 u > 65536 || n.get DMV_EPCFG_VF_Q 0 u > 65536 || n.get DMV_EPCFG_TOTALVFS 0 u > 64 ||
        (n.get DMV_EPCFG_VF_Q 0 u = 0 && n.get DMV_EPCFG_TOTALVFS 0 u > 0)) ||
      (en.map fun u => n.get DMV_EPCFG_TOTALVFS 0 u).sum > 8192 ||
      (List.range 128).any fun u => d.word DMV_EPCFG 0 u ≠ n.word DMV_EPCFG 0 u && inUse u))

/-! ## Access control (R493, R496, R497) -/

/-- Fault of a region entry: code of ACU_CMTERR. -/
def Region.fault (x : Region) : Option Nat :=
  if !x.v then none
  else if !(16 ≤ x.k && x.k ≤ 52) then some 2
  else if x.base % 2 ^ (x.k - 16) ≠ 0 then some 3
  else if x.lo + 2 ^ x.k > 2 ^ 52 then some 4
  else if x.c && x.tagBase + 2 ^ (x.k - 16) > 2 ^ 30 then some 5
  else none

/-- First refusal of an ACU commit: CMT_CODE, and REGION_A, REGION_B and CODE of ACU_CMTERR. -/
def Dev.acuErr (n : Dev) (p : Nat) : Option (Nat × Nat × Nat × Nat) :=
  let reg (i : Nat) : Region := regionOf (n.tab 0x05 p i 0) (n.tab 0x05 p i 1)
  let meet (i j : Nat) : Bool := (reg i).v && (reg j).v && rangesMeet ((reg i).lo, 2 ^ (reg i).k) ((reg j).lo, 2 ^ (reg j).k)
  match (List.range 64).findSome? fun i => (reg i).fault.map fun c => (5, i, 0, c) with
  | some e => some e
  | none =>
    match (List.range 64).findSome? fun i => ((List.range 64).find? fun j => i < j && meet i j).map fun j => (3, i, j, 1) with
    | some e => some e
    | none => ((List.range 17).find? fun i => bits (n.tab 0x06 p i) 32 10 = 0x3FF).map fun i => (5, i, 0, 6)

/-! ## Binding and decode (R314 to R319, R332, R342) -/

/-- A global port's route entry names a valid candidate (R315). -/
def Dev.routed (n : Dev) (gp : Nat) : Bool :=
  let e := n.tab 0x01 0 gp
  (bits e 24 2 = 1 || bits e 24 2 = 2) && !((List.range 4).filterMap (routeCand e)).isEmpty

/-- Faults of one binding (R314, R315). -/
def Dev.badBind (n : Dev) (all : List (Nat × Nat × Bind)) (x : Nat × Nat × Bind) : Bool :=
  let (u, v, b) := x
  let others := all.filter fun y => (y.1, y.2.1) ≠ (u, v) && y.2.2.tgt = b.tgt
  let dup := others.any (·.1 = u) || (!others.isEmpty && (!b.share || others.any fun y => !y.2.2.share))
  let dev := b.gport / 128
  let p := b.gport % 128
  let there := if dev = n.myId then true
    else if b.kind = 3 then (List.range 16).all fun s => n.routed (128 * dev + 8 * s) else n.routed b.gport
  let kindBad := match b.kind with
    | 1 => dev = n.myId && !n.isDown p
    | 2 => dev = n.myId && (!n.isDown p || (n.on PRT_STAT_DL_ACTIVE p && !(n.on PRT_STAT_MLD p && b.ld < n.get PRT_STAT_NUM_LD p)))
    | _ => p ≠ 0
  dup || !there || kindBad

/-- CXL.cache is passed for at most one device of a VCS (R126). -/
def Dev.badCache (n : Dev) (all : List (Nat × Nat × Bind)) (u : Nat) : Bool :=
  ((all.filter fun y => y.1 = u && (y.2.2.kind = 1 || y.2.2.kind = 2) && y.2.2.gport / 128 = n.myId &&
    n.on PRT_CFG_CACHE_EN (y.2.2.gport % 128)).map fun y => y.2.2.gport).dedup.length > 1

/-- Targets of a decoder entry, by way. -/
def Dev.wayTgts (n : Dev) (u : Nat) (x : Hdm) : List (Option Tgt) := (List.range x.ways).map fun k => (n.bindNow u (x.tgts.getD k 0)).tgt

/-- DPA ranges of a HOME entry's targets. -/
def Dev.homeRanges (n : Dev) (u : Nat) (x : Hdm) : List (Option Tgt × Nat × Nat) :=
  (n.wayTgts u x).map fun t => (t, x.dpa * 2 ^ 28, x.dpaBytes)

/-- Faults of one valid decoder entry (R316, R319). -/
def Dev.badHdm (n : Dev) (u : Nat) (x : Hdm) : Bool :=
  let vs := (List.range x.ways).map fun k => x.tgts.getD k 0
  x.size = 0 || x.base + x.size > 2 ^ 24 || x.mode = 3 || (x.mode = 0 && x.nt ≠ 0) ||
    (x.mode = 1 && (!(x.nt = 1 || x.nt = 3) || x.size % x.ways ≠ 0 || x.ig > 6)) || (x.mode = 2 && x.nt = 0) ||
    anyPair (fun a b => a = b) vs || vs.any (fun v => (n.bindNow u v).kind = 0) || (x.home && x.mode = 2) ||
    (x.mode = 2 && (List.range x.ways).any fun k => x.mstate.getD k 0 = 3) ||
    vs.any (fun v =>
      let b := n.bindNow u v
      let p := b.gport % 128
      (b.share && !x.home) || (x.home && (b.kind = 1 || b.kind = 2) && b.gport / 128 = n.myId && n.on PRT_STAT_DL_ACTIVE p && !(n.port p).hdmDb))

/-- Faults between the valid decoder entries of a VCS (R319). -/
def Dev.badHdmPair (n : Dev) (u : Nat) (x y : Hdm) : Bool :=
  rangesMeet (x.lo, x.bytes) (y.lo, y.bytes) ||
    (x.home && y.home && (n.homeRanges u x).any fun a => (n.homeRanges u y).any fun b => a.1.isSome && a.1 = b.1 && rangesMeet a.2 b.2)

/-- R342: an export names a target that a local VCS binds without SHARE. -/
def Dev.badExport (n : Dev) (all : List (Nat × Nat × Bind)) : Bool :=
  all.any fun y =>
    match y.2.2.tgt with
    | none => false
    | some t => t.dev = n.myId && !y.2.2.share &&
        (if t.larder then n.on DEC_LDEXPORT_V 0 t.ld else n.on DEC_EXPORT_V (t.port / 8) (t.port % 8))

/-- Refusals of a DEC commit. -/
def Dev.badDec (n : Dev) (s : Nat) : Bool :=
  let all := n.boundAll
  let hdms (u : Nat) : List Hdm := ((List.range 32).map fun i => n.hdmNow u i).filter (·.v)
  (all.any fun x => x.1 / 8 = s && n.badBind all x) || n.badExport all ||
    (List.range 8).any fun i =>
      let u := 8 * s + i
      n.badCache all u || ((List.range 128).any fun v => (n.bindNow u v).unbind ≥ 2) || (hdms u).any (n.badHdm u) || anyPair (n.badHdmPair u) (hdms u)

/-- What a commit of page `g` is refused for: CMT_CODE, and ACU_CMTERR's fields. -/
def Dev.commitErr (d : Dev) (g : Pg) : Option (Nat × Nat × Nat × Nat) :=
  let n := d.activate g
  let i := g.inst
  let bad : Bool := match g.blk with
    | .sds => n.badSds i
    | .prt => d.badPrt n i
    | .drl => n.badDrl i
    | .ovn => n.badOvn i
    | .arb => n.badArb i
    | .pol => n.badPol i
    | .egs => n.badEgs i
    | .gte => n.badGte i
    | .dir => n.badDir i
    | .scc => badParts (n.sccParts i)
    | .dev => n.badDev
    | .ldr => i = 0 && d.badLdr n
    | .dmv => d.badDmv n i
    | .dec => n.badDec i
    | _ => false
  if g.blk = .acu then n.acuErr i else if bad then some (5, 0, 0, 0) else none

end Sys2Proof.Machine
end

