-- ==== Sys2Proof/Machine/CommitOps.lean ====
section
/-! DEFINITION. Commits: when one is taken, refused or held, and what its acceptance does in each block (R51 to R55, R327,
R328, R332, R333, R489, R509, R682 and the blocks' chapters). -/

namespace Sys2Proof.Machine

/-! ## Page state -/

def Dev.putPend (d : Dev) (g : Pg) (on : Bool) : Dev := d.put (PGEPOCH_PEND g.blk) g.inst (b2n on)
def Dev.putBusy (d : Dev) (g : Pg) (on : Bool) : Dev := d.put (PGSTAT_BUSY g.blk) g.inst (b2n on)
def Dev.putApplied (d : Dev) (g : Pg) (on : Bool) : Dev := d.put (PGEPOCH_APPLIED g.blk) g.inst (b2n on)
def Dev.applied (d : Dev) (g : Pg) : Bool := d.on (PGEPOCH_APPLIED g.blk) g.inst

/-- The FM API command that waits for a page's commit ends with a completion code (R343). -/
def Dev.bgEnd (d : Dev) (g : Pg) (code : Nat) : Dev :=
  if d.ctl.bg.contains g then { d with ctl := { d.ctl with bg := d.ctl.bg.filter (· ≠ g) } }.emit (.fmResp code []) else d

/-- A COMMIT or BRST is refused (R51, R63). -/
def Dev.cmtRefuse (d : Dev) (g : Pg) (code : Nat) : Dev :=
  let d := (d.put (PGSTAT_CMT_ERR g.blk) g.inst 1).put (PGSTAT_CMT_CODE g.blk) g.inst code
  let d := if code = 1 then d else
    let d := (d.putPend g false).putBusy g false
    { d with ctl := { d.ctl with commits := d.ctl.commits.filter (·.pg ≠ g) } }.bgEnd g 2
  d.irq 2

/-- The page's shadowed table entries written since its last accepted commit: (table, instance), index. -/
def Dev.writtenOf (d : Dev) (g : Pg) : List ((Nat × Nat) × Nat) :=
  (d.ctl.written.filter fun k => g.tables.contains (keyTab k)).map fun k => (keyTab k, k / 8 % 2 ^ 32)

/-! ## SDS (R76, R81) -/

def Dev.sdsChanges (d n : Dev) (o : Nat) : Bool := d.word SDS_MODE o ≠ n.word SDS_MODE o

/-- Ports of the octet, and of its formed partner, go down. -/
def Dev.sdsPre (d n : Dev) (o : Nat) : Dev :=
  if d.sdsChanges n o then (d.octPorts o).foldl (fun d p => d.portLost p) d else d

/-- An accepted SDS commit: a change of mode, or a FAILED calibration, calibrates the octet, whose APPLIED sets as it leaves
CAL (R76, R81). (DEDUCED, log entry 134) -/
def Dev.sdsPost (d old : Dev) (o : Nat) : Dev :=
  let quar := d.quarantined (.octet o)
  let d := d.endQuar (.octet o)
  if old.sdsChanges d o then ((d.recal o).putApplied ⟨.sds, o⟩ false).pairGo o (old.x16 o)
  else if d.octState o = tsFailed && (d.octet o).failedCal then (d.enterCal o).putApplied ⟨.sds, o⟩ false
  else if d.octState o = tsCal || (d.octet o).pllLost then d.putApplied ⟨.sds, o⟩ (old.on (PGEPOCH_APPLIED .sds) o && d.octState o ≠ tsCal)
  else if quar && (d.octet o).calibrated then (d.octetGo o).putApplied ⟨.sds, o⟩ true
  else d.putApplied ⟨.sds, o⟩ true

/-- Pages that a change of mode makes unavailable are out of service (R43). (DEDUCED, log entry 134) -/
def Dev.sdsPages (d : Dev) (o : Nat) : Dev :=
  let os := [o, pairOf o]
  let gs : List Pg := os.flatMap fun x => [2 * x, 2 * x + 1].flatMap fun p => [Blk.prt, .egs, .pol, .gte, .acu].map fun b => (⟨b, p⟩ : Pg)
  let gs := gs ++ (os.filterMap d.linkOf).map fun k => (⟨.drl, k⟩ : Pg)
  gs.foldl (fun d g => if d.avail g then d else d.put (PGCTL_ENABLE g.blk) g.inst 0) d

/-! ## PRT and DRL (R120, R202) -/

def Dev.prtChanges (d n : Dev) (p : Nat) : Bool := d.get PRT_CFG_ROLE p ≠ n.get PRT_CFG_ROLE p

def Dev.prtPre (d n : Dev) (p : Nat) : Dev :=
  if d.prtChanges n p && !d.portDunrun p then ((d.portLost p).linkStop p tsHold).raiseDue else d

def Dev.prtPost (d old : Dev) (p : Nat) : Dev :=
  if !old.prtChanges d p || d.portDunrun p || d.get PRT_CFG_ROLE p = 0 then (d.putApplied ⟨.prt, p⟩ true).perstGo
  else ((d.putApplied ⟨.prt, p⟩ false).trainStart p).perstGo

/-- R202: a change of the link's configuration takes it to DOWN, and APPLIED waits until it next leaves INIT. -/
def Dev.drlPost (d old : Dev) (k : Nat) : Dev :=
  let d := d.endQuar (.link k)
  let changed := [DRL_CFG, DRL_VCBUF0, DRL_VCBUF1, DRL_VCMAP].any fun r => old.word r k ≠ d.word r k
  let d := if changed then (d.linkDownEv k).modLink k fun l => { l with cfgWait := true } else d
  d.putApplied ⟨.drl, k⟩ (!(d.link k).cfgWait)

/-! ## OVN, ARB (R222, R260, R261, R267, R378) -/

/-- Entries and lines outside the ways of their domain leave once the slice is sealed (R378). -/
def Dev.resealScan (d : Dev) (s : Nat) : Dev :=
  let d := (d.dirSweep s).raiseDue
  let d := ((d.dirOf s).filter fun e => !d.dirWayOk s e.domain e.way).foldl (fun d e =>
    Dev.runHome ([(evictMsg e 0 d.epoch, none)], d)) d
  ((d.sccOf s).filter fun l => !d.sccWayOk s l.domain l.way).foldl (fun d l =>
    if d.lineTaken l.tk l.h then d else match d.scc? l.tk l.h with
      | some x => d.sccVictim x false devDomain
      | none => d) d

def Dev.ovnPost (d old : Dev) (s : Nat) : Dev :=
  let d := d.putApplied ⟨.ovn, s⟩ true
  let d := d.modHome s fun x => { x with reseal := d.sealed s }
  if d.sealed s && !old.sealed s then d.resealScan s else d

def Dev.arbPost (d old : Dev) (s : Nat) (wr : List ((Nat × Nat) × Nat)) : Dev :=
  let d := d.putApplied ⟨.arb, s⟩ true
  let d : Dev := { d with core := { d.core with slotUe := d.core.slotUe.filter fun x => !wr.contains ((0x08, s), x % 128) || x / 128 ≠ s } }
  (List.range 16).foldl (fun d b =>
    let d := d.put ARB_BANK_PTR s (d.get ARB_BANK_PTR s b % d.get ARB_CFG_SLOTS s) b
    if old.get ARB_CFG_N s ≠ d.get ARB_CFG_N s then d.put ARB_BANK_GCNT s 0 b else d) (d.presentAll s (List.range 16))

/-! ## POL, GTE (R278, R297, R298) -/

def Dev.polPost (d old : Dev) (p : Nat) : Dev :=
  (List.range 128).foldl (fun d e =>
    let cbs := bits (d.tab 0x0A p e 1) 20 24
    let pbs := bits (d.tab 0x0A p e 2) 20 24
    let x := d.meter p e
    if bits (old.tab 0x0A p e) 0 14 ≠ bits (d.tab 0x0A p e) 0 14 then d.setMeter p e { last := d.tclk, tc := cbs, rc := 0, tp := pbs, rp := 0 }
    else d.setMeter p e { x with tc := min x.tc cbs, tp := min x.tp pbs }) (d.putApplied ⟨.pol, p⟩ true)

/-- First start of a schedule at or after a time. -/
def Sched.startAt (s : Sched) (u : Nat) : Nat :=
  if u ≤ s.base || s.cycle = 0 then s.base else s.base + (u - s.base + s.cycle - 1) / s.cycle * s.cycle

/-- End of the cycle in progress at a time. -/
def Sched.cycleEnd (s : Sched) (u : Nat) : Nat :=
  if u < s.base || s.cycle = 0 then u else s.base + ((u - s.base) / s.cycle + 1) * s.cycle

/-- The schedule a new list replaces: whether one is in force, and which. (DESIGN CHOICE, log entry 100) -/
def Dev.schedNow (d : Dev) (q : Nat) : Bool × Sched :=
  let x := d.egress q
  match x.switchAt with
  | some t => if d.fab < t then (x.gateOn, d.sched q true) else (d.on GTE_CFG_GATE_EN q, d.sched q false)
  | none => (d.on GTE_CFG_GATE_EN q, d.sched q false)

def Dev.gtePost (d old : Dev) (q : Nat) : Dev :=
  let (on, s0) := old.schedNow q
  let inForce := on && d.enabled ⟨.gte, q⟩
  let now := tickU d.fab
  let sw := uTick ((d.sched q false).startAt (if inForce then s0.cycleEnd now else now))
  let d := (d.setEgress q { d.egress q with switchAt := some sw, gateOn := inForce }).regate q d.fab
  (d.put GTE_CFG_FIT_ACT q (1 - d.get GTE_CFG_SERVICE q)).putApplied ⟨.gte, q⟩ false

/-- The previous list stays while an earlier switch is still to come. -/
def Dev.gtePrev (d : Dev) (q : Nat) : Bool :=
  match (d.egress q).switchAt with | some t => !(d.fab < t) | none => true

/-! ## DIR (R399) -/

def Dev.pageAgents (d : Dev) (s : Nat) : List Nat :=
  ((List.range 8).filter fun i => d.on DIR_AGENT_V s i).map fun i => d.get DIR_AGENT_AGENT s i

/-- What an accepted DIR commit does to agents (R399). (DESIGN CHOICE, log entry 26) -/
def Dev.dirPost (d old : Dev) (s : Nat) : Dev :=
  let d := d.putApplied ⟨.dir, s⟩ true
  (old.pageAgents s ++ d.pageAgents s).dedup.foldl (fun d a =>
    { (d.setSuspect a 0) with coh := { (d.setSuspect a 0).coh with dead := d.coh.dead.filter (· ≠ a) } }) d

/-! ## DMV (R463, R485) -/

def Dev.dmvPost (d old : Dev) (e : Nat) : Dev :=
  let shares := (List.range 16).any fun i => d.get DMV_SHARE_KIND e i ≠ 0
  let d := d.putApplied ⟨.dmv, e⟩ (!(d.sealed (e / 4) && shares))
  if e ≠ 0 then d
  else (List.range 128).foldl (fun d u =>
    if old.word DMV_EPCFG 0 u = d.word DMV_EPCFG 0 u then d
    else
      let d := if old.on DMV_EPCFG_EN 0 u then
          let (b, n) := blockOf (old.get DMV_EPCFG_QBASE 0 u) (old.get DMV_EPCFG_PF_Q 0 u) (old.get DMV_EPCFG_VF_Q 0 u) 0
          (d.dropVfs u).removeQueues ((List.range n).map (b + ·))
        else d
      if d.on DMV_EPCFG_EN 0 u && d.isUp u then d.allocFn u 0 else d) d

/-! ## DEC (R317, R327, R328, R332, R333, R336, R489) -/

/-- Bindings of a page that the commit unbinds: the surprise ones, or the orderly ones. (DESIGN CHOICE, log entry 27) -/
def Dev.unbinds (d n : Dev) (s : Nat) (surprise : Bool) : List (Nat × Nat × Bind) :=
  (d.boundAll.filter fun x => x.1 / 8 = s && (n.bindNow x.1 x.2.1).kind = 0).filter fun x =>
    ((n.bindNow x.1 x.2.1).unbind = 1) = surprise

/-- Bindings that the commit makes or changes. (DESIGN CHOICE, log entry 27) -/
def Dev.rebinds (d n : Dev) (s : Nat) : List (Nat × Nat) :=
  (n.boundAll.filter fun x => x.1 / 8 = s && (d.bindNow x.1 x.2.1).tgt ≠ x.2.2.tgt).map fun x => (x.1, x.2.1)

/-- A decoder entry differs but in FENCED and MSTATE, or a way of it leads elsewhere. -/
def Dev.hdmChanges (d n : Dev) (u i : Nat) : Bool :=
  let x := d.hdmNow u i
  let y := n.hdmNow u i
  { y with fenced := x.fenced, mstate := x.mstate } ≠ x || d.wayTgts u x ≠ n.wayTgts u y

/-- R328: lines of the entry's old range that hosts of VCS u hold are recalled; those of a surprise-unbound target are
handled as removed. -/
def Dev.recallEntry (d : Dev) (u : Nat) (x : Hdm) (skip : List (Option Tgt)) : Nat × Dev :=
  let rs := (d.homeRanges u x).filterMap fun r => match r.1 with
    | some t => if t.dev = d.myId && !skip.contains (some t) then some (t.key, r.2.1, r.2.2) else none
    | none => none
  let es := ((List.range 16).flatMap d.dirOf).filter fun e =>
    rs.any (fun r => e.tk = r.1 && r.2.1 ≤ e.h * 64 && e.h * 64 < r.2.1 + r.2.2) && (d.mayHold e).any (d.agentVcs u)
  (es.length, es.foldl (fun d e0 =>
    match d.ent? e0.tk e0.h with
    | none => d
    | some e =>
      let hs := (d.mayHold e).filter (d.agentVcs u)
      if hs.isEmpty then d
      else
        let (fid, d) := d.beginFlight
        d.recallOrWait e hs fid) d)

/-- What precedes the activation of a DEC commit, under the old epoch. -/
def Dev.decPre (d n : Dev) (s : Nat) : Dev :=
  let d0 := d
  let d := d.migrStop (fun g => g.vcs / 8 = s &&
    (d0.hdmNow g.vcs g.entry ≠ n.hdmNow g.vcs g.entry || d0.wayTgts g.vcs (d0.hdmNow g.vcs g.entry) ≠ n.wayTgts g.vcs (n.hdmNow g.vcs g.entry) ||
      (d0.bindNow g.vcs g.tgt).tgt ≠ (n.bindNow g.vcs g.tgt).tgt)) stRules
  let sur := d0.unbinds n s true
  let es := (List.range 8).flatMap fun k => ((List.range 32).filter fun i =>
    (d0.hdmNow (8 * s + k) i).v && (d0.hdmNow (8 * s + k) i).home && d0.hdmChanges n (8 * s + k) i).map fun i => (8 * s + k, i)
  let d := if sur.isEmpty && es.isEmpty then d else d.put DEC_RECALL_LINES s 0
  let d := sur.foldl (fun d x => match x.2.2.tgt with
    | some t => d.removeTarget t (some x.1)
    | none => d) d
  let skip (u : Nat) : List (Option Tgt) := (sur.filter (·.1 = u)).map (·.2.2.tgt)
  let (c, d) := es.foldl (fun (acc : Nat × Dev) ui =>
    let (m, x) := acc.2.recallEntry ui.1 (d0.hdmNow ui.1 ui.2) (skip ui.1)
    (acc.1 + m, x)) (0, if es.isEmpty then d else d.sweepAll)
  d.addLines s c

/-- What follows the activation. (DESIGN CHOICE, log entry 27) -/
def Dev.decPost (d old : Dev) (s : Nat) (wr : List ((Nat × Nat) × Nat)) : Dev :=
  let keys (l : List (Nat × Nat)) : List Nat := l.map fun x => x.1 * 128 + x.2
  let ord := keys ((old.unbinds d s false).map fun x => (x.1, x.2.1))
  let reb := old.rebinds d s
  let wrote (uv : Nat) : Bool := wr.contains ((0x03, uv / 128), uv % 128)
  let d : Dev := { d with coh := { d.coh with
    unbinding := (d.coh.unbinding.filter fun k => !(keys reb).contains k) ++ ord,
    removed := d.coh.removed.filter fun k => !wrote k && !(keys reb).contains k && !ord.contains k } }
  let d := reb.foldl (fun d x => d.hotPlug x.1 x.2 true) d
  let ents := (wr.filter fun x => x.1.1 = 0x04).map fun x => (x.1.2, x.2)
  let d := ents.foldl (fun d x => d.setFenced x.1 x.2 false) d
  let d : Dev := { d with coh := { d.coh with fenced := d.coh.fenced.filter fun k => !ents.contains (k / 32, k % 32) } }
  d.quenchEnd

/-! ## Acceptance -/

/-- R509: descriptors of the commit's scope that pin an older epoch are aborted. -/
def Dev.forceAbort (d : Dev) (g : Pg) : Dev :=
  let inScope (q : Nat) : Bool := match g.blk with
    | .acu => d.q q cVcs = g.inst
    | .dec => d.q q cVcs / 8 = g.inst
    | .tag | .dev => true
    | _ => false
  ((d.dmv.queues.map Prod.fst).filter inScope).foldl (fun d q => d.abortDescs q fun _ => true) d

/-- The effects that precede activation: `n` is the device as the commit will leave it. (DESIGN CHOICE, log entry 25) -/
def Dev.commitPre (d n : Dev) (g : Pg) : Dev :=
  match g.blk with
  | .sds => d.sdsPre n g.inst
  | .prt => d.prtPre n g.inst
  | .dec => d.decPre n g.inst
  | _ => d

/-- The previous copies that accesses or a later switch still need. -/
def Dev.commitPrev (d : Dev) (g : Pg) : Dev :=
  if g.rule then d.savePrev g
  else if g.blk = .egs then (if d.applied g then d.savePrev g else d)
  else if g.blk = .gte then (if d.gtePrev g.inst then d.savePrev g else d)
  else d

/-- The effects that follow activation: `old` is the device before it. -/
def Dev.commitPost (d old : Dev) (g : Pg) (wr : List ((Nat × Nat) × Nat)) (reach : List Nat) : Dev :=
  match g.blk with
  | .sds => (d.sdsPost old g.inst).sdsPages g.inst
  | .prt => d.prtPost old g.inst
  | .drl => d.drlPost old g.inst
  | .ovn => d.ovnPost old g.inst
  | .arb => d.arbPost old g.inst wr
  | .pol => d.polPost old g.inst
  | .egs => d.putApplied g false
  | .gte => d.gtePost old g.inst
  | .dir => d.dirPost old g.inst
  | .dmv => d.dmvPost old g.inst
  | .dec => d.decPost old g.inst wr
  | .dev => d.routeCommitted reach
  | .tag | .acu => d
  | _ => d.putApplied g true

/-- A commit is accepted (Table 2-5, R53, R54). -/
def Dev.commitAccept (d : Dev) (g : Pg) (force : Bool) : Dev :=
  let wr := d.writtenOf g
  let reach := d.reach
  let n := d.activate g
  let d := (d.commitPre n g).commitPrev g
  let old := d
  let d := d.activate g
  let d := if g.rule then d.raiseEpoch g
    else d.put (PGEPOCH_SEQ g.blk) g.inst ((d.get (PGEPOCH_SEQ g.blk) g.inst + 1) % 65536)
  let d : Dev := { d with ctl := { d.ctl with
    written := d.ctl.written.filter fun k => !g.tables.contains (keyTab k),
    commits := d.ctl.commits.filter (·.pg ≠ g) } }
  let d := (d.putPend g false).putBusy g false
  let d := d.commitPost old g wr reach
  if force && g.rule then d.forceAbort g else d

/-- The commit is taken: checked, then accepted or refused (R51). -/
def Dev.commitTake (d : Dev) (c : HeldCommit) : Dev :=
  match d.commitErr c.pg with
  | some (code, a, b, e) =>
    let d := if c.pg.blk = .acu then
        ((d.put ACU_CMTERR_REGION_A c.pg.inst a).put ACU_CMTERR_REGION_B c.pg.inst b).put ACU_CMTERR_CODE c.pg.inst e
      else d
    d.cmtRefuse c.pg code
  | none => d.commitAccept c.pg c.force

/-! ## When a commit is taken (R51, R55, R327, R489) -/

/-- An earlier commit of the page, or a MOVE_LIVE hold on one of its entries, is still to end. -/
def Dev.commitBehind (d : Dev) (g : Pg) : Bool :=
  (List.contains [Blk.dec, .acu, .dev] g.blk && !d.applied g) ||
    (g.blk = .dec && (List.range 64).any fun m => match d.migr? m with
      | some x => x.vcs / 8 = g.inst && d.get DMV_MLSTAT_PHASE 0 m = 3
      | none => false)

/-- R55: an access of the epoch 32,768 behind the one the commit would raise is in flight. -/
def Dev.epochTooOld (d : Dev) (g : Pg) : Bool :=
  g.rule && d.ctl.flights.any fun f => ((d.epoch + 1) + 65536 - f.epoch) % 65536 ≥ 32768

/-- A held commit whose waits have ended is taken, or stays BUSY. (DESIGN CHOICE, log entry 25) -/
def Dev.commitPoll (d : Dev) (g : Pg) : Dev :=
  match d.ctl.commits.find? (·.pg = g) with
  | none => d
  | some c =>
    if !c.waits.isEmpty then d
    else if d.commitBehind g then d.putBusy g true
    else if d.epochTooOld g then
      let d := if c.force then d.forceAbort g else d
      if d.epochTooOld g then d.putBusy g true else d.commitTake c
    else d.commitTake c

/-- TBL windows with an operation in progress on the page's tables. -/
def Dev.tblOpsOn (d : Dev) (g : Pg) : List Nat :=
  (List.range 16).filter fun w => match SMap.get none d.ctl.tblOps w with
    | some t => (tabInfo t.table).isSome && tabOwner t.table t.inst = g
    | none => false

/-- PEND sets, and the commit is held until it may be taken. -/
def Dev.commitBegin (d : Dev) (g : Pg) (force : Bool) : Dev :=
  let d := d.putPend g true
  let c : HeldCommit := { pg := g, force := force && g.rule, waits := d.tblOpsOn g }
  { d with ctl := { d.ctl with commits := d.ctl.commits ++ [c] } }

/-- COMMIT is written to a page (R51, R682). -/
def Dev.commitReq (d : Dev) (g : Pg) (force : Bool) : Dev :=
  if !d.avail g then d.cmtRefuse g 6
  else if d.on (PGEPOCH_PEND g.blk) g.inst || d.on (PGSTAT_BUSY g.blk) g.inst then d.cmtRefuse g 1
  else if d.locked g then d.cmtRefuse g 2
  else (d.commitBegin g force).commitPoll g

/-! ## APPLIED in rule pages (R53, R317, R326, R327, R508) -/

/-- Accesses checked under an epoch older than the page's last commit are in flight. -/
def Dev.olderFlights (d : Dev) (g : Pg) : Bool := d.ctl.flights.any fun f => epochOlder f.epoch (d.get (PGEPOCH_SEQ g.blk) g.inst)

/-- The unbinds of a DEC page's commit are complete. -/
def Dev.unbindDone (d : Dev) (s : Nat) : Dev :=
  let l := d.coh.unbinding.filter fun k => k / 128 / 8 = s
  let d : Dev := { d with coh := { d.coh with unbinding := d.coh.unbinding.filter fun k => k / 128 / 8 ≠ s } }
  l.foldl (fun d k => d.hotPlug (k / 128) (k % 128) true) d

/-- APPLIED sets, the previous copies are released, unbinds complete, and the page's next commit may be taken. -/
def Dev.epochEnd (d : Dev) (g : Pg) : Dev :=
  let d := d.putApplied g true
  let mine (e : Nat × W64) : Bool := g.addr ≤ e.1 && e.1 < g.addr + 4096
  let tabOf (e : Nat × W64) : Bool := g.tables.contains (keyTab e.1)
  let d : Dev := { d with prev := d.prev.filter (fun e => !mine e), tabPrev := d.tabPrev.filter (fun e => !tabOf e),
                          tabUePrev := d.tabUePrev.filter (fun k => !g.tables.contains (keyTab k)) }
  let d := if g.blk = .dec then d.unbindDone g.inst else d
  (d.bgEnd g 0).commitPoll g

/-- APPLIED sets, and the previous copies are released. (DESIGN CHOICE, log entry 25) -/
def Dev.epochApply (d : Dev) (g : Pg) : Dev :=
  if !g.rule || d.applied g || d.olderFlights g then d else d.epochEnd g

end Sys2Proof.Machine
end

