-- ==== Sys2Proof/Machine/SlotOps.lean ====
section
/-! DEFINITION. The moves of a slot power unit (R520 to R530). -/

namespace Sys2Proof.Machine

/-- States of Table 16-2. -/
def ssOff : Nat := 0
def ssWait : Nat := 1
def ssRamp : Nat := 2
def ssOn : Nat := 3
def ssCool : Nat := 4
def ssLatched : Nat := 5

def Dev.slotState (d : Dev) (n : Nat) : Nat := d.get SPU_STAT_STATE n
def Dev.slot (d : Dev) (n : Nat) : Slot := SMap.get {} d.slots n
def Dev.setSlot (d : Dev) (n : Nat) (x : Slot) : Dev := { d with slots := SMap.set {} d.slots n x }

/-- The power die has power: slot power units work. (DESIGN CHOICE, log entry 67) -/
def Dev.powerDie (d : Dev) : Bool := d.rst.vddAux

/-- VIN lies inside [UV, OV]; with OV not above UV every VIN is outside. -/
def Dev.vinOk (d : Dev) (n vin : Nat) : Bool :=
  d.get SPU_VIN_UV n < d.get SPU_VIN_OV n && d.get SPU_VIN_UV n ≤ vin && vin ≤ d.get SPU_VIN_OV n

/-- OFF goes on to WAIT when the slot is present, commanded on, and nothing holds it off. (DESIGN CHOICE, log entry 67) -/
def Dev.slotGo (d : Dev) (n : Nat) : Dev :=
  if d.slotState n = ssOff && d.powerDie && d.prf.huOk && d.on SPU_STAT_PRSNT n && d.on SPU_STAT_CMD_ON n && !d.on SPU_STAT_FET_FAIL n then
    d.put SPU_STAT_STATE n ssWait
  else d

/-- vPPBs that present slot n. -/
def Dev.slotVppbs (d : Dev) (n : Nat) : List (Nat × Nat) :=
  (d.boundAll.filter fun x => x.2.2.slotV && x.2.2.slot = n).map fun x => (x.1, x.2.1)

/-- Slot Status: Power Fault Detected of every vPPB that presents the slot (Table 9-4). -/
def Dev.slotFault (d : Dev) (n : Nat) : Dev := (d.slotVppbs n).foldl (fun d x => d.slotFlag x.1 x.2 ssPowerFault) d

def Dev.slotOnNow (d : Dev) (n : Nat) : Dev :=
  let d := ((d.put SPU_STAT_CMD_ON n 1).put SPU_STAT_RETRY_CNT n 0).endQuar (.slot n)
  if d.slotState n = ssLatched && !d.on SPU_STAT_FET_FAIL n then d.put SPU_STAT_STATE n ssWait else d.slotGo n

/-- ON command (R530, Table 16-2); it ends a quarantine of the slot (Table 19-2). -/
def Dev.slotOnCmd (d : Dev) (n : Nat) : Dev :=
  if !d.powerDie then d else d.slotOnNow n

/-- OFF command (R530). -/
def Dev.slotOffCmd (d : Dev) (n : Nat) : Dev := if !d.powerDie then d else (d.put SPU_STAT_CMD_ON n 0).slotOff n ssOff

/-- CLEAR_FET, accepted while VOUT is below 1.0 V (R528); a slot held OFF by the failure alone goes on (Table 16-2). -/
def Dev.slotClearFet (d : Dev) (n vout : Nat) : Dev :=
  if !d.powerDie || vout ≥ 1000 then d else ((d.put SPU_STAT_FET_FAIL n 0).put SPU_STAT_EN_N n 0).slotGo n

/-- A fault turns the gate off (R527): cool-down starts, and the slot cools or latches. -/
def Dev.slotTrip (d : Dev) (n code : Nat) (s : FSrc) : Dev :=
  let d := d.put SPU_STAT_FAULT n code
  let d := d.setSlot n { d.slot n with coolEnd := d.elec.osc + 10 * tMs * max 1 (d.get SPU_TIMERS_RETRY_T n) }
  let d := ((if d.get SPU_STAT_RETRY_CNT n = d.get SPU_CFG_RETRIES n then (d.slotOff n ssLatched).raise SPU_F_LATCHED n
    else d.slotOff n ssCool).raise s n)
  d.slotFault n

/-- PRSNT_N has a new conditioned value: its bits, the insertion timer, PRESENCE, and the vPPBs that present the slot. -/
def Dev.prsntNow (d : Dev) (n : Nat) (on : Bool) : Dev :=
  let w := d.get CKR_INSTAT0_PRSNT
  let d := (d.put CKR_INSTAT0_PRSNT 0 (if on then w ||| 2 ^ n else w &&& (2 ^ 32 - 1 - 2 ^ n))).put SPU_STAT_PRSNT n (b2n on)
  let d := d.setSlot n { d.slot n with insDone := false }
  let d := d.raise SPU_F_PRESENCE n
  (d.slotVppbs n).foldl (fun d x => d.slotFlag x.1 x.2 ssPresence) d

/-- PRSNT_N changes its conditioned value (R521, R529). -/
def Dev.prsntSet (d : Dev) (n : Nat) (on : Bool) : Dev :=
  if d.on SPU_STAT_PRSNT n = on then d
  else if on then (d.prsntNow n true).slotGo n
  else ((d.prsntNow n false).put SPU_STAT_RETRY_CNT n 0).slotOff n ssOff

/-- Every slot turns its gate off (R543). (DESIGN CHOICE, log entry 64) -/
def Dev.slotsOff (d : Dev) : Dev := (List.range 32).foldl (fun d n => d.slotOff n ssOff) d

/-- Loss of VDD_AUX, or a Cold reset: every slot is OFF with its counts, timers and latches cleared (Table 16-2); EN_N is
high while VDD_AUX is absent. -/
def Dev.slotsClear (d : Dev) (enN : Bool) : Dev :=
  let d := d.slotsOff
  let d := (List.range 32).foldl (fun d n =>
    let p := d.get SPU_STAT_PRSNT n
    ((d.setWord SPU_STAT n 0).put SPU_STAT_PRSNT n p).put SPU_STAT_EN_N n (b2n enN)) d
  { d with slots := [] }

end Sys2Proof.Machine
end

