-- ==== Sys2Proof/Machine/RstOps.lean ====
section
/-! DEFINITION. Resets (R573 to R586): what each scope keeps, the quiesce and the entry of Warm and Control resets, Slice
and Domain resets; broken leases. -/

namespace Sys2Proof.Machine

/-! ## Leases (R67, R69) -/

def Dev.lockBroken (d : Dev) (i cause : Nat) : Dev :=
  let d := ((d.put LCK_STAT_HELD 0 0 i).put LCK_STAT_BROKEN 0 1 i).put LCK_STAT_CAUSE 0 cause i
  let d : Dev := { d with ctl := { d.ctl with leaseEnd := SMap.set 0 d.ctl.leaseEnd i 0 } }
  (d.raise LCK_F_LEASE_BROKEN 0).irq 1

/-- A held lock is freed with BROKEN set. -/
def Dev.lockBreak (d : Dev) (i cause : Nat) : Dev :=
  if !d.on LCK_STAT_HELD 0 i then d else d.lockBroken i cause

/-- A path resets: the leases it holds are broken (R68). -/
def Dev.pathReset (d : Dev) (path : Nat) : Dev :=
  (List.range 64).foldl (fun d i => if d.get LCK_STAT_PATH 0 i = path then d.lockBreak i 1 else d) d

/-- R40: the management PF's configuration space, BARs and MSI-X table reset. -/
def Dev.pfReset (d : Dev) (up : Bool) : Dev :=
  let d : Dev := { d with ctl := { d.ctl with pfUp := up, msixEn := false, fnMask := false, busMaster := false, vecOpen := [], vecMsg := [], vecPend := [], pfcfg := [] } }
  d.pathReset 1

/-! ## What a Warm or Control reset keeps (Table 18-3, R583) -/

/-- Registers kept, beside those that only a Cold reset resets: slot units, the Proof result, sticky logs, the carve-out
layout, module data, conditioned inputs and debug state. (DESIGN CHOICE, log entry 66) -/
def keptOff (b : Blk) (off : Nat) : Bool :=
  off = 0x060 || off = 0x068 ||
  match b with
  | .spu => 0x140 ≤ off && off < 0x170
  | .mgt => off = 0x150
  | .dec => off = 0x200
  | .dir => off = 0x1A8 || off = 0x1B0
  | .tray => off = 0x1A8
  | .ldr => off = 0x140 || off = 0x158 || off = 0x168 || off = 0x200
  | .acu => off = 0x150 || off = 0x158
  | .ckr => off = 0x148 || off = 0x160 || off = 0x168
  | .lck => 0x140 ≤ off && off < 0x540
  | .sec => off = 0x140
  | .dev => off = 0x178
  | _ => b.own.any fun r => r.reg.cold && r.reg.off ≤ off && off < r.reg.off + r.reg.cnt * r.reg.stride

/-- The register at an address of the register map is kept. (DESIGN CHOICE, log entry 66) -/
def keptAddr (a : Nat) : Bool :=
  match Pg.at? (a / 4096 * 4096) with
  | some g => keptOff g.blk (a % 4096) || g.blk.own.any fun r => r.reg.cold && r.reg.off ≤ a % 4096 && a % 4096 < r.reg.off + r.reg.cnt * r.reg.stride
  | none => false

/-! ## Data Mover queues -/

/-- Every queue allocated to a function. -/
def Dev.allQueues (d : Dev) : List Nat :=
  ((List.range 128).filter fun u => d.on DMV_EPCFG_EN 0 u).flatMap fun u =>
    ((List.range (1 + SMap.get 0 d.dmv.vfs u)).flatMap (d.fnQueues u)).filter fun q => d.q q cAlloc = 1

/-- RESET of a queue (R481, R482). -/
def Dev.queueReset (d : Dev) (q : Nat) : Dev :=
  if d.resetHeld q then d.setQueue q { d.queue q with heldReset := true } else d.qReset q qDisabled false

/-- The contexts held on chip go back to the carve-out. -/
def Dev.ctxFlush (d : Dev) : Dev :=
  let d := d.ldr.ctxLru.foldl (fun d q =>
    let ws := SMap.get [] d.ldr.ctx q
    [4, 5, 6].foldl (fun d i => d.setLword (d.ctxBase + 128 * q + 8 * i) (ws.getD i 0)) d) d
  { d with ldr := { d.ldr with ctxLru := [], ctx := [] } }

/-! ## The quiesce (R577, R578) -/

/-- Lines that agents hold. -/
def Dev.heldLines (d : Dev) : List DirEnt := ((List.range 16).flatMap d.dirOf).filter fun e => !(d.mayHold e).isEmpty

def Dev.dirtyLines (d : Dev) : List SccLine := ((List.range 16).flatMap d.sccOf).filter (·.dirty)

/-- Recall a list of lines from every holder. -/
def Dev.recallAll (d : Dev) (es : List DirEnt) : Dev :=
  es.foldl (fun d e0 => match d.ent? e0.tk e0.h with
    | some e => if (d.mayHold e).isEmpty || d.lineTaken e.tk e.h then d else d.recallOrWait e (d.mayHold e) 0
    | none => d) d

/-- A home has no work left. -/
def Home.idle (x : Home) : Bool := x.txns.isEmpty && x.waits.isEmpty && x.wrPend.isEmpty && x.wrHold.isEmpty

/-- The quiesce has ended. -/
def Dev.quiesceDone (d : Dev) : Bool :=
  (List.range 16).all (fun h => (d.home h).idle) && !(d.coh.tray.any (·.ordered)) && d.coh.cmb.isEmpty &&
    (!d.on CKR_RSTCFG_RECALL || d.heldLines.isEmpty) && d.dirtyLines.isEmpty

/-- Steps 1 to 4 of R577 start. -/
def Dev.quiesceStart (d : Dev) (r : RstReq) (esc : Bool) : Dev :=
  let d : Dev := { d with rst := { d.rst with phase := .quiesce, pend := some r, quiesceAt := d.now, escalated := esc } }
  let d := (d.put DEV_READY_FABRIC_READY 0 0).put CKR_STAT_QUIESCE 0 1
  let d := d.coh.cmb.foldl (fun d c => d.flushCmb c) d
  let d := if d.on CKR_RSTCFG_RECALL then d.sweepAll.recallAll d.sweepAll.heldLines else d
  d.writeBack d.dirtyLines true

def Scope.code : Scope → Nat
  | .cold => 0 | .warm => 1 | .control => 2 | .slice => 3 | .domain => 4 | .port => 5

/-! ## Entry (R579, R583, R590) -/

/-- Before the reset takes effect: writes the Larder has taken are written (R454), queues are removed (R481), locks broken. -/
def Dev.rstPrep (d : Dev) (warm : Bool) : Dev :=
  let d := (d.ldr.reqs.flatMap Prod.snd).foldl (fun d q => if q.write then d.lwriteBe (q.line * 64) q.be q.data else d) d
  let d := (d.removeQueues d.allQueues).ctxFlush
  let d := (List.range 64).foldl (fun d i => d.lockBreak i 1) d
  if warm then d.pfReset false else d

/-- A quarantine that outlasts the reset (Table 19-2): a slot's, the Proof allowance's, and across a Control reset an octet's. -/
def Elem.outlasts (warm : Bool) : Elem → Bool
  | .slot _ | .proof => true
  | .octet _ => !warm
  | _ => false

/-- What a Warm or Control reset keeps (Table 18-3); all else has its reset value. (DESIGN CHOICE, log entry 66) -/
def Dev.rstKeep (d : Dev) (sc : Scope) : Dev :=
  { regs := d.regs.filter fun e => keptAddr e.1, tabs := [], free := d.free, out := d.out, slots := d.slots, elec := d.elec,
    obs := { clk := { local_ := d.obs.clk.local_ } },
    ctl := { pfUp := d.ctl.pfUp, msixEn := d.ctl.msixEn, fnMask := d.ctl.fnMask, busMaster := d.ctl.busMaster,
             vecOpen := d.ctl.vecOpen, vecMsg := d.ctl.vecMsg, vecPend := d.ctl.vecPend, pfcfg := d.ctl.pfcfg },
    ldr := { mem := d.ldr.mem, poison := d.ldr.poison, ce := d.ldr.ce, ue := d.ldr.ue, rowCe := d.ldr.rowCe,
             softRep := d.ldr.softRep, hardRep := d.ldr.hardRep, scrubPos := d.ldr.scrubPos, wantTag := d.ldr.wantTag,
             wantTlm := d.ldr.wantTlm, rfmThr := d.ldr.rfmThr },
    prf := { huOk := d.prf.huOk, vstart := d.prf.vstart, contained := d.prf.contained },
    sec := { fuses := d.sec.fuses, image := d.sec.image, challenge := d.sec.challenge,
             meas := d.sec.meas.filter fun e => e.1 = 5 },
    octets := d.octets.foldl (fun m e => SMap.set {} m e.1 (e.2.kept (sc ≠ .warm))) [],
    flt := { quar := d.flt.quar.filter (Elem.outlasts (sc = .warm)) },
    rst := { phase := .starting, kind := sc, vddAux := d.rst.vddAux, pwrGood := d.rst.pwrGood, coldPin := d.rst.coldPin } }

/-- Register values the start of a Warm or Control reset finds: boot state cleared, Larder channels in self-refresh, Proof's
last result kept. -/
def Dev.rstFill (n : Dev) (warm : Bool) (pwrfail : Nat) : Dev :=
  let n := (((n.put SEC_STAT_BOOT 0 0).put SEC_STAT_BANK 0 0).put SEC_STAT_FALLBACK 0 0).put SEC_STAT_LOCKBOOT 0 0
  let n := (List.range 12).foldl (fun (x : Dev) c =>
    if List.contains [2, 3, 4] (x.get LDR_CHSTAT_STATE c) then x.put LDR_CHSTAT_STATE c 3 else x) n
  let n := ((n.put PRF_STAT_STATE 0 (n.get PRF_RESULT_VALID)).put DEV_READY_PROOF_DONE 0 (n.get PRF_RESULT_VALID)).put
    PRF_STAT_PWRFAIL 0 pwrfail
  if warm then n
  else
    let n := (List.range 64).foldl (fun (x : Dev) o => if x.quarantined (.octet o) then (x.octPorts o).foldl (fun y p => y.setPortState p tsHold) x else x) n
    (n.put DEV_READY_FUSES_OK 0 1).put DEV_READY_SDS_CAL 0 1

/-- The Warm or Control reset begins its start: everything but what Table 18-3 keeps takes its reset value. (DESIGN CHOICE, log entry 66) -/
def Dev.rstEnter (d : Dev) (r : RstReq) (abandoned : Nat) : Dev :=
  let warm : Bool := r.scope = .warm
  let esc := d.rst.escalated
  let quiet := if d.rst.phase = .quiesce then min 65535 ((d.now - d.rst.quiesceAt) / (100 * tUs)) else 0
  let d := d.rstPrep warm
  let n := (d.rstKeep r.scope).rstLog r.scope.code r.trigger 0 r.path esc
  let n := (n.put CKR_RSTLOG_QUIESCE_T 0 quiet).put CKR_RSTLOG_ABANDONED 0 (min abandoned (2 ^ 23 - 1))
  let n := n.rstFill warm (d.get PRF_STAT_PWRFAIL)
  if abandoned > 0 then n.raise CKR_F_QUIESCE_TO 0 else n

/-- Lines a quiesce that has not ended abandons (R578). (DESIGN CHOICE, log entry 63) -/
def Dev.abandonedNow (d : Dev) : Nat := (if d.on CKR_RSTCFG_RECALL then d.heldLines.length else 0) + d.dirtyLines.length

/-- Only a Cold reset recovers the device: its clocks are lost, or it has tripped (R29, R591, R661). -/
def Dev.stopped (d : Dev) : Bool := d.rst.clockLost || d.rst.thermTrip

/-- A Warm or Control reset is requested (R37, R544, R576, R577). -/
def Dev.bigReq (d : Dev) (sc : Scope) (trigger path : Nat) : Dev :=
  let r : RstReq := { scope := sc, trigger := trigger, path := path }
  let asWarm : RstReq := { r with scope := .warm }
  if d.stopped then d
  else if d.flushing then
    (if d.rst.afterFlush.isSome then d.rstIgnored else { d with rst := { d.rst with afterFlush := some asWarm } })
  else if d.on FAG_STAT_HALTED then (if sc = .warm then d.rstEnter r 0 else d)
  else match d.rst.phase with
    | .off | .coldHeld => d
    | .starting =>
      if sc = .warm && d.rst.kind = .control then { d with rst := { d.rst with escalated := true } }.rstEnter r 0 else d.rstIgnored
    | .quiesce =>
      match d.rst.pend with
      | some p => if sc = .warm && p.scope = .control then { d with rst := { d.rst with pend := some r, escalated := true } } else d.rstIgnored
      | none => d
    | .running =>
      let esc := !d.rst.active.isEmpty || (List.range 128).any fun p => (d.port p).resetting
      if d.flushed then d.quiesceStart asWarm (sc ≠ .warm || esc) else d.quiesceStart r esc

/-! ## Cold reset (R573 to R575) -/

/-- A Cold reset keeps nothing; pins stand as they are, and the model's own trace goes on. -/
def Dev.coldDev (d : Dev) (phase : Phase) (pwrGood coldPin : Bool) : Dev :=
  { free := d.free, out := d.out, rst := { phase := phase, kind := .cold, vddAux := d.rst.vddAux, pwrGood := pwrGood, coldPin := coldPin } }

/-- The whole device takes its reset values; what it is held by is given. -/
def Dev.coldEnter (d : Dev) (phase : Phase) (pwrGood coldPin : Bool) (trigger : Nat) : Dev :=
  let d := d.slotsOff
  let n := d.coldDev phase pwrGood coldPin
  let n := if d.rst.vddAux then n else n.slotsClear true
  n.put CKR_RSTLOG_TRIGGER 0 trigger

/-! ## Slice resets (Table 18-8) -/

/-- Ports of slice s that exist. -/
def Dev.slicePorts (d : Dev) (s : Nat) : List Nat := ((List.range 8).map (8 * s + ·)).filter d.portAvail

/-- A message that a port counts as flushed: the port it goes to, of this device. -/
def Dev.flushCount (d : Dev) (dest : Nat) : Dev := if dest < 128 then d.inc PRT_DROP_FLUSHED dest else d

/-- A released message that the core has not admitted is flushed, its access over. -/
def Dev.flushRel (d : Dev) (m : Msg) : Dev :=
  let d := if m.fid = 0 then d else d.endFlight m.fid
  if m.ready && m.dst / 128 = d.myId then d.flushCount (m.dst % 128) else d

/-- Messages stored for sources of slice s are discarded, and counted at the port each was queued for. -/
def Dev.flushSources (d : Dev) (s : Nat) : Dev :=
  let mine (src : Nat) : Bool := srcSlice src = s
  let d := (d.core.oven.filter fun x => mine x.m.src).foldl (fun d x => (d.discard x true).flushCount x.dest) d
  let d := ((d.core.rel.filter fun e => mine e.1).flatMap Prod.snd).foldl Dev.flushRel d
  { d with core := { d.core with rel := d.core.rel.filter fun e => !mine e.1, held := d.core.held.filter fun x => !mine x,
                                 startBank := d.core.startBank.filter fun e => e.1 ≠ s } }

/-- Messages that have reached the slice's endpoint and that it has not taken are flushed: requests are answered as R321 states,
responses discarded. -/
def Dev.flushArrived (d : Dev) (s : Nat) : Dev :=
  let ms := (d.core.arrived.filter fun e => e.1 / 3 = s).flatMap Prod.snd
  let d : Dev := { d with core := { d.core with arrived := d.core.arrived.filter fun e => e.1 / 3 ≠ s } }
  ms.foldl (fun d m => if clsRsp m.cls then (if m.fid = 0 then d else d.endFlight m.fid) else d.replyFail s m) d

/-- The steps of a Slice reset start. (DESIGN CHOICE, log entry 65) -/
def Dev.sliceStart (d : Dev) (s : Nat) : Dev :=
  let d := (d.slicePorts s).foldl (fun d p => d.portResetStart p) d
  let d := d.dropWaits (fun e => portSlice e.port = s && !e.cmb) true
  let d := (d.coh.cmb.filter fun c => portSlice c.port = s).foldl (fun d c => d.flushCmb c) d
  let d := (d.dirSweep s).raiseDue
  let d := d.recallAll (d.dirOf s)
  let d := d.writeBack ((d.sccOf s).filter (·.dirty)) true
  (d.allQueues.filter fun q => d.q q cEslice = s).foldl (fun d q => d.queueReset q) d

/-- What a Slice reset waits for has ended. (DESIGN CHOICE, log entry 65) -/
def Dev.sliceQuiet (d : Dev) (s : Nat) : Bool :=
  (d.home s).idle && (d.dirOf s).all (fun e => (d.mayHold e).isEmpty) && !(d.sccOf s).any (·.dirty) &&
    !(d.coh.tray.any fun e => portSlice e.port = s) && (d.slicePorts s).all fun p => !(d.port p).resetting

/-- The slice is cleared and its reset is over. (DESIGN CHOICE, log entry 65) -/
def Dev.sliceOver (d : Dev) (s : Nat) : Dev :=
  let d := (d.slicePorts s).foldl (fun d p => if (d.port p).resetting then (d.portResetNow p tsHold).perstGo else d) d
  let d := (d.home s).txns.foldl (fun d t => d.failTxn t) d
  let d := d.failWaits s fun _ => true
  let d := (d.coh.tray.filter fun e => portSlice e.port = s).foldl (fun d e => d.trayFree e.id) d
  let d := (d.flushSources s).flushArrived s
  let d : Dev := { d with
    coh := { d.coh with
      dir := d.coh.dir.filter fun e => e.1 / 16384 ≠ s, scc := d.coh.scc.filter fun e => e.1 / 4096 ≠ s,
      dirLru := d.coh.dirLru.filter fun e => e.1 / 16384 ≠ s, sccLru := d.coh.sccLru.filter fun e => e.1 / 4096 ≠ s,
      homes := SMap.set {} d.coh.homes s {} },
    core := { d.core with
      retiring := d.core.retiring.filter fun k => k / 16 ≠ s, lastReloc := d.core.lastReloc.filter fun k => k / 16 ≠ s,
      bankCe := d.core.bankCe.filter fun e => e.1 / 16 ≠ s },
    links := d.links.map fun e => if portSlice (d.linkPort e.1) = s then (e.1, { e.2 with keys := [] }) else e,
    flt := { d.flt with quar := d.flt.quar.filter fun e => e ≠ .slice s && !((List.range 4).any fun i => e = .engine (4 * s + i)) } }
  let d := d.put OVN_RETIRE_MAP s 0
  let d := (((List.range 32).filter fun k => d.on DRL_ATTACH_VALID k && portSlice (d.linkPort k) = s).foldl (fun d k =>
    (d.put DRL_SEC_VALID0 k 0).put DRL_SEC_VALID1 k 0) d)
  let d := (((d.setBlocks s true 0).setBlocks s false 0).put SCC_PERS_GATED s 1).put TRY_PERS_GATED s 1
  let d := Blk.slicePages.foldl (fun d b => d.clearStatus ⟨b, s⟩) d
  let d : Dev := { d with rst := { d.rst with active := d.rst.active.filter fun r => !(r.scope = .slice && r.target = s) } }
  (d.slicePorts s).foldl (fun d p => d.portResetOver p) d

/-! ## Domain resets (Table 18-8) -/

/-- Lines of domain D: written back, recalled, and freed once nothing holds them. -/
def Dev.domainStep (d : Dev) (dom : Nat) : Dev :=
  let d := d.recallAll (((List.range 16).flatMap d.dirOf).filter (·.domain = dom))
  let d := d.writeBack (((List.range 16).flatMap d.sccOf).filter (·.domain = dom)) false
  (((List.range 16).flatMap d.dirOf).filter fun e => e.domain = dom && !e.busy && (d.mayHold e).isEmpty).foldl (fun d e =>
    if d.lineTaken e.tk e.h then d else d.freeEnt e.tk e.h) d

/-- The steps of a Domain reset begin. (DESIGN CHOICE, log entry 65) -/
def Dev.domainStart (d : Dev) (dom : Nat) : Dev :=
  let d := (d.coh.cmb.filter fun c => c.m.domain = dom).foldl (fun d c => d.flushCmb c) d
  let d := (d.allQueues.filter fun q => d.q q cDomain = dom).foldl (fun d q => d.queueReset q) d
  let d := (List.range 128).foldl (fun d p => (List.range 128).foldl (fun d e =>
    let w := d.tab 0x0A p e
    if bits w 13 1 = 1 && bits w 0 10 = dom then
      d.setMeter p e { last := d.tclk, tc := bits (d.tab 0x0A p e 1) 20 24, rc := 0, tp := bits (d.tab 0x0A p e 2) 20 24, rp := 0 }
    else d) d) d
  d.sweepAll.domainStep dom

def Dev.domainQuiet (d : Dev) (dom : Nat) : Bool :=
  !((List.range 16).any fun h => (d.dirOf h).any (·.domain = dom) || (d.sccOf h).any (·.domain = dom) ||
    (d.home h).txns.any fun t => t.m.domain = dom)

/-- The steps of a Domain reset have ended. (DESIGN CHOICE, log entry 65) -/
def Dev.domainOver (d : Dev) (dom : Nat) : Dev :=
  { d with rst := { d.rst with active := d.rst.active.filter fun r => !(r.scope = .domain && r.target = dom) } }

/-! ## The end of Slice and Domain resets -/

/-- Resets in progress whose steps have ended are over. (DESIGN CHOICE, log entry 6) -/
def Dev.rstPoll (d : Dev) : Dev :=
  d.rst.active.foldl (fun d r => match r.scope with
    | .slice =>
      let d := (d.recallAll (d.dirOf r.target)).writeBack ((d.sccOf r.target).filter (·.dirty)) true
      if d.sliceQuiet r.target then d.sliceOver r.target else d
    | .domain =>
      let d := d.domainStep r.target
      if d.domainQuiet r.target then d.domainOver r.target else d
    | _ => d) d

/-- The reset of a port that has nothing to recall is over at once. -/
def Dev.portResetEnd (d : Dev) (p : Nat) : Dev := if (d.port p).resetting then d else d.portResetOver p

/-- A Port reset is requested through a register or command (R574, R576, R586). -/
def Dev.portReq (d : Dev) (p path : Nat) : Dev :=
  if p ≥ 128 || !d.portAvail p then d
  else if d.flushing || d.flushed || d.portContained p then d.rstIgnored
  else
    ((d.rstLog 5 4 p path false).portResetStart p).portResetEnd p

def Dev.sliceBegin (d : Dev) (s path : Nat) : Dev :=
  let d : Dev := { d with rst := { d.rst with active := d.rst.active ++ [{ scope := .slice, target := s, path := path }] } }
  (d.sliceStart s).rstPoll

def Dev.domainBegin (d : Dev) (dom path : Nat) : Dev :=
  let d : Dev := { d with rst := { d.rst with active := d.rst.active ++ [{ scope := .domain, target := dom, path := path }] } }
  (d.domainStart dom).rstPoll

/-- A Slice reset is requested. -/
def Dev.sliceReq (d : Dev) (s path : Nat) : Dev :=
  if s ≥ 16 then d
  else if d.flushing || d.flushed || d.bigReset || d.rst.active.any (fun r => r.scope = .slice && r.target = s) then d.rstIgnored
  else
    let esc := (d.slicePorts s).any fun p => (d.port p).resetting
    (d.rstLog 3 4 s path esc).sliceBegin s path

/-- A Domain reset is requested. -/
def Dev.domainReq (d : Dev) (dom path : Nat) : Dev :=
  if dom = 0x3FF || (d.domainSlot dom).isNone || d.flushing || d.flushed || d.bigReset || d.domainRst dom then d.rstIgnored
  else
    (d.rstLog 4 4 dom path false).domainBegin dom path

end Sys2Proof.Machine
end

