-- ==== Sys2Proof/Machine/ProofOps.lean ====
section
/-! DEFINITION. Proof of hold-up: the allowance, its credit, the measurement and the power-fail flush (R31, R32, R373, R374,
R413, R415, R533 to R544). -/

namespace Sys2Proof.Machine

/-- A value a field has no room for is left open by the spec. -/
def Dev.putOpen (d : Dev) (f : Fld) (i v : Nat) : Dev :=
  if v < 2 ^ f.width then d.put f i v
  else
    let (x, d) := d.fresh
    d.put f i x

/-! ## The allowance (R536) -/

/-- E in picojoules times 2000 for a start voltage in millivolts; 0 below VMIN. (DESIGN CHOICE, log entry 56) -/
def Dev.energyNum (d : Dev) (vs : Nat) : Nat :=
  let vm := d.get PRF_CFG0_VMIN
  if vs ≤ vm then 0 else min 1000 (max 1 (d.get PRF_CFG0_ETA)) * d.get PRF_RESULT_CAP * (vs * vs - vm * vm)

/-- D_max in blocks of 4 KiB for a start voltage; with PHOLD 0 the spec gives no value. -/
def Dev.blocksAt (d : Dev) (vs : Nat) : Nat × Dev :=
  let p := d.get PRF_CFG1_PHOLD
  if p = 0 then d.fresh
  else
    let b := d.get PRF_CFG1_BFLUSH
    let off := 2000 * 1000 * p * (1000 * (d.get PRF_CFG1_TDET + d.get PRF_CFG1_TGPF)) * b
    ((d.energyNum vs * b - off) / (2000 * 1000 * p * 4096), d)

/-- D_max in force: from a valid result that CONTAIN does not hold at 0; with the test allowance, from Vstart − DVMAX. (DESIGN CHOICE, log entry 56) -/
def Dev.dmaxNow (d : Dev) : Nat × Dev :=
  if !d.on PRF_RESULT_VALID || d.prf.contained then (0, d)
  else d.blocksAt (if d.on PRF_ALLOW_TEST then d.prf.vstart - min 1000 (max 50 (d.get PRF_CFG0_DVMAX)) else d.prf.vstart)

/-! ## Credit (R373, R374, R413, R415, R537, R538) -/

/-- The slice that holds the most blocks. (DESIGN CHOICE, log entry 57) -/
def Dev.mostBlocks (d : Dev) : Nat :=
  (List.range 16).foldl (fun b s => if d.sccB s + d.tryB s > d.sccB b + d.tryB b then s else b) 0

/-- Recall `n` blocks one at a time, from the slice holding the most and its larger pool. (DESIGN CHOICE, log entry 57) -/
def Dev.recallBlocks (d : Dev) : Nat → Dev
  | 0 => d
  | n + 1 =>
    let s := d.mostBlocks
    let scc := d.sccB s ≥ d.tryB s
    let k := if scc then d.sccB s else d.tryB s
    Dev.recallBlocks (d.setBlocks s scc (k - 1)) n

/-- Every slice cache writes back dirty P lines beyond its credit (R374). -/
def Dev.trimScc (d : Dev) : Dev := (List.range 16).foldl (fun d s => d.trimSlice s) d

/-- GATED sets or clears in PRF (R538) and sets in every slice's pools (R374, R415). (DESIGN CHOICE, log entry 57; DEDUCED, log entry 58) -/
def Dev.gate (d : Dev) (dm : Nat) : Dev :=
  if dm ≥ 512 then d.put PRF_ALLOW_GATED 0 0
  else
    let d := if d.on PRF_ALLOW_GATED then d else (d.put PRF_ALLOW_GATED 0 1).raise PRF_F_GATED 0
    (List.range 16).foldl (fun d s =>
      let d := if d.on SCC_PERS_GATED s then d else (d.put SCC_PERS_GATED s 1).raise SCC_F_PGATED s
      if d.on TRY_PERS_GATED s then d else (d.put TRY_PERS_GATED s 1).raise TRY_F_PGATED s) d

/-- D_max is recomputed, and credit recalled where it has fallen. (DESIGN CHOICE, log entry 56; DEDUCED, log entry 58) -/
def Dev.dmaxUpdate (d : Dev) : Dev :=
  let was := d.get PRF_ALLOW_DMAX
  let (dm, d) := d.dmaxNow
  let d := d.putOpen PRF_ALLOW_DMAX 0 dm
  let d := if d.on PRF_RESULT_VALID then d.putOpen PRF_RESULT_ENERGY 0 (d.energyNum d.prf.vstart / (2000 * 1000000000)) else d
  let d := d.gate dm
  let excess := d.granted - (if dm < 512 then 0 else dm)
  let d := if dm < was || excess ≠ 0 then (d.coh.cmb.filter CmbEnt.pHeld).foldl (fun d c => d.flushCmb c) d else d
  (d.recallBlocks excess).trimScc

/-- An event of PRF; where it contains Proof, the allowance is 0 from now on (R32, Table 19-2). (DESIGN CHOICE, log entry 28) -/
def Dev.proofRaise (d : Dev) (s : FSrc) : Dev :=
  let d := d.raise s 0
  if d.prf.contained then d.dmaxUpdate else d

/-! ## The measurement (Table 16-3) -/

/-- A measurement may start: none runs, and no flush or halt stands in its way. -/
def Dev.measReady (d : Dev) : Bool := d.prf.step = 0 && !d.flushing && !d.flushed && !d.on FAG_STAT_HALTED

/-- A measurement starts: from a valid result the allowance is lowered first. -/
def Dev.measBegin (d : Dev) : Dev :=
  let d := d.put PRF_STAT_STATE 0 2
  if d.on PRF_RESULT_VALID then
    ({ d with prf := { d.prf with step := 1 } }.put PRF_ALLOW_TEST 0 1).dmaxUpdate
  else { d with prf := { d.prf with step := 2, huIso := true } }

def Dev.measStart (d : Dev) : Dev := if d.measReady then d.measBegin else d

/-- A measurement ends; the state shows whether a result is held. -/
def Dev.measEnd (d : Dev) : Dev :=
  let v := d.get PRF_RESULT_VALID
  let d : Dev := { d with prf := { d.prf with step := 0, huIso := false, huLoad := false }, rst := { d.rst with measEnded := true } }
  (((d.put PRF_STAT_STATE 0 v).put DEV_READY_PROOF_DONE 0 v).put PRF_ALLOW_TEST 0 0).dmaxUpdate

/-! ## The power-fail flush (R539 to R544) -/

/-- Writes of the held total that are not yet on their way. -/
def Dev.flushStep (d : Dev) : Dev :=
  let d := (d.coh.cmb.filter CmbEnt.pHeld).foldl (fun d c => d.flushCmb c) d
  let ls := ((List.range 16).flatMap d.sccOf).filter fun l => l.dirty && l.p && !d.lineTaken l.tk l.h
  let d : Dev := { d with prf := { d.prf with flushWr := (d.prf.flushWr ++ ls.map fun l => lineKey l.tk l.h).dedup } }
  d.writeBack ls true

/-- A flush starts. `trigger`: 1 PWRFAIL_N, 2 the bank below VLOW; both in one cycle start one flush. -/
def Dev.flushStart (d : Dev) (trigger : Nat) : Dev :=
  if d.on FAG_STAT_HALTED || d.flushed || d.rst.phase = .off || d.rst.phase = .coldHeld then d
  else if d.flushing then
    (if d.prf.flushAt = d.now && d.prf.phase = 1 then d.put PRF_LOG_TRIGGER 0 (Nat.lor (d.get PRF_LOG_TRIGGER) trigger) else d)
  else
    let d : Dev := { d with prf := { d.prf with step := 0, huIso := false, huLoad := false, phase := 1, flushAt := d.now, flushWr := [], logSave := d.word PRF_LOG 0 } }
    let d := ((d.put PRF_ALLOW_TEST 0 0).put PRF_STAT_STATE 0 3).put DEV_READY_FABRIC_READY 0 0
    let d := (d.setWord PRF_LOG 0 0).put PRF_LOG_TRIGGER 0 trigger
    (d.proofRaise PRF_F_PWRFAIL).flushStep

/-- The core clock trees stop (R591, R661): a flush in progress is abandoned without a record, HU_OK stays high, and the
device stands halted. (DEDUCED, log entry 61) -/
def Dev.clockHalt (d : Dev) (src : Nat) : Dev :=
  let d := if d.flushing then
      ({ d with prf := { d.prf with phase := 0, waitPorts := [], gpfPorts := [], flushWr := [] } }.setWord PRF_LOG 0 d.prf.logSave).put
        PRF_STAT_STATE 0 (d.get PRF_RESULT_VALID)
    else d
  (d.haltNow ⟨.ckr, 0⟩ src 3).raiseDue

/-- Every flush write has been answered or has ended failed. -/
def Dev.flushQuiet (d : Dev) : Bool :=
  d.heldTotal = 0 && (List.range 16).all fun s => (d.home s).wrPend.isEmpty && (d.home s).wrHold.isEmpty

/-- DOWNSTREAM ports with CXL.mem negotiated. -/
def Dev.memPorts (d : Dev) : List Nat :=
  (List.range 128).filter fun p => d.isDown p && d.on PRT_STAT_DL_ACTIVE p && d.on PRT_STAT_MEM p

/-- Issue a GPF phase to the flush's ports. -/
def Dev.flushGpf (d : Dev) (phase : Nat) (ps : List Nat) : Dev :=
  let d := ps.foldl (fun d q => (d.emit (.gpf q phase true)).modPort q fun x => { x with gpfAsk := x.gpfAsk ++ [(phase, 128)] }) d
  { d with prf := { d.prf with waitPorts := ps, gpfPorts := ps } }

/-- Host GPFs received during the flush are answered with the outcome of the device's phase (R542). -/
def Dev.answerHosts (d : Dev) (phase : Nat) (ok : Bool) : Dev :=
  (List.range 128).foldl (fun d u => match (d.port u).gpf with
    | some g => if g.lds = [16] && g.phase ≤ phase then d.gpfEnd u g ok else d
    | none => d) d

/-- A reset that waited for the flush (R37, R544): one the quiesce of which the flush interrupted counts as well. (DEDUCED, log entry 61) -/
def Dev.resetWaiting (d : Dev) : Option RstReq :=
  match d.rst.afterFlush with
  | some r => some r
  | none => if d.rst.phase = .quiesce then d.rst.pend else none

/-- HU_OK goes low (R543, R544): gates off, state FLUSHED, and what waited for it. (DEDUCED, log entry 61) -/
def Dev.huOkLow (d : Dev) (ok : Bool) : Dev :=
  let d := d.answerHosts 2 ok
  let d := (d.put PRF_LOG_GPF_US 0 (min 65535 ((d.now - d.prf.phase1At) / tUs))).put PRF_LOG_VALID 0 1
  let d : Dev := { d with prf := { d.prf with huOk := false, phase := 0, waitPorts := [], gpfPorts := [], flushWr := [] } }
  let d := (d.put PRF_STAT_STATE 0 5).slotsOff
  let d := match d.flt.haltWait with
    | some (a, src, cause) =>
      let d : Dev := { d with flt := { d.flt with haltWait := none } }
      (match Pg.at? a with | some g => (d.haltNow g src cause).raiseDue | none => d)
    | none => d
  match d.resetWaiting with
  | none => d
  | some r =>
    if r.scope = .cold then d.coldEnter (if d.rst.coldPin then .coldHeld else .starting) d.rst.pwrGood d.rst.coldPin 2
    else if d.stopped then d
    else { d with rst := { d.rst with escalated := true } }.rstEnter { r with scope := .warm } 0

/-- PWRFAIL_N changes its conditioned value; asserting is an edge event, but not while a start runs (R539, R594). (DESIGN CHOICE, log entry 60) -/
def Dev.pwrfailSet (d : Dev) (on : Bool) : Dev :=
  if d.on CKR_INSTAT1_PWRFAIL = on then d
  else
    let d := (d.put CKR_INSTAT1_PWRFAIL 0 (b2n on)).put PRF_STAT_PWRFAIL 0 (b2n on)
    if on && d.rst.phase ≠ .starting then d.flushStart 1 else d

end Sys2Proof.Machine
end

