-- ==== Sys2Proof/Machine/RegView.lean ====
section
/-! DEFINITION. What a register reads: its word, with the fields that show other state computed (each block's register
section), and the counter window of a function (R641). -/

namespace Sys2Proof.Machine

/-! ## Computed fields -/

/-- Bits of a list of flags, bit 0 first. -/
def packBits (n : Nat) (p : Nat → Bool) : Nat := (List.range n).foldl (fun w i => if p i then w + 2 ^ i else w) 0

/-- Levels of a page's sources, three bits each (FAG_LVL). -/
def Dev.levelWord (d : Dev) (pg : Nat) : Nat :=
  match Pg.at? (pg * 4096) with
  | some g => (List.range 16).foldl (fun w n => w + d.level g n * 2 ^ (3 * n)) 0
  | none => 0

def Dev.holdQ (d : Dev) (p : Nat) : Bool :=
  d.core.held.contains p && match d.relOf p with
    | m :: _ => d.orderWait m
    | [] => false

/-- A recall or removal scan of VCSs of slice s runs (R328, R334). -/
def Dev.scanRuns (d : Dev) (s : Nat) : Bool :=
  (d.coh.removals.any fun r => r.vppbs.any fun k => k / 128 / 8 = s) || (d.coh.unbinding.any fun k => k / 128 / 8 = s) ||
    (!d.applied ⟨.dec, s⟩ && (List.range 16).any fun h => (d.home h).txns.any (·.kind = .recall))

/-- Entries or slice-cache lines outside the ways of their domain in a slice that has been sealed (R378). -/
def Dev.resealing (d : Dev) (s : Nat) : Bool :=
  (d.home s).reseal && ((d.dirOf s).any (fun e => !d.dirWayOk s e.domain e.way) || (d.sccOf s).any fun l => !d.sccWayOk s l.domain l.way)

def Dev.tagWords (d : Dev) (s : Nat) : Nat :=
  ((d.prot.tagCache.filter fun e => e.1 / 4096 = s).map fun e => e.2.length).sum

/-- Time left until `t`, in units of `u` root ticks, rounded up. -/
def timeLeft (now t u : Nat) : Nat := (t - now + u - 1) / u

/-- Fields of index j of a register of instance i whose value other state gives. -/
def Dev.shown (d : Dev) (r : Reg) (i j : Nat) : List (Fld × Nat) :=
  let g : Pg := ⟨r.blk, i⟩
  if r = PGSTAT r.blk then [(PGSTAT_FLT_PEND r.blk, b2n (d.fltPend g)), (PGSTAT_AVAIL r.blk, b2n (d.avail g))]
  else match r.blk with
  | .dev =>
    if r = DEV_RULE_EPOCH then [(DEV_RULE_EPOCH_OLDEST, d.oldestEpoch), (DEV_RULE_EPOCH_DRAINED, b2n (d.oldestEpoch = d.epoch))]
    else if r = DEV_CFG_LOCK then [(DEV_CFG_LOCK_ALL, b2n d.allLocked)] else []
  | .arb => if r = ARB_CFG then [(ARB_CFG_SEALED, b2n (d.sealed i))] else []
  | .lck => if r = LCK_STAT && d.on LCK_STAT_HELD 0 j then [(LCK_STAT_REMAIN, timeLeft d.now (SMap.get 0 d.ctl.leaseEnd j) tMs)] else []
  | .tbl =>
    let words := match tabInfo (d.get TBL_SEL_TABLE i) with | some t => t.words | none => 0
    if r = TBL_STAT then [(TBL_STAT_WORDS, words)]
    else if r = TBL_DATA && j ≥ words then [(TBL_DATA_DATA, 0)] else []
  | .ovn =>
    if r = OVN_PORTOCC then [(OVN_PORTOCC_OCC, d.occ (8 * i + j)), (OVN_PORTOCC_HELD, b2n (d.core.held.contains (8 * i + j)))]
    else if r = OVN_POOL then
      [(OVN_POOL_FREE, d.inService i - d.sliceUsed i), (OVN_POOL_SHARED_FREE, d.sharedFree i), (OVN_POOL_RESERVED, d.reserved i),
       (OVN_POOL_RETIRED, ((List.range 16).filter (d.retired i)).length)]
    else []
  | .gte =>
    if r = GTE_STAT then
      let (e, m) := d.gatesAt i d.fab
      [(GTE_STAT_ENTRY, e), (GTE_STAT_GATES, m)]
    else []
  | .dec =>
    if r = DEC_STAT then
      [(DEC_STAT_FENCED, d.fencedCount i), (DEC_STAT_RECALL, b2n (d.scanRuns i))]
    else []
  | .dir =>
    if r = DIR_STAT then
      let es := (d.dirOf i).filter fun e => e.st ≠ 0 || e.busy
      [(DIR_STAT_ENTRIES, es.length), (DIR_STAT_BUSY, (es.filter fun e => e.busy || d.lineBusy e.tk e.h).length), (DIR_STAT_COARSE, (es.filter (·.coarse)).length),
       (DIR_STAT_RESEAL, b2n (d.resealing i))]
    else if r = DIR_UELOG then [(DIR_UELOG_SUSPECT, (d.home i).suspectSets.length)]
    else if r = DIR_SUSPECT then
      [(DIR_SUSPECT_STATE, (List.range 8).foldl (fun w k =>
        w + (d.suspectOf (8 * j + k) % 4 + b2n (d.coh.dead.contains (8 * j + k)) * 4) * 2 ^ (8 * k)) 0)]
    else []
  | .scc =>
    if r = SCC_STAT then
      [(SCC_STAT_VALID, (d.sccOf i).length), (SCC_STAT_DIRTY, ((d.sccOf i).filter (·.dirty)).length), (SCC_STAT_PDIRTY, d.pDirty i)]
    else []
  | .tray =>
    if r = TRY_PORT then
      let p := 8 * i + j
      let es := (d.trayOf p).filter (!·.cmb)
      [(TRY_PORT_USED, es.length), (TRY_PORT_ORDERED, (es.filter (·.ordered)).length), (TRY_PORT_PHELD, (es.filter TrayEnt.pHeld).length),
       (TRY_PORT_HOLDQ, b2n (d.holdQ p))]
    else if r = TRY_CMB then
      let es := d.coh.cmb.filter fun c => portSlice c.port = i
      [(TRY_CMB_USED, es.length), (TRY_CMB_PHELD, (es.filter CmbEnt.pHeld).length)]
    else if r = TRY_IDX then [(TRY_IDX_USED, d.indexUsed i)] else []
  | .tag => if r = TAG_STAT then [(TAG_STAT_WORDS, d.tagWords i), (TAG_STAT_MISSQ, (SMap.get [] d.prot.misses i).length)] else []
  | .spu => if r = SPU_STAT then [(SPU_STAT_COOL_REM, timeLeft d.elec.osc (d.slot i).coolEnd (10 * tMs))] else []
  | .prf =>
    if r = PRF_STAT then [(PRF_STAT_HU_OK, b2n d.prf.huOk), (PRF_STAT_HELD, d.heldTotal)] else []
  | .ckr =>
    if r = CKR_STAT then
      let on (sc : Scope) (t : Nat) : Bool := d.rst.active.any fun x => x.scope = sc && x.target = t
      [(CKR_STAT_DOMAIN_RST, b2n (d.rst.active.any (·.scope = .domain))),
       (CKR_STAT_PORT_RST, b2n ((List.range 128).any fun p => (d.port p).resetting)),
       (CKR_STAT_SLICE_RST, packBits 16 fun s => on .slice s)]
    else []
  | .fag =>
    if r = FAG_STAT then [(FAG_STAT_ALERT, b2n d.alert), (FAG_STAT_QUAR, d.flt.quar.length), (FAG_STAT_QDOM, d.flt.qdom.length)]
    else if r = FAG_PEND then [(FAG_PEND_PEND, packBits 64 fun b => Pg.all.any fun x => x.idx = 64 * j + b && d.pendAt x 1)]
    else if r = FAG_LVL then [(FAG_LVL_LEVEL, d.levelWord (d.get FAG_LVL_SEL_PAGE))] else []
  | .tmb => if r = TMB_LOCAL then [(TMB_LOCAL_TICKS, d.now)] else if r = TMB_TIME then [(TMB_TIME_TICKS, d.fab)] else []
  | .tlm =>
    let x := d.ring d.selRing
    if r = TLM_RCFG0 then [(TLM_RCFG0_BASE, x.base / 4096)]
    else if r = TLM_RCFG1 then
      [(TLM_RCFG1_EN, b2n x.en), (TLM_RCFG1_LOC, b2n x.larder), (TLM_RCFG1_SIZE, x.size), (TLM_RCFG1_CT, x.ct), (TLM_RCFG1_LEVEL, x.level),
       (TLM_RCFG1_CRUMB, b2n x.crumb)]
    else if r = TLM_RSTAT then
      [(TLM_RSTAT_HEAD, x.head), (TLM_RSTAT_TAIL, x.tail), (TLM_RSTAT_ERR, b2n x.err), (TLM_RSTAT_GAP, b2n (x.pending ≠ 0)),
       (TLM_RSTAT_SEQ, x.seq)]
    else if r = TLM_DROP then [(TLM_DROP_PENDING, x.pending), (TLM_DROP_TOTAL, x.total)]
    else if r = TLM_POP then [(TLM_POP_WORD, x.popWord.toNat)] else []
  | .fn =>
    if r = FN_ID then
      let (b, n) := d.fnBlock (i / 128) (i % 128)
      [(FN_ID_VCS, i / 128), (FN_ID_FN, i % 128), (FN_ID_QBASE, b), (FN_ID_NQ, n)]
    else []
  | _ => []

/-- Mask of the fields of a register whose access type `p` admits. -/
def RegD.mask (x : RegD) (p : Access → Bool) : Nat :=
  ((x.flds.filter fun f => p f.acc).map fun f => (2 ^ f.width - 1) * 2 ^ f.lo).sum

/-- The PRT page of a Dunrun port: but for its fault block, counters and snapshot copies it ignores writes and reads zero,
with ROLE 0b11 (R122). (DEDUCED, log entry 22) -/
def Dev.prtMute (d : Dev) (g : Pg) (off : Nat) : Bool :=
  g.blk = .prt && d.portDunrun g.inst && (off < 0x040 || (0x140 ≤ off && off < 0x800))

/-- The word that index j of a register of instance i reads: RWC fields read their shadow (R12). (DESIGN CHOICE, log entry 100) -/
def Dev.view (d : Dev) (x : RegD) (i : Nat) (j : Nat := 0) : W64 :=
  let r := x.reg
  if d.prtMute ⟨r.blk, i⟩ r.off then (if r = PRT_CFG then 3 else 0)
  else (d.shown r i j).foldl (fun w f => setBits w f.1.lo f.1.width f.2)
    (mergeMask (x.mask (· = .rwc)) (d.word r i j) (d.shWord r i j))

/-! ## The registers at an address -/

/-- The register, its fields and the index at an offset of a page. -/
def Pg.regAt (g : Pg) (off : Nat) : Option (RegD × Nat) :=
  g.blk.regs.findSome? fun x =>
    let r := x.reg
    if r.off ≤ off && off < r.off + r.cnt * r.stride && (off - r.off) % r.stride = 0 && (!r.only0 || g.inst = 0) then
      some (x, (off - r.off) / r.stride) else none

/-- What a 64-bit read of a page offset returns: a snapshot copy from 0x800 up (R49), zero where no register lies (R46). -/
def Dev.readReg (d : Dev) (g : Pg) (off : Nat) : W64 :=
  if off ≥ 0x800 then SMap.get 0 d.snap (g.addr + off)
  else match g.regAt off with
    | some (x, j) => d.view x g.inst j
    | none => 0

/-! ## The counter window of a function (R641) -/

/-- Counters shown to domain `dom`, in ascending page index and counter number. -/
def Dev.shownCounters (d : Dev) (dom : Nat) : List W64 :=
  let ps := (List.range 2048).flatMap fun n => Pg.all.filter fun g => g.idx = n
  ps.flatMap fun g => (List.range 16).filterMap fun c =>
    let s := bits (d.word (CNT_SEL g.blk) g.inst (c / 2)) (32 * (c % 2)) 32
    if bit s 10 && bit s 12 && s / 2 ^ 15 % 1024 = dom then
      some (BitVec.ofNat 64 (d.get (CNT_COUNT g.blk) g.inst c + g.idx * 2 ^ 48 + c * 2 ^ 59 + 2 ^ 63))
    else none

/-- FN_CNT[j] of function `fn` of service endpoint u. -/
def Dev.fnCnt (d : Dev) (u fn j : Nat) : W64 :=
  let (b, n) := d.fnBlock u fn
  if n = 0 then 0 else (d.shownCounters (d.q b cDomain)).getD j 0

end Sys2Proof.Machine
end

