-- ==== Sys2Proof/Machine/RegOps.lean ====
section
/-! DEFINITION. What a control-space write does: page control and locks, block resets, table windows, lease locks, the fault
block, and every register by the access type of its fields (chapters 2 and 19, and each block's registers). -/

namespace Sys2Proof.Machine

/-! ## Measurement 6 and the configuration lock (R56, R564, R600) -/

/-- Active copies of the RWL and RWC fields of the lockable pages and of their lockable tables, table 0x07 excluded. -/
def Dev.lockedConfig (d : Dev) : Bytes :=
  let regs := (Pg.all.filter Pg.lockable).flatMap fun g => g.blk.regs.flatMap fun x =>
    let k := x.mask fun a => a = .rwl || a = .rwc
    if k = 0 || (x.reg.only0 && g.inst ≠ 0) then [] else
      (List.range x.reg.cnt).flatMap fun j => leBytes 8 (Nat.land (d.word x.reg g.inst j).toNat k)
  let tabs := (d.tabs.filter fun e => (keyTab e.1).1 ≠ 0x0E).flatMap fun e => leBytes 8 e.1 ++ leBytes 8 e.2.toNat
  regs ++ tabs

/-- Measurement 6 as it is now: the digest while ALL is 1. -/
def Dev.meas6 (d : Dev) : Dev :=
  { d with sec := { d.sec with meas := SMap.set [] d.sec.meas 6 (if d.allLocked then Config.sha384 d.lockedConfig else []) } }

/-- ALL has set: armed injections are dropped, and measurement 6 is computed. -/
def Dev.allSet (d : Dev) : Dev :=
  (Pg.all.foldl (fun d g => d.put (FLT_INJECT_ARM g.blk) g.inst 0) d).meas6

/-- Pages take their locks. -/
def Dev.lockPages (d : Dev) (gs : List Pg) : Dev :=
  let was := d.allLocked
  let d := (gs.filter Pg.lockable).foldl (fun d g => d.put (PGLOCK_LOCKED g.blk) g.inst 1) d
  if d.allLocked && !was then d.allSet else d

/-- DEV_CFG_LOCK.LOCK is written 1: the bit sets, and every lockable page locks (R12, R56). -/
def Dev.cfgLock (d : Dev) : Dev := (d.put DEV_CFG_LOCK_LOCK 0 1).lockPages Pg.all

def Dev.lockPage (d : Dev) (g : Pg) : Dev := if d.prtMute g 0x028 then d else d.lockPages [g]

/-! ## ENABLE (R43, R72, Table 2-7) -/

/-- ENABLE sets: a calibrated octet leaves HOLD, a port begins training. -/
def Dev.enableNow (d : Dev) (g : Pg) : Dev :=
  let d := d.put (PGCTL_ENABLE g.blk) g.inst 1
  match g.blk with
  | .sds => if (d.octet g.inst).calibrated then d.octetGo g.inst else d
  | .prt => d.trainStart g.inst
  | _ => d

/-- ENABLE clears, with what that stops. -/
def Dev.disableNow (d : Dev) (g : Pg) : Dev :=
  let d := d.put (PGCTL_ENABLE g.blk) g.inst 0
  match g.blk with
  | .sds =>
    let d := (d.octPorts g.inst).foldl (fun d p => d.portLost p) d
    if (d.octet g.inst).calibrated then d.octetGo g.inst else d
  | .prt => if d.portDunrun g.inst then d else ((d.portResetNow g.inst tsHold).perstGo).portResetOver g.inst
  | .drl => d.linkDownEv g.inst
  | _ => d

def Dev.enableSet (d : Dev) (g : Pg) : Dev :=
  if g.blk.alwaysOn || d.on (PGCTL_ENABLE g.blk) g.inst || !d.avail g then d else d.enableNow g

def Dev.enableClear (d : Dev) (g : Pg) : Dev :=
  if g.blk.alwaysOn || !d.on (PGCTL_ENABLE g.blk) g.inst then d else d.disableNow g

/-! ## Block resets (R50) -/

/-- State of the block instance that no register of its page holds. (DESIGN CHOICE, log entry 21) -/
def Dev.blockClear (d : Dev) (g : Pg) : Dev :=
  let s := g.inst
  match g.blk with
  | .prt => d.setPort s {}
  | .sds => d.setOctet s ((d.octet s).kept true)
  | .drl => d.modLink s fun l => { session := l.session + 1, removed := l.removed, gone := l.gone, withdrawn := l.withdrawn }
  | .ovn =>
    let d := d.flushSources s
    { d with core := { d.core with bankCe := d.core.bankCe.filter (fun e => e.1 / 16 ≠ s), startBank := d.core.startBank.filter fun e => e.1 ≠ s } }
  | .slc => { d with core := { d.core with lastExp := d.core.lastExp.filter (fun e => e.1 ≠ 128 + s),
                                           lastSrc := d.core.lastSrc.filter (fun e => e.1 < 1024 || (e.1 - 1024) / 3 ≠ s) } }
  | .arb => { d with core := { d.core with slotUe := d.core.slotUe.filter (· / 128 ≠ s), reqBad := d.core.reqBad.filter (· / 16 ≠ s),
                                           lastReloc := d.core.lastReloc.filter (· / 16 ≠ s), rrDest := d.core.rrDest.filter fun e => e.1 / 16 ≠ s } }
  | .dir =>
    let d := (d.home s).txns.foldl (fun d t => d.failTxn t) d
    let d := (d.failWaits s fun _ => true).raiseDue
    { d with coh := { d.coh with dir := d.coh.dir.filter (fun e => e.1 / 16384 ≠ s), dirLru := d.coh.dirLru.filter (fun e => e.1 / 16384 ≠ s),
                                 homes := SMap.set {} d.coh.homes s { disabledWays := (d.home s).disabledWays, suspectSets := (d.home s).suspectSets } } }
  | .scc =>
    let d := d.setBlocks s true 0
    { d with coh := { d.coh with scc := d.coh.scc.filter (fun e => e.1 / 4096 ≠ s), sccLru := d.coh.sccLru.filter (fun e => e.1 / 4096 ≠ s) } }
  | .tray =>
    let d := d.setBlocks s false 0
    let d := d.dropWaits (fun e => portSlice e.port = s) true
    let d := (d.coh.tray.filter fun e => portSlice e.port = s).foldl (fun d e => d.trayFree e.id) d
    { d with coh := { d.coh with cmb := d.coh.cmb.filter (fun c => portSlice c.port ≠ s), drains := d.coh.drains.filter fun x => portSlice x.port ≠ s } }
  | .dec =>
    { d with coh := { d.coh with fenced := d.coh.fenced.filter (· / 32 / 8 ≠ s), removed := d.coh.removed.filter (· / 128 / 8 ≠ s),
                                 unbinding := d.coh.unbinding.filter (· / 128 / 8 ≠ s),
                                 removals := d.coh.removals.filter fun r => !r.vppbs.any (· / 1024 = s) } }
  | .tag =>
    { d with prot := { d.prot with tagCache := d.prot.tagCache.filter (fun e => e.1 / 4096 ≠ s), tagLru := d.prot.tagLru.filter (fun e => e.1 / 4096 ≠ s),
                                   tagErr := d.prot.tagErr.filter (fun e => e.1 / 2 ^ 27 ≠ s) } }
  | .pol => { d with traf := { d.traf with meters := d.traf.meters.filter fun e => e.1 / 128 ≠ s } }
  | .egs =>
    let d : Dev := { d with traf := { d.traf with shapers := d.traf.shapers.filter fun e => e.1 / 8 ≠ s } }
    let d : Dev := { d with core := { d.core with lastSrc := d.core.lastSrc.filter (fun e => 1024 ≤ e.1 || e.1 / 8 ≠ s),
                                                  lastExp := d.core.lastExp.filter (fun e => e.1 ≠ s) } }
    d.setEgress s { d.egress s with def_ := [], cptr := 7, eptr := 7 }
  | .gte => d.setEgress s { d.egress s with gateHeld := [], switchAt := none, gateOn := false }
  | _ => d

/-- The instance, its page's registers and its tables return to reset values, but for what R50 keeps. (DESIGN CHOICE, log entry 21) -/
def Dev.blockReset (d : Dev) (g : Pg) : Dev :=
  let keep (a : Nat) : Bool :=
    a < g.addr || g.addr + 4096 ≤ a || List.contains [0x020, 0x028, 0x048, 0x050] (a - g.addr) || keptAddr a ||
      (g.blk = .ovn && a - g.addr = 0x1D0)
  let mine (k : Nat) : Bool := g.tables.contains (keyTab k)
  let was := g.blk = .sds && d.x16 g.inst
  let d := d.blockClear g
  let d : Dev := { d with
    regs := d.regs.filter fun e => keep e.1, shadow := d.shadow.filter fun e => keep e.1, prev := d.prev.filter fun e => keep e.1,
    snap := d.snap.filter fun e => e.1 < g.addr || g.addr + 4096 ≤ e.1,
    tabs := d.tabs.filter fun e => !mine e.1, tabSh := d.tabSh.filter fun e => !mine e.1, tabPrev := d.tabPrev.filter fun e => !mine e.1,
    tabUe := d.tabUe.filter fun k => !mine k, tabUeSh := d.tabUeSh.filter fun k => !mine k,
    tabUePrev := d.tabUePrev.filter fun k => !mine k, tabUeSeen := d.tabUeSeen.filter fun k => !mine k,
    flt := { d.flt with levels := d.flt.levels.filter fun e => e.1 / 16 ≠ g.addr / 4096 },
    ctl := { d.ctl with written := d.ctl.written.filter fun k => !mine k, resets := d.ctl.resets ++ [g] } }
  let d := if g.blk = .sds then (d.sdsPages g.inst).pairGo g.inst was else d
  d.putBusy g true

/-- BRST is written (R50, R682). -/
def Dev.blockResetReq (d : Dev) (g : Pg) : Dev :=
  if !d.avail g then d.cmtRefuse g 6
  else if d.on (PGEPOCH_PEND g.blk) g.inst || d.on (PGSTAT_BUSY g.blk) g.inst then d.cmtRefuse g 1
  else if d.locked g then d.cmtRefuse g 2
  else if d.enabled g then d.cmtRefuse g 4
  else d.blockReset g

/-! ## PGCTL (R682) -/

/-- One write of PGCTL: its bits ENABLE (none: not written), DISCARD, BRST, COMMIT and FORCE. -/
def Dev.pgctl (d : Dev) (g : Pg) (enable : Option Bool) (discard brst commit force : Bool) : Dev :=
  if d.prtMute g 0x018 then d
  else
    let d := match enable with
      | some true => d.enableSet g
      | some false => d.enableClear g
      | none => d
    let d := if discard then d.unshadow g else d
    let d := if brst then d.blockResetReq g else d
    if commit then d.commitReq g force else d

/-! ## The fault block (R513, R600, R610, R611, R617) -/

/-- The cause of source n of a page is still present (R13, R611): a persisting event, or the state a source reports. (DEDUCED, log entry 77) -/
def Dev.causeOn (d : Dev) (g : Pg) (n : Nat) : Bool :=
  let i := g.inst
  d.flt.persist.contains (fkey g n) || match g.blk with
  | .ckr => (n = CKR_F_LEVAIN_UNLOCK.num && !d.on CKR_STAT_LEVAIN_LOCK) || (n = CKR_F_REFCLK_LOSS.num && !d.on CKR_STAT_REFCLK_OK)
  | .tmb => n = TMB_F_HOLDOVER.num && d.on TMB_STAT_HOLDOVER
  | .ldr => (n = LDR_F_THERM_HOT.num && d.ldr.throttled.contains i) || (n = LDR_F_CONFIG.num && d.get LDR_CHSTAT_STATE i = 5)
  | .tbl => n = TBL_F_OVR.num && d.on TBL_STAT_OVR i
  | .sec => (n = SEC_F_TRNG_FAIL.num && !d.on SEC_STAT_TRNG_OK) || (n = SEC_F_DBG_UNLOCKED.num && d.on SEC_STAT_DBG)
  | .drl => (n = DRL_F_CONFIG_MISMATCH.num && (d.link i).mismatch) || (n = DRL_F_CREDIT_STALL.num && !(d.link i).stall.isEmpty)
  | .spu => n = SPU_F_VIN_WINDOW.num && d.on SPU_STAT_PRSNT i && !d.vinOk i (d.get SPU_MEAS_VIN i)
  | .dev => n = DEV_F_EPOCH_WAIT.num && d.oldestEpoch ≠ d.epoch
  | .arb => n = ARB_F_AGE_SAT.num && (List.range 16).any fun r => d.on ARB_REQ_VALID i r && d.get ARB_REQ_AGE i r = 1023
  | .slc => n = SLC_F_VOQ_FULL.num && d.core.full.any fun k => k < 1000 && srcSlice k = i
  | .tray => n = TRY_F_TRAY_FULL.num && d.core.full.any fun k => k / 1000 = 1 && srcSlice (k - 1000) = i
  | .sds => n = SDS_F_LANE_DEGRADED.num && (List.range 9).any fun l => d.on SDS_HEALTH_DEGRADED i l
  | _ => false

/-- FLT_STATUS bits are acknowledged; a cause that is still present sets its bit again and keeps its level. -/
def Dev.fltClear (d : Dev) (g : Pg) (mask : Nat) : Dev :=
  (List.range 16).foldl (fun d n =>
    let st := d.get (FLT_STATUS_STATUS g.blk) g.inst
    if bit mask n && bit st n && !d.causeOn g n then
      let d : Dev := { d with flt := { d.flt with levels := SMap.set 0 d.flt.levels (fkey g n) 0 } }
      d.put (FLT_STATUS_STATUS g.blk) g.inst (st - 2 ^ n)
    else d) d

/-- FLT_MASK and FLT_SEV may be written. -/
def Dev.fltOpen (d : Dev) (g : Pg) : Bool := if g.lockable then !d.locked g else !d.allLocked

def Dev.fltMaskSet (d : Dev) (g : Pg) (v m : W64) : Dev :=
  if !d.fltOpen g then d else d.setWord (FLT_MASK g.blk) g.inst (mergeMask (Nat.land m.toNat 0xFFFF) (d.word (FLT_MASK g.blk) g.inst) v)

/-- The severity source n stores. -/
def storedSev (b : Blk) (n v : Nat) : Nat := if b.faults.any (fun f => f.num = n && f.attr) then min v 3 else min v 4

def Dev.fltSevSet (d : Dev) (g : Pg) (v m : W64) : Dev :=
  if !d.fltOpen g then d
  else
    let w := mergeMask (Nat.land m.toNat (2 ^ 48 - 1)) (d.word (FLT_SEV g.blk) g.inst) v
    let sev (n : Nat) : Nat := bits w (3 * n) 3
    let stored := (List.range 16).foldl (fun a n => a + storedSev g.blk n (sev n) * 2 ^ (3 * n)) 0
    let capped := (List.range 16).any fun n => sev n ≥ 4 && storedSev g.blk n (sev n) = 3
    let d := d.setWord (FLT_SEV g.blk) g.inst (BitVec.ofNat 64 stored)
    if capped then d.raise FAG_F_SEV_CAPPED 0 else d

/-- Sources that are checkers. (DEDUCED, log entry 23) -/
def Blk.checkers : Blk → List Nat
  | .ldr => [0, 1, 2, 3]
  | .ovn => [OVN_F_CE.num, OVN_F_UE_DATA.num, OVN_F_UE_SIDEBAND.num, OVN_F_LIST_LOST.num]
  | .dir => [DIR_F_CE.num, DIR_F_UE.num]
  | .scc => [SCC_F_CE.num, SCC_F_UE_CLEAN.num, SCC_F_UE_DIRTY.num, SCC_F_TAG_UE.num]
  | .tray => [TRY_F_CE.num, TRY_F_UE.num]
  | .tag => [TAG_F_CE.num, TAG_F_CACHE_UE.num]
  | .arb => [ARB_F_SLOT_UE.num, ARB_F_REQ_PARITY.num]
  | .slc => [SLC_F_XBAR_PARITY.num]
  | .dec => [DEC_F_TABLE_UE.num]
  | .egs => [EGS_F_TABLE_UE.num]
  | .pol => [POL_F_TABLE_UE.num]
  | .acu => [ACU_F_TABLE_UE.num]
  | .gte => [GTE_F_LIST_UE.num]
  | .dmv => [DMV_F_CTX_UE.num, DMV_F_ENGINE_UE.num]
  | .tbl => [TBL_F_UE.num]
  | .prt => [PRT_F_FLIT_ERR.num]
  | .drl => [DRL_F_TAIL_BAD.num, DRL_F_BLOCK_UNCORR.num]
  | .fag => [FAG_F_PATH_PARITY.num]
  | _ => []

def Dev.fltInjectWord (d : Dev) (g : Pg) (v m : W64) : Dev :=
  d.setWord (FLT_INJECT g.blk) g.inst (mergeMask (Nat.land m.toNat 0x3FF0F) (d.word (FLT_INJECT g.blk) g.inst) v)

/-- FLT_INJECT written: ARM stays only for a source that is a checker (R617). (DEDUCED, log entry 23) -/
def Dev.fltInjectSet (d : Dev) (g : Pg) (v m : W64) : Dev :=
  if d.allLocked then d
  else
    let d := d.fltInjectWord g v m
    if g.blk.checkers.contains (d.get (FLT_INJECT_SOURCE g.blk) g.inst) then d else d.put (FLT_INJECT_ARM g.blk) g.inst 0

def Dev.fltCountClr (d : Dev) (g : Pg) : Dev := (d.put (FLT_COUNT_EVENTS g.blk) g.inst 0).put (FLT_COUNT_ESCALATIONS g.blk) g.inst 0

/-! ## Table windows (R58 to R62) -/

def Dev.tblBusy (d : Dev) (w : Nat) : Bool := d.on TBL_STAT_BUSY w

/-- A window is written while BUSY: ignored, OVR sets, and OVR is raised once (R684). -/
def Dev.tblOvr (d : Dev) (w : Nat) : Dev :=
  if d.on TBL_STAT_OVR w then d else (d.put TBL_STAT_OVR w 1).raise TBL_F_OVR w

/-- Window w begins an operation on what TBL_SEL names. (DESIGN CHOICE, log entry 18) -/
def Dev.tblBegin (d : Dev) (w op : Nat) (inc : Bool) : Dev :=
  let t : TblOp := { op := op, table := d.get TBL_SEL_TABLE w, inst := d.get TBL_SEL_INST w, index := d.get TBL_SEL_INDEX w,
                     view := d.on TBL_SEL_VIEW w, inc := inc }
  { d with ctl := { d.ctl with tblOps := SMap.set none d.ctl.tblOps w (some t) } }.put TBL_STAT_BUSY w 1

/-- TBL_CMD is written. -/
def Dev.tblCmd (d : Dev) (w op : Nat) (inc : Bool) : Dev :=
  if d.tblBusy w then d.tblOvr w
  else if op % 8 = 0 then d
  else d.tblBegin w (op % 8) inc

/-- ERR of an operation that has ended; `ue`: the entry read is uncorrectable. (DESIGN CHOICE, log entry 18) -/
def Dev.tblErr (d : Dev) (t : TblOp) (ue : Bool) : Nat :=
  if t.op ≥ 4 then 6
  else match tabInfo t.table with
    | none => 1
    | some ti =>
      let wr := t.op ≠ 1
      if t.table = 0x07 && !(d.ldr.up && d.on LDR_CARVE_TAG_EN) then 1
      else if t.table = 0x0D && !d.ldr.up then 1
      else if t.inst ≥ ti.insts then 2
      else if t.index ≥ ti.entries then 3
      else if wr && ti.lockable && d.locked (tabOwner t.table t.inst) then 4
      else if wr && t.view then 7
      else if wr && t.table = 0x0D && d.q (t.index / 2) cState = qEnabled then 7
      else if !wr && (ue || (if t.view then d.tabBad t.table t.inst t.index else d.tabUeSh.contains (tkey t.table t.inst t.index 0))) then 5
      else 0

/-- The target's link is up: the Larder is, or its device can be reached. (DESIGN CHOICE, log entry 19) -/
def Dev.tgtUp (d : Dev) (t : Tgt) : Bool :=
  if t.dev ≠ d.myId then
    (if t.larder then (List.range 16).any fun s => d.reach.contains (128 * t.dev + 8 * s) else d.reach.contains (128 * t.dev + t.port))
  else if t.larder then d.ldr.up else d.on PRT_STAT_DL_ACTIVE t.port

/-- STATUS of a binding (Table 9-1). (DESIGN CHOICE, log entry 19) -/
def Dev.bindStatus (d : Dev) (u v : Nat) : Nat :=
  let b := d.bindNow u v
  if b.kind = 0 then (if d.coh.unbinding.contains (u * 128 + v) then 4 else 0)
  else if d.coh.removed.contains (u * 128 + v) then 3
  else match b.tgt with
    | none => 2
    | some t => if d.tgtUp t then 1 else 2

/-- Writable bits of word i of a context half: 0 to 7 the host half, 8 to 15 the owner half (Table 14-2). -/
def ctxMask (i : Nat) : Nat :=
  match i with
  | 0 | 1 => 2 ^ 64 - 1
  | 2 => 2 ^ 25 - 1
  | 8 => 2 ^ 49 - 2 ^ 16 + 0x3FF
  | 9 => 2 ^ 12 - 1
  | _ => 0

/-- Word i of the entry that an operation reads. -/
def Dev.tblWord (d : Dev) (t : TblOp) (i : Nat) : W64 :=
  if t.table = 0x07 then d.lword (d.tagBase + 8 * t.index)
  else if t.table = 0x0D then d.ctxW (t.index / 2) (8 * (t.index % 2) + i)
  else if t.table = 0x0E then d.tab 0x0E 0 t.index i
  else if !t.view then mergeMask (tabMask t.table i) 0 (d.tabS t.table t.inst t.index i)
  else
    let w := d.tab t.table t.inst t.index i
    if t.table = 0x03 && i = 0 then setBits w 32 3 (d.bindStatus t.inst t.index)
    else if t.table = 0x0A && i = 3 then
      let x := d.meter t.inst t.index
      BitVec.ofNat 64 (x.tc % 2 ^ 32 + x.tp % 2 ^ 32 * 2 ^ 32)
    else if t.table = 0x0B && i = 3 then
      let x := d.shaper t.inst t.index
      BitVec.ofNat 64 (ofSigned 32 x.ctok + ofSigned 32 x.ptok * 2 ^ 32)
    else w

/-- Word i of an entry is written. -/
def Dev.tblPut (d : Dev) (t : TblOp) (i : Nat) (v : W64) : Dev :=
  if t.table = 0x07 then (d.setLword (d.tagBase + 8 * t.index) v).tagInvalidate t.index
  else if t.table = 0x0D then
    let k := 8 * (t.index % 2) + i
    d.setCtxW (t.index / 2) k (mergeMask (ctxMask k) (d.ctxW (t.index / 2) k) v)
  else if t.table = 0x0E then d.setTab 0x0E 0 t.index i (mergeMask (tabMask 0x0E i) 0 v)
  else d.setTabS t.table t.inst t.index i (mergeMask (tabMask t.table i) (d.tabS t.table t.inst t.index i) v)

/-- Window w has written an entry of an on-chip table: its check bits are good, or inverted by an injection armed at the page
that reports the table, or at the window (R617). (DESIGN CHOICE, log entry 24) -/
def Dev.tblCheckBits (d : Dev) (w : Nat) (t : TblOp) : Dev :=
  let k := tkey t.table t.inst t.index 0
  let (a, d) := match tabUeSrc t.table t.inst with
    | some (s, i) => d.injectAt s.blk i [s.num] none
    | none => (none, d)
  let (b, d) := d.injectAt .tbl w [TBL_F_UE.num] none
  { d with tabUeSh := d.tabUeSh.filter (· ≠ k) ++ (if a.isSome || b.isSome then [k] else []) }

/-- What the operation does when it is not refused. (DESIGN CHOICE, log entry 18) -/
def Dev.tblDo (d : Dev) (w : Nat) (t : TblOp) : Dev :=
  match tabInfo t.table with
  | none => d
  | some ti =>
    if t.op = 1 then (List.range ti.words).foldl (fun d i => d.setWord TBL_DATA w (d.tblWord t i) i) d
    else
      let d := (List.range ti.words).foldl (fun d i => d.tblPut t i (if t.op = 2 then d.word TBL_DATA w i else 0)) d
      let k := tkey t.table t.inst t.index 0
      let d := if t.table = 0x07 || t.table = 0x0D then d else d.tblCheckBits w t
      if ti.shadowed then { d with ctl := { d.ctl with written := if d.ctl.written.contains k then d.ctl.written else d.ctl.written ++ [k] } } else d

/-- INC: the index moves on. -/
def Dev.tblStep (d : Dev) (w : Nat) (t : TblOp) : Dev :=
  if t.inc then d.put TBL_SEL_INDEX w (d.get TBL_SEL_INDEX w + 1) else d

/-- ERR and BUSY of window w; commits that waited for the operation go on. -/
def Dev.tblEnd (d : Dev) (w e : Nat) : Dev :=
  let d := (d.put TBL_STAT_ERR w e).put TBL_STAT_BUSY w 0
  let d : Dev := { d with ctl := { d.ctl with
    tblOps := SMap.set none d.ctl.tblOps w none, commits := d.ctl.commits.map fun c => { c with waits := c.waits.filter (· ≠ w) } } }
  let d := if e = 0 then d else d.irq 3
  (d.ctl.commits.map (·.pg)).foldl (fun d g => d.commitPoll g) d

/-- The operation of window w ends (R59). -/
def Dev.tblDone (d : Dev) (w : Nat) (ue : Bool) : Dev :=
  match SMap.get none d.ctl.tblOps w with
  | none => d
  | some t =>
    let e := d.tblErr t ue
    let d := if e = 0 then (d.tblDo w t).tblStep w t else d
    let d := if e = 5 then ((List.range 8).foldl (fun d i => d.setWord TBL_DATA w 0 i) d).raise TBL_F_UE w else d
    d.tblEnd w e

/-! ## Lease locks (R65, R66) -/

/-- The lock is held by the path with the tag. -/
def Dev.lockMine (d : Dev) (path i tag : Nat) : Bool :=
  d.on LCK_STAT_HELD 0 i && d.get LCK_STAT_PATH 0 i = path && d.get LCK_STAT_TAG 0 i = tag

def Dev.lease (d : Dev) (i ms : Nat) : Dev := { d with ctl := { d.ctl with leaseEnd := SMap.set 0 d.ctl.leaseEnd i (d.now + ms * tMs) } }

/-- ACQUIRE in LCK_CMD (R65). (DESIGN CHOICE, log entry 20) -/
def Dev.lockAcquire (d : Dev) (path i tag ms : Nat) : Dev :=
  if d.on LCK_STAT_HELD 0 i || ms = 0 then d
  else (((d.put LCK_STAT_HELD 0 1 i).put LCK_STAT_PATH 0 path i).put LCK_STAT_TAG 0 tag i).lease i ms

/-- RENEW in LCK_CMD (R65). (DESIGN CHOICE, log entry 20) -/
def Dev.lockRenew (d : Dev) (path i tag ms : Nat) : Dev :=
  if !d.lockMine path i tag then d.raise LCK_F_NOT_OWNER 0 else if ms = 0 then d else d.lease i ms

/-- RELEASE in LCK_CMD (R65). (DESIGN CHOICE, log entry 20) -/
def Dev.lockRelease (d : Dev) (path i tag : Nat) : Dev :=
  if !d.lockMine path i tag then d.raise LCK_F_NOT_OWNER 0
  else
    let d : Dev := { d with ctl := { d.ctl with leaseEnd := SMap.set 0 d.ctl.leaseEnd i 0 } }
    (d.put LCK_STAT_HELD 0 0 i).put LCK_STAT_BROKEN 0 0 i

/-- CLR_BROKEN in LCK_CMD (R65). (DESIGN CHOICE, log entry 20) -/
def Dev.lockClr (d : Dev) (path i tag : Nat) : Dev :=
  if !d.lockMine path i tag then d.raise LCK_F_NOT_OWNER 0 else d.put LCK_STAT_BROKEN 0 0 i

/-- LCK_CMD[i] takes a word. -/
def Dev.lockCmd (d : Dev) (path i : Nat) (v : W64) : Dev :=
  let tag := bits v 8 16
  let ms := bits v 24 20
  match bits v 0 3 with
  | 1 => d.lockAcquire path i tag ms
  | 2 => d.lockRenew path i tag ms
  | 3 => d.lockRelease path i tag
  | 4 => d.lockBreak i 3
  | 5 => d.lockClr path i tag
  | _ => d

/-! ## The firmware mailbox (R71) -/

/-- MGT_MBOX_CTL.GO written. (DESIGN CHOICE, log entry 17) -/
def Dev.mboxGo (d : Dev) : Dev := if d.on MGT_MBOX_CTL_BUSY then d else (d.put MGT_MBOX_CTL_GO 0 1).put MGT_MBOX_CTL_BUSY 0 1

/-! ## Relay messages (R567) -/

/-- SEC_OUT takes the next relay message while it holds none. -/
def Dev.relayNext (d : Dev) : Dev :=
  if d.on SEC_RELAY_OUT_V then d
  else match d.sec.relayQ with
    | [] => d
    | (k, b) :: r =>
      let d : Dev := { d with sec := { d.sec with relayQ := r } }
      let d := (List.range 64).foldl (fun d i => d.setWord SEC_OUT 0 (BitVec.ofNat 64 (leNat ((b.drop (8 * i)).take 8))) i) d
      ((d.put SEC_RELAY_LINK 0 k).put SEC_RELAY_OUTLEN 0 (min 512 b.length)).put SEC_RELAY_OUT_V 0 1

/-! ## The command window (chapter 17) -/

/-- The valid bytes of SEC_WIN. (DESIGN CHOICE, log entry 45) -/
def Dev.winBytes (d : Dev) : Bytes :=
  ((List.range 64).flatMap fun i => leBytes 8 (d.word SEC_WIN 0 i).toNat).take (min 512 (d.get SEC_WIN_CTL_LEN))

/-- They become the bytes of the streamed object from OFFSET, when SEC_WIN_CTL is written and at BUNDLE_APPLY (R559). (DESIGN CHOICE, log entry 45) -/
def Dev.winTake (d : Dev) : Dev :=
  let o := d.get SEC_WIN_CTL_OFFSET
  let s := ((List.range d.winBytes.length).zip d.winBytes).foldl (fun m x => SMap.set 0 m (o + x.1) x.2) d.sec.stream
  { d with sec := { d.sec with stream := s } }

/-! ## Registers with effects of their own -/

/-- Writing the fields as their access types state (R12): RW and open RWL at once, RWC in the shadow, W1C and W1S bit by
bit. -/
def Dev.plainWrite (d : Dev) (g : Pg) (x : RegD) (j : Nat) (v m : W64) : Dev :=
  let r := x.reg
  let rw := x.mask fun a => a = .rw || (a = .rwl && !d.locked g)
  let w := mergeMask (Nat.land rw m.toNat) (d.word r g.inst j) v
  let w := w &&& ~~~(v &&& m &&& BitVec.ofNat 64 (x.mask (· = .w1c)))
  let d := d.setWord r g.inst w j
  let sh := Nat.land (x.mask (· = .rwc)) m.toNat
  if sh = 0 then d else d.setShWord r g.inst (mergeMask sh (d.shWord r g.inst j) v) j

/-- PRT_PERST is written: PERST_OUT_N follows, its slot's DELAY counting anew where SLOT, SLOT_EN or DELAY has changed, and a PERST_IN_N newly mapped to the port, or no longer, acts (R142, R143). -/
def Dev.perstWrite (d : Dev) (x : RegD) (p : Nat) (v m : W64) : Dev :=
  let was := d.perstHeld p
  let gate := (d.get PRT_PERST_SLOT p, d.get PRT_PERST_SLOT_EN p, d.get PRT_PERST_DELAY p)
  let d : Dev := d.plainWrite ⟨.prt, p⟩ x 0 v m
  let same : Bool := gate = (d.get PRT_PERST_SLOT p, d.get PRT_PERST_SLOT_EN p, d.get PRT_PERST_DELAY p)
  let d := (if same then d else d.modPort p fun x => { x with perstDelayDone := false }).perstGo
  let now := d.perstHeld p
  let d := if now = was then d else d.put PRT_STAT_PERST_IN p (b2n now)
  if now && !was then d.hostReset p 6 else if was && !now then d.portResetOver p else d

/-- A lane that serves its port is forced OFF: it has failed (R115). -/
def Dev.laneForced (d : Dev) (o l : Nat) : Dev :=
  let used := d.get SDS_LANE_PSTATE o l ≠ psOff
  let d := d.put SDS_LANE_LOCK o 0 l
  let d :=
    if !used then d.put SDS_HEALTH_FAILED o 1 l
    else if d.octMode o = 2 then d.laneFail o l
    else match (d.octPorts o).find? fun p => (d.portLanes p o).contains l with
      | some p =>
        let d := d.laneGone (o, l)
        if d.on PRT_STAT_DL_ACTIVE p then d.narrow p else d
      | none => d.put SDS_HEALTH_FAILED o 1 l
  d.put SDS_LANE_PSTATE o psOff l

/-- SDS_PWR is written: a lane newly forced OFF counts as failed for training and health (R115). -/
def Dev.lanePower (d : Dev) (x : RegD) (o : Nat) (v m : W64) : Dev :=
  let was := d.get SDS_PWR_LANE_OFF o
  let d := d.plainWrite ⟨.sds, o⟩ x 0 v m
  ((List.range 9).filter fun l => d.laneOff o l && !bit was l).foldl (fun d l => d.laneForced o l) d

/-- A register of a page takes the bits of `v` that `m` names, from a path. SEC_CMD is not served here. -/
def Dev.regWrite (d : Dev) (path : Nat) (g : Pg) (x : RegD) (j : Nat) (v m : W64) : Dev :=
  let r := x.reg
  let i := g.inst
  let plain := d.plainWrite g x j v m
  let act (f : Fld) : Bool := bits (v &&& m) f.lo f.width = 1
  let hit (f : Fld) : Bool := bits m f.lo f.width = 2 ^ f.width - 1
  let all : Bool := m = BitVec.allOnes 64
  if d.prtMute g r.off then d
  else if r = PGCTL g.blk then
    d.pgctl g (if hit (PGCTL_ENABLE g.blk) then some (act (PGCTL_ENABLE g.blk)) else none) (act (PGCTL_DISCARD g.blk)) (act (PGCTL_BRST g.blk))
      (act (PGCTL_COMMIT g.blk)) (act (PGCTL_FORCE g.blk))
  else if r = PGLOCK g.blk then (if act (PGLOCK_LOCKED g.blk) then d.lockPage g else d)
  else if r = FLT_STATUS g.blk then d.fltClear g (bits (v &&& m) 0 16)
  else if r = FLT_MASK g.blk then d.fltMaskSet g v m
  else if r = FLT_SEV g.blk then d.fltSevSet g v m
  else if r = FLT_INJECT g.blk then d.fltInjectSet g v m
  else if r = FLT_COUNT g.blk then (if act (FLT_COUNT_CLR g.blk) then d.fltCountClr g else d)
  else if r = CNT_SEL g.blk then
    (d.cntSelSet g (2 * j) (bits v 0 32) (bits m 0 32)).cntSelSet g (2 * j + 1) (bits v 32 32) (bits m 32 32)
  else match g.blk with
  | .tbl =>
    if r = TBL_CMD then d.tblCmd i (bits (v &&& m) 0 3) (act TBL_CMD_INC)
    else if d.tblBusy i && (r = TBL_SEL || r = TBL_DATA) then d.tblOvr i
    else if r = TBL_DATA && (match tabInfo (d.get TBL_SEL_TABLE i) with | some t => j ≥ t.words | none => true) then d
    else plain
  | .lck => if r = LCK_CMD then (if all then d.lockCmd path j v else d) else plain
  | .dev =>
    if r = DEV_CFG_LOCK then (if act DEV_CFG_LOCK_LOCK then d.cfgLock else d)
    else plain
  | .mgt => if r = MGT_MBOX_CTL && act MGT_MBOX_CTL_GO then plain.mboxGo else plain
  | .sds =>
    if r = SDS_EQ_CACHE then d.eqCacheWrite i j v m
    else if r = SDS_HEALTH_CFG then
      let old := (d.octet i).windowCfg.getD (d.word SDS_HEALTH_CFG i).toNat
      plain.setOctet i { plain.octet i with windowCfg := some old }
    else if r = SDS_MARGIN_CTL then
      let d := if act SDS_MARGIN_CTL_GO then plain.marginStart i else plain
      if act SDS_MARGIN_CTL_STOP then d.marginEnd i else d
    else if r = SDS_PWR then d.lanePower x i v m
    else plain
  | .prt =>
    if r = PRT_LINKCTL then
      let d := if act PRT_LINKCTL_HOT_RESET && d.cxlPort i && d.isDown i then d.sendHot i else d
      let d := if act PRT_LINKCTL_RETRAIN then d.toRecovery i else d
      if hit PRT_LINKCTL_DISABLE then (if act PRT_LINKCTL_DISABLE then d.disableOn i else d.disableOff i) else d
    else if r = PRT_PERST then d.perstWrite x i v m
    else plain
  | .drl =>
    if r = DRL_ATTACH then
      let w := mergeMask m.toNat (d.word DRL_ATTACH i) v
      if hit DRL_ATTACH_OCTET then d.drlAttach i (bits w 0 6) (bits w 6 1 = 1) else d
    else if r = DRL_TIME then plain.trackCheck
    else plain
  | .ovn => if r = OVN_RETIRE && act OVN_RETIRE_RETIRE then plain.retireBank i (plain.get OVN_RETIRE_BANK i) else plain
  | .dir => if r = DIR_PEEK_CTL && act DIR_PEEK_CTL_GO then plain.dirPeek i else plain
  | .scc => if r = SCC_FLUSH then (if act SCC_FLUSH_CLEAN then d.sccClean i else d) else plain
  | .ldr =>
    if r = LDR_PPR then (if act LDR_PPR_GO then plain.pprGo i else plain)
    else plain
  | .spu =>
    if r = SPU_CMD then
      match bits (v &&& m) 0 2 with
      | 1 => d.slotOnCmd i
      | 2 => d.slotOffCmd i
      | 3 => d.slotClearFet i (d.get SPU_MEAS_VOUT i)
      | _ => d
    else plain
  | .prf => if r = PRF_CMD then (if act PRF_CMD_MEASURE then d.measStart else d) else plain
  | .sec => if r = SEC_RELAY then plain.relayNext else if r = SEC_WIN_CTL then plain.winTake else if r = SEC_CMD then d else plain
  | .ckr =>
    if r = CKR_INCFG && !(48 ≤ j && j < 64) then d.plainWrite g x j v (m &&& ~~~(BitVec.ofNat 64 (2 ^ 32)))
    else plain
  | .tmb =>
    if r = TMB_SET then (if all then d.timeSet v.toNat else d)
    else if r = TMB_RATE then (if d.get TMB_CFG_ROLE ≥ 2 then d else plain)
    else if r = TMB_CFG then plain.trackCheck
    else plain
  | .crb =>
    if r = CRB_CMD then
      let d := if act CRB_CMD_FIRE then d.crumb 1 else d
      if act CRB_CMD_CLRALL then d.clrAll else d
    else plain
  | .ccl => if r = CCL_CFG then plain.collectCfg (d.on CCL_CFG_EN) else plain
  | .tlm =>
    if r = TLM_RCFG0 then d.ringBase (mergeMask m.toNat (d.ring d.selRing).cfg0 v)
    else if r = TLM_RCFG1 then d.ringCfg (mergeMask m.toNat (d.ring d.selRing).cfg1 v)
    else if r = TLM_RHEAD then (if hit TLM_RHEAD_HEAD then d.ringHead (bits v 0 25) else d)
    else plain
  | _ => plain

/-- DEV_RST written as a register (R574). -/
def Dev.devRstWrite (d : Dev) (path : Nat) (v m : W64) : Dev :=
  if bits m 0 32 ≠ 2 ^ 32 - 1 then d
  else if bits v 24 8 ≠ 0x5A then d.badAccess path 0x170 3 true
  else match bits v 0 3 with
    | 1 => d.bigReq .warm 4 path
    | 2 => d.bigReq .control 4 path
    | 3 => d.sliceReq (bits v 8 10) path
    | 4 => d.domainReq (bits v 8 10) path
    | 5 => d.portReq (bits v 8 10) path
    | _ => d

/-- Mask of an access of `n` bytes at an offset within its 64-bit word, and the value laid there. -/
def halfMask (off n : Nat) : W64 := if n = 8 then BitVec.allOnes 64 else BitVec.ofNat 64 ((2 ^ 32 - 1) * 2 ^ (8 * (off % 8)))
def halfVal (off n v : Nat) : W64 := BitVec.ofNat 64 (v * (if n = 8 then 1 else 2 ^ (8 * (off % 8))))

/-- A write of `n` aligned bytes at an offset of an implemented page (R45, R46). -/
def Dev.pageWrite (d : Dev) (path : Nat) (g : Pg) (off n v : Nat) : Dev :=
  if off ≥ 0x800 then d
  else match g.regAt (off / 8 * 8) with
    | none => d
    | some (x, j) =>
      if x.reg = DEV_RST then d.devRstWrite path (halfVal off n v) (halfMask off n)
      else d.regWrite path g x j (halfVal off n v) (halfMask off n)

/-- An access is accepted by its width and alignment (R44). (DESIGN CHOICE, log entry 16) -/
def okAccess (addr n : Nat) : Bool := (n = 4 || n = 8) && addr % n = 0

end Sys2Proof.Machine
end

