-- ==== Sys2Proof/Machine/Bind.lean ====
section
/-! DEFINITION. The configuration space of vPPBs, loss of an LD, removal notices, hot-plug slots as hosts see them, and the
FM API commands that device firmware serves (chapter 9). -/

namespace Sys2Proof.Machine

/-! ## A vPPB's configuration space (R311, R317, R337, Table 9-4)

The PCIe capability stands at 0x40, so that the Link, Slot Capabilities and Slot registers have the dwords below (log
entry 31). Dwords the spec does not list are the implementation's. -/

/-- The Link Control and Status dword of a vPPB. (PRESUMED, log entry 31) -/
def linkDw : Nat := 0x14
/-- The Slot Capabilities dword of a vPPB. (PRESUMED, log entry 31) -/
def slotCapDw : Nat := 0x15

/-- The vPPB has lost its target, and the invalidations of its lines have not ended (Table 9-3). -/
def Dev.removing (d : Dev) (u v : Nat) : Bool := d.coh.removals.any fun r => r.vppbs.contains (u * 128 + v)

/-- Presence Detect State of a bound vPPB; of one with a slot, the slot's conditioned PRSNT_N. (DESIGN CHOICE, log entry 42) -/
def Dev.vppbPresent (d : Dev) (u v : Nat) : Bool :=
  let b := d.bindNow u v
  if b.kind ≠ 0 && b.slotV then d.on SPU_STAT_PRSNT b.slot
  else d.coh.unbinding.contains (u * 128 + v) || d.removing u v || (b.kind ≠ 0 && !d.coh.removed.contains (u * 128 + v))

/-- Data Link Layer Link Active: the target's link, while an unbind runs as well; it clears as a removal's invalidations have ended. (DESIGN CHOICE, log entry 42) -/
def Dev.vppbLinkUp (d : Dev) (u v : Nat) : Bool :=
  let old := d.bind ((d.get (PGEPOCH_SEQ .dec) (u / 8) + 65535) % 65536) u v
  d.bindStatus u v = 1 || d.removing u v || (d.bindStatus u v = 4 && old.tgt.any d.tgtUp)

/-- What the vPPB reports of Table 4-2 in a dword of its PCI Express capability or of Device Capabilities 3: a Max_Payload_Size of 512
bytes and extended tags, ASPM L1 and no L0s, 10-bit and 14-bit tags (R129): bits and values. (PRESUMED, log entry 31) -/
def vppbCaps (dw : Nat) : Nat × Nat :=
  if dw = 0x11 then (0x27, 0x22)
  else if dw = 0x13 then (0xC00, 0x800)
  else if dw = 0x19 then (0x30000, 0x30000)
  else if dw = Config.dev3Dword then (0x6, 0x6)
  else (0, 0)

/-- A dword of the vPPB's own configuration space. (PRESUMED, log entry 31) -/
def Dev.vppbRead (d : Dev) (u v dw : Nat) : BitVec 32 :=
  let b := d.bindNow u v
  let k := vcfgKey u v dw
  let kept := SMap.get (Config.cfgWord k) d.coh.vcfg k
  if dw = linkDw then (kept &&& ~~~(BitVec.ofNat 32 (2 ^ 29))) ||| BitVec.ofNat 32 (b2n (d.vppbLinkUp u v) * 2 ^ 29)
  else if dw = slotCapDw && b.kind ≠ 0 && b.slotV then BitVec.ofNat 32 (0x62 + b.slot * 2 ^ 19)
  else if dw = slotDw then d.slotWord u v ||| BitVec.ofNat 32 (b2n (d.vppbPresent u v) * 2 ^ 22)
  else if dw = devCtlDw then d.devCtl u v
  else (kept &&& ~~~(BitVec.ofNat 32 (vppbCaps dw).1)) ||| BitVec.ofNat 32 (vppbCaps dw).2

/-- A write of Power Controller Control (R337): 1 is power off. Command Completed sets either way. (DESIGN CHOICE, log entry 42) -/
def Dev.vppbPower (d : Dev) (u v : Nat) (on : Bool) : Dev :=
  let b := d.bindNow u v
  let d := if b.hpHost then (if on then d.slotOnCmd b.slot else d.slotOffCmd b.slot) else d
  let w := d.slotWord u v
  let x := (w &&& ~~~(BitVec.ofNat 32 (2 ^ 10))) ||| BitVec.ofNat 32 (b2n (!on) * 2 ^ 10)
  (d.setSlotWord u v (if b.hpHost then x else w)).slotFlag u v ssCmdDone

/-- A write of Slot Control and Slot Status: changed bits are cleared by writing 1, control bits are kept, and a vPPB with a
slot takes Power Controller Control. -/
def Dev.slotWrite (d : Dev) (u v : Nat) (val : BitVec 32) : Dev :=
  let b := d.bindNow u v
  let flags := BitVec.ofNat 32 (2 ^ ssPowerFault + 2 ^ ssPresence + 2 ^ ssCmdDone + 2 ^ ssDll)
  let old := d.slotWord u v
  let slot : Bool := b.kind ≠ 0 && b.slotV
  let ctl := BitVec.ofNat 32 (if slot then 0x1BFF else 0x1FFF)
  let d := d.setSlotWord u v ((old &&& (if slot then flags ||| 0x400 else flags) &&& ~~~(val &&& flags)) ||| (val &&& ctl))
  if slot then d.vppbPower u v (!val.getLsbD 10) else d

/-- A dword of the vPPB's own configuration space is written. (PRESUMED, log entry 31) -/
def Dev.vppbWrite (d : Dev) (u v dw val : Nat) : Dev :=
  let w := BitVec.ofNat 32 val
  let k := vcfgKey u v dw
  if dw = slotDw then d.slotWrite u v w
  else if dw = devCtlDw then { d with coh := { d.coh with vcfg := SMap.set 0x2810 d.coh.vcfg k (w &&& 0xFFFF) } }
  else if dw = slotCapDw && (d.bindNow u v).kind ≠ 0 && (d.bindNow u v).slotV then d
  else
    let old := SMap.get (Config.cfgWord k) d.coh.vcfg k
    { d with coh := { d.coh with vcfg := SMap.ins d.coh.vcfg k (cfgMerge k old w) } }

/-! ## The HDM Decoder Capability of the upstream switch port (R312)

Its registers have CXL's layout: capability word, global control, then 32 bytes for each decoder (log entry 32). -/

/-- Entries reported as decoders, in ascending order. (PRESUMED, log entry 32) -/
def Dev.hdmList (d : Dev) (u : Nat) : List Hdm := ((List.range 32).map (d.hdmNow u)).filter (·.v)

/-- Code of a number of decoders, and of a number of ways. (PRESUMED, log entry 32) -/
def hdmCount (n : Nat) : Nat :=
  if n ≤ 1 then 0 else if n ≤ 16 then (n + 1) / 2 else 8 + (n - 16 + 3) / 4

/-- Key of a decoder's Error Not Committed bit, among the dwords no configuration access reaches. (PRESUMED, log entry 32) -/
def hdmErrKey (u n : Nat) : Nat := vcfgKey u 0 (2048 + n)

/-- A dword of the vPPB's HDM Decoder Capability. (PRESUMED, log entry 32) -/
def Dev.hdmRead (d : Dev) (u off : Nat) : Nat :=
  let l := d.hdmList u
  if off = 0 then hdmCount l.length + 0x70 + 0x300
  else if off = 4 then 2
  else if off < 0x10 then 0
  else match l[(off - 0x10) / 32]? with
    | none => 0
    | some x =>
      let ways : Nat := if x.mode = 1 then x.ways else 1
      let iw : Nat := if ways = 1 then 0 else if ways = 2 then 1 else 2
      let err := SMap.get 0 d.coh.vcfg (hdmErrKey u ((off - 0x10) / 32))
      match (off - 0x10) % 32 / 4 with
      | 0 => x.lo % 2 ^ 32
      | 1 => x.lo / 2 ^ 32
      | 2 => x.bytes % 2 ^ 32
      | 3 => x.bytes / 2 ^ 32
      | 4 => x.ig + iw * 16 + 2 ^ 8 + 2 ^ 10 + err.toNat * 2 ^ 11 + 2 ^ 12
      | 5 => if ways = 1 then x.tgts.getD 0 0 else ((List.range ways).map fun k => x.tgts.getD k 0 * 256 ^ k).sum
      | _ => 0

/-- A host write: ignored, but for a commit request, which ends in Error Not Committed. (PRESUMED, log entry 32) -/
def Dev.hdmWrite (d : Dev) (u off val : Nat) : Dev :=
  let n := (off - 0x10) / 32
  if off ≥ 0x10 && (off - 0x10) % 32 / 4 = 4 && bit val 9 && n < (d.hdmList u).length then
    { d with coh := { d.coh with vcfg := SMap.set 0 d.coh.vcfg (hdmErrKey u n) 1 } }
  else d

/-! ## CONFIGURATION_REQUEST (R311) -/

/-- A configuration request as it arrives on UPSTREAM port u for vPPB v. -/
def cfgMsg (dev u v off : Nat) (write : Bool) (val : Nat) : Msg :=
  { cls := 0x1, src := u, srcG := dev * 128 + u,
    body := { op := if write then .cfgWr else .cfgRd, addr := off, arg := v, data := if write then leBytes 4 val else [] } }

/-- The completion of such a request: with data for a read, or Unsupported Request. (DESIGN CHOICE, log entry 8) -/
def Dev.cfgAnswer (d : Dev) (m : Msg) (v : Option Nat) : Dev :=
  match v with
  | none => d.replyTo (portSlice m.src) m .ioUr [] false 0
  | some x => d.replyTo (portSlice m.src) m .ioCpl (if m.body.op = .cfgWr then [] else leBytes 4 x) false 0

/-- A request below vPPB v: Unsupported Request on an empty bus, the answer of a Larder LD here, or on to the target by the port's checks,
as a message of class IO_NP and TC 0 (R270 to R272). -/
def Dev.cfgBelow (d : Dev) (m : Msg) (v off : Nat) (write : Bool) (val : Nat) : Dev :=
  match (d.bindNow m.src v).tgt with
  | none => d.cfgAnswer m none
  | some t =>
    if t.larder && t.dev = d.myId then
      let (x, d) := d.ldCfg t.ld off write val
      d.cfgAnswer m (some x)
    else d.pushRel { m with colour := d.preColour m.src 0, ts := d.fab % 2 ^ 32 }

/-- A host's configuration request, one dword. `below` addresses the vPPB's secondary bus; an offset from 4,096 up of the
vPPB's own space is the HDM Decoder Capability of the VCS's upstream port. -/
def Dev.configurationRequestRow (d : Dev) (vcs vppb : Nat) (below : Bool) (off : Nat) (write : Bool) (val : Nat) : Dev :=
  if !d.vcsExists vcs || !d.carries vcs || d.halted then d
  else
    let m := cfgMsg d.myId vcs vppb (off % 4096) write val
    if below then d.cfgBelow m vppb (off % 4096) write val
    else if off ≥ 4096 then
      if write then (d.hdmWrite vcs (off - 4096) val).cfgAnswer m (some 0)
      else d.cfgAnswer m (some (d.hdmRead vcs ((off - 4096) / 4 * 4)))
    else if write then (d.vppbWrite vcs vppb (off / 4) val).cfgAnswer m (some 0)
    else d.cfgAnswer m (some (d.vppbRead vcs vppb (off / 4)).toNat)

/-! ## Loss of an LD and removal notices (R334, R335, R586) -/

/-- An MLD reports LD `ld` lost: Table 9-3 for that LD, and a notice to the fabric. (DEDUCED, log entry 40) -/
def Dev.mldLdLostRow (d : Dev) (p ld : Nat) : Dev :=
  let t : Tgt := ⟨d.myId, false, p, ld⟩
  if !d.isDown p || !d.on PRT_STAT_DL_ACTIVE p || !d.on PRT_STAT_MLD p || !(d.lostTgts p).contains t || d.halted then d
  else ((d.raise PRT_F_SURPRISE_DOWN p (d.portWho p)).removeTargets [t]).removalNotice p ld

/-- The message is the removal notice a command names. (DESIGN CHOICE, log entry 41) -/
def removalHit (dev p ld : Nat) (m : Msg) : Bool :=
  m.srcG / 128 = dev &&
    (if ld ≥ 1024 then m.body.op = .agentRemoved && m.body.agent = ld - 1024
     else m.body.op = .removalNotice && m.body.arg = dev * 128 + p && m.body.ld = ld)

/-- A removal notice is taken by SIE[0]: an LD below 16, 16 for a whole port, or 1024 and up for agent ld − 1024. (DESIGN CHOICE, log entry 41) -/
def Dev.removalNoticeRow (d : Dev) (dev p ld : Nat) : Dev :=
  match (if d.halted then none else d.firstOf 0 (removalHit dev p ld)) with
  | none => d
  | some m =>
    let d := d.setArrived 0 2 ((d.arrivedAt 0 2).erase m)
    if ld ≥ 1024 then d.removeAgent (ld - 1024) false
    else if ld < 16 then d.removeTargets [⟨dev, false, p, ld⟩]
    else d.removeTargets ((List.range 16).map fun l => ⟨dev, false, p, l⟩)

/-- A host writes a vPPB's Power Controller Control: `on` is Power On. -/
def Dev.vppbPowerControlRow (d : Dev) (u vppb : Nat) (on : Bool) : Dev :=
  let b := d.bindNow u vppb
  if !d.vcsExists u || !d.carries u || d.halted || b.kind = 0 || !b.slotV then d else d.vppbPower u vppb on

/-! ## FM API commands (R343, Table 9-5)

Completion codes are CXL's: 0 success, 1 background command started, 2 invalid input (log entry 33). -/

/-- A command reaches device firmware over MCTP, the mailbox or its own path; while firmware does not run it waits (R38). (DESIGN CHOICE, log entry 44) -/
def Dev.fm (d : Dev) (i : Instr) (path : Nat) (f : Dev → Dev) : Dev :=
  if !d.pathOpen path && !(2 ≤ path && path ≤ 4) then d
  else if d.on DEV_READY_FW_RUN then f d
  else { d with ctl := { d.ctl with fmWait := d.ctl.fmWait ++ [i] } }

/-- An FM API command succeeds. (PRESUMED, log entry 33) -/
def Dev.fmOk (d : Dev) (b : Bytes) : Dev := d.emit (.fmResp 0 b)
/-- An FM API command answers Invalid Input. (PRESUMED, log entry 33) -/
def Dev.fmBad (d : Dev) : Dev := d.emit (.fmResp 2 [])

/-- VCS state, its vPPBs from `start`, at most `limit` of them, each with STATUS, GPORT and LD. (PRESUMED, log entry 33) -/
def Dev.vcsInfo (d : Dev) (u start limit : Nat) : Bytes :=
  let vs := ((List.range 128).drop start).take limit
  leBytes 1 u ++ leBytes 1 (b2n (d.vcsExists u)) ++ leBytes 1 u ++ leBytes 1 128 ++
    vs.flatMap fun v =>
      let b := d.bindNow u v
      leBytes 1 (d.bindStatus u v) ++ leBytes 2 b.gport ++ leBytes 1 b.ld

def Dev.getVirtualCxlSwitchInfoRow (d : Dev) (path vcs start limit : Nat) : Dev :=
  d.fm (.getVirtualCxlSwitchInfo path vcs start limit) path fun d => d.fmOk (d.vcsInfo vcs start limit)

/-- Firmware writes an entry's word in the shadow, as a TBL WRITE would. -/
def Dev.fmTab (d : Dev) (t inst index w : Nat) (v : W64) : Dev :=
  let d := d.setTabS t inst index w v
  let k := tkey t inst index 0
  { d with ctl := { d.ctl with written := if d.ctl.written.contains k then d.ctl.written else d.ctl.written ++ [k] } }

/-- The shadow writes and the commit; while a commit runs there the command is refused. -/
def Dev.fmApply (d : Dev) (vcs : Nat) (f : Dev → Dev) : Dev :=
  let g : Pg := ⟨.dec, vcs / 8⟩
  let d := f d
  if d.on (PGEPOCH_PEND .dec) g.inst || d.on (PGSTAT_BUSY .dec) g.inst then (d.commitReq g false).fmBad
  else
    let d : Dev := { d with ctl := { d.ctl with bg := d.ctl.bg ++ [g] } }
    let d := d.commitReq g false
    if d.ctl.bg.contains g then d.emit (.fmResp 1 []) else d

/-- Firmware commits the DEC page of a VCS after shadow writes `f`: the command goes on in the background until APPLIED sets
or the commit is refused. (DESIGN CHOICE, log entry 43) -/
def Dev.fmCommit (d : Dev) (vcs : Nat) (f : Dev → Dev) : Dev :=
  let g : Pg := ⟨.dec, vcs / 8⟩
  if d.locked g then d.fmBad else d.fmApply vcs f

/-- A binding word for a target: `ld` below 16 an LD of an MLD on port `tgt`, 16 to 31 a Larder LD, else the port. (DESIGN CHOICE, log entry 43) -/
def bindWord (dev tgt ld : Nat) (old : W64) : W64 :=
  let kind := if ld < 16 then 2 else if ld < 32 then 3 else 1
  let gport := dev * 128 + (if kind = 3 then 0 else tgt)
  setBits (setBits (setBits old 0 2 kind) 2 11 gport) 13 4 (if ld < 32 then ld % 16 else 0)

/-- BIND_VPPB (Table 9-8). (DESIGN CHOICE, log entry 43) -/
def Dev.bindVppbRow (d : Dev) (path vcs vppb tgt ld : Nat) : Dev :=
  d.fm (.bindVppb path vcs vppb tgt ld) path fun d => d.fmCommit vcs fun d => d.fmTab 0x03 vcs vppb 0 (bindWord d.myId tgt ld (d.tabS 0x03 vcs vppb 0))

/-- The shadow decoder entries that name a vPPB lose V (R332). (DESIGN CHOICE, log entry 43) -/
def Dev.fmUnmap (d : Dev) (u v : Nat) : Dev :=
  (List.range 32).foldl (fun d i =>
    let x := hdmOf (d.tabS 0x04 u i 0) (d.tabS 0x04 u i 1) (d.tabS 0x04 u i 2)
    if x.v && (x.tgts.take x.ways).contains v then d.fmTab 0x04 u i 0 (setBits (d.tabS 0x04 u i 0) 0 1 0) else d) d

/-- Options 0 and 1 unbind orderly, option 2 by surprise. (DESIGN CHOICE, log entry 43) -/
def Dev.unbindVppbRow (d : Dev) (path vcs vppb option : Nat) : Dev :=
  d.fm (.unbindVppb path vcs vppb option) path fun d =>
    if option > 2 then d.fmBad
    else d.fmCommit vcs fun d =>
      let w := d.tabS 0x03 vcs vppb 0
      (d.fmTab 0x03 vcs vppb 0 (setBits (setBits w 0 2 0) 25 2 (if option = 2 then 1 else 0))).fmUnmap vcs vppb

def Dev.generateAerEventRow (d : Dev) (path vcs vppb err : Nat) : Dev :=
  d.fm (.generateAerEvent path vcs vppb err) path fun d => if d.vcsExists vcs then (d.emit (.aer vcs vppb err)).fmOk [] else d.fmBad

/-- A bitmap of the ports that satisfy `p`. -/
def portMap (p : Nat → Bool) : Bytes := leBytes 16 (packBits 128 p)

/-- Port and VCS counts and maps, vPPBs, bound vPPBs, decoders. (PRESUMED, log entry 33) -/
def Dev.switchReport (d : Dev) : Bytes :=
  let n := ((List.range 128).filter d.vcsExists).length
  leBytes 1 128 ++ leBytes 1 n ++ portMap (fun p => d.on PRT_STAT_DL_ACTIVE p) ++ portMap d.vcsExists ++
    leBytes 2 (128 * n) ++ leBytes 2 d.boundAll.length ++ leBytes 1 32

def Dev.identifySwitchDeviceRow (d : Dev) (path : Nat) : Dev :=
  d.fm (.identifySwitchDevice path) path fun d => d.fmOk d.switchReport

/-- Port number, PRT_CFG, PRT_STAT and the SDS_STAT of its octet. (PRESUMED, log entry 33) -/
def Dev.portReport (d : Dev) (p : Nat) : Bytes :=
  leBytes 1 p ++ leBytes 8 (d.word PRT_CFG p).toNat ++ leBytes 8 (d.word PRT_STAT p).toNat ++
    leBytes 8 (d.readReg ⟨.sds, portOctet p⟩ SDS_STAT.off).toNat

def Dev.getPhysicalPortStateRow (d : Dev) (path : Nat) (ports : List Nat) : Dev :=
  d.fm (.getPhysicalPortState path ports) path fun d => if ports.all (· < 128) then d.fmOk (ports.flatMap d.portReport) else d.fmBad

/-- Operations 0 and 1 set and clear PRT_LINKCTL.DISABLE, 2 is a Port reset, 3 RETRAIN, 4 HOT_RESET. -/
def Dev.physicalPortControlRow (d : Dev) (path p op : Nat) : Dev :=
  d.fm (.physicalPortControl path p op) path fun d =>
    match op with
    | 0 => (d.disableOn p).fmOk []
    | 1 => (d.disableOff p).fmOk []
    | 2 => (d.portReq p path).fmOk []
    | 3 => (d.toRecovery p).fmOk []
    | 4 => (if d.cxlPort p && d.isDown p then d.sendHot p else d).fmOk []
    | _ => d.fmBad

/-- Firmware's configuration request leaves from the internal endpoint of the port's slice. -/
def Dev.fwCfgOut (d : Dev) (p ld off : Nat) (write : Bool) (val : Nat) : Dev :=
  let s := portSlice p
  let m := cfgMsg d.myId (128 + s) 0 off write val
  d.pushRel { m with srcG := d.myId * 128 + 8 * s, dst := d.myId * 128 + p, ready := true, ts := d.fab % 2 ^ 32, epoch := d.epoch, body := { m.body with ld := ld } }

/-- A configuration request of firmware goes to port p, LD `ld` of an MLD; its completion answers the command. A port number
from 128 up names the Larder. -/
def Dev.sendLdCxlIoConfigRequestRow (d : Dev) (path p ld off : Nat) (write : Bool) (val : Nat) : Dev :=
  d.fm (.sendLdCxlIoConfigRequest path p ld off write val) path fun d =>
    if p ≥ 128 then
      let (x, d) := d.ldCfg ld off write val
      d.fmOk (if write then [] else leBytes 4 x)
    else if !d.isDown p || !d.carries p || d.halted then d.fmBad
    else (d.fwCfgOut p ld off write val).emit (.fmResp 1 [])

/-- The payload goes to the MLD on port p. (DESIGN CHOICE, log entry 44) -/
def Dev.tunnelOut (d : Dev) (p : Nat) (payload : Bytes) : Dev :=
  let s := portSlice p
  let m : Msg := { cls := 0x0, src := 128 + s, srcG := d.myId * 128 + 8 * s, dst := d.myId * 128 + p, ready := true, ts := d.fab % 2 ^ 32,
                   epoch := d.epoch, body := { op := .ioMsg, data := payload } }
  d.pushRel { m with len := m.lenOf }

/-- What the other end answers: free bytes. (DESIGN CHOICE, log entry 44) -/
def Dev.tunnelAnswer (d : Dev) : Dev :=
  let n := d.fresh
  let b := n.2.freshBytes (n.1 % 1024)
  b.2.fmOk b.1

/-- A management command goes to an MLD's port, or to the Larder; what the other end answers the spec does not state. -/
def Dev.tunnelManagementCommandRow (d : Dev) (path p : Nat) (payload : Bytes) : Dev :=
  d.fm (.tunnelManagementCommand path p payload) path fun d =>
    if p ≥ 128 then d.tunnelAnswer
    else if !d.isDown p || !d.carries p || !d.on PRT_STAT_MLD p || d.halted then d.fmBad
    else (d.tunnelOut p payload).tunnelAnswer

/-- A command that waited is served. -/
def Dev.fmServe (d : Dev) (i : Instr) : Dev :=
  match i with
  | .getVirtualCxlSwitchInfo path vcs start limit => d.getVirtualCxlSwitchInfoRow path vcs start limit
  | .bindVppb path vcs vppb tgt ld => d.bindVppbRow path vcs vppb tgt ld
  | .unbindVppb path vcs vppb option => d.unbindVppbRow path vcs vppb option
  | .generateAerEvent path vcs vppb err => d.generateAerEventRow path vcs vppb err
  | .identifySwitchDevice path => d.identifySwitchDeviceRow path
  | .getPhysicalPortState path ports => d.getPhysicalPortStateRow path ports
  | .physicalPortControl path p op => d.physicalPortControlRow path p op
  | .sendLdCxlIoConfigRequest path p ld off write val => d.sendLdCxlIoConfigRequestRow path p ld off write val
  | .tunnelManagementCommand path p payload => d.tunnelManagementCommandRow path p payload
  | _ => d

/-- Device firmware runs again: what waited for it is served in the order of arrival (R38, R71). -/
def Dev.fmWake (d : Dev) : Dev := d.ctl.fmWait.foldl Dev.fmServe { d with ctl := { d.ctl with fmWait := [] } }

/-! ## Commands -/

/-- CONFIGURATION_REQUEST (R311). -/
def execConfigurationRequest (vcs : Nat) (vppb : Nat) (below : Bool) (off : Nat) (write : Bool) (val : Nat) (s : State) : Host.Outcome State Fault Refusal :=
  run (decide (vcs < 128) && decide (vppb < 128) && decide (off < 8192)) "CONFIGURATION_REQUEST" s (s.dev.configurationRequestRow vcs vppb below off write val)

/-- MLD_LD_LOST (R334). -/
def execMldLdLost (p : Nat) (ld : Nat) (s : State) : Host.Outcome State Fault Refusal :=
  run (decide (p < 128) && decide (ld < 16)) "MLD_LD_LOST" s (s.dev.mldLdLostRow p ld)

/-- REMOVAL_NOTICE (R335). -/
def execRemovalNotice (dev : Nat) (p : Nat) (ld : Nat) (s : State) : Host.Outcome State Fault Refusal :=
  run (decide (dev < 16) && decide (p < 128)) "REMOVAL_NOTICE" s (s.dev.removalNoticeRow dev p ld)

/-- VPPB_POWER_CONTROL (R337). -/
def execVppbPowerControl (u : Nat) (vppb : Nat) (on : Bool) (s : State) : Host.Outcome State Fault Refusal :=
  run (decide (u < 128) && decide (vppb < 128)) "VPPB_POWER_CONTROL" s (s.dev.vppbPowerControlRow u vppb on)

/-- GET_VIRTUAL_CXL_SWITCH_INFO (R343). -/
def execGetVirtualCxlSwitchInfo (path : Nat) (vcs : Nat) (start : Nat) (limit : Nat) (s : State) : Host.Outcome State Fault Refusal :=
  run (okPath path && decide (vcs < 128) && decide (start < 128)) "GET_VIRTUAL_CXL_SWITCH_INFO" s (s.dev.getVirtualCxlSwitchInfoRow path vcs start limit)

/-- BIND_VPPB (R343). -/
def execBindVppb (path : Nat) (vcs : Nat) (vppb : Nat) (tgt : Nat) (ld : Nat) (s : State) : Host.Outcome State Fault Refusal :=
  run (okPath path && decide (vcs < 128) && decide (vppb < 128) && decide (tgt < 128)) "BIND_VPPB" s (s.dev.bindVppbRow path vcs vppb tgt ld)

/-- UNBIND_VPPB (R343). -/
def execUnbindVppb (path : Nat) (vcs : Nat) (vppb : Nat) (option : Nat) (s : State) : Host.Outcome State Fault Refusal :=
  run (okPath path && decide (vcs < 128) && decide (vppb < 128)) "UNBIND_VPPB" s (s.dev.unbindVppbRow path vcs vppb option)

/-- GENERATE_AER_EVENT (R343). -/
def execGenerateAerEvent (path : Nat) (vcs : Nat) (vppb : Nat) (err : Nat) (s : State) : Host.Outcome State Fault Refusal :=
  run (okPath path && decide (vcs < 128) && decide (vppb < 128)) "GENERATE_AER_EVENT" s (s.dev.generateAerEventRow path vcs vppb err)

/-- IDENTIFY_SWITCH_DEVICE (R343). -/
def execIdentifySwitchDevice (path : Nat) (s : State) : Host.Outcome State Fault Refusal :=
  run (okPath path) "IDENTIFY_SWITCH_DEVICE" s (s.dev.identifySwitchDeviceRow path)

/-- GET_PHYSICAL_PORT_STATE (R343). -/
def execGetPhysicalPortState (path : Nat) (ports : List Nat) (s : State) : Host.Outcome State Fault Refusal :=
  run (okPath path) "GET_PHYSICAL_PORT_STATE" s (s.dev.getPhysicalPortStateRow path ports)

/-- PHYSICAL_PORT_CONTROL (R343). -/
def execPhysicalPortControl (path : Nat) (p : Nat) (op : Nat) (s : State) : Host.Outcome State Fault Refusal :=
  run (okPath path && decide (p < 128)) "PHYSICAL_PORT_CONTROL" s (s.dev.physicalPortControlRow path p op)

/-- SEND_LD_CXL_IO_CONFIG_REQUEST (R343). -/
def execSendLdCxlIoConfigRequest (path : Nat) (p : Nat) (ld : Nat) (off : Nat) (write : Bool) (val : Nat) (s : State) : Host.Outcome State Fault Refusal :=
  run (okPath path && decide (ld < 16) && decide (off < 4096)) "SEND_LD_CXL_IO_CONFIG_REQUEST" s (s.dev.sendLdCxlIoConfigRequestRow path p ld off write val)

/-- TUNNEL_MANAGEMENT_COMMAND (R343). -/
def execTunnelManagementCommand (path : Nat) (p : Nat) (payload : Bytes) (s : State) : Host.Outcome State Fault Refusal :=
  run (okPath path) "TUNNEL_MANAGEMENT_COMMAND" s (s.dev.tunnelManagementCommandRow path p payload)

end Sys2Proof.Machine
end

