-- ==== Sys2Proof/Machine/SecOps.lean ====
section
/-! DEFINITION. Octold's operations: verifying an image, booting it, Corsel bundles, measurements, key exchanges, debug unlock
and the commands of SEC_CMD (chapter 17). -/

namespace Sys2Proof.Machine

/-! ## Results -/

def rcOk : Nat := 0
def rcBadSig : Nat := 1
def rcRollback : Nat := 2
def rcNoKey : Nat := 3
def rcBadFormat : Nat := 4
def rcReplay : Nat := 5
def rcWrongDevice : Nat := 6
def rcNotAllowed : Nat := 7
def rcNoEntropy : Nat := 8
def rcRecordFail : Nat := 9
def rcFuseFail : Nat := 10

def Dev.secCode (d : Dev) (code detail : Nat) : Dev := (d.put SEC_RESULT_CODE 0 code).put SEC_RESULT_DETAIL 0 detail

/-- A SEC command has ended. -/
def Dev.secDone (d : Dev) (code : Nat) (detail : Nat := 0) : Dev := ((d.secCode code detail).put SEC_RESULT_BUSY 0 0).put SEC_RESULT_DONE 0 1

def Dev.entropy (d : Dev) : Bool := d.on SEC_STAT_TRNG_OK
/-- SHA-384 of the customer key, where it is fused. (DESIGN CHOICE, log entry 50) -/
def Dev.custKey (d : Dev) : Option Bytes := (d.sec.fuses.getD {}).cust
def Dev.arc (d : Dev) : Nat := (d.sec.fuses.getD {}).arc

/-! ## Images (R549, R550) -/

def sub (b : Bytes) (off n : Nat) : Bytes := (b.drop off).take n
def leAt (b : Bytes) (off n : Nat) : Nat := leNat (sub b off n)
def zeroAt (b : Bytes) (off n : Nat) : Bool := (sub b off n).all (· = 0)

/-- A manifest that can be read: 512 bytes with its MAGIC and FORMAT, reserved bytes zero, BODY_LEN in range and present. -/
def FlashImageOk (f : FlashImage) : Bool :=
  let m := f.manifest
  m.length = 512 && sub m 0 4 = [0x53, 0x56, 0x54, 0x4D] && leAt m 4 2 = 1 && leAt m 6 1 < 4 && zeroAt m 7 1 && zeroAt m 0xE 2 &&
    zeroAt m 0x18 8 && zeroAt m 0x1D0 48 && 1 ≤ leAt m 0x14 4 && leAt m 0x14 4 ≤ 0x380000 && leAt m 0x14 4 ≤ f.body.length

/-- R550: none where the bank verifies, else the result code of the failing check. (DESIGN CHOICE, log entry 50) -/
def Dev.imageErr (d : Dev) (f : Option FlashImage) : Option Nat :=
  match f with
  | none => some rcBadFormat
  | some f =>
    let m := f.manifest
    if !FlashImageOk f then some rcBadFormat
    else if Config.sha384 (sub m 0x50 96) ≠ Config.romHash (leAt m 6 1) || bit (d.sec.fuses.getD {}).krev (leAt m 6 1) then some rcNoKey
    else if !Config.ecdsaOk (sub m 0x50 96) (Config.sha384 (sub m 0 0x110)) (sub m 0x110 96) then some rcBadSig
    else if d.custKey.any (· ≠ Config.sha384 (sub m 0xB0 96)) then some rcNoKey
    else if d.custKey.isSome && !Config.ecdsaOk (sub m 0xB0 96) (Config.sha384 (sub m 0 0x170)) (sub m 0x170 96) then some rcBadSig
    else if leAt m 0xC 2 < d.arc then some rcRollback
    else if Config.sha384 (f.body.take (leAt m 0x14 4)) ≠ sub m 0x20 48 then some rcBadSig
    else none

def imageOf (bank : Nat) (f : FlashImage) : Image :=
  let m := f.manifest
  { bank := bank, bseq := leAt m 8 4, svn := leAt m 0xC 2, version := leAt m 0x10 4, digest := sub m 0x20 48, custPub := sub m 0xB0 96 }

/-- Device firmware runs, and serves what waited for it (R38). -/
def Dev.fwRun (d : Dev) (x : Image) : Dev :=
  let d : Dev := { d with sec := { d.sec with image := some x, crashed := false } }
  let d := ((d.put SEC_STAT_BOOT 0 1).put SEC_STAT_BANK 0 x.bank).put DEV_READY_FW_RUN 0 1
  ((((d.put MGT_FW_VER_MINOR 0 (x.version % 65536)).put MGT_FW_VER_MAJOR 0 (x.version / 65536)).put MGT_FW_VER_SVN 0 x.svn).put
    MGT_FW_VER_BANK 0 x.bank).fmWake

/-- The image boots; in a Cold start the first Proof measurement begins (Table 18-5). -/
def Dev.boot (d : Dev) (bank : Nat) (f : FlashImage) : Dev :=
  let d := d.fwRun (imageOf bank f)
  if d.rst.kind = .cold && d.rst.phase = .starting then d.measStart else d

/-! ## Measurements (R564) -/

def zeros (n : Nat) : Bytes := List.replicate n 0

/-- Measurement i of Table 17-5 (R564). (DESIGN CHOICE, log entry 53) -/
def Dev.measurement (d : Dev) (i : Nat) : Bytes :=
  match i with
  | 1 => Config.romDigest
  | 2 => (d.sec.image.getD {}).digest
  | 3 => let x := d.sec.image.getD {}
         leBytes 2 x.svn ++ leBytes 4 x.version ++ leBytes 1 x.bank ++ leBytes 4 x.bseq
  | 4 => leBytes 1 d.arc ++ leBytes 1 (d.sec.fuses.getD {}).krev ++ leBytes 1 (d.get SEC_STAT_DBG) ++ d.custKey.getD (zeros 48)
  | 5 => SMap.get (zeros 52) d.sec.meas 5
  | 6 => if d.allLocked then SMap.get (zeros 48) d.sec.meas 6 else zeros 48
  | 7 => if d.locked ⟨.tag, 0⟩ && !(SMap.get [] d.sec.meas 7).isEmpty then SMap.get [] d.sec.meas 7 else zeros 48
  | _ => []

/-- A measurement register takes a digest. (DESIGN CHOICE, log entry 53) -/
def Dev.setMeas (d : Dev) (i : Nat) (b : Bytes) : Dev := { d with sec := { d.sec with meas := SMap.set [] d.sec.meas i b } }

/-- Measurement 7: table 0x07, once TAG[0] is locked. (DESIGN CHOICE, log entry 53) -/
def Dev.meas7 (d : Dev) : Dev :=
  if d.locked ⟨.tag, 0⟩ && d.on LDR_CARVE_TAG_EN then d.setMeas 7 (Config.sha384 (d.lread d.tagBase (2 ^ 30))) else d

/-- The certificate chain of slot 0 carries measurements 1 to 4 (R562). (DESIGN CHOICE, log entry 53) -/
def Dev.chain (d : Dev) : Bytes := Config.certChain ([1, 2, 3, 4].flatMap d.measurement)

/-! ## SPDM (R563) -/

/-- A link session is open in its slot. -/
def Dev.linkHas (d : Dev) (slot : Nat) : Bool := SMap.get 0 d.sec.linkSess slot ≠ 0

/-- A link session opens in its own slot, which never counts against the 32. -/
def Dev.linkOpen (d : Dev) (slot : Nat) : Dev :=
  if d.linkHas slot then d
  else { d with sec := { d.sec with linkSess := SMap.set 0 d.sec.linkSess slot d.sec.nextSession, nextSession := d.sec.nextSession + 1 } }

/-- A session ends, wherever it counts. -/
def Dev.sessionEnd (d : Dev) (id : Nat) : Dev :=
  { d with sec := { d.sec with sessions := d.sec.sessions.filter (· ≠ id), linkSess := d.sec.linkSess.filter fun e => e.2 ≠ id } }

/-- The session is open. -/
def Dev.sessionOpen (d : Dev) (id : Nat) : Bool := d.sec.sessions.contains id || d.sec.linkSess.any fun e => e.2 = id

/-- The capability flags of R563 (CERT, CHAL, MEAS with signature, MEAS_FRESH, ENCRYPT, MAC, KEY_EX) and its algorithms (ECDSA P-384,
SHA-384, secp384r1, AES-256-GCM), at SPDM's bits. (PRESUMED, log entry 52) -/
def spdmCaps : Bytes := leBytes 4 0x2F6
/-- Algorithms of R563 at SPDM's bits. (PRESUMED, log entry 52) -/
def spdmAlgs : Bytes := leBytes 4 0x80 ++ leBytes 4 0x2 ++ leBytes 2 0x10 ++ leBytes 2 0x2

/-- An SPDM ERROR response. (PRESUMED, log entry 52) -/
def Dev.spdmErr (d : Dev) (c : Nat) : Dev := d.emit (.spdm [0x7F, BitVec.ofNat 8 c])

/-- A request is answered; `src` 0 the DOE of the management PF, 1 and 2 the MCTP ports, 16 + p the DOE of the service
endpoint of VCS p. (PRESUMED, log entry 52) -/
def Dev.spdmServe (d : Dev) (src : Nat) (req : Spdm) : Dev :=
  match req with
  | .getVersion => d.emit (.spdm [0x04, 0x12, 0x13])
  | .getCapabilities => d.emit (.spdm (0x61 :: spdmCaps))
  | .algorithms => d.emit (.spdm (0x63 :: spdmAlgs))
  | .getCertificate slot => if slot = 0 then d.emit (.spdm (0x02 :: d.chain)) else d.spdmErr 1
  | .challenge =>
    if !d.entropy then d.spdmErr 5
    else
      let (n, d) := d.freshBytes 32
      d.emit (.spdm (0x03 :: n ++ Config.ecdsaSign (n ++ d.chain)))
  | .getMeasurements i =>
    if !d.entropy then d.spdmErr 5
    else
      let v := if i = 0xFF then [1, 2, 3, 4, 5, 6, 7].flatMap d.measurement else if i = 0 then [7] else d.measurement i
      let (n, d) := d.freshBytes 32
      d.emit (.spdm (0x60 :: v ++ n ++ Config.ecdsaSign (v ++ n)))
  | .keyExchange =>
    if !d.entropy then d.spdmErr 5
    else if 16 ≤ src && src < 144 && !d.linkHas (src - 16) then
      (d.linkOpen (src - 16)).emit (.spdm (0x64 :: leBytes 4 d.sec.nextSession))
    else if d.sec.sessions.length ≥ 32 then d.spdmErr 0x0A
    else
      let id := d.sec.nextSession
      let d : Dev := { d with sec := { d.sec with sessions := d.sec.sessions ++ [id], nextSession := id + 1 } }
      d.emit (.spdm (0x64 :: leBytes 4 id))
  | .endSession id => if d.sessionOpen id then (d.sessionEnd id).emit (.spdm [0x6C]) else d.spdmErr 1
  | .other b =>
    let (r, d) := d.freshBytes (b.length + 1)
    d.emit (.spdm r)

/-- The requests that waited for a bundle are served. -/
def Dev.spdmDrain (d : Dev) : Dev :=
  let l := d.sec.spdmWait
  l.foldl (fun d x => d.spdmServe x.1 x.2) { d with sec := { d.sec with spdmWait := [] } }

/-! ## The window -/

/-- The first n bytes streamed into the SEC window. (PRESUMED, log entry 52) -/
def Dev.streamed (d : Dev) (n : Nat) : Bytes := (List.range n).map fun i => SMap.get 0 d.sec.stream i

/-! ## Corsel bundles (R557 to R560) -/

/-- The page at a BAR0 offset that a record names. -/
def recPage (head : Nat) : Option Pg := Pg.at? (head / 2 ^ 24 % 2 ^ 26)
def recType (head : Nat) : Nat := head % 256
def bunWords (head : Nat) : Nat := head / 256 % 65536

/-- Lengths of a record in words, its head included, by TYPE (Table 17-4). (DESIGN CHOICE, log entry 47) -/
def recLenOk (head : Nat) : Bool :=
  let n := bunWords head
  match recType head with
  | 0x01 => n = 2
  | 0x02 => 4 ≤ n && n ≤ 11
  | 0x03 | 0x04 => n = 1
  | 0x05 => n = 3
  | _ => false

/-- The records of a bundle fill it exactly: `n` records from `off`, ending at `fin`. (DESIGN CHOICE, log entry 47) -/
def recsOk (b : Bytes) : Nat → Nat → Nat → Bool
  | 0, off, fin => off = fin
  | n + 1, off, fin =>
    let h := leAt b off 8
    off < fin && recLenOk h && off + 8 * bunWords h ≤ fin && recsOk b n (off + 8 * bunWords h) fin

def bundleLen (b : Bytes) : Nat := leAt b 0x18 4
def bundleRecs (b : Bytes) : Nat := leAt b 0x1C 2

/-- R558: what a bundle is refused for, in the order of the list there; a bundle whose signature has no place is broken. (DESIGN CHOICE, log entry 47) -/
def Dev.bundleErr (d : Dev) (b : Bytes) : Option Nat :=
  let n := bundleLen b
  let broken := b.length < 160 || sub b 0 4 ≠ [0x43, 0x52, 0x53, 0x4C] || n < 160 || n > b.length
  if d.custKey.isNone then some rcNoKey
  else if broken then some rcBadFormat
  else if !Config.ecdsaOk (d.sec.image.getD {}).custPub (Config.sha384 (b.take (n - 96))) (sub b (n - 96) 96) then some rcBadSig
  else if leAt b 0x10 8 ≠ 0 && leAt b 0x10 8 ≠ Config.serial.toNat then some rcWrongDevice
  else if leAt b 8 4 ≤ d.get SEC_BUNDLE_SEQ then some rcReplay
  else if leAt b 4 2 ≠ 1 || leAt b 6 2 ≥ 4 || !zeroAt b 0xC 4 || !zeroAt b 0x1E 0x22 || !recsOk b (bundleRecs b) 64 (n - 96) then some rcBadFormat
  else none

/-- The first `n` records of a bundle from `off` include one that writes table 0x07. -/
def writesTags (b : Bytes) : Nat → Nat → Bool
  | 0, _ => false
  | n + 1, off =>
    let h := leAt b off 8
    (recType h = 0x02 && h / 2 ^ 50 % 256 = 0x07) || writesTags b n (off + 8 * bunWords h)

/-- Application ends: records applied, and the record that failed. (DESIGN CHOICE, log entry 49) -/
def Dev.bundleEnd (d : Dev) (x : BundleRun) (fail : Bool) : Dev :=
  let seq := leAt x.bytes 8 4
  let d : Dev := { d with sec := { d.sec with bundle := none, stream := [] } }
  let d := (d.put SEC_BUNDLE_SEQ 0 seq).put SEC_BUNDLE_RECORDS 0 x.idx
  let d := if bit (leAt x.bytes 6 2) 0 then d.lockPages x.cleared else d
  let d := if x.boot && bit (leAt x.bytes 6 2) 1 then (d.put SEC_STAT_LOCKBOOT 0 1).cfgLock else d
  let d := (d.setMeas 5 (Config.sha384 (x.bytes.take (bundleLen x.bytes)) ++ leBytes 4 seq)).meas6
  let d := if writesTags x.bytes x.idx 64 then d.meas7 else d
  let d := if fail then d.raise SEC_F_BNDL_FAIL 0 else d
  let code := if fail then rcRecordFail else rcOk
  let det := if fail then x.idx % 65536 else 0
  let d := if x.boot then (({ d with sec := { d.sec with bootBundle := true } } : Dev).secCode code det).put SEC_RESULT_BUSY 0 0 else d.secDone code det
  d.spdmDrain

/-- The next record begins. -/
def Dev.bundleNext (d : Dev) (x : BundleRun) (len : Nat) : Dev :=
  if d.sec.bundle.isNone then d else { d with sec := { d.sec with bundle := some { x with off := x.off + 8 * len, idx := x.idx + 1, wait := 0 } } }

/-- Octold clears the lock of a page before the first record that names it; measurement 7 is zeros again while TAG[0] is
unlocked and until it is computed anew. -/
def Dev.bundleUnlock (d : Dev) (x : BundleRun) (g : Pg) : BundleRun × Dev :=
  if d.locked g then
    let d := d.put (PGLOCK_LOCKED g.blk) g.inst 0
    ({ x with cleared := x.cleared ++ [g] }, if g = ⟨.tag, 0⟩ then d.setMeas 7 [] else d)
  else (x, d)

/-- A TABLE record: the entry takes its words as a TBL WRITE gives them; none where the write would end in an error. (DESIGN CHOICE, log entry 47) -/
def Dev.bundleTable (d : Dev) (g : Pg) (head : Nat) (b : Bytes) (off : Nat) : Option Dev :=
  let t : TblOp := { op := 2, table := head / 2 ^ 50 % 256, inst := leAt b (off + 8) 8, index := leAt b (off + 16) 8 }
  match tabInfo t.table with
  | none => none
  | some ti =>
    if d.tblErr t false ≠ 0 || tabOwner t.table t.inst ≠ g || bunWords head ≠ 3 + ti.words then none
    else
      let d := (List.range ti.words).foldl (fun d i => d.tblPut t i (BitVec.ofNat 64 (leAt b (off + 24 + 8 * i) 8))) d
      let k := tkey t.table t.inst t.index 0
      some (if ti.shadowed then { d with ctl := { d.ctl with written := if d.ctl.written.contains k then d.ctl.written else d.ctl.written ++ [k] } } else d)

/-- A LARDER record, at a Cold start: the carve-outs are laid out as it asks. (DESIGN CHOICE, log entry 48) -/
def Dev.bundleLarder (d : Dev) (x : BundleRun) (tlm tag : Nat) : Option Dev :=
  if tlm > 64 || tag > 1 then none
  else if !x.boot then some d
  else
    let d : Dev := { d with ldr := { d.ldr with wantTlm := tlm, wantTag := tag = 1 } }
    some (if d.ldr.up then d.layCarve d.channels.length (d.get LDR_CHSTAT_CAP (d.channels.headD 0)) else d)

/-- A record for a page opens the page first. -/
def Dev.bundleOpen (d : Dev) (x : BundleRun) (h : Nat) : BundleRun × Dev :=
  match recPage h with
  | some g => if List.contains [1, 2, 3] (recType h) then d.bundleUnlock x g else (x, d)
  | none => (x, d)

/-- One record of the bundle in progress, its page's lock cleared first; false where it fails. A COMMIT that is held makes
the bundle wait. (DESIGN CHOICE, log entry 47) -/
def Dev.bundleRecord (d : Dev) (x0 : BundleRun) : Bool × Dev :=
  let h := leAt x0.bytes x0.off 8
  let n := bunWords h
  let r := d.bundleOpen x0 h
  let x := r.1
  let d : Dev := { r.2 with sec := { r.2.sec with bundle := some x } }
  match recType h, recPage h with
  | 0x01, some g =>
    let a := h / 2 ^ 24 % 2 ^ 26
    if a % 8 ≠ 0 then (false, d) else (true, (d.pageWrite 4 g (a % 4096) 8 (leAt x.bytes (x.off + 8) 8)).bundleNext x n)
  | 0x02, some g =>
    match d.bundleTable g h x.bytes x.off with
    | some d => (true, d.bundleNext x n)
    | none => (false, d)
  | 0x03, some g =>
    let seq := d.get (PGEPOCH_SEQ g.blk) g.inst
    let d := d.pgctl g none false false true false
    if d.on (PGEPOCH_PEND g.blk) g.inst then
      (true, { d with sec := { d.sec with bundle := some { x with wait := g.addr / 4096 + 1, seq0 := seq } } })
    else if d.get (PGEPOCH_SEQ g.blk) g.inst = seq then (false, d)
    else (true, d.bundleNext x n)
  | 0x04, _ =>
    let s := h / 2 ^ 24 % 32
    match h / 2 ^ 29 % 4 with
    | 1 => (true, (d.slotOnCmd s).bundleNext x n)
    | 2 => (true, (d.slotOffCmd s).bundleNext x n)
    | 3 => (true, (d.slotClearFet s (d.get SPU_MEAS_VOUT s)).bundleNext x n)
    | _ => (false, d)
  | 0x05, _ =>
    match d.bundleLarder x (leAt x.bytes (x.off + 8) 8) (leAt x.bytes (x.off + 16) 8) with
    | some d => (true, d.bundleNext x n)
    | none => (false, d)
  | _, _ => (false, d)

/-- The next record is a COMMIT while device firmware does not run: it waits until firmware runs again (R38). -/
def Dev.bundleWaits (d : Dev) (x : BundleRun) : Bool := recType (leAt x.bytes x.off 8) = 0x03 && !d.on DEV_READY_FW_RUN

/-- Records are applied in order, until the end, a failure, a commit that is still held, or one that waits for device firmware. (DESIGN CHOICE, log entry 49) -/
def Dev.bundleGo : Nat → Dev → Dev
  | 0, d => d
  | f + 1, d =>
    match d.sec.bundle with
    | none => d
    | some x =>
      if x.wait ≠ 0 then
        match Pg.at? ((x.wait - 1) * 4096) with
        | none => d
        | some g =>
          if d.on (PGEPOCH_PEND g.blk) g.inst then d
          else if d.get (PGEPOCH_SEQ g.blk) g.inst = x.seq0 then d.bundleEnd x true
          else Dev.bundleGo f (d.bundleNext x 1)
      else if x.idx ≥ bundleRecs x.bytes then d.bundleEnd x false
      else if d.bundleWaits x then d
      else match d.bundleRecord x with
        | (true, d) => Dev.bundleGo f d
        | (false, d) => d.bundleEnd (d.sec.bundle.getD x) true

/-- The bundle in progress goes on. (DESIGN CHOICE, log entry 6; DESIGN CHOICE, log entry 49) -/
def Dev.bundlePoll (d : Dev) : Dev :=
  match d.sec.bundle with
  | none => d
  | some x => Dev.bundleGo (2 * bundleRecs x.bytes + 2) d

/-- A bundle is offered: refused whole, or its application starts. (DESIGN CHOICE, log entry 49) -/
def Dev.bundleStart (d : Dev) (b : Bytes) (boot : Bool) : Dev :=
  match d.bundleErr b with
  | some c =>
    let d := (d.raise SEC_F_BNDL_FAIL 0)
    if boot then { d.secCode c 0 with sec := { d.sec with bootBundle := true } } else { d.secDone c with sec := { d.sec with stream := [] } }
  | none =>
    let d : Dev := { d with sec := { d.sec with bundle := some { bytes := b, boot := boot } } }
    (d.put SEC_RESULT_BUSY 0 1).bundlePoll

/-! ## Dunrun keys (R567, R568, R187) -/

def Dev.kx (d : Dev) (k : Nat) : KeyX := SMap.get {} d.sec.kx k
def Dev.setKx (d : Dev) (k : Nat) (x : KeyX) : Dev := { d with sec := { d.sec with kx := SMap.set {} d.sec.kx k x } }

/-- A relay message for link k, of a length and content that the spec leaves to SPDM. (DESIGN CHOICE, log entry 54) -/
def Dev.relaySend (d : Dev) (k : Nat) : Dev :=
  let (n, d) := d.fresh
  let (b, d) := d.freshBytes (n % 512 + 1)
  { d with sec := { d.sec with relayQ := d.sec.relayQ ++ [(k, b)] } }.relayNext

/-- This end has the lower DEVID of link k. -/
def Dev.lowerEnd (d : Dev) (k : Nat) : Bool := d.myId < d.get DRL_STAT_PEER_DEVID k

/-- The lower-DEVID end opens its session. -/
def Dev.kxStart (d : Dev) (k : Nat) : Dev :=
  if d.lkState k ≠ lkKeywait || !d.lowerEnd k || (d.kx k).running || !d.entropy then d
  else (d.setKx k { running := true }).relaySend k

/-- Keys for both directions in a slot. (DESIGN CHOICE, log entry 54) -/
def Dev.keysIn (d : Dev) (k slot : Nat) : Dev :=
  let (t, d) := d.fresh
  let (r, d) := d.fresh
  let d := d.modLink k fun l => { l with keys := SMap.set 0 (SMap.set 0 l.keys slot t) (2 + slot) r, freshKeys := true }
  d.put (if slot = 0 then DRL_SEC_VALID0 else DRL_SEC_VALID1) k 1

/-- The exchange has ended well: slot 0 holds its keys, and a MAC under them goes to the peer (Table 5-6). (DESIGN CHOICE, log entry 54) -/
def Dev.kxDone (d : Dev) (k : Nat) : Dev :=
  let d := (d.setKx k { done := true }).keysIn k 0
  let d := (d.put DRL_SEC_ACT_SLOT k 0).modLink k fun l =>
    { l with segTx := 0, txSegBlk := 0, txPt := [], txAad := [], txDue := [], rxSlot := 0, segBase := 0, rxPrev := (0, 0), macNext := 0, segFirst := 0, acc := [] }
  ((d.linkOpen (128 + k)).txIdleSegment k).keyTry k

/-- The next key of the session goes into the other slot, and the sender switches. (DESIGN CHOICE, log entry 54) -/
def Dev.rekey (d : Dev) (k : Nat) : Dev :=
  let other := 1 - d.get DRL_SEC_ACT_SLOT k
  ((d.relaySend k).keysIn k other).txKeySwitch k other

/-- A peer's chain roots in the Brodevo root CA or in one of the eight trust anchors (R565). -/
def Dev.trusted (d : Dev) (root : Bytes) : Bool := root = Config.romRoot || d.sec.anchors.any fun e => e.2 = root

/-- What a relay message does to the exchange of link k: a chain in it is accepted by its root alone; a free value stands for
the rest of its content. (DESIGN CHOICE, log entry 54) -/
def Dev.relayTake (d : Dev) (k : Nat) : Dev :=
  let r := (d.setKx k { running := true }).fresh
  match (if (Config.chainRoot d.winBytes).any fun x => !d.trusted x then 2 else r.1 % 3) with
  | 0 => r.2.relaySend k
  | 1 => (r.2.relaySend k).kxDone k
  | _ => (r.2.setKx k {}).raise SEC_F_PEER_FAIL 0

/-- A peer's relay message for link k: the exchange goes on, ends with keys, or the peer's chain is refused; which, the
message says. (DESIGN CHOICE, log entry 54) -/
def Dev.relayIn (d : Dev) (k : Nat) : Dev :=
  if !d.entropy then d.secDone rcNoEntropy
  else if d.lkState k ≠ lkKeywait || (!(d.kx k).running && d.lowerEnd k) then d.secDone rcOk
  else (d.relayTake k).secDone rcOk

/-! ## Debug unlock (R569, R570) -/

/-- A challenge of 48 fresh bytes, the serial number and the anti-rollback counter stands in SEC_WIN. -/
def Dev.challengeNow (d : Dev) : Dev :=
  let r := d.freshBytes 48
  let c := r.1 ++ leBytes 8 Config.serial.toNat ++ leBytes 8 r.2.arc
  let d : Dev := { r.2 with sec := { r.2.sec with challenge := some c } }
  ((List.range 8).foldl (fun d i => d.setWord SEC_WIN 0 (BitVec.ofNat 64 (leNat (sub c (8 * i) 8))) i) d).secDone rcOk

def Dev.dbgChallenge (d : Dev) : Dev :=
  if !d.entropy then d.secDone rcNoEntropy
  else d.challengeNow

/-- Every installed key is erased and every session ends; the JTAG path opens. (DESIGN CHOICE, log entry 55) -/
def Dev.dbgOpen (d : Dev) : Dev :=
  let d := ((List.range 128).filter fun p => d.on PRT_STAT_IDE_ACT p).foldl (fun d p => d.ideFail p) d
  let d := (List.range 128).foldl (fun d p => d.modPort p fun x => { x with keyPend := false }) d
  let d := ((List.range 32).filter fun k => d.encReq k).foldl (fun d k => d.linkDownEv k) d
  let d := (List.range 32).foldl (fun d k =>
    ((d.put DRL_SEC_VALID0 k 0).put DRL_SEC_VALID1 k 0).modLink k fun l => { l with keys := [], freshKeys := false }) d
  let d : Dev := { d with sec := { d.sec with sessions := [], linkSess := [], kx := [] } }
  (d.put SEC_STAT_DBG 0 1).raise SEC_F_DBG_UNLOCKED 0

/-- DBG_UNLOCK in SEC_CMD (R569). (DESIGN CHOICE, log entry 55) -/
def Dev.dbgUnlock (d : Dev) : Dev :=
  match d.sec.challenge with
  | none => d.secDone rcBadSig
  | some c =>
    let w := d.winBytes
    let d : Dev := { d with sec := { d.sec with challenge := none } }
    let cust := d.custKey.isNone || Config.ecdsaOk (d.sec.image.getD {}).custPub (Config.sha384 c) (sub w 96 96)
    if Config.brodevoOk c (sub w 0 96) && cust then d.dbgOpen.secDone rcOk else d.secDone rcBadSig

/-! ## The other commands -/

/-- R556. -/
def Dev.advanceArc (d : Dev) (burned : Bool) : Dev :=
  match d.sec.image with
  | none => d.secDone rcNotAllowed
  | some x =>
    if x.svn ≤ d.arc || d.on SEC_STAT_DBG then d.secDone rcNotAllowed
    else if !burned then d.secDone rcFuseFail
    else
      let n := min 64 x.svn
      let d : Dev := { d with sec := { d.sec with fuses := some { (d.sec.fuses.getD {}) with arc := n } } }
      (d.put SEC_STAT_ARC 0 n).secDone rcOk

def Dev.bundleApply (d : Dev) : Dev :=
  let d := d.winTake
  d.bundleStart (d.streamed (bundleLen (d.streamed 64))) false

/-- R553: in recovery only. -/
def Dev.rcvWrite (d : Dev) (bank : Nat) : Dev :=
  if d.get SEC_STAT_BOOT ≠ 2 || bank ≥ 2 then d.secDone rcNotAllowed
  else (d.emit (.flashWrite bank (d.get SEC_WIN_CTL_OFFSET) d.winBytes)).secDone rcOk

def Dev.rcvBoot (d : Dev) (bank : Nat) (img : Option FlashImage) : Dev :=
  if d.get SEC_STAT_BOOT ≠ 2 || bank ≥ 2 then d.secDone rcNotAllowed
  else match d.imageErr img, img with
    | none, some f => (d.boot bank f).secDone rcOk
    | some c, _ => d.secDone c
    | none, none => d

/-- ANCHOR_SET in SEC_CMD (R565). (DESIGN CHOICE, log entry 55) -/
def Dev.anchorSet (d : Dev) (i : Nat) : Dev :=
  if i ≥ 8 then d.secDone rcNotAllowed
  else if d.winBytes.length ≠ 48 then d.secDone rcBadFormat
  else ({ d with sec := { d.sec with anchors := SMap.set [] d.sec.anchors i d.winBytes } }).secDone rcOk

/-- DRL_REKEY in SEC_CMD (R567). (DESIGN CHOICE, log entry 55) -/
def Dev.drlRekey (d : Dev) (k : Nat) : Dev :=
  if k ≥ 32 || !(d.kx k).done then d.secDone rcNotAllowed
  else if !d.entropy then d.secDone rcNoEntropy
  else (d.rekey k).secDone rcOk

/-- A SEC command is taken unless one is in progress. (DESIGN CHOICE, log entry 55) -/
def Dev.secTake (d : Dev) (f : Dev → Dev) : Dev := if d.on SEC_RESULT_BUSY then d else f d

/-- RCV_BOOT given by a register write: the bank's content is a free reading. (DESIGN CHOICE, log entry 55) -/
def Dev.rcvBootFree (d : Dev) (bank : Nat) : Dev :=
  let r := d.fresh
  r.2.rcvBoot bank (Config.flashBank bank r.1)

/-- ADVANCE_ARC given by a register write: whether the fuses burn is a free value. (DESIGN CHOICE, log entry 55) -/
def Dev.advanceArcFree (d : Dev) : Dev :=
  let r := d.fresh
  r.2.advanceArc (r.1 % 2 = 0)

/-- SEC_CMD takes a word; what a fuse or a flash bank decides is free here, and an operand of the commands ADVANCE_ARC and
RCV_BOOT. (DESIGN CHOICE, log entry 55) -/
def Dev.secCmd (d : Dev) (v : W64) : Dev :=
  let a := bits v 8 8
  d.secTake fun d => match bits v 0 4 with
    | 1 => d.advanceArcFree
    | 2 => d.dbgChallenge
    | 3 => d.dbgUnlock
    | 4 => d.bundleApply
    | 5 => d.rcvWrite a
    | 6 => d.rcvBootFree a
    | 7 => if a < 32 then d.relayIn a else d.secDone rcNotAllowed
    | 8 => d.anchorSet a
    | 9 => d.drlRekey a
    | _ => d

end Sys2Proof.Machine
end

