-- ==== Sys2Proof/Machine/Access.lean ====
section
/-! DEFINITION. The commands of the control space, its common page, table windows, lease locks and fault blocks (chapters 2
and 19). -/

namespace Sys2Proof.Machine

/-! ## Reads and writes (R42, R44 to R47, R590) -/

/-- An access at an address: refused with a cause, or the page and offset it reaches. -/
def Dev.reachAt (d : Dev) (addr n : Nat) : Nat ⊕ Pg :=
  if !okAccess addr n then .inl 1
  else match Pg.at? addr with
    | none => .inl 2
    | some g => if d.notYet g.blk then .inl 4 else .inr g

def Dev.registerWriteRow (d : Dev) (path addr nbytes val : Nat) : Dev :=
  if !d.pathOpen path then d
  else match d.reachAt addr nbytes with
    | .inl c => d.badAccess path addr c true
    | .inr g =>
      let off := addr % 4096
      if g.blk = .sec && off / 8 * 8 = SEC_CMD.off then d.secCmd (halfVal off nbytes val &&& halfMask off nbytes)
      else d.pageWrite path g off nbytes val

/-- A read by a path: refused with what R42 and R44 give it, or answered. -/
def Dev.refusedReadRow (d : Dev) (path addr nbytes : Nat) : Dev :=
  if !d.pathOpen path then d
  else match d.reachAt addr nbytes with
    | .inl c => (d.badAccess path addr c false).emit (.readAbort path c)
    | .inr g =>
      let off := addr % 4096
      let w := d.readReg g (off / 8 * 8)
      let v := (w.toNat >>> (8 * (off % 8))) % 2 ^ (8 * nbytes)
      if g.blk = .tlm && off = TLM_POP.off && nbytes = 8 then
        let (w, d) := d.ringPop
        d.emit (.readData path w.toNat)
      else d.emit (.readData path v)

/-! ## The management PF (R40, R64, R68) -/

/-- An FLR (0), a hot reset (1) or a link-down (2). -/
def Dev.mgmtPfResetRow (d : Dev) (cause : Nat) : Dev := if d.ctl.pfUp then d.pfReset (cause ≠ 2) else d

/-- Configuration space of the management PF (R39, Table 2-1): identity, BARs with their size bits, Bus
Master Enable, no interrupt pin, the MSI-X capability (2,048 vectors, table at BAR2 0x0000, pending bits at 0x8000), AER, DOE and Device
Serial Number, and the words the spec leaves to PCIe. BAR0 is 64 MiB and BAR2 64 KiB, 64-bit and non-prefetchable; BAR4 and BAR5 read
zero. (DESIGN CHOICE, log entry 8) -/
def Dev.pfConfig (d : Dev) (off : Nat) : BitVec 32 :=
  let k := off / 4
  let bar := SMap.get 0 d.ctl.pfcfg k
  let kept := SMap.get (Config.cfgWord (2 ^ 40 + k)) d.ctl.pfcfg k
  match k with
  | 0 => BitVec.ofNat 32 (Config.vendorId.toNat + 0x8128 * 65536)
  | 2 => BitVec.ofNat 32 (0xB1 + 0x088000 * 256)
  | 4 => (bar &&& 0xFC000000) ||| 4
  | 5 | 7 => bar
  | 6 => (bar &&& 0xFFFF0000) ||| 4
  | 8 | 9 => 0
  | 1 => (kept &&& ~~~4) ||| BitVec.ofNat 32 (4 * b2n d.ctl.busMaster)
  | 15 => kept &&& ~~~0xFF00
  | _ =>
    if k = Config.msixDword then (kept &&& 0xFF00) ||| BitVec.ofNat 32 (0x7FF0011 + 2 ^ 30 * b2n d.ctl.fnMask + 2 ^ 31 * b2n d.ctl.msixEn)
    else if k = Config.msixDword + 1 then 2
    else if k = Config.msixDword + 2 then 0x8002
    else if k = Config.aerDword then (kept &&& 0xFFFF0000) ||| 0x1
    else if k = Config.doeDword then (kept &&& 0xFFFF0000) ||| 0x2E
    else if k + 1 = Config.dsnDword then (kept &&& 0xFFFF0000) ||| 0x3
    else if k = Config.dsnDword then BitVec.ofNat 32 (d.word DEV_SERIAL 0).toNat
    else if k = Config.dsnDword + 1 then BitVec.ofNat 32 ((d.word DEV_SERIAL 0).toNat >>> 32)
    else kept

/-- Dwords of configuration space that no write changes. (DESIGN CHOICE, log entry 8) -/
def pfFixed (k : Nat) : Bool :=
  k = 0 || k = 2 || k = 8 || k = 9 || k = Config.msixDword + 1 || k = Config.msixDword + 2 || k = Config.aerDword || k = Config.doeDword ||
    k + 1 = Config.dsnDword || k = Config.dsnDword || k = Config.dsnDword + 1

/-- BAR2 (Table 2-1): the MSI-X table at 0x0000, 16 bytes a vector, the pending-bit array at 0x8000. -/
def Dev.pfTable (d : Dev) (off : Nat) : Nat :=
  if off < 0x8000 then
    let v := off / 16
    let m := SMap.get (0, 0) d.ctl.vecMsg v
    match off / 4 % 4 with
    | 0 => m.1 % 2 ^ 32
    | 1 => m.1 / 2 ^ 32 % 2 ^ 32
    | 2 => m.2 % 2 ^ 32
    | _ => b2n (!d.ctl.vecOpen.contains v)
  else if off < 0x8100 then packBits 32 fun b => d.ctl.vecPend.contains ((off - 0x8000) / 4 * 32 + b)
  else 0

/-- Pending vectors that nothing masks any longer are delivered. -/
def Dev.msixDeliver (d : Dev) : Dev :=
  if !d.ctl.msixEn || d.ctl.fnMask then d
  else
    let vs := d.ctl.vecPend.filter d.ctl.vecOpen.contains
    let d : Dev := { d with ctl := { d.ctl with vecPend := d.ctl.vecPend.filter fun v => !d.ctl.vecOpen.contains v } }
    vs.foldl (fun d v => let m := SMap.get (0, 0) d.ctl.vecMsg v
                         d.emit (.msi v m.1 m.2)) d

/-- A dword of configuration space is written: a BAR's address bits, Bus Master Enable, MSI-X Enable and Function Mask, or the bits an
implementation lets be written. -/
def Dev.pfConfigWrite (d : Dev) (off val : Nat) : Dev :=
  let k := off / 4
  let v := BitVec.ofNat 32 val
  if k = Config.msixDword then
    ({ d with ctl := { d.ctl with msixEn := bit val 31, fnMask := bit val 30 } } : Dev).msixDeliver
  else if pfFixed k then d
  else if 4 ≤ k && k < 8 then { d with ctl := { d.ctl with pfcfg := SMap.set 0 d.ctl.pfcfg k v } }
  else
    let m := Config.cfgMask (2 ^ 40 + k)
    let w := (d.pfConfig off &&& ~~~m) ||| (v &&& m)
    { d with ctl := { d.ctl with pfcfg := SMap.set (Config.cfgWord (2 ^ 40 + k)) d.ctl.pfcfg k w, busMaster := if k = 1 then bit val 2 else d.ctl.busMaster } }

def Dev.msixUnmaskRow (d : Dev) (wr : MsixWr) : Dev :=
  if !d.ctl.pfUp then d
  else match wr with
    | .vector v addr data masked =>
      if v ≥ 2048 then d
      else
        let open_ := d.ctl.vecOpen.filter (· ≠ v)
        let d : Dev := { d with ctl := { d.ctl with
          vecOpen := if masked then open_ else open_ ++ [v], vecMsg := SMap.set (0, 0) d.ctl.vecMsg v (addr, data) } }
        d.msixDeliver
    | .control enable fnMask busMaster =>
      { d with ctl := { d.ctl with msixEn := enable, fnMask := fnMask, busMaster := busMaster } }.msixDeliver
    | .config off val => d.pfConfigWrite off val
    | .readConfig off => d.emit (.readData 1 (d.pfConfig off).toNat)
    | .readTable off => d.emit (.readData 1 (d.pfTable off))

def Dev.mctpPathResetRow (d : Dev) (m : Nat) : Dev := d.pathReset (2 + m)
def Dev.tapResetRow (d : Dev) : Dev := d.pathReset 5

/-! ## Page control (R50, R51, R56, R72, R682) -/

def Dev.enableSetRow (d : Dev) (path pg : Nat) : Dev :=
  d.accessPg path pg 0x018 fun g d => d.pgctl g (some true) false false false false
def Dev.enableClearRow (d : Dev) (path pg : Nat) : Dev :=
  d.accessPg path pg 0x018 fun g d => d.pgctl g (some false) false false false false
/-- PGCTL.BRST written (R50). (DESIGN CHOICE, log entry 21) -/
def Dev.brstRow (d : Dev) (path pg : Nat) : Dev :=
  d.accessPg path pg 0x018 fun g d => d.pgctl g none false true false false
def Dev.commitRow (d : Dev) (path pg : Nat) : Dev :=
  d.accessPg path pg 0x018 fun g d => d.pgctl g none false false true false
def Dev.forceRow (d : Dev) (path pg : Nat) : Dev :=
  d.accessPg path pg 0x018 fun g d => d.pgctl g none false false true true
def Dev.discardRow (d : Dev) (path pg : Nat) : Dev :=
  d.accessPg path pg 0x018 fun g d => d.pgctl g none true false false false

def Dev.blockResetDoneRow (d : Dev) (pg : Nat) : Dev :=
  match Pg.at? (pg * 4096) with
  | some g =>
    if d.ctl.resets.contains g then
      let d := { d with ctl := { d.ctl with resets := d.ctl.resets.filter (· ≠ g) } }.putBusy g false
      if g.blk = .arb then d.presentAll g.inst (List.range 16) else d
    else d
  | none => d

/-- A held commit is taken up again (R51, R327). (DESIGN CHOICE, log entry 25) -/
def Dev.heldCommitRow (d : Dev) (pg : Nat) : Dev :=
  match Pg.at? (pg * 4096) with | some g => d.commitPoll g | none => d
def Dev.epochAppliedRow (d : Dev) (pg : Nat) : Dev :=
  match Pg.at? (pg * 4096) with | some g => d.epochApply g | none => d

def Dev.pglockLockedRow (d : Dev) (path pg : Nat) : Dev := d.accessPg path pg 0x028 fun g d => d.lockPage g
def Dev.devCfgLockRow (d : Dev) (path : Nat) : Dev := d.access path ⟨.dev, 0⟩ 0x160 fun d => d.cfgLock

/-! ## Table windows (R58 to R62) -/

def Dev.tblReadRow (d : Dev) (path w : Nat) (inc : Bool) : Dev := d.access path ⟨.tbl, w⟩ 0x188 fun d => d.tblCmd w 1 inc
def Dev.tblWriteRow (d : Dev) (path w : Nat) (inc : Bool) : Dev := d.access path ⟨.tbl, w⟩ 0x188 fun d => d.tblCmd w 2 inc
def Dev.tblClearRow (d : Dev) (path w : Nat) (inc : Bool) : Dev := d.access path ⟨.tbl, w⟩ 0x188 fun d => d.tblCmd w 3 inc
def Dev.tblBadOpRow (d : Dev) (path w op : Nat) (inc : Bool) : Dev :=
  d.access path ⟨.tbl, w⟩ 0x188 fun d => if 4 ≤ op && op < 8 then d.tblCmd w op inc else d
def Dev.tblOpDoneRow (d : Dev) (w : Nat) (ue : Bool) : Dev := d.tblDone w ue

/-! ## Lease locks (R65 to R70) -/

def Dev.acquireRow (d : Dev) (path i tag lease : Nat) : Dev :=
  d.access path ⟨.lck, 0⟩ (0x148 + 16 * i) fun d => d.lockAcquire path i tag lease
def Dev.renewRow (d : Dev) (path i tag lease : Nat) : Dev :=
  d.access path ⟨.lck, 0⟩ (0x148 + 16 * i) fun d => d.lockRenew path i tag lease
def Dev.releaseRow (d : Dev) (path i tag : Nat) : Dev :=
  d.access path ⟨.lck, 0⟩ (0x148 + 16 * i) fun d => d.lockRelease path i tag
def Dev.breakLockRow (d : Dev) (path i : Nat) : Dev := d.access path ⟨.lck, 0⟩ (0x148 + 16 * i) fun d => d.lockBreak i 3
def Dev.clrBrokenRow (d : Dev) (path i tag : Nat) : Dev :=
  d.access path ⟨.lck, 0⟩ (0x148 + 16 * i) fun d => d.lockClr path i tag
def Dev.leaseExpiryRow (d : Dev) (i : Nat) : Dev := d.lockBreak i 2

/-! ## The firmware mailbox (R71) -/

def Dev.mboxGoRow (d : Dev) (path : Nat) : Dev := d.access path ⟨.mgt, 0⟩ 0x160 fun d => d.mboxGo

/-- FM API commands for dynamic capacity, multi-headed devices and global fabric-attached memory (Table 4-3), by the first byte
of their opcodes. (PRESUMED, log entry 33) -/
def fmRefused (opcode : Nat) : Bool := [0x55, 0x56, 0x58].contains (opcode / 256)

/-- Device firmware ends the command: the response takes the buffer's place; a command of Table 4-3 completes Unsupported. (DESIGN CHOICE, log entry 17) -/
def Dev.mboxDoneRow (d : Dev) (status : Nat) (resp : Bytes) : Dev :=
  if !d.on MGT_MBOX_CTL_BUSY || !d.on DEV_READY_FW_RUN then d
  else
    let no := fmRefused (d.get MGT_MBOX_CTL_OPCODE)
    let status := if no then 3 else status
    let resp := if no then [] else resp
    let d := (List.range 64).foldl (fun d i => d.setWord MGT_MBOX_BUF 0 (BitVec.ofNat 64 (leNat ((resp.drop (8 * i)).take 8))) i) d
    (((d.put MGT_MBOX_CTL_STATUS 0 status).put MGT_MBOX_CTL_GO 0 0).put MGT_MBOX_CTL_BUSY 0 0).put MGT_MBOX_CTL_DONE 0 1

/-! ## The fault block (R597, R610, R617) -/

def Dev.fltStatusClearRow (d : Dev) (path pg mask : Nat) : Dev := d.accessPg path pg 0x040 fun g d => d.fltClear g mask
def Dev.fltInjectRow (d : Dev) (path pg val : Nat) : Dev :=
  d.accessPg path pg 0x058 fun g d => d.fltInjectSet g (BitVec.ofNat 64 val) (BitVec.allOnes 64)
def Dev.fltCountClrRow (d : Dev) (path pg : Nat) : Dev := d.accessPg path pg 0x068 fun g d => d.fltCountClr g

/-! ## Commands -/

/-- REGISTER_WRITE (R12). (DESIGN CHOICE, log entry 15) -/
def execRegisterWrite (path : Nat) (addr : Nat) (nbytes : Nat) (val : Nat) (s : State) : Host.Outcome State Fault Refusal :=
  run (okPath path && decide (addr < 67108864)) "REGISTER_WRITE" s (s.dev.registerWriteRow path addr nbytes val)

/-- MGMT_PF_RESET (R40). -/
def execMgmtPfReset (cause : Nat) (s : State) : Host.Outcome State Fault Refusal :=
  run (decide (cause < 3)) "MGMT_PF_RESET" s (s.dev.mgmtPfResetRow cause)

/-- ENABLE_SET (R72). -/
def execEnableSet (path : Nat) (pg : Nat) (s : State) : Host.Outcome State Fault Refusal :=
  run (okPath path) "ENABLE_SET" s (s.dev.enableSetRow path pg)

/-- ENABLE_CLEAR (R72). -/
def execEnableClear (path : Nat) (pg : Nat) (s : State) : Host.Outcome State Fault Refusal :=
  run (okPath path) "ENABLE_CLEAR" s (s.dev.enableClearRow path pg)

/-- BRST (R50). -/
def execBrst (path : Nat) (pg : Nat) (s : State) : Host.Outcome State Fault Refusal :=
  run (okPath path) "BRST" s (s.dev.brstRow path pg)

/-- BLOCK_RESET_DONE (R50). -/
def execBlockResetDone (pg : Nat) (s : State) : Host.Outcome State Fault Refusal :=
  run (true) "BLOCK_RESET_DONE" s (s.dev.blockResetDoneRow pg)

/-- COMMIT (R51). -/
def execCommit (path : Nat) (pg : Nat) (s : State) : Host.Outcome State Fault Refusal :=
  run (okPath path) "COMMIT" s (s.dev.commitRow path pg)

/-- FORCE (R509). -/
def execForce (path : Nat) (pg : Nat) (s : State) : Host.Outcome State Fault Refusal :=
  run (okPath path) "FORCE" s (s.dev.forceRow path pg)

/-- DISCARD (R682). -/
def execDiscard (path : Nat) (pg : Nat) (s : State) : Host.Outcome State Fault Refusal :=
  run (okPath path) "DISCARD" s (s.dev.discardRow path pg)

/-- HELD_COMMIT (R327). -/
def execHeldCommit (pg : Nat) (s : State) : Host.Outcome State Fault Refusal :=
  run (true) "HELD_COMMIT" s (s.dev.heldCommitRow pg)

/-- EPOCH_APPLIED (R53). -/
def execEpochApplied (pg : Nat) (s : State) : Host.Outcome State Fault Refusal :=
  run (true) "EPOCH_APPLIED" s (s.dev.epochAppliedRow pg)

/-- PGLOCK_LOCKED (R56). -/
def execPglockLocked (path : Nat) (pg : Nat) (s : State) : Host.Outcome State Fault Refusal :=
  run (okPath path) "PGLOCK_LOCKED" s (s.dev.pglockLockedRow path pg)

/-- DEV_CFG_LOCK (R56). -/
def execDevCfgLock (path : Nat) (s : State) : Host.Outcome State Fault Refusal :=
  run (okPath path) "DEV_CFG_LOCK" s (s.dev.devCfgLockRow path)

/-- TBL_READ (R60). -/
def execTblRead (path : Nat) (w : Nat) (inc : Bool) (s : State) : Host.Outcome State Fault Refusal :=
  run (okPath path && decide (w < 16)) "TBL_READ" s (s.dev.tblReadRow path w inc)

/-- TBL_WRITE (R61). -/
def execTblWrite (path : Nat) (w : Nat) (inc : Bool) (s : State) : Host.Outcome State Fault Refusal :=
  run (okPath path && decide (w < 16)) "TBL_WRITE" s (s.dev.tblWriteRow path w inc)

/-- TBL_CLEAR (R61). -/
def execTblClear (path : Nat) (w : Nat) (inc : Bool) (s : State) : Host.Outcome State Fault Refusal :=
  run (okPath path && decide (w < 16)) "TBL_CLEAR" s (s.dev.tblClearRow path w inc)

/-- TBL_BAD_OP (R59). -/
def execTblBadOp (path : Nat) (w : Nat) (op : Nat) (inc : Bool) (s : State) : Host.Outcome State Fault Refusal :=
  run (okPath path && decide (w < 16)) "TBL_BAD_OP" s (s.dev.tblBadOpRow path w op inc)

/-- TBL_OP_DONE (R59). -/
def execTblOpDone (w : Nat) (ue : Bool) (s : State) : Host.Outcome State Fault Refusal :=
  run (decide (w < 16)) "TBL_OP_DONE" s (s.dev.tblOpDoneRow w ue)

/-- MSIX_UNMASK (R64). -/
def execMsixUnmask (wr : MsixWr) (s : State) : Host.Outcome State Fault Refusal :=
  run (true) "MSIX_UNMASK" s (s.dev.msixUnmaskRow wr)

/-- ACQUIRE (R65). -/
def execAcquire (path : Nat) (i : Nat) (tag : Nat) (lease : Nat) (s : State) : Host.Outcome State Fault Refusal :=
  run (okPath path && decide (i < 64) && decide (tag < 65536) && decide (lease < 1048576)) "ACQUIRE" s (s.dev.acquireRow path i tag lease)

/-- RENEW (R66). -/
def execRenew (path : Nat) (i : Nat) (tag : Nat) (lease : Nat) (s : State) : Host.Outcome State Fault Refusal :=
  run (okPath path && decide (i < 64) && decide (tag < 65536) && decide (lease < 1048576)) "RENEW" s (s.dev.renewRow path i tag lease)

/-- RELEASE (R66). -/
def execRelease (path : Nat) (i : Nat) (tag : Nat) (s : State) : Host.Outcome State Fault Refusal :=
  run (okPath path && decide (i < 64) && decide (tag < 65536)) "RELEASE" s (s.dev.releaseRow path i tag)

/-- BREAK (R67). -/
def execBreakLock (path : Nat) (i : Nat) (s : State) : Host.Outcome State Fault Refusal :=
  run (okPath path && decide (i < 64)) "BREAK" s (s.dev.breakLockRow path i)

/-- CLR_BROKEN (R66). -/
def execClrBroken (path : Nat) (i : Nat) (tag : Nat) (s : State) : Host.Outcome State Fault Refusal :=
  run (okPath path && decide (i < 64) && decide (tag < 65536)) "CLR_BROKEN" s (s.dev.clrBrokenRow path i tag)

/-- LEASE_EXPIRY (R67). -/
def execLeaseExpiry (i : Nat) (s : State) : Host.Outcome State Fault Refusal :=
  run (decide (i < 64)) "LEASE_EXPIRY" s (s.dev.leaseExpiryRow i)

/-- MCTP_PATH_RESET (R68). -/
def execMctpPathReset (m : Nat) (s : State) : Host.Outcome State Fault Refusal :=
  run (decide (m < 2)) "MCTP_PATH_RESET" s (s.dev.mctpPathResetRow m)

/-- TAP_RESET (R68). -/
def execTapReset (s : State) : Host.Outcome State Fault Refusal :=
  run (true) "TAP_RESET" s (s.dev.tapResetRow)

/-- MBOX_GO (R71). -/
def execMboxGo (path : Nat) (s : State) : Host.Outcome State Fault Refusal :=
  run (okPath path) "MBOX_GO" s (s.dev.mboxGoRow path)

/-- MBOX_DONE (R71). -/
def execMboxDone (status : Nat) (resp : Bytes) (s : State) : Host.Outcome State Fault Refusal :=
  run (decide (status < 256)) "MBOX_DONE" s (s.dev.mboxDoneRow status resp)

/-- FLT_STATUS_CLEAR (R610). -/
def execFltStatusClear (path : Nat) (pg : Nat) (mask : Nat) (s : State) : Host.Outcome State Fault Refusal :=
  run (okPath path && decide (mask < 65536)) "FLT_STATUS_CLEAR" s (s.dev.fltStatusClearRow path pg mask)

/-- FLT_INJECT (R617). -/
def execFltInject (path : Nat) (pg : Nat) (val : Nat) (s : State) : Host.Outcome State Fault Refusal :=
  run (okPath path) "FLT_INJECT" s (s.dev.fltInjectRow path pg val)

/-- FLT_COUNT_CLR (R597). -/
def execFltCountClr (path : Nat) (pg : Nat) (s : State) : Host.Outcome State Fault Refusal :=
  run (okPath path) "FLT_COUNT_CLR" s (s.dev.fltCountClrRow path pg)

/-- REFUSED_READ (R42). -/
def execRefusedRead (path : Nat) (addr : Nat) (nbytes : Nat) (s : State) : Host.Outcome State Fault Refusal :=
  run (okPath path && decide (addr < 67108864)) "REFUSED_READ" s (s.dev.refusedReadRow path addr nbytes)

end Sys2Proof.Machine
end

