-- ==== Sys2Proof/Machine/Mover.lean ====
section
/-! DEFINITION. The Data Mover's functions, queue commands, doorbells and fetches (chapter 14). -/

namespace Sys2Proof.Machine

/-! ## Functions (R463) -/

/-- R463: the host sets VF Enable of endpoint u with NumVFs n. -/
def Dev.vfEnableRow (d : Dev) (u n : Nat) : Dev :=
  if !d.fnExists u 0 || SMap.get 0 d.dmv.vfs u ≠ 0 || n = 0 || n > d.get DMV_EPCFG_TOTALVFS 0 u then d
  else
    let d : Dev := { d with dmv := { d.dmv with vfs := SMap.set 0 d.dmv.vfs u n } }
    (List.range n).foldl (fun d i => d.allocFn u (i + 1)) d

/-- R463: VF Enable of endpoint u clears. -/
def Dev.vfDisableRow (d : Dev) (u : Nat) : Dev := if !d.fnExists u 0 then d else d.dropVfs u

/-- R481: FLR of a function. -/
def Dev.functionFlrRow (d : Dev) (u fn : Nat) : Dev := if !d.fnExists u fn then d else d.flrFn u fn

/-! ## Context cache (R35, R465) -/

/-- Write a cached context's words 4 to 6 back. -/
def Dev.ctxBack (d : Dev) (q : Nat) : Dev :=
  let ws := SMap.get [] d.ldr.ctx q
  [4, 5, 6].foldl (fun d i => d.setLword (d.ctxBase + 128 * q + 8 * i) (ws.getD i 0)) d

def Dev.ctxDrop (d : Dev) (q : Nat) : Dev :=
  let d := d.ctxBack q
  { d with ldr := { d.ldr with ctxLru := d.ldr.ctxLru.filter (· ≠ q), ctx := SMap.set [] d.ldr.ctx q [] } }

/-- The queue has a descriptor in execution. -/
def Dev.inExec (d : Dev) (q : Nat) : Bool :=
  ((d.queue q).descs.any fun x => x.started && !x.ended) || !(d.queue q).old.isEmpty

/-- A context that cannot be read quarantines its queue (R35, R468). -/
def Dev.ctxLost (d : Dev) (q : Nat) : Dev :=
  let d := (d.setQueue q { d.queue q with ctxErr := true }).qRaise q DMV_F_CTX_UE
  if d.quarantined (.queue q) then d else d.contain (.queue q)

/-- A miss fetches the context from the Larder: it takes a free entry, or that of the queue used least recently with no
descriptor in execution; where there is none it waits (R465). A lost line, or an armed injection, loses it (R35, R617). -/
def Dev.ctxFetch (d : Dev) (q : Nat) : Dev :=
  if d.cached q || !d.ldr.up || !d.on LDR_CARVE_CTX_EN then d
  else
    let a := d.ctxBase + 128 * q
    let (bad0, d) := d.carveRead a 4
    let (bad1, d) := d.carveRead (a + 64) 4
    let (inj, d) := d.injectAt .dmv (d.qPage q) [DMV_F_CTX_UE.num] none
    if bad0 || bad1 || inj.isSome then d.ctxLost q
    else
      let victim := if d.ldr.ctxLru.length < 65536 then none else some (d.ldr.ctxLru.find? fun x => !d.inExec x)
      match victim with
      | some none => d
      | v =>
        let d := match v with | some (some x) => d.ctxDrop x | _ => d
        let ws := (List.range 16).map fun i => d.lword (a + 8 * i)
        { d with ldr := { d.ldr with ctxLru := d.ldr.ctxLru ++ [q], ctx := SMap.set [] d.ldr.ctx q ws } }

/-! ## Queue commands (FN_QCMD, R464, R466, R467, R481, R482) -/

def Dev.qResult (d : Dev) (k r : Nat) : Dev := (d.put FN_QSTAT_RESULT k r).put FN_QSTAT_BUSY k 0

/-- The queue FN_QSEL of a function names; none beyond its queues or while the queue is not allocated. -/
def Dev.selQueue (d : Dev) (u fn : Nat) : Option Nat :=
  let (b, n) := d.fnBlock u fn
  let i := d.get FN_QSEL_QUEUE (fnKey u fn)
  if i < n && d.q (b + i) cAlloc = 1 then some (b + i) else none

/-- A queue command of a function: `f` on the selected queue, or BAD_QUEUE. -/
def Dev.qCommand (d : Dev) (u fn : Nat) (f : Nat → Dev → Dev) : Dev :=
  if !d.fnExists u fn then d
  else match d.selQueue u fn with
    | some q => f q (d.ctxFetch q)
    | none => d.qResult (fnKey u fn) 3

def Dev.qcmdReadRow (d : Dev) (u fn : Nat) : Dev :=
  d.qCommand u fn fun q d =>
    ((List.range 6).foldl (fun d i => d.put FN_QCTX_DATA (fnKey u fn) (d.ctxW q i).toNat i) d).qResult (fnKey u fn) 0

def Dev.qcmdWriteRow (d : Dev) (u fn : Nat) : Dev :=
  d.qCommand u fn fun q d =>
    if d.qState q = qEnabled then d.qResult (fnKey u fn) 2
    else ((List.range 4).foldl (fun d i =>
      d.setCtxW q i (BitVec.ofNat 64 (d.get FN_QCTX_DATA (fnKey u fn) i))) d).qResult (fnKey u fn) 0

/-- The host half of a context lets the queue run (R467). -/
def Dev.hostHalfOk (d : Dev) (q : Nat) : Bool :=
  let okLog (n : Nat) : Bool := 6 ≤ n && n ≤ 16
  okLog (d.q q cDqLog) && okLog (d.q q cCqLog) && d.q q cDqBase % 64 = 0 && d.q q cCqBase % 64 = 0 &&
    bits (d.ctxW q 2) 25 39 = 0 && bits (d.ctxW q 3) 0 64 = 0

/-- ENABLE in FN_QCMD. (DESIGN CHOICE, log entry 95) -/
def Dev.qcmdEnableRow (d : Dev) (u fn : Nat) : Dev :=
  d.qCommand u fn fun q d =>
    if d.qState q ≠ qDisabled then
      let (v, d) := d.fresh
      d.qResult (fnKey u fn) v
    else if !d.hostHalfOk q then d.qResult (fnKey u fn) 1
    else
      let d := (((d.qPut q cHead 0).qPut q cTail 0).qPut q cCqTail 0).qPut q cCqHead 0
      ((d.qPut q cPhase 1).setQState q qEnabled).qResult (fnKey u fn) 0

def Dev.qcmdDisableRow (d : Dev) (u fn : Nat) : Dev :=
  d.qCommand u fn fun q d =>
    (if d.qState q = qEnabled then d.setQState q qDisabling else d).qResult (fnKey u fn) 0

/-- RESET in FN_QCMD (R481). (DESIGN CHOICE, log entry 95) -/
def Dev.qcmdResetRow (d : Dev) (u fn : Nat) : Dev :=
  d.qCommand u fn fun q d =>
    if d.resetHeld q then (d.setQueue q { d.queue q with heldReset := true }).qResult (fnKey u fn) 4
    else (d.qReset q qDisabled false).qResult (fnKey u fn) 0

/-- R482: the access that held a RESET has ended. -/
def Dev.heldResetRow (d : Dev) (q : Nat) : Dev :=
  if (d.queue q).heldReset && !d.resetHeld q then d.qReset q qDisabled false else d

/-- R466: every started descriptor of a DISABLING queue has ended and its record is written. -/
def Dev.disablingDoneRow (d : Dev) (q : Nat) : Dev :=
  if d.qState q ≠ qDisabling || (d.queue q).descs.any (·.started) then d
  else (d.setQueue q { d.queue q with descs := [] }).setQState q qDisabled

/-! ## Doorbells (R469, R470) -/

def Dev.dbDrop (d : Dev) : Dev := d.inc DMV_POOL_DBDROP

/-- A doorbell that reaches a queue. -/
def Dev.ring_ (d : Dev) (q val : Nat) (cqv : Bool) : Dev :=
  let w := BitVec.ofNat 64 val
  let tail := bits w 0 16
  let cqh := bits w 32 16
  let m (a b : Nat) : Nat := (a + 65536 - b) % 65536
  if d.qState q ≠ qEnabled || bits w 16 8 ≠ d.q q cGen then d.dbDrop.qRaise q DMV_F_DB_DROP
  else if m tail (d.q q cHead) > 2 ^ d.q q cDqLog ||
      (cqv && m cqh (d.q q cCqHead) > m (d.q q cCqTail) (d.q q cCqHead)) then
    (d.setQState q qError).qRaise q DMV_F_DB_OVERRUN
  else
    let d := d.qPut q cTail tail
    if cqv then d.qPut q cCqHead cqh else d

/-- A write to BAR2 of a function. (DESIGN CHOICE, log entry 95) -/
def Dev.doorbellRow (d : Dev) (u fn off nbytes val : Nat) : Dev :=
  if !d.fnExists u fn then d
  else
    let (b, n) := d.fnBlock u fn
    let i := off / 64
    if off % 64 ≠ 0 || (nbytes ≠ 4 && nbytes ≠ 8) || i ≥ n then d.dbDrop
    else (d.ctxFetch (b + i)).ring_ (b + i) val (nbytes = 8 && val / 2 ^ 48 % 2 = 1)

/-! ## Context fetches (R465) -/

/-- R465: a context miss is filled; it waits while no entry can be replaced. -/
def Dev.contextFetchRow (d : Dev) (q : Nat) : Dev :=
  if d.halted then d
  else if d.cached q then
    { d with ldr := { d.ldr with ctxLru := d.ldr.ctxLru.filter (· ≠ q) ++ [q] } }
  else d.ctxFetch q

/-! ## Descriptor fetches (R471) -/

/-- One descriptor arrives from its slot. -/
def Dev.takeDesc (d : Dev) (q : Nat) (ws : List W64) : Dev :=
  let x := d.queue q
  let y : Desc := { words := ws, slot := d.q q cHead, gen := d.q q cGen }
  let y := if y.op > 0xB then y.endWith stInvalid else y
  (d.setQueue q { x with descs := x.descs ++ [y] }).qPut q cHead ((d.q q cHead + 1) % 65536)

/-- A fetch fails: the queue enters ERROR, and a record tells of the slot. -/
def Dev.fetchFail (d : Dev) (q : Nat) : Dev :=
  let x := d.queue q
  let y : Desc := { words := [], slot := d.q q cHead, gen := d.q q cGen }
  let d := d.setQueue q { x with descs := x.descs.filter (·.started) ++ [y.endWith stFetch] }
  (d.setQState q qError).qRaise q DMV_F_DESC_FETCH

/-- As many descriptors as there is room for, are due and have come, each slot checked. -/
def Dev.fetchDescs (d : Dev) (q : Nat) (words : List W64) : Dev :=
  let room := 8 - ((d.queue q).descs.filter fun x => !x.started).length
  let left := (d.q q cTail + 65536 - d.q q cHead) % 65536
  (List.range (min (min room left) (words.length / 8))).foldl (fun d i =>
    if d.qState q ≠ qEnabled then d
    else
      let a := d.q q cDqBase + 64 * (d.q q cHead % 2 ^ d.q q cDqLog)
      match d.rangeCheck q [(.read, a, 64)] with
      | (some _, d) => d.fetchFail q
      | (none, d) => d.takeDesc q ((words.drop (8 * i)).take 8)) d

/-- R471: descriptors arrive, 8 words each, or a fetch fails; the fetch is held while its ACU page is off (Table 2-7). -/
def Dev.descriptorFetchRow (d : Dev) (q : Nat) (words : List W64) (ok : Bool) : Dev :=
  if d.halted || !d.enabled ⟨.acu, d.q q cVcs⟩ || d.qState q ≠ qEnabled || !d.cached q || d.q q cHead = d.q q cTail then d
  else
    if ((d.queue q).descs.filter fun x => !x.started).length ≥ 8 then d
    else if !ok then d.fetchFail q
    else d.fetchDescs q words

/-! ## Commands -/

/-- VF_ENABLE (R463). -/
def execVfEnable (u : Nat) (n : Nat) (s : State) : Host.Outcome State Fault Refusal :=
  run (decide (u < 128) && decide (n < 128)) "VF_ENABLE" s (s.dev.vfEnableRow u n)

/-- VF_DISABLE (R463). -/
def execVfDisable (u : Nat) (s : State) : Host.Outcome State Fault Refusal :=
  run (decide (u < 128)) "VF_DISABLE" s (s.dev.vfDisableRow u)

/-- FUNCTION_FLR (R481). -/
def execFunctionFlr (u : Nat) (fn : Nat) (s : State) : Host.Outcome State Fault Refusal :=
  run (decide (u < 128) && decide (fn < 128)) "FUNCTION_FLR" s (s.dev.functionFlrRow u fn)

/-- QCMD_READ (R464). -/
def execQcmdRead (u : Nat) (fn : Nat) (s : State) : Host.Outcome State Fault Refusal :=
  run (decide (u < 128) && decide (fn < 128)) "QCMD_READ" s (s.dev.qcmdReadRow u fn)

/-- QCMD_WRITE (R464). -/
def execQcmdWrite (u : Nat) (fn : Nat) (s : State) : Host.Outcome State Fault Refusal :=
  run (decide (u < 128) && decide (fn < 128)) "QCMD_WRITE" s (s.dev.qcmdWriteRow u fn)

/-- QCMD_ENABLE (R467). -/
def execQcmdEnable (u : Nat) (fn : Nat) (s : State) : Host.Outcome State Fault Refusal :=
  run (decide (u < 128) && decide (fn < 128)) "QCMD_ENABLE" s (s.dev.qcmdEnableRow u fn)

/-- QCMD_DISABLE (R466). -/
def execQcmdDisable (u : Nat) (fn : Nat) (s : State) : Host.Outcome State Fault Refusal :=
  run (decide (u < 128) && decide (fn < 128)) "QCMD_DISABLE" s (s.dev.qcmdDisableRow u fn)

/-- QCMD_RESET (R481). -/
def execQcmdReset (u : Nat) (fn : Nat) (s : State) : Host.Outcome State Fault Refusal :=
  run (decide (u < 128) && decide (fn < 128)) "QCMD_RESET" s (s.dev.qcmdResetRow u fn)

/-- HELD_RESET (R482). -/
def execHeldReset (q : Nat) (s : State) : Host.Outcome State Fault Refusal :=
  run (decide (q < 1048576)) "HELD_RESET" s (s.dev.heldResetRow q)

/-- DISABLING_DONE (R466). -/
def execDisablingDone (q : Nat) (s : State) : Host.Outcome State Fault Refusal :=
  run (decide (q < 1048576)) "DISABLING_DONE" s (s.dev.disablingDoneRow q)

/-- DOORBELL (R470). -/
def execDoorbell (u : Nat) (fn : Nat) (off : Nat) (nbytes : Nat) (val : Nat) (s : State) : Host.Outcome State Fault Refusal :=
  run (decide (u < 128) && decide (fn < 128) && decide (off < 4194304)) "DOORBELL" s (s.dev.doorbellRow u fn off nbytes val)

/-- CONTEXT_FETCH (R465). -/
def execContextFetch (q : Nat) (s : State) : Host.Outcome State Fault Refusal :=
  run (decide (q < 1048576)) "CONTEXT_FETCH" s (s.dev.contextFetchRow q)

/-- DESCRIPTOR_FETCH (R471). -/
def execDescriptorFetch (q : Nat) (words : List W64) (ok : Bool) (s : State) : Host.Outcome State Fault Refusal :=
  run (decide (q < 1048576)) "DESCRIPTOR_FETCH" s (s.dev.descriptorFetchRow q words ok)

end Sys2Proof.Machine
end

