-- ==== Sys2Proof/Machine/Observe.lean ====
section
/-! DEFINITION. The commands of fabric time, Crumb, the counters, the collector, the telemetry rings, the firmware and epoch
watches, and the sensors (chapters 19, 20 and 21). -/

namespace Sys2Proof.Machine

/-! ## Watches (R623) -/

/-- MGT_HEARTBEAT has stood for 10 ms: the cause lasts until it counts on (R13). -/
def Dev.fwStallRow (d : Dev) : Dev := (d.raise MGT_F_FW_STALL 0).persist MGT_F_FW_STALL 0 true
def Dev.epochWaitRow (d : Dev) : Dev := if d.oldestEpoch = d.epoch then d else d.raise DEV_F_EPOCH_WAIT 0

/-! ## Fabric time (R628, R629) -/

def Dev.tmbSetRow (d : Dev) (path v : Nat) : Dev := d.access path ⟨.tmb, 0⟩ TMB_SET.off fun d => d.timeSet v

/-- The 125 µs timer of ROLE HOST: a request not yet answered counts as missed, the third in a row holds over. -/
def Dev.ptmTimerRow (d : Dev) : Dev :=
  if d.get TMB_CFG_ROLE ≠ 3 || d.halted then d
  else
    let k := d.obs.clk
    let missed := if k.ptmT1.isSome then k.ptmMissed + 1 else 0
    let fail : Bool := missed ≥ 3
    let d : Dev := { d with obs := { d.obs with clk := { k with ptmT1 := some d.fab, ptmMissed := if fail then 0 else missed } } }
    let d := if fail then (d.raise TMB_F_PTM_FAIL 0).holdover else d
    d.emit (.ptmReq (d.get TMB_CFG_PTM_PORT))

/-- A DOWNSTREAM port answers a PTM request with fabric time in nanoseconds. (DESIGN CHOICE, log entry 36) -/
def Dev.ptmRequestRow (d : Dev) (p : Nat) : Dev :=
  if !d.isDown p || !d.on PRT_STAT_DL_ACTIVE p || d.halted then d else d.emit (.ptmResp p (ticksNs d.fab))

/-- The PTM dialogue's answer, all times in root ticks: θ as R626 has it, without ASYM. (DESIGN CHOICE, log entry 36) -/
def Dev.ptmResponseRow (d : Dev) (t2 t3 t4 : Nat) : Dev :=
  match d.obs.clk.ptmT1 with
  | none => d
  | some t1 =>
    let d : Dev := { d with obs := { d.obs with clk := { d.obs.clk with ptmT1 := none, ptmMissed := 0 } } }
    if d.get TMB_CFG_ROLE ≠ 3 then d
    else d.servo (((t2 : Int) - t1 - ((t4 : Int) - t3)) / 2)

/-! ## Crumb (R630 to R635) -/

def Dev.fireRow (d : Dev) (path : Nat) : Dev := d.access path ⟨.crb, 0⟩ CRB_CMD.off fun d => d.crumb 1
def Dev.clrallRow (d : Dev) (path : Nat) : Dev := d.access path ⟨.crb, 0⟩ CRB_CMD.off fun d => d.clrAll

/-- Fabric time reaches CRB_MATCH: EN_TIME clears as the trigger fires; no CRUMB is sent (R631). (DESIGN CHOICE, log entry 39) -/
def Dev.crumbTimeMatchRow (d : Dev) : Dev :=
  if !d.on CRB_CFG_EN_TIME then d
  else
    let (drop, d) := (d.put CRB_CFG_EN_TIME 0 0).addEdge (coreEdge (d.get CRB_MATCH_TICKS)) 4 (d.get DEV_FABRIC_DEVID) 0 none
    if drop then d.raise CRB_F_DROPPED 0 else d

/-- The registers of a page that a latch copies: register with fields, index. -/
def Pg.snapRegs (g : Pg) : List (RegD × Nat) :=
  (g.blk.regs.filter fun x => x.reg.snap && (!x.reg.only0 || g.inst = 0)).flatMap fun x =>
    (List.range x.reg.cnt).map fun j => (x, j)

/-- A page takes a latch (R633): true when it keeps its earlier copies instead. (DESIGN CHOICE, log entry 39) -/
def Dev.latchPage (d : Dev) (g : Pg) : Bool × Dev :=
  if d.on (PGSTAT_SNAP_VALID g.blk) g.inst && !d.on CRB_CFG_OVERWRITE then (true, d)
  else
    let snap := g.snapRegs.foldl (fun m (e : RegD × Nat) =>
      SMap.set 0 m (e.1.reg.addr g.inst e.2 + 0x800) (d.view e.1 g.inst e.2)) d.snap
    let d : Dev := { d with snap := snap }
    (false, d.put (PGSTAT_SNAP_VALID g.blk) g.inst 1)

/-- SNAP_OUT is driven from an edge, unless SNAP_IN alone triggered it (R635). (DESIGN CHOICE, log entry 39) -/
def Dev.snapPulse (d : Dev) (e : Edge) : Dev :=
  if !d.on CRB_CFG_OUT_EN || e.causes.all (· = 3) then d
  else
    let until_ := d.now + max 1 (d.get CRB_CFG_PULSE) * 88
    let d : Dev := { d with obs := { d.obs with crumb := { d.obs.crumb with outUntil := max d.obs.crumb.outUntil until_ } } }
    d.emit .snapOut

/-- What the log records of a latch edge (R634). -/
def Dev.latchLog (d : Dev) (e : Edge) (kept : Nat) : Dev :=
  let cause := e.causes.foldl min 7
  let d := (d.put CRB_LOG0_TICKS 0 e.at_).put CRB_LOG1_CAUSE 0 cause
  let d := ((d.put CRB_LOG1_ORIGIN 0 e.origin).put CRB_LOG1_ID 0 e.id).put CRB_LOG1_KEPT 0 kept
  (d.put CRB_LOG1_LATE 0 (b2n e.lateBy.isSome)).put CRB_LOG1_LATE_BY 0 (min (e.lateBy.getD 0) (2 ^ 28 - 1))

def Dev.crumbRest (d : Dev) (l : List Edge) : Dev := { d with obs := { d.obs with crumb := { d.obs.crumb with edges := l } } }

/-- Every page that can be latched, then the counters, the log record, the pulse and the interrupt. -/
def Dev.crumbTake (d : Dev) (e : Edge) : Dev :=
  let live := d.liveCounters
  let r := (Pg.all.filter Pg.snapCap).foldl (fun (a : Nat × Dev) g =>
    let k := a.2.latchPage g
    (if k.1 then a.1 + 1 else a.1, k.2)) (0, d)
  let d := (live.map (·.1)).dedup.foldl (fun d g => d.count g.blk g.inst 0x004) r.2
  let d := ((d.latchLog e r.1).snapPulse e).irq 16
  if e.lateBy.isSome then d.raise CRB_F_LATE 0 else d

/-- The earliest pending latch edge: every snapshot page copies or keeps, counters of event 0x004 count, the log, the pin,
interrupt source 16 and LATE follow. The copies show the device as it stood at the edge. -/
def Dev.crumbLatchRow (d : Dev) : Dev :=
  match d.obs.crumb.edges with
  | [] => d
  | e :: rest => (d.crumbRest rest).crumbTake e

/-! ## Counters (R637) -/

/-- A 64-bit write of CNT_SEL[j]. -/
def Dev.cntSelWriteRow (d : Dev) (path pg j val : Nat) : Dev :=
  d.accessPg path pg (0x100 + 8 * j) fun g d =>
    let w := BitVec.ofNat 64 val
    (d.cntSelSet g (2 * j) (bits w 0 32) (2 ^ 32 - 1)).cntSelSet g (2 * j + 1) (bits w 32 32) (2 ^ 32 - 1)

/-- CLR of counter i is written 1. -/
def Dev.cntClrRow (d : Dev) (path pg i : Nat) : Dev :=
  d.accessPg path pg (0x100 + 8 * (i / 2)) fun g d => d.cntZero g i

/-! ## The collector (R638, R639) -/

/-- The collector begins a sweep while EN is 1 (R638). (DESIGN CHOICE, log entry 34) -/
def Dev.cclSweepRow (d : Dev) : Dev :=
  if !d.on CCL_CFG_EN then d
  else if d.obs.sweep.isSome then (d.inc CCL_STAT_SKIPPED).raise CCL_F_SWEEP_SKIP 0
  else
    let x : Sweep := { start := d.fab, last := d.fab, image := d.collectImage, larder := d.on CCL_CFG_LOC, base := d.collectBase }
    { d with obs := { d.obs with sweep := some x } }

/-- The image is complete: its number, its buffer and interrupt source 17. -/
def Dev.sweepEnd (d : Dev) (x : Sweep) : Dev :=
  let seq := (d.obs.sweeps + 1) % 2 ^ 64
  let d : Dev := { d with obs := { d.obs with sweep := none, sweeps := seq } }
  ((d.collectWrite x seq).inc CCL_STAT_SEQ |>.put CCL_STAT_BUF 0 (seq % 2)).irq 17

/-- The writes of the sweep in progress end, or one fails. An image for host memory needs the management PF's Bus Master
Enable (R640). (DESIGN CHOICE, log entry 34) -/
def Dev.cclSweepDoneRow (d : Dev) (ok : Bool) : Dev :=
  match d.obs.sweep with
  | none => d
  | some x =>
    if ok && (x.larder || d.ctl.busMaster) then d.sweepEnd x
    else ({ d with obs := { d.obs with sweep := none } } : Dev).raise CCL_F_WRITE_FAIL 0

/-! ## Telemetry rings (R642 to R650) -/

/-- The 64-bit words of a payload, padded with zeros. (DESIGN CHOICE, log entry 35) -/
def payloadWords : Nat → Bytes → List W64
  | 0, _ => []
  | n + 1, b => BitVec.ofNat 64 (leNat (b.take 8)) :: payloadWords n (b.drop 8)

/-- A record is put into ring r (R642 to R645). (DESIGN CHOICE, log entry 35) -/
def Dev.telemetryRecordRow (d : Dev) (r src type_ : Nat) (payload : Bytes) (ok : Bool) : Dev :=
  if d.halted then d
  else d.putRecord r (src % 65536) (type_ % 256) (payloadWords ((payload.length + 7) / 8) payload) ok

/-- A 64-bit read of TLM_POP. -/
def Dev.tlmPopRow (d : Dev) (path : Nat) : Dev :=
  if !d.pathOpen path then d
  else if d.notYet .tlm then (d.badAccess path (0xB000 + TLM_POP.off) 4 false).emit (.readAbort path 4)
  else
    let (w, d) := d.ringPop
    d.emit (.readData path w.toNat)

def Dev.tlmRheadRow (d : Dev) (path v : Nat) : Dev := d.access path ⟨.tlm, 0⟩ TLM_RHEAD.off fun d => d.ringHead (v % 2 ^ 25)

/-- EN of the selected ring is written 1, the rest of TLM_RCFG1 as it stands. -/
def Dev.tlmRingEnableRow (d : Dev) (path : Nat) : Dev :=
  d.access path ⟨.tlm, 0⟩ TLM_RCFG1.off fun d => d.ringCfg (setBits (d.ring d.selRing).cfg1 0 1 1)

/-! ## AVSBus and the junction sensors (R657, R660, R661) -/

/-- The core supply takes a new voltage, in mV (R657). (DESIGN CHOICE, log entry 38) -/
def Dev.setAvs (d : Dev) (n : Nat) : Dev := { d with elec := { d.elec with avsAck := n } }

/-- A new VDD_CORE target in millivolts is commanded, within 10 mV of the last one acknowledged. (DESIGN CHOICE, log entry 38) -/
def Dev.avsUpdateRow (d : Dev) (target : Nat) (ack : Bool) : Dev :=
  let last := d.elec.avsAck
  if !d.on DEV_READY_FUSES_OK || d.rst.clockLost || d.rst.thermTrip then d
  else if target < 720 || target > 800 || target % 5 ≠ 0 || target > last + 10 || last > target + 10 then d
  else
    let d := d.emit (.avs target)
    if ack then d.setAvs target else d

/-- The readings are kept, and Data Mover throttling follows the highest of the first 62. (DESIGN CHOICE, log entry 37) -/
def Dev.setTemps (d : Dev) (temps : List Int) : Dev :=
  let t := temps.take 64
  let now := (List.range t.length).foldl (fun m i => SMap.set 0 m i (t.getD i 0)) d.elec.temps
  let die := t.take 62
  let thr := if die.any (· ≥ 103) then 2 else if die.any (· ≥ 100) then 1
    else if die.all (· < 97) then 0 else d.dmv.throttle
  { d with elec := { d.elec with temps := now }, dmv := { d.dmv with throttle := thr } }

/-- The device trips: its clocks stop, with a SOURCE the spec does not give. (DESIGN CHOICE, log entry 37) -/
def Dev.thermalTrip (d : Dev) : Dev :=
  let r := d.fresh
  let d : Dev := { r.2 with rst := { r.2.rst with thermTrip := true } }
  d.clockHalt (r.1 % 16)

/-- The 64 sensors are read; any at 115 °C trips the device. (DESIGN CHOICE, log entry 37) -/
def Dev.junctionSensorReadRow (d : Dev) (temps : List Int) : Dev :=
  let d := d.setTemps temps
  if (temps.take 64).any (· ≥ 115) && !d.rst.thermTrip then d.thermalTrip else d

/-! ## Commands -/

/-- FW_STALL (R623). -/
def execFwStall (s : State) : Host.Outcome State Fault Refusal :=
  run (true) "FW_STALL" s (s.dev.fwStallRow)

/-- EPOCH_WAIT (R623). -/
def execEpochWait (s : State) : Host.Outcome State Fault Refusal :=
  run (true) "EPOCH_WAIT" s (s.dev.epochWaitRow)

/-- TMB_SET (R628). -/
def execTmbSet (path : Nat) (v : Nat) (s : State) : Host.Outcome State Fault Refusal :=
  run (okPath path) "TMB_SET" s (s.dev.tmbSetRow path v)

/-- PTM_TIMER (R629). -/
def execPtmTimer (s : State) : Host.Outcome State Fault Refusal :=
  run (true) "PTM_TIMER" s (s.dev.ptmTimerRow)

/-- PTM_REQUEST (R629). -/
def execPtmRequest (p : Nat) (s : State) : Host.Outcome State Fault Refusal :=
  run (decide (p < 128)) "PTM_REQUEST" s (s.dev.ptmRequestRow p)

/-- PTM_RESPONSE (R629). -/
def execPtmResponse (t2 : Nat) (t3 : Nat) (t4 : Nat) (s : State) : Host.Outcome State Fault Refusal :=
  run (true) "PTM_RESPONSE" s (s.dev.ptmResponseRow t2 t3 t4)

/-- FIRE (R630). -/
def execFire (path : Nat) (s : State) : Host.Outcome State Fault Refusal :=
  run (okPath path) "FIRE" s (s.dev.fireRow path)

/-- CLRALL (R633). -/
def execClrall (path : Nat) (s : State) : Host.Outcome State Fault Refusal :=
  run (okPath path) "CLRALL" s (s.dev.clrallRow path)

/-- CRUMB_TIME_MATCH (R631). -/
def execCrumbTimeMatch (s : State) : Host.Outcome State Fault Refusal :=
  run (true) "CRUMB_TIME_MATCH" s (s.dev.crumbTimeMatchRow)

/-- CRUMB_LATCH (R633). -/
def execCrumbLatch (s : State) : Host.Outcome State Fault Refusal :=
  run (true) "CRUMB_LATCH" s (s.dev.crumbLatchRow)

/-- CNT_SEL_WRITE (R637). -/
def execCntSelWrite (path : Nat) (pg : Nat) (j : Nat) (val : Nat) (s : State) : Host.Outcome State Fault Refusal :=
  run (okPath path && decide (j < 8)) "CNT_SEL_WRITE" s (s.dev.cntSelWriteRow path pg j val)

/-- CNT_CLR (R637). -/
def execCntClr (path : Nat) (pg : Nat) (i : Nat) (s : State) : Host.Outcome State Fault Refusal :=
  run (okPath path && decide (i < 16)) "CNT_CLR" s (s.dev.cntClrRow path pg i)

/-- CCL_SWEEP (R638). -/
def execCclSweep (s : State) : Host.Outcome State Fault Refusal :=
  run (true) "CCL_SWEEP" s (s.dev.cclSweepRow)

/-- CCL_SWEEP_DONE (R639). -/
def execCclSweepDone (ok : Bool) (s : State) : Host.Outcome State Fault Refusal :=
  run (true) "CCL_SWEEP_DONE" s (s.dev.cclSweepDoneRow ok)

/-- TELEMETRY_RECORD (R644). -/
def execTelemetryRecord (r : Nat) (src : Nat) (type_ : Nat) (payload : Bytes) (ok : Bool) (s : State) : Host.Outcome State Fault Refusal :=
  run (decide (r < 4096)) "TELEMETRY_RECORD" s (s.dev.telemetryRecordRow r src type_ payload ok)

/-- TLM_POP (R647). -/
def execTlmPop (path : Nat) (s : State) : Host.Outcome State Fault Refusal :=
  run (okPath path) "TLM_POP" s (s.dev.tlmPopRow path)

/-- TLM_RHEAD (R648). -/
def execTlmRhead (path : Nat) (v : Nat) (s : State) : Host.Outcome State Fault Refusal :=
  run (okPath path) "TLM_RHEAD" s (s.dev.tlmRheadRow path v)

/-- TLM_RING_ENABLE (R644). -/
def execTlmRingEnable (path : Nat) (s : State) : Host.Outcome State Fault Refusal :=
  run (okPath path) "TLM_RING_ENABLE" s (s.dev.tlmRingEnableRow path)

/-- AVS_UPDATE (R657). -/
def execAvsUpdate (target : Nat) (ack : Bool) (s : State) : Host.Outcome State Fault Refusal :=
  run (true) "AVS_UPDATE" s (s.dev.avsUpdateRow target ack)

/-- JUNCTION_SENSOR_READ (R660). -/
def execJunctionSensorRead (temps : List Int) (s : State) : Host.Outcome State Fault Refusal :=
  run (true) "JUNCTION_SENSOR_READ" s (s.dev.junctionSensorReadRow temps)

end Sys2Proof.Machine
end

