-- ==== Sys2Proof/Machine/ProofRows.lean ====
section
/-! DEFINITION. The commands of Proof: the hold-up measurement, the allowance, the power-fail flush (chapter 16). -/

namespace Sys2Proof.Machine

/-! ## Measurement (R533 to R535) -/

def Dev.measureRow (d : Dev) (path : Nat) : Dev := d.access path ⟨.prf, 0⟩ 0x158 fun d => d.measStart

def Dev.measurePeriodicRow (d : Dev) : Dev := if d.get PRF_CFG1_PERIOD = 0 then d else d.measStart

/-- Step 1 ends: the held total is within the test allowance; HU_ISO asserts. -/
def Dev.measureHoldReadyRow (d : Dev) : Dev :=
  if d.prf.step = 1 && d.heldTotal ≤ 64 * d.get PRF_ALLOW_DMAX then { d with prf := { d.prf with step := 2, huIso := true } } else d

/-- Step 3: V1, in microvolts; HU_LOAD asserts. -/
def Dev.measureSettledRow (d : Dev) (v1 : Nat) : Dev :=
  if d.prf.step = 2 then { d with prf := { d.prf with step := 4, v1 := v1, huLoad := true } } else d

/-- Step 4 ends: the charge in nanocoulombs, the load time in microseconds. -/
def Dev.measureLoadEndRow (d : Dev) (charge loadUs : Nat) : Dev :=
  if d.prf.step = 4 then { d with prf := { d.prf with step := 5, charge := charge, loadUs := loadUs, huLoad := false } } else d

/-- The sampled values make a measurement fail (R534). -/
def Dev.measFails (d : Dev) (v2 : Nat) : Bool :=
  let p := d.prf
  p.v1 < 1000 * d.get PRF_CFG0_VMIN || p.v1 < v2 + 50000 || p.charge < 1000 * p.loadUs || p.charge > 5000 * p.loadUs || p.loadUs = 0

/-- A good result ends the containment of Proof (Table 19-2). (DESIGN CHOICE, log entry 56) -/
def Dev.measGood (d : Dev) : Dev := ({ d with prf := { d.prf with contained := false } } : Dev).endQuar .proof

/-- FLUSH_US is logged, and phase 1 of the GPF begins. (DEDUCED, log entry 61) -/
def Dev.flushLogged (d : Dev) : Dev :=
  let d := (d.put PRF_LOG_FLUSH_US 0 (min 65535 ((d.now - d.prf.flushAt) / tUs))).put PRF_STAT_STATE 0 4
  { d with prf := { d.prf with phase := 2, phase1At := d.now } }

/-- Steps 5 and 6: V2 in microvolts; C = Q / (V1 − V2). -/
def Dev.measureDoneRow (d : Dev) (v2 : Nat) : Dev :=
  if d.prf.step ≠ 5 then d
  else if d.measFails v2 then ((d.put PRF_RESULT_VALID 0 0).measEnd).proofRaise PRF_F_MEAS_FAIL
  else
    let d := (d.putOpen PRF_RESULT_CAP 0 (d.prf.charge * 1000 / (d.prf.v1 - v2))).put PRF_RESULT_VALID 0 1
    d.measGood.measEnd

/-! ## The allowance (R536 to R538) -/

/-- Vstart in millivolts is refreshed and D_max recomputed. -/
def Dev.dmaxRecomputeRow (d : Dev) (vstart : Nat) : Dev :=
  ({ d with prf := { d.prf with vstart := vstart } }.put PRF_RESULT_VSTART 0 vstart).dmaxUpdate

/-- A slice's slice cache, or its Trays and combining buffer, asks for a block; writes that waited for it go on (R415). (DESIGN CHOICE, log entry 59) -/
def Dev.creditBlockRequestRow (d : Dev) (s : Nat) (scc : Bool) : Dev :=
  let n := if scc then d.sccB s else d.tryB s
  let mx := d.get PRF_CFG2_SLICE_MAX
  if d.on PRF_ALLOW_GATED || d.granted + 1 > d.get PRF_ALLOW_DMAX || (mx ≠ 0 && d.sccB s + d.tryB s + 1 > mx) || 64 * (n + 1) ≥ 2 ^ 17 then d
  else
    let d := (d.setBlocks s scc (n + 1)).put (if scc then SCC_PERS_GATED else TRY_PERS_GATED) s 0
    if scc then d else d.traySettle s (8 * s)

/-! ## The flush (R539 to R543) -/

/-- PWRFAIL is asserted. (DESIGN CHOICE, log entry 60) -/
def Dev.pwrfailRow (d : Dev) : Dev := d.pwrfailSet true

/-- The averaged bank voltage, in millivolts, is below VLOW, which acts as VMIN when below it. -/
def Dev.lowBankRow (d : Dev) (vbank : Nat) : Dev :=
  if vbank < max (d.get PRF_CFG0_VLOW) (d.get PRF_CFG0_VMIN) && d.rst.vddAux then (d.proofRaise PRF_F_LOW_BANK).flushStart 2 else d

def Dev.flushWritesDoneRow (d : Dev) : Dev :=
  if d.prf.phase ≠ 1 then d
  else
    let d := d.flushStep
    if !d.flushQuiet then d
    else d.flushLogged.flushGpf 1 d.flushLogged.memPorts

def Dev.flushPhase1DoneRow (d : Dev) : Dev :=
  if d.prf.phase = 2 && d.prf.waitPorts.isEmpty then
    ({ d with prf := { d.prf with phase := 3 } }.flushGpf 2 d.prf.gpfPorts).answerHosts 1 true
  else d

def Dev.flushPhase2DoneRow (d : Dev) : Dev :=
  if d.prf.phase = 3 && d.prf.waitPorts.isEmpty then d.huOkLow true else d

def Dev.flushGpfTimeoutRow (d : Dev) : Dev :=
  if (d.prf.phase = 2 || d.prf.phase = 3) && !(d.prf.phase = 3 && d.prf.waitPorts.isEmpty) then
    ((d.put PRF_LOG_GPF_MISS 0 1).proofRaise PRF_F_FLUSH_INCOMPLETE).huOkLow false
  else d

/-! ## Commands -/

/-- MEASURE (R533). -/
def execMeasure (path : Nat) (s : State) : Host.Outcome State Fault Refusal :=
  run (okPath path) "MEASURE" s (s.dev.measureRow path)

/-- MEASURE_PERIODIC (R533). -/
def execMeasurePeriodic (s : State) : Host.Outcome State Fault Refusal :=
  run (true) "MEASURE_PERIODIC" s (s.dev.measurePeriodicRow)

/-- MEASURE_HOLD_READY (R533). -/
def execMeasureHoldReady (s : State) : Host.Outcome State Fault Refusal :=
  run (true) "MEASURE_HOLD_READY" s (s.dev.measureHoldReadyRow)

/-- MEASURE_LOAD_END (R533). -/
def execMeasureLoadEnd (charge : Nat) (loadUs : Nat) (s : State) : Host.Outcome State Fault Refusal :=
  run (true) "MEASURE_LOAD_END" s (s.dev.measureLoadEndRow charge loadUs)

/-- MEASURE_DONE (R534). -/
def execMeasureDone (v2 : Nat) (s : State) : Host.Outcome State Fault Refusal :=
  run (true) "MEASURE_DONE" s (s.dev.measureDoneRow v2)

/-- DMAX_RECOMPUTE (R536). -/
def execDmaxRecompute (vstart : Nat) (s : State) : Host.Outcome State Fault Refusal :=
  run (decide (vstart < 65536)) "DMAX_RECOMPUTE" s (s.dev.dmaxRecomputeRow vstart)

/-- CREDIT_BLOCK_REQUEST (R537). -/
def execCreditBlockRequest (sl : Nat) (scc : Bool) (s : State) : Host.Outcome State Fault Refusal :=
  run (decide (sl < 16)) "CREDIT_BLOCK_REQUEST" s (s.dev.creditBlockRequestRow sl scc)

/-- PWRFAIL (R539). -/
def execPwrfail (s : State) : Host.Outcome State Fault Refusal :=
  run (true) "PWRFAIL" s (s.dev.pwrfailRow)

/-- LOW_BANK (R539). -/
def execLowBank (vbank : Nat) (s : State) : Host.Outcome State Fault Refusal :=
  run (decide (vbank < 65536)) "LOW_BANK" s (s.dev.lowBankRow vbank)

/-- FLUSH_WRITES_DONE (R542). -/
def execFlushWritesDone (s : State) : Host.Outcome State Fault Refusal :=
  run (true) "FLUSH_WRITES_DONE" s (s.dev.flushWritesDoneRow)

/-- FLUSH_PHASE1_DONE (R542). -/
def execFlushPhase1Done (s : State) : Host.Outcome State Fault Refusal :=
  run (true) "FLUSH_PHASE1_DONE" s (s.dev.flushPhase1DoneRow)

/-- FLUSH_PHASE2_DONE (R543). -/
def execFlushPhase2Done (s : State) : Host.Outcome State Fault Refusal :=
  run (true) "FLUSH_PHASE2_DONE" s (s.dev.flushPhase2DoneRow)

/-- FLUSH_GPF_TIMEOUT (R543). -/
def execFlushGpfTimeout (s : State) : Host.Outcome State Fault Refusal :=
  run (true) "FLUSH_GPF_TIMEOUT" s (s.dev.flushGpfTimeoutRow)

/-- MEASURE_SETTLED (R533). -/
def execMeasureSettled (v1 : Nat) (s : State) : Host.Outcome State Fault Refusal :=
  run (true) "MEASURE_SETTLED" s (s.dev.measureSettledRow v1)

end Sys2Proof.Machine
end

