-- ==== Sys2Proof/Machine/Reset.lean ====
section
/-! DEFINITION. The commands of resets, start-up, clocks and conditioned inputs (chapter 18). -/

namespace Sys2Proof.Machine

/-! ## DEV_RST (R574) -/

/-- DEV_RST with its KEY; another key is recorded and raises BAD_ACCESS. -/
def Dev.devRst (d : Dev) (path key : Nat) (f : Dev → Dev) : Dev :=
  d.access path ⟨.dev, 0⟩ 0x170 fun d => if key ≠ 0x5A then d.badAccess path 0x170 3 true else f d

def Dev.devRstWarmRow (d : Dev) (path key : Nat) : Dev := d.devRst path key fun d => d.bigReq .warm 4 path
/-- DEV_RST written for a Control reset. (DESIGN CHOICE, log entry 66) -/
def Dev.devRstControlRow (d : Dev) (path key : Nat) : Dev := d.devRst path key fun d => d.bigReq .control 4 path
def Dev.devRstSliceRow (d : Dev) (path key target : Nat) : Dev := d.devRst path key fun d => d.sliceReq target path
def Dev.devRstDomainRow (d : Dev) (path key target : Nat) : Dev := d.devRst path key fun d => d.domainReq target path
/-- DEV_RST written for a Port reset. (DESIGN CHOICE, log entry 66) -/
def Dev.devRstPortRow (d : Dev) (path key target : Nat) : Dev := d.devRst path key fun d => d.portReq target path

/-! ## Cold resets (R573, R574, R581) -/

def Dev.pwrGoodRiseRow (d : Dev) : Dev :=
  if d.rst.pwrGood || !d.rst.vddAux then d
  else d.coldEnter (if d.rst.coldPin then .coldHeld else .starting) true d.rst.coldPin 1

/-- No quiesce and no flush (R573). -/
def Dev.pwrGoodFallRow (d : Dev) : Dev := if d.rst.pwrGood then d.coldEnter .off false d.rst.coldPin 1 else d

def Dev.coldPinNow (d : Dev) : Dev := { d with rst := { d.rst with coldPin := true } }

/-- During a flush it is taken after HU_OK goes low (R544). -/
def Dev.coldRstNRow (d : Dev) : Dev :=
  if d.rst.coldPin then d
  else
    let d := d.coldPinNow
    if !d.rst.pwrGood then d
    else if d.flushing then { d with rst := { d.rst with afterFlush := some { scope := .cold, trigger := 2 } } }
    else d.coldEnter .coldHeld true true 2

def Dev.coldRstNReleaseRow (d : Dev) : Dev :=
  if !d.rst.coldPin then d
  else if d.flushing || !d.rst.pwrGood then { d with rst := { d.rst with coldPin := false } }
  else d.coldEnter .starting true false 2

/-! ## Warm and Control resets (R577 to R580) -/

/-- WARM_RST_N is conditioned asserted. -/
def Dev.warmRstNRow (d : Dev) : Dev :=
  if d.on CKR_INSTAT1_WARM_RST || d.rst.phase = .off || d.rst.phase = .coldHeld then d
  else (d.put CKR_INSTAT1_WARM_RST 0 1).bigReq .warm 3 0

/-- WARM_RST_N holds the reset that it asked for (R577). (DESIGN CHOICE, log entry 62) -/
def Dev.warmHeld (d : Dev) (r : RstReq) : Bool := r.trigger = 3 && d.on CKR_INSTAT1_WARM_RST

/-- Lines that the quiesce may take now are recalled, when CKR_RSTCFG asks for it, and written back. -/
def Dev.quiesceMore (d : Dev) : Dev :=
  let d := if d.on CKR_RSTCFG_RECALL then d.recallAll d.heldLines else d
  d.writeBack d.dirtyLines true

/-- The quiesce goes on; once it has ended, the reset is entered. A halted device skips it, and only a Warm reset ends the halt. -/
def Dev.resetEntryRow (d : Dev) : Dev :=
  match d.rst.pend with
  | none => d
  | some r =>
    if d.rst.phase ≠ .quiesce || d.flushing || d.stopped then d
    else if d.on FAG_STAT_HALTED then (if r.scope = .warm && !d.warmHeld r then d.rstEnter r 0 else d)
    else if r.step = 2 then (if d.warmHeld r then d else d.rstEnter r d.abandonedNow)
    else
      let d := d.quiesceMore
      if d.quiesceDone && !d.warmHeld r then d.rstEnter r 0 else d

/-- R578 for a Slice, Domain or Port reset: `n` lines are abandoned. (DESIGN CHOICE, log entry 63) -/
def Dev.abandon (d : Dev) (n : Nat) : Dev :=
  if n = 0 then d else (d.put CKR_RSTLOG_ABANDONED 0 (min n (2 ^ 23 - 1))).raise CKR_F_QUIESCE_TO 0

/-- The recall of a Port reset ends, answered or not. -/
def Dev.portRecallOver (d : Dev) (p : Nat) : Dev := ((d.portResetNow p tsHold).perstGo).portResetOver p

/-- QUIESCE_TO elapses. (DESIGN CHOICE, log entry 63) -/
def Dev.quiesceTimeoutRow (d : Dev) : Dev :=
  match d.rst.phase with
  | .quiesce =>
    match d.rst.pend with
    | none => d
    | some r =>
      if d.flushing || d.stopped || d.on FAG_STAT_HALTED then d
      else if d.warmHeld r then { d with rst := { d.rst with pend := some { r with step := 2 } } }
      else d.rstEnter r d.abandonedNow
  | .running =>
    let d := ((List.range 128).filter fun p => (d.port p).resetting && (d.port p).recallOnly).foldl (fun d p =>
      let n := match d.portAgent p with | some a => (d.agentLines a).length | none => 0
      (d.portRecallOver p).abandon n) d
    d.rst.active.foldl (fun d r => match r.scope with
      | .slice =>
        let n := ((d.dirOf r.target).filter fun e => !(d.holders e).isEmpty).length + ((d.sccOf r.target).filter (·.dirty)).length
        (d.sliceOver r.target).abandon n
      | .domain =>
        let n := ((d.heldLines).filter (·.domain = r.target)).length + ((d.dirtyLines).filter (·.domain = r.target)).length
        (d.domainOver r.target).abandon n
      | _ => d) d
  | _ => d

/-- R586: the recall of port p's reset has ended. -/
def Dev.portResetRecallDoneRow (d : Dev) (p : Nat) : Dev :=
  let x := d.port p
  let busy := match d.portAgent p with | some a => d.recalling a | none => false
  if x.resetting && x.recallOnly && !busy then (d.portRecallOver p).rstPoll else d

/-! ## FABRIC_READY (Table 18-4) -/

/-- The Larder is trained with its carve-outs in place, or declared not up (R432). -/
def Dev.larderSettled (d : Dev) : Bool :=
  d.on DEV_READY_LARDER_READY || (List.range 12).any fun c =>
    bit (d.get (FLT_STATUS_STATUS .ldr) c) LDR_F_CONFIG.num || bit (d.get (FLT_STATUS_STATUS .ldr) c) LDR_F_TRAIN_FAIL.num

def Dev.fabricOk (d : Dev) : Bool :=
  d.rst.phase = .starting && d.rst.vddAux && d.rst.pwrGood &&
  d.on DEV_READY_FUSES_OK && d.on DEV_READY_FW_RUN && d.on DEV_READY_SDS_CAL && d.larderSettled &&
  (d.rst.kind ≠ .cold || (d.rst.measEnded && d.get PRF_STAT_STATE ≠ 2 && d.sec.bootBundle)) &&
  !d.on PRF_STAT_PWRFAIL && !d.flushing && !d.halted && d.get SEC_STAT_BOOT = 1

/-- Ports with a role begin training, PERST_OUT_N follows its conditions, HU_OK is high again after a flush. (DESIGN CHOICE, log entry 62) -/
def Dev.fabricUp (d : Dev) : Dev :=
  let hu := d.prf.huOk
  let d : Dev := { d.put DEV_READY_FABRIC_READY 0 1 with rst := { d.rst with phase := .running }, prf := { d.prf with huOk := true } }
  let d := if hu then d else (List.range 32).foldl (fun d n => d.slotGo n) d
  let d := ((List.range 128).foldl (fun d p => d.trainStart p) d).perstGo
  if d.on CKR_INSTAT1_WARM_RST then d.bigReq .warm 3 0 else d

/-- FABRIC_READY rises: the start is over. (DESIGN CHOICE, log entry 62) -/
def Dev.fabricReadyRiseRow (d : Dev) : Dev :=
  if !d.fabricOk then d else d.fabricUp

/-! ## Clocks (R591) -/

/-- REFCLK is lost, or the Levain loses lock: the device stands halted until a Cold reset. (DEDUCED, log entry 61) -/
def Dev.clockLossRow (d : Dev) (refclk : Bool) : Dev :=
  if d.rst.phase = .off || d.rst.phase = .coldHeld then d
  else
    let d : Dev := { d with rst := { d.rst with clockLost := true } }
    let d := d.put (if refclk then CKR_STAT_REFCLK_OK else CKR_STAT_LEVAIN_LOCK) 0 0
    (d.clockHalt (b2n refclk)).raise (if refclk then CKR_F_REFCLK_LOSS else CKR_F_LEVAIN_UNLOCK) 0

/-! ## Conditioned inputs (R593 to R595, Table 18-10) -/

/-- GPIO[j]: an output's conditioning stops. -/
def Dev.gpioSet (d : Dev) (j : Nat) (on : Bool) : Dev :=
  let w := d.get CKR_INSTAT0_GPIO
  if bit (d.get CKR_GPIO_OE) j || bit w j = on then d else d.put CKR_INSTAT0_GPIO 0 (if on then w + 2 ^ j else w - 2 ^ j)

/-- SNAP_IN: an edge input; one already asserted when a start conditions it gives no event. (DESIGN CHOICE, log entry 60) -/
def Dev.snapInSet (d : Dev) (on : Bool) : Dev :=
  if d.on CKR_INSTAT1_SNAP_IN = on then d
  else
    let d := d.put CKR_INSTAT1_SNAP_IN 0 (b2n on)
    if on && d.rst.phase ≠ .starting then d.crumb 3 else d

/-- The conditioned value of input i becomes `level` (true: asserted; a GPIO: high). (DESIGN CHOICE, log entry 60) -/
def Dev.inputDebounceRow (d : Dev) (i : Nat) (level : Bool) : Dev :=
  if !d.rst.vddAux then d
  else if i < 32 then d.prsntSet i level
  else if d.rst.phase = .off || d.rst.phase = .coldHeld then d
  else if i < 48 then d.perstIn (i - 32) level
  else if i < 64 then d.gpioSet (i - 48) level
  else if i = 64 then d.pwrfailSet level
  else if i = 65 then d.snapInSet level
  else if level then d.warmRstNRow
  else d.put CKR_INSTAT1_WARM_RST 0 0

/-- A chatter window of input i ends with `count` transitions. -/
def Dev.chatterRow (d : Dev) (i count : Nat) : Dev :=
  let mx := d.get CKR_INCFG_CH_MAX 0 i
  if mx = 0 || count ≤ mx then d
  else
    let f : Fld := if i < 64 then CKR_CHAT0_FLAG else CKR_CHAT1_FLAG
    (d.put f 0 (Nat.lor (d.get f) (2 ^ (i % 64)))).raise CKR_F_CHATTER 0

/-! ## VDD_AUX (R520, R587) -/

/-- VDD_AUX is lost. (DESIGN CHOICE, log entry 64) -/
def Dev.vddAuxLossRow (d : Dev) : Dev :=
  let d := d.slotsClear true
  { d.put DEV_READY_FABRIC_READY 0 0 with rst := { d.rst with vddAux := false, perstOut := [] } }

/-- VDD_AUX is good. (DESIGN CHOICE, log entry 64) -/
def Dev.vddAuxRiseRow (d : Dev) : Dev :=
  if d.rst.vddAux then d
  else
    let d := d.slotsClear false
    { d.put DEV_READY_FABRIC_READY 0 0 with rst := { d.rst with vddAux := true }, prf := { d.prf with huOk := true } }

/-! ## Commands -/

/-- DEV_RST_WARM (R574). -/
def execDevRstWarm (path : Nat) (key : Nat) (s : State) : Host.Outcome State Fault Refusal :=
  run (okPath path && decide (key < 256)) "DEV_RST_WARM" s (s.dev.devRstWarmRow path key)

/-- DEV_RST_CONTROL (R574). -/
def execDevRstControl (path : Nat) (key : Nat) (s : State) : Host.Outcome State Fault Refusal :=
  run (okPath path && decide (key < 256)) "DEV_RST_CONTROL" s (s.dev.devRstControlRow path key)

/-- DEV_RST_SLICE (R584). -/
def execDevRstSlice (path : Nat) (key : Nat) (target : Nat) (s : State) : Host.Outcome State Fault Refusal :=
  run (okPath path && decide (key < 256) && decide (target < 1024)) "DEV_RST_SLICE" s (s.dev.devRstSliceRow path key target)

/-- DEV_RST_DOMAIN (R584). -/
def execDevRstDomain (path : Nat) (key : Nat) (target : Nat) (s : State) : Host.Outcome State Fault Refusal :=
  run (okPath path && decide (key < 256) && decide (target < 1024)) "DEV_RST_DOMAIN" s (s.dev.devRstDomainRow path key target)

/-- DEV_RST_PORT (R586). -/
def execDevRstPort (path : Nat) (key : Nat) (target : Nat) (s : State) : Host.Outcome State Fault Refusal :=
  run (okPath path && decide (key < 256) && decide (target < 1024)) "DEV_RST_PORT" s (s.dev.devRstPortRow path key target)

/-- PWR_GOOD_RISE (R581). (DESIGN CHOICE, log entry 1) -/
def execPwrGoodRise (s : State) : Host.Outcome State Fault Refusal :=
  run (true) "PWR_GOOD_RISE" s (s.dev.pwrGoodRiseRow)

/-- PWR_GOOD_FALL (R573). -/
def execPwrGoodFall (s : State) : Host.Outcome State Fault Refusal :=
  run (true) "PWR_GOOD_FALL" s (s.dev.pwrGoodFallRow)

/-- COLD_RST_N (R574). -/
def execColdRstN (s : State) : Host.Outcome State Fault Refusal :=
  run (true) "COLD_RST_N" s (s.dev.coldRstNRow)

/-- WARM_RST_N (R577). -/
def execWarmRstN (s : State) : Host.Outcome State Fault Refusal :=
  run (true) "WARM_RST_N" s (s.dev.warmRstNRow)

/-- RESET_ENTRY (R579). -/
def execResetEntry (s : State) : Host.Outcome State Fault Refusal :=
  run (true) "RESET_ENTRY" s (s.dev.resetEntryRow)

/-- QUIESCE_TIMEOUT (R578). -/
def execQuiesceTimeout (s : State) : Host.Outcome State Fault Refusal :=
  run (true) "QUIESCE_TIMEOUT" s (s.dev.quiesceTimeoutRow)

/-- PORT_RESET_RECALL_DONE (R586). -/
def execPortResetRecallDone (p : Nat) (s : State) : Host.Outcome State Fault Refusal :=
  run (decide (p < 128)) "PORT_RESET_RECALL_DONE" s (s.dev.portResetRecallDoneRow p)

/-- FABRIC_READY_RISE (R580). -/
def execFabricReadyRise (s : State) : Host.Outcome State Fault Refusal :=
  run (true) "FABRIC_READY_RISE" s (s.dev.fabricReadyRiseRow)

/-- CLOCK_LOSS (R591). -/
def execClockLoss (refclk : Bool) (s : State) : Host.Outcome State Fault Refusal :=
  run (true) "CLOCK_LOSS" s (s.dev.clockLossRow refclk)

/-- INPUT_DEBOUNCE (R593). -/
def execInputDebounce (i : Nat) (level : Bool) (s : State) : Host.Outcome State Fault Refusal :=
  run (decide (i < 67)) "INPUT_DEBOUNCE" s (s.dev.inputDebounceRow i level)

/-- CHATTER (R595). -/
def execChatter (i : Nat) (count : Nat) (s : State) : Host.Outcome State Fault Refusal :=
  run (decide (i < 67)) "CHATTER" s (s.dev.chatterRow i count)

/-- VDD_AUX_LOSS (R520). -/
def execVddAuxLoss (s : State) : Host.Outcome State Fault Refusal :=
  run (true) "VDD_AUX_LOSS" s (s.dev.vddAuxLossRow)

/-- VDD_AUX_RISE (R587). -/
def execVddAuxRise (s : State) : Host.Outcome State Fault Refusal :=
  run (true) "VDD_AUX_RISE" s (s.dev.vddAuxRiseRow)

/-- COLD_RST_N_RELEASE (R581). -/
def execColdRstNRelease (s : State) : Host.Outcome State Fault Refusal :=
  run (true) "COLD_RST_N_RELEASE" s (s.dev.coldRstNReleaseRow)

end Sys2Proof.Machine
end

