-- ==== Sys2Proof/Machine/Secure.lean ====
section
/-! DEFINITION. The commands of Octold (chapter 17) and the crash of the management complex (R38). -/

namespace Sys2Proof.Machine

/-- A SEC_CMD command by a path, while none is in progress. -/
def Dev.secAccess (d : Dev) (path : Nat) (f : Dev → Dev) : Dev := d.access path ⟨.sec, 0⟩ 0x148 fun d => d.secTake f

/-! ## Boot (R548 to R555) -/

/-- Fuses may load: a Cold or Warm start runs, and they have not. -/
def Dev.fuseReady (d : Dev) : Bool :=
  d.rst.phase = .starting && d.rst.kind ≠ .control && !d.on DEV_READY_FUSES_OK && !d.halted && !d.rst.clockLost && d.get SEC_STAT_BOOT = 0

/-- The fuses' values, those of the first load since they are programmed once, show in SEC_STAT. -/
def Dev.fusesIn (d : Dev) (x : Fuses) : Dev :=
  let f := d.sec.fuses.getD x
  let d : Dev := { d with sec := { d.sec with fuses := some f }, ctl := { d.ctl with pfUp := true } }
  let d := (((d.put SEC_STAT_CUSTKEY 0 (b2n f.cust.isSome)).put SEC_STAT_ARC 0 f.arc).put SEC_STAT_KREV 0 f.krev).put SEC_STAT_TRNG_OK 0 1
  (List.range 64).foldl (fun d o => d.recal o) (d.put DEV_READY_FUSES_OK 0 1)

/-- Fuses load at a Cold or Warm start: the SerDes calibrate, and the management PF trains. (DESIGN CHOICE, log entry 13) -/
def Dev.fuseLoadRow (d : Dev) (ok : Bool) (arc krev : Nat) (cust : Option Bytes) : Dev :=
  if !d.fuseReady then d
  else if !ok then (d.put SEC_STAT_BOOT 0 3).raise SEC_F_FUSE_ERR 0
  else d.fusesIn { arc := arc, krev := krev, cust := cust }

/-- Bank n fails with code c (R551). -/
def Dev.bankBad (d : Dev) (c : Nat) : Dev := (d.secCode c 0).raise SEC_F_BANK_FAIL 0

/-- Bank n fails with code c and the other is verified; it may fail too, with its own code (R551, R553). (DESIGN CHOICE, log entry 50) -/
def Dev.bankFailed (d : Dev) (n c : Nat) (other : Option FlashImage) : Dev :=
  let d := (d.put SEC_STAT_FALLBACK 0 1).bankBad c
  match d.imageErr other, other with
  | none, some f => d.boot (1 - n) f
  | c, _ => ((d.bankBad (c.getD rcBadFormat)).put SEC_STAT_BOOT 0 2).raise SEC_F_BOOT_FAIL 0

/-- The bank tried first: the higher BSEQ, A where equal or either manifest is unreadable (R551). -/
def firstBank (a b : Option FlashImage) : Nat :=
  match a, b with
  | some x, some y => if x.manifest.length = 512 && y.manifest.length = 512 && leAt y.manifest 8 4 > leAt x.manifest 8 4 then 1 else 0
  | _, _ => 0

def Dev.bootReady (d : Dev) : Bool :=
  d.rst.phase = .starting && d.on DEV_READY_FUSES_OK && d.get SEC_STAT_BOOT = 0 && !d.on DEV_READY_FW_RUN && !d.halted && !d.sec.crashed

/-- The boot ROM verifies the banks (R550, R551). (DESIGN CHOICE, log entry 50) -/
def Dev.bootVerifyRow (d : Dev) (imgA imgB : Option FlashImage) : Dev :=
  if !d.bootReady then d
  else
    let n := firstBank imgA imgB
    let img (i : Nat) : Option FlashImage := if i = 0 then imgA else imgB
    match d.imageErr (img n), img n with
    | none, some f => d.boot n f
    | c, _ => d.bankFailed n (c.getD rcBadFormat) (img (1 - n))

/-- The bundle area of the booted bank, empty where it holds none. (DESIGN CHOICE, log entry 49) -/
def Dev.bootBundleRow (d : Dev) (bundle : Bytes) : Dev :=
  if d.rst.phase ≠ .starting || d.rst.kind ≠ .cold || !d.on DEV_READY_FW_RUN || d.sec.bootBundle || d.on SEC_RESULT_BUSY then d
  else if bundle.isEmpty then { d with sec := { d.sec with bootBundle := true } }
  else d.bundleStart bundle true

/-- R38: device firmware stops. (DESIGN CHOICE, log entry 51) -/
def Dev.managementComplexCrashRow (d : Dev) : Dev :=
  if !d.on DEV_READY_FW_RUN then d
  else { (d.put DEV_READY_FW_RUN 0 0).put SEC_STAT_BOOT 0 0 with sec := { d.sec with crashed := true } }

/-- R554: the same bank is verified again before firmware runs. (DESIGN CHOICE, log entry 51) -/
def Dev.fwRestartRow (d : Dev) (img : Option FlashImage) : Dev :=
  if !d.sec.crashed then d
  else
    let bank := (d.sec.image.getD {}).bank
    let d := (d.raise MGT_F_FW_RESTART 0).pathReset 4
    match d.imageErr img, img with
    | none, some f => d.fwRun (imageOf bank f)
    | c, _ => d.bankBad (c.getD rcBadFormat)

/-- The entropy source fails its tests. (DESIGN CHOICE, log entry 51) -/
def Dev.trngFailRow (d : Dev) : Dev := if d.entropy then (d.put SEC_STAT_TRNG_OK 0 0).raise SEC_F_TRNG_FAIL 0 else d

/-! ## SEC_CMD (R556, R559, R569) -/

def Dev.advanceArcRow (d : Dev) (path : Nat) (burned : Bool) : Dev := d.secAccess path fun d => d.advanceArc burned
def Dev.dbgChallengeRow (d : Dev) (path : Nat) : Dev := d.secAccess path fun d => d.dbgChallenge
def Dev.dbgUnlockRow (d : Dev) (path : Nat) : Dev := d.secAccess path fun d => d.dbgUnlock
def Dev.bundleApplyRow (d : Dev) (path : Nat) : Dev := d.secAccess path fun d => d.bundleApply
def Dev.rcvWriteRow (d : Dev) (path bank : Nat) : Dev := d.secAccess path fun d => d.rcvWrite bank
def Dev.rcvBootRow (d : Dev) (path bank : Nat) (img : Option FlashImage) : Dev := d.secAccess path fun d => d.rcvBoot bank img
def Dev.relayInRow (d : Dev) (path k : Nat) : Dev := d.secAccess path fun d => d.relayIn k
def Dev.anchorSetRow (d : Dev) (path i : Nat) : Dev := d.secAccess path fun d => d.anchorSet i
def Dev.drlRekeyRow (d : Dev) (path k : Nat) : Dev := d.secAccess path fun d => d.drlRekey k

/-- SEC_RELAY.OUT_V is cleared, and the next message takes SEC_OUT. -/
def Dev.relayOutReleaseRow (d : Dev) (path : Nat) : Dev :=
  d.access path ⟨.sec, 0⟩ 0x168 fun d => (d.put SEC_RELAY_OUT_V 0 0).relayNext

/-! ## SPDM and link keys (R563 to R568) -/

/-- Requests wait while a bundle is part applied. -/
def Dev.spdmRequestRow (d : Dev) (src : Nat) (req : Spdm) : Dev :=
  if !d.on DEV_READY_FUSES_OK || (src = 0 && !d.ctl.pfUp) then d
  else if d.sec.bundle.isSome then { d with sec := { d.sec with spdmWait := d.sec.spdmWait ++ [(src, req)] } }
  else d.spdmServe src req

/-- Port p gets a key set: pending while its stream is active, else in force at once. -/
def Dev.ideKeys (d : Dev) (p : Nat) : Dev :=
  let d := d.linkOpen p
  if d.on PRT_STAT_IDE_ACT p then d.modPort p fun x => { x with keyPend := true, keySets := x.keySets + 1 }
  else
    let d := d.modPort p fun x => { x with insecure := false, keyPend := false, macFlits := 0, macWait := [], keySets := x.keySets + 1 }
    (d.put PRT_STAT_IDE_ACT p 1).put PRT_IDE_SECURE p 1

/-- A port's key set comes by IDE_KM: from the host of an UPSTREAM port, `good` for containment mode without skid; or, from Octold as
requester, for the peer of a DOWNSTREAM port, `good` for a sound chain, which roots in `root` (R565). Only the latter keys are Octold's
own to create (R548). -/
def Dev.ideKmRow (d : Dev) (p : Nat) (good : Bool) (root : Bytes) : Dev :=
  let up := d.isUp p && d.linkHas p
  let down := d.isDown p && d.on PRT_CFG_IDE_REQ p && d.entropy
  if !(up || down) || !d.on PRT_STAT_DL_ACTIVE p then d
  else if up && !good then d.emit (.spdm [0x7F, 0x07])
  else if down && !(good && d.trusted root) then d.raise SEC_F_PEER_FAIL 0
  else d.ideKeys p

def Dev.dunrunKeyExchangeRow (d : Dev) (k : Nat) : Dev := if (d.kx k).abandoned then d else d.kxStart k

def Dev.keyExchangeTimeoutRow (d : Dev) (k : Nat) : Dev :=
  if (d.kx k).running then (d.setKx k { abandoned := true }).raise SEC_F_KEY_FAIL 0 else d

def Dev.keyExchangeRestartRow (d : Dev) (k : Nat) : Dev :=
  if (d.kx k).abandoned && d.lowerEnd k then (d.setKx k {}).kxStart k else d

def Dev.keyUsageLimitRow (d : Dev) (k : Nat) : Dev :=
  if (d.kx k).done && d.on DRL_STAT_ENC k && d.entropy then d.rekey k else d

def Dev.meas7ComputeRow (d : Dev) : Dev := d.meas7

/-! ## Commands -/

/-- FUSE_LOAD (R555). -/
def execFuseLoad (ok : Bool) (arc : Nat) (krev : Nat) (cust : Option Bytes) (s : State) : Host.Outcome State Fault Refusal :=
  run (decide (arc < 65) && decide (krev < 16)) "FUSE_LOAD" s (s.dev.fuseLoadRow ok arc krev cust)

/-- BOOT_VERIFY (R551). -/
def execBootVerify (imgA : Option FlashImage) (imgB : Option FlashImage) (s : State) : Host.Outcome State Fault Refusal :=
  run (true) "BOOT_VERIFY" s (s.dev.bootVerifyRow imgA imgB)

/-- BOOT_BUNDLE (R559). -/
def execBootBundle (bundle : Bytes) (s : State) : Host.Outcome State Fault Refusal :=
  run (true) "BOOT_BUNDLE" s (s.dev.bootBundleRow bundle)

/-- FW_RESTART (R554). -/
def execFwRestart (img : Option FlashImage) (s : State) : Host.Outcome State Fault Refusal :=
  run (true) "FW_RESTART" s (s.dev.fwRestartRow img)

/-- TRNG_FAIL (R548). -/
def execTrngFail (s : State) : Host.Outcome State Fault Refusal :=
  run (true) "TRNG_FAIL" s (s.dev.trngFailRow)

/-- ADVANCE_ARC (R556). -/
def execAdvanceArc (path : Nat) (burned : Bool) (s : State) : Host.Outcome State Fault Refusal :=
  run (okPath path) "ADVANCE_ARC" s (s.dev.advanceArcRow path burned)

/-- DBG_CHALLENGE (R569). -/
def execDbgChallenge (path : Nat) (s : State) : Host.Outcome State Fault Refusal :=
  run (okPath path) "DBG_CHALLENGE" s (s.dev.dbgChallengeRow path)

/-- DBG_UNLOCK (R570). -/
def execDbgUnlock (path : Nat) (s : State) : Host.Outcome State Fault Refusal :=
  run (okPath path) "DBG_UNLOCK" s (s.dev.dbgUnlockRow path)

/-- BUNDLE_APPLY (R559). -/
def execBundleApply (path : Nat) (s : State) : Host.Outcome State Fault Refusal :=
  run (okPath path) "BUNDLE_APPLY" s (s.dev.bundleApplyRow path)

/-- RCV_WRITE (R553). -/
def execRcvWrite (path : Nat) (bank : Nat) (s : State) : Host.Outcome State Fault Refusal :=
  run (okPath path && decide (bank < 2)) "RCV_WRITE" s (s.dev.rcvWriteRow path bank)

/-- RCV_BOOT (R553). -/
def execRcvBoot (path : Nat) (bank : Nat) (img : Option FlashImage) (s : State) : Host.Outcome State Fault Refusal :=
  run (okPath path && decide (bank < 2)) "RCV_BOOT" s (s.dev.rcvBootRow path bank img)

/-- RELAY_IN (R567). -/
def execRelayIn (path : Nat) (k : Nat) (s : State) : Host.Outcome State Fault Refusal :=
  run (okPath path && decide (k < 32)) "RELAY_IN" s (s.dev.relayInRow path k)

/-- RELAY_OUT_RELEASE (R567). -/
def execRelayOutRelease (path : Nat) (s : State) : Host.Outcome State Fault Refusal :=
  run (okPath path) "RELAY_OUT_RELEASE" s (s.dev.relayOutReleaseRow path)

/-- ANCHOR_SET (R565). -/
def execAnchorSet (path : Nat) (i : Nat) (s : State) : Host.Outcome State Fault Refusal :=
  run (okPath path && decide (i < 8)) "ANCHOR_SET" s (s.dev.anchorSetRow path i)

/-- DRL_REKEY (R568). -/
def execDrlRekey (path : Nat) (k : Nat) (s : State) : Host.Outcome State Fault Refusal :=
  run (okPath path && decide (k < 32)) "DRL_REKEY" s (s.dev.drlRekeyRow path k)

/-- SPDM_REQUEST (R563). -/
def execSpdmRequest (src : Nat) (req : Spdm) (s : State) : Host.Outcome State Fault Refusal :=
  run (true) "SPDM_REQUEST" s (s.dev.spdmRequestRow src req)

/-- IDE_KM (R566). -/
def execIdeKm (p : Nat) (k : KmResult) (s : State) : Host.Outcome State Fault Refusal :=
  run (decide (p < 128)) "IDE_KM" s (s.dev.ideKmRow p k.good k.root)

/-- DUNRUN_KEY_EXCHANGE (R567). -/
def execDunrunKeyExchange (k : Nat) (s : State) : Host.Outcome State Fault Refusal :=
  run (decide (k < 32)) "DUNRUN_KEY_EXCHANGE" s (s.dev.dunrunKeyExchangeRow k)

/-- KEY_EXCHANGE_TIMEOUT (R568). -/
def execKeyExchangeTimeout (k : Nat) (s : State) : Host.Outcome State Fault Refusal :=
  run (decide (k < 32)) "KEY_EXCHANGE_TIMEOUT" s (s.dev.keyExchangeTimeoutRow k)

/-- KEY_EXCHANGE_RESTART (R568). -/
def execKeyExchangeRestart (k : Nat) (s : State) : Host.Outcome State Fault Refusal :=
  run (decide (k < 32)) "KEY_EXCHANGE_RESTART" s (s.dev.keyExchangeRestartRow k)

/-- KEY_USAGE_LIMIT (R568). -/
def execKeyUsageLimit (k : Nat) (s : State) : Host.Outcome State Fault Refusal :=
  run (decide (k < 32)) "KEY_USAGE_LIMIT" s (s.dev.keyUsageLimitRow k)

/-- MEAS7_COMPUTE (R564). -/
def execMeas7Compute (s : State) : Host.Outcome State Fault Refusal :=
  run (true) "MEAS7_COMPUTE" s (s.dev.meas7ComputeRow)

/-- MANAGEMENT_COMPLEX_CRASH (R38). -/
def execManagementComplexCrash (s : State) : Host.Outcome State Fault Refusal :=
  run (true) "MANAGEMENT_COMPLEX_CRASH" s (s.dev.managementComplexCrashRow)

end Sys2Proof.Machine
end

