-- ==== Sys2Proof/Machine/Slot.lean ====
section
/-! DEFINITION. The commands of the slot power units (chapter 16, R520 to R530). Times that a command says have elapsed
are not checked against local time (log entry 7). -/

namespace Sys2Proof.Machine

/-! ## Presence and insertion (R521, R529) -/

def Dev.prsntAssertRow (d : Dev) (n : Nat) : Dev := if d.powerDie then d.prsntSet n true else d
def Dev.prsntDeassertRow (d : Dev) (n : Nat) : Dev := if d.powerDie then d.prsntSet n false else d

/-- R521: VIN leaves its window, and the insertion timer restarts. (DESIGN CHOICE, log entry 67) -/
def Dev.vinWindowRow (d : Dev) (n vin : Nat) : Dev :=
  if !d.powerDie then d
  else
    let d := d.put SPU_MEAS_VIN n vin
    if d.vinOk n vin || !d.on SPU_STAT_PRSNT n then d
    else (d.setSlot n { d.slot n with insDone := false }).raise SPU_F_VIN_WINDOW n

/-- The insertion timer of a slot has run (R521). (DESIGN CHOICE, log entry 67) -/
def Dev.insertionTimerRow (d : Dev) (n : Nat) : Dev :=
  if d.powerDie && d.on SPU_STAT_PRSNT n then d.setSlot n { d.slot n with insDone := true } else d

/-! ## Ramp (R522, R523) -/

/-- The slot waits, and its timers let it ramp. -/
def Dev.rampEligible (d : Dev) (n : Nat) : Bool :=
  d.slotState n = ssWait && (d.slot n).insDone && (d.slot n).coolEnd = 0

/-- R522: at most four slots ramp at once, the lowest-numbered first. -/
def Dev.rampEntryRow (d : Dev) (n : Nat) : Dev :=
  let ramping := ((List.range 32).filter fun k => d.slotState k = ssRamp).length
  let before := ((List.range n).filter fun k => d.rampEligible k).length
  if d.powerDie && d.rampEligible n && ramping + before < 4 then (d.put SPU_STAT_STATE n ssRamp).emit (.gate n true) else d

/-- R523: VOUT is at 90 % of VIN. -/
def Dev.rampDoneRow (d : Dev) (n vin vout : Nat) : Dev :=
  if !d.powerDie then d
  else
    let d := (d.put SPU_MEAS_VIN n vin).put SPU_MEAS_VOUT n vout
    if d.slotState n = ssRamp && 9 * vin ≤ 10 * vout then ((d.put SPU_STAT_STATE n ssOn).put SPU_STAT_PG n 1).perstGo else d

def Dev.rampTimeoutRow (d : Dev) (n : Nat) : Dev :=
  if d.powerDie && d.slotState n = ssRamp then d.slotTrip n 4 SPU_F_RAMP_FAULT else d

/-! ## Protection (R524 to R528) -/

/-- The gate is ramping or on. -/
def Dev.gateOn (d : Dev) (n : Nat) : Bool := d.powerDie && (d.slotState n = ssRamp || d.slotState n = ssOn)

/-- ILIM in milliamperes, limited to 1 to 10 A. -/
def Dev.ilimMa (d : Dev) (n : Nat) : Nat := 100 * max 10 (min 100 (d.get SPU_CFG_ILIM n))

def Dev.fastTripRow (d : Dev) (n iout : Nat) : Dev :=
  if !d.powerDie then d
  else
    let d := d.put SPU_MEAS_IOUT n iout
    if d.gateOn n && 2 * iout > 5 * d.ilimMa n then d.slotTrip n 3 SPU_F_FAST_TRIP else d

def Dev.ovTripRow (d : Dev) (n vin : Nat) : Dev :=
  if !d.powerDie then d
  else
    let d := d.put SPU_MEAS_VIN n vin
    if d.gateOn n && vin > d.get SPU_VIN_OV n then d.slotTrip n 1 SPU_F_OV else d

/-- R524: the current the unit lets flow, in milliamperes: the smaller of ILIM and PLIM / (VIN − VOUT), PLIM limited to 5 to
100 W. -/
def Dev.limitMa (d : Dev) (n : Nat) : Nat :=
  let v := d.get SPU_MEAS_VIN n - d.get SPU_MEAS_VOUT n
  let p := max 5 (min 100 (d.get SPU_CFG_PLIM n))
  if v = 0 then d.ilimMa n else min (d.ilimMa n) (p * 1000000 / v)

/-- R524: the current has been held at its limit for OC_T. -/
def Dev.ocTripRow (d : Dev) (n : Nat) : Dev :=
  if d.powerDie && d.slotState n = ssOn then (d.put SPU_MEAS_IOUT n (d.limitMa n)).slotTrip n 2 SPU_F_OC else d

def Dev.vinLowRow (d : Dev) (n vin : Nat) : Dev :=
  if !d.powerDie then d
  else
    let d := d.put SPU_MEAS_VIN n vin
    if d.slotState n = ssOn && vin < d.get SPU_VIN_UV n && !d.flushing then d.raise SPU_F_VIN_LOW n else d

/-- R527: the cool-down timer reaches 0. -/
def Dev.coolDoneRow (d : Dev) (n : Nat) : Dev :=
  if !d.powerDie || (d.slot n).coolEnd = 0 then d
  else
    let d := d.setSlot n { d.slot n with coolEnd := 0 }
    if d.slotState n = ssCool then (d.put SPU_STAT_STATE n ssWait).put SPU_STAT_RETRY_CNT n (d.get SPU_STAT_RETRY_CNT n + 1) else d

/-- R528: VOUT stays above 1.0 V with the gate off. -/
def Dev.fetFailRow (d : Dev) (n vout : Nat) : Dev :=
  if !d.powerDie then d
  else
    let d := d.put SPU_MEAS_VOUT n vout
    if d.gateOn n || vout ≤ 1000 || d.on SPU_STAT_FET_FAIL n then d
    else
      let d := ((d.put SPU_STAT_FET_FAIL n 1).put SPU_STAT_EN_N n 1).put SPU_STAT_FAULT n 5
      ((d.put SPU_STAT_STATE n ssLatched).raise SPU_F_FET_FAIL n).slotFault n

def Dev.retryCountResetRow (d : Dev) (n : Nat) : Dev :=
  if d.powerDie && d.slotState n = ssOn then d.put SPU_STAT_RETRY_CNT n 0 else d

/-! ## SPU_CMD (R530) -/

def Dev.spuOnRow (d : Dev) (path n : Nat) : Dev := d.access path ⟨.spu, n⟩ 0x158 fun d => d.slotOnCmd n
def Dev.spuOffRow (d : Dev) (path n : Nat) : Dev := d.access path ⟨.spu, n⟩ 0x158 fun d => d.slotOffCmd n
def Dev.clearFetRow (d : Dev) (path n vout : Nat) : Dev := d.access path ⟨.spu, n⟩ 0x158 fun d => d.slotClearFet n vout

/-! ## Commands -/

/-- PRSNT_ASSERT (R521). -/
def execPrsntAssert (n : Nat) (s : State) : Host.Outcome State Fault Refusal :=
  run (decide (n < 32)) "PRSNT_ASSERT" s (s.dev.prsntAssertRow n)

/-- PRSNT_DEASSERT (R529). -/
def execPrsntDeassert (n : Nat) (s : State) : Host.Outcome State Fault Refusal :=
  run (decide (n < 32)) "PRSNT_DEASSERT" s (s.dev.prsntDeassertRow n)

/-- VIN_WINDOW (R521). -/
def execVinWindow (n : Nat) (vin : Nat) (s : State) : Host.Outcome State Fault Refusal :=
  run (decide (n < 32) && decide (vin < 65536)) "VIN_WINDOW" s (s.dev.vinWindowRow n vin)

/-- INSERTION_TIMER (R521). -/
def execInsertionTimer (n : Nat) (s : State) : Host.Outcome State Fault Refusal :=
  run (decide (n < 32)) "INSERTION_TIMER" s (s.dev.insertionTimerRow n)

/-- RAMP_ENTRY (R522). -/
def execRampEntry (n : Nat) (s : State) : Host.Outcome State Fault Refusal :=
  run (decide (n < 32)) "RAMP_ENTRY" s (s.dev.rampEntryRow n)

/-- RAMP_DONE (R523). -/
def execRampDone (n : Nat) (vin : Nat) (vout : Nat) (s : State) : Host.Outcome State Fault Refusal :=
  run (decide (n < 32) && decide (vin < 65536) && decide (vout < 65536)) "RAMP_DONE" s (s.dev.rampDoneRow n vin vout)

/-- RAMP_TIMEOUT (R520). -/
def execRampTimeout (n : Nat) (s : State) : Host.Outcome State Fault Refusal :=
  run (decide (n < 32)) "RAMP_TIMEOUT" s (s.dev.rampTimeoutRow n)

/-- FAST_TRIP (R525). -/
def execFastTrip (n : Nat) (iout : Nat) (s : State) : Host.Outcome State Fault Refusal :=
  run (decide (n < 32) && decide (iout < 65536)) "FAST_TRIP" s (s.dev.fastTripRow n iout)

/-- OV (R526). -/
def execOvTrip (n : Nat) (vin : Nat) (s : State) : Host.Outcome State Fault Refusal :=
  run (decide (n < 32) && decide (vin < 65536)) "OV" s (s.dev.ovTripRow n vin)

/-- OC (R524). -/
def execOcTrip (n : Nat) (s : State) : Host.Outcome State Fault Refusal :=
  run (decide (n < 32)) "OC" s (s.dev.ocTripRow n)

/-- VIN_LOW (R526). -/
def execVinLow (n : Nat) (vin : Nat) (s : State) : Host.Outcome State Fault Refusal :=
  run (decide (n < 32) && decide (vin < 65536)) "VIN_LOW" s (s.dev.vinLowRow n vin)

/-- COOL_DONE (R527). -/
def execCoolDone (n : Nat) (s : State) : Host.Outcome State Fault Refusal :=
  run (decide (n < 32)) "COOL_DONE" s (s.dev.coolDoneRow n)

/-- FET_FAIL (R528). -/
def execFetFail (n : Nat) (vout : Nat) (s : State) : Host.Outcome State Fault Refusal :=
  run (decide (n < 32) && decide (vout < 65536)) "FET_FAIL" s (s.dev.fetFailRow n vout)

/-- RETRY_COUNT_RESET (R527). -/
def execRetryCountReset (n : Nat) (s : State) : Host.Outcome State Fault Refusal :=
  run (decide (n < 32)) "RETRY_COUNT_RESET" s (s.dev.retryCountResetRow n)

/-- SPU_ON (R530). -/
def execSpuOn (path : Nat) (n : Nat) (s : State) : Host.Outcome State Fault Refusal :=
  run (okPath path && decide (n < 32)) "SPU_ON" s (s.dev.spuOnRow path n)

/-- SPU_OFF (R530). -/
def execSpuOff (path : Nat) (n : Nat) (s : State) : Host.Outcome State Fault Refusal :=
  run (okPath path && decide (n < 32)) "SPU_OFF" s (s.dev.spuOffRow path n)

/-- CLEAR_FET (R528). -/
def execClearFet (path : Nat) (n : Nat) (vout : Nat) (s : State) : Host.Outcome State Fault Refusal :=
  run (okPath path && decide (n < 32) && decide (vout < 65536)) "CLEAR_FET" s (s.dev.clearFetRow path n vout)

end Sys2Proof.Machine
end

