-- ==== Sys2Proof/Machine/Traffic.lean ====
section
/-! DEFINITION. Timed commands of an egress port: shaper refill, queue sampling, gate edges (chapter 8). -/

namespace Sys2Proof.Machine

/-! ## Shapers -/

/-- Rates and sizes of a shaper: CIR, CBS, PIR, PBS. -/
def shaperParams (w0 w1 : W64) : Nat × Nat × Nat × Nat := (bits w0 0 20, bits w0 20 24, bits w1 0 20, bits w1 20 24)

/-- One shaper gains `n` TIMECLK cycles of its rates in force and what is owed back (R280, R282). -/
def Dev.refillOne (d : Dev) (q t n : Nat) : Dev :=
  let (cir, cbs, pir, pbs) := shaperParams (d.tabF 0x0B q t 0) (d.tabF 0x0B q t 1)
  let x := d.shaper q t
  let (c, cr) := signedFill cir n cbs x.owed x.ctok x.crem
  let (p, pr) := signedFill pir n pbs x.owed x.ptok x.prem
  d.setShaper q t { ctok := c, crem := cr, ptok := p, prem := pr, owed := 0 }

/-- R281: committed parameters come into force: buckets are clamped to the new sizes; a shaper now enabled starts full. -/
def Dev.shaperSwitch (d : Dev) (q t : Nat) (was : Bool) : Dev :=
  let (_, cbs, _, pbs) := shaperParams (d.tab 0x0B q t 0) (d.tab 0x0B q t 1)
  let x := d.shaper q t
  if !was && d.shEn q t then d.setShaper q t { x with ctok := cbs, crem := 0, ptok := pbs, prem := 0 }
  else d.setShaper q t { x with ctok := min x.ctok (cbs : Int), ptok := min x.ptok (pbs : Int) }

/-- The port's eight shapers gain REFILL cycles. -/
def Dev.refillAll (d : Dev) (p : Nat) : Dev :=
  let n := d.getF EGS_CFG_REFILL p
  (List.range 8).foldl (fun d t => d.refillOne p t n) d

/-- R280 to R282: REFILL TIMECLK cycles have elapsed at port p. -/
def Dev.shaperRefillRow (d : Dev) (p : Nat) : Dev :=
  if !d.portAvail p then d
  else
    let en := (List.range 8).filter (d.shEn p)
    let d := (d.tabRead 0x0B p (List.range 8)).refillAll p
    if d.on (PGEPOCH_APPLIED .egs) p then d
    else
      let d := d.put (PGEPOCH_APPLIED .egs) p 1
      (List.range 8).foldl (fun d t => d.shaperSwitch p t (en.contains t)) d

/-! ## Sampling (R287 to R289) -/

/-- Depth in cells and messages, and head-of-line delay, of the queue of (source, q, TC). -/
def Dev.queueSample (d : Dev) (src q t : Nat) : Nat × Nat × Nat :=
  let xs := d.core.oven.filter fun x => x.m.src = src && x.dest = q && x.m.tc = t && !x.taken
  let dly := match xs with
    | x :: _ => (d.fab % 2 ^ 32 + 2 ^ 32 - x.m.ts % 2 ^ 32) % 2 ^ 32
    | [] => 0
  ((xs.map Stored.held).sum, xs.length, dly)

/-- One sweep of the queues toward port p: the record, EGS_TCSTAT, and each sampled value against its threshold (R289). -/
def Dev.sampleNow (d : Dev) (p : Nat) : Dev :=
  let qs := (List.range 144).flatMap fun src => (List.range 8).map fun t => (t, d.queueSample src p t)
  let depth (t : Nat) : Nat := ((qs.filter fun x => x.1 = t).map fun x => x.2.1).sum
  let maxd (t : Nat) : Nat := d.get EGS_TCSTAT_MAXDLY p t
  let words := [BitVec.ofNat 64 d.fab]
    ++ qs.map (fun x => BitVec.ofNat 64 (x.2.1 % 2 ^ 16 + x.2.2.1 % 2 ^ 10 * 2 ^ 16 + x.2.2.2 * 2 ^ 26))
    ++ (List.range 8).map fun t => BitVec.ofNat 64 (depth t % 2 ^ 20 + maxd t * 2 ^ 20)
  let late := (qs.map (·.2.2.2) ++ (List.range 8).map maxd).filter (d.get EGS_THR_DELAY_THR p < ·)
  let deep := ((List.range 8).map depth).filter (d.get EGS_THR_DEPTH_THR p < ·)
  let d := if d.on EGS_SAMPLE_RING_EN p then
      d.putRecord (d.get EGS_SAMPLE_RING p) (Pg.idx ⟨.egs, p⟩) 1 words true else d
  let d := (List.range 8).foldl (fun d t => (d.put EGS_TCSTAT_CELLS p (depth t) t).put EGS_TCSTAT_MAXDLY p 0 t) d
  let d := late.foldl (fun d _ => d.raise EGS_F_DELAY_THR p) d
  deep.foldl (fun d _ => d.raise EGS_F_DEPTH_THR p) d

/-- R287: EGS[p] sweeps the queues toward port p. -/
def Dev.egsSampleRow (d : Dev) (p : Nat) : Dev :=
  if d.halted || !d.portAvail p || !d.enabled ⟨.egs, p⟩ || d.get EGS_SAMPLE_INTERVAL p = 0 then d else d.sampleNow p

/-! ## Gate edges (R292, R293, R298) -/

/-- R293: a gate edge of port p is due: a committed list whose switch point has come is in force, and messages held for
an opening that has come are tested again. -/
def Dev.gateEdgeRow (d : Dev) (p : Nat) : Dev :=
  if !d.portAvail p then d
  else
    let x := d.egress p
    let d := if d.on GTE_CFG_GATE_EN p then d.tabRead 0x0C p [(d.gatesAt p d.fab).1] else d
    let held := x.gateHeld.filter fun h => d.fab < h / 8
    match x.switchAt with
    | some t =>
      if t ≤ d.fab then
        (d.setEgress p { x with switchAt := none, gateOn := d.on GTE_CFG_GATE_EN p, gateHeld := held }).put
          (PGEPOCH_APPLIED .gte) p 1
      else d.setEgress p { x with gateHeld := held }
    | none => d.setEgress p { x with gateHeld := held }

/-! ## Commands -/

/-- SHAPER_REFILL (R280). -/
def execShaperRefill (p : Nat) (s : State) : Host.Outcome State Fault Refusal :=
  run (decide (p < 128)) "SHAPER_REFILL" s (s.dev.shaperRefillRow p)

/-- EGS_SAMPLE (R287). -/
def execEgsSample (p : Nat) (s : State) : Host.Outcome State Fault Refusal :=
  run (decide (p < 128)) "EGS_SAMPLE" s (s.dev.egsSampleRow p)

/-- GATE_EDGE (R292). -/
def execGateEdge (p : Nat) (s : State) : Host.Outcome State Fault Refusal :=
  run (decide (p < 128)) "GATE_EDGE" s (s.dev.gateEdgeRow p)

end Sys2Proof.Machine
end

