-- ==== Sys2Proof/Machine/Dispatch.lean ====
section
/-! DEFINITION. The dispatch: one arm per command. -/

namespace Sys2Proof.Machine

/-- Each command has the effect its rules give it, at once. (DESIGN CHOICE, log entry 7; DESIGN CHOICE, log entry 108) -/
def exec (i : Instr) (s : State) : Host.Outcome State Fault Refusal :=
  match i with
  | .registerWrite path addr nbytes val => Sys2Proof.Machine.execRegisterWrite path addr nbytes val s
  | .mgmtPfReset cause => Sys2Proof.Machine.execMgmtPfReset cause s
  | .enableSet path pg => Sys2Proof.Machine.execEnableSet path pg s
  | .enableClear path pg => Sys2Proof.Machine.execEnableClear path pg s
  | .brst path pg => Sys2Proof.Machine.execBrst path pg s
  | .blockResetDone pg => Sys2Proof.Machine.execBlockResetDone pg s
  | .commit path pg => Sys2Proof.Machine.execCommit path pg s
  | .force path pg => Sys2Proof.Machine.execForce path pg s
  | .discard path pg => Sys2Proof.Machine.execDiscard path pg s
  | .heldCommit pg => Sys2Proof.Machine.execHeldCommit pg s
  | .epochApplied pg => Sys2Proof.Machine.execEpochApplied pg s
  | .pglockLocked path pg => Sys2Proof.Machine.execPglockLocked path pg s
  | .devCfgLock path => Sys2Proof.Machine.execDevCfgLock path s
  | .tblRead path w inc => Sys2Proof.Machine.execTblRead path w inc s
  | .tblWrite path w inc => Sys2Proof.Machine.execTblWrite path w inc s
  | .tblClear path w inc => Sys2Proof.Machine.execTblClear path w inc s
  | .tblBadOp path w op inc => Sys2Proof.Machine.execTblBadOp path w op inc s
  | .tblOpDone w ue => Sys2Proof.Machine.execTblOpDone w ue s
  | .msixUnmask wr => Sys2Proof.Machine.execMsixUnmask wr s
  | .acquire path n tag lease => Sys2Proof.Machine.execAcquire path n tag lease s
  | .renew path n tag lease => Sys2Proof.Machine.execRenew path n tag lease s
  | .release path n tag => Sys2Proof.Machine.execRelease path n tag s
  | .breakLock path n => Sys2Proof.Machine.execBreakLock path n s
  | .clrBroken path n tag => Sys2Proof.Machine.execClrBroken path n tag s
  | .leaseExpiry n => Sys2Proof.Machine.execLeaseExpiry n s
  | .mctpPathReset m => Sys2Proof.Machine.execMctpPathReset m s
  | .tapReset => Sys2Proof.Machine.execTapReset s
  | .devRstWarm path key => Sys2Proof.Machine.execDevRstWarm path key s
  | .devRstControl path key => Sys2Proof.Machine.execDevRstControl path key s
  | .devRstSlice path key target => Sys2Proof.Machine.execDevRstSlice path key target s
  | .devRstDomain path key target => Sys2Proof.Machine.execDevRstDomain path key target s
  | .devRstPort path key target => Sys2Proof.Machine.execDevRstPort path key target s
  | .mboxGo path => Sys2Proof.Machine.execMboxGo path s
  | .mboxDone status resp => Sys2Proof.Machine.execMboxDone status resp s
  | .calDone o => Sys2Proof.Machine.execCalDone o s
  | .calTimeout o => Sys2Proof.Machine.execCalTimeout o s
  | .failedRetry o => Sys2Proof.Machine.execFailedRetry o s
  | .chipletPllLoss c => Sys2Proof.Machine.execChipletPllLoss c s
  | .pllRelock c => Sys2Proof.Machine.execPllRelock c s
  | .elasticErr o lane => Sys2Proof.Machine.execElasticErr o lane s
  | .l0Entry p rates bypass lanes => Sys2Proof.Machine.execL0Entry p rates bypass lanes s
  | .eqFallback e => Sys2Proof.Machine.execEqFallback e s
  | .recovery e => Sys2Proof.Machine.execRecovery e s
  | .laneLoss p lost => Sys2Proof.Machine.execLaneLoss p lost s
  | .healthWindow o eyes => Sys2Proof.Machine.execHealthWindow o eyes s
  | .trainingControlBlock o lane payload => Sys2Proof.Machine.execTrainingControlBlock o lane payload s
  | .laneLock o lane headers => Sys2Proof.Machine.execLaneLock o lane headers s
  | .lockLost o lane headers => Sys2Proof.Machine.execLockLost o lane headers s
  | .drLockDone o => Sys2Proof.Machine.execDrLockDone o s
  | .drLockTimeout o => Sys2Proof.Machine.execDrLockTimeout o s
  | .drTrainDone o => Sys2Proof.Machine.execDrTrainDone o s
  | .drTrainTimeout o => Sys2Proof.Machine.execDrTrainTimeout o s
  | .drAlignDone a => Sys2Proof.Machine.execDrAlignDone a s
  | .drAlignTimeout o => Sys2Proof.Machine.execDrAlignTimeout o s
  | .drRetrainTimeout o => Sys2Proof.Machine.execDrRetrainTimeout o s
  | .marginGo path o => Sys2Proof.Machine.execMarginGo path o s
  | .marginStop path o => Sys2Proof.Machine.execMarginStop path o s
  | .partnerMargining o m => Sys2Proof.Machine.execPartnerMargining o m s
  | .marginDwellEnd o errs => Sys2Proof.Machine.execMarginDwellEnd o errs s
  | .marginErrLimit o => Sys2Proof.Machine.execMarginErrLimit o s
  | .eqCacheWrite path o lane val => Sys2Proof.Machine.execEqCacheWrite path o lane val s
  | .l1Entry p l0p => Sys2Proof.Machine.execL1Entry p l0p s
  | .protocolNegotiation p partner => Sys2Proof.Machine.execProtocolNegotiation p partner s
  | .flitReceive p flit => Sys2Proof.Machine.execFlitReceive p flit s
  | .egressStart p => Sys2Proof.Machine.execEgressStart p s
  | .ideKeySwitch p => Sys2Proof.Machine.execIdeKeySwitch p s
  | .gpfPhase p phase => Sys2Proof.Machine.execGpfPhase p phase s
  | .gpfAnswer p => Sys2Proof.Machine.execGpfAnswer p s
  | .gpfTimeout p => Sys2Proof.Machine.execGpfTimeout p s
  | .perstInAssert n => Sys2Proof.Machine.execPerstInAssert n s
  | .perstInDeassert n => Sys2Proof.Machine.execPerstInDeassert n s
  | .perstOutDelay p => Sys2Proof.Machine.execPerstOutDelay p s
  | .perstOutHold p => Sys2Proof.Machine.execPerstOutHold p s
  | .hotResetReceived p => Sys2Proof.Machine.execHotResetReceived p s
  | .hotReset path p => Sys2Proof.Machine.execHotReset path p s
  | .hotResetTimeout p => Sys2Proof.Machine.execHotResetTimeout p s
  | .retrain path p => Sys2Proof.Machine.execRetrain path p s
  | .disable path p => Sys2Proof.Machine.execDisable path p s
  | .disableClear path p => Sys2Proof.Machine.execDisableClear path p s
  | .linkDown p => Sys2Proof.Machine.execLinkDown p s
  | .cplTimeout p tag => Sys2Proof.Machine.execCplTimeout p tag s
  | .drlAttach path k oct valid => Sys2Proof.Machine.execDrlAttach path k oct valid s
  | .dunrunBlock k lane raw => Sys2Proof.Machine.execDunrunBlock k lane raw s
  | .messagePacket k => Sys2Proof.Machine.execMessagePacket k s
  | .ack k => Sys2Proof.Machine.execAck k s
  | .nak k => Sys2Proof.Machine.execNak k s
  | .credit k => Sys2Proof.Machine.execCredit k s
  | .init k => Sys2Proof.Machine.execInit k s
  | .initAck k => Sys2Proof.Machine.execInitAck k s
  | .spareReq k => Sys2Proof.Machine.execSpareReq k s
  | .spareAck k => Sys2Proof.Machine.execSpareAck k s
  | .spareDone k => Sys2Proof.Machine.execSpareDone k s
  | .spareNack k => Sys2Proof.Machine.execSpareNack k s
  | .spareBlockSwitch k => Sys2Proof.Machine.execSpareBlockSwitch k s
  | .spareReqRepeat k => Sys2Proof.Machine.execSpareReqRepeat k s
  | .spareTimeout k => Sys2Proof.Machine.execSpareTimeout k s
  | .timeReq k => Sys2Proof.Machine.execTimeReq k s
  | .timeResp k => Sys2Proof.Machine.execTimeResp k s
  | .timeFollow k => Sys2Proof.Machine.execTimeFollow k s
  | .crumb k => Sys2Proof.Machine.execCrumb k s
  | .routeWithdraw k => Sys2Proof.Machine.execRouteWithdraw k s
  | .routeRestore k => Sys2Proof.Machine.execRouteRestore k s
  | .secMac k => Sys2Proof.Machine.execSecMac k s
  | .keySwitch k => Sys2Proof.Machine.execKeySwitch k s
  | .linkInit k => Sys2Proof.Machine.execLinkInit k s
  | .initResend k => Sys2Proof.Machine.execInitResend k s
  | .nakResend k => Sys2Proof.Machine.execNakResend k s
  | .ackNsTimer k => Sys2Proof.Machine.execAckNsTimer k s
  | .ackIdleTimer k => Sys2Proof.Machine.execAckIdleTimer k s
  | .replayTimeout k => Sys2Proof.Machine.execReplayTimeout k s
  | .liveTimeout k => Sys2Proof.Machine.execLiveTimeout k s
  | .messagePacketSend k => Sys2Proof.Machine.execMessagePacketSend k s
  | .creditTimer k => Sys2Proof.Machine.execCreditTimer k s
  | .creditStall k vc => Sys2Proof.Machine.execCreditStall k vc s
  | .timeExchange k => Sys2Proof.Machine.execTimeExchange k s
  | .cellPresent b => Sys2Proof.Machine.execCellPresent b s
  | .heldAdmit b => Sys2Proof.Machine.execHeldAdmit b s
  | .tagFill sl word ue => Sys2Proof.Machine.execTagFill sl word ue s
  | .egressSelect e => Sys2Proof.Machine.execEgressSelect e s
  | .bankDecision sl b err => Sys2Proof.Machine.execBankDecision sl b err s
  | .stallTimeout sl id => Sys2Proof.Machine.execStallTimeout sl id s
  | .retire path sl b => Sys2Proof.Machine.execRetire path sl b s
  | .retirementDone sl => Sys2Proof.Machine.execRetirementDone sl s
  | .shaperRefill p => Sys2Proof.Machine.execShaperRefill p s
  | .egsSample p => Sys2Proof.Machine.execEgsSample p s
  | .gateEdge p => Sys2Proof.Machine.execGateEdge p s
  | .configurationRequest vcs vppb below off write val => Sys2Proof.Machine.execConfigurationRequest vcs vppb below off write val s
  | .mldLdLost p ld => Sys2Proof.Machine.execMldLdLost p ld s
  | .removalNotice dev p ld => Sys2Proof.Machine.execRemovalNotice dev p ld s
  | .vppbPowerControl u vppb on => Sys2Proof.Machine.execVppbPowerControl u vppb on s
  | .getVirtualCxlSwitchInfo path vcs start limit => Sys2Proof.Machine.execGetVirtualCxlSwitchInfo path vcs start limit s
  | .bindVppb path vcs vppb tgt ld => Sys2Proof.Machine.execBindVppb path vcs vppb tgt ld s
  | .unbindVppb path vcs vppb option => Sys2Proof.Machine.execUnbindVppb path vcs vppb option s
  | .generateAerEvent path vcs vppb err => Sys2Proof.Machine.execGenerateAerEvent path vcs vppb err s
  | .identifySwitchDevice path => Sys2Proof.Machine.execIdentifySwitchDevice path s
  | .getPhysicalPortState path ports => Sys2Proof.Machine.execGetPhysicalPortState path ports s
  | .physicalPortControl path p op => Sys2Proof.Machine.execPhysicalPortControl path p op s
  | .sendLdCxlIoConfigRequest path p ld off write val => Sys2Proof.Machine.execSendLdCxlIoConfigRequest path p ld off write val s
  | .tunnelManagementCommand path p payload => Sys2Proof.Machine.execTunnelManagementCommand path p payload s
  | .rdS h => Sys2Proof.Machine.execRdS h s
  | .rdO h => Sys2Proof.Machine.execRdO h s
  | .ownNd h => Sys2Proof.Machine.execOwnNd h s
  | .rdC h => Sys2Proof.Machine.execRdC h s
  | .wr h => Sys2Proof.Machine.execWr h s
  | .atom h => Sys2Proof.Machine.execAtom h s
  | .wbI h => Sys2Proof.Machine.execWbI h s
  | .wbS h => Sys2Proof.Machine.execWbS h s
  | .cln h => Sys2Proof.Machine.execCln h s
  | .bisI h => Sys2Proof.Machine.execBisI h s
  | .bisS h => Sys2Proof.Machine.execBisS h s
  | .bisC h => Sys2Proof.Machine.execBisC h s
  | .snoopAnswer h => Sys2Proof.Machine.execSnoopAnswer h s
  | .targetAnswer h => Sys2Proof.Machine.execTargetAnswer h s
  | .lineQueueHead h line => Sys2Proof.Machine.execLineQueueHead h line s
  | .waitBufferEntryFree h src => Sys2Proof.Machine.execWaitBufferEntryFree h src s
  | .retryOffer h set_ way => Sys2Proof.Machine.execRetryOffer h set_ way s
  | .snoopTimeout h line agent => Sys2Proof.Machine.execSnoopTimeout h line agent s
  | .quenchNotice agent domain dev => Sys2Proof.Machine.execQuenchNotice agent domain dev s
  | .quenchScanDone h => Sys2Proof.Machine.execQuenchScanDone h s
  | .dirPeek path h => Sys2Proof.Machine.execDirPeek path h s
  | .sccFlushClean path h => Sys2Proof.Machine.execSccFlushClean path h s
  | .acceptanceIndexRecord id => Sys2Proof.Machine.execAcceptanceIndexRecord id s
  | .trayHoldRelease src => Sys2Proof.Machine.execTrayHoldRelease src s
  | .streamingWrite src => Sys2Proof.Machine.execStreamingWrite src s
  | .cmbTimeout sl line agent => Sys2Proof.Machine.execCmbTimeout sl line agent s
  | .drainWrite p fn => Sys2Proof.Machine.execDrainWrite p fn s
  | .drainRead p fn => Sys2Proof.Machine.execDrainRead p fn s
  | .larderRead c => Sys2Proof.Machine.execLarderRead c s
  | .larderWrite c => Sys2Proof.Machine.execLarderWrite c s
  | .scrubRead c => Sys2Proof.Machine.execScrubRead c s
  | .pprSoft path c => Sys2Proof.Machine.execPprSoft path c s
  | .pprHard path c => Sys2Proof.Machine.execPprHard path c s
  | .pprDone c res => Sys2Proof.Machine.execPprDone c res s
  | .dimmThermalRead c temp => Sys2Proof.Machine.execDimmThermalRead c temp s
  | .larderTrainDone mods => Sys2Proof.Machine.execLarderTrainDone mods s
  | .chanFail c cause => Sys2Proof.Machine.execChanFail c cause s
  | .ioDieFault die => Sys2Proof.Machine.execIoDieFault die s
  | .vfEnable u n => Sys2Proof.Machine.execVfEnable u n s
  | .vfDisable u => Sys2Proof.Machine.execVfDisable u s
  | .functionFlr u fn => Sys2Proof.Machine.execFunctionFlr u fn s
  | .qcmdRead u fn => Sys2Proof.Machine.execQcmdRead u fn s
  | .qcmdWrite u fn => Sys2Proof.Machine.execQcmdWrite u fn s
  | .qcmdEnable u fn => Sys2Proof.Machine.execQcmdEnable u fn s
  | .qcmdDisable u fn => Sys2Proof.Machine.execQcmdDisable u fn s
  | .qcmdReset u fn => Sys2Proof.Machine.execQcmdReset u fn s
  | .heldReset q => Sys2Proof.Machine.execHeldReset q s
  | .disablingDone q => Sys2Proof.Machine.execDisablingDone q s
  | .doorbell u fn off nbytes val => Sys2Proof.Machine.execDoorbell u fn off nbytes val s
  | .contextFetch q => Sys2Proof.Machine.execContextFetch q s
  | .descriptorFetch q words ok => Sys2Proof.Machine.execDescriptorFetch q words ok s
  | .nop q => Sys2Proof.Machine.execNop q s
  | .copy q => Sys2Proof.Machine.execCopy q s
  | .fill q => Sys2Proof.Machine.execFill q s
  | .compare q => Sys2Proof.Machine.execCompare q s
  | .crc q => Sys2Proof.Machine.execCrc q s
  | .atomic8 q => Sys2Proof.Machine.execAtomic8 q s
  | .atomic16 q => Sys2Proof.Machine.execAtomic16 q s
  | .moveLive q => Sys2Proof.Machine.execMoveLive q s
  | .barrierLd q => Sys2Proof.Machine.execBarrierLd q s
  | .barrierSt q => Sys2Proof.Machine.execBarrierSt q s
  | .barrierFull q => Sys2Proof.Machine.execBarrierFull q s
  | .interrupt q => Sys2Proof.Machine.execInterrupt q s
  | .barrierComplete q => Sys2Proof.Machine.execBarrierComplete q s
  | .completionRecord q ok => Sys2Proof.Machine.execCompletionRecord q ok s
  | .shareEntryEnd e => Sys2Proof.Machine.execShareEntryEnd e s
  | .moveLiveCopyDone m => Sys2Proof.Machine.execMoveLiveCopyDone m s
  | .moveLiveRecopyDone m => Sys2Proof.Machine.execMoveLiveRecopyDone m s
  | .moveLiveHoldReady m => Sys2Proof.Machine.execMoveLiveHoldReady m s
  | .moveLiveHoldTimeout m => Sys2Proof.Machine.execMoveLiveHoldTimeout m s
  | .prsntAssert n => Sys2Proof.Machine.execPrsntAssert n s
  | .prsntDeassert n => Sys2Proof.Machine.execPrsntDeassert n s
  | .vinWindow n vin => Sys2Proof.Machine.execVinWindow n vin s
  | .insertionTimer n => Sys2Proof.Machine.execInsertionTimer n s
  | .rampEntry n => Sys2Proof.Machine.execRampEntry n s
  | .rampDone n vin vout => Sys2Proof.Machine.execRampDone n vin vout s
  | .rampTimeout n => Sys2Proof.Machine.execRampTimeout n s
  | .fastTrip n iout => Sys2Proof.Machine.execFastTrip n iout s
  | .ovTrip n vin => Sys2Proof.Machine.execOvTrip n vin s
  | .ocTrip n => Sys2Proof.Machine.execOcTrip n s
  | .vinLow n vin => Sys2Proof.Machine.execVinLow n vin s
  | .coolDone n => Sys2Proof.Machine.execCoolDone n s
  | .fetFail n vout => Sys2Proof.Machine.execFetFail n vout s
  | .retryCountReset n => Sys2Proof.Machine.execRetryCountReset n s
  | .spuOn path n => Sys2Proof.Machine.execSpuOn path n s
  | .spuOff path n => Sys2Proof.Machine.execSpuOff path n s
  | .clearFet path n vout => Sys2Proof.Machine.execClearFet path n vout s
  | .measure path => Sys2Proof.Machine.execMeasure path s
  | .measurePeriodic => Sys2Proof.Machine.execMeasurePeriodic s
  | .measureHoldReady => Sys2Proof.Machine.execMeasureHoldReady s
  | .measureLoadEnd charge loadUs => Sys2Proof.Machine.execMeasureLoadEnd charge loadUs s
  | .measureDone v2 => Sys2Proof.Machine.execMeasureDone v2 s
  | .dmaxRecompute vstart => Sys2Proof.Machine.execDmaxRecompute vstart s
  | .creditBlockRequest sl scc => Sys2Proof.Machine.execCreditBlockRequest sl scc s
  | .pwrfail => Sys2Proof.Machine.execPwrfail s
  | .lowBank vbank => Sys2Proof.Machine.execLowBank vbank s
  | .flushWritesDone => Sys2Proof.Machine.execFlushWritesDone s
  | .flushPhase1Done => Sys2Proof.Machine.execFlushPhase1Done s
  | .flushPhase2Done => Sys2Proof.Machine.execFlushPhase2Done s
  | .flushGpfTimeout => Sys2Proof.Machine.execFlushGpfTimeout s
  | .fuseLoad ok arc krev cust => Sys2Proof.Machine.execFuseLoad ok arc krev cust s
  | .bootVerify imgA imgB => Sys2Proof.Machine.execBootVerify imgA imgB s
  | .bootBundle bundle => Sys2Proof.Machine.execBootBundle bundle s
  | .fwRestart img => Sys2Proof.Machine.execFwRestart img s
  | .trngFail => Sys2Proof.Machine.execTrngFail s
  | .advanceArc path burned => Sys2Proof.Machine.execAdvanceArc path burned s
  | .dbgChallenge path => Sys2Proof.Machine.execDbgChallenge path s
  | .dbgUnlock path => Sys2Proof.Machine.execDbgUnlock path s
  | .bundleApply path => Sys2Proof.Machine.execBundleApply path s
  | .rcvWrite path bank => Sys2Proof.Machine.execRcvWrite path bank s
  | .rcvBoot path bank img => Sys2Proof.Machine.execRcvBoot path bank img s
  | .relayIn path k => Sys2Proof.Machine.execRelayIn path k s
  | .relayOutRelease path => Sys2Proof.Machine.execRelayOutRelease path s
  | .anchorSet path n => Sys2Proof.Machine.execAnchorSet path n s
  | .drlRekey path k => Sys2Proof.Machine.execDrlRekey path k s
  | .spdmRequest src req => Sys2Proof.Machine.execSpdmRequest src req s
  | .ideKm p k => Sys2Proof.Machine.execIdeKm p k s
  | .dunrunKeyExchange k => Sys2Proof.Machine.execDunrunKeyExchange k s
  | .keyExchangeTimeout k => Sys2Proof.Machine.execKeyExchangeTimeout k s
  | .keyExchangeRestart k => Sys2Proof.Machine.execKeyExchangeRestart k s
  | .keyUsageLimit k => Sys2Proof.Machine.execKeyUsageLimit k s
  | .meas7Compute => Sys2Proof.Machine.execMeas7Compute s
  | .pwrGoodRise => Sys2Proof.Machine.execPwrGoodRise s
  | .pwrGoodFall => Sys2Proof.Machine.execPwrGoodFall s
  | .coldRstN => Sys2Proof.Machine.execColdRstN s
  | .warmRstN => Sys2Proof.Machine.execWarmRstN s
  | .resetEntry => Sys2Proof.Machine.execResetEntry s
  | .quiesceTimeout => Sys2Proof.Machine.execQuiesceTimeout s
  | .portResetRecallDone p => Sys2Proof.Machine.execPortResetRecallDone p s
  | .fabricReadyRise => Sys2Proof.Machine.execFabricReadyRise s
  | .clockLoss refclk => Sys2Proof.Machine.execClockLoss refclk s
  | .inputDebounce n level => Sys2Proof.Machine.execInputDebounce n level s
  | .chatter n count => Sys2Proof.Machine.execChatter n count s
  | .fltStatusClear path pg mask => Sys2Proof.Machine.execFltStatusClear path pg mask s
  | .fltInject path pg val => Sys2Proof.Machine.execFltInject path pg val s
  | .fltCountClr path pg => Sys2Proof.Machine.execFltCountClr path pg s
  | .fwStall => Sys2Proof.Machine.execFwStall s
  | .epochWait => Sys2Proof.Machine.execEpochWait s
  | .tmbSet path v => Sys2Proof.Machine.execTmbSet path v s
  | .ptmTimer => Sys2Proof.Machine.execPtmTimer s
  | .ptmRequest p => Sys2Proof.Machine.execPtmRequest p s
  | .ptmResponse t2 t3 t4 => Sys2Proof.Machine.execPtmResponse t2 t3 t4 s
  | .fire path => Sys2Proof.Machine.execFire path s
  | .clrall path => Sys2Proof.Machine.execClrall path s
  | .crumbTimeMatch => Sys2Proof.Machine.execCrumbTimeMatch s
  | .crumbLatch => Sys2Proof.Machine.execCrumbLatch s
  | .cntSelWrite path pg j val => Sys2Proof.Machine.execCntSelWrite path pg j val s
  | .cntClr path pg n => Sys2Proof.Machine.execCntClr path pg n s
  | .cclSweep => Sys2Proof.Machine.execCclSweep s
  | .cclSweepDone ok => Sys2Proof.Machine.execCclSweepDone ok s
  | .telemetryRecord r src type_ payload ok => Sys2Proof.Machine.execTelemetryRecord r src type_ payload ok s
  | .tlmPop path => Sys2Proof.Machine.execTlmPop path s
  | .tlmRhead path v => Sys2Proof.Machine.execTlmRhead path v s
  | .tlmRingEnable path => Sys2Proof.Machine.execTlmRingEnable path s
  | .avsUpdate target ack => Sys2Proof.Machine.execAvsUpdate target ack s
  | .junctionSensorRead temps => Sys2Proof.Machine.execJunctionSensorRead temps s
  | .refusedRead path addr nbytes => Sys2Proof.Machine.execRefusedRead path addr nbytes s
  | .vddAuxLoss => Sys2Proof.Machine.execVddAuxLoss s
  | .vddAuxRise => Sys2Proof.Machine.execVddAuxRise s
  | .coldRstNRelease => Sys2Proof.Machine.execColdRstNRelease s
  | .managementComplexCrash => Sys2Proof.Machine.execManagementComplexCrash s
  | .measureSettled v1 => Sys2Proof.Machine.execMeasureSettled v1 s
  | .drRetrainDone o => Sys2Proof.Machine.execDrRetrainDone o s
  | .remoteSnoop h => Sys2Proof.Machine.execRemoteSnoop h s

end Sys2Proof.Machine
end

