-- ==== Sys2Proof/Machine/Idle.lean ====
section
/-! DEFINITION. What one TIMECLK cycle without a command does (log entry 6). -/

namespace Sys2Proof.Machine

/-- The core clock trees run: power is good, no Cold reset holds the device, and no clock loss or thermal trip has stopped
them (R591, R624, R661). -/
def Dev.clocked (d : Dev) : Bool := (d.rst.phase != .off) && (d.rst.phase != .coldHeld) && !d.rst.clockLost && !d.rst.thermTrip

/-- The power die's own oscillator runs whatever the clocks do (R28). -/
def Dev.oscTick (d : Dev) : Dev := { d with elec := { d.elec with osc := d.elec.osc + (if d.rst.vddAux then 32 else 0) } }

/-- One TIMECLK cycle passes: a bundle whose commit has ended goes on (R559), Slice and Domain resets whose steps have ended are
over (R584), and time advances (R624). (DESIGN CHOICE, log entry 6) -/
def Dev.cycle (d : Dev) : Dev :=
  let d := d.oscTick
  if d.clocked then d.bundlePoll.rstPoll.clockEdge.instant.cycleEnd else d

end Sys2Proof.Machine
end

