-- ==== Sys2Proof/Machine/Step.lean ====
section
/-! DEFINITION. One step: the command at the front of the queue, or one TIMECLK cycle when none waits. -/

namespace Sys2Proof.Machine

/-- One step. A waiting command runs with the queue's rest; an empty queue lets one TIMECLK cycle pass. (DESIGN CHOICE, log entry 6; DESIGN CHOICE, log entry 108) -/
def step (s : State) : Host.Outcome State Fault Refusal :=
  match s.pending with
  | [] => .next { s with dev := s.dev.cycle }
  | c :: r => exec c { s with pending := r }

/-- The state with the command a word spells put at the front of the queue; the opcode table gives no row bits, so no
word spells one and the state is unchanged. (DESIGN CHOICE, log entry 1; DESIGN CHOICE, log entry 2) -/
def State.withFetchWord (s : State) (nbits w : Nat) : State :=
  match decodeTableWord nbits w with
  | some c => { s with pending := c :: s.pending }
  | none => s

end Sys2Proof.Machine
end

