-- ==== Sys2Proof/Machine/Package.lean ====
section
/-! DEFINITION. The package: ball names, the signal of every ball, and the supply rails (chapter 21, Table 18-1). -/

namespace Sys2Proof.Machine

/-! ## Rails (R572, R655, R656) -/

inductive Rail | core | sram | sds | hsds | ddr | io | aux | vin
  deriving DecidableEq, Repr

/-- Step of Table 18-1 in which a rail rises; VDD_SRAM never before VDD_CORE. -/
def Rail.step : Rail → Nat
  | .aux | .vin => 1
  | .io | .ddr => 2
  | .core | .sram => 3
  | .sds | .hsds => 4

/-- Operating range of Table 21-2, in millivolts; VDD_CORE's is that of every AVSBus target. -/
def Rail.range : Rail → Nat × Nat
  | .core => (720, 800)
  | .sram | .sds => (776, 824)
  | .hsds => (1164, 1236)
  | .ddr => (1067, 1133)
  | .io => (1710, 1890)
  | .aux => (3135, 3465)
  | .vin => (10800, 13200)

/-- Absolute maximum of Table 21-1, in millivolts; the minimum is −300 mV for every rail. -/
def Rail.absMax : Rail → Nat
  | .core | .sram | .sds => 950
  | .hsds => 1400
  | .ddr => 1300
  | .io => 2100
  | .aux => 3800
  | .vin => 16000

/-- Every rail lies in its operating range: the guarantees of the manual hold (R656). -/
def railsGood (mv : Rail → Nat) : Prop := ∀ r : Rail, r.range.1 ≤ mv r ∧ mv r ≤ r.range.2

/-! ## Balls (R672) -/

def rowLetters : List Char := ['A', 'B', 'C', 'D', 'E', 'F', 'G', 'H', 'J', 'K', 'L', 'M', 'N', 'P', 'T', 'U', 'V', 'W', 'Y']

/-- Name of row r, 1 to 95. -/
def rowName (r : Nat) : List Char :=
  let q := (r - 1) / 19
  (if q = 0 then [] else [rowLetters.getD (q - 1) ' ']) ++ [rowLetters.getD ((r - 1) % 19) ' ']

/-! ## Signals (R673 to R679) -/

/-- What a ball carries. `neg`: the complement of a differential pair. -/
inductive Signal
  | gnd
  | rail (r : Rail)
  | sdsTx (o l : Nat) (neg : Bool) | sdsRx (o l : Nat) (neg : Bool)
  | memDq (c i : Nat) | memDqs (c n : Nat) (neg : Bool)
  /-- control signals of a channel: command/address bit, chip select, parity and clock of subchannel A or B -/
  | memCa (c : Nat) (b : Bool) (i : Nat) | memCs (c : Nat) (b : Bool) (i : Nat) | memPar (c : Nat) (b : Bool)
  | memCk (c : Nat) (b neg : Bool)
  | memAlert (c : Nat) | memReset (c : Nat) | memScl (c : Nat) | memSda (c : Nat)
  | gate (n : Nat) | src (n : Nat) | snsp (n : Nat) | snsn (n : Nat) | prsnt (n : Nat) | en (n : Nat)
  | perstIn (i : Nat) | perstOut (j : Nat) | gpio (i : Nat)
  | mpeTx (l : Nat) (neg : Bool) | mpeRx (l : Nat) (neg : Bool) | refclk (neg : Bool)
  /-- a ball of T29 to T74, by its column (Table 21-15) -/
  | control (col : Nat)
  deriving DecidableEq, Repr

/-- The tile of octet o at depth u and position v (R674). -/
def octetSignal (o u v : Nat) : Signal :=
  if u % 3 = 0 || (v = 4 && 4 ≤ u % 6) then .gnd
  else
    let l := 2 * v + (if u % 6 ≤ 2 then 0 else 1)
    if u < 6 then .sdsTx o l (u % 3 = 2) else .sdsRx o l (u % 3 = 2)

/-- The tile of channel c at row a and column b (R675, Table 21-14). -/
def channelSignal (c a b : Nat) : Signal :=
  if a = 9 || (a ≤ 7 && b = 15) then .gnd
  else if a ≤ 7 then
    let n := 5 * (a / 2) + b / 3
    if b % 3 = 2 then .memDqs c n (a % 2 = 1) else .memDq c (4 * n + 2 * (a % 2) + b % 3)
  else
    let y : Bool := a = 10
    if b ≤ 6 then .memCa c y b
    else if b ≤ 8 then .memCs c y (b - 7)
    else if b = 9 then .memPar c y
    else if b ≤ 11 then .memCk c y (b = 11)
    else if !y then .gnd
    else match b with
      | 12 => .memAlert c
      | 13 => .memReset c
      | 14 => .memScl c
      | _ => .memSda c

/-- The tile of slot power unit n, in its first or second row (R676). -/
def slotSignal (n j : Nat) (second : Bool) : Signal :=
  match second, j with
  | false, 0 => .gate n
  | false, 1 => .src n
  | false, 2 => .snsp n
  | false, _ => .snsn n
  | true, 0 => .prsnt n
  | true, 1 => .en n
  | true, _ => .gnd

/-- Rows 13 to 15 of columns 1 to 12: the management PF (Table 21-15). -/
def mgmtSignal (r k : Nat) : Signal :=
  if r = 13 then
    (if k ≤ 8 then .mpeTx ((k - 1) / 2) ((k - 1) % 2 = 1) else if k = 10 then .refclk false else if k = 11 then .refclk true else .gnd)
  else if r = 14 && k ≤ 8 then .mpeRx ((k - 1) / 2) ((k - 1) % 2 = 1) else .gnd

/-- Row 15 of columns 13 to 83 (Table 21-15). -/
def rowTSignal (k : Nat) : Signal :=
  if k ≤ 28 then .gpio (k - 13) else if k ≤ 74 then .control k else if k % 2 = 1 then .rail .io else .gnd

/-- The rail of a column of the core power region (Table 21-16). -/
def coreRail (k : Nat) : Rail :=
  if k = 29 || k = 67 then .ddr
  else if k ≤ 31 || 65 ≤ k then .hsds
  else if k ≤ 37 || 59 ≤ k then .sds
  else if k ≤ 39 || 57 ≤ k then .sram
  else .core

/-- The signal of the ball in row r and column k, both 1 to 95 (Table 21-12); what no rule assigns is ground (R679). -/
def ballSignal (r k : Nat) : Signal :=
  if r ≤ 12 && k ≤ 80 then octetSignal ((k - 1) / 5) (r - 1) ((k - 1) % 5)
  else if r ≤ 80 && 84 ≤ k then octetSignal (16 + (r - 1) / 5) (95 - k) ((r - 1) % 5)
  else if 84 ≤ r && 16 ≤ k then octetSignal (32 + (95 - k) / 5) (95 - r) ((95 - k) % 5)
  else if 16 ≤ r && k ≤ 12 then octetSignal (48 + (95 - r) / 5) (k - 1) ((95 - r) % 5)
  else if r ≤ 12 then
    (if r % 2 = 1 && (k - 81) * 6 + (r - 1) / 2 < 16 then .perstIn ((k - 81) * 6 + (r - 1) / 2) else .gnd)
  else if 84 ≤ k then (if (r - 81) * 12 + (k - 84) < 32 then .perstOut ((r - 81) * 12 + (k - 84)) else .gnd)
  else if r ≤ 15 && k ≤ 12 then mgmtSignal r k
  else if r = 15 then rowTSignal k
  else if r ≤ 14 then
    (if k ≤ 19 then (if (r + k) % 2 = 1 then .rail .aux else .gnd) else slotSignal ((k - 20) / 4) ((k - 20) % 4) (r = 14))
  else if 84 ≤ r then .gnd
  else if 82 ≤ r then
    (if k ≤ 19 then (if (r + k) % 2 = 1 then .rail .vin else .gnd) else slotSignal (16 + (k - 20) / 4) ((k - 20) % 4) (r = 83))
  else if 68 ≤ k then channelSignal ((r - 16) / 11) ((r - 16) % 11) (83 - k)
  else if k ≤ 28 then channelSignal (6 + (r - 16) / 11) ((r - 16) % 11) (k - 13)
  else if (r + k) % 2 = 0 then .gnd else .rail (coreRail k)

end Sys2Proof.Machine
end

