-- ==== Sys2Proof/Machine/Promise.lean ====
section
/-! DEFINITION. The conditions of the isolation promise and of the single-fault bound (R511, R514, R621). -/

namespace Sys2Proof.Machine

/-! ## Isolation (Table 15-8) -/

/-- A requester of the domain checked at ACU[p]: a port, an LD or an allocated queue, by its key (Table 15-1). -/
def Dev.Holder (d : Dev) (dom p : Nat) (k : Key) : Prop :=
  k.domain = dom ∧
    ((∃ i < 17, k = d.portKey d.epoch p i) ∨ ∃ q, d.q q cAlloc = 1 ∧ d.q q cVcs = p ∧ k = d.queueKey q)

/-- An access of ACU[p] to the byte reaches the byte of a target: a valid region holds it and decode maps it. -/
def Dev.Reaching (d : Dev) (p a : Nat) (t : Tgt × Nat) : Prop :=
  (d.regionAt d.epoch p a).isSome ∧ (d.decode d.epoch p a).map (fun (x : Dec) => (x.tgt, x.dpa)) = some t

/-- No colour keys both; colour 0 is a key's empty place and matches nothing (R499). -/
def Dev.ColoursApart (d : Dev) (D E : Nat) : Prop :=
  ∀ p p' k k' c, d.Holder D p k → d.Holder E p' k' → c ≠ 0 → c ∈ k.cols → c ∉ k'.cols

/-- Where a requester of D is checked, a region with C clear serves no requester of E, and no byte it reaches is reached
for E. -/
def Dev.RegionsApart (d : Dev) (D E : Nat) : Prop :=
  ∀ p a x k, d.Holder D p k → d.regionAt d.epoch p a = some x → x.c = false →
    (∀ k', ¬ d.Holder E p k') ∧
      ∀ t p' b k', d.Reaching p a t → d.Holder E p' k' → ¬ d.Reaching p' b t

/-- No target but a Larder LD is bound in the VCSs of both (R440). -/
def Dev.TargetsApart (d : Dev) (D E : Nat) : Prop :=
  ∀ x ∈ d.boundAll, ∀ y ∈ d.boundAll, ∀ t k k', x.2.2.tgt = some t → y.2.2.tgt = some t → t.larder = false →
    d.Holder D x.1 k → ¬ d.Holder E y.1 k'

def Dev.committed (d : Dev) : Bool :=
  Pg.all.all fun g => d.on (PGEPOCH_APPLIED g.blk) g.inst && !d.on (PGEPOCH_PEND g.blk) g.inst

/-- Table 15-8 on one device, where the listed ports and links leave a trusted enclosure. -/
structure Dev.Isolated (d : Dev) (ports links : List Nat) (D E : Nat) : Prop where
  checks : ∀ p k, d.Holder D p k ∨ d.Holder E p k → d.on ACU_CFG_EN p = true
  colours : d.ColoursApart D E
  regions : d.RegionsApart D E ∧ d.RegionsApart E D
  targets : d.TargetsApart D E
  known : (d.domainSlot D).isSome ∧ (d.domainSlot E).isSome ∧ ∀ p k, ¬ d.Holder 0x3FF p k
  locked : d.allLocked = true ∧ d.committed = true
  firmware : d.on DEV_READY_FW_RUN = true ∧ d.get SEC_STAT_BOOT = 1
  debug : d.on SEC_STAT_DBG = false
  cxl : ∀ p ∈ ports, d.on PRT_CFG_IDE_REQ p = true ∧ d.on PRT_STAT_IDE_ACT p = true
  dunrun : ∀ k ∈ links, d.on DRL_CFG_ENC_REQ k = true

/-- R511: the domains are isolated on a fabric; every device comes with the ports and links that leave a trusted
enclosure. -/
def isolated (fabric : List (Dev × List Nat × List Nat)) (D E : Nat) : Prop :=
  ∀ x ∈ fabric, x.1.Isolated x.2.1 x.2.2 D E

/-- R514: the slices that carry the domains' traffic are sealed. -/
def Dev.sealedFor (d : Dev) (slices : List Nat) : Bool := slices.all d.sealed

/-! ## The single-fault bound (R621) -/

/-- Every unmasked source acts at or below its default severity. -/
def Dev.severitiesKept (d : Dev) : Bool :=
  Pg.all.all fun g => g.blk.faults.all fun f =>
    bits (d.word (FLT_MASK g.blk) g.inst) f.num 1 = 1 || bits (d.word (FLT_SEV g.blk) g.inst) (3 * f.num) 3 ≤ f.sev

def Dev.timersKept (d : Dev) : Bool :=
  [DIR_CFG_SNOOP_TO, DRL_TIMERS_LIVE_TO, SLC_CFG_STALL_TO].all fun f =>
    (List.range f.reg.blk.insts).all fun i => d.get f i ≤ bits (f.reg.resetAt i 0) f.lo f.width

/-- Every one of the destinations keeps another usable candidate. -/
def Dev.rerouted (d : Dev) (dests : List Nat) : Bool :=
  dests.all fun g => 2 ≤ (((List.range 4).filterMap (routeCand (d.tab 0x01 0 g))).filter (d.candOk g)).length

/-- R621, for the ports with their rate, the slices and the destinations concerned. -/
def Dev.bounded (d : Dev) (ports : List (Nat × Nat)) (slices dests : List Nat) : Bool :=
  d.severitiesKept && d.timersKept && ports.all (fun x => d.cacheOk x.1 x.2) &&
    slices.all (fun s => d.on OVN_ECC_AUTO s && d.canRetire s) && d.rerouted dests && !d.flushing

end Sys2Proof.Machine
end

