-- ==== Sys2Proof/Safety.lean ====
section
/-! DEFINITION. What counts as a safe run: the words the statements use. -/

namespace Sys2Proof.Machine

/-- The state with this device; the queue stands. -/
def State.withDev (s : State) (d : Dev) : State := { s with dev := d }

/-- The state after a command that gives this device: the command's CTLCLK cycle ends (R598). -/
def State.after (s : State) (d : Dev) : State := { s with dev := d.cycleEnd }

/-- The command gives a next state. -/
def Completes (c : Instr) (s : State) : Prop := ∃ t, exec c s = .next t

/-- A command of the path reaches the page: the path is open (Table 2-3) and a Control start has made the page
reachable (R590). -/
def Dev.Reaches (d : Dev) (path : Nat) (g : Pg) : Prop := d.pathOpen path = true ∧ d.notYet g.blk = false

/-- A command of the path reaches the page at page number pg, and the register at the offset takes its effect. -/
def Dev.Finds (d : Dev) (path pg : Nat) (g : Pg) (off : Nat) : Prop :=
  Pg.at? (pg * 4096) = some g ∧ d.Reaches path g ∧ d.prtMute g off = false

/-- A Fabric Manager command of the path is served: the path is open and device firmware runs. -/
def Dev.FmOpen (d : Dev) (path : Nat) : Prop := d.pathOpen path = true ∧ d.on DEV_READY_FW_RUN = true

/-- A Warm or Control reset would begin with a quiesce: the device runs with its clocks, and no flush or halt stands
in the way (R577). -/
def Dev.canQuiesce (d : Dev) : Bool :=
  !d.rst.clockLost && !d.rst.thermTrip && !d.flushing && !d.on FAG_STAT_HALTED && d.rst.phase = .running && !d.flushed

/-- The data a front-of-link packet command finds: a packet whose check holds, of this type, in a state that takes it, on
a link that does not encrypt; a TIME packet lies in no swapped or replayed block (R189). -/
def Dev.Packet (d : Dev) (k type sub : Nat) (b : Bytes) : Prop :=
  d.front k = some b ∧ d.halted = false ∧ pktType b = type ∧ pktSub b = sub ∧
    (d.popFront k b).pktNow k type = true ∧ (d.popFront k b).encOn k = false ∧
    (type = 0xC → (d.frontBlks k b.length).any (fun x => ((d.popFront k b).link k).markBlk.contains x) = false)

/-- A request of the kind is the message SIE[h] takes next, and neither the wait buffer nor an earlier waiting request
of its line holds it back (R381, R385). -/
def Dev.NextRequest (d : Dev) (h : Nat) (k : Kind) (m : Msg) (d2 : Dev) : Prop :=
  d.halted = false ∧ d.arrivedAt h 0 = [] ∧ d.takeFrom h 1 = none ∧ d.takeFrom h 2 = some (m, d2) ∧
    kindOf m.body.op = some k ∧ (d.home h).waits.length < 1024 ∧
    (d.home h).waits.any (fun w => !w.retry && w.tk = m.body.tk && w.h = m.hline) = false

/-- No register outside the page, no byte of the Larder and no active table differs between the two. -/
def Dev.OnlyPage (g : Pg) (d e : Dev) : Prop :=
  (∀ r k l, r.addr k l < g.addr ∨ g.addr + 4096 ≤ r.addr k l → e.word r k l = d.word r k l) ∧
    (∀ a, e.lbyte a = d.lbyte a) ∧ e.tabs = d.tabs

/-- What every step keeps, over the three parts of the device it speaks of: the Larder's memory is in its canonical
form (addresses rising, no listed byte equal to what an unlisted one reads as), at most four Crumb edges wait (R632),
and the acknowledged core supply lies on the AVS grid (R657). -/
def SoundF (m : List Host.Cell) (e : List Edge) (a : Nat) : Prop :=
  SMap.wf (fun _ => (0 : Byte)) m = true ∧ e.length ≤ 4 ∧ 720 ≤ a ∧ a ≤ 800 ∧ a % 5 = 0

def Dev.Sound (d : Dev) : Prop := SoundF d.ldr.mem d.obs.crumb.edges d.elec.avsAck

end Sys2Proof.Machine
end

