-- ==== Sys2Proof/Certificates/Slice0/Obligations.lean ====
section
/-! DEFINITION. The statements for the provers. Each docstring names the rules of the spec it rests on; the groups named
<family>Commands say, for every command of a family, the next state its own effect gives under hypotheses on the state
and the operands alone. -/

open Sys2Proof Sys2Proof.Machine

/-- With a command c at the front of its queue, a step is exec of c on the state with the queue's rest. (chapter 2,
Control Space) -/
def Obligations.StepRunsFrontCommand : Prop :=
  ∀ (c : Instr) (r : List Instr) (s : State), step { s with pending := c :: r } = exec c { s with pending := r }

/-- On an empty queue a step lets one TIMECLK cycle pass: while the clock trees stand still only the power die's
oscillator runs, and with no time set pending, no bundle and no Slice or Domain reset waiting the cycle is one count
of the oscillator and of the time base, its tracking check, and a new free root tick at which the next commands fall.
That an idle step is a cycle is the model's choice (log entry 6). (R624, R28, chapter 20, Observability) -/
def Obligations.IdleStepIsOneTimeclkCycle : Prop :=
  ∀ s : State, s.pending = [] → step s = .next { s with dev := s.dev.cycle } ∧
    (s.dev.clocked = false → s.dev.cycle = s.dev.oscTick) ∧
    (s.dev.clocked = true → s.dev.sec.bundle = none → s.dev.rst.active = [] → s.dev.obs.clk.setNext = none →
      s.dev.cycle = (s.dev.oscTick.tick.trackCheck.instant).cycleEnd)

/-- The tick moves local time on by 32 root ticks (modulo 2^64) and, while the device does not run firmware, leaves the
heartbeat interval as it stands; it leaves the Larder, the active tables, the switching core and the coherence state
as they are. (R624) -/
def Obligations.TickMovesLocalTimeByThirtyTwo : Prop :=
  ∀ d : Dev, d.tick.obs.clk.local_ = (d.obs.clk.local_ + 32) % 2 ^ 64 ∧ (d.on DEV_READY_FW_RUN = false → d.tick.obs.clk.beat = d.obs.clk.beat) ∧
    d.tick.ldr = d.ldr ∧ d.tick.tabs = d.tabs ∧ d.tick.core = d.core ∧ d.tick.coh = d.coh

/-- After reset no command waits, every register and shadow reads the reset word of its table, every table entry its reset
word, every Larder byte reads zero (log entry 3), the switching core stores nothing and the directory holds no line.
(Table 18-5, Table 0-3, chapter 2, Control Space) -/
def Obligations.ResetState : Prop :=
  State.reset.pending = [] ∧ (∀ r i j, State.reset.dev.word r i j = r.resetAt i j) ∧ (∀ r i j, State.reset.dev.shWord r i j = r.resetAt i j) ∧
    (∀ t i x w, State.reset.dev.tab t i x w = tabReset t x w) ∧ (∀ a, State.reset.dev.lbyte a = 0) ∧
    State.reset.dev.core.oven = [] ∧ State.reset.dev.coh.dir = [] ∧ State.reset.dev.coh.tray = [] ∧ State.reset.dev.out = []

/-- The opcode table gives no row bits, so no word spells a command and withFetchWord leaves the state.
(spec/opcode_table.json) -/
def Obligations.NoWordSpellsACommand : Prop :=
  ∀ n w : Nat, decodeTableWord n w = none ∧ ∀ s : State, s.withFetchWord n w = s

/-- For every command whose operands name units the device has and every state, exec gives a next state whose queue is the
one it was given. (chapter 2, Control Space) -/
def Obligations.WellFormedCommandsComplete : Prop :=
  ∀ (c : Instr) (s : State), c.wf = true → ∃ t, exec c s = .next t ∧ t.pending = s.pending

/-- A command whose operands name a unit the device does not have ends in the fault noSuchUnit. (chapter 2, Control Space) -/
def Obligations.IllFormedCommandsFault : Prop :=
  ∀ (c : Instr) (s : State), c.wf = false → ∃ n, exec c s = .fault (.noSuchUnit n)

/-- After reset the Larder's memory is in canonical form, at most four Crumb edges wait and the acknowledged supply lies
on the AVS grid. (chapter 13, Larder, R632, R657) -/
def Obligations.SoundAtReset : Prop :=
  State.reset.dev.Sound

/-- From every state whose Larder memory is in canonical form, where at most four Crumb edges wait and the acknowledged
core supply lies between 720 and 800 mV on the 5 mV grid, every step that answers a next state, whatever command is in
front or with none, gives a state of the same kind. (R632, R657, chapter 13, Larder) -/
def Obligations.StepKeepsSound : Prop :=
  ∀ s t : State, s.dev.Sound → step s = .next t → t.dev.Sound

/-- What register writes and reads, the resets of the access paths, MSI-X changes and the firmware mailbox do. Commands:
REGISTER_WRITE, REFUSED_READ, MGMT_PF_RESET, MSIX_UNMASK, MCTP_PATH_RESET, TAP_RESET, MBOX_GO, MBOX_DONE. Each gives
the next state written out, for every state and operands that meet the hypotheses; values the spec leaves open and the
conventions of the log are the model's. (chapter 2, Control Space, R12, R42, R40, R64, R68, R71) -/
def Obligations.ControlSpaceCommands : Prop :=
  (∀ (s : State) (path : Nat) (addr : Nat) (nbytes : Nat) (val : Nat) (g : Pg) (x : RegD) (j : Nat), (.registerWrite path addr nbytes val : Instr).wf = true → s.dev.pathOpen path = true → s.dev.reachAt addr nbytes = .inr g → g.blk ≠ .sec ∨ addr % 4096 / 8 * 8 ≠ SEC_CMD.off → addr % 4096 < 0x800 → g.regAt (addr % 4096 / 8 * 8) = some (x, j) → x.reg ≠ DEV_RST → exec (.registerWrite path addr nbytes val) s = .next (s.after (s.dev.regWrite path g x j (halfVal (addr % 4096) nbytes val) (halfMask (addr % 4096) nbytes)))) ∧
    (∀ (s : State) (path : Nat) (addr : Nat) (nbytes : Nat) (val : Nat) (g : Pg), (.registerWrite path addr nbytes val : Instr).wf = true → s.dev.pathOpen path = true → s.dev.reachAt addr nbytes = .inr g → g.blk = .sec → addr % 4096 / 8 * 8 = SEC_CMD.off → exec (.registerWrite path addr nbytes val) s = .next (s.after (s.dev.secCmd (halfVal (addr % 4096) nbytes val &&& halfMask (addr % 4096) nbytes)))) ∧
    (∀ (s : State) (path : Nat) (addr : Nat) (nbytes : Nat) (c : Nat), (.refusedRead path addr nbytes : Instr).wf = true → s.dev.pathOpen path = true → s.dev.reachAt addr nbytes = .inl c → exec (.refusedRead path addr nbytes) s = .next (s.after ((s.dev.badAccess path addr c false).emit (.readAbort path c)))) ∧
    (∀ (s : State) (path : Nat) (addr : Nat) (nbytes : Nat) (g : Pg), (.refusedRead path addr nbytes : Instr).wf = true → s.dev.pathOpen path = true → s.dev.reachAt addr nbytes = .inr g → g.blk ≠ .tlm → exec (.refusedRead path addr nbytes) s = .next (s.after (s.dev.emit (.readData path (((s.dev.readReg g (addr % 4096 / 8 * 8)).toNat >>> (8 * (addr % 4096 % 8))) % 2 ^ (8 * nbytes)))))) ∧
    (∀ (s : State) (cause : Nat), (.mgmtPfReset cause : Instr).wf = true → s.dev.ctl.pfUp = true → exec (.mgmtPfReset cause) s = .next (s.after (s.dev.pfReset (cause ≠ 2)))) ∧
    (∀ (s : State) (v addr data : Nat) (masked : Bool), (.msixUnmask (.vector v addr data masked) : Instr).wf = true → s.dev.ctl.pfUp = true → v < 2048 → exec (.msixUnmask (.vector v addr data masked)) s = .next (s.after (({ s.dev with ctl := { s.dev.ctl with vecOpen := if masked then s.dev.ctl.vecOpen.filter (· ≠ v) else s.dev.ctl.vecOpen.filter (· ≠ v) ++ [v], vecMsg := SMap.set (0, 0) s.dev.ctl.vecMsg v (addr, data) } } : Dev).msixDeliver))) ∧
    (∀ (s : State) (enable fnMask busMaster : Bool), (.msixUnmask (.control enable fnMask busMaster) : Instr).wf = true → s.dev.ctl.pfUp = true → exec (.msixUnmask (.control enable fnMask busMaster)) s = .next (s.after (({ s.dev with ctl := { s.dev.ctl with msixEn := enable, fnMask := fnMask, busMaster := busMaster } } : Dev).msixDeliver))) ∧
    (∀ (s : State) (off val : Nat), (.msixUnmask (.config off val) : Instr).wf = true → s.dev.ctl.pfUp = true → off / 4 = Config.msixDword → exec (.msixUnmask (.config off val)) s = .next (s.after (({ s.dev with ctl := { s.dev.ctl with msixEn := bit val 31, fnMask := bit val 30 } } : Dev).msixDeliver))) ∧
    (∀ (s : State) (off : Nat), (.msixUnmask (.readConfig off) : Instr).wf = true → s.dev.ctl.pfUp = true → exec (.msixUnmask (.readConfig off)) s = .next (s.after (s.dev.emit (.readData 1 (s.dev.pfConfig off).toNat)))) ∧
    (∀ (s : State) (off : Nat), (.msixUnmask (.readTable off) : Instr).wf = true → s.dev.ctl.pfUp = true → exec (.msixUnmask (.readTable off)) s = .next (s.after (s.dev.emit (.readData 1 (s.dev.pfTable off))))) ∧
    (∀ (s : State) (m : Nat), (.mctpPathReset m : Instr).wf = true → exec (.mctpPathReset m) s = .next (s.after (s.dev.pathReset (2 + m)))) ∧
    (∀ (s : State), (.tapReset : Instr).wf = true → exec (.tapReset) s = .next (s.after (s.dev.pathReset 5))) ∧
    (∀ (s : State) (path : Nat), (.mboxGo path : Instr).wf = true → s.dev.Reaches path ⟨.mgt, 0⟩ → s.dev.on MGT_MBOX_CTL_BUSY = false → exec (.mboxGo path) s = .next (s.after ((s.dev.put MGT_MBOX_CTL_GO 0 1).put MGT_MBOX_CTL_BUSY 0 1))) ∧
    (∀ (s : State) (status : Nat) (resp : Bytes), (.mboxDone status resp : Instr).wf = true → s.dev.on MGT_MBOX_CTL_BUSY = true → s.dev.on DEV_READY_FW_RUN = true → fmRefused (s.dev.get MGT_MBOX_CTL_OPCODE) = false → exec (.mboxDone status resp) s = .next (s.after ((((((List.range 64).foldl (fun d i => d.setWord MGT_MBOX_BUF 0 (BitVec.ofNat 64 (leNat ((resp.drop (8 * i)).take 8))) i) s.dev).put MGT_MBOX_CTL_STATUS 0 status).put MGT_MBOX_CTL_GO 0 0).put MGT_MBOX_CTL_BUSY 0 0).put MGT_MBOX_CTL_DONE 0 1))) ∧
    (∀ (s : State) (status : Nat) (resp : Bytes), (.mboxDone status resp : Instr).wf = true → s.dev.on MGT_MBOX_CTL_BUSY = true → s.dev.on DEV_READY_FW_RUN = true → fmRefused (s.dev.get MGT_MBOX_CTL_OPCODE) = true → exec (.mboxDone status resp) s = .next (s.after ((((((List.range 64).foldl (fun d i => d.setWord MGT_MBOX_BUF 0 (BitVec.ofNat 64 (leNat [])) i) s.dev).put MGT_MBOX_CTL_STATUS 0 3).put MGT_MBOX_CTL_GO 0 0).put MGT_MBOX_CTL_BUSY 0 0).put MGT_MBOX_CTL_DONE 0 1)))

/-- What the writes of PGCTL and the page locks, held commits and the end of an epoch do. Commands: ENABLE_SET,
ENABLE_CLEAR, BRST, BLOCK_RESET_DONE, COMMIT, FORCE, DISCARD, HELD_COMMIT, EPOCH_APPLIED, PGLOCK_LOCKED, DEV_CFG_LOCK.
Each gives the next state written out, for every state and operands that meet the hypotheses; values the spec leaves
open and the conventions of the log are the model's. (chapter 2, Control Space, R72, R50, R51, R509, R682, R327, R53,
R56) -/
def Obligations.PageControlCommands : Prop :=
  (∀ (s : State) (path : Nat) (pg : Nat) (g : Pg), (.enableSet path pg : Instr).wf = true → s.dev.Finds path pg g 0x018 → g.blk.alwaysOn = false → s.dev.on (PGCTL_ENABLE g.blk) g.inst = false → s.dev.avail g = true → exec (.enableSet path pg) s = .next (s.after (s.dev.enableNow g))) ∧
    (∀ (s : State) (path : Nat) (pg : Nat) (g : Pg), (.enableClear path pg : Instr).wf = true → s.dev.Finds path pg g 0x018 → g.blk.alwaysOn = false → s.dev.on (PGCTL_ENABLE g.blk) g.inst = true → exec (.enableClear path pg) s = .next (s.after (s.dev.disableNow g))) ∧
    (∀ (s : State) (path : Nat) (pg : Nat) (g : Pg), (.brst path pg : Instr).wf = true → s.dev.Finds path pg g 0x018 → s.dev.avail g = true → s.dev.on (PGEPOCH_PEND g.blk) g.inst = false → s.dev.on (PGSTAT_BUSY g.blk) g.inst = false → s.dev.locked g = false → s.dev.enabled g = false → exec (.brst path pg) s = .next (s.after (s.dev.blockReset g))) ∧
    (∀ (s : State) (pg : Nat) (g : Pg), (.blockResetDone pg : Instr).wf = true → Pg.at? (pg * 4096) = some g → s.dev.ctl.resets.contains g = true → g.blk ≠ .arb → exec (.blockResetDone pg) s = .next (s.after (({ s.dev with ctl := { s.dev.ctl with resets := s.dev.ctl.resets.filter (· ≠ g) } } : Dev).putBusy g false))) ∧
    (∀ (s : State) (pg : Nat) (g : Pg), (.blockResetDone pg : Instr).wf = true → Pg.at? (pg * 4096) = some g → s.dev.ctl.resets.contains g = true → g.blk = .arb → exec (.blockResetDone pg) s = .next (s.after ((({ s.dev with ctl := { s.dev.ctl with resets := s.dev.ctl.resets.filter (· ≠ g) } } : Dev).putBusy g false).presentAll g.inst (List.range 16)))) ∧
    (∀ (s : State) (path : Nat) (pg : Nat) (g : Pg), (.commit path pg : Instr).wf = true → s.dev.Finds path pg g 0x018 → s.dev.avail g = true → s.dev.on (PGEPOCH_PEND g.blk) g.inst = false → s.dev.on (PGSTAT_BUSY g.blk) g.inst = false → s.dev.locked g = false → (s.dev.commitBegin g false).ctl.commits.find? (·.pg = g) = some { pg := g, force := false, waits := [] } → (s.dev.commitBegin g false).commitBehind g = false → (s.dev.commitBegin g false).epochTooOld g = false → (s.dev.commitBegin g false).commitErr g = none → exec (.commit path pg) s = .next (s.after ((s.dev.commitBegin g false).commitAccept g false))) ∧
    (∀ (s : State) (path : Nat) (pg : Nat) (g : Pg), (.force path pg : Instr).wf = true → s.dev.Finds path pg g 0x018 → s.dev.avail g = true → s.dev.on (PGEPOCH_PEND g.blk) g.inst = false → s.dev.on (PGSTAT_BUSY g.blk) g.inst = false → s.dev.locked g = false → (s.dev.commitBegin g true).ctl.commits.find? (·.pg = g) = some { pg := g, force := g.rule, waits := [] } → (s.dev.commitBegin g true).commitBehind g = false → (s.dev.commitBegin g true).epochTooOld g = false → (s.dev.commitBegin g true).commitErr g = none → exec (.force path pg) s = .next (s.after ((s.dev.commitBegin g true).commitAccept g g.rule))) ∧
    (∀ (s : State) (path : Nat) (pg : Nat) (g : Pg), (.discard path pg : Instr).wf = true → s.dev.Finds path pg g 0x018 → exec (.discard path pg) s = .next (s.after (s.dev.unshadow g))) ∧
    (∀ (s : State) (pg : Nat) (g : Pg) (force : Bool), (.heldCommit pg : Instr).wf = true → Pg.at? (pg * 4096) = some g → s.dev.ctl.commits.find? (·.pg = g) = some { pg := g, force := force, waits := [] } → s.dev.commitBehind g = false → s.dev.epochTooOld g = false → s.dev.commitErr g = none → exec (.heldCommit pg) s = .next (s.after (s.dev.commitAccept g force))) ∧
    (∀ (s : State) (pg : Nat) (g : Pg), (.epochApplied pg : Instr).wf = true → Pg.at? (pg * 4096) = some g → g.rule = true → s.dev.applied g = false → s.dev.olderFlights g = false → exec (.epochApplied pg) s = .next (s.after (s.dev.epochEnd g))) ∧
    (∀ (s : State) (path : Nat) (pg : Nat) (g : Pg), (.pglockLocked path pg : Instr).wf = true → s.dev.Finds path pg g 0x028 → exec (.pglockLocked path pg) s = .next (s.after (s.dev.lockPages [g]))) ∧
    (∀ (s : State) (path : Nat), (.devCfgLock path : Instr).wf = true → s.dev.Reaches path ⟨.dev, 0⟩ → exec (.devCfgLock path) s = .next (s.after ((s.dev.put DEV_CFG_LOCK_LOCK 0 1).lockPages Pg.all)))

/-- What the commands of the TBL windows and the lease locks do. Commands: TBL_READ, TBL_WRITE, TBL_CLEAR, TBL_BAD_OP,
TBL_OP_DONE, ACQUIRE, RENEW, RELEASE, BREAK, CLR_BROKEN, LEASE_EXPIRY. Each gives the next state written out, for
every state and operands that meet the hypotheses; values the spec leaves open and the conventions of the log are the
model's. (chapter 2, Control Space, R60, R61, R59, R65, R66, R67) -/
def Obligations.TableAndLockCommands : Prop :=
  (∀ (s : State) (path : Nat) (w : Nat) (inc : Bool), (.tblRead path w inc : Instr).wf = true → s.dev.Reaches path ⟨.tbl, w⟩ → s.dev.tblBusy w = false → exec (.tblRead path w inc) s = .next (s.after (s.dev.tblBegin w 1 inc))) ∧
    (∀ (s : State) (path : Nat) (w : Nat) (inc : Bool), (.tblWrite path w inc : Instr).wf = true → s.dev.Reaches path ⟨.tbl, w⟩ → s.dev.tblBusy w = false → exec (.tblWrite path w inc) s = .next (s.after (s.dev.tblBegin w 2 inc))) ∧
    (∀ (s : State) (path : Nat) (w : Nat) (inc : Bool), (.tblClear path w inc : Instr).wf = true → s.dev.Reaches path ⟨.tbl, w⟩ → s.dev.tblBusy w = false → exec (.tblClear path w inc) s = .next (s.after (s.dev.tblBegin w 3 inc))) ∧
    (∀ (s : State) (path : Nat) (w : Nat) (op : Nat) (inc : Bool), (.tblBadOp path w op inc : Instr).wf = true → s.dev.Reaches path ⟨.tbl, w⟩ → 4 ≤ op → op < 8 → s.dev.tblBusy w = false → exec (.tblBadOp path w op inc) s = .next (s.after (s.dev.tblBegin w op inc))) ∧
    (∀ (s : State) (w : Nat) (ue : Bool) (t : TblOp), (.tblOpDone w ue : Instr).wf = true → SMap.get none s.dev.ctl.tblOps w = some t → s.dev.tblErr t ue = 0 → exec (.tblOpDone w ue) s = .next (s.after (((s.dev.tblDo w t).tblStep w t).tblEnd w 0))) ∧
    (∀ (s : State) (path : Nat) (i : Nat) (tag : Nat) (lease : Nat), (.acquire path i tag lease : Instr).wf = true → s.dev.Reaches path ⟨.lck, 0⟩ → s.dev.on LCK_STAT_HELD 0 i = false → lease ≠ 0 → exec (.acquire path i tag lease) s = .next (s.after ((((s.dev.put LCK_STAT_HELD 0 1 i).put LCK_STAT_PATH 0 path i).put LCK_STAT_TAG 0 tag i).lease i lease))) ∧
    (∀ (s : State) (path : Nat) (i : Nat) (tag : Nat) (lease : Nat), (.renew path i tag lease : Instr).wf = true → s.dev.Reaches path ⟨.lck, 0⟩ → s.dev.lockMine path i tag = true → lease ≠ 0 → exec (.renew path i tag lease) s = .next (s.after (s.dev.lease i lease))) ∧
    (∀ (s : State) (path : Nat) (i : Nat) (tag : Nat), (.release path i tag : Instr).wf = true → s.dev.Reaches path ⟨.lck, 0⟩ → s.dev.lockMine path i tag = true → exec (.release path i tag) s = .next (s.after ((({ s.dev with ctl := { s.dev.ctl with leaseEnd := SMap.set 0 s.dev.ctl.leaseEnd i 0 } } : Dev).put LCK_STAT_HELD 0 0 i).put LCK_STAT_BROKEN 0 0 i))) ∧
    (∀ (s : State) (path : Nat) (i : Nat), (.breakLock path i : Instr).wf = true → s.dev.Reaches path ⟨.lck, 0⟩ → s.dev.on LCK_STAT_HELD 0 i = true → exec (.breakLock path i) s = .next (s.after (s.dev.lockBroken i 3))) ∧
    (∀ (s : State) (path : Nat) (i : Nat) (tag : Nat), (.clrBroken path i tag : Instr).wf = true → s.dev.Reaches path ⟨.lck, 0⟩ → s.dev.lockMine path i tag = true → exec (.clrBroken path i tag) s = .next (s.after (s.dev.put LCK_STAT_BROKEN 0 0 i))) ∧
    (∀ (s : State) (i : Nat), (.leaseExpiry i : Instr).wf = true → s.dev.on LCK_STAT_HELD 0 i = true → exec (.leaseExpiry i) s = .next (s.after (s.dev.lockBroken i 2)))

/-- What clearing, injecting and counting faults and selecting and clearing counters do. Commands: FLT_STATUS_CLEAR,
FLT_INJECT, FLT_COUNT_CLR, FW_STALL, EPOCH_WAIT, CNT_SEL_WRITE, CNT_CLR. Each gives the next state written out, for
every state and operands that meet the hypotheses; values the spec leaves open and the conventions of the log are the
model's. (chapter 19, Fault Handling, R610, R617, R597, R623, R637) -/
def Obligations.FaultBlockCommands : Prop :=
  (∀ (s : State) (path : Nat) (pg : Nat) (mask : Nat) (g : Pg), (.fltStatusClear path pg mask : Instr).wf = true → s.dev.Finds path pg g 0x040 → exec (.fltStatusClear path pg mask) s = .next (s.after (s.dev.fltClear g mask))) ∧
    (∀ (s : State) (path : Nat) (pg : Nat) (val : Nat) (g : Pg), (.fltInject path pg val : Instr).wf = true → s.dev.Finds path pg g 0x058 → s.dev.allLocked = false → g.blk.checkers.contains ((s.dev.fltInjectWord g (BitVec.ofNat 64 val) (BitVec.allOnes 64)).get (FLT_INJECT_SOURCE g.blk) g.inst) = true → exec (.fltInject path pg val) s = .next (s.after (s.dev.fltInjectWord g (BitVec.ofNat 64 val) (BitVec.allOnes 64)))) ∧
    (∀ (s : State) (path : Nat) (pg : Nat) (val : Nat) (g : Pg), (.fltInject path pg val : Instr).wf = true → s.dev.Finds path pg g 0x058 → s.dev.allLocked = false → g.blk.checkers.contains ((s.dev.fltInjectWord g (BitVec.ofNat 64 val) (BitVec.allOnes 64)).get (FLT_INJECT_SOURCE g.blk) g.inst) = false → exec (.fltInject path pg val) s = .next (s.after ((s.dev.fltInjectWord g (BitVec.ofNat 64 val) (BitVec.allOnes 64)).put (FLT_INJECT_ARM g.blk) g.inst 0))) ∧
    (∀ (s : State) (path : Nat) (pg : Nat) (g : Pg), (.fltCountClr path pg : Instr).wf = true → s.dev.Finds path pg g 0x068 → exec (.fltCountClr path pg) s = .next (s.after ((s.dev.put (FLT_COUNT_EVENTS g.blk) g.inst 0).put (FLT_COUNT_ESCALATIONS g.blk) g.inst 0))) ∧
    (∀ (s : State), (.fwStall : Instr).wf = true → exec (.fwStall) s = .next (s.after ((s.dev.raise MGT_F_FW_STALL 0).persist MGT_F_FW_STALL 0 true))) ∧
    (∀ (s : State), (.epochWait : Instr).wf = true → s.dev.oldestEpoch ≠ s.dev.epoch → exec (.epochWait) s = .next (s.after (s.dev.raise DEV_F_EPOCH_WAIT 0))) ∧
    (∀ (s : State) (path : Nat) (pg : Nat) (j : Nat) (val : Nat) (g : Pg), (.cntSelWrite path pg j val : Instr).wf = true → s.dev.Finds path pg g (0x100 + 8 * j) → exec (.cntSelWrite path pg j val) s = .next (s.after ((s.dev.cntSelSet g (2 * j) (bits (BitVec.ofNat 64 val) 0 32) (2 ^ 32 - 1)).cntSelSet g (2 * j + 1) (bits (BitVec.ofNat 64 val) 32 32) (2 ^ 32 - 1)))) ∧
    (∀ (s : State) (path : Nat) (pg : Nat) (i : Nat) (g : Pg), (.cntClr path pg i : Instr).wf = true → s.dev.Finds path pg g (0x100 + 8 * (i / 2)) → exec (.cntClr path pg i) s = .next (s.after (s.dev.cntZero g i)))

/-- How each reset begins, proceeds and ends. Commands: DEV_RST_WARM, DEV_RST_CONTROL, DEV_RST_SLICE, DEV_RST_DOMAIN,
DEV_RST_PORT, PWR_GOOD_RISE, PWR_GOOD_FALL, COLD_RST_N, COLD_RST_N_RELEASE, WARM_RST_N, RESET_ENTRY, QUIESCE_TIMEOUT,
PORT_RESET_RECALL_DONE, FABRIC_READY_RISE. Each gives the next state written out, for every state and operands that
meet the hypotheses; values the spec leaves open and the conventions of the log are the model's. (chapter 18, Resets,
R574, R584, R586, R581, R573, R577, R579, R578, R580) -/
def Obligations.ResetCommands : Prop :=
  (∀ (s : State) (path : Nat) (key : Nat), (.devRstWarm path key : Instr).wf = true → s.dev.Reaches path ⟨.dev, 0⟩ → key = 0x5A → s.dev.canQuiesce = true → exec (.devRstWarm path key) s = .next (s.after (s.dev.quiesceStart { scope := .warm, trigger := 4, path := path } (!s.dev.rst.active.isEmpty || (List.range 128).any fun p => (s.dev.port p).resetting)))) ∧
    (∀ (s : State) (path : Nat) (key : Nat), (.devRstControl path key : Instr).wf = true → s.dev.Reaches path ⟨.dev, 0⟩ → key = 0x5A → s.dev.canQuiesce = true → exec (.devRstControl path key) s = .next (s.after (s.dev.quiesceStart { scope := .control, trigger := 4, path := path } (!s.dev.rst.active.isEmpty || (List.range 128).any fun p => (s.dev.port p).resetting)))) ∧
    (∀ (s : State) (path : Nat) (key : Nat) (target : Nat), (.devRstSlice path key target : Instr).wf = true → s.dev.Reaches path ⟨.dev, 0⟩ → key = 0x5A → target < 16 → s.dev.flushing = false → s.dev.flushed = false → s.dev.bigReset = false → s.dev.rst.active.any (fun r => r.scope = .slice && r.target = target) = false → exec (.devRstSlice path key target) s = .next (s.after ((s.dev.rstLog 3 4 target path ((s.dev.slicePorts target).any fun p => (s.dev.port p).resetting)).sliceBegin target path))) ∧
    (∀ (s : State) (path : Nat) (key : Nat) (target : Nat), (.devRstDomain path key target : Instr).wf = true → s.dev.Reaches path ⟨.dev, 0⟩ → key = 0x5A → target ≠ 0x3FF → (s.dev.domainSlot target).isNone = false → s.dev.flushing = false → s.dev.flushed = false → s.dev.bigReset = false → s.dev.domainRst target = false → exec (.devRstDomain path key target) s = .next (s.after ((s.dev.rstLog 4 4 target path false).domainBegin target path))) ∧
    (∀ (s : State) (path : Nat) (key : Nat) (target : Nat), (.devRstPort path key target : Instr).wf = true → s.dev.Reaches path ⟨.dev, 0⟩ → key = 0x5A → target < 128 → s.dev.portAvail target = true → s.dev.flushing = false → s.dev.flushed = false → s.dev.portContained target = false → exec (.devRstPort path key target) s = .next (s.after (((s.dev.rstLog 5 4 target path false).portResetStart target).portResetEnd target))) ∧
    (∀ (s : State), (.pwrGoodRise : Instr).wf = true → s.dev.rst.pwrGood = false → s.dev.rst.vddAux = true → exec (.pwrGoodRise) s = .next (s.after (s.dev.coldEnter (if s.dev.rst.coldPin then .coldHeld else .starting) true s.dev.rst.coldPin 1))) ∧
    (∀ (s : State), (.pwrGoodFall : Instr).wf = true → s.dev.rst.pwrGood = true → exec (.pwrGoodFall) s = .next (s.after (s.dev.coldEnter .off false s.dev.rst.coldPin 1))) ∧
    (∀ (s : State), (.coldRstN : Instr).wf = true → s.dev.rst.coldPin = false → s.dev.rst.pwrGood = true → s.dev.flushing = false → exec (.coldRstN) s = .next (s.after (s.dev.coldPinNow.coldEnter .coldHeld true true 2))) ∧
    (∀ (s : State), (.coldRstNRelease : Instr).wf = true → s.dev.rst.coldPin = true → s.dev.flushing = false → s.dev.rst.pwrGood = true → exec (.coldRstNRelease) s = .next (s.after (s.dev.coldEnter .starting true false 2))) ∧
    (∀ (s : State), (.warmRstN : Instr).wf = true → s.dev.on CKR_INSTAT1_WARM_RST = false → s.dev.rst.phase ≠ .off → s.dev.rst.phase ≠ .coldHeld → (s.dev.put CKR_INSTAT1_WARM_RST 0 1).canQuiesce = true → exec (.warmRstN) s = .next (s.after ((s.dev.put CKR_INSTAT1_WARM_RST 0 1).quiesceStart { scope := .warm, trigger := 3, path := 0 } (!s.dev.rst.active.isEmpty || (List.range 128).any fun p => (s.dev.port p).resetting)))) ∧
    (∀ (s : State) (r : RstReq), (.resetEntry : Instr).wf = true → s.dev.rst.pend = some r → s.dev.rst.phase = .quiesce → s.dev.flushing = false → s.dev.stopped = false → s.dev.on FAG_STAT_HALTED = false → r.step ≠ 2 → s.dev.quiesceMore.quiesceDone = true → s.dev.quiesceMore.warmHeld r = false → exec (.resetEntry) s = .next (s.after (s.dev.quiesceMore.rstEnter r 0))) ∧
    (∀ (s : State) (r : RstReq), (.quiesceTimeout : Instr).wf = true → s.dev.rst.phase = .quiesce → s.dev.rst.pend = some r → s.dev.flushing = false → s.dev.stopped = false → s.dev.on FAG_STAT_HALTED = false → s.dev.warmHeld r = false → exec (.quiesceTimeout) s = .next (s.after (s.dev.rstEnter r s.dev.abandonedNow))) ∧
    (∀ (s : State) (p : Nat), (.portResetRecallDone p : Instr).wf = true → (s.dev.port p).resetting = true → (s.dev.port p).recallOnly = true → (match s.dev.portAgent p with | some a => s.dev.recalling a | none => false) = false → exec (.portResetRecallDone p) s = .next (s.after ((s.dev.portRecallOver p).rstPoll))) ∧
    (∀ (s : State), (.fabricReadyRise : Instr).wf = true → s.dev.fabricOk = true → exec (.fabricReadyRise) s = .next (s.after (s.dev.fabricUp)))

/-- What clock loss, conditioned inputs, auxiliary power, sensor readings and supply updates do. Commands: CLOCK_LOSS,
INPUT_DEBOUNCE, CHATTER, VDD_AUX_LOSS, VDD_AUX_RISE, AVS_UPDATE, JUNCTION_SENSOR_READ. Each gives the next state
written out, for every state and operands that meet the hypotheses; values the spec leaves open and the conventions of
the log are the model's. (chapter 18, Resets; chapter 21, Electrical Characteristics, R591, R593, R595, R520, R587,
R657, R660) -/
def Obligations.PinAndSupplyCommands : Prop :=
  (∀ (s : State) (refclk : Bool), (.clockLoss refclk : Instr).wf = true → s.dev.rst.phase ≠ .off → s.dev.rst.phase ≠ .coldHeld → exec (.clockLoss refclk) s = .next (s.after (((({ s.dev with rst := { s.dev.rst with clockLost := true } } : Dev).put (if refclk then CKR_STAT_REFCLK_OK else CKR_STAT_LEVAIN_LOCK) 0 0).clockHalt (b2n refclk)).raise (if refclk then CKR_F_REFCLK_LOSS else CKR_F_LEVAIN_UNLOCK) 0))) ∧
    (∀ (s : State) (i : Nat) (level : Bool), (.inputDebounce i level : Instr).wf = true → s.dev.rst.vddAux = true → i < 32 → exec (.inputDebounce i level) s = .next (s.after (s.dev.prsntSet i level))) ∧
    (∀ (s : State) (i : Nat) (level : Bool), (.inputDebounce i level : Instr).wf = true → s.dev.rst.vddAux = true → s.dev.rst.phase ≠ .off → s.dev.rst.phase ≠ .coldHeld → 32 ≤ i → i < 48 → exec (.inputDebounce i level) s = .next (s.after (s.dev.perstIn (i - 32) level))) ∧
    (∀ (s : State) (i : Nat) (level : Bool), (.inputDebounce i level : Instr).wf = true → s.dev.rst.vddAux = true → s.dev.rst.phase ≠ .off → s.dev.rst.phase ≠ .coldHeld → 48 ≤ i → i < 64 → exec (.inputDebounce i level) s = .next (s.after (s.dev.gpioSet (i - 48) level))) ∧
    (∀ (s : State) (i : Nat) (level : Bool), (.inputDebounce i level : Instr).wf = true → s.dev.rst.vddAux = true → s.dev.rst.phase ≠ .off → s.dev.rst.phase ≠ .coldHeld → i = 64 → exec (.inputDebounce i level) s = .next (s.after (s.dev.pwrfailSet level))) ∧
    (∀ (s : State) (i : Nat) (level : Bool), (.inputDebounce i level : Instr).wf = true → s.dev.rst.vddAux = true → s.dev.rst.phase ≠ .off → s.dev.rst.phase ≠ .coldHeld → i = 65 → exec (.inputDebounce i level) s = .next (s.after (s.dev.snapInSet level))) ∧
    (∀ (s : State) (i : Nat) (level : Bool), (.inputDebounce i level : Instr).wf = true → s.dev.rst.vddAux = true → s.dev.rst.phase ≠ .off → s.dev.rst.phase ≠ .coldHeld → i = 66 → level = false → exec (.inputDebounce i level) s = .next (s.after (s.dev.put CKR_INSTAT1_WARM_RST 0 0))) ∧
    (∀ (s : State) (i : Nat) (count : Nat), (.chatter i count : Instr).wf = true → s.dev.get CKR_INCFG_CH_MAX 0 i ≠ 0 → s.dev.get CKR_INCFG_CH_MAX 0 i < count → exec (.chatter i count) s = .next (s.after ((s.dev.put (if i < 64 then CKR_CHAT0_FLAG else CKR_CHAT1_FLAG) 0 (Nat.lor (s.dev.get (if i < 64 then CKR_CHAT0_FLAG else CKR_CHAT1_FLAG)) (2 ^ (i % 64)))).raise CKR_F_CHATTER 0))) ∧
    (∀ (s : State), (.vddAuxLoss : Instr).wf = true → exec (.vddAuxLoss) s = .next (s.after ({ (s.dev.slotsClear true).put DEV_READY_FABRIC_READY 0 0 with rst := { (s.dev.slotsClear true).rst with vddAux := false, perstOut := [] } } : Dev))) ∧
    (∀ (s : State), (.vddAuxRise : Instr).wf = true → s.dev.rst.vddAux = false → exec (.vddAuxRise) s = .next (s.after ({ (s.dev.slotsClear false).put DEV_READY_FABRIC_READY 0 0 with rst := { (s.dev.slotsClear false).rst with vddAux := true }, prf := { (s.dev.slotsClear false).prf with huOk := true } } : Dev))) ∧
    (∀ (s : State) (target : Nat) (ack : Bool), (.avsUpdate target ack : Instr).wf = true → s.dev.on DEV_READY_FUSES_OK = true → s.dev.rst.clockLost = false → s.dev.rst.thermTrip = false → 720 ≤ target → target ≤ 800 → target % 5 = 0 → target ≤ s.dev.elec.avsAck + 10 → s.dev.elec.avsAck ≤ target + 10 → exec (.avsUpdate target ack) s = .next (s.after (if ack then (s.dev.emit (.avs target)).setAvs target else s.dev.emit (.avs target)))) ∧
    (∀ (s : State) (temps : List Int), (.junctionSensorRead temps : Instr).wf = true → (temps.take 64).any (· ≥ 115) = false → exec (.junctionSensorRead temps) s = .next (s.after (s.dev.setTemps temps))) ∧
    (∀ (s : State) (temps : List Int), (.junctionSensorRead temps : Instr).wf = true → (temps.take 64).any (· ≥ 115) = true → s.dev.rst.thermTrip = false → exec (.junctionSensorRead temps) s = .next (s.after ((s.dev.setTemps temps).thermalTrip)))

/-- How octet calibration ends and what a chiplet's clock loss does. The moves of the CXL training states and the health
window. Commands: CAL_DONE, CAL_TIMEOUT, FAILED_RETRY, CHIPLET_PLL_LOSS, PLL_RELOCK, ELASTIC_ERR, L0_ENTRY,
EQ_FALLBACK, RECOVERY, LANE_LOSS, L1_ENTRY, HEALTH_WINDOW. Each gives the next state written out, for every state and
operands that meet the hypotheses; values the spec leaves open and the conventions of the log are the model's.
(chapter 3, Lanes and Octets, R81, R92, R82, R83, R85, R87, R148, R90, R116, R110) -/
def Obligations.OctetAndCxlTrainingCommands : Prop :=
  (∀ (s : State) (o : Nat), (.calDone o : Instr).wf = true → s.dev.halted = false → s.dev.octState o = tsCal → exec (.calDone o) s = .next (s.after ((((s.dev.setOctet o { s.dev.octet o with calibrated := true, failedCal := false }).put (PGEPOCH_APPLIED .sds) o 1).octetGo o).calNote))) ∧
    (∀ (s : State) (o : Nat), (.calTimeout o : Instr).wf = true → s.dev.halted = false → s.dev.octState o = tsCal → exec (.calTimeout o) s = .next (s.after (((s.dev.put (PGEPOCH_APPLIED .sds) o 1).enterFailed o true SDS_F_CAL_FAIL).calNote))) ∧
    (∀ (s : State) (o : Nat), (.failedRetry o : Instr).wf = true → s.dev.halted = false → s.dev.octState o = tsFailed → s.dev.octMode o = 2 → exec (.failedRetry o) s = .next (s.after (if (s.dev.octet o).failedCal then s.dev.enterCal o else s.dev.enterDrLock o))) ∧
    (∀ (s : State) (c : Nat), (.chipletPllLoss c : Instr).wf = true → exec (.chipletPllLoss c) s = .next (s.after ((List.range 8).foldl (fun d i => d.octetPllLoss (8 * c + i)) s.dev))) ∧
    (∀ (s : State) (c : Nat), (.pllRelock c : Instr).wf = true → exec (.pllRelock c) s = .next (s.after ((List.range 8).foldl (fun d i => if (d.octet (8 * c + i)).pllLost && !d.halted then (d.persist SDS_F_PLL_UNLOCK (8 * c + i) false).enterCal (8 * c + i) else d) s.dev))) ∧
    (∀ (s : State) (o : Nat) (lane : Nat), (.elasticErr o lane : Instr).wf = true → s.dev.halted = false → exec (.elasticErr o lane) s = .next (s.after (s.dev.elasticBad o lane))) ∧
    (∀ (s : State) (p : Nat) (t : CxlTrain) (rate w : Nat), (.l0Entry p t.rates t.bypass t.toCxlLanes : Instr).wf = true → s.dev.cxlPort p = true → (s.dev.port p).negFail = false → s.dev.portState p = tsRecovery → s.dev.commonRate p t.rates = some rate → widest (s.dev.trainLanes p false t) = some w → s.dev.cacheOk p rate = true → exec (.l0Entry p t.rates t.bypass t.toCxlLanes) s = .next (s.after ((((s.dev.emit (.eqOffer p true true)).equalise p rate true ((pickLanes (s.dev.trainLanes p false t) w).getD []) ((presetsAt t rate).getD [])).modPort p fun x => { x with cachedEq := true }).l0Go p rate ((pickLanes (s.dev.trainLanes p false t) w).getD [])))) ∧
    (∀ (s : State) (p : Nat) (t : CxlTrain), (.l0Entry p t.rates t.bypass t.toCxlLanes : Instr).wf = true → s.dev.cxlPort p = true → (s.dev.port p).negFail = false → List.contains [tsDetect, tsPolling, tsConfig] (s.dev.portState p) = true → exec (.l0Entry p t.rates t.bypass t.toCxlLanes) s = .next (s.after (s.dev.trainEnd p true t))) ∧
    (∀ (s : State) (p : Nat) (t : CxlTrain), (.l0Entry p t.rates t.bypass t.toCxlLanes : Instr).wf = true → s.dev.cxlPort p = true → (s.dev.port p).negFail = false → s.dev.portState p = tsL1 ∨ s.dev.portState p = tsL0p → exec (.l0Entry p t.rates t.bypass t.toCxlLanes) s = .next (s.after (s.dev.l0Back p))) ∧
    (∀ (s : State) (p : Nat) (rate : Nat), (.eqFallback ⟨p, rate⟩ : Instr).wf = true → s.dev.cxlPort p = true → s.dev.cacheOk p rate = true → List.contains [tsDetect, tsPolling, tsConfig, tsRecovery] (s.dev.portState p) = true ∨ (s.dev.portState p = tsL0 ∧ (s.dev.port p).cachedEq = true ∧ s.dev.get (rateFld p) (p / 2) = rate) → exec (.eqFallback ⟨p, rate⟩) s = .next (s.after (s.dev.eqDrop p rate))) ∧
    (∀ (s : State) (p : Nat) (exhaust : Bool), (.recovery ⟨p, exhaust⟩ : Instr).wf = true → s.dev.cxlPort p = true → [tsL0, tsL0p, tsL1].contains (s.dev.portState p) = true → exhaust = false ∨ s.dev.carries p = false → exec (.recovery ⟨p, exhaust⟩) s = .next (s.after ((s.dev.marginPort p).setPortState p tsRecovery))) ∧
    (∀ (s : State) (p : Nat) (exhaust : Bool), (.recovery ⟨p, exhaust⟩ : Instr).wf = true → s.dev.carries p = true → exhaust = true → exec (.recovery ⟨p, exhaust⟩) s = .next (s.after ((s.dev.raise PRT_F_REPLAY_EXHAUST p (s.dev.portWho p)).toRecovery p))) ∧
    (∀ (s : State) (p : Nat) (lost : List Nat), (.laneLoss p lost : Instr).wf = true → s.dev.cxlPort p = true → List.contains [tsL0, tsL0p, tsL1, tsRecovery] (s.dev.portState p) = true → (s.dev.lostLanes p lost).isEmpty = false → exec (.laneLoss p lost) s = .next (s.after (((s.dev.lostLanes p lost).foldl (fun d i => d.laneGone ((s.dev.laneMap p).getD i (0, 0))) s.dev).narrow p))) ∧
    (∀ (s : State) (p : Nat) (l0p : Bool), (.l1Entry p l0p : Instr).wf = true → s.dev.cxlPort p = true → s.dev.portState p = tsL0 → 2 ≤ s.dev.get PRT_STAT_FLIT p → l0p = false → ((s.dev.portOctets p).all fun o => s.dev.on SDS_PWR_L1_EN o) = true → exec (.l1Entry p l0p) s = .next (s.after (((s.dev.laneMap p).filter fun (ol : Nat × Nat) => s.dev.get SDS_LANE_LOGICAL ol.1 ol.2 ≠ 0xF).foldl (fun d ol => d.setLanes ol.1 [ol.2] psStandby) (s.dev.setPortState p tsL1)))) ∧
    (∀ (s : State) (o : Nat) (eyes : List Nat), (.healthWindow o eyes : Instr).wf = true → s.dev.halted = false → exec (.healthWindow o eyes) s = .next (s.after (s.dev.windowEnd o eyes)))

/-- The moves of the Dunrun training states. Commands: TRAINING_CONTROL_BLOCK, LANE_LOCK, LOCK_LOST, DR_LOCK_DONE,
DR_LOCK_TIMEOUT, DR_TRAIN_DONE, DR_TRAIN_TIMEOUT, DR_ALIGN_DONE, DR_ALIGN_TIMEOUT, DR_RETRAIN_DONE,
DR_RETRAIN_TIMEOUT. Each gives the next state written out, for every state and operands that meet the hypotheses;
values the spec leaves open and the conventions of the log are the model's. (chapter 3, Lanes and Octets, R95, R102,
R103, R93, R92, R100, R104) -/
def Obligations.DunrunTrainingCommands : Prop :=
  (∀ (s : State) (o : Nat) (lane : Nat) (payload : Bytes), (.trainingControlBlock o lane payload : Instr).wf = true → s.dev.halted = false → s.dev.octMode o = 2 → List.contains [tsDrLock, tsDrTrain, tsDrAlign, tsDrRetrain] (s.dev.octState o) = true → s.dev.on SDS_LANE_LOCK o lane = true → (payload.getD 0 0).toNat = 0xA1 → exec (.trainingControlBlock o lane payload) s = .next (s.after (s.dev.trainTake o lane payload))) ∧
    (∀ (s : State) (o : Nat) (lane : Nat) (headers : List Nat) (x : Lane) (inv : Bool), (.laneLock o lane headers : Instr).wf = true → s.dev.halted = false → s.dev.octMode o = 2 → List.contains [tsDrLock, tsDrTrain, tsDrRetrain, tsDrActive] (s.dev.octState o) = true → s.dev.on SDS_LANE_LOCK o lane = false → s.dev.laneOff o lane = false → (s.dev.lane o lane).hunts (s.dev.on SDS_MODE_POL_AUTO o) (s.dev.on SDS_LANE_POL_INV o lane) headers = (x, inv) → 32 ≤ x.run → exec (.laneLock o lane headers) s = .next (s.after (((((s.dev.put SDS_LANE_POL_INV o (b2n inv) lane).modLane o lane fun _ => { x with run := 0, hist := [], polFix := inv }).put SDS_LANE_LOCK o 1 lane).put SDS_LANE_PRESENT o 1 lane).put SDS_HEALTH_FAILED o 0 lane))) ∧
    (∀ (s : State) (o : Nat) (lane : Nat) (h : Nat), (.lockLost o lane [h] : Instr).wf = true → s.dev.halted = false → s.dev.octMode o = 2 → s.dev.on SDS_LANE_LOCK o lane = true → s.dev.hdrOk o lane h = false → 7 ≤ (((s.dev.lane o lane).hist.take 63).filter id).length → exec (.lockLost o lane [h]) s = .next (s.after ((s.dev.modLane o lane fun x => { x with hist := true :: (s.dev.lane o lane).hist.take 63 }).lockLost o lane))) ∧
    (∀ (s : State) (o : Nat) (lane : Nat) (h : Nat), (.lockLost o lane [h] : Instr).wf = true → s.dev.halted = false → s.dev.octMode o = 2 → s.dev.on SDS_LANE_LOCK o lane = true → s.dev.hdrOk o lane h = true → exec (.lockLost o lane [h]) s = .next (s.after (s.dev.modLane o lane fun x => { x with hist := false :: (s.dev.lane o lane).hist.take 63 }))) ∧
    (∀ (s : State) (o : Nat), (.drLockDone o : Instr).wf = true → s.dev.halted = false → s.dev.octState o = tsDrLock → (s.dev.lockedLanes o).length = 9 → s.dev.peerLocked o = 9 → exec (.drLockDone o) s = .next (s.after (s.dev.enterDrTrain o))) ∧
    (∀ (s : State) (o : Nat), (.drLockTimeout o : Instr).wf = true → s.dev.halted = false → s.dev.octState o = tsDrLock → 4 ≤ (s.dev.lockedLanes o).length → 4 ≤ s.dev.peerLocked o → exec (.drLockTimeout o) s = .next (s.after (s.dev.enterDrTrain o))) ∧
    (∀ (s : State) (o : Nat), (.drTrainDone o : Instr).wf = true → s.dev.halted = false → s.dev.octState o = tsDrTrain → ((s.dev.lockedLanes o).all fun l => (s.dev.lane o l).rxDone && (s.dev.lane o l).partnerDone) = true → exec (.drTrainDone o) s = .next (s.after ((s.dev.storeTaps o).drState o tsDrAlign))) ∧
    (∀ (s : State) (o : Nat), (.drTrainTimeout o : Instr).wf = true → s.dev.halted = false → s.dev.octState o = tsDrTrain → (s.dev.octet o).trainRetry = false → exec (.drTrainTimeout o) s = .next (s.after ((s.dev.setOctet o { s.dev.octet o with trainRetry := true }).enterDrLock o))) ∧
    (∀ (s : State) (o : Nat) (skew : Nat) (rev : Bool), (.drAlignDone ⟨o, skew⟩ : Instr).wf = true → s.dev.halted = false → s.dev.octState o = tsDrAlign → skew ≤ 2048 → (s.dev.lockedLanes o).isEmpty = false → s.dev.laneOrder o = some rev → exec (.drAlignDone ⟨o, skew⟩) s = .next (s.after (s.dev.alignDone o rev))) ∧
    (∀ (s : State) (o : Nat), (.drAlignTimeout o : Instr).wf = true → s.dev.halted = false → s.dev.octState o = tsDrAlign → exec (.drAlignTimeout o) s = .next (s.after (s.dev.enterFailed o false SDS_F_TRAIN_FAIL))) ∧
    (∀ (s : State) (o : Nat), (.drRetrainDone o : Instr).wf = true → s.dev.halted = false → s.dev.octState o = tsDrRetrain → 4 ≤ (s.dev.lockedLanes o).length → 4 ≤ s.dev.peerLocked o → exec (.drRetrainDone o) s = .next (s.after (((s.dev.lockedLanes o).foldl (fun d l => d.adaptRx o l) s.dev).drState o tsDrAlign))) ∧
    (∀ (s : State) (o : Nat), (.drRetrainTimeout o : Instr).wf = true → s.dev.halted = false → s.dev.octState o = tsDrRetrain → exec (.drRetrainTimeout o) s = .next (s.after (s.dev.enterDrLock o)))

/-- How margining runs start and end and what the equalisation cache takes. Commands: MARGIN_GO, MARGIN_STOP,
PARTNER_MARGINING, MARGIN_DWELL_END, MARGIN_ERR_LIMIT, EQ_CACHE_WRITE. Each gives the next state written out, for
every state and operands that meet the hypotheses; values the spec leaves open and the conventions of the log are the
model's. (chapter 3, Lanes and Octets, R105, R108, R106, R117) -/
def Obligations.MarginCommands : Prop :=
  (∀ (s : State) (path : Nat) (o : Nat), (.marginGo path o : Instr).wf = true → s.dev.Reaches path ⟨.sds, o⟩ → (s.dev.octet o).margin = none → s.dev.halted = false → (s.dev.octet o).partnerMargin = none → s.dev.marginLaneOk o (s.dev.get SDS_MARGIN_CTL_LANE o) = true → s.dev.marginSteps o = true → exec (.marginGo path o) s = .next (s.after (s.dev.marginRun o))) ∧
    (∀ (s : State) (path : Nat) (o : Nat) (l : Nat), (.marginStop path o : Instr).wf = true → s.dev.Reaches path ⟨.sds, o⟩ → (s.dev.octet o).margin = some l → exec (.marginStop path o) s = .next (s.after (s.dev.marginAbort o [l]))) ∧
    (∀ (s : State) (o : Nat) (lane : Nat) (voltage right : Bool) (steps limit : Nat), (.partnerMargining o ⟨lane, (.step voltage right steps limit)⟩ : Instr).wf = true → s.dev.halted = false → s.dev.octMode o = 1 → (s.dev.octet o).margin = none → (s.dev.octet o).partnerMargin = none → s.dev.marginLaneOk o lane = true → 1 ≤ steps → steps ≤ (if voltage then 127 else 63) → exec (.partnerMargining o ⟨lane, (.step voltage right steps limit)⟩) s = .next (s.after (((s.dev.setOctet o { s.dev.octet o with partnerMargin := some { lane := lane, voltage := voltage, right := right, steps := steps, limit := limit } }).put SDS_MARGIN_STAT_ERRS o 0).emit (.marginAnswer o lane 0)))) ∧
    (∀ (s : State) (o : Nat) (lane : Nat) (m : PMargin), (.partnerMargining o ⟨lane, .normal⟩ : Instr).wf = true → s.dev.halted = false → s.dev.octMode o = 1 → (s.dev.octet o).partnerMargin = some m → m.lane = lane → exec (.partnerMargining o ⟨lane, .normal⟩) s = .next (s.after ((s.dev.setOctet o { s.dev.octet o with partnerMargin := none }).emit (.marginAnswer o lane (s.dev.get SDS_MARGIN_STAT_ERRS o))))) ∧
    (∀ (s : State) (o : Nat) (lane : Nat) (i : Nat), (.partnerMargining o ⟨lane, (.report i)⟩ : Instr).wf = true → s.dev.halted = false → s.dev.octMode o = 1 → exec (.partnerMargining o ⟨lane, (.report i)⟩) s = .next (s.after (s.dev.emit (.marginAnswer o lane (marginParam i))))) ∧
    (∀ (s : State) (o : Nat) (errs : Nat) (l : Nat), (.marginDwellEnd o errs : Instr).wf = true → (s.dev.octet o).margin = some l → s.dev.get SDS_MARGIN_STAT_ERRS o + errs < max 1 ((s.dev.put SDS_MARGIN_STAT_ERRS o (min 255 (s.dev.get SDS_MARGIN_STAT_ERRS o + errs))).get SDS_MARGIN_CTL_ERR_LIMIT o) → exec (.marginDwellEnd o errs) s = .next (s.after ((((s.dev.put SDS_MARGIN_STAT_ERRS o (min 255 (s.dev.get SDS_MARGIN_STAT_ERRS o + errs))).put SDS_MARGIN_STAT_BUSY o 0).put SDS_MARGIN_STAT_RESULT o 1).setOctet o { (s.dev.put SDS_MARGIN_STAT_ERRS o (min 255 (s.dev.get SDS_MARGIN_STAT_ERRS o + errs))).octet o with margin := none }))) ∧
    (∀ (s : State) (o : Nat) (l : Nat), (.marginErrLimit o : Instr).wf = true → (s.dev.octet o).margin = some l → exec (.marginErrLimit o) s = .next (s.after ((s.dev.put SDS_MARGIN_STAT_ERRS o (max 1 (s.dev.get SDS_MARGIN_CTL_ERR_LIMIT o))).marginAbort o [l]))) ∧
    (∀ (s : State) (path : Nat) (o : Nat) (lane : Nat) (val : Nat), (.eqCacheWrite path o lane val : Instr).wf = true → s.dev.Reaches path ⟨.sds, o⟩ → exec (.eqCacheWrite path o lane val) s = .next (s.after (s.dev.eqCacheWrite o lane (BitVec.ofNat 64 val) (BitVec.allOnes 64))))

/-- Negotiation, reception, sending, key switches and link-down of CXL ports. Commands: PROTOCOL_NEGOTIATION,
FLIT_RECEIVE, EGRESS_START, IDE_KEY_SWITCH, LINK_DOWN, CPL_TIMEOUT. Each gives the next state written out, for every
state and operands that meet the hypotheses; values the spec leaves open and the conventions of the log are the
model's. (chapter 4, CXL Ports, R124, R131, R134, R139, R149, R152) -/
def Obligations.CxlLinkCommands : Prop :=
  (∀ (s : State) (p : Nat) (partner : Nat), (.protocolNegotiation p partner : Instr).wf = true → s.dev.cxlPort p = true → List.contains [tsDetect, tsPolling, tsConfig] (s.dev.portState p) = true → offers partner 0 = true → offers partner 8 = false → offers partner 6 = false → s.dev.flitMode p partner ≠ 0 → exec (.protocolNegotiation p partner) s = .next (s.after (((s.dev.setPortState p tsConfig).modPort p fun x => { x with negFail := false, hdmDb := offers partner 7 && (offers partner 1 && (s.dev.isUp p || s.dev.on PRT_CFG_MEM_EN p)) }).putLink p (offers partner 1 && (s.dev.isUp p || s.dev.on PRT_CFG_MEM_EN p)) (offers partner 2 && s.dev.advCache p && !(s.dev.isDown p && s.dev.cacheTaken p)) (s.dev.flitMode p partner) false 0 false))) ∧
    (∀ (s : State) (p : Nat) (f : Flit), (.flitReceive p f : Instr).wf = true → s.dev.carries p = true → f.half = 0 → f.corr = [] → f.sync = [] → f.crcOk = true → f.seq = (s.dev.port p).rxNext → (s.dev.port p).rxHalf = false → exec (.flitReceive p f) s = .next (s.after (s.dev.flitGood p f))) ∧
    (∀ (s : State) (p : Nat) (f : Flit), (.flitReceive p f : Instr).wf = true → s.dev.carries p = true → f.half = 0 → f.corr = [] → f.sync = [] → f.crcOk = false → (s.dev.port p).rxHold = false → exec (.flitReceive p f) s = .next (s.after (s.dev.flitBad p))) ∧
    (∀ (s : State) (p : Nat) (m : Msg) (E F : Dev), (.egressStart p : Instr).wf = true → s.dev.carries p = true → (s.dev.port p).recallOnly = false → E = (s.dev.port p).tx.foldl (fun d m => d.gateNote p m) s.dev → E.txPick p [] (s.dev.port p).tx = some m → F = E.modPort p (fun x => { x with tx := x.tx.erase m }) → ownOp m.body.op = false → F.ldLacks p m = false → m.body.op ≠ .fnMsi → m.asks = false → exec (.egressStart p) s = .next (s.after (((((F.count .prt p 0x201).count .prt p 0x203 m.bytes).stampStart p).flitOut p).emit (.portMsg p m)))) ∧
    (∀ (s : State) (p : Nat) (m : Msg) (E F : Dev), (.egressStart p : Instr).wf = true → s.dev.carries p = true → (s.dev.port p).recallOnly = false → E = (s.dev.port p).tx.foldl (fun d m => d.gateNote p m) s.dev → E.txPick p [] (s.dev.port p).tx = some m → F = E.modPort p (fun x => { x with tx := x.tx.erase m }) → ownOp m.body.op = false → F.ldLacks p m = false → m.body.op ≠ .fnMsi → m.asks = true → exec (.egressStart p) s = .next (s.after (((((F.count .prt p 0x201).count .prt p 0x203 m.bytes).stampStart p).flitOut p).askOut p m))) ∧
    (∀ (s : State) (p : Nat) (m : Msg) (E F : Dev), (.egressStart p : Instr).wf = true → s.dev.carries p = true → (s.dev.port p).recallOnly = false → E = (s.dev.port p).tx.foldl (fun d m => d.gateNote p m) s.dev → E.txPick p [] (s.dev.port p).tx = some m → F = E.modPort p (fun x => { x with tx := x.tx.erase m }) → ownOp m.body.op = false → F.ldLacks p m = false → m.body.op = .fnMsi → exec (.egressStart p) s = .next (s.after (((((F.count .prt p 0x201).count .prt p 0x203 m.bytes).stampStart p).flitOut p).emit (.vfMsi (m.body.arg / 2048) (m.body.arg % 2048))))) ∧
    (∀ (s : State) (p : Nat) (m : Msg) (E F : Dev), (.egressStart p : Instr).wf = true → s.dev.carries p = true → (s.dev.port p).recallOnly = false → E = (s.dev.port p).tx.foldl (fun d m => d.gateNote p m) s.dev → E.txPick p [] (s.dev.port p).tx = some m → F = E.modPort p (fun x => { x with tx := x.tx.erase m }) → ownOp m.body.op = true → exec (.egressStart p) s = .next (s.after (F.portOwn p m))) ∧
    (∀ (s : State) (p : Nat), (.ideKeySwitch p : Instr).wf = true → s.dev.on PRT_STAT_IDE_ACT p = true → (s.dev.port p).keyPend = true → exec (.ideKeySwitch p) s = .next (s.after ((s.dev.modPort p fun x => { x with keyPend := false }).put PRT_IDE_KEY_SLOT p (1 - s.dev.get PRT_IDE_KEY_SLOT p)))) ∧
    (∀ (s : State) (p : Nat), (.linkDown p : Instr).wf = true → s.dev.cxlPort p = true → s.dev.on PRT_STAT_DL_ACTIVE p = true → (s.dev.port p).resetting = false → exec (.linkDown p) s = .next (s.after (s.dev.portLinkDown p))) ∧
    (∀ (s : State) (p : Nat) (tag : Nat) (o : Outst), (.cplTimeout p tag : Instr).wf = true → (s.dev.port p).outst.find? (·.tag = tag) = some o → s.dev.halted = false → exec (.cplTimeout p tag) s = .next (s.after (((s.dev.modPort p fun x => { x with outst := x.outst.erase o, lateTags := x.lateTags ++ [tag] }).raise PRT_F_CPL_TIMEOUT p).endAsk p o.m .tgtFail [] false 2)))

/-- Hot resets, PERST, disabling and global persistent flush of CXL ports. Commands: GPF_PHASE, GPF_ANSWER, GPF_TIMEOUT,
PERST_IN_ASSERT, PERST_IN_DEASSERT, PERST_OUT_DELAY, PERST_OUT_HOLD, HOT_RESET_RECEIVED, HOT_RESET, HOT_RESET_TIMEOUT,
RETRAIN, DISABLE, DISABLE_CLEAR. Each gives the next state written out, for every state and operands that meet the
hypotheses; values the spec leaves open and the conventions of the log are the model's. (chapter 4, CXL Ports, R140,
R141, R142, R143, R144, R145, R146, R148, R685) -/
def Obligations.PortResetCommands : Prop :=
  (∀ (s : State) (p : Nat) (phase : Nat), (.gpfPhase p phase : Instr).wf = true → s.dev.carries p = true → s.dev.isUp p = true → phase = 1 → (s.dev.port p).gpf = none → s.dev.flushing = false → exec (.gpfPhase p phase) s = .next (s.after ((s.dev.vcsRemote p).foldl (fun d t => d.toRemote p t { op := .gpfAsk, arg := phase, ld := t.ld }) ((s.dev.vcsPorts p).foldl (fun d q => d.gpfIssue q phase p) (s.dev.modPort p fun x => { x with gpf := some { phase := phase, ports := s.dev.vcsPorts p, remote := (s.dev.vcsRemote p).map fun t => t.dev * 128 + t.port, lds := [] } }))))) ∧
    (∀ (s : State) (p : Nat) (phase : Nat), (.gpfPhase p phase : Instr).wf = true → s.dev.carries p = true → s.dev.isUp p = true → phase = 2 → (s.dev.port p).gpf = none → s.dev.flushing = false → exec (.gpfPhase p phase) s = .next (s.after (((s.dev.vcsRemote p).foldl (fun d t => d.toRemote p t { op := .gpfAsk, arg := phase, ld := t.ld }) ((s.dev.vcsPorts p).foldl (fun d q => d.gpfIssue q phase p) (s.dev.modPort p fun x => { x with gpf := some { phase := phase, ports := s.dev.vcsPorts p, remote := (s.dev.vcsRemote p).map fun t => t.dev * 128 + t.port, lds := [] } }))).persFlush p))) ∧
    (∀ (s : State) (p : Nat) (ph u : Nat) (r : List (Nat × Nat)), (.gpfAnswer p : Instr).wf = true → s.dev.halted = false → s.dev.isDown p = true → (s.dev.port p).gpfAsk = (ph, u) :: r → u < 128 → exec (.gpfAnswer p) s = .next (s.after (((s.dev.modPort p fun x => { x with gpfAsk := r }).modPort u fun x => { x with gpf := x.gpf.map fun g => { g with ports := g.ports.filter (· ≠ p) } }).gpfTry u))) ∧
    (∀ (s : State) (p : Nat) (g : Gpf), (.gpfTimeout p : Instr).wf = true → s.dev.isDown p = false → (s.dev.port p).gpf = some g → g.ports.isEmpty = false ∨ g.remote.isEmpty = false → exec (.gpfTimeout p) s = .next (s.after (s.dev.gpfExpire p g))) ∧
    (∀ (s : State) (p : Nat), (.gpfTimeout p : Instr).wf = true → s.dev.isDown p = true → exec (.gpfTimeout p) s = .next (s.after (s.dev.gpfLate p))) ∧
    (∀ (s : State) (i : Nat), (.perstInAssert i : Instr).wf = true → bit (s.dev.get CKR_INSTAT0_PERST_IN) i = false → exec (.perstInAssert i) s = .next (s.after (((List.range 128).filter fun p => (s.dev.put CKR_INSTAT0_PERST_IN 0 (s.dev.get CKR_INSTAT0_PERST_IN + 2 ^ i)).perstPort i p).foldl (fun d p => (d.put PRT_STAT_PERST_IN p 1).hostReset p 6) (s.dev.put CKR_INSTAT0_PERST_IN 0 (s.dev.get CKR_INSTAT0_PERST_IN + 2 ^ i))))) ∧
    (∀ (s : State) (i : Nat), (.perstInDeassert i : Instr).wf = true → bit (s.dev.get CKR_INSTAT0_PERST_IN) i = true → exec (.perstInDeassert i) s = .next (s.after (((List.range 128).filter fun p => (s.dev.put CKR_INSTAT0_PERST_IN 0 (s.dev.get CKR_INSTAT0_PERST_IN - 2 ^ i)).perstPort i p).foldl (fun d p => (d.put PRT_STAT_PERST_IN p 0).portResetOver p) (s.dev.put CKR_INSTAT0_PERST_IN 0 (s.dev.get CKR_INSTAT0_PERST_IN - 2 ^ i))))) ∧
    (∀ (s : State) (p : Nat), (.perstOutDelay p : Instr).wf = true → s.dev.on SPU_STAT_PG (s.dev.get PRT_PERST_SLOT p) = true → exec (.perstOutDelay p) s = .next (s.after ((s.dev.modPort p fun x => { x with perstDelayDone := true }).perstGo))) ∧
    (∀ (s : State) (p : Nat), (.perstOutHold p : Instr).wf = true → (s.dev.port p).perstMin = true → exec (.perstOutHold p) s = .next (s.after ((s.dev.modPort p fun x => { x with perstMin := false }).portResetOver p))) ∧
    (∀ (s : State) (p : Nat), (.hotResetReceived p : Instr).wf = true → s.dev.cxlPort p = true → s.dev.isUp p = true → s.dev.on PRT_STAT_LINK_UP p = true → (s.dev.port p).gpf = none → exec (.hotResetReceived p) s = .next (s.after (s.dev.hostReset p 5))) ∧
    (∀ (s : State) (path : Nat) (p : Nat), (.hotReset path p : Instr).wf = true → s.dev.Reaches path ⟨.prt, p⟩ → s.dev.cxlPort p = true → s.dev.isDown p = true → exec (.hotReset path p) s = .next (s.after (s.dev.sendHot p))) ∧
    (∀ (s : State) (p : Nat), (.hotResetTimeout p : Instr).wf = true → s.dev.cxlPort p = true → (s.dev.port p).hotSent = true → exec (.hotResetTimeout p) s = .next (s.after (s.dev.portLinkDown p))) ∧
    (∀ (s : State) (path : Nat) (p : Nat), (.retrain path p : Instr).wf = true → s.dev.Reaches path ⟨.prt, p⟩ → s.dev.cxlPort p = true → [tsL0, tsL0p, tsL1].contains (s.dev.portState p) = true → exec (.retrain path p) s = .next (s.after ((s.dev.marginPort p).setPortState p tsRecovery))) ∧
    (∀ (s : State) (path : Nat) (p : Nat), (.disable path p : Instr).wf = true → s.dev.Reaches path ⟨.prt, p⟩ → s.dev.portDunrun p = false → s.dev.on PRT_LINKCTL_DISABLE p = false → s.dev.cxlPort p = true → (s.dev.put PRT_LINKCTL_DISABLE p 1).cxlPort p = true → exec (.disable path p) s = .next (s.after ((s.dev.put PRT_LINKCTL_DISABLE p 1).portResetStart p))) ∧
    (∀ (s : State) (path : Nat) (p : Nat), (.disableClear path p : Instr).wf = true → s.dev.Reaches path ⟨.prt, p⟩ → s.dev.portDunrun p = false → s.dev.on PRT_LINKCTL_DISABLE p = true → (s.dev.port p).resetting = false → exec (.disableClear path p) s = .next (s.after ((s.dev.put PRT_LINKCTL_DISABLE p 0).portResetOver p)))

/-- What a link does with received blocks and message and flow packets. Commands: DUNRUN_BLOCK, MESSAGE_PACKET, ACK, NAK,
CREDIT, INIT, INIT_ACK. Each gives the next state written out, for every state and operands that meet the hypotheses;
values the spec leaves open and the conventions of the log are the model's. (chapter 5, Dunrun Links, R158, R170,
R173, R177, R167, R168) -/
def Obligations.DunrunReceiveCommands : Prop :=
  (∀ (s : State) (k : Nat) (lane : Nat) (raw : Bytes) (b : Bytes) (n : Nat), (.dunrunBlock k lane raw : Instr).wf = true → s.dev.halted = false → s.dev.linkAvail k = true → s.dev.octState (s.dev.lkOctet k) = tsDrActive → s.dev.get SDS_LANE_LOCK (s.dev.lkOctet k) lane ≠ 0 → raw.length = 256 → blockCorrect (if s.dev.on SDS_LANE_POL_INV (s.dev.lkOctet k) lane then raw.map fun y => y ^^^ 0xAA else raw) = some (b, n) → exec (.dunrunBlock k lane raw) s = .next (s.after ((s.dev.blockGood k lane (b2n (!s.dev.hdrOk (s.dev.lkOctet k) lane (leNat (raw.take 2)))) b n).laneHeader (s.dev.lkOctet k) lane (leNat (raw.take 2))))) ∧
    (∀ (s : State) (k : Nat) (lane : Nat) (raw : Bytes), (.dunrunBlock k lane raw : Instr).wf = true → s.dev.halted = false → s.dev.linkAvail k = true → s.dev.octState (s.dev.lkOctet k) = tsDrActive → s.dev.get SDS_LANE_LOCK (s.dev.lkOctet k) lane ≠ 0 → raw.length = 256 → blockCorrect (if s.dev.on SDS_LANE_POL_INV (s.dev.lkOctet k) lane then raw.map fun y => y ^^^ 0xAA else raw) = none → exec (.dunrunBlock k lane raw) s = .next (s.after ((s.dev.blockUncorr k lane (b2n (!s.dev.hdrOk (s.dev.lkOctet k) lane (leNat (raw.take 2))))).laneHeader (s.dev.lkOctet k) lane (leNat (raw.take 2))))) ∧
    (∀ (s : State) (k : Nat) (b : Bytes), (.messagePacket k : Instr).wf = true → s.dev.front k = some b → s.dev.halted = false → pktType b = 0x1 → (s.dev.popFront k b).pktNow k 0x1 = true → (s.dev.popFront k b).encOn k = false → exec (.messagePacket k) s = .next (s.after ((((s.dev.popFront k b).retxMark k b (s.dev.frontBlks k b.length)).takeMessage k b).frontCheck k))) ∧
    (∀ (s : State) (k : Nat) (b : Bytes) (n : Nat), (.messagePacket k : Instr).wf = true → s.dev.front k = none → s.dev.halted = false → b = s.dev.rxBytes k → pktHead b + 64 ≤ b.length → n = min (fld (pktNat b) 8 3) ((b.length - pktHead b) / 64) → n ≠ 0 → pktType b = 0x1 → s.dev.pktNow k 0x1 = true → s.dev.encRx k = false → (s.dev.link k).openMsg = false → (s.dev.packetMsg k b).seq = s.dev.rxE k → (s.dev.link k).stall.contains (s.dev.packetMsg k b).seq = false → s.dev.cutThrough k (s.dev.packetMsg k b) = true → exec (.messagePacket k) s = .next (s.after (s.dev.openHeader k b n))) ∧
    (∀ (s : State) (k : Nat) (b : Bytes) (n : Nat), (.messagePacket k : Instr).wf = true → s.dev.front k = none → s.dev.halted = false → b = s.dev.rxBytes k → pktHead b + 64 ≤ b.length → n = min (fld (pktNat b) 8 3) ((b.length - pktHead b) / 64) → n ≠ 0 → pktType b = 0x1 → s.dev.pktNow k 0x1 = true → s.dev.encRx k = false → (s.dev.link k).openMsg = true → (s.dev.packetMsg k b).seq = s.dev.rxE k → (s.dev.link k).stall.contains (s.dev.packetMsg k b).seq = false → exec (.messagePacket k) s = .next (s.after (s.dev.showCells k (pktWire b) n))) ∧
    (∀ (s : State) (k : Nat) (b : Bytes), (.ack k : Instr).wf = true → s.dev.Packet k 0x8 0 b → exec (.ack k) s = .next (s.after (((s.dev.popFront k b).releaseTo k (fld (pktNat b) 8 12)).frontCheck k))) ∧
    (∀ (s : State) (k : Nat) (b : Bytes), (.nak k : Instr).wf = true → s.dev.Packet k 0x8 1 b → exec (.nak k) s = .next (s.after (((s.dev.popFront k b).takeNak k (fld (pktNat b) 8 12)).frontCheck k))) ∧
    (∀ (s : State) (k : Nat) (b : Bytes), (.credit k : Instr).wf = true → s.dev.front k = some b → s.dev.halted = false → pktType b = 0x9 → (s.dev.popFront k b).pktNow k 0x9 = true → (s.dev.popFront k b).encOn k = false → exec (.credit k) s = .next (s.after (((s.dev.popFront k b).takeCredit k b).frontCheck k))) ∧
    (∀ (s : State) (k : Nat) (b : Bytes), (.init k : Instr).wf = true → s.dev.front k = some b → s.dev.halted = false → pktType b = 0xA → pktSub b = 0 → (s.dev.popFront k b).pktNow k 0xA = true → (s.dev.popFront k b).encOn k = false → exec (.init k) s = .next (s.after (((s.dev.popFront k b).takeInit k b).frontCheck k))) ∧
    (∀ (s : State) (k : Nat) (b : Bytes), (.initAck k : Instr).wf = true → s.dev.front k = some b → s.dev.halted = false → pktType b = 0xA → pktSub b = 1 → (s.dev.popFront k b).pktNow k 0xA = true → (s.dev.popFront k b).encOn k = false → exec (.initAck k) s = .next (s.after (((s.dev.popFront k b).takeInitAck k b).frontCheck k)))

/-- What a link does with received control packets. Commands: SPARE_REQ, SPARE_ACK, SPARE_DONE, SPARE_NACK, TIME_REQ,
TIME_RESP, TIME_FOLLOW, CRUMB, ROUTE_WITHDRAW, ROUTE_RESTORE, SEC_MAC, KEY_SWITCH. Each gives the next state written
out, for every state and operands that meet the hypotheses; values the spec leaves open and the conventions of the log
are the model's. (chapter 5, Dunrun Links, R180, R182, R188, R626, R190, R196, R185, R187) -/
def Obligations.DunrunControlPacketCommands : Prop :=
  (∀ (s : State) (k : Nat) (b : Bytes), (.spareReq k : Instr).wf = true → s.dev.Packet k 0xB 0 b → exec (.spareReq k) s = .next (s.after (((s.dev.popFront k b).takeSpare k b).frontCheck k))) ∧
    (∀ (s : State) (k : Nat) (b : Bytes), (.spareAck k : Instr).wf = true → s.dev.Packet k 0xB 1 b → exec (.spareAck k) s = .next (s.after (((s.dev.popFront k b).takeSpare k b).frontCheck k))) ∧
    (∀ (s : State) (k : Nat) (b : Bytes), (.spareDone k : Instr).wf = true → s.dev.Packet k 0xB 2 b → exec (.spareDone k) s = .next (s.after (((s.dev.popFront k b).takeSpare k b).frontCheck k))) ∧
    (∀ (s : State) (k : Nat) (b : Bytes), (.spareNack k : Instr).wf = true → s.dev.Packet k 0xB 3 b → exec (.spareNack k) s = .next (s.after (((s.dev.popFront k b).takeSpare k b).frontCheck k))) ∧
    (∀ (s : State) (k : Nat) (b : Bytes), (.timeReq k : Instr).wf = true → s.dev.Packet k 0xC 0 b → exec (.timeReq k) s = .next (s.after (((s.dev.popFront k b).takeTime k b ((s.dev.popFront k b).blkTime k ((s.dev.frontBlks k b.length).headD 0))).frontCheck k))) ∧
    (∀ (s : State) (k : Nat) (b : Bytes), (.timeResp k : Instr).wf = true → s.dev.Packet k 0xC 1 b → exec (.timeResp k) s = .next (s.after (((s.dev.popFront k b).takeTime k b ((s.dev.popFront k b).blkTime k ((s.dev.frontBlks k b.length).headD 0))).frontCheck k))) ∧
    (∀ (s : State) (k : Nat) (b : Bytes), (.timeFollow k : Instr).wf = true → s.dev.Packet k 0xC 2 b → exec (.timeFollow k) s = .next (s.after (((s.dev.popFront k b).takeTime k b ((s.dev.popFront k b).blkTime k ((s.dev.frontBlks k b.length).headD 0))).frontCheck k))) ∧
    (∀ (s : State) (k : Nat) (b : Bytes), (.crumb k : Instr).wf = true → s.dev.Packet k 0xD 0 b → exec (.crumb k) s = .next (s.after (((s.dev.popFront k b).takeCrumb k b).frontCheck k))) ∧
    (∀ (s : State) (k : Nat) (b : Bytes), (.routeWithdraw k : Instr).wf = true → s.dev.Packet k 0xE 0 b → exec (.routeWithdraw k) s = .next (s.after (((s.dev.popFront k b).takeRoute k b).frontCheck k))) ∧
    (∀ (s : State) (k : Nat) (b : Bytes), (.routeRestore k : Instr).wf = true → s.dev.Packet k 0xE 1 b → exec (.routeRestore k) s = .next (s.after (((s.dev.popFront k b).takeRoute k b).frontCheck k))) ∧
    (∀ (s : State) (k : Nat) (b : Bytes), (.secMac k : Instr).wf = true → s.dev.front k = some b → s.dev.halted = false → pktType b = 0xF → pktSub b = 0 → (s.dev.popFront k b).pktNow k 0xF = true → exec (.secMac k) s = .next (s.after (((s.dev.popFront k b).takeMac k ((s.dev.frontBlks k b.length).headD 0) b).frontCheck k))) ∧
    (∀ (s : State) (k : Nat) (b : Bytes), (.keySwitch k : Instr).wf = true → s.dev.front k = some b → s.dev.halted = false → pktType b = 0xF → pktSub b = 1 → (s.dev.popFront k b).pktNow k 0xF = true → exec (.keySwitch k) s = .next (s.after (((s.dev.popFront k b).takeKeySwitch k ((s.dev.frontBlks k b.length).headD 0) b).frontCheck k)))

/-- What a link sends and what its timers do. Commands: DRL_ATTACH, LINK_INIT, INIT_RESEND, NAK_RESEND, ACK_NS_TIMER,
ACK_IDLE_TIMER, REPLAY_TIMEOUT, LIVE_TIMEOUT, MESSAGE_PACKET_SEND, CREDIT_TIMER, CREDIT_STALL, TIME_EXCHANGE,
SPARE_BLOCK_SWITCH, SPARE_REQ_REPEAT, SPARE_TIMEOUT. Each gives the next state written out, for every state and
operands that meet the hypotheses; values the spec leaves open and the conventions of the log are the model's.
(chapter 5, Dunrun Links, R154, R167, R171, R172, R174, R175, R177, R178, R179, R188, R180) -/
def Obligations.DunrunSendCommands : Prop :=
  (∀ (s : State) (path : Nat) (k : Nat) (oct : Nat), (.drlAttach path k oct true : Instr).wf = true → s.dev.Reaches path ⟨.drl, k⟩ → s.dev.locked ⟨.drl, k⟩ = false → s.dev.on (PGCTL_ENABLE .drl) k = false → ((List.range 32).any fun j => j ≠ k && s.dev.on DRL_ATTACH_VALID j && s.dev.get DRL_ATTACH_OCTET j = oct) = false → exec (.drlAttach path k oct true) s = .next (s.after ((((s.dev.put DRL_ATTACH_OCTET k oct).put DRL_ATTACH_VALID k 1).put DRL_ATTACH_CONFLICT k 0).modLink k Link.blocksAnew))) ∧
    (∀ (s : State) (k : Nat), (.linkInit k : Instr).wf = true → s.dev.halted = false → s.dev.lkState k = lkDown → s.dev.linkAvail k = true → s.dev.on (PGCTL_ENABLE .drl) k = true → s.dev.quarantined (.link k) = false → s.dev.octState (s.dev.lkOctet k) = tsDrActive → exec (.linkInit k) s = .next (s.after (s.dev.initEnter k))) ∧
    (∀ (s : State) (k : Nat), (.initResend k : Instr).wf = true → s.dev.halted = false → s.dev.lkState k = lkInit ∨ s.dev.lkState k = lkKeywait → exec (.initResend k) s = .next (s.after (s.dev.sendInit k 0))) ∧
    (∀ (s : State) (k : Nat), (.nakResend k : Instr).wf = true → s.dev.lkActiveNow k = true → (s.dev.link k).nakOut = true → exec (.nakResend k) s = .next (s.after (s.dev.sendNak k))) ∧
    (∀ (s : State) (k : Nat), (.ackNsTimer k : Instr).wf = true → s.dev.lkActiveNow k = true → 0 < (s.dev.link k).accSinceAck → exec (.ackNsTimer k) s = .next (s.after (s.dev.sendAck k))) ∧
    (∀ (s : State) (k : Nat), (.ackIdleTimer k : Instr).wf = true → s.dev.lkActiveNow k = true → exec (.ackIdleTimer k) s = .next (s.after (s.dev.sendAck k))) ∧
    (∀ (s : State) (k : Nat), (.replayTimeout k : Instr).wf = true → s.dev.lkActiveNow k = true → exec (.replayTimeout k) s = .next (s.after (s.dev.replayFrom k (s.dev.txU k)))) ∧
    (∀ (s : State) (k : Nat), (.liveTimeout k : Instr).wf = true → s.dev.lkActiveNow k = true → exec (.liveTimeout k) s = .next (s.after (s.dev.linkDownEv k))) ∧
    (∀ (s : State) (k : Nat) (m : Msg) (rest : List Msg), (.messagePacketSend k : Instr).wf = true → (s.dev.port (s.dev.linkPort k)).tx = m :: rest → s.dev.lkActiveNow k = true → (s.dev.txN k + 4096 - s.dev.txU k) % 4096 < 2048 → s.dev.linkCredit k m = true → (s.dev.link k).replayBytes + (s.dev.packetOf k m).length ≤ 262144 → exec (.messagePacketSend k) s = .next (s.after (s.dev.packetOut k m rest))) ∧
    (∀ (s : State) (k : Nat), (.creditTimer k : Instr).wf = true → s.dev.lkActiveNow k = true → exec (.creditTimer k) s = .next (s.after ((List.range (s.dev.nvc k)).foldl (fun d v => d.sendCredit k v) s.dev))) ∧
    (∀ (s : State) (k : Nat) (vc : Nat), (.creditStall k vc : Instr).wf = true → s.dev.lkActiveNow k = true → ((s.dev.toSend k).any fun m => s.dev.vcOf k m.cls = vc && !s.dev.linkCredit k m) = true → exec (.creditStall k vc) s = .next (s.after (s.dev.raise DRL_F_CREDIT_STALL k))) ∧
    (∀ (s : State) (k : Nat), (.timeExchange k : Instr).wf = true → s.dev.lkActiveNow k = true → s.dev.on DRL_TIME_SYNC_EN k = true → exec (.timeExchange k) s = .next (s.after ((s.dev.modLink k fun l => { l with timeId := ((s.dev.link k).timeId + 1) % 256, t1 := some s.dev.fab, t2 := none, t4 := none }).sendPkt k (pktTime 0 (((s.dev.link k).timeId + 1) % 256) s.dev.fab)))) ∧
    (∀ (s : State) (k : Nat) (x : Spare) (sp b : Nat), (.spareBlockSwitch k : Instr).wf = true → (s.dev.link k).spare = some x → ((List.range 9).find? fun l => s.dev.on SDS_LANE_SPARE (s.dev.lkOctet k) l) = some sp → x.block = some b → ((s.dev.link k).blockCnt + 4096 - b) % 4096 < 2048 → s.dev.lkActiveNow k = true → exec (.spareBlockSwitch k) s = .next (s.after (s.dev.spareSwap k x sp))) ∧
    (∀ (s : State) (k : Nat), (.spareReqRepeat k : Instr).wf = true → s.dev.lkActiveNow k = true → exec (.spareReqRepeat k) s = .next (s.after ((((s.dev.link k).spare.toList ++ (s.dev.link k).spareMore).filter fun x => x.block.isNone).foldl (fun d x => d.sendPkt k (pktSpare 0 x.lane 0 x.trans)) s.dev))) ∧
    (∀ (s : State) (k : Nat), (.spareTimeout k : Instr).wf = true → s.dev.lkActiveNow k = true → (s.dev.link k).spare.isSome = true → exec (.spareTimeout k) s = .next (s.after (s.dev.spareFail k)))

/-- Admission, storage, bank decisions, egress and retirement. Egress samples, gate edges and shaper refills. Commands:
CELL_PRESENT, HELD_ADMIT, TAG_FILL, EGRESS_SELECT, BANK_DECISION, STALL_TIMEOUT, RETIRE, RETIREMENT_DONE,
SHAPER_REFILL, EGS_SAMPLE, GATE_EDGE. Each gives the next state written out, for every state and operands that meet
the hypotheses; values the spec leaves open and the conventions of the log are the model's. (chapter 6, The Oven;
chapter 7, Bank Read Arbitration, chapter 8, Policing, Shaping, R216, R221, R502, R225, R253, R237, R242, R280, R287,
R292) -/
def Obligations.OvenAndEgressCommands : Prop :=
  (∀ (s : State) (src : Nat) (err : CrossErr) (m : Msg) (rest : List Msg), (.cellPresent ⟨[src], err⟩ : Instr).wf = true → s.dev.halted = false → s.dev.core.held.contains src = false → s.dev.relOf src = m :: rest → exec (.cellPresent ⟨[src], err⟩) s = .next (s.after ((((s.dev.tryHead src m rest).shutHead src).settleClaims err).lateAll))) ∧
    (∀ (s : State) (srcs : List Nat) (err : CrossErr), (.cellPresent ⟨srcs, err⟩ : Instr).wf = true → s.dev.halted = false → exec (.cellPresent ⟨srcs, err⟩) s = .next (s.after (((((List.range 144).filter srcs.contains).foldl (fun d src => (d.present src).shutHead src) s.dev).settleClaims err).lateAll))) ∧
    (∀ (s : State) (src : Nat) (err : CrossErr) (m : Msg) (rest : List Msg), (.heldAdmit ⟨src, err⟩ : Instr).wf = true → s.dev.halted = false → s.dev.core.held.contains src = true → s.dev.relOf src = m :: rest → exec (.heldAdmit ⟨src, err⟩) s = .next (s.after ((((s.dev.tryHead src m rest).shutHead src).settleClaims err).lateAll))) ∧
    (∀ (s : State) (sl : Nat) (word : Nat) (ue : Bool), (.tagFill sl word ue : Instr).wf = true → (SMap.get [] s.dev.prot.misses sl).contains word = true → (SMap.get [] s.dev.prot.stale sl).contains word = false → exec (.tagFill sl word ue) s = .next (s.after (s.dev.tagArrive sl word ue))) ∧
    (∀ (s : State) (dest : Nat) (bridge : Bool), (.egressSelect ⟨dest, bridge⟩ : Instr).wf = true → s.dev.halted = false → bridge = false → dest < 128 → exec (.egressSelect ⟨dest, bridge⟩) s = .next (s.after ((s.dev.purgeBad dest).selectPort dest))) ∧
    (∀ (s : State) (dest : Nat) (bridge : Bool), (.egressSelect ⟨dest, bridge⟩ : Instr).wf = true → s.dev.halted = false → bridge = false → 128 ≤ dest → (s.dev.purgeBad dest).sliceOn (dest - 128) = true → exec (.egressSelect ⟨dest, bridge⟩) s = .next (s.after ((s.dev.purgeBad dest).selectHome (dest - 128)))) ∧
    (∀ (s : State) (dest : Nat) (bridge : Bool), (.egressSelect ⟨dest, bridge⟩ : Instr).wf = true → s.dev.halted = false → bridge = true → dest < 128 → exec (.egressSelect ⟨dest, bridge⟩) s = .next (s.after (((s.dev.crossErr .bridge (destSlice dest) 0).purgeBad dest).selectPort dest))) ∧
    (∀ (s : State) (sl : Nat) (b : Nat) (err : BankErr), (.bankDecision sl b err : Instr).wf = true → s.dev.halted = false → s.dev.sliceOn sl = true → exec (.bankDecision sl b err) s = .next (s.after (s.dev.bankStep sl b err))) ∧
    (∀ (s : State) (sl : Nat) (id : Nat) (x : Stored), (.stallTimeout sl id : Instr).wf = true → s.dev.stored? id = some x → srcSlice x.m.src = sl → x.m.last = false → exec (.stallTimeout sl id) s = .next (s.after (s.dev.stallClose sl id x))) ∧
    (∀ (s : State) (path : Nat) (sl : Nat) (b : Nat), (.retire path sl b : Instr).wf = true → s.dev.Reaches path ⟨.ovn, sl⟩ → (s.dev.put OVN_RETIRE_BANK sl b).retired sl b = false → (s.dev.put OVN_RETIRE_BANK sl b).canRetire sl = true → exec (.retire path sl b) s = .next (s.after ((s.dev.put OVN_RETIRE_BANK sl b).retireNow sl b))) ∧
    (∀ (s : State) (sl : Nat), (.retirementDone sl : Instr).wf = true → (s.dev.core.retiring.filter fun k => k / 16 = sl).isEmpty = false → ((s.dev.core.retiring.filter fun k => k / 16 = sl).any fun k => s.dev.bankUsed sl (k % 16) > 0) = false → exec (.retirementDone sl) s = .next (s.after ((s.dev.core.retiring.filter fun k => k / 16 = sl).foldl (fun d _ => d.raise OVN_F_RETIRED sl) (({ s.dev with core := { s.dev.core with retiring := s.dev.core.retiring.filter fun k => k / 16 ≠ sl } } : Dev).put OVN_RETIRE_BUSY sl 0)))) ∧
    (∀ (s : State) (p : Nat), (.shaperRefill p : Instr).wf = true → s.dev.portAvail p = true → ((s.dev.tabRead 0x0B p (List.range 8)).refillAll p).on (PGEPOCH_APPLIED .egs) p = true → exec (.shaperRefill p) s = .next (s.after ((s.dev.tabRead 0x0B p (List.range 8)).refillAll p))) ∧
    (∀ (s : State) (p : Nat), (.egsSample p : Instr).wf = true → s.dev.halted = false → s.dev.portAvail p = true → s.dev.enabled ⟨.egs, p⟩ = true → s.dev.get EGS_SAMPLE_INTERVAL p ≠ 0 → exec (.egsSample p) s = .next (s.after (s.dev.sampleNow p))) ∧
    (∀ (s : State) (p : Nat) (t : Nat) (E : Dev), (.gateEdge p : Instr).wf = true → s.dev.portAvail p = true → E = (if s.dev.on GTE_CFG_GATE_EN p then s.dev.tabRead 0x0C p [(s.dev.gatesAt p s.dev.fab).1] else s.dev) → (s.dev.egress p).switchAt = some t → t ≤ E.fab → exec (.gateEdge p) s = .next (s.after ((E.setEgress p { s.dev.egress p with switchAt := none, gateOn := E.on GTE_CFG_GATE_EN p, gateHeld := (s.dev.egress p).gateHeld.filter fun h => E.fab < h / 8 }).put (PGEPOCH_APPLIED .gte) p 1))) ∧
    (∀ (s : State) (p : Nat) (E : Dev), (.gateEdge p : Instr).wf = true → s.dev.portAvail p = true → E = (if s.dev.on GTE_CFG_GATE_EN p then s.dev.tabRead 0x0C p [(s.dev.gatesAt p s.dev.fab).1] else s.dev) → (s.dev.egress p).switchAt = none → exec (.gateEdge p) s = .next (s.after (E.setEgress p { s.dev.egress p with gateHeld := (s.dev.egress p).gateHeld.filter fun h => E.fab < h / 8 })))

/-- What the home does with each request kind it takes next. Commands: RD_S, RD_O, OWN_ND, RD_C, WR, ATOM, WB_I, WB_S,
CLN, BIS_I, BIS_S, BIS_C. Each gives the next state written out, for every state and operands that meet the
hypotheses; values the spec leaves open and the conventions of the log are the model's. (chapter 10, Coherence, R368,
R372, R424, R383, R384, R371) -/
def Obligations.HomeRequestCommands : Prop :=
  (∀ (s : State) (h : Nat) (m : Msg) (d2 : Dev), (.rdS h : Instr).wf = true → s.dev.NextRequest h .rdS m d2 → exec (.rdS h) s = .next (s.after (Dev.runHome (((d2.seeAgent m).lineGo m.body.tk m.hline (s.dev.home h).waits.length).decideOne (m, none))))) ∧
    (∀ (s : State) (h : Nat) (m : Msg) (d2 : Dev), (.rdO h : Instr).wf = true → s.dev.NextRequest h .rdO m d2 → exec (.rdO h) s = .next (s.after (Dev.runHome (((d2.seeAgent m).lineGo m.body.tk m.hline (s.dev.home h).waits.length).decideOne (m, none))))) ∧
    (∀ (s : State) (h : Nat) (m : Msg) (d2 : Dev), (.ownNd h : Instr).wf = true → s.dev.NextRequest h .ownNd m d2 → exec (.ownNd h) s = .next (s.after (Dev.runHome (((d2.seeAgent m).lineGo m.body.tk m.hline (s.dev.home h).waits.length).decideOne (m, none))))) ∧
    (∀ (s : State) (h : Nat) (m : Msg) (d2 : Dev), (.rdC h : Instr).wf = true → s.dev.NextRequest h .rdC m d2 → exec (.rdC h) s = .next (s.after (Dev.runHome (((d2.seeAgent m).lineGo m.body.tk m.hline (s.dev.home h).waits.length).decideOne (m, none))))) ∧
    (∀ (s : State) (h : Nat) (m : Msg) (d2 : Dev), (.wr h : Instr).wf = true → s.dev.NextRequest h .wr m d2 → exec (.wr h) s = .next (s.after (Dev.runHome (((d2.seeAgent m).lineGo m.body.tk m.hline (s.dev.home h).waits.length).decideOne (m, none))))) ∧
    (∀ (s : State) (h : Nat) (m : Msg) (d2 : Dev), (.atom h : Instr).wf = true → s.dev.NextRequest h .atom m d2 → exec (.atom h) s = .next (s.after (Dev.runHome (((d2.seeAgent m).lineGo m.body.tk m.hline (s.dev.home h).waits.length).decideOne (m, none))))) ∧
    (∀ (s : State) (h : Nat) (m : Msg) (d2 : Dev), (.wbI h : Instr).wf = true → s.dev.halted = false → s.dev.arrivedAt h 0 = [] → s.dev.takeFrom h 1 = some (m, d2) → kindOf m.body.op = some .wbI → exec (.wbI h) s = .next (s.after (Dev.runHome (((d2.seeAgent m).lineGo m.body.tk m.hline (s.dev.home h).waits.length).decideOne (m, none))))) ∧
    (∀ (s : State) (h : Nat) (m : Msg) (d2 : Dev), (.wbS h : Instr).wf = true → s.dev.halted = false → s.dev.arrivedAt h 0 = [] → s.dev.takeFrom h 1 = some (m, d2) → kindOf m.body.op = some .wbS → exec (.wbS h) s = .next (s.after (Dev.runHome (((d2.seeAgent m).lineGo m.body.tk m.hline (s.dev.home h).waits.length).decideOne (m, none))))) ∧
    (∀ (s : State) (h : Nat) (m : Msg) (d2 : Dev), (.cln h : Instr).wf = true → s.dev.NextRequest h .cln m d2 → exec (.cln h) s = .next (s.after (Dev.runHome (((d2.seeAgent m).lineGo m.body.tk m.hline (s.dev.home h).waits.length).decideOne (m, none))))) ∧
    (∀ (s : State) (h : Nat) (m : Msg) (d2 : Dev), (.bisI h : Instr).wf = true → s.dev.NextRequest h .bisI m d2 → exec (.bisI h) s = .next (s.after (Dev.runHome (((d2.seeAgent m).lineGo m.body.tk m.hline (s.dev.home h).waits.length).decideOne (m, none))))) ∧
    (∀ (s : State) (h : Nat) (m : Msg) (d2 : Dev), (.bisS h : Instr).wf = true → s.dev.NextRequest h .bisS m d2 → exec (.bisS h) s = .next (s.after (Dev.runHome (((d2.seeAgent m).lineGo m.body.tk m.hline (s.dev.home h).waits.length).decideOne (m, none))))) ∧
    (∀ (s : State) (h : Nat) (m : Msg) (d2 : Dev), (.bisC h : Instr).wf = true → s.dev.NextRequest h .bisC m d2 → exec (.bisC h) s = .next (s.after (Dev.runHome (((d2.seeAgent m).lineGo m.body.tk m.hline (s.dev.home h).waits.length).decideOne (m, none)))))

/-- What the home does with answers, retries, notices and timeouts. Commands: SNOOP_ANSWER, TARGET_ANSWER,
LINE_QUEUE_HEAD, WAIT_BUFFER_ENTRY_FREE, RETRY_OFFER, SNOOP_TIMEOUT, QUENCH_NOTICE, QUENCH_SCAN_DONE, DIR_PEEK,
SCC_FLUSH_CLEAN, REMOTE_SNOOP. Each gives the next state written out, for every state and operands that meet the
hypotheses; values the spec leaves open and the conventions of the log are the model's. (chapter 10, Coherence;
chapter 11, Coherence Races, R382, R386, R381, R385, R390, R392, R396, R395, R354, R363, R340) -/
def Obligations.HomeAnswerCommands : Prop :=
  (∀ (s : State) (h : Nat) (m : Msg) (d2 : Dev), (.snoopAnswer h : Instr).wf = true → s.dev.halted = false → s.dev.frontRsp h = some (m, d2) → ansOp m.body.op = true → exec (.snoopAnswer h) s = .next (s.after (d2.snoopAnswered m))) ∧
    (∀ (s : State) (h : Nat) (m : Msg) (d2 : Dev), (.targetAnswer h : Instr).wf = true → s.dev.halted = false → s.dev.frontRsp h = some (m, d2) → ansOp m.body.op = false → tgtOp m.body.op = true → exec (.targetAnswer h) s = .next (s.after (d2.homeTarget h m))) ∧
    (∀ (s : State) (h : Nat) (line : Nat) (w : Wait), (.lineQueueHead h line : Instr).wf = true → s.dev.halted = false → homeSlice (line / 2 ^ 46) (line % 2 ^ 46) = h → s.dev.lineTaken (line / 2 ^ 46) (line % 2 ^ 46) = false → (s.dev.home h).waits.find? (fun w => !w.retry && w.tk = line / 2 ^ 46 && w.h = line % 2 ^ 46) = some w → exec (.lineQueueHead h line) s = .next (s.after (Dev.runHome ((s.dev.modHome h fun x => { x with waits := x.waits.erase w }).decideOne (w.m, none))))) ∧
    (∀ (s : State) (h : Nat) (src : Nat), (.waitBufferEntryFree h src : Instr).wf = true → (s.dev.home h).waits.length < 1024 → exec (.waitBufferEntryFree h src) s = .next (s.after (s.dev.modHome h fun x => { x with stalled := x.stalled.filter fun y => y ≠ src && y ≠ 1000 + src }))) ∧
    (∀ (s : State) (h : Nat) (set_ : Nat) (way : Nat) (w : Wait), (.retryOffer h set_ way : Instr).wf = true → s.dev.halted = false → s.dev.wayFree h set_ way = true → oldestWait (s.dev.retryWaits h set_ way) = some w → exec (.retryOffer h set_ way) s = .next (s.after ((s.dev.retryTake h set_ w).takeWay h set_ way w.m))) ∧
    (∀ (s : State) (h : Nat) (line : Nat) (agent : Nat), (.snoopTimeout h line agent : Instr).wf = true → s.dev.halted = false → homeSlice (line / 2 ^ 46) (line % 2 ^ 46) = h → exec (.snoopTimeout h line agent) s = .next (s.after (s.dev.snoopExpire (line / 2 ^ 46) (line % 2 ^ 46) agent))) ∧
    (∀ (s : State) (agent : Nat) (domain : Nat) (dev : Nat) (m : Msg), (.quenchNotice agent domain dev : Instr).wf = true → s.dev.halted = false → s.dev.firstOf 0 (quenchHit agent domain dev) = some m → 512 ≤ agent → exec (.quenchNotice agent domain dev) s = .next (s.after ((s.dev.setArrived 0 2 ((s.dev.arrivedAt 0 2).erase m)).quench domain none false))) ∧
    (∀ (s : State) (agent : Nat) (domain : Nat) (dev : Nat) (m : Msg), (.quenchNotice agent domain dev : Instr).wf = true → s.dev.halted = false → s.dev.firstOf 0 (quenchHit agent domain dev) = some m → agent < 512 → (s.dev.setArrived 0 2 ((s.dev.arrivedAt 0 2).erase m)).agentDead agent = false → exec (.quenchNotice agent domain dev) s = .next (s.after ((s.dev.setArrived 0 2 ((s.dev.arrivedAt 0 2).erase m)).declareDead agent 3 dev domain))) ∧
    (∀ (s : State) (h : Nat), (.quenchScanDone h : Instr).wf = true → s.dev.halted = false → (s.dev.quenchReady h).isEmpty = false → exec (.quenchScanDone h) s = .next (s.after (s.dev.quenchScanEnd h (s.dev.quenchReady h)))) ∧
    (∀ (s : State) (path : Nat) (h : Nat), (.dirPeek path h : Instr).wf = true → s.dev.Reaches path ⟨.dir, h⟩ → exec (.dirPeek path h) s = .next (s.after (s.dev.dirPeek h))) ∧
    (∀ (s : State) (path : Nat) (h : Nat), (.sccFlushClean path h : Instr).wf = true → s.dev.Reaches path ⟨.scc, h⟩ → s.dev.halted = false → exec (.sccFlushClean path h) s = .next (s.after (((s.dev.sccOf h).filter (·.dirty)).foldl (fun d l => d.sccVictim l true devDomain) s.dev))) ∧
    (∀ (s : State) (h : Nat) (m : Msg) (d2 : Dev) (k : MOp), (.remoteSnoop h : Instr).wf = true → s.dev.halted = false → s.dev.arrivedAt h 0 = [] → s.dev.takeFrom h 1 = none → s.dev.takeFrom h 2 = some (m, d2) → localSnoop m.body.op = some k → exec (.remoteSnoop h) s = .next (s.after (d2.remoteSnoop h m k)))

/-- Streaming writes, drains, combining and acceptance records. Commands: ACCEPTANCE_INDEX_RECORD, TRAY_HOLD_RELEASE,
STREAMING_WRITE, CMB_TIMEOUT, DRAIN_WRITE, DRAIN_READ. Each gives the next state written out, for every state and
operands that meet the hypotheses; values the spec leaves open and the conventions of the log are the model's.
(chapter 12, Fabric Ordering, R405, R409, R416, R418, R420) -/
def Obligations.OrderCommands : Prop :=
  (∀ (s : State) (id : Nat) (e : TrayEnt), (.acceptanceIndexRecord id : Instr).wf = true → s.dev.trayEnt? id = some e → s.dev.halted = false → e.row = 3 ∨ e.row = 4 → e.due = false → e.movelive = false → s.dev.indexUsed e.orderSlice < 4096 → exec (.acceptanceIndexRecord id) s = .next (s.after (s.dev.trayOrder id (portSlice e.port)))) ∧
    (∀ (s : State) (src : Nat) (m : Msg) (rest : List Msg), (.trayHoldRelease src : Instr).wf = true → s.dev.halted = false → s.dev.core.held.contains src = true → s.dev.relOf src = m :: rest → s.dev.lineWait m = false → s.dev.postedWait m = false → exec (.trayHoldRelease src) s = .next (s.after ((s.dev.tryHead src m rest).settleClaims .none))) ∧
    (∀ (s : State) (src : Nat) (m : Msg) (rest : List Msg), (.streamingWrite src : Instr).wf = true → s.dev.halted = false → s.dev.relOf src = m :: rest → s.dev.headStreams src m = true → s.dev.core.held.contains src = true → exec (.streamingWrite src) s = .next (s.after ((s.dev.tryHead src m rest).settleClaims .none))) ∧
    (∀ (s : State) (src : Nat) (m : Msg) (rest : List Msg), (.streamingWrite src : Instr).wf = true → s.dev.halted = false → s.dev.relOf src = m :: rest → s.dev.headStreams src m = true → s.dev.core.held.contains src = false → exec (.streamingWrite src) s = .next (s.after ((s.dev.present src).settleClaims .none))) ∧
    (∀ (s : State) (sl : Nat) (line : Nat) (agent : Nat) (c : CmbEnt), (.cmbTimeout sl line agent : Instr).wf = true → s.dev.coh.cmb.find? (fun c => portSlice c.port = sl && lineKey c.tk c.line = line && c.agent = reqOfCode agent) = some c → exec (.cmbTimeout sl line agent) s = .next (s.after ((s.dev.inc TRY_CMB_TMO sl).flushCmb c))) ∧
    (∀ (s : State) (p : Nat) (fn : Nat), (.drainWrite p fn : Instr).wf = true → s.dev.halted = false → s.dev.fnExists p fn = true → exec (.drainWrite p fn) s = .next (s.after (s.dev.drainStart p))) ∧
    (∀ (s : State) (p : Nat) (fn : Nat), (.drainRead p fn : Instr).wf = true → s.dev.halted = false → s.dev.fnExists p fn = true → (s.dev.coh.drains.filter (·.port = p)).getLast? = none → exec (.drainRead p fn) s = .next (s.after (s.dev.emit (.fnRead (fnKey p fn) (s.dev.get DRAIN_DONE (p * 128)))))) ∧
    (∀ (s : State) (p : Nat) (fn : Nat) (x : Drain), (.drainRead p fn : Instr).wf = true → s.dev.halted = false → s.dev.fnExists p fn = true → (s.dev.coh.drains.filter (·.port = p)).getLast? = some x → exec (.drainRead p fn) s = .next (s.after ({ s.dev with coh := { s.dev.coh with drains := s.dev.coh.drains.map fun y => if y = x then { y with reads := y.reads ++ [fn] } else y } } : Dev)))

/-- Reads, writes, scrub, repair and failures of the Larder. Commands: LARDER_READ, LARDER_WRITE, SCRUB_READ, PPR_SOFT,
PPR_HARD, PPR_DONE, DIMM_THERMAL_READ, CHAN_FAIL, IO_DIE_FAULT, LARDER_TRAIN_DONE. Each gives the next state written
out, for every state and operands that meet the hypotheses; values the spec leaves open and the conventions of the log
are the model's. (chapter 13, The Larder, R443, R444, R445, R447, R449, R448, R451, R458, R24, R432) -/
def Obligations.LarderCommands : Prop :=
  (∀ (s : State) (c : Nat) (r : LdrReq), (.larderRead c : Instr).wf = true → s.dev.takeReq c false = some r → exec (.larderRead c) s = .next (s.after ((((s.dev.dropReq c r).count .ldr c 0x200).readLine c r.line).2.2.ldrAnswer r .tgtData (((s.dev.dropReq c r).count .ldr c 0x200).readLine c r.line).1 (((s.dev.dropReq c r).count .ldr c 0x200).readLine c r.line).2.1))) ∧
    (∀ (s : State) (c : Nat) (r : LdrReq), (.larderWrite c : Instr).wf = true → s.dev.takeReq c true = some r → ((s.dev.dropReq c r).count .ldr c 0x201).get LDR_CHSTAT_STATE c ≠ 4 → atomOp r.m.body.op = false → exec (.larderWrite c) s = .next (s.after ((((s.dev.dropReq c r).count .ldr c 0x201).writeLine c r.line r.be r.data r.poison).ldrAnswer r .tgtDone [] false))) ∧
    (∀ (s : State) (c : Nat) (r : LdrReq), (.larderWrite c : Instr).wf = true → s.dev.takeReq c true = some r → ((s.dev.dropReq c r).count .ldr c 0x201).get LDR_CHSTAT_STATE c = 4 → exec (.larderWrite c) s = .next (s.after (((s.dev.dropReq c r).count .ldr c 0x201).ldrAnswer r .tgtFail [] false))) ∧
    (∀ (s : State) (c : Nat), (.scrubRead c : Instr).wf = true → s.dev.on LDR_SCRUB_EN c = true → s.dev.get LDR_CHSTAT_STATE c = 2 → s.dev.localLines c ≠ 0 → exec (.scrubRead c) s = .next (s.after (s.dev.scrubLine c (SMap.get 0 s.dev.ldr.scrubPos c)))) ∧
    (∀ (s : State) (path : Nat) (c : Nat), (.pprSoft path c : Instr).wf = true → s.dev.Reaches path ⟨.ldr, c⟩ → (s.dev.put LDR_PPR_HARD c 0).on LDR_PPR_BUSY c = false → (s.dev.put LDR_PPR_HARD c 0).on LDR_PPR_HARD c = false → exec (.pprSoft path c) s = .next (s.after ((s.dev.put LDR_PPR_HARD c 0).startSoft c ((s.dev.put LDR_PPR_HARD c 0).pprKey c)))) ∧
    (∀ (s : State) (path : Nat) (c : Nat), (.pprHard path c : Instr).wf = true → s.dev.Reaches path ⟨.ldr, c⟩ → (s.dev.put LDR_PPR_HARD c 1).on LDR_PPR_BUSY c = false → (s.dev.put LDR_PPR_HARD c 1).on LDR_PPR_HARD c = true → exec (.pprHard path c) s = .next (s.after ((s.dev.put LDR_PPR_HARD c 1).pprRecord c))) ∧
    (∀ (s : State) (c : Nat) (res : Nat) (k : Nat), (.pprDone c res : Instr).wf = true → SMap.get none s.dev.ldr.repair c = some k → res = 1 → exec (.pprDone c res) s = .next (s.after ((({ s.dev with ldr := { s.dev.ldr with repair := SMap.set none s.dev.ldr.repair c none, rowCe := SMap.set 0 s.dev.ldr.rowCe (rowKey c k) 0, softRep := (s.dev.ldr.softRep ++ [rowKey c k]).dedup } } : Dev).put LDR_PPR_BUSY c 0).put LDR_PPR_RESULT c 1))) ∧
    (∀ (s : State) (c : Nat) (temp : Nat), (.dimmThermalRead c temp : Instr).wf = true → s.dev.chanServes c = true → exec (.dimmThermalRead c temp) s = .next (s.after (s.dev.thermal c temp))) ∧
    (∀ (s : State) (c : Nat) (cause : Nat), (.chanFail c cause : Instr).wf = true → s.dev.get LDR_CHSTAT_STATE c ≠ 0 → s.dev.get LDR_CHSTAT_STATE c ≠ 4 → s.dev.get LDR_CHSTAT_STATE c ≠ 5 → exec (.chanFail c cause) s = .next (s.after ((s.dev.put LDR_CHSTAT_STATE c 4).raise LDR_F_CHAN_FAIL c))) ∧
    (∀ (s : State) (die : Nat), (.ioDieFault die : Instr).wf = true → exec (.ioDieFault die) s = .next (s.after (((List.range 6).map fun i => 6 * die + i).foldl (fun d c => (if d.get LDR_CHSTAT_STATE c ≠ 0 && d.get LDR_CHSTAT_STATE c ≠ 5 then d.put LDR_CHSTAT_STATE c 4 else d).raise LDR_F_DIE c) s.dev))) ∧
    (∀ (s : State) (mods : List Module), (.larderTrainDone mods : Instr).wf = true → s.dev.rst.phase = .starting → s.dev.on DEV_READY_LARDER_READY = false → (mods.map (·.chan)).all (· < 12) = true → populationOk mods = true → mods.any (fun m => !m.trained) = false → exec (.larderTrainDone mods) s = .next (s.after (s.dev.larderUp mods)))

/-- Queue commands, doorbells, fetches and function resets. Commands: VF_ENABLE, VF_DISABLE, FUNCTION_FLR, QCMD_READ,
QCMD_WRITE, QCMD_ENABLE, QCMD_DISABLE, QCMD_RESET, HELD_RESET, DISABLING_DONE, DOORBELL, CONTEXT_FETCH,
DESCRIPTOR_FETCH. Each gives the next state written out, for every state and operands that meet the hypotheses; values
the spec leaves open and the conventions of the log are the model's. (chapter 14, The Data Mover, R463, R481, R464,
R467, R466, R482, R470, R465, R471) -/
def Obligations.QueueCommands : Prop :=
  (∀ (s : State) (u : Nat) (n : Nat), (.vfEnable u n : Instr).wf = true → s.dev.fnExists u 0 = true → SMap.get 0 s.dev.dmv.vfs u = 0 → n ≠ 0 → n ≤ s.dev.get DMV_EPCFG_TOTALVFS 0 u → exec (.vfEnable u n) s = .next (s.after ((List.range n).foldl (fun d i => d.allocFn u (i + 1)) ({ s.dev with dmv := { s.dev.dmv with vfs := SMap.set 0 s.dev.dmv.vfs u n } } : Dev)))) ∧
    (∀ (s : State) (u : Nat), (.vfDisable u : Instr).wf = true → s.dev.fnExists u 0 = true → exec (.vfDisable u) s = .next (s.after (s.dev.dropVfs u))) ∧
    (∀ (s : State) (u : Nat) (fn : Nat), (.functionFlr u fn : Instr).wf = true → s.dev.fnExists u fn = true → exec (.functionFlr u fn) s = .next (s.after (s.dev.flrFn u fn))) ∧
    (∀ (s : State) (u : Nat) (fn : Nat) (q : Nat), (.qcmdRead u fn : Instr).wf = true → s.dev.fnExists u fn = true → s.dev.selQueue u fn = some q → s.dev.cached q = true → exec (.qcmdRead u fn) s = .next (s.after (((List.range 6).foldl (fun d i => d.put FN_QCTX_DATA (fnKey u fn) (d.ctxW q i).toNat i) s.dev).qResult (fnKey u fn) 0))) ∧
    (∀ (s : State) (u : Nat) (fn : Nat) (q : Nat), (.qcmdWrite u fn : Instr).wf = true → s.dev.fnExists u fn = true → s.dev.selQueue u fn = some q → s.dev.cached q = true → s.dev.qState q ≠ qEnabled → exec (.qcmdWrite u fn) s = .next (s.after (((List.range 4).foldl (fun d i => d.setCtxW q i (BitVec.ofNat 64 (d.get FN_QCTX_DATA (fnKey u fn) i))) s.dev).qResult (fnKey u fn) 0))) ∧
    (∀ (s : State) (u : Nat) (fn : Nat) (q : Nat), (.qcmdEnable u fn : Instr).wf = true → s.dev.fnExists u fn = true → s.dev.selQueue u fn = some q → s.dev.cached q = true → s.dev.qState q = qDisabled → s.dev.hostHalfOk q = true → exec (.qcmdEnable u fn) s = .next (s.after (((((((s.dev.qPut q cHead 0).qPut q cTail 0).qPut q cCqTail 0).qPut q cCqHead 0).qPut q cPhase 1).setQState q qEnabled).qResult (fnKey u fn) 0))) ∧
    (∀ (s : State) (u : Nat) (fn : Nat) (q : Nat), (.qcmdDisable u fn : Instr).wf = true → s.dev.fnExists u fn = true → s.dev.selQueue u fn = some q → s.dev.cached q = true → s.dev.qState q = qEnabled → exec (.qcmdDisable u fn) s = .next (s.after ((s.dev.setQState q qDisabling).qResult (fnKey u fn) 0))) ∧
    (∀ (s : State) (u : Nat) (fn : Nat) (q : Nat), (.qcmdReset u fn : Instr).wf = true → s.dev.fnExists u fn = true → s.dev.selQueue u fn = some q → s.dev.cached q = true → s.dev.resetHeld q = false → exec (.qcmdReset u fn) s = .next (s.after ((s.dev.qReset q qDisabled false).qResult (fnKey u fn) 0))) ∧
    (∀ (s : State) (q : Nat), (.heldReset q : Instr).wf = true → (s.dev.queue q).heldReset = true → s.dev.resetHeld q = false → exec (.heldReset q) s = .next (s.after (s.dev.qReset q qDisabled false))) ∧
    (∀ (s : State) (q : Nat), (.disablingDone q : Instr).wf = true → s.dev.qState q = qDisabling → (s.dev.queue q).descs.any (·.started) = false → exec (.disablingDone q) s = .next (s.after ((s.dev.setQueue q { s.dev.queue q with descs := [] }).setQState q qDisabled))) ∧
    (∀ (s : State) (u : Nat) (fn : Nat) (off : Nat) (nbytes : Nat) (val : Nat), (.doorbell u fn off nbytes val : Instr).wf = true → s.dev.fnExists u fn = true → off % 64 = 0 → nbytes = 4 ∨ nbytes = 8 → off / 64 < (s.dev.fnBlock u fn).2 → exec (.doorbell u fn off nbytes val) s = .next (s.after ((s.dev.ctxFetch ((s.dev.fnBlock u fn).1 + off / 64)).ring_ ((s.dev.fnBlock u fn).1 + off / 64) val (nbytes = 8 && val / 2 ^ 48 % 2 = 1)))) ∧
    (∀ (s : State) (q : Nat), (.contextFetch q : Instr).wf = true → s.dev.halted = false → s.dev.cached q = true → exec (.contextFetch q) s = .next (s.after ({ s.dev with ldr := { s.dev.ldr with ctxLru := s.dev.ldr.ctxLru.filter (· ≠ q) ++ [q] } } : Dev))) ∧
    (∀ (s : State) (q : Nat) (d1 d2 d3 : Dev), (.contextFetch q : Instr).wf = true → s.dev.halted = false → s.dev.ldr.up = true → s.dev.on LDR_CARVE_CTX_EN = true → s.dev.cached q = false → s.dev.carveRead (s.dev.ctxBase + 128 * q) 4 = (false, d1) → d1.carveRead (s.dev.ctxBase + 128 * q + 64) 4 = (false, d2) → d2.injectAt .dmv (d2.qPage q) [DMV_F_CTX_UE.num] none = (none, d3) → d3.ldr.ctxLru.length < 65536 → exec (.contextFetch q) s = .next (s.after ({ d3 with ldr := { d3.ldr with ctxLru := d3.ldr.ctxLru ++ [q], ctx := SMap.set [] d3.ldr.ctx q ((List.range 16).map fun i => d3.lword (s.dev.ctxBase + 128 * q + 8 * i)) } } : Dev))) ∧
    (∀ (s : State) (q : Nat) (words : List W64) (ok : Bool), (.descriptorFetch q words ok : Instr).wf = true → s.dev.halted = false → s.dev.enabled ⟨.acu, s.dev.q q cVcs⟩ = true → s.dev.qState q = qEnabled → s.dev.cached q = true → s.dev.q q cHead ≠ s.dev.q q cTail → ((s.dev.queue q).descs.filter fun x => !x.started).length < 8 → ok = true → exec (.descriptorFetch q words ok) s = .next (s.after (s.dev.fetchDescs q words)))

/-- How each descriptor begins and what its records do. The steps of MOVE_LIVE. Commands: NOP, COPY, FILL, COMPARE, CRC,
ATOMIC8, ATOMIC16, BARRIER_LD, BARRIER_ST, BARRIER_FULL, INTERRUPT, BARRIER_COMPLETE, COMPLETION_RECORD,
SHARE_ENTRY_END, MOVE_LIVE, MOVE_LIVE_COPY_DONE, MOVE_LIVE_RECOPY_DONE, MOVE_LIVE_HOLD_READY, MOVE_LIVE_HOLD_TIMEOUT.
Each gives the next state written out, for every state and operands that meet the hypotheses; values the spec leaves
open and the conventions of the log are the model's. (chapter 14, The Data Mover, R475, R476, R427, R429, R478, R484,
R486, R487) -/
def Obligations.DescriptorCommands : Prop :=
  (∀ (s : State) (q : Nat) (e : Nat) (x : Desc), (.nop q : Instr).wf = true → s.dev.nextDesc q 0x00 = some (e, x) → x.malformed = none → exec (.nop q) s = .next (s.after (Dev.afterStart (({ x with started := true, eng := e }, (s.dev.takeEngine q e))) q))) ∧
    (∀ (s : State) (q : Nat) (e : Nat) (x : Desc), (.copy q : Instr).wf = true → s.dev.nextDesc q 0x01 = some (e, x) → x.malformed = none → exec (.copy q) s = .next (s.after (Dev.afterStart ((s.dev.takeEngine q e).checkedStart q { x with started := true, eng := e } [(.read, x.srcA, x.len), (.write, x.dstA, x.len)] fun x d => d.issueReads q x 0 x.srcA x.len) q))) ∧
    (∀ (s : State) (q : Nat) (e : Nat) (x : Desc), (.fill q : Instr).wf = true → s.dev.nextDesc q 0x02 = some (e, x) → x.malformed = none → exec (.fill q) s = .next (s.after (Dev.afterStart ((s.dev.takeEngine q e).checkedStart q { x with started := true, eng := e } [(.write, x.dstA, x.len)] fun x d => d.issueBytes q x x.dstA 0 (fillBytes x.dstA x.len (x.opA 8)) false) q))) ∧
    (∀ (s : State) (q : Nat) (e : Nat) (x : Desc), (.compare q : Instr).wf = true → s.dev.nextDesc q 0x03 = some (e, x) → x.malformed = none → exec (.compare q) s = .next (s.after (Dev.afterStart ((s.dev.takeEngine q e).checkedStart q { x with started := true, eng := e } [(.read, x.srcA, x.len), (.read, x.dstA, x.len)] fun x d => (d.issueReads q x 0 x.srcA x.len).2.issueReads q (d.issueReads q x 0 x.srcA x.len).1 1 x.dstA x.len) q))) ∧
    (∀ (s : State) (q : Nat) (e : Nat) (x : Desc), (.crc q : Instr).wf = true → s.dev.nextDesc q 0x04 = some (e, x) → x.malformed = none → exec (.crc q) s = .next (s.after (Dev.afterStart ((s.dev.takeEngine q e).checkedStart q { x with started := true, eng := e } [(.read, x.srcA, x.len)] fun x d => d.issueReads q x 0 x.srcA x.len) q))) ∧
    (∀ (s : State) (q : Nat) (e : Nat) (x : Desc), (.atomic8 q : Instr).wf = true → s.dev.nextDesc q 0x05 = some (e, x) → x.malformed = none → exec (.atomic8 q) s = .next (s.after (Dev.afterStart ((s.dev.takeEngine q e).checkedStart q { x with started := true, eng := e } [(.atomic, x.dstA, 8)] fun x d => d.issueAtom q x x.aop 8) q))) ∧
    (∀ (s : State) (q : Nat) (e : Nat) (x : Desc), (.atomic16 q : Instr).wf = true → s.dev.nextDesc q 0x06 = some (e, x) → x.malformed = none → exec (.atomic16 q) s = .next (s.after (Dev.afterStart ((s.dev.takeEngine q e).checkedStart q { x with started := true, eng := e } ((AccKind.atomic, x.dstA, 16) :: (if x.srcA = 0 then [] else [(AccKind.write, x.srcA, 16)])) fun x d => d.issueAtom q x 2 16) q))) ∧
    (∀ (s : State) (q : Nat) (e : Nat) (x : Desc), (.barrierLd q : Instr).wf = true → s.dev.nextDesc q 0x08 = some (e, x) → x.malformed = none → exec (.barrierLd q) s = .next (s.after (Dev.afterStart (({ x with started := true, eng := e }, (s.dev.takeEngine q e))) q))) ∧
    (∀ (s : State) (q : Nat) (e : Nat) (x : Desc), (.barrierSt q : Instr).wf = true → s.dev.nextDesc q 0x09 = some (e, x) → x.malformed = none → exec (.barrierSt q) s = .next (s.after (Dev.afterStart (({ x with started := true, eng := e }, (s.dev.takeEngine q e).flushAgent (.queue q))) q))) ∧
    (∀ (s : State) (q : Nat) (e : Nat) (x : Desc), (.barrierFull q : Instr).wf = true → s.dev.nextDesc q 0x0A = some (e, x) → x.malformed = none → exec (.barrierFull q) s = .next (s.after (Dev.afterStart (({ x with started := true, eng := e }, (s.dev.takeEngine q e).flushAgent (.queue q))) q))) ∧
    (∀ (s : State) (q : Nat) (e : Nat) (x : Desc), (.interrupt q : Instr).wf = true → s.dev.nextDesc q 0x0B = some (e, x) → x.malformed = none → exec (.interrupt q) s = .next (s.after (Dev.afterStart (({ x with started := true, eng := e }, (s.dev.takeEngine q e))) q))) ∧
    (∀ (s : State) (q : Nat) (b : Desc), (.barrierComplete q : Instr).wf = true → (s.dev.queue q).descs.find? openBarrier = some b → s.dev.halted = false → s.dev.barrierMet q b = true → exec (.barrierComplete q) s = .next (s.after (s.dev.barrierEnd q b))) ∧
    (∀ (s : State) (q : Nat) (ok : Bool) (x : Desc) (rest : List Desc) (d2 : Dev), (.completionRecord q ok : Instr).wf = true → (s.dev.queue q).descs = x :: rest → s.dev.halted = false → s.dev.enabled ⟨.acu, s.dev.q q cVcs⟩ = true → x.ended = true → s.dev.cplSlot q 0 = true → x.recordDue = true → ok = true → (((s.dev.setQueue q { s.dev.queue q with descs := rest }).count .dmv x.eng 0x200).count .dmv x.eng 0x201 x.moved).writeRecord q ((((s.dev.setQueue q { s.dev.queue q with descs := rest }).count .dmv x.eng 0x200).count .dmv x.eng 0x201 x.moved).record q x) = (true, d2) → exec (.completionRecord q ok) s = .next (s.after ((d2.recordWritten q).descIrq q x))) ∧
    (∀ (s : State) (e : Nat) (i : Nat), (.shareEntryEnd e : Instr).wf = true → (s.dev.put (PGEPOCH_APPLIED .dmv) e 1).nextShare e = some i → (s.dev.put (PGEPOCH_APPLIED .dmv) e 1).sealed (e / 4) = true → exec (.shareEntryEnd e) s = .next (s.after (({ s.dev.put (PGEPOCH_APPLIED .dmv) e 1 with dmv := { s.dev.dmv with share := SMap.set 0 s.dev.dmv.share e i } } : Dev).put DMV_ESTAT_SHARE e i))) ∧
    (∀ (s : State) (q : Nat) (e m : Nat) (x : Desc), (.moveLive q : Instr).wf = true → s.dev.nextDesc q 0x07 = some (e, x) → x.malformed = none → (s.dev.takeEngine q e).q q cPriv = 1 → ((List.range 64).find? fun m => ((s.dev.takeEngine q e).migr? m).isNone) = some m → (s.dev.takeEngine q e).moveOk ((s.dev.takeEngine q e).q q cVcs) (x.srcA % 32) (x.dstA / 2 ^ 32 % 128) (x.dstA % 2 ^ 24) = true → exec (.moveLive q) s = .next (s.after (Dev.afterStart ((s.dev.takeEngine q e).moveBegin q m { x with started := true, eng := e }) q))) ∧
    (∀ (s : State) (m : Nat) (g g2 : Migr) (d2 : Dev), (.moveLiveCopyDone m : Instr).wf = true → s.dev.migr? m = some g → s.dev.halted = false → s.dev.mlPhase m = 1 → s.dev.migrCopy m g (List.range (s.dev.migrGranules g)) = (some g2, d2) → exec (.moveLiveCopyDone m) s = .next (s.after (d2.put DMV_MLSTAT_PHASE 0 2 m))) ∧
    (∀ (s : State) (m : Nat) (g g2 : Migr) (d2 : Dev), (.moveLiveRecopyDone m : Instr).wf = true → s.dev.migr? m = some g → s.dev.halted = false → s.dev.mlPhase m = 2 → ((s.dev.setMigr m (some { g with dirty := [] })).put DMV_MLSTAT_DIRTY 0 0 m).migrCopy m { g with dirty := [] } g.dirty.mergeSort = (some g2, d2) → g2.dirty.length ≤ g2.gran → (d2.put DMV_MLSTAT_PASS 0 (d2.get DMV_MLSTAT_PASS 0 m + 1) m).on (PGEPOCH_APPLIED .dec) (g2.vcs / 8) = true → exec (.moveLiveRecopyDone m) s = .next (s.after ((d2.put DMV_MLSTAT_PASS 0 (d2.get DMV_MLSTAT_PASS 0 m + 1) m).put DMV_MLSTAT_PHASE 0 3 m))) ∧
    (∀ (s : State) (m : Nat) (g g2 : Migr) (d2 : Dev), (.moveLiveHoldReady m : Instr).wf = true → s.dev.migr? m = some g → s.dev.halted = false → s.dev.mlPhase m = 3 → s.dev.holdWaits g.vcs g.entry = false → s.dev.migrCopy m g g.dirty.mergeSort = (some g2, d2) → exec (.moveLiveHoldReady m) s = .next (s.after (((((d2.setMigr m none).mlIdle m).swapEntry g2).releaseHeld g2.vcs g2.entry true).endMoveDesc g2 (if g2.poison then stPoison else stOk)))) ∧
    (∀ (s : State) (m : Nat) (g : Migr), (.moveLiveHoldTimeout m : Instr).wf = true → s.dev.migr? m = some g → s.dev.halted = false → s.dev.mlPhase m = 3 → s.dev.get DMV_MLSTAT_TRY 0 m + 1 < g.tries → exec (.moveLiveHoldTimeout m) s = .next (s.after (((s.dev.put DMV_MLSTAT_TRY 0 (s.dev.get DMV_MLSTAT_TRY 0 m + 1) m).put DMV_MLSTAT_PHASE 0 2 m).releaseHeld g.vcs g.entry false)))

/-- The moves of the slot power states. Commands: PRSNT_ASSERT, PRSNT_DEASSERT, VIN_WINDOW, INSERTION_TIMER, RAMP_ENTRY,
RAMP_DONE, RAMP_TIMEOUT, FAST_TRIP, OV, OC, VIN_LOW, COOL_DONE, FET_FAIL, RETRY_COUNT_RESET, SPU_ON, SPU_OFF,
CLEAR_FET. Each gives the next state written out, for every state and operands that meet the hypotheses; values the
spec leaves open and the conventions of the log are the model's. (chapter 16, Slot Power and Proof of Hold-Up, R521,
R529, R522, R523, R520, R525, R526, R524, R527, R528, R530) -/
def Obligations.SlotCommands : Prop :=
  (∀ (s : State) (n : Nat), (.prsntAssert n : Instr).wf = true → s.dev.powerDie = true → s.dev.on SPU_STAT_PRSNT n = false → exec (.prsntAssert n) s = .next (s.after ((s.dev.prsntNow n true).slotGo n))) ∧
    (∀ (s : State) (n : Nat), (.prsntDeassert n : Instr).wf = true → s.dev.powerDie = true → s.dev.on SPU_STAT_PRSNT n = true → exec (.prsntDeassert n) s = .next (s.after (((s.dev.prsntNow n false).put SPU_STAT_RETRY_CNT n 0).slotOff n ssOff))) ∧
    (∀ (s : State) (n : Nat) (vin : Nat), (.vinWindow n vin : Instr).wf = true → s.dev.powerDie = true → (s.dev.put SPU_MEAS_VIN n vin).vinOk n vin = false → (s.dev.put SPU_MEAS_VIN n vin).on SPU_STAT_PRSNT n = true → exec (.vinWindow n vin) s = .next (s.after (((s.dev.put SPU_MEAS_VIN n vin).setSlot n { (s.dev.put SPU_MEAS_VIN n vin).slot n with insDone := false }).raise SPU_F_VIN_WINDOW n))) ∧
    (∀ (s : State) (n : Nat), (.insertionTimer n : Instr).wf = true → s.dev.powerDie = true → s.dev.on SPU_STAT_PRSNT n = true → exec (.insertionTimer n) s = .next (s.after (s.dev.setSlot n { s.dev.slot n with insDone := true }))) ∧
    (∀ (s : State) (n : Nat), (.rampEntry n : Instr).wf = true → s.dev.powerDie = true → s.dev.rampEligible n = true → ((List.range 32).filter fun k => s.dev.slotState k = ssRamp).length + ((List.range n).filter fun k => s.dev.rampEligible k).length < 4 → exec (.rampEntry n) s = .next (s.after ((s.dev.put SPU_STAT_STATE n ssRamp).emit (.gate n true)))) ∧
    (∀ (s : State) (n : Nat) (vin : Nat) (vout : Nat), (.rampDone n vin vout : Instr).wf = true → s.dev.powerDie = true → ((s.dev.put SPU_MEAS_VIN n vin).put SPU_MEAS_VOUT n vout).slotState n = ssRamp → 9 * vin ≤ 10 * vout → exec (.rampDone n vin vout) s = .next (s.after (((((s.dev.put SPU_MEAS_VIN n vin).put SPU_MEAS_VOUT n vout).put SPU_STAT_STATE n ssOn).put SPU_STAT_PG n 1).perstGo))) ∧
    (∀ (s : State) (n : Nat), (.rampTimeout n : Instr).wf = true → s.dev.powerDie = true → s.dev.slotState n = ssRamp → exec (.rampTimeout n) s = .next (s.after (s.dev.slotTrip n 4 SPU_F_RAMP_FAULT))) ∧
    (∀ (s : State) (n : Nat) (iout : Nat), (.fastTrip n iout : Instr).wf = true → s.dev.powerDie = true → (s.dev.put SPU_MEAS_IOUT n iout).gateOn n = true → 5 * (s.dev.put SPU_MEAS_IOUT n iout).ilimMa n < 2 * iout → exec (.fastTrip n iout) s = .next (s.after ((s.dev.put SPU_MEAS_IOUT n iout).slotTrip n 3 SPU_F_FAST_TRIP))) ∧
    (∀ (s : State) (n : Nat) (vin : Nat), (.ovTrip n vin : Instr).wf = true → s.dev.powerDie = true → (s.dev.put SPU_MEAS_VIN n vin).gateOn n = true → (s.dev.put SPU_MEAS_VIN n vin).get SPU_VIN_OV n < vin → exec (.ovTrip n vin) s = .next (s.after ((s.dev.put SPU_MEAS_VIN n vin).slotTrip n 1 SPU_F_OV))) ∧
    (∀ (s : State) (n : Nat), (.ocTrip n : Instr).wf = true → s.dev.powerDie = true → s.dev.slotState n = ssOn → exec (.ocTrip n) s = .next (s.after ((s.dev.put SPU_MEAS_IOUT n (s.dev.limitMa n)).slotTrip n 2 SPU_F_OC))) ∧
    (∀ (s : State) (n : Nat) (vin : Nat), (.vinLow n vin : Instr).wf = true → s.dev.powerDie = true → (s.dev.put SPU_MEAS_VIN n vin).slotState n = ssOn → vin < (s.dev.put SPU_MEAS_VIN n vin).get SPU_VIN_UV n → (s.dev.put SPU_MEAS_VIN n vin).flushing = false → exec (.vinLow n vin) s = .next (s.after ((s.dev.put SPU_MEAS_VIN n vin).raise SPU_F_VIN_LOW n))) ∧
    (∀ (s : State) (n : Nat), (.coolDone n : Instr).wf = true → s.dev.powerDie = true → (s.dev.slot n).coolEnd ≠ 0 → s.dev.slotState n = ssCool → exec (.coolDone n) s = .next (s.after (((s.dev.setSlot n { s.dev.slot n with coolEnd := 0 }).put SPU_STAT_STATE n ssWait).put SPU_STAT_RETRY_CNT n (s.dev.get SPU_STAT_RETRY_CNT n + 1)))) ∧
    (∀ (s : State) (n : Nat) (vout : Nat), (.fetFail n vout : Instr).wf = true → s.dev.powerDie = true → (s.dev.put SPU_MEAS_VOUT n vout).gateOn n = false → 1000 < vout → (s.dev.put SPU_MEAS_VOUT n vout).on SPU_STAT_FET_FAIL n = false → exec (.fetFail n vout) s = .next (s.after (((((((s.dev.put SPU_MEAS_VOUT n vout).put SPU_STAT_FET_FAIL n 1).put SPU_STAT_EN_N n 1).put SPU_STAT_FAULT n 5).put SPU_STAT_STATE n ssLatched).raise SPU_F_FET_FAIL n).slotFault n))) ∧
    (∀ (s : State) (n : Nat), (.retryCountReset n : Instr).wf = true → s.dev.powerDie = true → s.dev.slotState n = ssOn → exec (.retryCountReset n) s = .next (s.after (s.dev.put SPU_STAT_RETRY_CNT n 0))) ∧
    (∀ (s : State) (path : Nat) (n : Nat), (.spuOn path n : Instr).wf = true → s.dev.Reaches path ⟨.spu, n⟩ → s.dev.powerDie = true → exec (.spuOn path n) s = .next (s.after (s.dev.slotOnNow n))) ∧
    (∀ (s : State) (path : Nat) (n : Nat), (.spuOff path n : Instr).wf = true → s.dev.Reaches path ⟨.spu, n⟩ → s.dev.powerDie = true → exec (.spuOff path n) s = .next (s.after ((s.dev.put SPU_STAT_CMD_ON n 0).slotOff n ssOff))) ∧
    (∀ (s : State) (path : Nat) (n : Nat) (vout : Nat), (.clearFet path n vout : Instr).wf = true → s.dev.Reaches path ⟨.spu, n⟩ → s.dev.powerDie = true → vout < 1000 → exec (.clearFet path n vout) s = .next (s.after (((s.dev.put SPU_STAT_FET_FAIL n 0).put SPU_STAT_EN_N n 0).slotGo n)))

/-- The hold-up measurement, the credit grants and the flush. Commands: MEASURE, MEASURE_PERIODIC, MEASURE_HOLD_READY,
MEASURE_SETTLED, MEASURE_LOAD_END, MEASURE_DONE, DMAX_RECOMPUTE, CREDIT_BLOCK_REQUEST, PWRFAIL, LOW_BANK,
FLUSH_WRITES_DONE, FLUSH_PHASE1_DONE, FLUSH_PHASE2_DONE, FLUSH_GPF_TIMEOUT. Each gives the next state written out, for
every state and operands that meet the hypotheses; values the spec leaves open and the conventions of the log are the
model's. (chapter 16, Slot Power and Proof of Hold-Up, R533, R534, R536, R537, R539, R542, R543) -/
def Obligations.ProofCommands : Prop :=
  (∀ (s : State) (path : Nat), (.measure path : Instr).wf = true → s.dev.Reaches path ⟨.prf, 0⟩ → s.dev.measReady = true → (s.dev.put PRF_STAT_STATE 0 2).on PRF_RESULT_VALID = true → exec (.measure path) s = .next (s.after ((({ s.dev.put PRF_STAT_STATE 0 2 with prf := { s.dev.prf with step := 1 } } : Dev).put PRF_ALLOW_TEST 0 1).dmaxUpdate))) ∧
    (∀ (s : State) (path : Nat), (.measure path : Instr).wf = true → s.dev.Reaches path ⟨.prf, 0⟩ → s.dev.measReady = true → (s.dev.put PRF_STAT_STATE 0 2).on PRF_RESULT_VALID = false → exec (.measure path) s = .next (s.after ({ s.dev.put PRF_STAT_STATE 0 2 with prf := { s.dev.prf with step := 2, huIso := true } } : Dev))) ∧
    (∀ (s : State), (.measurePeriodic : Instr).wf = true → s.dev.get PRF_CFG1_PERIOD ≠ 0 → s.dev.measReady = true → exec (.measurePeriodic) s = .next (s.after (s.dev.measBegin))) ∧
    (∀ (s : State), (.measureHoldReady : Instr).wf = true → s.dev.prf.step = 1 → s.dev.heldTotal ≤ 64 * s.dev.get PRF_ALLOW_DMAX → exec (.measureHoldReady) s = .next (s.after ({ s.dev with prf := { s.dev.prf with step := 2, huIso := true } } : Dev))) ∧
    (∀ (s : State) (v1 : Nat), (.measureSettled v1 : Instr).wf = true → s.dev.prf.step = 2 → exec (.measureSettled v1) s = .next (s.after ({ s.dev with prf := { s.dev.prf with step := 4, v1 := v1, huLoad := true } } : Dev))) ∧
    (∀ (s : State) (charge : Nat) (loadUs : Nat), (.measureLoadEnd charge loadUs : Instr).wf = true → s.dev.prf.step = 4 → exec (.measureLoadEnd charge loadUs) s = .next (s.after ({ s.dev with prf := { s.dev.prf with step := 5, charge := charge, loadUs := loadUs, huLoad := false } } : Dev))) ∧
    (∀ (s : State) (v2 : Nat), (.measureDone v2 : Instr).wf = true → s.dev.prf.step = 5 → s.dev.measFails v2 = true → exec (.measureDone v2) s = .next (s.after (((s.dev.put PRF_RESULT_VALID 0 0).measEnd).proofRaise PRF_F_MEAS_FAIL))) ∧
    (∀ (s : State) (v2 : Nat), (.measureDone v2 : Instr).wf = true → s.dev.prf.step = 5 → s.dev.measFails v2 = false → exec (.measureDone v2) s = .next (s.after ((((s.dev.putOpen PRF_RESULT_CAP 0 (s.dev.prf.charge * 1000 / (s.dev.prf.v1 - v2))).put PRF_RESULT_VALID 0 1).measGood).measEnd))) ∧
    (∀ (s : State) (vstart : Nat), (.dmaxRecompute vstart : Instr).wf = true → exec (.dmaxRecompute vstart) s = .next (s.after ((({ s.dev with prf := { s.dev.prf with vstart := vstart } } : Dev).put PRF_RESULT_VSTART 0 vstart).dmaxUpdate))) ∧
    (∀ (s : State) (sl : Nat) (scc : Bool), (.creditBlockRequest sl scc : Instr).wf = true → s.dev.on PRF_ALLOW_GATED = false → s.dev.granted < s.dev.get PRF_ALLOW_DMAX → s.dev.get PRF_CFG2_SLICE_MAX = 0 ∨ s.dev.sccB sl + s.dev.tryB sl < s.dev.get PRF_CFG2_SLICE_MAX → scc = true → 64 * (s.dev.sccB sl + 1) < 2 ^ 17 → exec (.creditBlockRequest sl scc) s = .next (s.after ((s.dev.setBlocks sl true (s.dev.sccB sl + 1)).put SCC_PERS_GATED sl 0))) ∧
    (∀ (s : State) (sl : Nat) (scc : Bool), (.creditBlockRequest sl scc : Instr).wf = true → s.dev.on PRF_ALLOW_GATED = false → s.dev.granted < s.dev.get PRF_ALLOW_DMAX → s.dev.get PRF_CFG2_SLICE_MAX = 0 ∨ s.dev.sccB sl + s.dev.tryB sl < s.dev.get PRF_CFG2_SLICE_MAX → scc = false → 64 * (s.dev.tryB sl + 1) < 2 ^ 17 → exec (.creditBlockRequest sl scc) s = .next (s.after (((s.dev.setBlocks sl false (s.dev.tryB sl + 1)).put TRY_PERS_GATED sl 0).traySettle sl (8 * sl)))) ∧
    (∀ (s : State), (.pwrfail : Instr).wf = true → s.dev.on CKR_INSTAT1_PWRFAIL = false → s.dev.rst.phase ≠ .starting → exec (.pwrfail) s = .next (s.after (((s.dev.put CKR_INSTAT1_PWRFAIL 0 1).put PRF_STAT_PWRFAIL 0 1).flushStart 1))) ∧
    (∀ (s : State) (vbank : Nat), (.lowBank vbank : Instr).wf = true → vbank < max (s.dev.get PRF_CFG0_VLOW) (s.dev.get PRF_CFG0_VMIN) → s.dev.rst.vddAux = true → exec (.lowBank vbank) s = .next (s.after ((s.dev.proofRaise PRF_F_LOW_BANK).flushStart 2))) ∧
    (∀ (s : State), (.flushWritesDone : Instr).wf = true → s.dev.prf.phase = 1 → s.dev.flushStep.flushQuiet = true → exec (.flushWritesDone) s = .next (s.after (s.dev.flushStep.flushLogged.flushGpf 1 s.dev.flushStep.flushLogged.memPorts))) ∧
    (∀ (s : State), (.flushPhase1Done : Instr).wf = true → s.dev.prf.phase = 2 → s.dev.prf.waitPorts.isEmpty = true → exec (.flushPhase1Done) s = .next (s.after ((({ s.dev with prf := { s.dev.prf with phase := 3 } } : Dev).flushGpf 2 s.dev.prf.gpfPorts).answerHosts 1 true))) ∧
    (∀ (s : State), (.flushPhase2Done : Instr).wf = true → s.dev.prf.phase = 3 → s.dev.prf.waitPorts.isEmpty = true → exec (.flushPhase2Done) s = .next (s.after (s.dev.huOkLow true))) ∧
    (∀ (s : State), (.flushGpfTimeout : Instr).wf = true → s.dev.prf.phase = 2 ∨ s.dev.prf.phase = 3 → s.dev.prf.phase = 2 ∨ s.dev.prf.waitPorts.isEmpty = false → exec (.flushGpfTimeout) s = .next (s.after (((s.dev.put PRF_LOG_GPF_MISS 0 1).proofRaise PRF_F_FLUSH_INCOMPLETE).huOkLow false)))

/-- Fuses, boot verification, bundles at boot, firmware restart and crash. SPDM, IDE key management and Dunrun key
exchange. Commands: FUSE_LOAD, BOOT_VERIFY, BOOT_BUNDLE, MANAGEMENT_COMPLEX_CRASH, FW_RESTART, TRNG_FAIL,
MEAS7_COMPUTE, SPDM_REQUEST, IDE_KM, DUNRUN_KEY_EXCHANGE, KEY_EXCHANGE_TIMEOUT, KEY_EXCHANGE_RESTART, KEY_USAGE_LIMIT.
Each gives the next state written out, for every state and operands that meet the hypotheses; values the spec leaves
open and the conventions of the log are the model's. (chapter 17, Octold, R555, R551, R559, R38, R554, R548, R564,
R563, R566, R567, R568) -/
def Obligations.BootAndSessionCommands : Prop :=
  (∀ (s : State) (ok : Bool) (arc : Nat) (krev : Nat) (cust : Option Bytes), (.fuseLoad ok arc krev cust : Instr).wf = true → s.dev.fuseReady = true → ok = true → exec (.fuseLoad ok arc krev cust) s = .next (s.after (s.dev.fusesIn { arc := arc, krev := krev, cust := cust }))) ∧
    (∀ (s : State) (ok : Bool) (arc : Nat) (krev : Nat) (cust : Option Bytes), (.fuseLoad ok arc krev cust : Instr).wf = true → s.dev.fuseReady = true → ok = false → exec (.fuseLoad ok arc krev cust) s = .next (s.after ((s.dev.put SEC_STAT_BOOT 0 3).raise SEC_F_FUSE_ERR 0))) ∧
    (∀ (s : State) (imgA : Option FlashImage) (imgB : Option FlashImage) (f : FlashImage), (.bootVerify imgA imgB : Instr).wf = true → s.dev.bootReady = true → (if firstBank imgA imgB = 0 then imgA else imgB) = some f → exec (.bootVerify imgA imgB) s = .next (s.after ((s.dev.imageErr (some f)).elim (s.dev.boot (firstBank imgA imgB) f) fun c => s.dev.bankFailed (firstBank imgA imgB) c (if 1 - firstBank imgA imgB = 0 then imgA else imgB)))) ∧
    (∀ (s : State) (bundle : Bytes), (.bootBundle bundle : Instr).wf = true → s.dev.rst.phase = .starting → s.dev.rst.kind = .cold → s.dev.on DEV_READY_FW_RUN = true → s.dev.sec.bootBundle = false → s.dev.on SEC_RESULT_BUSY = false → bundle.isEmpty = false → exec (.bootBundle bundle) s = .next (s.after (s.dev.bundleStart bundle true))) ∧
    (∀ (s : State), (.managementComplexCrash : Instr).wf = true → s.dev.on DEV_READY_FW_RUN = true → exec (.managementComplexCrash) s = .next (s.after ({ (s.dev.put DEV_READY_FW_RUN 0 0).put SEC_STAT_BOOT 0 0 with sec := { s.dev.sec with crashed := true } } : Dev))) ∧
    (∀ (s : State) (img : Option FlashImage) (f : FlashImage), (.fwRestart img : Instr).wf = true → s.dev.sec.crashed = true → img = some f → exec (.fwRestart img) s = .next (s.after ((((s.dev.raise MGT_F_FW_RESTART 0).pathReset 4).imageErr (some f)).elim (((s.dev.raise MGT_F_FW_RESTART 0).pathReset 4).fwRun (imageOf (s.dev.sec.image.getD {}).bank f)) fun c => ((s.dev.raise MGT_F_FW_RESTART 0).pathReset 4).bankBad c))) ∧
    (∀ (s : State), (.trngFail : Instr).wf = true → s.dev.entropy = true → exec (.trngFail) s = .next (s.after ((s.dev.put SEC_STAT_TRNG_OK 0 0).raise SEC_F_TRNG_FAIL 0))) ∧
    (∀ (s : State), (.meas7Compute : Instr).wf = true → exec (.meas7Compute) s = .next (s.after (s.dev.meas7))) ∧
    (∀ (s : State) (src : Nat) (req : Spdm), (.spdmRequest src req : Instr).wf = true → s.dev.on DEV_READY_FUSES_OK = true → src ≠ 0 ∨ s.dev.ctl.pfUp = true → s.dev.sec.bundle = none → exec (.spdmRequest src req) s = .next (s.after (s.dev.spdmServe src req))) ∧
    (∀ (s : State) (src : Nat) (req : Spdm), (.spdmRequest src req : Instr).wf = true → s.dev.on DEV_READY_FUSES_OK = true → src ≠ 0 ∨ s.dev.ctl.pfUp = true → s.dev.sec.bundle.isSome = true → exec (.spdmRequest src req) s = .next (s.after ({ s.dev with sec := { s.dev.sec with spdmWait := s.dev.sec.spdmWait ++ [(src, req)] } } : Dev))) ∧
    (∀ (s : State) (p : Nat) (good : Bool) (root : Bytes), (.ideKm p ⟨good, root⟩ : Instr).wf = true → s.dev.isUp p = true → s.dev.linkHas p = true → s.dev.on PRT_STAT_DL_ACTIVE p = true → good = true → exec (.ideKm p ⟨good, root⟩) s = .next (s.after (s.dev.ideKeys p))) ∧
    (∀ (s : State) (p : Nat) (good : Bool) (root : Bytes), (.ideKm p ⟨good, root⟩ : Instr).wf = true → s.dev.isDown p = true → s.dev.on PRT_CFG_IDE_REQ p = true → s.dev.entropy = true → s.dev.on PRT_STAT_DL_ACTIVE p = true → good = true → s.dev.trusted root = true → exec (.ideKm p ⟨good, root⟩) s = .next (s.after (s.dev.ideKeys p))) ∧
    (∀ (s : State) (p : Nat) (good : Bool) (root : Bytes), (.ideKm p ⟨good, root⟩ : Instr).wf = true → s.dev.isUp p = false → s.dev.isDown p = true → s.dev.on PRT_CFG_IDE_REQ p = true → s.dev.on PRT_STAT_DL_ACTIVE p = true → s.dev.entropy = true → good = false → exec (.ideKm p ⟨good, root⟩) s = .next (s.after (s.dev.raise SEC_F_PEER_FAIL 0))) ∧
    (∀ (s : State) (k : Nat), (.dunrunKeyExchange k : Instr).wf = true → (s.dev.kx k).abandoned = false → s.dev.lkState k = lkKeywait → s.dev.lowerEnd k = true → (s.dev.kx k).running = false → s.dev.entropy = true → exec (.dunrunKeyExchange k) s = .next (s.after ((s.dev.setKx k { running := true }).relaySend k))) ∧
    (∀ (s : State) (k : Nat), (.keyExchangeTimeout k : Instr).wf = true → (s.dev.kx k).running = true → exec (.keyExchangeTimeout k) s = .next (s.after ((s.dev.setKx k { abandoned := true }).raise SEC_F_KEY_FAIL 0))) ∧
    (∀ (s : State) (k : Nat), (.keyExchangeRestart k : Instr).wf = true → (s.dev.kx k).abandoned = true → s.dev.lowerEnd k = true → exec (.keyExchangeRestart k) s = .next (s.after ((s.dev.setKx k {}).kxStart k))) ∧
    (∀ (s : State) (k : Nat), (.keyUsageLimit k : Instr).wf = true → (s.dev.kx k).done = true → s.dev.on DRL_STAT_ENC k = true → s.dev.entropy = true → exec (.keyUsageLimit k) s = .next (s.after (s.dev.rekey k)))

/-- The commands of the SEC page. Commands: ADVANCE_ARC, DBG_CHALLENGE, DBG_UNLOCK, BUNDLE_APPLY, RCV_WRITE, RCV_BOOT,
RELAY_IN, RELAY_OUT_RELEASE, ANCHOR_SET, DRL_REKEY. Each gives the next state written out, for every state and
operands that meet the hypotheses; values the spec leaves open and the conventions of the log are the model's.
(chapter 17, Octold, R556, R569, R570, R559, R553, R567, R565, R568) -/
def Obligations.SecurityCommands : Prop :=
  (∀ (s : State) (path : Nat) (burned : Bool) (x : Image), (.advanceArc path burned : Instr).wf = true → s.dev.Reaches path ⟨.sec, 0⟩ → s.dev.on SEC_RESULT_BUSY = false → s.dev.sec.image = some x → s.dev.arc < x.svn → s.dev.on SEC_STAT_DBG = false → burned = true → exec (.advanceArc path burned) s = .next (s.after ((({ s.dev with sec := { s.dev.sec with fuses := some { (s.dev.sec.fuses.getD {}) with arc := min 64 x.svn } } } : Dev).put SEC_STAT_ARC 0 (min 64 x.svn)).secDone rcOk))) ∧
    (∀ (s : State) (path : Nat), (.dbgChallenge path : Instr).wf = true → s.dev.Reaches path ⟨.sec, 0⟩ → s.dev.on SEC_RESULT_BUSY = false → s.dev.entropy = true → exec (.dbgChallenge path) s = .next (s.after (s.dev.challengeNow))) ∧
    (∀ (s : State) (path : Nat) (c : Bytes), (.dbgUnlock path : Instr).wf = true → s.dev.Reaches path ⟨.sec, 0⟩ → s.dev.on SEC_RESULT_BUSY = false → s.dev.sec.challenge = some c → s.dev.custKey = none → exec (.dbgUnlock path) s = .next (s.after (if Config.brodevoOk c (sub s.dev.winBytes 0 96) = true then (({ s.dev with sec := { s.dev.sec with challenge := none } } : Dev).dbgOpen).secDone rcOk else ({ s.dev with sec := { s.dev.sec with challenge := none } } : Dev).secDone rcBadSig))) ∧
    (∀ (s : State) (path : Nat), (.bundleApply path : Instr).wf = true → s.dev.Reaches path ⟨.sec, 0⟩ → s.dev.on SEC_RESULT_BUSY = false → exec (.bundleApply path) s = .next (s.after (s.dev.winTake.bundleStart (s.dev.winTake.streamed (bundleLen (s.dev.winTake.streamed 64))) false))) ∧
    (∀ (s : State) (path : Nat) (bank : Nat), (.rcvWrite path bank : Instr).wf = true → s.dev.Reaches path ⟨.sec, 0⟩ → s.dev.on SEC_RESULT_BUSY = false → s.dev.get SEC_STAT_BOOT = 2 → bank < 2 → exec (.rcvWrite path bank) s = .next (s.after ((s.dev.emit (.flashWrite bank (s.dev.get SEC_WIN_CTL_OFFSET) s.dev.winBytes)).secDone rcOk))) ∧
    (∀ (s : State) (path : Nat) (bank : Nat) (img : Option FlashImage) (f : FlashImage), (.rcvBoot path bank img : Instr).wf = true → s.dev.Reaches path ⟨.sec, 0⟩ → s.dev.on SEC_RESULT_BUSY = false → s.dev.get SEC_STAT_BOOT = 2 → bank < 2 → img = some f → exec (.rcvBoot path bank img) s = .next (s.after ((s.dev.imageErr (some f)).elim ((s.dev.boot bank f).secDone rcOk) fun c => s.dev.secDone c))) ∧
    (∀ (s : State) (path : Nat) (k : Nat), (.relayIn path k : Instr).wf = true → s.dev.Reaches path ⟨.sec, 0⟩ → s.dev.on SEC_RESULT_BUSY = false → s.dev.entropy = true → s.dev.lkState k = lkKeywait → (s.dev.kx k).running = true ∨ s.dev.lowerEnd k = false → exec (.relayIn path k) s = .next (s.after ((s.dev.relayTake k).secDone rcOk))) ∧
    (∀ (s : State) (path : Nat), (.relayOutRelease path : Instr).wf = true → s.dev.Reaches path ⟨.sec, 0⟩ → exec (.relayOutRelease path) s = .next (s.after ((s.dev.put SEC_RELAY_OUT_V 0 0).relayNext))) ∧
    (∀ (s : State) (path : Nat) (i : Nat), (.anchorSet path i : Instr).wf = true → s.dev.Reaches path ⟨.sec, 0⟩ → s.dev.on SEC_RESULT_BUSY = false → i < 8 → s.dev.winBytes.length = 48 → exec (.anchorSet path i) s = .next (s.after (({ s.dev with sec := { s.dev.sec with anchors := SMap.set [] s.dev.sec.anchors i s.dev.winBytes } } : Dev).secDone rcOk))) ∧
    (∀ (s : State) (path : Nat) (k : Nat), (.drlRekey path k : Instr).wf = true → s.dev.Reaches path ⟨.sec, 0⟩ → s.dev.on SEC_RESULT_BUSY = false → k < 32 → (s.dev.kx k).done = true → s.dev.entropy = true → exec (.drlRekey path k) s = .next (s.after ((s.dev.rekey k).secDone rcOk)))

/-- Time setting, PTM and Crumb triggers and edges. Commands: TMB_SET, PTM_TIMER, PTM_REQUEST, PTM_RESPONSE, FIRE, CLRALL,
CRUMB_TIME_MATCH, CRUMB_LATCH. Each gives the next state written out, for every state and operands that meet the
hypotheses; values the spec leaves open and the conventions of the log are the model's. (chapter 20, Observability,
R628, R629, R630, R633, R631) -/
def Obligations.TimeAndCrumbCommands : Prop :=
  (∀ (s : State) (path : Nat) (v : Nat), (.tmbSet path v : Instr).wf = true → s.dev.Reaches path ⟨.tmb, 0⟩ → exec (.tmbSet path v) s = .next (s.after (s.dev.timeSet v))) ∧
    (∀ (s : State), (.ptmTimer : Instr).wf = true → s.dev.get TMB_CFG_ROLE = 3 → s.dev.halted = false → s.dev.obs.clk.ptmT1 = none → exec (.ptmTimer) s = .next (s.after (({ s.dev with obs := { s.dev.obs with clk := { s.dev.obs.clk with ptmT1 := some s.dev.fab, ptmMissed := 0 } } } : Dev).emit (.ptmReq (s.dev.get TMB_CFG_PTM_PORT))))) ∧
    (∀ (s : State) (p : Nat), (.ptmRequest p : Instr).wf = true → s.dev.isDown p = true → s.dev.on PRT_STAT_DL_ACTIVE p = true → s.dev.halted = false → exec (.ptmRequest p) s = .next (s.after (s.dev.emit (.ptmResp p (ticksNs s.dev.fab))))) ∧
    (∀ (s : State) (t2 : Nat) (t3 : Nat) (t4 : Nat) (t1 : Nat), (.ptmResponse t2 t3 t4 : Instr).wf = true → s.dev.obs.clk.ptmT1 = some t1 → s.dev.get TMB_CFG_ROLE = 3 → exec (.ptmResponse t2 t3 t4) s = .next (s.after (({ s.dev with obs := { s.dev.obs with clk := { s.dev.obs.clk with ptmT1 := none, ptmMissed := 0 } } } : Dev).servo (((t2 : Int) - t1 - ((t4 : Int) - t3)) / 2)))) ∧
    (∀ (s : State) (path : Nat), (.fire path : Instr).wf = true → s.dev.Reaches path ⟨.crb, 0⟩ → exec (.fire path) s = .next (s.after (s.dev.crumb 1))) ∧
    (∀ (s : State) (path : Nat), (.clrall path : Instr).wf = true → s.dev.Reaches path ⟨.crb, 0⟩ → exec (.clrall path) s = .next (s.after (s.dev.clrAll))) ∧
    (∀ (s : State) (d2 : Dev), (.crumbTimeMatch : Instr).wf = true → s.dev.on CRB_CFG_EN_TIME = true → (s.dev.put CRB_CFG_EN_TIME 0 0).addEdge (coreEdge (s.dev.get CRB_MATCH_TICKS)) 4 (s.dev.get DEV_FABRIC_DEVID) 0 none = (false, d2) → exec (.crumbTimeMatch) s = .next (s.after (d2))) ∧
    (∀ (s : State) (e : Edge) (rest : List Edge), (.crumbLatch : Instr).wf = true → s.dev.obs.crumb.edges = e :: rest → exec (.crumbLatch) s = .next (s.after ((s.dev.crumbRest rest).crumbTake e)))

/-- Rings, records and collector sweeps. Commands: CCL_SWEEP, CCL_SWEEP_DONE, TELEMETRY_RECORD, TLM_POP, TLM_RHEAD,
TLM_RING_ENABLE. Each gives the next state written out, for every state and operands that meet the hypotheses; values
the spec leaves open and the conventions of the log are the model's. (chapter 20, Observability, R638, R639, R644,
R647, R648) -/
def Obligations.TelemetryCommands : Prop :=
  (∀ (s : State), (.cclSweep : Instr).wf = true → s.dev.on CCL_CFG_EN = true → s.dev.obs.sweep = none → exec (.cclSweep) s = .next (s.after ({ s.dev with obs := { s.dev.obs with sweep := some { start := s.dev.fab, last := s.dev.fab, image := s.dev.collectImage, larder := s.dev.on CCL_CFG_LOC, base := s.dev.collectBase } } } : Dev))) ∧
    (∀ (s : State) (ok : Bool) (x : Sweep), (.cclSweepDone ok : Instr).wf = true → s.dev.obs.sweep = some x → ok = true → x.larder = true ∨ s.dev.ctl.busMaster = true → exec (.cclSweepDone ok) s = .next (s.after (s.dev.sweepEnd x))) ∧
    (∀ (s : State) (ok : Bool) (x : Sweep), (.cclSweepDone ok : Instr).wf = true → s.dev.obs.sweep = some x → ok = false → exec (.cclSweepDone ok) s = .next (s.after (({ s.dev with obs := { s.dev.obs with sweep := none } } : Dev).raise CCL_F_WRITE_FAIL 0))) ∧
    (∀ (s : State) (r : Nat) (src : Nat) (type_ : Nat) (payload : Bytes) (ok : Bool), (.telemetryRecord r src type_ payload ok : Instr).wf = true → s.dev.halted = false → exec (.telemetryRecord r src type_ payload ok) s = .next (s.after (s.dev.putRecord r (src % 65536) (type_ % 256) (payloadWords ((payload.length + 7) / 8) payload) ok))) ∧
    (∀ (s : State) (path : Nat), (.tlmPop path : Instr).wf = true → s.dev.pathOpen path = true → s.dev.notYet .tlm = false → exec (.tlmPop path) s = .next (s.after (s.dev.ringPop.2.emit (.readData path s.dev.ringPop.1.toNat)))) ∧
    (∀ (s : State) (path : Nat) (v : Nat), (.tlmRhead path v : Instr).wf = true → s.dev.Reaches path ⟨.tlm, 0⟩ → exec (.tlmRhead path v) s = .next (s.after (s.dev.ringHead (v % 2 ^ 25)))) ∧
    (∀ (s : State) (path : Nat), (.tlmRingEnable path : Instr).wf = true → s.dev.Reaches path ⟨.tlm, 0⟩ → exec (.tlmRingEnable path) s = .next (s.after (s.dev.ringCfg (setBits (s.dev.ring s.dev.selRing).cfg1 0 1 1))))

/-- Configuration requests, LD loss, removal and slot power control through a vPPB. The Fabric Manager API commands.
Commands: CONFIGURATION_REQUEST, MLD_LD_LOST, REMOVAL_NOTICE, VPPB_POWER_CONTROL, GET_VIRTUAL_CXL_SWITCH_INFO,
BIND_VPPB, UNBIND_VPPB, GENERATE_AER_EVENT, IDENTIFY_SWITCH_DEVICE, GET_PHYSICAL_PORT_STATE, PHYSICAL_PORT_CONTROL,
SEND_LD_CXL_IO_CONFIG_REQUEST, TUNNEL_MANAGEMENT_COMMAND. Each gives the next state written out, for every state and
operands that meet the hypotheses; values the spec leaves open and the conventions of the log are the model's.
(chapter 9, Address Decode, Binding and Hot Plug, R311, R334, R335, R337, R343) -/
def Obligations.BindingAndFabricManagerCommands : Prop :=
  (∀ (s : State) (vcs : Nat) (vppb : Nat) (below : Bool) (off : Nat) (write : Bool) (val : Nat), (.configurationRequest vcs vppb below off write val : Instr).wf = true → s.dev.vcsExists vcs = true → s.dev.carries vcs = true → s.dev.halted = false → below = false → off < 4096 → write = false → exec (.configurationRequest vcs vppb below off write val) s = .next (s.after (s.dev.cfgAnswer (cfgMsg s.dev.myId vcs vppb off false val) (some (s.dev.vppbRead vcs vppb (off / 4)).toNat)))) ∧
    (∀ (s : State) (vcs : Nat) (vppb : Nat) (below : Bool) (off : Nat) (write : Bool) (val : Nat), (.configurationRequest vcs vppb below off write val : Instr).wf = true → s.dev.vcsExists vcs = true → s.dev.carries vcs = true → s.dev.halted = false → below = false → off < 4096 → write = true → exec (.configurationRequest vcs vppb below off write val) s = .next (s.after ((s.dev.vppbWrite vcs vppb (off / 4) val).cfgAnswer (cfgMsg s.dev.myId vcs vppb off true val) (some 0)))) ∧
    (∀ (s : State) (vcs : Nat) (vppb : Nat) (below : Bool) (off : Nat) (write : Bool) (val : Nat), (.configurationRequest vcs vppb below off write val : Instr).wf = true → s.dev.vcsExists vcs = true → s.dev.carries vcs = true → s.dev.halted = false → below = true → off < 4096 → exec (.configurationRequest vcs vppb below off write val) s = .next (s.after (s.dev.cfgBelow (cfgMsg s.dev.myId vcs vppb off write val) vppb off write val))) ∧
    (∀ (s : State) (p : Nat) (ld : Nat), (.mldLdLost p ld : Instr).wf = true → s.dev.isDown p = true → s.dev.on PRT_STAT_DL_ACTIVE p = true → s.dev.on PRT_STAT_MLD p = true → (s.dev.lostTgts p).contains ⟨s.dev.myId, false, p, ld⟩ = true → s.dev.halted = false → exec (.mldLdLost p ld) s = .next (s.after (((s.dev.raise PRT_F_SURPRISE_DOWN p (s.dev.portWho p)).removeTargets [⟨s.dev.myId, false, p, ld⟩]).removalNotice p ld))) ∧
    (∀ (s : State) (dev : Nat) (p : Nat) (ld : Nat) (m : Msg), (.removalNotice dev p ld : Instr).wf = true → s.dev.halted = false → s.dev.firstOf 0 (removalHit dev p ld) = some m → ld < 16 → exec (.removalNotice dev p ld) s = .next (s.after ((s.dev.setArrived 0 2 ((s.dev.arrivedAt 0 2).erase m)).removeTargets [⟨dev, false, p, ld⟩]))) ∧
    (∀ (s : State) (dev : Nat) (p : Nat) (ld : Nat) (m : Msg), (.removalNotice dev p ld : Instr).wf = true → s.dev.halted = false → s.dev.firstOf 0 (removalHit dev p ld) = some m → 1024 ≤ ld → exec (.removalNotice dev p ld) s = .next (s.after ((s.dev.setArrived 0 2 ((s.dev.arrivedAt 0 2).erase m)).removeAgent (ld - 1024) false))) ∧
    (∀ (s : State) (u : Nat) (vppb : Nat) (on : Bool), (.vppbPowerControl u vppb on : Instr).wf = true → s.dev.vcsExists u = true → s.dev.carries u = true → s.dev.halted = false → (s.dev.bindNow u vppb).kind ≠ 0 → (s.dev.bindNow u vppb).slotV = true → exec (.vppbPowerControl u vppb on) s = .next (s.after (s.dev.vppbPower u vppb on))) ∧
    (∀ (s : State) (path : Nat) (vcs : Nat) (start : Nat) (limit : Nat), (.getVirtualCxlSwitchInfo path vcs start limit : Instr).wf = true → s.dev.FmOpen path → exec (.getVirtualCxlSwitchInfo path vcs start limit) s = .next (s.after (s.dev.fmOk (s.dev.vcsInfo vcs start limit)))) ∧
    (∀ (s : State) (path : Nat) (vcs : Nat) (vppb : Nat) (tgt : Nat) (ld : Nat), (.bindVppb path vcs vppb tgt ld : Instr).wf = true → s.dev.FmOpen path → s.dev.locked ⟨.dec, vcs / 8⟩ = false → exec (.bindVppb path vcs vppb tgt ld) s = .next (s.after (s.dev.fmApply vcs fun d => d.fmTab 0x03 vcs vppb 0 (bindWord d.myId tgt ld (d.tabS 0x03 vcs vppb 0))))) ∧
    (∀ (s : State) (path : Nat) (vcs : Nat) (vppb : Nat) (option : Nat), (.unbindVppb path vcs vppb option : Instr).wf = true → s.dev.FmOpen path → option ≤ 2 → s.dev.locked ⟨.dec, vcs / 8⟩ = false → exec (.unbindVppb path vcs vppb option) s = .next (s.after (s.dev.fmApply vcs fun d => (d.fmTab 0x03 vcs vppb 0 (setBits (setBits (d.tabS 0x03 vcs vppb 0) 0 2 0) 25 2 (if option = 2 then 1 else 0))).fmUnmap vcs vppb))) ∧
    (∀ (s : State) (path : Nat) (vcs : Nat) (vppb : Nat) (err : Nat), (.generateAerEvent path vcs vppb err : Instr).wf = true → s.dev.FmOpen path → s.dev.vcsExists vcs = true → exec (.generateAerEvent path vcs vppb err) s = .next (s.after ((s.dev.emit (.aer vcs vppb err)).fmOk []))) ∧
    (∀ (s : State) (path : Nat), (.identifySwitchDevice path : Instr).wf = true → s.dev.FmOpen path → exec (.identifySwitchDevice path) s = .next (s.after (s.dev.fmOk s.dev.switchReport))) ∧
    (∀ (s : State) (path : Nat) (ports : List Nat), (.getPhysicalPortState path ports : Instr).wf = true → s.dev.FmOpen path → ports.all (· < 128) = true → exec (.getPhysicalPortState path ports) s = .next (s.after (s.dev.fmOk (ports.flatMap s.dev.portReport)))) ∧
    (∀ (s : State) (path : Nat) (p : Nat) (op : Nat), (.physicalPortControl path p op : Instr).wf = true → s.dev.FmOpen path → op = 3 → s.dev.cxlPort p = true → [tsL0, tsL0p, tsL1].contains (s.dev.portState p) = true → exec (.physicalPortControl path p op) s = .next (s.after (((s.dev.marginPort p).setPortState p tsRecovery).fmOk []))) ∧
    (∀ (s : State) (path : Nat) (p : Nat) (ld : Nat) (off : Nat) (write : Bool) (val : Nat), (.sendLdCxlIoConfigRequest path p ld off write val : Instr).wf = true → s.dev.FmOpen path → 128 ≤ p → exec (.sendLdCxlIoConfigRequest path p ld off write val) s = .next (s.after ((s.dev.ldCfg ld off write val).2.fmOk (if write then [] else leBytes 4 (s.dev.ldCfg ld off write val).1)))) ∧
    (∀ (s : State) (path : Nat) (p : Nat) (ld : Nat) (off : Nat) (write : Bool) (val : Nat), (.sendLdCxlIoConfigRequest path p ld off write val : Instr).wf = true → s.dev.FmOpen path → p < 128 → s.dev.isDown p = true → s.dev.carries p = true → s.dev.halted = false → exec (.sendLdCxlIoConfigRequest path p ld off write val) s = .next (s.after ((s.dev.fwCfgOut p ld off write val).emit (.fmResp 1 [])))) ∧
    (∀ (s : State) (path : Nat) (p : Nat) (payload : Bytes), (.tunnelManagementCommand path p payload : Instr).wf = true → s.dev.FmOpen path → 128 ≤ p → exec (.tunnelManagementCommand path p payload) s = .next (s.after (s.dev.tunnelAnswer))) ∧
    (∀ (s : State) (path : Nat) (p : Nat) (payload : Bytes), (.tunnelManagementCommand path p payload : Instr).wf = true → s.dev.FmOpen path → p < 128 → s.dev.isDown p = true → s.dev.carries p = true → s.dev.on PRT_STAT_MLD p = true → s.dev.halted = false → exec (.tunnelManagementCommand path p payload) s = .next (s.after ((s.dev.tunnelOut p payload).tunnelAnswer)))

/-- Putting a value into a field makes that field read the value at its width; the fields of the same register that share
no bit with it, and the registers at other addresses, read as before, and nothing else of the device changes. (R11,
chapter 2, Control Space) -/
def Obligations.RegisterFieldReadsWhatWasPut : Prop :=
  ∀ (d : Dev) (f : Fld) (i v j : Nat), f.lo + f.width ≤ 64 →
    (d.put f i v j).get f i j = v % 2 ^ f.width ∧
    (∀ g : Fld, g.reg = f.reg → g.lo + g.width ≤ f.lo ∨ f.lo + f.width ≤ g.lo → (d.put f i v j).get g i j = d.get g i j) ∧
    (∀ (r : Reg) (k l : Nat), r.addr k l ≠ f.reg.addr i j → (d.put f i v j).word r k l = d.word r k l) ∧
    { d.put f i v j with regs := d.regs } = d

/-- Writing a run of bytes at an address makes each of those addresses read its byte and every other address read as
before, and keeps the canonical form of the memory. (R11, chapter 13, Larder) -/
def Obligations.LarderMemoryReadsWhatWasWritten : Prop :=
  ∀ (d : Dev) (a : Nat) (l : Bytes), SMap.wf (fun _ => (0 : Byte)) d.ldr.mem = true →
    (∀ i, (h : i < l.length) → (d.lwrite a l).lbyte (a + i) = l[i]) ∧
    (∀ x, x < a ∨ a + l.length ≤ x → (d.lwrite a l).lbyte x = d.lbyte x) ∧
    SMap.wf (fun _ => (0 : Byte)) (d.lwrite a l).ldr.mem = true

/-- Writing a line whose stored copy is not uncorrectable, or all of whose bytes are enabled, makes each enabled byte of
the line read its data byte and leaves every other byte of memory as it was. (chapter 13, Larder) -/
def Obligations.LineWriteStoresItsBytes : Prop :=
  ∀ (d : Dev) (c line be : Nat) (data : Bytes) (p : Bool) (x : Nat), d.ldr.ue.contains line = false ∨ be % 2 ^ 64 = 2 ^ 64 - 1 →
    (d.writeLine c line be data p).lbyte x =
      if line * 64 ≤ x ∧ x < line * 64 + 64 ∧ bit be (x - line * 64) = true then data.getD (x - line * 64) 0 else d.lbyte x

/-- When LARDER_WRITE takes a home slice's write that is no atomic, on a channel that has not failed, and the line's
stored copy is not uncorrectable or every byte is enabled, it gives a next state in which each enabled byte of the
line reads the request's byte and every other byte of the Larder reads as before. (chapter 13, Larder) -/
def Obligations.LarderWriteStoresItsBytes : Prop :=
  ∀ (s : State) (c : Nat) (r : LdrReq), (Instr.larderWrite c).wf = true → s.dev.takeReq c true = some r → r.m.home.isSome = true →
    s.dev.get LDR_CHSTAT_STATE c ≠ 4 → atomOp r.m.body.op = false →
    s.dev.ldr.ue.contains r.line = false ∨ r.be % 2 ^ 64 = 2 ^ 64 - 1 →
    ∃ t, exec (.larderWrite c) s = .next t ∧ t.pending = s.pending ∧ ∀ x, t.dev.lbyte x =
      if r.line * 64 ≤ x ∧ x < r.line * 64 + 64 ∧ bit r.be (x - r.line * 64) = true then r.data.getD (x - r.line * 64) 0 else s.dev.lbyte x

/-- When LARDER_READ takes a home slice's read of a line with no error, on a channel that has not failed, it gives a next
state in which every byte of the Larder reads as before and the home slice's arrived messages end with the answer: the
line's 64 bytes and its poison. (chapter 13, Larder) -/
def Obligations.LarderReadAnswersTheLine : Prop :=
  ∀ (s : State) (c : Nat) (r : LdrReq) (h : Nat), (Instr.larderRead c).wf = true → s.dev.takeReq c false = some r → r.m.home = some h →
    r.home = h → s.dev.get LDR_CHSTAT_STATE c ≠ 4 → s.dev.ldr.ue.contains r.line = false → s.dev.ldr.ce.contains r.line = false →
    ∃ t, exec (.larderRead c) s = .next t ∧ t.pending = s.pending ∧ (∀ x, t.dev.lbyte x = s.dev.lbyte x) ∧
      t.dev.arrivedAt h 0 = s.dev.arrivedAt h 0 ++ [{ r.m with poison := s.dev.ldr.poison.contains r.line, body := { r.m.body with op := .tgtData, data := s.dev.lread (r.line * 64) 64 } }]

/-- ACQUIRE with LEASE 1 or more on a lock not held sets HELD, records the path, the TAG and the lease, keeps BROKEN and
changes nothing else; on a held lock, or with LEASE 0, the state stays as it is. (R65) -/
def Obligations.AcquireTakesAFreeLock : Prop :=
  ∀ (s : State) (path i tag lease : Nat), (Instr.acquire path i tag lease).wf = true → s.dev.Reaches path ⟨.lck, 0⟩ →
    (1 ≤ lease → s.dev.on LCK_STAT_HELD 0 i = false →
      ∃ t, exec (.acquire path i tag lease) s = .next t ∧ t.dev.on LCK_STAT_HELD 0 i = true ∧ t.dev.get LCK_STAT_PATH 0 i = path ∧
        t.dev.get LCK_STAT_TAG 0 i = tag ∧ SMap.get 0 t.dev.ctl.leaseEnd i = s.dev.now + lease * tMs ∧
        t.dev.get LCK_STAT_BROKEN 0 i = s.dev.get LCK_STAT_BROKEN 0 i ∧
        (∀ r k l, r.addr k l ≠ LCK_STAT.addr 0 i → t.dev.word r k l = s.dev.word r k l) ∧
        (∀ j, j ≠ i → SMap.get 0 t.dev.ctl.leaseEnd j = SMap.get 0 s.dev.ctl.leaseEnd j) ∧
        { t with dev := { t.dev with regs := s.dev.regs, ctl := { t.dev.ctl with leaseEnd := s.dev.ctl.leaseEnd } } } = s.after s.dev) ∧
    (lease = 0 ∨ s.dev.on LCK_STAT_HELD 0 i = true → exec (.acquire path i tag lease) s = .next (s.after s.dev))

/-- From the holder's path with its TAG, RENEW restarts the lease, RELEASE frees the lock with BROKEN clear, CLR_BROKEN
clears BROKEN, and nothing else changes; from any other writer each only raises NOT_OWNER. (R66) -/
def Obligations.LockHolderCommands : Prop :=
  ∀ (s : State) (path i tag : Nat), s.dev.Reaches path ⟨.lck, 0⟩ →
    (s.dev.lockMine path i tag = true →
      (∀ lease, (Instr.renew path i tag lease).wf = true → 1 ≤ lease → ∃ t, exec (.renew path i tag lease) s = .next t ∧
        SMap.get 0 t.dev.ctl.leaseEnd i = s.dev.now + lease * tMs ∧ t.dev.word LCK_STAT 0 i = s.dev.word LCK_STAT 0 i ∧ (∀ r k l, r.addr k l ≠ LCK_STAT.addr 0 i → t.dev.word r k l = s.dev.word r k l) ∧
        (∀ j, j ≠ i → SMap.get 0 t.dev.ctl.leaseEnd j = SMap.get 0 s.dev.ctl.leaseEnd j) ∧
        { t with dev := { t.dev with regs := s.dev.regs, ctl := { t.dev.ctl with leaseEnd := s.dev.ctl.leaseEnd } } } = s.after s.dev) ∧
      ((Instr.release path i tag).wf = true → ∃ t, exec (.release path i tag) s = .next t ∧ t.dev.on LCK_STAT_HELD 0 i = false ∧
        t.dev.on LCK_STAT_BROKEN 0 i = false ∧ (∀ r k l, r.addr k l ≠ LCK_STAT.addr 0 i → t.dev.word r k l = s.dev.word r k l) ∧
        (∀ j, j ≠ i → SMap.get 0 t.dev.ctl.leaseEnd j = SMap.get 0 s.dev.ctl.leaseEnd j) ∧
        { t with dev := { t.dev with regs := s.dev.regs, ctl := { t.dev.ctl with leaseEnd := s.dev.ctl.leaseEnd } } } = s.after s.dev) ∧
      ((Instr.clrBroken path i tag).wf = true → ∃ t, exec (.clrBroken path i tag) s = .next t ∧ t.dev.on LCK_STAT_BROKEN 0 i = false ∧
        t.dev.on LCK_STAT_HELD 0 i = true ∧ t.dev.ctl.leaseEnd = s.dev.ctl.leaseEnd ∧ (∀ r k l, r.addr k l ≠ LCK_STAT.addr 0 i → t.dev.word r k l = s.dev.word r k l) ∧
        (∀ j, j ≠ i → SMap.get 0 t.dev.ctl.leaseEnd j = SMap.get 0 s.dev.ctl.leaseEnd j) ∧
        { t with dev := { t.dev with regs := s.dev.regs, ctl := { t.dev.ctl with leaseEnd := s.dev.ctl.leaseEnd } } } = s.after s.dev)) ∧
    (s.dev.lockMine path i tag = false →
      (∀ lease, (Instr.renew path i tag lease).wf = true → exec (.renew path i tag lease) s = .next (s.after (s.dev.raise LCK_F_NOT_OWNER 0))) ∧
      ((Instr.release path i tag).wf = true → exec (.release path i tag) s = .next (s.after (s.dev.raise LCK_F_NOT_OWNER 0))) ∧
      ((Instr.clrBroken path i tag).wf = true → exec (.clrBroken path i tag) s = .next (s.after (s.dev.raise LCK_F_NOT_OWNER 0))))

/-- On an unlocked page of a link whose ENABLE is 0, DRL_ATTACH with VALID 1 makes the link's attachment read VALID 1 and
the octet, unless another link is bound to the octet, when only CONFLICT sets; while the link's ENABLE is 1 the state
stays as it is. No register but DRL_ATTACH of the link changes, and no other link. (R154) -/
def Obligations.DrlAttachBindsALinkToAnOctet : Prop :=
  ∀ (s : State) (path k oct : Nat), (Instr.drlAttach path k oct true).wf = true → s.dev.Reaches path ⟨.drl, k⟩ →
    (s.dev.on (PGCTL_ENABLE .drl) k = true → exec (.drlAttach path k oct true) s = .next (s.after s.dev)) ∧
    (s.dev.on (PGCTL_ENABLE .drl) k = false → s.dev.locked ⟨.drl, k⟩ = false → ∃ t, exec (.drlAttach path k oct true) s = .next t ∧
      ((∃ j, j < 32 ∧ j ≠ k ∧ s.dev.on DRL_ATTACH_VALID j = true ∧ s.dev.get DRL_ATTACH_OCTET j = oct) →
        t.dev.on DRL_ATTACH_CONFLICT k = true ∧ t.dev.get DRL_ATTACH_OCTET k = s.dev.get DRL_ATTACH_OCTET k ∧
          t.dev.get DRL_ATTACH_VALID k = s.dev.get DRL_ATTACH_VALID k) ∧
      ((∀ j, j < 32 → j ≠ k → s.dev.on DRL_ATTACH_VALID j = true → s.dev.get DRL_ATTACH_OCTET j ≠ oct) →
        t.dev.on DRL_ATTACH_VALID k = true ∧ t.dev.get DRL_ATTACH_OCTET k = oct) ∧
      (∀ r i j, r.addr i j ≠ DRL_ATTACH.addr k 0 → t.dev.word r i j = s.dev.word r i j) ∧ (∀ j, j ≠ k → t.dev.link j = s.dev.link j) ∧
      { t with dev := { t.dev with regs := s.dev.regs, links := s.dev.links } } = s.after s.dev)

/-- An aligned 32-bit or 64-bit access of an open path to an offset of an implemented page below 0x800 that holds no
register: the read answers 0 and changes nothing else, the write leaves the state as it is; neither raises an error.
(R46) -/
def Obligations.OffsetWithoutRegister : Prop :=
  ∀ (s : State) (path addr nbytes : Nat) (g : Pg), s.dev.pathOpen path = true → s.dev.reachAt addr nbytes = .inr g → addr % 4096 < 0x800 →
    g.regAt (addr % 4096 / 8 * 8) = none →
    ((Instr.refusedRead path addr nbytes).wf = true → exec (.refusedRead path addr nbytes) s = .next (s.after (s.dev.emit (.readData path 0)))) ∧
    (∀ val, (Instr.registerWrite path addr nbytes val).wf = true → exec (.registerWrite path addr nbytes val) s = .next (s.after s.dev))

/-- On a page of an unavailable instance whose ENABLE is 0, a write of ENABLE 1 leaves the state as it is, and PGSTAT
reads AVAIL 0. (R43) -/
def Obligations.UnavailablePageStaysDisabled : Prop :=
  ∀ (s : State) (path pg : Nat) (g : Pg), Pg.at? (pg * 4096) = some g → s.dev.Reaches path g → g.blk.alwaysOn = false → s.dev.avail g = false →
    ((Instr.enableSet path pg).wf = true → s.dev.on (PGCTL_ENABLE g.blk) g.inst = false → exec (.enableSet path pg) s = .next (s.after s.dev)) ∧
    (∀ x j, g.regAt 0x010 = some (x, j) → x.reg = PGSTAT g.blk → bits (s.dev.view x g.inst j) 3 1 = 0)

/-- An operation on an implemented table whose INST is out of range ends with ERR BAD_INST (2), one whose INDEX is out of
range with BAD_INDEX (3); while no commit is held the tables and their shadows stay as they are. (R62) -/
def Obligations.TableOperationOutOfRange : Prop :=
  ∀ (s : State) (w : Nat) (ue : Bool) (t : TblOp) (ti : TabInfo), (Instr.tblOpDone w ue).wf = true → SMap.get none s.dev.ctl.tblOps w = some t →
    t.op < 4 → tabInfo t.table = some ti → (t.table = 0x07 → s.dev.ldr.up = true ∧ s.dev.on LDR_CARVE_TAG_EN = true) →
    (t.table = 0x0D → s.dev.ldr.up = true) → ti.insts ≤ t.inst ∨ ti.entries ≤ t.index →
    exec (.tblOpDone w ue) s = .next (s.after (s.dev.tblEnd w (if ti.insts ≤ t.inst then 2 else 3))) ∧
    (s.dev.ctl.commits = [] → ∃ u, exec (.tblOpDone w ue) s = .next u ∧ u.dev.tabs = s.dev.tabs ∧ u.dev.tabSh = s.dev.tabSh ∧
      u.dev.ldr = s.dev.ldr ∧ u.dev.get TBL_STAT_ERR w = (if ti.insts ≤ t.inst then 2 else 3) ∧ u.dev.on TBL_STAT_BUSY w = false)

/-- The WRITE and CLEAR of a shadowed table change no active table word, no register but an armed FLT_INJECT that the
write takes (R617), and no Larder byte; a word of the shadow copy at another key reads as before. (R61, R617) -/
def Obligations.ShadowedTableWriteLeavesActiveCopy : Prop :=
  ∀ (d : Dev) (w : Nat) (t : TblOp) (ti : TabInfo), tabInfo t.table = some ti → ti.shadowed = true → t.op ≠ 1 →
    (d.tblDo w t).tabs = d.tabs ∧ (d.tblDo w t).ldr = d.ldr ∧
    (∀ r k l, (∀ b i, r.addr k l ≠ (FLT_INJECT b).addr i 0) → (d.tblDo w t).word r k l = d.word r k l) ∧
    (∀ k f, (∀ i, i < ti.words → k ≠ tkey t.table t.inst t.index i) → SMap.get f (d.tblDo w t).tabSh k = SMap.get f d.tabSh k)

/-- The home slice of a line is the XOR of the twelve 4-bit groups of H and the three of TK, the directory set is the XOR
of the 14-bit groups of H with TK, and the slice-cache set is the directory set modulo 4,096. (R348) -/
def Obligations.HomeSliceIsAnXorOfGroups : Prop :=
  ∀ tk h : Nat, tk < 2 ^ 12 → h < 2 ^ 46 →
    homeSlice tk h = (List.range 3).foldl (fun x i => x ^^^ tk / 16 ^ i % 16) ((List.range 12).foldl (fun x i => x ^^^ h / 16 ^ i % 16) 0) ∧
    dirSet tk h = (List.range 4).foldl (fun x i => x ^^^ h / 16384 ^ i % 16384) 0 ^^^ tk ∧
    sccSet tk h = dirSet tk h % 4096 ∧ homeSlice tk h < 16 ∧ dirSet tk h < 16384

/-- Two lines of one target whose numbers differ only in their low four bits have different home slices. (R348) -/
def Obligations.LinesOfOneGroupLieInDifferentSlices : Prop :=
  ∀ tk h a b : Nat, a < 16 → b < 16 → a ≠ b → homeSlice tk (16 * h + a) ≠ homeSlice tk (16 * h + b)

/-- For every address of an entry's range the way it decodes to is one of the entry's, its DPA lies in the target's range
when the entry's size divides into whole granules a way, and reverse decode of that way and DPA gives the address
back. (R320, R323) -/
def Obligations.DecodeAndReverseDecodeAgree : Prop :=
  ∀ (x : Hdm) (a : Nat), x.lo ≤ a → a < x.lo + x.bytes → x.bytes % (x.gran * x.ways) = 0 →
    (x.map a).1 < x.ways ∧ x.dpa * 2 ^ 28 ≤ (x.map a).2 ∧ (x.map a).2 < x.dpa * 2 ^ 28 + x.dpaBytes ∧ x.unmap (x.map a).1 (x.map a).2 = a

/-- Where one valid entry of a VCS holds the address and no other valid one does, decode gives that entry, its way's vPPB,
the target bound there and the DPA, and nothing where the vPPB is bound to none. (R320) -/
def Obligations.DecodeTakesTheMatchingEntry : Prop :=
  ∀ (d : Dev) (e u a i : Nat), i < 32 → (d.hdm e u i).v = true → (d.hdm e u i).lo ≤ a → a < (d.hdm e u i).lo + (d.hdm e u i).bytes →
    (∀ j, j < 32 → j ≠ i → (d.hdm e u j).v = true → a < (d.hdm e u j).lo ∨ (d.hdm e u j).lo + (d.hdm e u j).bytes ≤ a) →
    d.decode e u a = ((d.bind e u ((d.hdm e u i).tgts.getD ((d.hdm e u i).map a).1 0)).tgt).map
      fun t => ⟨i, d.hdm e u i, (d.hdm e u i).tgts.getD ((d.hdm e u i).map a).1 0, t, ((d.hdm e u i).map a).2⟩

/-- Adding to a page's counter makes it read the sum, or 2^48 − 1 where the sum reaches that, when SAT sets; SAT otherwise
keeps its value, and no other register changes. (R636) -/
def Obligations.CounterStopsAtItsTop : Prop :=
  ∀ (d : Dev) (b : Blk) (i c n : Nat),
    (d.cntAdd b i c n).get (CNT_COUNT b) i c = min (d.get (CNT_COUNT b) i c + n) (2 ^ 48 - 1) ∧
    (d.cntAdd b i c n).on (CNT_SAT b) i c = (d.on (CNT_SAT b) i c || decide (2 ^ 48 - 1 ≤ d.get (CNT_COUNT b) i c + n)) ∧
    (∀ r k l, r.addr k l ≠ (CNT b).addr i c → (d.cntAdd b i c n).word r k l = d.word r k l) ∧ { d.cntAdd b i c n with regs := d.regs } = d

/-- A latch edge equal to a pending one joins it and adds none; another takes a place while fewer than four wait; with
four waiting it is dropped, counted in CRB_LOG1.DROPPED, and the pending edges stand. (R632) -/
def Obligations.CrumbHoldsAtMostFourEdges : Prop :=
  ∀ (d : Dev) (at_ cause origin id : Nat) (late : Option Nat),
    (d.obs.crumb.edges.any (·.at_ = at_) = true → (d.addEdge at_ cause origin id late).1 = false ∧
      (d.addEdge at_ cause origin id late).2.obs.crumb.edges.map (·.at_) = d.obs.crumb.edges.map (·.at_) ∧ (d.addEdge at_ cause origin id late).2.regs = d.regs) ∧
    (d.obs.crumb.edges.any (·.at_ = at_) = false → d.obs.crumb.edges.length < 4 → (d.addEdge at_ cause origin id late).1 = false ∧
      (d.addEdge at_ cause origin id late).2.obs.crumb.edges.length = d.obs.crumb.edges.length + 1 ∧
      ⟨at_, [cause], origin, id, late⟩ ∈ (d.addEdge at_ cause origin id late).2.obs.crumb.edges) ∧
    (d.obs.crumb.edges.any (·.at_ = at_) = false → 4 ≤ d.obs.crumb.edges.length →
      d.addEdge at_ cause origin id late = (true, d.inc CRB_LOG1_DROPPED))

/-- Each of these commands, where it acts, changes no register outside the page named (DISCARD none at all), no active
table and no byte of the Larder; GATE_EDGE where the list entry in force is not uncorrectable, since an uncorrectable
one raises a fault. (chapter 2, Control Space, R65, R154, R636) -/
def Obligations.FramesOfOnePage : Prop :=
  (∀ (s : State) (path : Nat) (i : Nat) (tag : Nat) (lease : Nat), (.acquire path i tag lease : Instr).wf = true → s.dev.Reaches path ⟨.lck, 0⟩ → ∃ t, exec (.acquire path i tag lease) s = .next t ∧ t.pending = s.pending ∧ Dev.OnlyPage ⟨.lck, 0⟩ s.dev t.dev) ∧
    (∀ (s : State) (path : Nat) (i : Nat) (tag : Nat) (lease : Nat), (.renew path i tag lease : Instr).wf = true → s.dev.Reaches path ⟨.lck, 0⟩ → s.dev.lockMine path i tag = true → ∃ t, exec (.renew path i tag lease) s = .next t ∧ t.pending = s.pending ∧ Dev.OnlyPage ⟨.lck, 0⟩ s.dev t.dev) ∧
    (∀ (s : State) (path : Nat) (i : Nat) (tag : Nat), (.release path i tag : Instr).wf = true → s.dev.Reaches path ⟨.lck, 0⟩ → s.dev.lockMine path i tag = true → ∃ t, exec (.release path i tag) s = .next t ∧ t.pending = s.pending ∧ Dev.OnlyPage ⟨.lck, 0⟩ s.dev t.dev) ∧
    (∀ (s : State) (path : Nat) (i : Nat) (tag : Nat), (.clrBroken path i tag : Instr).wf = true → s.dev.Reaches path ⟨.lck, 0⟩ → s.dev.lockMine path i tag = true → ∃ t, exec (.clrBroken path i tag) s = .next t ∧ t.pending = s.pending ∧ Dev.OnlyPage ⟨.lck, 0⟩ s.dev t.dev) ∧
    (∀ (s : State) (path : Nat) (k : Nat) (oct : Nat) (valid : Bool), (.drlAttach path k oct valid : Instr).wf = true → s.dev.Reaches path ⟨.drl, k⟩ → ∃ t, exec (.drlAttach path k oct valid) s = .next t ∧ t.pending = s.pending ∧ Dev.OnlyPage ⟨.drl, k⟩ s.dev t.dev) ∧
    (∀ (s : State) (n : Nat), (.retryCountReset n : Instr).wf = true → ∃ t, exec (.retryCountReset n) s = .next t ∧ t.pending = s.pending ∧ Dev.OnlyPage ⟨.spu, n⟩ s.dev t.dev) ∧
    (∀ (s : State) (n : Nat), (.coolDone n : Instr).wf = true → ∃ t, exec (.coolDone n) s = .next t ∧ t.pending = s.pending ∧ Dev.OnlyPage ⟨.spu, n⟩ s.dev t.dev) ∧
    (∀ (s : State) (p : Nat), (.gateEdge p : Instr).wf = true → s.dev.tabUe.contains (tkey 0x0C p (s.dev.gatesAt p s.dev.fab).1 0) = false → ∃ t, exec (.gateEdge p) s = .next t ∧ t.pending = s.pending ∧ Dev.OnlyPage ⟨.gte, p⟩ s.dev t.dev) ∧
    (∀ (s : State) (o : Nat) (lane : Nat) (cmd : MarginCmd), (.partnerMargining o ⟨lane, cmd⟩ : Instr).wf = true → ∃ t, exec (.partnerMargining o ⟨lane, cmd⟩) s = .next t ∧ t.pending = s.pending ∧ Dev.OnlyPage ⟨.sds, o⟩ s.dev t.dev) ∧
    (∀ (s : State) (p : Nat), (.ideKeySwitch p : Instr).wf = true → ∃ t, exec (.ideKeySwitch p) s = .next t ∧ t.pending = s.pending ∧ Dev.OnlyPage ⟨.prt, p⟩ s.dev t.dev) ∧
    (∀ (s : State) (e : Nat), (.shareEntryEnd e : Instr).wf = true → ∃ t, exec (.shareEntryEnd e) s = .next t ∧ t.pending = s.pending ∧ Dev.OnlyPage ⟨.dmv, e⟩ s.dev t.dev) ∧
    (∀ (s : State) (path : Nat) (pg : Nat) (g : Pg), (.fltCountClr path pg : Instr).wf = true → s.dev.Finds path pg g (0x068) → ∃ t, exec (.fltCountClr path pg) s = .next t ∧ t.pending = s.pending ∧ Dev.OnlyPage g s.dev t.dev) ∧
    (∀ (s : State) (path : Nat) (pg : Nat) (i : Nat) (g : Pg), (.cntClr path pg i : Instr).wf = true → s.dev.Finds path pg g (0x100 + 8 * (i / 2)) → ∃ t, exec (.cntClr path pg i) s = .next t ∧ t.pending = s.pending ∧ Dev.OnlyPage g s.dev t.dev) ∧
    (∀ (s : State) (path : Nat) (pg : Nat) (j : Nat) (val : Nat) (g : Pg), (.cntSelWrite path pg j val : Instr).wf = true → s.dev.Finds path pg g (0x100 + 8 * j) → ∃ t, exec (.cntSelWrite path pg j val) s = .next t ∧ t.pending = s.pending ∧ Dev.OnlyPage g s.dev t.dev) ∧
    (∀ (s : State) (path : Nat) (pg : Nat) (g : Pg), (.discard path pg : Instr).wf = true → s.dev.Finds path pg g (0x018) → ∃ t, exec (.discard path pg) s = .next t ∧ t.pending = s.pending ∧ t.dev.regs = s.dev.regs ∧ Dev.OnlyPage g s.dev t.dev)

/-- Each of these commands changes no register, no table and no byte of the Larder. (chapter 16, Slot Power and Proof of
Hold-Up, chapter 3, Lanes and Octets, chapter 11, Coherence Races, chapter 12, Fabric Ordering) -/
def Obligations.FramesOfUnitState : Prop :=
  (∀ (s : State) (n : Nat), (.insertionTimer n : Instr).wf = true → ∃ t, exec (.insertionTimer n) s = .next t ∧ t.pending = s.pending ∧ t.dev.regs = s.dev.regs ∧ t.dev.shadow = s.dev.shadow ∧ t.dev.tabs = s.dev.tabs ∧ t.dev.tabSh = s.dev.tabSh ∧ t.dev.ldr = s.dev.ldr) ∧
    (∀ (s : State) , (.measureHoldReady : Instr).wf = true → ∃ t, exec (.measureHoldReady) s = .next t ∧ t.pending = s.pending ∧ t.dev.regs = s.dev.regs ∧ t.dev.shadow = s.dev.shadow ∧ t.dev.tabs = s.dev.tabs ∧ t.dev.tabSh = s.dev.tabSh ∧ t.dev.ldr = s.dev.ldr) ∧
    (∀ (s : State) (v1 : Nat), (.measureSettled v1 : Instr).wf = true → ∃ t, exec (.measureSettled v1) s = .next t ∧ t.pending = s.pending ∧ t.dev.regs = s.dev.regs ∧ t.dev.shadow = s.dev.shadow ∧ t.dev.tabs = s.dev.tabs ∧ t.dev.tabSh = s.dev.tabSh ∧ t.dev.ldr = s.dev.ldr) ∧
    (∀ (s : State) (charge : Nat) (loadUs : Nat), (.measureLoadEnd charge loadUs : Instr).wf = true → ∃ t, exec (.measureLoadEnd charge loadUs) s = .next t ∧ t.pending = s.pending ∧ t.dev.regs = s.dev.regs ∧ t.dev.shadow = s.dev.shadow ∧ t.dev.tabs = s.dev.tabs ∧ t.dev.tabSh = s.dev.tabSh ∧ t.dev.ldr = s.dev.ldr) ∧
    (∀ (s : State) (p : Nat) (fn : Nat), (.drainRead p fn : Instr).wf = true → ∃ t, exec (.drainRead p fn) s = .next t ∧ t.pending = s.pending ∧ t.dev.regs = s.dev.regs ∧ t.dev.shadow = s.dev.shadow ∧ t.dev.tabs = s.dev.tabs ∧ t.dev.tabSh = s.dev.tabSh ∧ t.dev.ldr = s.dev.ldr) ∧
    (∀ (s : State) (h : Nat) (src : Nat), (.waitBufferEntryFree h src : Instr).wf = true → ∃ t, exec (.waitBufferEntryFree h src) s = .next t ∧ t.pending = s.pending ∧ t.dev.regs = s.dev.regs ∧ t.dev.shadow = s.dev.shadow ∧ t.dev.tabs = s.dev.tabs ∧ t.dev.tabSh = s.dev.tabSh ∧ t.dev.ldr = s.dev.ldr)

/-- Each command that comes over a path of Table 2-3 leaves the state as it is while that path is not open; an FM API
command over an MCTP path waits until firmware runs. (Table 2-3, R38) -/
def Obligations.ClosedPathHasNoEffect : Prop :=
  (∀ (s : State) (path : Nat) (addr : Nat) (nbytes : Nat) (val : Nat), (.registerWrite path addr nbytes val : Instr).wf = true → s.dev.pathOpen path = false → exec (.registerWrite path addr nbytes val) s = .next (s.after s.dev)) ∧
    (∀ (s : State) (path : Nat) (pg : Nat), (.enableSet path pg : Instr).wf = true → s.dev.pathOpen path = false → exec (.enableSet path pg) s = .next (s.after s.dev)) ∧
    (∀ (s : State) (path : Nat) (pg : Nat), (.enableClear path pg : Instr).wf = true → s.dev.pathOpen path = false → exec (.enableClear path pg) s = .next (s.after s.dev)) ∧
    (∀ (s : State) (path : Nat) (pg : Nat), (.brst path pg : Instr).wf = true → s.dev.pathOpen path = false → exec (.brst path pg) s = .next (s.after s.dev)) ∧
    (∀ (s : State) (path : Nat) (pg : Nat), (.commit path pg : Instr).wf = true → s.dev.pathOpen path = false → exec (.commit path pg) s = .next (s.after s.dev)) ∧
    (∀ (s : State) (path : Nat) (pg : Nat), (.force path pg : Instr).wf = true → s.dev.pathOpen path = false → exec (.force path pg) s = .next (s.after s.dev)) ∧
    (∀ (s : State) (path : Nat) (pg : Nat), (.discard path pg : Instr).wf = true → s.dev.pathOpen path = false → exec (.discard path pg) s = .next (s.after s.dev)) ∧
    (∀ (s : State) (path : Nat) (pg : Nat), (.pglockLocked path pg : Instr).wf = true → s.dev.pathOpen path = false → exec (.pglockLocked path pg) s = .next (s.after s.dev)) ∧
    (∀ (s : State) (path : Nat), (.devCfgLock path : Instr).wf = true → s.dev.pathOpen path = false → exec (.devCfgLock path) s = .next (s.after s.dev)) ∧
    (∀ (s : State) (path : Nat) (w : Nat) (inc : Bool), (.tblRead path w inc : Instr).wf = true → s.dev.pathOpen path = false → exec (.tblRead path w inc) s = .next (s.after s.dev)) ∧
    (∀ (s : State) (path : Nat) (w : Nat) (inc : Bool), (.tblWrite path w inc : Instr).wf = true → s.dev.pathOpen path = false → exec (.tblWrite path w inc) s = .next (s.after s.dev)) ∧
    (∀ (s : State) (path : Nat) (w : Nat) (inc : Bool), (.tblClear path w inc : Instr).wf = true → s.dev.pathOpen path = false → exec (.tblClear path w inc) s = .next (s.after s.dev)) ∧
    (∀ (s : State) (path : Nat) (w : Nat) (op : Nat) (inc : Bool), (.tblBadOp path w op inc : Instr).wf = true → s.dev.pathOpen path = false → exec (.tblBadOp path w op inc) s = .next (s.after s.dev)) ∧
    (∀ (s : State) (path : Nat) (i : Nat) (tag : Nat) (lease : Nat), (.acquire path i tag lease : Instr).wf = true → s.dev.pathOpen path = false → exec (.acquire path i tag lease) s = .next (s.after s.dev)) ∧
    (∀ (s : State) (path : Nat) (i : Nat) (tag : Nat) (lease : Nat), (.renew path i tag lease : Instr).wf = true → s.dev.pathOpen path = false → exec (.renew path i tag lease) s = .next (s.after s.dev)) ∧
    (∀ (s : State) (path : Nat) (i : Nat) (tag : Nat), (.release path i tag : Instr).wf = true → s.dev.pathOpen path = false → exec (.release path i tag) s = .next (s.after s.dev)) ∧
    (∀ (s : State) (path : Nat) (i : Nat), (.breakLock path i : Instr).wf = true → s.dev.pathOpen path = false → exec (.breakLock path i) s = .next (s.after s.dev)) ∧
    (∀ (s : State) (path : Nat) (i : Nat) (tag : Nat), (.clrBroken path i tag : Instr).wf = true → s.dev.pathOpen path = false → exec (.clrBroken path i tag) s = .next (s.after s.dev)) ∧
    (∀ (s : State) (path : Nat) (key : Nat), (.devRstWarm path key : Instr).wf = true → s.dev.pathOpen path = false → exec (.devRstWarm path key) s = .next (s.after s.dev)) ∧
    (∀ (s : State) (path : Nat) (key : Nat), (.devRstControl path key : Instr).wf = true → s.dev.pathOpen path = false → exec (.devRstControl path key) s = .next (s.after s.dev)) ∧
    (∀ (s : State) (path : Nat) (key : Nat) (target : Nat), (.devRstSlice path key target : Instr).wf = true → s.dev.pathOpen path = false → exec (.devRstSlice path key target) s = .next (s.after s.dev)) ∧
    (∀ (s : State) (path : Nat) (key : Nat) (target : Nat), (.devRstDomain path key target : Instr).wf = true → s.dev.pathOpen path = false → exec (.devRstDomain path key target) s = .next (s.after s.dev)) ∧
    (∀ (s : State) (path : Nat) (key : Nat) (target : Nat), (.devRstPort path key target : Instr).wf = true → s.dev.pathOpen path = false → exec (.devRstPort path key target) s = .next (s.after s.dev)) ∧
    (∀ (s : State) (path : Nat), (.mboxGo path : Instr).wf = true → s.dev.pathOpen path = false → exec (.mboxGo path) s = .next (s.after s.dev)) ∧
    (∀ (s : State) (path : Nat) (o : Nat), (.marginGo path o : Instr).wf = true → s.dev.pathOpen path = false → exec (.marginGo path o) s = .next (s.after s.dev)) ∧
    (∀ (s : State) (path : Nat) (o : Nat), (.marginStop path o : Instr).wf = true → s.dev.pathOpen path = false → exec (.marginStop path o) s = .next (s.after s.dev)) ∧
    (∀ (s : State) (path : Nat) (o : Nat) (lane : Nat) (val : Nat), (.eqCacheWrite path o lane val : Instr).wf = true → s.dev.pathOpen path = false → exec (.eqCacheWrite path o lane val) s = .next (s.after s.dev)) ∧
    (∀ (s : State) (path : Nat) (p : Nat), (.hotReset path p : Instr).wf = true → s.dev.pathOpen path = false → exec (.hotReset path p) s = .next (s.after s.dev)) ∧
    (∀ (s : State) (path : Nat) (p : Nat), (.retrain path p : Instr).wf = true → s.dev.pathOpen path = false → exec (.retrain path p) s = .next (s.after s.dev)) ∧
    (∀ (s : State) (path : Nat) (p : Nat), (.disable path p : Instr).wf = true → s.dev.pathOpen path = false → exec (.disable path p) s = .next (s.after s.dev)) ∧
    (∀ (s : State) (path : Nat) (p : Nat), (.disableClear path p : Instr).wf = true → s.dev.pathOpen path = false → exec (.disableClear path p) s = .next (s.after s.dev)) ∧
    (∀ (s : State) (path : Nat) (k : Nat) (oct : Nat) (valid : Bool), (.drlAttach path k oct valid : Instr).wf = true → s.dev.pathOpen path = false → exec (.drlAttach path k oct valid) s = .next (s.after s.dev)) ∧
    (∀ (s : State) (path : Nat) (sl : Nat) (b : Nat), (.retire path sl b : Instr).wf = true → s.dev.pathOpen path = false → exec (.retire path sl b) s = .next (s.after s.dev)) ∧
    (∀ (s : State) (path : Nat) (vcs : Nat) (start : Nat) (limit : Nat), (.getVirtualCxlSwitchInfo path vcs start limit : Instr).wf = true → s.dev.pathOpen path = false → exec (.getVirtualCxlSwitchInfo path vcs start limit) s = .next (s.after (if 2 ≤ path ∧ path ≤ 4 then { s.dev with ctl := { s.dev.ctl with fmWait := s.dev.ctl.fmWait ++ [.getVirtualCxlSwitchInfo path vcs start limit] } } else s.dev))) ∧
    (∀ (s : State) (path : Nat) (vcs : Nat) (vppb : Nat) (tgt : Nat) (ld : Nat), (.bindVppb path vcs vppb tgt ld : Instr).wf = true → s.dev.pathOpen path = false → exec (.bindVppb path vcs vppb tgt ld) s = .next (s.after (if 2 ≤ path ∧ path ≤ 4 then { s.dev with ctl := { s.dev.ctl with fmWait := s.dev.ctl.fmWait ++ [.bindVppb path vcs vppb tgt ld] } } else s.dev))) ∧
    (∀ (s : State) (path : Nat) (vcs : Nat) (vppb : Nat) (option : Nat), (.unbindVppb path vcs vppb option : Instr).wf = true → s.dev.pathOpen path = false → exec (.unbindVppb path vcs vppb option) s = .next (s.after (if 2 ≤ path ∧ path ≤ 4 then { s.dev with ctl := { s.dev.ctl with fmWait := s.dev.ctl.fmWait ++ [.unbindVppb path vcs vppb option] } } else s.dev))) ∧
    (∀ (s : State) (path : Nat) (vcs : Nat) (vppb : Nat) (err : Nat), (.generateAerEvent path vcs vppb err : Instr).wf = true → s.dev.pathOpen path = false → exec (.generateAerEvent path vcs vppb err) s = .next (s.after (if 2 ≤ path ∧ path ≤ 4 then { s.dev with ctl := { s.dev.ctl with fmWait := s.dev.ctl.fmWait ++ [.generateAerEvent path vcs vppb err] } } else s.dev))) ∧
    (∀ (s : State) (path : Nat), (.identifySwitchDevice path : Instr).wf = true → s.dev.pathOpen path = false → exec (.identifySwitchDevice path) s = .next (s.after (if 2 ≤ path ∧ path ≤ 4 then { s.dev with ctl := { s.dev.ctl with fmWait := s.dev.ctl.fmWait ++ [.identifySwitchDevice path] } } else s.dev))) ∧
    (∀ (s : State) (path : Nat) (ports : List Nat), (.getPhysicalPortState path ports : Instr).wf = true → s.dev.pathOpen path = false → exec (.getPhysicalPortState path ports) s = .next (s.after (if 2 ≤ path ∧ path ≤ 4 then { s.dev with ctl := { s.dev.ctl with fmWait := s.dev.ctl.fmWait ++ [.getPhysicalPortState path ports] } } else s.dev))) ∧
    (∀ (s : State) (path : Nat) (p : Nat) (op : Nat), (.physicalPortControl path p op : Instr).wf = true → s.dev.pathOpen path = false → exec (.physicalPortControl path p op) s = .next (s.after (if 2 ≤ path ∧ path ≤ 4 then { s.dev with ctl := { s.dev.ctl with fmWait := s.dev.ctl.fmWait ++ [.physicalPortControl path p op] } } else s.dev))) ∧
    (∀ (s : State) (path : Nat) (p : Nat) (ld : Nat) (off : Nat) (write : Bool) (val : Nat), (.sendLdCxlIoConfigRequest path p ld off write val : Instr).wf = true → s.dev.pathOpen path = false → exec (.sendLdCxlIoConfigRequest path p ld off write val) s = .next (s.after (if 2 ≤ path ∧ path ≤ 4 then { s.dev with ctl := { s.dev.ctl with fmWait := s.dev.ctl.fmWait ++ [.sendLdCxlIoConfigRequest path p ld off write val] } } else s.dev))) ∧
    (∀ (s : State) (path : Nat) (p : Nat) (payload : Bytes), (.tunnelManagementCommand path p payload : Instr).wf = true → s.dev.pathOpen path = false → exec (.tunnelManagementCommand path p payload) s = .next (s.after (if 2 ≤ path ∧ path ≤ 4 then { s.dev with ctl := { s.dev.ctl with fmWait := s.dev.ctl.fmWait ++ [.tunnelManagementCommand path p payload] } } else s.dev))) ∧
    (∀ (s : State) (path : Nat) (h : Nat), (.dirPeek path h : Instr).wf = true → s.dev.pathOpen path = false → exec (.dirPeek path h) s = .next (s.after s.dev)) ∧
    (∀ (s : State) (path : Nat) (h : Nat), (.sccFlushClean path h : Instr).wf = true → s.dev.pathOpen path = false → exec (.sccFlushClean path h) s = .next (s.after s.dev)) ∧
    (∀ (s : State) (path : Nat) (c : Nat), (.pprSoft path c : Instr).wf = true → s.dev.pathOpen path = false → exec (.pprSoft path c) s = .next (s.after s.dev)) ∧
    (∀ (s : State) (path : Nat) (c : Nat), (.pprHard path c : Instr).wf = true → s.dev.pathOpen path = false → exec (.pprHard path c) s = .next (s.after s.dev)) ∧
    (∀ (s : State) (path : Nat) (n : Nat), (.spuOn path n : Instr).wf = true → s.dev.pathOpen path = false → exec (.spuOn path n) s = .next (s.after s.dev)) ∧
    (∀ (s : State) (path : Nat) (n : Nat), (.spuOff path n : Instr).wf = true → s.dev.pathOpen path = false → exec (.spuOff path n) s = .next (s.after s.dev)) ∧
    (∀ (s : State) (path : Nat) (n : Nat) (vout : Nat), (.clearFet path n vout : Instr).wf = true → s.dev.pathOpen path = false → exec (.clearFet path n vout) s = .next (s.after s.dev)) ∧
    (∀ (s : State) (path : Nat), (.measure path : Instr).wf = true → s.dev.pathOpen path = false → exec (.measure path) s = .next (s.after s.dev)) ∧
    (∀ (s : State) (path : Nat) (burned : Bool), (.advanceArc path burned : Instr).wf = true → s.dev.pathOpen path = false → exec (.advanceArc path burned) s = .next (s.after s.dev)) ∧
    (∀ (s : State) (path : Nat), (.dbgChallenge path : Instr).wf = true → s.dev.pathOpen path = false → exec (.dbgChallenge path) s = .next (s.after s.dev)) ∧
    (∀ (s : State) (path : Nat), (.dbgUnlock path : Instr).wf = true → s.dev.pathOpen path = false → exec (.dbgUnlock path) s = .next (s.after s.dev)) ∧
    (∀ (s : State) (path : Nat), (.bundleApply path : Instr).wf = true → s.dev.pathOpen path = false → exec (.bundleApply path) s = .next (s.after s.dev)) ∧
    (∀ (s : State) (path : Nat) (bank : Nat), (.rcvWrite path bank : Instr).wf = true → s.dev.pathOpen path = false → exec (.rcvWrite path bank) s = .next (s.after s.dev)) ∧
    (∀ (s : State) (path : Nat) (bank : Nat) (img : Option FlashImage), (.rcvBoot path bank img : Instr).wf = true → s.dev.pathOpen path = false → exec (.rcvBoot path bank img) s = .next (s.after s.dev)) ∧
    (∀ (s : State) (path : Nat) (k : Nat), (.relayIn path k : Instr).wf = true → s.dev.pathOpen path = false → exec (.relayIn path k) s = .next (s.after s.dev)) ∧
    (∀ (s : State) (path : Nat), (.relayOutRelease path : Instr).wf = true → s.dev.pathOpen path = false → exec (.relayOutRelease path) s = .next (s.after s.dev)) ∧
    (∀ (s : State) (path : Nat) (i : Nat), (.anchorSet path i : Instr).wf = true → s.dev.pathOpen path = false → exec (.anchorSet path i) s = .next (s.after s.dev)) ∧
    (∀ (s : State) (path : Nat) (k : Nat), (.drlRekey path k : Instr).wf = true → s.dev.pathOpen path = false → exec (.drlRekey path k) s = .next (s.after s.dev)) ∧
    (∀ (s : State) (path : Nat) (pg : Nat) (mask : Nat), (.fltStatusClear path pg mask : Instr).wf = true → s.dev.pathOpen path = false → exec (.fltStatusClear path pg mask) s = .next (s.after s.dev)) ∧
    (∀ (s : State) (path : Nat) (pg : Nat) (val : Nat), (.fltInject path pg val : Instr).wf = true → s.dev.pathOpen path = false → exec (.fltInject path pg val) s = .next (s.after s.dev)) ∧
    (∀ (s : State) (path : Nat) (pg : Nat), (.fltCountClr path pg : Instr).wf = true → s.dev.pathOpen path = false → exec (.fltCountClr path pg) s = .next (s.after s.dev)) ∧
    (∀ (s : State) (path : Nat) (v : Nat), (.tmbSet path v : Instr).wf = true → s.dev.pathOpen path = false → exec (.tmbSet path v) s = .next (s.after s.dev)) ∧
    (∀ (s : State) (path : Nat), (.fire path : Instr).wf = true → s.dev.pathOpen path = false → exec (.fire path) s = .next (s.after s.dev)) ∧
    (∀ (s : State) (path : Nat), (.clrall path : Instr).wf = true → s.dev.pathOpen path = false → exec (.clrall path) s = .next (s.after s.dev)) ∧
    (∀ (s : State) (path : Nat) (pg : Nat) (j : Nat) (val : Nat), (.cntSelWrite path pg j val : Instr).wf = true → s.dev.pathOpen path = false → exec (.cntSelWrite path pg j val) s = .next (s.after s.dev)) ∧
    (∀ (s : State) (path : Nat) (pg : Nat) (i : Nat), (.cntClr path pg i : Instr).wf = true → s.dev.pathOpen path = false → exec (.cntClr path pg i) s = .next (s.after s.dev)) ∧
    (∀ (s : State) (path : Nat), (.tlmPop path : Instr).wf = true → s.dev.pathOpen path = false → exec (.tlmPop path) s = .next (s.after s.dev)) ∧
    (∀ (s : State) (path : Nat) (v : Nat), (.tlmRhead path v : Instr).wf = true → s.dev.pathOpen path = false → exec (.tlmRhead path v) s = .next (s.after s.dev)) ∧
    (∀ (s : State) (path : Nat), (.tlmRingEnable path : Instr).wf = true → s.dev.pathOpen path = false → exec (.tlmRingEnable path) s = .next (s.after s.dev)) ∧
    (∀ (s : State) (path : Nat) (addr : Nat) (nbytes : Nat), (.refusedRead path addr nbytes : Instr).wf = true → s.dev.pathOpen path = false → exec (.refusedRead path addr nbytes) s = .next (s.after s.dev))

/-- Each of these data-plane commands leaves the state as it is while the device is halted. (chapter 19, Fault Handling) -/
def Obligations.HaltedDeviceDoesNothing : Prop :=
  (∀ (s : State) (o : Nat), (.calDone o : Instr).wf = true → s.dev.halted = true → exec (.calDone o) s = .next (s.after s.dev)) ∧
    (∀ (s : State) (o : Nat), (.calTimeout o : Instr).wf = true → s.dev.halted = true → exec (.calTimeout o) s = .next (s.after s.dev)) ∧
    (∀ (s : State) (o : Nat), (.failedRetry o : Instr).wf = true → s.dev.halted = true → exec (.failedRetry o) s = .next (s.after s.dev)) ∧
    (∀ (s : State) (o : Nat) (lane : Nat), (.elasticErr o lane : Instr).wf = true → s.dev.halted = true → exec (.elasticErr o lane) s = .next (s.after s.dev)) ∧
    (∀ (s : State) (o : Nat) (eyes : List Nat), (.healthWindow o eyes : Instr).wf = true → s.dev.halted = true → exec (.healthWindow o eyes) s = .next (s.after s.dev)) ∧
    (∀ (s : State) (o : Nat) (lane : Nat) (payload : Bytes), (.trainingControlBlock o lane payload : Instr).wf = true → s.dev.halted = true → exec (.trainingControlBlock o lane payload) s = .next (s.after s.dev)) ∧
    (∀ (s : State) (o : Nat) (lane : Nat) (headers : List Nat), (.laneLock o lane headers : Instr).wf = true → s.dev.halted = true → exec (.laneLock o lane headers) s = .next (s.after s.dev)) ∧
    (∀ (s : State) (o : Nat) (lane : Nat) (headers : List Nat), (.lockLost o lane headers : Instr).wf = true → s.dev.halted = true → exec (.lockLost o lane headers) s = .next (s.after s.dev)) ∧
    (∀ (s : State) (o : Nat), (.drLockDone o : Instr).wf = true → s.dev.halted = true → exec (.drLockDone o) s = .next (s.after s.dev)) ∧
    (∀ (s : State) (o : Nat), (.drLockTimeout o : Instr).wf = true → s.dev.halted = true → exec (.drLockTimeout o) s = .next (s.after s.dev)) ∧
    (∀ (s : State) (o : Nat), (.drTrainDone o : Instr).wf = true → s.dev.halted = true → exec (.drTrainDone o) s = .next (s.after s.dev)) ∧
    (∀ (s : State) (o : Nat), (.drTrainTimeout o : Instr).wf = true → s.dev.halted = true → exec (.drTrainTimeout o) s = .next (s.after s.dev)) ∧
    (∀ (s : State) (o : Nat) (skew : Nat), (.drAlignDone ⟨o, skew⟩ : Instr).wf = true → s.dev.halted = true → exec (.drAlignDone ⟨o, skew⟩) s = .next (s.after s.dev)) ∧
    (∀ (s : State) (o : Nat), (.drAlignTimeout o : Instr).wf = true → s.dev.halted = true → exec (.drAlignTimeout o) s = .next (s.after s.dev)) ∧
    (∀ (s : State) (o : Nat), (.drRetrainTimeout o : Instr).wf = true → s.dev.halted = true → exec (.drRetrainTimeout o) s = .next (s.after s.dev)) ∧
    (∀ (s : State) (o : Nat) (lane : Nat) (cmd : MarginCmd), (.partnerMargining o ⟨lane, cmd⟩ : Instr).wf = true → s.dev.halted = true → exec (.partnerMargining o ⟨lane, cmd⟩) s = .next (s.after s.dev)) ∧
    (∀ (s : State) (p : Nat), (.gpfAnswer p : Instr).wf = true → s.dev.halted = true → exec (.gpfAnswer p) s = .next (s.after s.dev)) ∧
    (∀ (s : State) (p : Nat) (tag : Nat), (.cplTimeout p tag : Instr).wf = true → s.dev.halted = true → exec (.cplTimeout p tag) s = .next (s.after s.dev)) ∧
    (∀ (s : State) (k : Nat) (lane : Nat) (raw : Bytes), (.dunrunBlock k lane raw : Instr).wf = true → s.dev.halted = true → exec (.dunrunBlock k lane raw) s = .next (s.after s.dev)) ∧
    (∀ (s : State) (k : Nat), (.linkInit k : Instr).wf = true → s.dev.halted = true → exec (.linkInit k) s = .next (s.after s.dev)) ∧
    (∀ (s : State) (k : Nat), (.initResend k : Instr).wf = true → s.dev.halted = true → exec (.initResend k) s = .next (s.after s.dev)) ∧
    (∀ (s : State) (srcs : List Nat) (err : CrossErr), (.cellPresent ⟨srcs, err⟩ : Instr).wf = true → s.dev.halted = true → exec (.cellPresent ⟨srcs, err⟩) s = .next (s.after s.dev)) ∧
    (∀ (s : State) (src : Nat) (err : CrossErr), (.heldAdmit ⟨src, err⟩ : Instr).wf = true → s.dev.halted = true → exec (.heldAdmit ⟨src, err⟩) s = .next (s.after s.dev)) ∧
    (∀ (s : State) (dest : Nat) (bridge : Bool), (.egressSelect ⟨dest, bridge⟩ : Instr).wf = true → s.dev.halted = true → exec (.egressSelect ⟨dest, bridge⟩) s = .next (s.after s.dev)) ∧
    (∀ (s : State) (sl : Nat) (b : Nat) (err : BankErr), (.bankDecision sl b err : Instr).wf = true → s.dev.halted = true → exec (.bankDecision sl b err) s = .next (s.after s.dev)) ∧
    (∀ (s : State) (p : Nat), (.egsSample p : Instr).wf = true → s.dev.halted = true → exec (.egsSample p) s = .next (s.after s.dev)) ∧
    (∀ (s : State) (vcs : Nat) (vppb : Nat) (below : Bool) (off : Nat) (write : Bool) (val : Nat), (.configurationRequest vcs vppb below off write val : Instr).wf = true → s.dev.halted = true → exec (.configurationRequest vcs vppb below off write val) s = .next (s.after s.dev)) ∧
    (∀ (s : State) (p : Nat) (ld : Nat), (.mldLdLost p ld : Instr).wf = true → s.dev.halted = true → exec (.mldLdLost p ld) s = .next (s.after s.dev)) ∧
    (∀ (s : State) (dev : Nat) (p : Nat) (ld : Nat), (.removalNotice dev p ld : Instr).wf = true → s.dev.halted = true → exec (.removalNotice dev p ld) s = .next (s.after s.dev)) ∧
    (∀ (s : State) (u : Nat) (vppb : Nat) (on : Bool), (.vppbPowerControl u vppb on : Instr).wf = true → s.dev.halted = true → exec (.vppbPowerControl u vppb on) s = .next (s.after s.dev)) ∧
    (∀ (s : State) (h : Nat), (.snoopAnswer h : Instr).wf = true → s.dev.halted = true → exec (.snoopAnswer h) s = .next (s.after s.dev)) ∧
    (∀ (s : State) (h : Nat), (.targetAnswer h : Instr).wf = true → s.dev.halted = true → exec (.targetAnswer h) s = .next (s.after s.dev)) ∧
    (∀ (s : State) (h : Nat) (line : Nat), (.lineQueueHead h line : Instr).wf = true → s.dev.halted = true → exec (.lineQueueHead h line) s = .next (s.after s.dev)) ∧
    (∀ (s : State) (h : Nat) (set_ : Nat) (way : Nat), (.retryOffer h set_ way : Instr).wf = true → s.dev.halted = true → exec (.retryOffer h set_ way) s = .next (s.after s.dev)) ∧
    (∀ (s : State) (h : Nat) (line : Nat) (agent : Nat), (.snoopTimeout h line agent : Instr).wf = true → s.dev.halted = true → exec (.snoopTimeout h line agent) s = .next (s.after s.dev)) ∧
    (∀ (s : State) (agent : Nat) (domain : Nat) (dev : Nat), (.quenchNotice agent domain dev : Instr).wf = true → s.dev.halted = true → exec (.quenchNotice agent domain dev) s = .next (s.after s.dev)) ∧
    (∀ (s : State) (h : Nat), (.quenchScanDone h : Instr).wf = true → s.dev.halted = true → exec (.quenchScanDone h) s = .next (s.after s.dev)) ∧
    (∀ (s : State) (id : Nat), (.acceptanceIndexRecord id : Instr).wf = true → s.dev.halted = true → exec (.acceptanceIndexRecord id) s = .next (s.after s.dev)) ∧
    (∀ (s : State) (src : Nat), (.trayHoldRelease src : Instr).wf = true → s.dev.halted = true → exec (.trayHoldRelease src) s = .next (s.after s.dev)) ∧
    (∀ (s : State) (src : Nat), (.streamingWrite src : Instr).wf = true → s.dev.halted = true → exec (.streamingWrite src) s = .next (s.after s.dev)) ∧
    (∀ (s : State) (p : Nat) (fn : Nat), (.drainWrite p fn : Instr).wf = true → s.dev.halted = true → exec (.drainWrite p fn) s = .next (s.after s.dev)) ∧
    (∀ (s : State) (p : Nat) (fn : Nat), (.drainRead p fn : Instr).wf = true → s.dev.halted = true → exec (.drainRead p fn) s = .next (s.after s.dev)) ∧
    (∀ (s : State) (q : Nat), (.contextFetch q : Instr).wf = true → s.dev.halted = true → exec (.contextFetch q) s = .next (s.after s.dev)) ∧
    (∀ (s : State) (q : Nat) (words : List W64) (ok : Bool), (.descriptorFetch q words ok : Instr).wf = true → s.dev.halted = true → exec (.descriptorFetch q words ok) s = .next (s.after s.dev)) ∧
    (∀ (s : State) (q : Nat), (.barrierComplete q : Instr).wf = true → s.dev.halted = true → exec (.barrierComplete q) s = .next (s.after s.dev)) ∧
    (∀ (s : State) (q : Nat) (ok : Bool), (.completionRecord q ok : Instr).wf = true → s.dev.halted = true → exec (.completionRecord q ok) s = .next (s.after s.dev)) ∧
    (∀ (s : State) (m : Nat), (.moveLiveCopyDone m : Instr).wf = true → s.dev.halted = true → exec (.moveLiveCopyDone m) s = .next (s.after s.dev)) ∧
    (∀ (s : State) (m : Nat), (.moveLiveRecopyDone m : Instr).wf = true → s.dev.halted = true → exec (.moveLiveRecopyDone m) s = .next (s.after s.dev)) ∧
    (∀ (s : State) (m : Nat), (.moveLiveHoldReady m : Instr).wf = true → s.dev.halted = true → exec (.moveLiveHoldReady m) s = .next (s.after s.dev)) ∧
    (∀ (s : State) (m : Nat), (.moveLiveHoldTimeout m : Instr).wf = true → s.dev.halted = true → exec (.moveLiveHoldTimeout m) s = .next (s.after s.dev)) ∧
    (∀ (s : State) , (.ptmTimer : Instr).wf = true → s.dev.halted = true → exec (.ptmTimer) s = .next (s.after s.dev)) ∧
    (∀ (s : State) (p : Nat), (.ptmRequest p : Instr).wf = true → s.dev.halted = true → exec (.ptmRequest p) s = .next (s.after s.dev)) ∧
    (∀ (s : State) (r : Nat) (src : Nat) (type_ : Nat) (payload : Bytes) (ok : Bool), (.telemetryRecord r src type_ payload ok : Instr).wf = true → s.dev.halted = true → exec (.telemetryRecord r src type_ payload ok) s = .next (s.after s.dev)) ∧
    (∀ (s : State) (o : Nat), (.drRetrainDone o : Instr).wf = true → s.dev.halted = true → exec (.drRetrainDone o) s = .next (s.after s.dev)) ∧
    (∀ (s : State) (h : Nat), (.remoteSnoop h : Instr).wf = true → s.dev.halted = true → exec (.remoteSnoop h) s = .next (s.after s.dev))

/-- An engine that takes a queue's next descriptor is one of the queue's slice and not quarantined; where the slice is sealed
its share entry in force serves the queue's domain; and while an engine of the slice gives the queue its turn, it is one
that does. The descriptor has the operation asked for and has not started. (R483, R484, R477) -/
def Obligations.EnginesServeTheirSlice : Prop :=
  ∀ (d : Dev) (q op e : Nat) (x : Desc), d.nextDesc q op = some (e, x) →
    d.q q cEslice = e / 4 ∧ d.quarantined (.engine e) = false ∧
      (d.sealed (e / 4) = true → d.shareServes e (d.q q cDomain) = true) ∧
      (∀ f, f / 4 = e / 4 → d.turnOf f = some q → d.turnOf e = some q) ∧
      x.op = op ∧ x.started = false ∧ x ∈ (d.queue q).descs
end

