-- ==== Sys2Proof/Laws/Maps.lean ====
section
/-! SUPPORT. Laws of the sparse maps: a read after a write, reads elsewhere, and the canonical form under every operation. -/

namespace Sys2Proof.Machine

variable {α : Type}

theorem SMap.get_erase_self (f : α) (m : SMap α) (k : Nat) : SMap.get f (SMap.erase m k) k = f := by
  induction m with
  | nil => rfl
  | cons e r ih =>
    by_cases h : e.1 = k
    · simpa [SMap.erase, h] using ih
    · simpa [SMap.erase, SMap.get, h] using ih

theorem SMap.get_erase_ne (f : α) (m : SMap α) {k j : Nat} (h : j ≠ k) : SMap.get f (SMap.erase m k) j = SMap.get f m j := by
  induction m with
  | nil => rfl
  | cons e r ih =>
    by_cases he : e.1 = k
    · have hj : e.1 ≠ j := fun x => h (x ▸ he)
      simpa [SMap.erase, SMap.get, he, Ne.symm h] using ih
    · simp only [SMap.erase, ne_eq, decide_not, List.filter_cons, he, decide_false, Bool.not_false, if_true, SMap.get]
      split
      · rfl
      · simpa [SMap.erase] using ih

theorem SMap.get_ins_self (f : α) (m : SMap α) (k : Nat) (v : α) : SMap.get f (SMap.ins m k v) k = v := by
  induction m with
  | nil => simp [SMap.ins, SMap.get]
  | cons e r ih =>
    unfold SMap.ins
    split
    · simp [SMap.get]
    · split
      · simp [SMap.get]
      · simp only [SMap.get]
        split
        · omega
        · exact ih

theorem SMap.get_ins_ne (f : α) (m : SMap α) (v : α) {k j : Nat} (h : j ≠ k) : SMap.get f (SMap.ins m k v) j = SMap.get f m j := by
  induction m with
  | nil => simp [SMap.ins, SMap.get, Ne.symm h]
  | cons e r ih =>
    unfold SMap.ins
    split
    · simp [SMap.get, Ne.symm h]
    · split
      · rename_i hk
        simp [SMap.get, Ne.symm h, ← hk]
      · simp only [SMap.get, ih]

theorem SMap.mem_ins (m : SMap α) (k : Nat) (v : α) {e : Nat × α} (h : e ∈ SMap.ins m k v) : e = (k, v) ∨ e ∈ m := by
  induction m with
  | nil => simpa [SMap.ins] using h
  | cons x r ih =>
    unfold SMap.ins at h
    split at h
    · simpa using h
    · split at h
      · rcases List.mem_cons.1 h with h | h <;> simp [h]
      · rcases List.mem_cons.1 h with h | h
        · simp [h]
        · rcases ih h with h | h <;> simp [h]

theorem SMap.ins_sorted (m : SMap α) (k : Nat) (v : α) (h : (m.map Prod.fst).Pairwise (· < ·)) :
    ((SMap.ins m k v).map Prod.fst).Pairwise (· < ·) := by
  induction m with
  | nil => simp [SMap.ins]
  | cons x r ih =>
    simp only [List.map_cons, List.pairwise_cons] at h
    unfold SMap.ins
    split
    · simp only [List.map_cons, List.pairwise_cons, List.mem_cons]
      refine ⟨?_, h⟩
      rintro a (rfl | ha)
      · assumption
      · have := h.1 a ha; omega
    · split
      · rename_i hk
        simpa [hk] using h
      · simp only [List.map_cons, List.pairwise_cons]
        refine ⟨?_, ih h.2⟩
        intro a ha
        rcases List.mem_map.1 ha with ⟨e, he, rfl⟩
        rcases SMap.mem_ins r k v he with rfl | he
        · simp only; omega
        · exact h.1 _ (List.mem_map_of_mem he)

variable [DecidableEq α]

/-- A read of the key written. -/
@[simp] theorem SMap.get_set_self (f : α) (m : SMap α) (k : Nat) (v : α) : SMap.get f (SMap.set f m k v) k = v := by
  unfold SMap.set
  split
  · rename_i h; rw [h]; exact SMap.get_erase_self f m k
  · exact SMap.get_ins_self f m k v

/-- A read of any other key. -/
theorem SMap.get_set_ne (f g : α) (m : SMap α) (v : α) {k j : Nat} (h : j ≠ k) : SMap.get f (SMap.set g m k v) j = SMap.get f m j := by
  unfold SMap.set
  split
  · exact SMap.get_erase_ne f m h
  · exact SMap.get_ins_ne f m v h

/-- The canonical form in the shape proofs use. -/
theorem SMap.wf_iff (f : Nat → α) (m : SMap α) :
    SMap.wf f m = true ↔ (m.map Prod.fst).Pairwise (· < ·) ∧ ∀ e ∈ m, e.2 ≠ f e.1 := by
  simp [SMap.wf, List.all_eq_true]

/-- Every write keeps the canonical form. -/
theorem SMap.set_wf (f : Nat → α) (m : SMap α) (k : Nat) (v : α) (h : SMap.wf f m = true) : SMap.wf f (SMap.set (f k) m k v) = true := by
  rw [SMap.wf_iff] at *
  unfold SMap.set
  split
  · refine ⟨h.1.sublist (List.Sublist.map _ List.filter_sublist), fun e he => h.2 e (List.mem_of_mem_filter he)⟩
  · rename_i hv
    refine ⟨SMap.ins_sorted m k v h.1, fun e he => ?_⟩
    rcases SMap.mem_ins m k v he with rfl | he
    · exact hv
    · exact h.2 e he

end Sys2Proof.Machine
end

