-- ==== Sys2Proof/Laws/State.lean ====
section
/-! SUPPORT. What each named update of the device leaves as it was: one lemma per field, true by definition, so that no
proof unfolds a record update. -/

namespace Sys2Proof.Machine

/-! ## The state -/

@[simp] theorem State.withDev_dev (s : State) (d : Dev) : (s.withDev d).dev = d := rfl
@[simp] theorem State.withDev_pending (s : State) (d : Dev) : (s.withDev d).pending = s.pending := rfl
@[simp] theorem State.withDev_withDev (s : State) (d e : Dev) : (s.withDev d).withDev e = s.withDev e := rfl
@[simp] theorem State.after_dev (s : State) (d : Dev) : (s.after d).dev = d.cycleEnd := rfl
@[simp] theorem State.after_pending (s : State) (d : Dev) : (s.after d).pending = s.pending := rfl

/-! ## setWord -/

@[simp] theorem Dev.setWord_shadow (d : Dev) (r : Reg) (i : Nat) (w : W64) (j : Nat) : (d.setWord r i w j).shadow = d.shadow := rfl
@[simp] theorem Dev.setWord_prev (d : Dev) (r : Reg) (i : Nat) (w : W64) (j : Nat) : (d.setWord r i w j).prev = d.prev := rfl
@[simp] theorem Dev.setWord_snap (d : Dev) (r : Reg) (i : Nat) (w : W64) (j : Nat) : (d.setWord r i w j).snap = d.snap := rfl
@[simp] theorem Dev.setWord_tabs (d : Dev) (r : Reg) (i : Nat) (w : W64) (j : Nat) : (d.setWord r i w j).tabs = d.tabs := rfl
@[simp] theorem Dev.setWord_tabSh (d : Dev) (r : Reg) (i : Nat) (w : W64) (j : Nat) : (d.setWord r i w j).tabSh = d.tabSh := rfl
@[simp] theorem Dev.setWord_tabPrev (d : Dev) (r : Reg) (i : Nat) (w : W64) (j : Nat) : (d.setWord r i w j).tabPrev = d.tabPrev := rfl
@[simp] theorem Dev.setWord_tabUe (d : Dev) (r : Reg) (i : Nat) (w : W64) (j : Nat) : (d.setWord r i w j).tabUe = d.tabUe := rfl
@[simp] theorem Dev.setWord_tabUeSh (d : Dev) (r : Reg) (i : Nat) (w : W64) (j : Nat) : (d.setWord r i w j).tabUeSh = d.tabUeSh := rfl
@[simp] theorem Dev.setWord_tabUePrev (d : Dev) (r : Reg) (i : Nat) (w : W64) (j : Nat) : (d.setWord r i w j).tabUePrev = d.tabUePrev := rfl
@[simp] theorem Dev.setWord_tabUeSeen (d : Dev) (r : Reg) (i : Nat) (w : W64) (j : Nat) : (d.setWord r i w j).tabUeSeen = d.tabUeSeen := rfl
@[simp] theorem Dev.setWord_ctl (d : Dev) (r : Reg) (i : Nat) (w : W64) (j : Nat) : (d.setWord r i w j).ctl = d.ctl := rfl
@[simp] theorem Dev.setWord_flt (d : Dev) (r : Reg) (i : Nat) (w : W64) (j : Nat) : (d.setWord r i w j).flt = d.flt := rfl
@[simp] theorem Dev.setWord_obs (d : Dev) (r : Reg) (i : Nat) (w : W64) (j : Nat) : (d.setWord r i w j).obs = d.obs := rfl
@[simp] theorem Dev.setWord_octets (d : Dev) (r : Reg) (i : Nat) (w : W64) (j : Nat) : (d.setWord r i w j).octets = d.octets := rfl
@[simp] theorem Dev.setWord_ports (d : Dev) (r : Reg) (i : Nat) (w : W64) (j : Nat) : (d.setWord r i w j).ports = d.ports := rfl
@[simp] theorem Dev.setWord_links (d : Dev) (r : Reg) (i : Nat) (w : W64) (j : Nat) : (d.setWord r i w j).links = d.links := rfl
@[simp] theorem Dev.setWord_core (d : Dev) (r : Reg) (i : Nat) (w : W64) (j : Nat) : (d.setWord r i w j).core = d.core := rfl
@[simp] theorem Dev.setWord_coh (d : Dev) (r : Reg) (i : Nat) (w : W64) (j : Nat) : (d.setWord r i w j).coh = d.coh := rfl
@[simp] theorem Dev.setWord_ldr (d : Dev) (r : Reg) (i : Nat) (w : W64) (j : Nat) : (d.setWord r i w j).ldr = d.ldr := rfl
@[simp] theorem Dev.setWord_dmv (d : Dev) (r : Reg) (i : Nat) (w : W64) (j : Nat) : (d.setWord r i w j).dmv = d.dmv := rfl
@[simp] theorem Dev.setWord_traf (d : Dev) (r : Reg) (i : Nat) (w : W64) (j : Nat) : (d.setWord r i w j).traf = d.traf := rfl
@[simp] theorem Dev.setWord_prot (d : Dev) (r : Reg) (i : Nat) (w : W64) (j : Nat) : (d.setWord r i w j).prot = d.prot := rfl
@[simp] theorem Dev.setWord_slots (d : Dev) (r : Reg) (i : Nat) (w : W64) (j : Nat) : (d.setWord r i w j).slots = d.slots := rfl
@[simp] theorem Dev.setWord_prf (d : Dev) (r : Reg) (i : Nat) (w : W64) (j : Nat) : (d.setWord r i w j).prf = d.prf := rfl
@[simp] theorem Dev.setWord_sec (d : Dev) (r : Reg) (i : Nat) (w : W64) (j : Nat) : (d.setWord r i w j).sec = d.sec := rfl
@[simp] theorem Dev.setWord_rst (d : Dev) (r : Reg) (i : Nat) (w : W64) (j : Nat) : (d.setWord r i w j).rst = d.rst := rfl
@[simp] theorem Dev.setWord_elec (d : Dev) (r : Reg) (i : Nat) (w : W64) (j : Nat) : (d.setWord r i w j).elec = d.elec := rfl
@[simp] theorem Dev.setWord_free (d : Dev) (r : Reg) (i : Nat) (w : W64) (j : Nat) : (d.setWord r i w j).free = d.free := rfl
@[simp] theorem Dev.setWord_out (d : Dev) (r : Reg) (i : Nat) (w : W64) (j : Nat) : (d.setWord r i w j).out = d.out := rfl

/-! ## put -/

@[simp] theorem Dev.put_shadow (d : Dev) (f : Fld) (i : Nat) (v : Nat) (j : Nat) : (d.put f i v j).shadow = d.shadow := rfl
@[simp] theorem Dev.put_prev (d : Dev) (f : Fld) (i : Nat) (v : Nat) (j : Nat) : (d.put f i v j).prev = d.prev := rfl
@[simp] theorem Dev.put_snap (d : Dev) (f : Fld) (i : Nat) (v : Nat) (j : Nat) : (d.put f i v j).snap = d.snap := rfl
@[simp] theorem Dev.put_tabs (d : Dev) (f : Fld) (i : Nat) (v : Nat) (j : Nat) : (d.put f i v j).tabs = d.tabs := rfl
@[simp] theorem Dev.put_tabSh (d : Dev) (f : Fld) (i : Nat) (v : Nat) (j : Nat) : (d.put f i v j).tabSh = d.tabSh := rfl
@[simp] theorem Dev.put_tabPrev (d : Dev) (f : Fld) (i : Nat) (v : Nat) (j : Nat) : (d.put f i v j).tabPrev = d.tabPrev := rfl
@[simp] theorem Dev.put_tabUe (d : Dev) (f : Fld) (i : Nat) (v : Nat) (j : Nat) : (d.put f i v j).tabUe = d.tabUe := rfl
@[simp] theorem Dev.put_tabUeSh (d : Dev) (f : Fld) (i : Nat) (v : Nat) (j : Nat) : (d.put f i v j).tabUeSh = d.tabUeSh := rfl
@[simp] theorem Dev.put_tabUePrev (d : Dev) (f : Fld) (i : Nat) (v : Nat) (j : Nat) : (d.put f i v j).tabUePrev = d.tabUePrev := rfl
@[simp] theorem Dev.put_tabUeSeen (d : Dev) (f : Fld) (i : Nat) (v : Nat) (j : Nat) : (d.put f i v j).tabUeSeen = d.tabUeSeen := rfl
@[simp] theorem Dev.put_ctl (d : Dev) (f : Fld) (i : Nat) (v : Nat) (j : Nat) : (d.put f i v j).ctl = d.ctl := rfl
@[simp] theorem Dev.put_flt (d : Dev) (f : Fld) (i : Nat) (v : Nat) (j : Nat) : (d.put f i v j).flt = d.flt := rfl
@[simp] theorem Dev.put_obs (d : Dev) (f : Fld) (i : Nat) (v : Nat) (j : Nat) : (d.put f i v j).obs = d.obs := rfl
@[simp] theorem Dev.put_octets (d : Dev) (f : Fld) (i : Nat) (v : Nat) (j : Nat) : (d.put f i v j).octets = d.octets := rfl
@[simp] theorem Dev.put_ports (d : Dev) (f : Fld) (i : Nat) (v : Nat) (j : Nat) : (d.put f i v j).ports = d.ports := rfl
@[simp] theorem Dev.put_links (d : Dev) (f : Fld) (i : Nat) (v : Nat) (j : Nat) : (d.put f i v j).links = d.links := rfl
@[simp] theorem Dev.put_core (d : Dev) (f : Fld) (i : Nat) (v : Nat) (j : Nat) : (d.put f i v j).core = d.core := rfl
@[simp] theorem Dev.put_coh (d : Dev) (f : Fld) (i : Nat) (v : Nat) (j : Nat) : (d.put f i v j).coh = d.coh := rfl
@[simp] theorem Dev.put_ldr (d : Dev) (f : Fld) (i : Nat) (v : Nat) (j : Nat) : (d.put f i v j).ldr = d.ldr := rfl
@[simp] theorem Dev.put_dmv (d : Dev) (f : Fld) (i : Nat) (v : Nat) (j : Nat) : (d.put f i v j).dmv = d.dmv := rfl
@[simp] theorem Dev.put_traf (d : Dev) (f : Fld) (i : Nat) (v : Nat) (j : Nat) : (d.put f i v j).traf = d.traf := rfl
@[simp] theorem Dev.put_prot (d : Dev) (f : Fld) (i : Nat) (v : Nat) (j : Nat) : (d.put f i v j).prot = d.prot := rfl
@[simp] theorem Dev.put_slots (d : Dev) (f : Fld) (i : Nat) (v : Nat) (j : Nat) : (d.put f i v j).slots = d.slots := rfl
@[simp] theorem Dev.put_prf (d : Dev) (f : Fld) (i : Nat) (v : Nat) (j : Nat) : (d.put f i v j).prf = d.prf := rfl
@[simp] theorem Dev.put_sec (d : Dev) (f : Fld) (i : Nat) (v : Nat) (j : Nat) : (d.put f i v j).sec = d.sec := rfl
@[simp] theorem Dev.put_rst (d : Dev) (f : Fld) (i : Nat) (v : Nat) (j : Nat) : (d.put f i v j).rst = d.rst := rfl
@[simp] theorem Dev.put_elec (d : Dev) (f : Fld) (i : Nat) (v : Nat) (j : Nat) : (d.put f i v j).elec = d.elec := rfl
@[simp] theorem Dev.put_free (d : Dev) (f : Fld) (i : Nat) (v : Nat) (j : Nat) : (d.put f i v j).free = d.free := rfl
@[simp] theorem Dev.put_out (d : Dev) (f : Fld) (i : Nat) (v : Nat) (j : Nat) : (d.put f i v j).out = d.out := rfl

/-! ## setShWord -/

@[simp] theorem Dev.setShWord_regs (d : Dev) (r : Reg) (i : Nat) (w : W64) (j : Nat) : (d.setShWord r i w j).regs = d.regs := rfl
@[simp] theorem Dev.setShWord_prev (d : Dev) (r : Reg) (i : Nat) (w : W64) (j : Nat) : (d.setShWord r i w j).prev = d.prev := rfl
@[simp] theorem Dev.setShWord_snap (d : Dev) (r : Reg) (i : Nat) (w : W64) (j : Nat) : (d.setShWord r i w j).snap = d.snap := rfl
@[simp] theorem Dev.setShWord_tabs (d : Dev) (r : Reg) (i : Nat) (w : W64) (j : Nat) : (d.setShWord r i w j).tabs = d.tabs := rfl
@[simp] theorem Dev.setShWord_tabSh (d : Dev) (r : Reg) (i : Nat) (w : W64) (j : Nat) : (d.setShWord r i w j).tabSh = d.tabSh := rfl
@[simp] theorem Dev.setShWord_tabPrev (d : Dev) (r : Reg) (i : Nat) (w : W64) (j : Nat) : (d.setShWord r i w j).tabPrev = d.tabPrev := rfl
@[simp] theorem Dev.setShWord_tabUe (d : Dev) (r : Reg) (i : Nat) (w : W64) (j : Nat) : (d.setShWord r i w j).tabUe = d.tabUe := rfl
@[simp] theorem Dev.setShWord_tabUeSh (d : Dev) (r : Reg) (i : Nat) (w : W64) (j : Nat) : (d.setShWord r i w j).tabUeSh = d.tabUeSh := rfl
@[simp] theorem Dev.setShWord_tabUePrev (d : Dev) (r : Reg) (i : Nat) (w : W64) (j : Nat) : (d.setShWord r i w j).tabUePrev = d.tabUePrev := rfl
@[simp] theorem Dev.setShWord_tabUeSeen (d : Dev) (r : Reg) (i : Nat) (w : W64) (j : Nat) : (d.setShWord r i w j).tabUeSeen = d.tabUeSeen := rfl
@[simp] theorem Dev.setShWord_ctl (d : Dev) (r : Reg) (i : Nat) (w : W64) (j : Nat) : (d.setShWord r i w j).ctl = d.ctl := rfl
@[simp] theorem Dev.setShWord_flt (d : Dev) (r : Reg) (i : Nat) (w : W64) (j : Nat) : (d.setShWord r i w j).flt = d.flt := rfl
@[simp] theorem Dev.setShWord_obs (d : Dev) (r : Reg) (i : Nat) (w : W64) (j : Nat) : (d.setShWord r i w j).obs = d.obs := rfl
@[simp] theorem Dev.setShWord_octets (d : Dev) (r : Reg) (i : Nat) (w : W64) (j : Nat) : (d.setShWord r i w j).octets = d.octets := rfl
@[simp] theorem Dev.setShWord_ports (d : Dev) (r : Reg) (i : Nat) (w : W64) (j : Nat) : (d.setShWord r i w j).ports = d.ports := rfl
@[simp] theorem Dev.setShWord_links (d : Dev) (r : Reg) (i : Nat) (w : W64) (j : Nat) : (d.setShWord r i w j).links = d.links := rfl
@[simp] theorem Dev.setShWord_core (d : Dev) (r : Reg) (i : Nat) (w : W64) (j : Nat) : (d.setShWord r i w j).core = d.core := rfl
@[simp] theorem Dev.setShWord_coh (d : Dev) (r : Reg) (i : Nat) (w : W64) (j : Nat) : (d.setShWord r i w j).coh = d.coh := rfl
@[simp] theorem Dev.setShWord_ldr (d : Dev) (r : Reg) (i : Nat) (w : W64) (j : Nat) : (d.setShWord r i w j).ldr = d.ldr := rfl
@[simp] theorem Dev.setShWord_dmv (d : Dev) (r : Reg) (i : Nat) (w : W64) (j : Nat) : (d.setShWord r i w j).dmv = d.dmv := rfl
@[simp] theorem Dev.setShWord_traf (d : Dev) (r : Reg) (i : Nat) (w : W64) (j : Nat) : (d.setShWord r i w j).traf = d.traf := rfl
@[simp] theorem Dev.setShWord_prot (d : Dev) (r : Reg) (i : Nat) (w : W64) (j : Nat) : (d.setShWord r i w j).prot = d.prot := rfl
@[simp] theorem Dev.setShWord_slots (d : Dev) (r : Reg) (i : Nat) (w : W64) (j : Nat) : (d.setShWord r i w j).slots = d.slots := rfl
@[simp] theorem Dev.setShWord_prf (d : Dev) (r : Reg) (i : Nat) (w : W64) (j : Nat) : (d.setShWord r i w j).prf = d.prf := rfl
@[simp] theorem Dev.setShWord_sec (d : Dev) (r : Reg) (i : Nat) (w : W64) (j : Nat) : (d.setShWord r i w j).sec = d.sec := rfl
@[simp] theorem Dev.setShWord_rst (d : Dev) (r : Reg) (i : Nat) (w : W64) (j : Nat) : (d.setShWord r i w j).rst = d.rst := rfl
@[simp] theorem Dev.setShWord_elec (d : Dev) (r : Reg) (i : Nat) (w : W64) (j : Nat) : (d.setShWord r i w j).elec = d.elec := rfl
@[simp] theorem Dev.setShWord_free (d : Dev) (r : Reg) (i : Nat) (w : W64) (j : Nat) : (d.setShWord r i w j).free = d.free := rfl
@[simp] theorem Dev.setShWord_out (d : Dev) (r : Reg) (i : Nat) (w : W64) (j : Nat) : (d.setShWord r i w j).out = d.out := rfl

/-! ## putSh -/

@[simp] theorem Dev.putSh_regs (d : Dev) (f : Fld) (i : Nat) (v : Nat) (j : Nat) : (d.putSh f i v j).regs = d.regs := rfl
@[simp] theorem Dev.putSh_prev (d : Dev) (f : Fld) (i : Nat) (v : Nat) (j : Nat) : (d.putSh f i v j).prev = d.prev := rfl
@[simp] theorem Dev.putSh_snap (d : Dev) (f : Fld) (i : Nat) (v : Nat) (j : Nat) : (d.putSh f i v j).snap = d.snap := rfl
@[simp] theorem Dev.putSh_tabs (d : Dev) (f : Fld) (i : Nat) (v : Nat) (j : Nat) : (d.putSh f i v j).tabs = d.tabs := rfl
@[simp] theorem Dev.putSh_tabSh (d : Dev) (f : Fld) (i : Nat) (v : Nat) (j : Nat) : (d.putSh f i v j).tabSh = d.tabSh := rfl
@[simp] theorem Dev.putSh_tabPrev (d : Dev) (f : Fld) (i : Nat) (v : Nat) (j : Nat) : (d.putSh f i v j).tabPrev = d.tabPrev := rfl
@[simp] theorem Dev.putSh_tabUe (d : Dev) (f : Fld) (i : Nat) (v : Nat) (j : Nat) : (d.putSh f i v j).tabUe = d.tabUe := rfl
@[simp] theorem Dev.putSh_tabUeSh (d : Dev) (f : Fld) (i : Nat) (v : Nat) (j : Nat) : (d.putSh f i v j).tabUeSh = d.tabUeSh := rfl
@[simp] theorem Dev.putSh_tabUePrev (d : Dev) (f : Fld) (i : Nat) (v : Nat) (j : Nat) : (d.putSh f i v j).tabUePrev = d.tabUePrev := rfl
@[simp] theorem Dev.putSh_tabUeSeen (d : Dev) (f : Fld) (i : Nat) (v : Nat) (j : Nat) : (d.putSh f i v j).tabUeSeen = d.tabUeSeen := rfl
@[simp] theorem Dev.putSh_ctl (d : Dev) (f : Fld) (i : Nat) (v : Nat) (j : Nat) : (d.putSh f i v j).ctl = d.ctl := rfl
@[simp] theorem Dev.putSh_flt (d : Dev) (f : Fld) (i : Nat) (v : Nat) (j : Nat) : (d.putSh f i v j).flt = d.flt := rfl
@[simp] theorem Dev.putSh_obs (d : Dev) (f : Fld) (i : Nat) (v : Nat) (j : Nat) : (d.putSh f i v j).obs = d.obs := rfl
@[simp] theorem Dev.putSh_octets (d : Dev) (f : Fld) (i : Nat) (v : Nat) (j : Nat) : (d.putSh f i v j).octets = d.octets := rfl
@[simp] theorem Dev.putSh_ports (d : Dev) (f : Fld) (i : Nat) (v : Nat) (j : Nat) : (d.putSh f i v j).ports = d.ports := rfl
@[simp] theorem Dev.putSh_links (d : Dev) (f : Fld) (i : Nat) (v : Nat) (j : Nat) : (d.putSh f i v j).links = d.links := rfl
@[simp] theorem Dev.putSh_core (d : Dev) (f : Fld) (i : Nat) (v : Nat) (j : Nat) : (d.putSh f i v j).core = d.core := rfl
@[simp] theorem Dev.putSh_coh (d : Dev) (f : Fld) (i : Nat) (v : Nat) (j : Nat) : (d.putSh f i v j).coh = d.coh := rfl
@[simp] theorem Dev.putSh_ldr (d : Dev) (f : Fld) (i : Nat) (v : Nat) (j : Nat) : (d.putSh f i v j).ldr = d.ldr := rfl
@[simp] theorem Dev.putSh_dmv (d : Dev) (f : Fld) (i : Nat) (v : Nat) (j : Nat) : (d.putSh f i v j).dmv = d.dmv := rfl
@[simp] theorem Dev.putSh_traf (d : Dev) (f : Fld) (i : Nat) (v : Nat) (j : Nat) : (d.putSh f i v j).traf = d.traf := rfl
@[simp] theorem Dev.putSh_prot (d : Dev) (f : Fld) (i : Nat) (v : Nat) (j : Nat) : (d.putSh f i v j).prot = d.prot := rfl
@[simp] theorem Dev.putSh_slots (d : Dev) (f : Fld) (i : Nat) (v : Nat) (j : Nat) : (d.putSh f i v j).slots = d.slots := rfl
@[simp] theorem Dev.putSh_prf (d : Dev) (f : Fld) (i : Nat) (v : Nat) (j : Nat) : (d.putSh f i v j).prf = d.prf := rfl
@[simp] theorem Dev.putSh_sec (d : Dev) (f : Fld) (i : Nat) (v : Nat) (j : Nat) : (d.putSh f i v j).sec = d.sec := rfl
@[simp] theorem Dev.putSh_rst (d : Dev) (f : Fld) (i : Nat) (v : Nat) (j : Nat) : (d.putSh f i v j).rst = d.rst := rfl
@[simp] theorem Dev.putSh_elec (d : Dev) (f : Fld) (i : Nat) (v : Nat) (j : Nat) : (d.putSh f i v j).elec = d.elec := rfl
@[simp] theorem Dev.putSh_free (d : Dev) (f : Fld) (i : Nat) (v : Nat) (j : Nat) : (d.putSh f i v j).free = d.free := rfl
@[simp] theorem Dev.putSh_out (d : Dev) (f : Fld) (i : Nat) (v : Nat) (j : Nat) : (d.putSh f i v j).out = d.out := rfl

/-! ## setTab -/

@[simp] theorem Dev.setTab_regs (d : Dev) (t inst index w : Nat) (v : W64) : (d.setTab t inst index w v).regs = d.regs := rfl
@[simp] theorem Dev.setTab_shadow (d : Dev) (t inst index w : Nat) (v : W64) : (d.setTab t inst index w v).shadow = d.shadow := rfl
@[simp] theorem Dev.setTab_prev (d : Dev) (t inst index w : Nat) (v : W64) : (d.setTab t inst index w v).prev = d.prev := rfl
@[simp] theorem Dev.setTab_snap (d : Dev) (t inst index w : Nat) (v : W64) : (d.setTab t inst index w v).snap = d.snap := rfl
@[simp] theorem Dev.setTab_tabSh (d : Dev) (t inst index w : Nat) (v : W64) : (d.setTab t inst index w v).tabSh = d.tabSh := rfl
@[simp] theorem Dev.setTab_tabPrev (d : Dev) (t inst index w : Nat) (v : W64) : (d.setTab t inst index w v).tabPrev = d.tabPrev := rfl
@[simp] theorem Dev.setTab_tabUe (d : Dev) (t inst index w : Nat) (v : W64) : (d.setTab t inst index w v).tabUe = d.tabUe := rfl
@[simp] theorem Dev.setTab_tabUeSh (d : Dev) (t inst index w : Nat) (v : W64) : (d.setTab t inst index w v).tabUeSh = d.tabUeSh := rfl
@[simp] theorem Dev.setTab_tabUePrev (d : Dev) (t inst index w : Nat) (v : W64) : (d.setTab t inst index w v).tabUePrev = d.tabUePrev := rfl
@[simp] theorem Dev.setTab_tabUeSeen (d : Dev) (t inst index w : Nat) (v : W64) : (d.setTab t inst index w v).tabUeSeen = d.tabUeSeen := rfl
@[simp] theorem Dev.setTab_ctl (d : Dev) (t inst index w : Nat) (v : W64) : (d.setTab t inst index w v).ctl = d.ctl := rfl
@[simp] theorem Dev.setTab_flt (d : Dev) (t inst index w : Nat) (v : W64) : (d.setTab t inst index w v).flt = d.flt := rfl
@[simp] theorem Dev.setTab_obs (d : Dev) (t inst index w : Nat) (v : W64) : (d.setTab t inst index w v).obs = d.obs := rfl
@[simp] theorem Dev.setTab_octets (d : Dev) (t inst index w : Nat) (v : W64) : (d.setTab t inst index w v).octets = d.octets := rfl
@[simp] theorem Dev.setTab_ports (d : Dev) (t inst index w : Nat) (v : W64) : (d.setTab t inst index w v).ports = d.ports := rfl
@[simp] theorem Dev.setTab_links (d : Dev) (t inst index w : Nat) (v : W64) : (d.setTab t inst index w v).links = d.links := rfl
@[simp] theorem Dev.setTab_core (d : Dev) (t inst index w : Nat) (v : W64) : (d.setTab t inst index w v).core = d.core := rfl
@[simp] theorem Dev.setTab_coh (d : Dev) (t inst index w : Nat) (v : W64) : (d.setTab t inst index w v).coh = d.coh := rfl
@[simp] theorem Dev.setTab_ldr (d : Dev) (t inst index w : Nat) (v : W64) : (d.setTab t inst index w v).ldr = d.ldr := rfl
@[simp] theorem Dev.setTab_dmv (d : Dev) (t inst index w : Nat) (v : W64) : (d.setTab t inst index w v).dmv = d.dmv := rfl
@[simp] theorem Dev.setTab_traf (d : Dev) (t inst index w : Nat) (v : W64) : (d.setTab t inst index w v).traf = d.traf := rfl
@[simp] theorem Dev.setTab_prot (d : Dev) (t inst index w : Nat) (v : W64) : (d.setTab t inst index w v).prot = d.prot := rfl
@[simp] theorem Dev.setTab_slots (d : Dev) (t inst index w : Nat) (v : W64) : (d.setTab t inst index w v).slots = d.slots := rfl
@[simp] theorem Dev.setTab_prf (d : Dev) (t inst index w : Nat) (v : W64) : (d.setTab t inst index w v).prf = d.prf := rfl
@[simp] theorem Dev.setTab_sec (d : Dev) (t inst index w : Nat) (v : W64) : (d.setTab t inst index w v).sec = d.sec := rfl
@[simp] theorem Dev.setTab_rst (d : Dev) (t inst index w : Nat) (v : W64) : (d.setTab t inst index w v).rst = d.rst := rfl
@[simp] theorem Dev.setTab_elec (d : Dev) (t inst index w : Nat) (v : W64) : (d.setTab t inst index w v).elec = d.elec := rfl
@[simp] theorem Dev.setTab_free (d : Dev) (t inst index w : Nat) (v : W64) : (d.setTab t inst index w v).free = d.free := rfl
@[simp] theorem Dev.setTab_out (d : Dev) (t inst index w : Nat) (v : W64) : (d.setTab t inst index w v).out = d.out := rfl

/-! ## setTabS -/

@[simp] theorem Dev.setTabS_regs (d : Dev) (t inst index w : Nat) (v : W64) : (d.setTabS t inst index w v).regs = d.regs := rfl
@[simp] theorem Dev.setTabS_shadow (d : Dev) (t inst index w : Nat) (v : W64) : (d.setTabS t inst index w v).shadow = d.shadow := rfl
@[simp] theorem Dev.setTabS_prev (d : Dev) (t inst index w : Nat) (v : W64) : (d.setTabS t inst index w v).prev = d.prev := rfl
@[simp] theorem Dev.setTabS_snap (d : Dev) (t inst index w : Nat) (v : W64) : (d.setTabS t inst index w v).snap = d.snap := rfl
@[simp] theorem Dev.setTabS_tabs (d : Dev) (t inst index w : Nat) (v : W64) : (d.setTabS t inst index w v).tabs = d.tabs := rfl
@[simp] theorem Dev.setTabS_tabPrev (d : Dev) (t inst index w : Nat) (v : W64) : (d.setTabS t inst index w v).tabPrev = d.tabPrev := rfl
@[simp] theorem Dev.setTabS_tabUe (d : Dev) (t inst index w : Nat) (v : W64) : (d.setTabS t inst index w v).tabUe = d.tabUe := rfl
@[simp] theorem Dev.setTabS_tabUeSh (d : Dev) (t inst index w : Nat) (v : W64) : (d.setTabS t inst index w v).tabUeSh = d.tabUeSh := rfl
@[simp] theorem Dev.setTabS_tabUePrev (d : Dev) (t inst index w : Nat) (v : W64) : (d.setTabS t inst index w v).tabUePrev = d.tabUePrev := rfl
@[simp] theorem Dev.setTabS_tabUeSeen (d : Dev) (t inst index w : Nat) (v : W64) : (d.setTabS t inst index w v).tabUeSeen = d.tabUeSeen := rfl
@[simp] theorem Dev.setTabS_ctl (d : Dev) (t inst index w : Nat) (v : W64) : (d.setTabS t inst index w v).ctl = d.ctl := rfl
@[simp] theorem Dev.setTabS_flt (d : Dev) (t inst index w : Nat) (v : W64) : (d.setTabS t inst index w v).flt = d.flt := rfl
@[simp] theorem Dev.setTabS_obs (d : Dev) (t inst index w : Nat) (v : W64) : (d.setTabS t inst index w v).obs = d.obs := rfl
@[simp] theorem Dev.setTabS_octets (d : Dev) (t inst index w : Nat) (v : W64) : (d.setTabS t inst index w v).octets = d.octets := rfl
@[simp] theorem Dev.setTabS_ports (d : Dev) (t inst index w : Nat) (v : W64) : (d.setTabS t inst index w v).ports = d.ports := rfl
@[simp] theorem Dev.setTabS_links (d : Dev) (t inst index w : Nat) (v : W64) : (d.setTabS t inst index w v).links = d.links := rfl
@[simp] theorem Dev.setTabS_core (d : Dev) (t inst index w : Nat) (v : W64) : (d.setTabS t inst index w v).core = d.core := rfl
@[simp] theorem Dev.setTabS_coh (d : Dev) (t inst index w : Nat) (v : W64) : (d.setTabS t inst index w v).coh = d.coh := rfl
@[simp] theorem Dev.setTabS_ldr (d : Dev) (t inst index w : Nat) (v : W64) : (d.setTabS t inst index w v).ldr = d.ldr := rfl
@[simp] theorem Dev.setTabS_dmv (d : Dev) (t inst index w : Nat) (v : W64) : (d.setTabS t inst index w v).dmv = d.dmv := rfl
@[simp] theorem Dev.setTabS_traf (d : Dev) (t inst index w : Nat) (v : W64) : (d.setTabS t inst index w v).traf = d.traf := rfl
@[simp] theorem Dev.setTabS_prot (d : Dev) (t inst index w : Nat) (v : W64) : (d.setTabS t inst index w v).prot = d.prot := rfl
@[simp] theorem Dev.setTabS_slots (d : Dev) (t inst index w : Nat) (v : W64) : (d.setTabS t inst index w v).slots = d.slots := rfl
@[simp] theorem Dev.setTabS_prf (d : Dev) (t inst index w : Nat) (v : W64) : (d.setTabS t inst index w v).prf = d.prf := rfl
@[simp] theorem Dev.setTabS_sec (d : Dev) (t inst index w : Nat) (v : W64) : (d.setTabS t inst index w v).sec = d.sec := rfl
@[simp] theorem Dev.setTabS_rst (d : Dev) (t inst index w : Nat) (v : W64) : (d.setTabS t inst index w v).rst = d.rst := rfl
@[simp] theorem Dev.setTabS_elec (d : Dev) (t inst index w : Nat) (v : W64) : (d.setTabS t inst index w v).elec = d.elec := rfl
@[simp] theorem Dev.setTabS_free (d : Dev) (t inst index w : Nat) (v : W64) : (d.setTabS t inst index w v).free = d.free := rfl
@[simp] theorem Dev.setTabS_out (d : Dev) (t inst index w : Nat) (v : W64) : (d.setTabS t inst index w v).out = d.out := rfl

/-! ## endFlight -/

@[simp] theorem Dev.endFlight_regs (d : Dev) (n : Nat) : (d.endFlight n).regs = d.regs := rfl
@[simp] theorem Dev.endFlight_shadow (d : Dev) (n : Nat) : (d.endFlight n).shadow = d.shadow := rfl
@[simp] theorem Dev.endFlight_prev (d : Dev) (n : Nat) : (d.endFlight n).prev = d.prev := rfl
@[simp] theorem Dev.endFlight_snap (d : Dev) (n : Nat) : (d.endFlight n).snap = d.snap := rfl
@[simp] theorem Dev.endFlight_tabs (d : Dev) (n : Nat) : (d.endFlight n).tabs = d.tabs := rfl
@[simp] theorem Dev.endFlight_tabSh (d : Dev) (n : Nat) : (d.endFlight n).tabSh = d.tabSh := rfl
@[simp] theorem Dev.endFlight_tabPrev (d : Dev) (n : Nat) : (d.endFlight n).tabPrev = d.tabPrev := rfl
@[simp] theorem Dev.endFlight_tabUe (d : Dev) (n : Nat) : (d.endFlight n).tabUe = d.tabUe := rfl
@[simp] theorem Dev.endFlight_tabUeSh (d : Dev) (n : Nat) : (d.endFlight n).tabUeSh = d.tabUeSh := rfl
@[simp] theorem Dev.endFlight_tabUePrev (d : Dev) (n : Nat) : (d.endFlight n).tabUePrev = d.tabUePrev := rfl
@[simp] theorem Dev.endFlight_tabUeSeen (d : Dev) (n : Nat) : (d.endFlight n).tabUeSeen = d.tabUeSeen := rfl
@[simp] theorem Dev.endFlight_flt (d : Dev) (n : Nat) : (d.endFlight n).flt = d.flt := rfl
@[simp] theorem Dev.endFlight_obs (d : Dev) (n : Nat) : (d.endFlight n).obs = d.obs := rfl
@[simp] theorem Dev.endFlight_octets (d : Dev) (n : Nat) : (d.endFlight n).octets = d.octets := rfl
@[simp] theorem Dev.endFlight_ports (d : Dev) (n : Nat) : (d.endFlight n).ports = d.ports := rfl
@[simp] theorem Dev.endFlight_links (d : Dev) (n : Nat) : (d.endFlight n).links = d.links := rfl
@[simp] theorem Dev.endFlight_core (d : Dev) (n : Nat) : (d.endFlight n).core = d.core := rfl
@[simp] theorem Dev.endFlight_coh (d : Dev) (n : Nat) : (d.endFlight n).coh = d.coh := rfl
@[simp] theorem Dev.endFlight_ldr (d : Dev) (n : Nat) : (d.endFlight n).ldr = d.ldr := rfl
@[simp] theorem Dev.endFlight_dmv (d : Dev) (n : Nat) : (d.endFlight n).dmv = d.dmv := rfl
@[simp] theorem Dev.endFlight_traf (d : Dev) (n : Nat) : (d.endFlight n).traf = d.traf := rfl
@[simp] theorem Dev.endFlight_prot (d : Dev) (n : Nat) : (d.endFlight n).prot = d.prot := rfl
@[simp] theorem Dev.endFlight_slots (d : Dev) (n : Nat) : (d.endFlight n).slots = d.slots := rfl
@[simp] theorem Dev.endFlight_prf (d : Dev) (n : Nat) : (d.endFlight n).prf = d.prf := rfl
@[simp] theorem Dev.endFlight_sec (d : Dev) (n : Nat) : (d.endFlight n).sec = d.sec := rfl
@[simp] theorem Dev.endFlight_rst (d : Dev) (n : Nat) : (d.endFlight n).rst = d.rst := rfl
@[simp] theorem Dev.endFlight_elec (d : Dev) (n : Nat) : (d.endFlight n).elec = d.elec := rfl
@[simp] theorem Dev.endFlight_free (d : Dev) (n : Nat) : (d.endFlight n).free = d.free := rfl
@[simp] theorem Dev.endFlight_out (d : Dev) (n : Nat) : (d.endFlight n).out = d.out := rfl

/-! ## restamp -/

@[simp] theorem Dev.restamp_regs (d : Dev) (n : Nat) : (d.restamp n).regs = d.regs := rfl
@[simp] theorem Dev.restamp_shadow (d : Dev) (n : Nat) : (d.restamp n).shadow = d.shadow := rfl
@[simp] theorem Dev.restamp_prev (d : Dev) (n : Nat) : (d.restamp n).prev = d.prev := rfl
@[simp] theorem Dev.restamp_snap (d : Dev) (n : Nat) : (d.restamp n).snap = d.snap := rfl
@[simp] theorem Dev.restamp_tabs (d : Dev) (n : Nat) : (d.restamp n).tabs = d.tabs := rfl
@[simp] theorem Dev.restamp_tabSh (d : Dev) (n : Nat) : (d.restamp n).tabSh = d.tabSh := rfl
@[simp] theorem Dev.restamp_tabPrev (d : Dev) (n : Nat) : (d.restamp n).tabPrev = d.tabPrev := rfl
@[simp] theorem Dev.restamp_tabUe (d : Dev) (n : Nat) : (d.restamp n).tabUe = d.tabUe := rfl
@[simp] theorem Dev.restamp_tabUeSh (d : Dev) (n : Nat) : (d.restamp n).tabUeSh = d.tabUeSh := rfl
@[simp] theorem Dev.restamp_tabUePrev (d : Dev) (n : Nat) : (d.restamp n).tabUePrev = d.tabUePrev := rfl
@[simp] theorem Dev.restamp_tabUeSeen (d : Dev) (n : Nat) : (d.restamp n).tabUeSeen = d.tabUeSeen := rfl
@[simp] theorem Dev.restamp_flt (d : Dev) (n : Nat) : (d.restamp n).flt = d.flt := rfl
@[simp] theorem Dev.restamp_obs (d : Dev) (n : Nat) : (d.restamp n).obs = d.obs := rfl
@[simp] theorem Dev.restamp_octets (d : Dev) (n : Nat) : (d.restamp n).octets = d.octets := rfl
@[simp] theorem Dev.restamp_ports (d : Dev) (n : Nat) : (d.restamp n).ports = d.ports := rfl
@[simp] theorem Dev.restamp_links (d : Dev) (n : Nat) : (d.restamp n).links = d.links := rfl
@[simp] theorem Dev.restamp_core (d : Dev) (n : Nat) : (d.restamp n).core = d.core := rfl
@[simp] theorem Dev.restamp_coh (d : Dev) (n : Nat) : (d.restamp n).coh = d.coh := rfl
@[simp] theorem Dev.restamp_ldr (d : Dev) (n : Nat) : (d.restamp n).ldr = d.ldr := rfl
@[simp] theorem Dev.restamp_dmv (d : Dev) (n : Nat) : (d.restamp n).dmv = d.dmv := rfl
@[simp] theorem Dev.restamp_traf (d : Dev) (n : Nat) : (d.restamp n).traf = d.traf := rfl
@[simp] theorem Dev.restamp_prot (d : Dev) (n : Nat) : (d.restamp n).prot = d.prot := rfl
@[simp] theorem Dev.restamp_slots (d : Dev) (n : Nat) : (d.restamp n).slots = d.slots := rfl
@[simp] theorem Dev.restamp_prf (d : Dev) (n : Nat) : (d.restamp n).prf = d.prf := rfl
@[simp] theorem Dev.restamp_sec (d : Dev) (n : Nat) : (d.restamp n).sec = d.sec := rfl
@[simp] theorem Dev.restamp_rst (d : Dev) (n : Nat) : (d.restamp n).rst = d.rst := rfl
@[simp] theorem Dev.restamp_elec (d : Dev) (n : Nat) : (d.restamp n).elec = d.elec := rfl
@[simp] theorem Dev.restamp_free (d : Dev) (n : Nat) : (d.restamp n).free = d.free := rfl
@[simp] theorem Dev.restamp_out (d : Dev) (n : Nat) : (d.restamp n).out = d.out := rfl

/-! ## addQuar -/

@[simp] theorem Dev.addQuar_regs (d : Dev) (e : Elem) : (d.addQuar e).regs = d.regs := rfl
@[simp] theorem Dev.addQuar_shadow (d : Dev) (e : Elem) : (d.addQuar e).shadow = d.shadow := rfl
@[simp] theorem Dev.addQuar_prev (d : Dev) (e : Elem) : (d.addQuar e).prev = d.prev := rfl
@[simp] theorem Dev.addQuar_snap (d : Dev) (e : Elem) : (d.addQuar e).snap = d.snap := rfl
@[simp] theorem Dev.addQuar_tabs (d : Dev) (e : Elem) : (d.addQuar e).tabs = d.tabs := rfl
@[simp] theorem Dev.addQuar_tabSh (d : Dev) (e : Elem) : (d.addQuar e).tabSh = d.tabSh := rfl
@[simp] theorem Dev.addQuar_tabPrev (d : Dev) (e : Elem) : (d.addQuar e).tabPrev = d.tabPrev := rfl
@[simp] theorem Dev.addQuar_tabUe (d : Dev) (e : Elem) : (d.addQuar e).tabUe = d.tabUe := rfl
@[simp] theorem Dev.addQuar_tabUeSh (d : Dev) (e : Elem) : (d.addQuar e).tabUeSh = d.tabUeSh := rfl
@[simp] theorem Dev.addQuar_tabUePrev (d : Dev) (e : Elem) : (d.addQuar e).tabUePrev = d.tabUePrev := rfl
@[simp] theorem Dev.addQuar_tabUeSeen (d : Dev) (e : Elem) : (d.addQuar e).tabUeSeen = d.tabUeSeen := rfl
@[simp] theorem Dev.addQuar_ctl (d : Dev) (e : Elem) : (d.addQuar e).ctl = d.ctl := rfl
@[simp] theorem Dev.addQuar_obs (d : Dev) (e : Elem) : (d.addQuar e).obs = d.obs := rfl
@[simp] theorem Dev.addQuar_octets (d : Dev) (e : Elem) : (d.addQuar e).octets = d.octets := rfl
@[simp] theorem Dev.addQuar_ports (d : Dev) (e : Elem) : (d.addQuar e).ports = d.ports := rfl
@[simp] theorem Dev.addQuar_links (d : Dev) (e : Elem) : (d.addQuar e).links = d.links := rfl
@[simp] theorem Dev.addQuar_core (d : Dev) (e : Elem) : (d.addQuar e).core = d.core := rfl
@[simp] theorem Dev.addQuar_coh (d : Dev) (e : Elem) : (d.addQuar e).coh = d.coh := rfl
@[simp] theorem Dev.addQuar_ldr (d : Dev) (e : Elem) : (d.addQuar e).ldr = d.ldr := rfl
@[simp] theorem Dev.addQuar_dmv (d : Dev) (e : Elem) : (d.addQuar e).dmv = d.dmv := rfl
@[simp] theorem Dev.addQuar_traf (d : Dev) (e : Elem) : (d.addQuar e).traf = d.traf := rfl
@[simp] theorem Dev.addQuar_prot (d : Dev) (e : Elem) : (d.addQuar e).prot = d.prot := rfl
@[simp] theorem Dev.addQuar_slots (d : Dev) (e : Elem) : (d.addQuar e).slots = d.slots := rfl
@[simp] theorem Dev.addQuar_prf (d : Dev) (e : Elem) : (d.addQuar e).prf = d.prf := rfl
@[simp] theorem Dev.addQuar_sec (d : Dev) (e : Elem) : (d.addQuar e).sec = d.sec := rfl
@[simp] theorem Dev.addQuar_rst (d : Dev) (e : Elem) : (d.addQuar e).rst = d.rst := rfl
@[simp] theorem Dev.addQuar_elec (d : Dev) (e : Elem) : (d.addQuar e).elec = d.elec := rfl
@[simp] theorem Dev.addQuar_free (d : Dev) (e : Elem) : (d.addQuar e).free = d.free := rfl
@[simp] theorem Dev.addQuar_out (d : Dev) (e : Elem) : (d.addQuar e).out = d.out := rfl

/-! ## endQuar -/

@[simp] theorem Dev.endQuar_regs (d : Dev) (e : Elem) : (d.endQuar e).regs = d.regs := rfl
@[simp] theorem Dev.endQuar_shadow (d : Dev) (e : Elem) : (d.endQuar e).shadow = d.shadow := rfl
@[simp] theorem Dev.endQuar_prev (d : Dev) (e : Elem) : (d.endQuar e).prev = d.prev := rfl
@[simp] theorem Dev.endQuar_snap (d : Dev) (e : Elem) : (d.endQuar e).snap = d.snap := rfl
@[simp] theorem Dev.endQuar_tabs (d : Dev) (e : Elem) : (d.endQuar e).tabs = d.tabs := rfl
@[simp] theorem Dev.endQuar_tabSh (d : Dev) (e : Elem) : (d.endQuar e).tabSh = d.tabSh := rfl
@[simp] theorem Dev.endQuar_tabPrev (d : Dev) (e : Elem) : (d.endQuar e).tabPrev = d.tabPrev := rfl
@[simp] theorem Dev.endQuar_tabUe (d : Dev) (e : Elem) : (d.endQuar e).tabUe = d.tabUe := rfl
@[simp] theorem Dev.endQuar_tabUeSh (d : Dev) (e : Elem) : (d.endQuar e).tabUeSh = d.tabUeSh := rfl
@[simp] theorem Dev.endQuar_tabUePrev (d : Dev) (e : Elem) : (d.endQuar e).tabUePrev = d.tabUePrev := rfl
@[simp] theorem Dev.endQuar_tabUeSeen (d : Dev) (e : Elem) : (d.endQuar e).tabUeSeen = d.tabUeSeen := rfl
@[simp] theorem Dev.endQuar_ctl (d : Dev) (e : Elem) : (d.endQuar e).ctl = d.ctl := rfl
@[simp] theorem Dev.endQuar_obs (d : Dev) (e : Elem) : (d.endQuar e).obs = d.obs := rfl
@[simp] theorem Dev.endQuar_octets (d : Dev) (e : Elem) : (d.endQuar e).octets = d.octets := rfl
@[simp] theorem Dev.endQuar_ports (d : Dev) (e : Elem) : (d.endQuar e).ports = d.ports := rfl
@[simp] theorem Dev.endQuar_links (d : Dev) (e : Elem) : (d.endQuar e).links = d.links := rfl
@[simp] theorem Dev.endQuar_core (d : Dev) (e : Elem) : (d.endQuar e).core = d.core := rfl
@[simp] theorem Dev.endQuar_coh (d : Dev) (e : Elem) : (d.endQuar e).coh = d.coh := rfl
@[simp] theorem Dev.endQuar_ldr (d : Dev) (e : Elem) : (d.endQuar e).ldr = d.ldr := rfl
@[simp] theorem Dev.endQuar_dmv (d : Dev) (e : Elem) : (d.endQuar e).dmv = d.dmv := rfl
@[simp] theorem Dev.endQuar_traf (d : Dev) (e : Elem) : (d.endQuar e).traf = d.traf := rfl
@[simp] theorem Dev.endQuar_prot (d : Dev) (e : Elem) : (d.endQuar e).prot = d.prot := rfl
@[simp] theorem Dev.endQuar_slots (d : Dev) (e : Elem) : (d.endQuar e).slots = d.slots := rfl
@[simp] theorem Dev.endQuar_prf (d : Dev) (e : Elem) : (d.endQuar e).prf = d.prf := rfl
@[simp] theorem Dev.endQuar_sec (d : Dev) (e : Elem) : (d.endQuar e).sec = d.sec := rfl
@[simp] theorem Dev.endQuar_rst (d : Dev) (e : Elem) : (d.endQuar e).rst = d.rst := rfl
@[simp] theorem Dev.endQuar_elec (d : Dev) (e : Elem) : (d.endQuar e).elec = d.elec := rfl
@[simp] theorem Dev.endQuar_free (d : Dev) (e : Elem) : (d.endQuar e).free = d.free := rfl
@[simp] theorem Dev.endQuar_out (d : Dev) (e : Elem) : (d.endQuar e).out = d.out := rfl

/-! ## persist -/

@[simp] theorem Dev.persist_regs (d : Dev) (s : FSrc) (i : Nat) (on : Bool) : (d.persist s i on).regs = d.regs := rfl
@[simp] theorem Dev.persist_shadow (d : Dev) (s : FSrc) (i : Nat) (on : Bool) : (d.persist s i on).shadow = d.shadow := rfl
@[simp] theorem Dev.persist_prev (d : Dev) (s : FSrc) (i : Nat) (on : Bool) : (d.persist s i on).prev = d.prev := rfl
@[simp] theorem Dev.persist_snap (d : Dev) (s : FSrc) (i : Nat) (on : Bool) : (d.persist s i on).snap = d.snap := rfl
@[simp] theorem Dev.persist_tabs (d : Dev) (s : FSrc) (i : Nat) (on : Bool) : (d.persist s i on).tabs = d.tabs := rfl
@[simp] theorem Dev.persist_tabSh (d : Dev) (s : FSrc) (i : Nat) (on : Bool) : (d.persist s i on).tabSh = d.tabSh := rfl
@[simp] theorem Dev.persist_tabPrev (d : Dev) (s : FSrc) (i : Nat) (on : Bool) : (d.persist s i on).tabPrev = d.tabPrev := rfl
@[simp] theorem Dev.persist_tabUe (d : Dev) (s : FSrc) (i : Nat) (on : Bool) : (d.persist s i on).tabUe = d.tabUe := rfl
@[simp] theorem Dev.persist_tabUeSh (d : Dev) (s : FSrc) (i : Nat) (on : Bool) : (d.persist s i on).tabUeSh = d.tabUeSh := rfl
@[simp] theorem Dev.persist_tabUePrev (d : Dev) (s : FSrc) (i : Nat) (on : Bool) : (d.persist s i on).tabUePrev = d.tabUePrev := rfl
@[simp] theorem Dev.persist_tabUeSeen (d : Dev) (s : FSrc) (i : Nat) (on : Bool) : (d.persist s i on).tabUeSeen = d.tabUeSeen := rfl
@[simp] theorem Dev.persist_ctl (d : Dev) (s : FSrc) (i : Nat) (on : Bool) : (d.persist s i on).ctl = d.ctl := rfl
@[simp] theorem Dev.persist_obs (d : Dev) (s : FSrc) (i : Nat) (on : Bool) : (d.persist s i on).obs = d.obs := rfl
@[simp] theorem Dev.persist_octets (d : Dev) (s : FSrc) (i : Nat) (on : Bool) : (d.persist s i on).octets = d.octets := rfl
@[simp] theorem Dev.persist_ports (d : Dev) (s : FSrc) (i : Nat) (on : Bool) : (d.persist s i on).ports = d.ports := rfl
@[simp] theorem Dev.persist_links (d : Dev) (s : FSrc) (i : Nat) (on : Bool) : (d.persist s i on).links = d.links := rfl
@[simp] theorem Dev.persist_core (d : Dev) (s : FSrc) (i : Nat) (on : Bool) : (d.persist s i on).core = d.core := rfl
@[simp] theorem Dev.persist_coh (d : Dev) (s : FSrc) (i : Nat) (on : Bool) : (d.persist s i on).coh = d.coh := rfl
@[simp] theorem Dev.persist_ldr (d : Dev) (s : FSrc) (i : Nat) (on : Bool) : (d.persist s i on).ldr = d.ldr := rfl
@[simp] theorem Dev.persist_dmv (d : Dev) (s : FSrc) (i : Nat) (on : Bool) : (d.persist s i on).dmv = d.dmv := rfl
@[simp] theorem Dev.persist_traf (d : Dev) (s : FSrc) (i : Nat) (on : Bool) : (d.persist s i on).traf = d.traf := rfl
@[simp] theorem Dev.persist_prot (d : Dev) (s : FSrc) (i : Nat) (on : Bool) : (d.persist s i on).prot = d.prot := rfl
@[simp] theorem Dev.persist_slots (d : Dev) (s : FSrc) (i : Nat) (on : Bool) : (d.persist s i on).slots = d.slots := rfl
@[simp] theorem Dev.persist_prf (d : Dev) (s : FSrc) (i : Nat) (on : Bool) : (d.persist s i on).prf = d.prf := rfl
@[simp] theorem Dev.persist_sec (d : Dev) (s : FSrc) (i : Nat) (on : Bool) : (d.persist s i on).sec = d.sec := rfl
@[simp] theorem Dev.persist_rst (d : Dev) (s : FSrc) (i : Nat) (on : Bool) : (d.persist s i on).rst = d.rst := rfl
@[simp] theorem Dev.persist_elec (d : Dev) (s : FSrc) (i : Nat) (on : Bool) : (d.persist s i on).elec = d.elec := rfl
@[simp] theorem Dev.persist_free (d : Dev) (s : FSrc) (i : Nat) (on : Bool) : (d.persist s i on).free = d.free := rfl
@[simp] theorem Dev.persist_out (d : Dev) (s : FSrc) (i : Nat) (on : Bool) : (d.persist s i on).out = d.out := rfl

/-! ## setRing -/

@[simp] theorem Dev.setRing_regs (d : Dev) (r : Nat) (x : Ring) : (d.setRing r x).regs = d.regs := rfl
@[simp] theorem Dev.setRing_shadow (d : Dev) (r : Nat) (x : Ring) : (d.setRing r x).shadow = d.shadow := rfl
@[simp] theorem Dev.setRing_prev (d : Dev) (r : Nat) (x : Ring) : (d.setRing r x).prev = d.prev := rfl
@[simp] theorem Dev.setRing_snap (d : Dev) (r : Nat) (x : Ring) : (d.setRing r x).snap = d.snap := rfl
@[simp] theorem Dev.setRing_tabs (d : Dev) (r : Nat) (x : Ring) : (d.setRing r x).tabs = d.tabs := rfl
@[simp] theorem Dev.setRing_tabSh (d : Dev) (r : Nat) (x : Ring) : (d.setRing r x).tabSh = d.tabSh := rfl
@[simp] theorem Dev.setRing_tabPrev (d : Dev) (r : Nat) (x : Ring) : (d.setRing r x).tabPrev = d.tabPrev := rfl
@[simp] theorem Dev.setRing_tabUe (d : Dev) (r : Nat) (x : Ring) : (d.setRing r x).tabUe = d.tabUe := rfl
@[simp] theorem Dev.setRing_tabUeSh (d : Dev) (r : Nat) (x : Ring) : (d.setRing r x).tabUeSh = d.tabUeSh := rfl
@[simp] theorem Dev.setRing_tabUePrev (d : Dev) (r : Nat) (x : Ring) : (d.setRing r x).tabUePrev = d.tabUePrev := rfl
@[simp] theorem Dev.setRing_tabUeSeen (d : Dev) (r : Nat) (x : Ring) : (d.setRing r x).tabUeSeen = d.tabUeSeen := rfl
@[simp] theorem Dev.setRing_ctl (d : Dev) (r : Nat) (x : Ring) : (d.setRing r x).ctl = d.ctl := rfl
@[simp] theorem Dev.setRing_flt (d : Dev) (r : Nat) (x : Ring) : (d.setRing r x).flt = d.flt := rfl
@[simp] theorem Dev.setRing_octets (d : Dev) (r : Nat) (x : Ring) : (d.setRing r x).octets = d.octets := rfl
@[simp] theorem Dev.setRing_ports (d : Dev) (r : Nat) (x : Ring) : (d.setRing r x).ports = d.ports := rfl
@[simp] theorem Dev.setRing_links (d : Dev) (r : Nat) (x : Ring) : (d.setRing r x).links = d.links := rfl
@[simp] theorem Dev.setRing_core (d : Dev) (r : Nat) (x : Ring) : (d.setRing r x).core = d.core := rfl
@[simp] theorem Dev.setRing_coh (d : Dev) (r : Nat) (x : Ring) : (d.setRing r x).coh = d.coh := rfl
@[simp] theorem Dev.setRing_ldr (d : Dev) (r : Nat) (x : Ring) : (d.setRing r x).ldr = d.ldr := rfl
@[simp] theorem Dev.setRing_dmv (d : Dev) (r : Nat) (x : Ring) : (d.setRing r x).dmv = d.dmv := rfl
@[simp] theorem Dev.setRing_traf (d : Dev) (r : Nat) (x : Ring) : (d.setRing r x).traf = d.traf := rfl
@[simp] theorem Dev.setRing_prot (d : Dev) (r : Nat) (x : Ring) : (d.setRing r x).prot = d.prot := rfl
@[simp] theorem Dev.setRing_slots (d : Dev) (r : Nat) (x : Ring) : (d.setRing r x).slots = d.slots := rfl
@[simp] theorem Dev.setRing_prf (d : Dev) (r : Nat) (x : Ring) : (d.setRing r x).prf = d.prf := rfl
@[simp] theorem Dev.setRing_sec (d : Dev) (r : Nat) (x : Ring) : (d.setRing r x).sec = d.sec := rfl
@[simp] theorem Dev.setRing_rst (d : Dev) (r : Nat) (x : Ring) : (d.setRing r x).rst = d.rst := rfl
@[simp] theorem Dev.setRing_elec (d : Dev) (r : Nat) (x : Ring) : (d.setRing r x).elec = d.elec := rfl
@[simp] theorem Dev.setRing_free (d : Dev) (r : Nat) (x : Ring) : (d.setRing r x).free = d.free := rfl
@[simp] theorem Dev.setRing_out (d : Dev) (r : Nat) (x : Ring) : (d.setRing r x).out = d.out := rfl

/-! ## setOctet -/

@[simp] theorem Dev.setOctet_regs (d : Dev) (o : Nat) (x : Octet) : (d.setOctet o x).regs = d.regs := rfl
@[simp] theorem Dev.setOctet_shadow (d : Dev) (o : Nat) (x : Octet) : (d.setOctet o x).shadow = d.shadow := rfl
@[simp] theorem Dev.setOctet_prev (d : Dev) (o : Nat) (x : Octet) : (d.setOctet o x).prev = d.prev := rfl
@[simp] theorem Dev.setOctet_snap (d : Dev) (o : Nat) (x : Octet) : (d.setOctet o x).snap = d.snap := rfl
@[simp] theorem Dev.setOctet_tabs (d : Dev) (o : Nat) (x : Octet) : (d.setOctet o x).tabs = d.tabs := rfl
@[simp] theorem Dev.setOctet_tabSh (d : Dev) (o : Nat) (x : Octet) : (d.setOctet o x).tabSh = d.tabSh := rfl
@[simp] theorem Dev.setOctet_tabPrev (d : Dev) (o : Nat) (x : Octet) : (d.setOctet o x).tabPrev = d.tabPrev := rfl
@[simp] theorem Dev.setOctet_tabUe (d : Dev) (o : Nat) (x : Octet) : (d.setOctet o x).tabUe = d.tabUe := rfl
@[simp] theorem Dev.setOctet_tabUeSh (d : Dev) (o : Nat) (x : Octet) : (d.setOctet o x).tabUeSh = d.tabUeSh := rfl
@[simp] theorem Dev.setOctet_tabUePrev (d : Dev) (o : Nat) (x : Octet) : (d.setOctet o x).tabUePrev = d.tabUePrev := rfl
@[simp] theorem Dev.setOctet_tabUeSeen (d : Dev) (o : Nat) (x : Octet) : (d.setOctet o x).tabUeSeen = d.tabUeSeen := rfl
@[simp] theorem Dev.setOctet_ctl (d : Dev) (o : Nat) (x : Octet) : (d.setOctet o x).ctl = d.ctl := rfl
@[simp] theorem Dev.setOctet_flt (d : Dev) (o : Nat) (x : Octet) : (d.setOctet o x).flt = d.flt := rfl
@[simp] theorem Dev.setOctet_obs (d : Dev) (o : Nat) (x : Octet) : (d.setOctet o x).obs = d.obs := rfl
@[simp] theorem Dev.setOctet_ports (d : Dev) (o : Nat) (x : Octet) : (d.setOctet o x).ports = d.ports := rfl
@[simp] theorem Dev.setOctet_links (d : Dev) (o : Nat) (x : Octet) : (d.setOctet o x).links = d.links := rfl
@[simp] theorem Dev.setOctet_core (d : Dev) (o : Nat) (x : Octet) : (d.setOctet o x).core = d.core := rfl
@[simp] theorem Dev.setOctet_coh (d : Dev) (o : Nat) (x : Octet) : (d.setOctet o x).coh = d.coh := rfl
@[simp] theorem Dev.setOctet_ldr (d : Dev) (o : Nat) (x : Octet) : (d.setOctet o x).ldr = d.ldr := rfl
@[simp] theorem Dev.setOctet_dmv (d : Dev) (o : Nat) (x : Octet) : (d.setOctet o x).dmv = d.dmv := rfl
@[simp] theorem Dev.setOctet_traf (d : Dev) (o : Nat) (x : Octet) : (d.setOctet o x).traf = d.traf := rfl
@[simp] theorem Dev.setOctet_prot (d : Dev) (o : Nat) (x : Octet) : (d.setOctet o x).prot = d.prot := rfl
@[simp] theorem Dev.setOctet_slots (d : Dev) (o : Nat) (x : Octet) : (d.setOctet o x).slots = d.slots := rfl
@[simp] theorem Dev.setOctet_prf (d : Dev) (o : Nat) (x : Octet) : (d.setOctet o x).prf = d.prf := rfl
@[simp] theorem Dev.setOctet_sec (d : Dev) (o : Nat) (x : Octet) : (d.setOctet o x).sec = d.sec := rfl
@[simp] theorem Dev.setOctet_rst (d : Dev) (o : Nat) (x : Octet) : (d.setOctet o x).rst = d.rst := rfl
@[simp] theorem Dev.setOctet_elec (d : Dev) (o : Nat) (x : Octet) : (d.setOctet o x).elec = d.elec := rfl
@[simp] theorem Dev.setOctet_free (d : Dev) (o : Nat) (x : Octet) : (d.setOctet o x).free = d.free := rfl
@[simp] theorem Dev.setOctet_out (d : Dev) (o : Nat) (x : Octet) : (d.setOctet o x).out = d.out := rfl

/-! ## modLane -/

@[simp] theorem Dev.modLane_regs (d : Dev) (o l : Nat) (f : Lane → Lane) : (d.modLane o l f).regs = d.regs := rfl
@[simp] theorem Dev.modLane_shadow (d : Dev) (o l : Nat) (f : Lane → Lane) : (d.modLane o l f).shadow = d.shadow := rfl
@[simp] theorem Dev.modLane_prev (d : Dev) (o l : Nat) (f : Lane → Lane) : (d.modLane o l f).prev = d.prev := rfl
@[simp] theorem Dev.modLane_snap (d : Dev) (o l : Nat) (f : Lane → Lane) : (d.modLane o l f).snap = d.snap := rfl
@[simp] theorem Dev.modLane_tabs (d : Dev) (o l : Nat) (f : Lane → Lane) : (d.modLane o l f).tabs = d.tabs := rfl
@[simp] theorem Dev.modLane_tabSh (d : Dev) (o l : Nat) (f : Lane → Lane) : (d.modLane o l f).tabSh = d.tabSh := rfl
@[simp] theorem Dev.modLane_tabPrev (d : Dev) (o l : Nat) (f : Lane → Lane) : (d.modLane o l f).tabPrev = d.tabPrev := rfl
@[simp] theorem Dev.modLane_tabUe (d : Dev) (o l : Nat) (f : Lane → Lane) : (d.modLane o l f).tabUe = d.tabUe := rfl
@[simp] theorem Dev.modLane_tabUeSh (d : Dev) (o l : Nat) (f : Lane → Lane) : (d.modLane o l f).tabUeSh = d.tabUeSh := rfl
@[simp] theorem Dev.modLane_tabUePrev (d : Dev) (o l : Nat) (f : Lane → Lane) : (d.modLane o l f).tabUePrev = d.tabUePrev := rfl
@[simp] theorem Dev.modLane_tabUeSeen (d : Dev) (o l : Nat) (f : Lane → Lane) : (d.modLane o l f).tabUeSeen = d.tabUeSeen := rfl
@[simp] theorem Dev.modLane_ctl (d : Dev) (o l : Nat) (f : Lane → Lane) : (d.modLane o l f).ctl = d.ctl := rfl
@[simp] theorem Dev.modLane_flt (d : Dev) (o l : Nat) (f : Lane → Lane) : (d.modLane o l f).flt = d.flt := rfl
@[simp] theorem Dev.modLane_obs (d : Dev) (o l : Nat) (f : Lane → Lane) : (d.modLane o l f).obs = d.obs := rfl
@[simp] theorem Dev.modLane_ports (d : Dev) (o l : Nat) (f : Lane → Lane) : (d.modLane o l f).ports = d.ports := rfl
@[simp] theorem Dev.modLane_links (d : Dev) (o l : Nat) (f : Lane → Lane) : (d.modLane o l f).links = d.links := rfl
@[simp] theorem Dev.modLane_core (d : Dev) (o l : Nat) (f : Lane → Lane) : (d.modLane o l f).core = d.core := rfl
@[simp] theorem Dev.modLane_coh (d : Dev) (o l : Nat) (f : Lane → Lane) : (d.modLane o l f).coh = d.coh := rfl
@[simp] theorem Dev.modLane_ldr (d : Dev) (o l : Nat) (f : Lane → Lane) : (d.modLane o l f).ldr = d.ldr := rfl
@[simp] theorem Dev.modLane_dmv (d : Dev) (o l : Nat) (f : Lane → Lane) : (d.modLane o l f).dmv = d.dmv := rfl
@[simp] theorem Dev.modLane_traf (d : Dev) (o l : Nat) (f : Lane → Lane) : (d.modLane o l f).traf = d.traf := rfl
@[simp] theorem Dev.modLane_prot (d : Dev) (o l : Nat) (f : Lane → Lane) : (d.modLane o l f).prot = d.prot := rfl
@[simp] theorem Dev.modLane_slots (d : Dev) (o l : Nat) (f : Lane → Lane) : (d.modLane o l f).slots = d.slots := rfl
@[simp] theorem Dev.modLane_prf (d : Dev) (o l : Nat) (f : Lane → Lane) : (d.modLane o l f).prf = d.prf := rfl
@[simp] theorem Dev.modLane_sec (d : Dev) (o l : Nat) (f : Lane → Lane) : (d.modLane o l f).sec = d.sec := rfl
@[simp] theorem Dev.modLane_rst (d : Dev) (o l : Nat) (f : Lane → Lane) : (d.modLane o l f).rst = d.rst := rfl
@[simp] theorem Dev.modLane_elec (d : Dev) (o l : Nat) (f : Lane → Lane) : (d.modLane o l f).elec = d.elec := rfl
@[simp] theorem Dev.modLane_free (d : Dev) (o l : Nat) (f : Lane → Lane) : (d.modLane o l f).free = d.free := rfl
@[simp] theorem Dev.modLane_out (d : Dev) (o l : Nat) (f : Lane → Lane) : (d.modLane o l f).out = d.out := rfl

/-! ## setPort -/

@[simp] theorem Dev.setPort_regs (d : Dev) (p : Nat) (x : Port) : (d.setPort p x).regs = d.regs := rfl
@[simp] theorem Dev.setPort_shadow (d : Dev) (p : Nat) (x : Port) : (d.setPort p x).shadow = d.shadow := rfl
@[simp] theorem Dev.setPort_prev (d : Dev) (p : Nat) (x : Port) : (d.setPort p x).prev = d.prev := rfl
@[simp] theorem Dev.setPort_snap (d : Dev) (p : Nat) (x : Port) : (d.setPort p x).snap = d.snap := rfl
@[simp] theorem Dev.setPort_tabs (d : Dev) (p : Nat) (x : Port) : (d.setPort p x).tabs = d.tabs := rfl
@[simp] theorem Dev.setPort_tabSh (d : Dev) (p : Nat) (x : Port) : (d.setPort p x).tabSh = d.tabSh := rfl
@[simp] theorem Dev.setPort_tabPrev (d : Dev) (p : Nat) (x : Port) : (d.setPort p x).tabPrev = d.tabPrev := rfl
@[simp] theorem Dev.setPort_tabUe (d : Dev) (p : Nat) (x : Port) : (d.setPort p x).tabUe = d.tabUe := rfl
@[simp] theorem Dev.setPort_tabUeSh (d : Dev) (p : Nat) (x : Port) : (d.setPort p x).tabUeSh = d.tabUeSh := rfl
@[simp] theorem Dev.setPort_tabUePrev (d : Dev) (p : Nat) (x : Port) : (d.setPort p x).tabUePrev = d.tabUePrev := rfl
@[simp] theorem Dev.setPort_tabUeSeen (d : Dev) (p : Nat) (x : Port) : (d.setPort p x).tabUeSeen = d.tabUeSeen := rfl
@[simp] theorem Dev.setPort_ctl (d : Dev) (p : Nat) (x : Port) : (d.setPort p x).ctl = d.ctl := rfl
@[simp] theorem Dev.setPort_flt (d : Dev) (p : Nat) (x : Port) : (d.setPort p x).flt = d.flt := rfl
@[simp] theorem Dev.setPort_obs (d : Dev) (p : Nat) (x : Port) : (d.setPort p x).obs = d.obs := rfl
@[simp] theorem Dev.setPort_octets (d : Dev) (p : Nat) (x : Port) : (d.setPort p x).octets = d.octets := rfl
@[simp] theorem Dev.setPort_links (d : Dev) (p : Nat) (x : Port) : (d.setPort p x).links = d.links := rfl
@[simp] theorem Dev.setPort_core (d : Dev) (p : Nat) (x : Port) : (d.setPort p x).core = d.core := rfl
@[simp] theorem Dev.setPort_coh (d : Dev) (p : Nat) (x : Port) : (d.setPort p x).coh = d.coh := rfl
@[simp] theorem Dev.setPort_ldr (d : Dev) (p : Nat) (x : Port) : (d.setPort p x).ldr = d.ldr := rfl
@[simp] theorem Dev.setPort_dmv (d : Dev) (p : Nat) (x : Port) : (d.setPort p x).dmv = d.dmv := rfl
@[simp] theorem Dev.setPort_traf (d : Dev) (p : Nat) (x : Port) : (d.setPort p x).traf = d.traf := rfl
@[simp] theorem Dev.setPort_prot (d : Dev) (p : Nat) (x : Port) : (d.setPort p x).prot = d.prot := rfl
@[simp] theorem Dev.setPort_slots (d : Dev) (p : Nat) (x : Port) : (d.setPort p x).slots = d.slots := rfl
@[simp] theorem Dev.setPort_prf (d : Dev) (p : Nat) (x : Port) : (d.setPort p x).prf = d.prf := rfl
@[simp] theorem Dev.setPort_sec (d : Dev) (p : Nat) (x : Port) : (d.setPort p x).sec = d.sec := rfl
@[simp] theorem Dev.setPort_rst (d : Dev) (p : Nat) (x : Port) : (d.setPort p x).rst = d.rst := rfl
@[simp] theorem Dev.setPort_elec (d : Dev) (p : Nat) (x : Port) : (d.setPort p x).elec = d.elec := rfl
@[simp] theorem Dev.setPort_free (d : Dev) (p : Nat) (x : Port) : (d.setPort p x).free = d.free := rfl
@[simp] theorem Dev.setPort_out (d : Dev) (p : Nat) (x : Port) : (d.setPort p x).out = d.out := rfl

/-! ## modPort -/

@[simp] theorem Dev.modPort_regs (d : Dev) (p : Nat) (f : Port → Port) : (d.modPort p f).regs = d.regs := rfl
@[simp] theorem Dev.modPort_shadow (d : Dev) (p : Nat) (f : Port → Port) : (d.modPort p f).shadow = d.shadow := rfl
@[simp] theorem Dev.modPort_prev (d : Dev) (p : Nat) (f : Port → Port) : (d.modPort p f).prev = d.prev := rfl
@[simp] theorem Dev.modPort_snap (d : Dev) (p : Nat) (f : Port → Port) : (d.modPort p f).snap = d.snap := rfl
@[simp] theorem Dev.modPort_tabs (d : Dev) (p : Nat) (f : Port → Port) : (d.modPort p f).tabs = d.tabs := rfl
@[simp] theorem Dev.modPort_tabSh (d : Dev) (p : Nat) (f : Port → Port) : (d.modPort p f).tabSh = d.tabSh := rfl
@[simp] theorem Dev.modPort_tabPrev (d : Dev) (p : Nat) (f : Port → Port) : (d.modPort p f).tabPrev = d.tabPrev := rfl
@[simp] theorem Dev.modPort_tabUe (d : Dev) (p : Nat) (f : Port → Port) : (d.modPort p f).tabUe = d.tabUe := rfl
@[simp] theorem Dev.modPort_tabUeSh (d : Dev) (p : Nat) (f : Port → Port) : (d.modPort p f).tabUeSh = d.tabUeSh := rfl
@[simp] theorem Dev.modPort_tabUePrev (d : Dev) (p : Nat) (f : Port → Port) : (d.modPort p f).tabUePrev = d.tabUePrev := rfl
@[simp] theorem Dev.modPort_tabUeSeen (d : Dev) (p : Nat) (f : Port → Port) : (d.modPort p f).tabUeSeen = d.tabUeSeen := rfl
@[simp] theorem Dev.modPort_ctl (d : Dev) (p : Nat) (f : Port → Port) : (d.modPort p f).ctl = d.ctl := rfl
@[simp] theorem Dev.modPort_flt (d : Dev) (p : Nat) (f : Port → Port) : (d.modPort p f).flt = d.flt := rfl
@[simp] theorem Dev.modPort_obs (d : Dev) (p : Nat) (f : Port → Port) : (d.modPort p f).obs = d.obs := rfl
@[simp] theorem Dev.modPort_octets (d : Dev) (p : Nat) (f : Port → Port) : (d.modPort p f).octets = d.octets := rfl
@[simp] theorem Dev.modPort_links (d : Dev) (p : Nat) (f : Port → Port) : (d.modPort p f).links = d.links := rfl
@[simp] theorem Dev.modPort_core (d : Dev) (p : Nat) (f : Port → Port) : (d.modPort p f).core = d.core := rfl
@[simp] theorem Dev.modPort_coh (d : Dev) (p : Nat) (f : Port → Port) : (d.modPort p f).coh = d.coh := rfl
@[simp] theorem Dev.modPort_ldr (d : Dev) (p : Nat) (f : Port → Port) : (d.modPort p f).ldr = d.ldr := rfl
@[simp] theorem Dev.modPort_dmv (d : Dev) (p : Nat) (f : Port → Port) : (d.modPort p f).dmv = d.dmv := rfl
@[simp] theorem Dev.modPort_traf (d : Dev) (p : Nat) (f : Port → Port) : (d.modPort p f).traf = d.traf := rfl
@[simp] theorem Dev.modPort_prot (d : Dev) (p : Nat) (f : Port → Port) : (d.modPort p f).prot = d.prot := rfl
@[simp] theorem Dev.modPort_slots (d : Dev) (p : Nat) (f : Port → Port) : (d.modPort p f).slots = d.slots := rfl
@[simp] theorem Dev.modPort_prf (d : Dev) (p : Nat) (f : Port → Port) : (d.modPort p f).prf = d.prf := rfl
@[simp] theorem Dev.modPort_sec (d : Dev) (p : Nat) (f : Port → Port) : (d.modPort p f).sec = d.sec := rfl
@[simp] theorem Dev.modPort_rst (d : Dev) (p : Nat) (f : Port → Port) : (d.modPort p f).rst = d.rst := rfl
@[simp] theorem Dev.modPort_elec (d : Dev) (p : Nat) (f : Port → Port) : (d.modPort p f).elec = d.elec := rfl
@[simp] theorem Dev.modPort_free (d : Dev) (p : Nat) (f : Port → Port) : (d.modPort p f).free = d.free := rfl
@[simp] theorem Dev.modPort_out (d : Dev) (p : Nat) (f : Port → Port) : (d.modPort p f).out = d.out := rfl

/-! ## setLink -/

@[simp] theorem Dev.setLink_regs (d : Dev) (k : Nat) (x : Link) : (d.setLink k x).regs = d.regs := rfl
@[simp] theorem Dev.setLink_shadow (d : Dev) (k : Nat) (x : Link) : (d.setLink k x).shadow = d.shadow := rfl
@[simp] theorem Dev.setLink_prev (d : Dev) (k : Nat) (x : Link) : (d.setLink k x).prev = d.prev := rfl
@[simp] theorem Dev.setLink_snap (d : Dev) (k : Nat) (x : Link) : (d.setLink k x).snap = d.snap := rfl
@[simp] theorem Dev.setLink_tabs (d : Dev) (k : Nat) (x : Link) : (d.setLink k x).tabs = d.tabs := rfl
@[simp] theorem Dev.setLink_tabSh (d : Dev) (k : Nat) (x : Link) : (d.setLink k x).tabSh = d.tabSh := rfl
@[simp] theorem Dev.setLink_tabPrev (d : Dev) (k : Nat) (x : Link) : (d.setLink k x).tabPrev = d.tabPrev := rfl
@[simp] theorem Dev.setLink_tabUe (d : Dev) (k : Nat) (x : Link) : (d.setLink k x).tabUe = d.tabUe := rfl
@[simp] theorem Dev.setLink_tabUeSh (d : Dev) (k : Nat) (x : Link) : (d.setLink k x).tabUeSh = d.tabUeSh := rfl
@[simp] theorem Dev.setLink_tabUePrev (d : Dev) (k : Nat) (x : Link) : (d.setLink k x).tabUePrev = d.tabUePrev := rfl
@[simp] theorem Dev.setLink_tabUeSeen (d : Dev) (k : Nat) (x : Link) : (d.setLink k x).tabUeSeen = d.tabUeSeen := rfl
@[simp] theorem Dev.setLink_ctl (d : Dev) (k : Nat) (x : Link) : (d.setLink k x).ctl = d.ctl := rfl
@[simp] theorem Dev.setLink_flt (d : Dev) (k : Nat) (x : Link) : (d.setLink k x).flt = d.flt := rfl
@[simp] theorem Dev.setLink_obs (d : Dev) (k : Nat) (x : Link) : (d.setLink k x).obs = d.obs := rfl
@[simp] theorem Dev.setLink_octets (d : Dev) (k : Nat) (x : Link) : (d.setLink k x).octets = d.octets := rfl
@[simp] theorem Dev.setLink_ports (d : Dev) (k : Nat) (x : Link) : (d.setLink k x).ports = d.ports := rfl
@[simp] theorem Dev.setLink_core (d : Dev) (k : Nat) (x : Link) : (d.setLink k x).core = d.core := rfl
@[simp] theorem Dev.setLink_coh (d : Dev) (k : Nat) (x : Link) : (d.setLink k x).coh = d.coh := rfl
@[simp] theorem Dev.setLink_ldr (d : Dev) (k : Nat) (x : Link) : (d.setLink k x).ldr = d.ldr := rfl
@[simp] theorem Dev.setLink_dmv (d : Dev) (k : Nat) (x : Link) : (d.setLink k x).dmv = d.dmv := rfl
@[simp] theorem Dev.setLink_traf (d : Dev) (k : Nat) (x : Link) : (d.setLink k x).traf = d.traf := rfl
@[simp] theorem Dev.setLink_prot (d : Dev) (k : Nat) (x : Link) : (d.setLink k x).prot = d.prot := rfl
@[simp] theorem Dev.setLink_slots (d : Dev) (k : Nat) (x : Link) : (d.setLink k x).slots = d.slots := rfl
@[simp] theorem Dev.setLink_prf (d : Dev) (k : Nat) (x : Link) : (d.setLink k x).prf = d.prf := rfl
@[simp] theorem Dev.setLink_sec (d : Dev) (k : Nat) (x : Link) : (d.setLink k x).sec = d.sec := rfl
@[simp] theorem Dev.setLink_rst (d : Dev) (k : Nat) (x : Link) : (d.setLink k x).rst = d.rst := rfl
@[simp] theorem Dev.setLink_elec (d : Dev) (k : Nat) (x : Link) : (d.setLink k x).elec = d.elec := rfl
@[simp] theorem Dev.setLink_free (d : Dev) (k : Nat) (x : Link) : (d.setLink k x).free = d.free := rfl
@[simp] theorem Dev.setLink_out (d : Dev) (k : Nat) (x : Link) : (d.setLink k x).out = d.out := rfl

/-! ## modLink -/

@[simp] theorem Dev.modLink_regs (d : Dev) (k : Nat) (f : Link → Link) : (d.modLink k f).regs = d.regs := rfl
@[simp] theorem Dev.modLink_shadow (d : Dev) (k : Nat) (f : Link → Link) : (d.modLink k f).shadow = d.shadow := rfl
@[simp] theorem Dev.modLink_prev (d : Dev) (k : Nat) (f : Link → Link) : (d.modLink k f).prev = d.prev := rfl
@[simp] theorem Dev.modLink_snap (d : Dev) (k : Nat) (f : Link → Link) : (d.modLink k f).snap = d.snap := rfl
@[simp] theorem Dev.modLink_tabs (d : Dev) (k : Nat) (f : Link → Link) : (d.modLink k f).tabs = d.tabs := rfl
@[simp] theorem Dev.modLink_tabSh (d : Dev) (k : Nat) (f : Link → Link) : (d.modLink k f).tabSh = d.tabSh := rfl
@[simp] theorem Dev.modLink_tabPrev (d : Dev) (k : Nat) (f : Link → Link) : (d.modLink k f).tabPrev = d.tabPrev := rfl
@[simp] theorem Dev.modLink_tabUe (d : Dev) (k : Nat) (f : Link → Link) : (d.modLink k f).tabUe = d.tabUe := rfl
@[simp] theorem Dev.modLink_tabUeSh (d : Dev) (k : Nat) (f : Link → Link) : (d.modLink k f).tabUeSh = d.tabUeSh := rfl
@[simp] theorem Dev.modLink_tabUePrev (d : Dev) (k : Nat) (f : Link → Link) : (d.modLink k f).tabUePrev = d.tabUePrev := rfl
@[simp] theorem Dev.modLink_tabUeSeen (d : Dev) (k : Nat) (f : Link → Link) : (d.modLink k f).tabUeSeen = d.tabUeSeen := rfl
@[simp] theorem Dev.modLink_ctl (d : Dev) (k : Nat) (f : Link → Link) : (d.modLink k f).ctl = d.ctl := rfl
@[simp] theorem Dev.modLink_flt (d : Dev) (k : Nat) (f : Link → Link) : (d.modLink k f).flt = d.flt := rfl
@[simp] theorem Dev.modLink_obs (d : Dev) (k : Nat) (f : Link → Link) : (d.modLink k f).obs = d.obs := rfl
@[simp] theorem Dev.modLink_octets (d : Dev) (k : Nat) (f : Link → Link) : (d.modLink k f).octets = d.octets := rfl
@[simp] theorem Dev.modLink_ports (d : Dev) (k : Nat) (f : Link → Link) : (d.modLink k f).ports = d.ports := rfl
@[simp] theorem Dev.modLink_core (d : Dev) (k : Nat) (f : Link → Link) : (d.modLink k f).core = d.core := rfl
@[simp] theorem Dev.modLink_coh (d : Dev) (k : Nat) (f : Link → Link) : (d.modLink k f).coh = d.coh := rfl
@[simp] theorem Dev.modLink_ldr (d : Dev) (k : Nat) (f : Link → Link) : (d.modLink k f).ldr = d.ldr := rfl
@[simp] theorem Dev.modLink_dmv (d : Dev) (k : Nat) (f : Link → Link) : (d.modLink k f).dmv = d.dmv := rfl
@[simp] theorem Dev.modLink_traf (d : Dev) (k : Nat) (f : Link → Link) : (d.modLink k f).traf = d.traf := rfl
@[simp] theorem Dev.modLink_prot (d : Dev) (k : Nat) (f : Link → Link) : (d.modLink k f).prot = d.prot := rfl
@[simp] theorem Dev.modLink_slots (d : Dev) (k : Nat) (f : Link → Link) : (d.modLink k f).slots = d.slots := rfl
@[simp] theorem Dev.modLink_prf (d : Dev) (k : Nat) (f : Link → Link) : (d.modLink k f).prf = d.prf := rfl
@[simp] theorem Dev.modLink_sec (d : Dev) (k : Nat) (f : Link → Link) : (d.modLink k f).sec = d.sec := rfl
@[simp] theorem Dev.modLink_rst (d : Dev) (k : Nat) (f : Link → Link) : (d.modLink k f).rst = d.rst := rfl
@[simp] theorem Dev.modLink_elec (d : Dev) (k : Nat) (f : Link → Link) : (d.modLink k f).elec = d.elec := rfl
@[simp] theorem Dev.modLink_free (d : Dev) (k : Nat) (f : Link → Link) : (d.modLink k f).free = d.free := rfl
@[simp] theorem Dev.modLink_out (d : Dev) (k : Nat) (f : Link → Link) : (d.modLink k f).out = d.out := rfl

/-! ## modStored -/

@[simp] theorem Dev.modStored_regs (d : Dev) (id : Nat) (f : Stored → Stored) : (d.modStored id f).regs = d.regs := rfl
@[simp] theorem Dev.modStored_shadow (d : Dev) (id : Nat) (f : Stored → Stored) : (d.modStored id f).shadow = d.shadow := rfl
@[simp] theorem Dev.modStored_prev (d : Dev) (id : Nat) (f : Stored → Stored) : (d.modStored id f).prev = d.prev := rfl
@[simp] theorem Dev.modStored_snap (d : Dev) (id : Nat) (f : Stored → Stored) : (d.modStored id f).snap = d.snap := rfl
@[simp] theorem Dev.modStored_tabs (d : Dev) (id : Nat) (f : Stored → Stored) : (d.modStored id f).tabs = d.tabs := rfl
@[simp] theorem Dev.modStored_tabSh (d : Dev) (id : Nat) (f : Stored → Stored) : (d.modStored id f).tabSh = d.tabSh := rfl
@[simp] theorem Dev.modStored_tabPrev (d : Dev) (id : Nat) (f : Stored → Stored) : (d.modStored id f).tabPrev = d.tabPrev := rfl
@[simp] theorem Dev.modStored_tabUe (d : Dev) (id : Nat) (f : Stored → Stored) : (d.modStored id f).tabUe = d.tabUe := rfl
@[simp] theorem Dev.modStored_tabUeSh (d : Dev) (id : Nat) (f : Stored → Stored) : (d.modStored id f).tabUeSh = d.tabUeSh := rfl
@[simp] theorem Dev.modStored_tabUePrev (d : Dev) (id : Nat) (f : Stored → Stored) : (d.modStored id f).tabUePrev = d.tabUePrev := rfl
@[simp] theorem Dev.modStored_tabUeSeen (d : Dev) (id : Nat) (f : Stored → Stored) : (d.modStored id f).tabUeSeen = d.tabUeSeen := rfl
@[simp] theorem Dev.modStored_ctl (d : Dev) (id : Nat) (f : Stored → Stored) : (d.modStored id f).ctl = d.ctl := rfl
@[simp] theorem Dev.modStored_flt (d : Dev) (id : Nat) (f : Stored → Stored) : (d.modStored id f).flt = d.flt := rfl
@[simp] theorem Dev.modStored_obs (d : Dev) (id : Nat) (f : Stored → Stored) : (d.modStored id f).obs = d.obs := rfl
@[simp] theorem Dev.modStored_octets (d : Dev) (id : Nat) (f : Stored → Stored) : (d.modStored id f).octets = d.octets := rfl
@[simp] theorem Dev.modStored_ports (d : Dev) (id : Nat) (f : Stored → Stored) : (d.modStored id f).ports = d.ports := rfl
@[simp] theorem Dev.modStored_links (d : Dev) (id : Nat) (f : Stored → Stored) : (d.modStored id f).links = d.links := rfl
@[simp] theorem Dev.modStored_coh (d : Dev) (id : Nat) (f : Stored → Stored) : (d.modStored id f).coh = d.coh := rfl
@[simp] theorem Dev.modStored_ldr (d : Dev) (id : Nat) (f : Stored → Stored) : (d.modStored id f).ldr = d.ldr := rfl
@[simp] theorem Dev.modStored_dmv (d : Dev) (id : Nat) (f : Stored → Stored) : (d.modStored id f).dmv = d.dmv := rfl
@[simp] theorem Dev.modStored_traf (d : Dev) (id : Nat) (f : Stored → Stored) : (d.modStored id f).traf = d.traf := rfl
@[simp] theorem Dev.modStored_prot (d : Dev) (id : Nat) (f : Stored → Stored) : (d.modStored id f).prot = d.prot := rfl
@[simp] theorem Dev.modStored_slots (d : Dev) (id : Nat) (f : Stored → Stored) : (d.modStored id f).slots = d.slots := rfl
@[simp] theorem Dev.modStored_prf (d : Dev) (id : Nat) (f : Stored → Stored) : (d.modStored id f).prf = d.prf := rfl
@[simp] theorem Dev.modStored_sec (d : Dev) (id : Nat) (f : Stored → Stored) : (d.modStored id f).sec = d.sec := rfl
@[simp] theorem Dev.modStored_rst (d : Dev) (id : Nat) (f : Stored → Stored) : (d.modStored id f).rst = d.rst := rfl
@[simp] theorem Dev.modStored_elec (d : Dev) (id : Nat) (f : Stored → Stored) : (d.modStored id f).elec = d.elec := rfl
@[simp] theorem Dev.modStored_free (d : Dev) (id : Nat) (f : Stored → Stored) : (d.modStored id f).free = d.free := rfl
@[simp] theorem Dev.modStored_out (d : Dev) (id : Nat) (f : Stored → Stored) : (d.modStored id f).out = d.out := rfl

/-! ## dropStored -/

@[simp] theorem Dev.dropStored_regs (d : Dev) (id : Nat) : (d.dropStored id).regs = d.regs := rfl
@[simp] theorem Dev.dropStored_shadow (d : Dev) (id : Nat) : (d.dropStored id).shadow = d.shadow := rfl
@[simp] theorem Dev.dropStored_prev (d : Dev) (id : Nat) : (d.dropStored id).prev = d.prev := rfl
@[simp] theorem Dev.dropStored_snap (d : Dev) (id : Nat) : (d.dropStored id).snap = d.snap := rfl
@[simp] theorem Dev.dropStored_tabs (d : Dev) (id : Nat) : (d.dropStored id).tabs = d.tabs := rfl
@[simp] theorem Dev.dropStored_tabSh (d : Dev) (id : Nat) : (d.dropStored id).tabSh = d.tabSh := rfl
@[simp] theorem Dev.dropStored_tabPrev (d : Dev) (id : Nat) : (d.dropStored id).tabPrev = d.tabPrev := rfl
@[simp] theorem Dev.dropStored_tabUe (d : Dev) (id : Nat) : (d.dropStored id).tabUe = d.tabUe := rfl
@[simp] theorem Dev.dropStored_tabUeSh (d : Dev) (id : Nat) : (d.dropStored id).tabUeSh = d.tabUeSh := rfl
@[simp] theorem Dev.dropStored_tabUePrev (d : Dev) (id : Nat) : (d.dropStored id).tabUePrev = d.tabUePrev := rfl
@[simp] theorem Dev.dropStored_tabUeSeen (d : Dev) (id : Nat) : (d.dropStored id).tabUeSeen = d.tabUeSeen := rfl
@[simp] theorem Dev.dropStored_ctl (d : Dev) (id : Nat) : (d.dropStored id).ctl = d.ctl := rfl
@[simp] theorem Dev.dropStored_flt (d : Dev) (id : Nat) : (d.dropStored id).flt = d.flt := rfl
@[simp] theorem Dev.dropStored_obs (d : Dev) (id : Nat) : (d.dropStored id).obs = d.obs := rfl
@[simp] theorem Dev.dropStored_octets (d : Dev) (id : Nat) : (d.dropStored id).octets = d.octets := rfl
@[simp] theorem Dev.dropStored_ports (d : Dev) (id : Nat) : (d.dropStored id).ports = d.ports := rfl
@[simp] theorem Dev.dropStored_links (d : Dev) (id : Nat) : (d.dropStored id).links = d.links := rfl
@[simp] theorem Dev.dropStored_coh (d : Dev) (id : Nat) : (d.dropStored id).coh = d.coh := rfl
@[simp] theorem Dev.dropStored_ldr (d : Dev) (id : Nat) : (d.dropStored id).ldr = d.ldr := rfl
@[simp] theorem Dev.dropStored_dmv (d : Dev) (id : Nat) : (d.dropStored id).dmv = d.dmv := rfl
@[simp] theorem Dev.dropStored_traf (d : Dev) (id : Nat) : (d.dropStored id).traf = d.traf := rfl
@[simp] theorem Dev.dropStored_prot (d : Dev) (id : Nat) : (d.dropStored id).prot = d.prot := rfl
@[simp] theorem Dev.dropStored_slots (d : Dev) (id : Nat) : (d.dropStored id).slots = d.slots := rfl
@[simp] theorem Dev.dropStored_prf (d : Dev) (id : Nat) : (d.dropStored id).prf = d.prf := rfl
@[simp] theorem Dev.dropStored_sec (d : Dev) (id : Nat) : (d.dropStored id).sec = d.sec := rfl
@[simp] theorem Dev.dropStored_rst (d : Dev) (id : Nat) : (d.dropStored id).rst = d.rst := rfl
@[simp] theorem Dev.dropStored_elec (d : Dev) (id : Nat) : (d.dropStored id).elec = d.elec := rfl
@[simp] theorem Dev.dropStored_free (d : Dev) (id : Nat) : (d.dropStored id).free = d.free := rfl
@[simp] theorem Dev.dropStored_out (d : Dev) (id : Nat) : (d.dropStored id).out = d.out := rfl

/-! ## setRel -/

@[simp] theorem Dev.setRel_regs (d : Dev) (src : Nat) (l : List Msg) : (d.setRel src l).regs = d.regs := rfl
@[simp] theorem Dev.setRel_shadow (d : Dev) (src : Nat) (l : List Msg) : (d.setRel src l).shadow = d.shadow := rfl
@[simp] theorem Dev.setRel_prev (d : Dev) (src : Nat) (l : List Msg) : (d.setRel src l).prev = d.prev := rfl
@[simp] theorem Dev.setRel_snap (d : Dev) (src : Nat) (l : List Msg) : (d.setRel src l).snap = d.snap := rfl
@[simp] theorem Dev.setRel_tabs (d : Dev) (src : Nat) (l : List Msg) : (d.setRel src l).tabs = d.tabs := rfl
@[simp] theorem Dev.setRel_tabSh (d : Dev) (src : Nat) (l : List Msg) : (d.setRel src l).tabSh = d.tabSh := rfl
@[simp] theorem Dev.setRel_tabPrev (d : Dev) (src : Nat) (l : List Msg) : (d.setRel src l).tabPrev = d.tabPrev := rfl
@[simp] theorem Dev.setRel_tabUe (d : Dev) (src : Nat) (l : List Msg) : (d.setRel src l).tabUe = d.tabUe := rfl
@[simp] theorem Dev.setRel_tabUeSh (d : Dev) (src : Nat) (l : List Msg) : (d.setRel src l).tabUeSh = d.tabUeSh := rfl
@[simp] theorem Dev.setRel_tabUePrev (d : Dev) (src : Nat) (l : List Msg) : (d.setRel src l).tabUePrev = d.tabUePrev := rfl
@[simp] theorem Dev.setRel_tabUeSeen (d : Dev) (src : Nat) (l : List Msg) : (d.setRel src l).tabUeSeen = d.tabUeSeen := rfl
@[simp] theorem Dev.setRel_ctl (d : Dev) (src : Nat) (l : List Msg) : (d.setRel src l).ctl = d.ctl := rfl
@[simp] theorem Dev.setRel_flt (d : Dev) (src : Nat) (l : List Msg) : (d.setRel src l).flt = d.flt := rfl
@[simp] theorem Dev.setRel_obs (d : Dev) (src : Nat) (l : List Msg) : (d.setRel src l).obs = d.obs := rfl
@[simp] theorem Dev.setRel_octets (d : Dev) (src : Nat) (l : List Msg) : (d.setRel src l).octets = d.octets := rfl
@[simp] theorem Dev.setRel_ports (d : Dev) (src : Nat) (l : List Msg) : (d.setRel src l).ports = d.ports := rfl
@[simp] theorem Dev.setRel_links (d : Dev) (src : Nat) (l : List Msg) : (d.setRel src l).links = d.links := rfl
@[simp] theorem Dev.setRel_coh (d : Dev) (src : Nat) (l : List Msg) : (d.setRel src l).coh = d.coh := rfl
@[simp] theorem Dev.setRel_ldr (d : Dev) (src : Nat) (l : List Msg) : (d.setRel src l).ldr = d.ldr := rfl
@[simp] theorem Dev.setRel_dmv (d : Dev) (src : Nat) (l : List Msg) : (d.setRel src l).dmv = d.dmv := rfl
@[simp] theorem Dev.setRel_traf (d : Dev) (src : Nat) (l : List Msg) : (d.setRel src l).traf = d.traf := rfl
@[simp] theorem Dev.setRel_prot (d : Dev) (src : Nat) (l : List Msg) : (d.setRel src l).prot = d.prot := rfl
@[simp] theorem Dev.setRel_slots (d : Dev) (src : Nat) (l : List Msg) : (d.setRel src l).slots = d.slots := rfl
@[simp] theorem Dev.setRel_prf (d : Dev) (src : Nat) (l : List Msg) : (d.setRel src l).prf = d.prf := rfl
@[simp] theorem Dev.setRel_sec (d : Dev) (src : Nat) (l : List Msg) : (d.setRel src l).sec = d.sec := rfl
@[simp] theorem Dev.setRel_rst (d : Dev) (src : Nat) (l : List Msg) : (d.setRel src l).rst = d.rst := rfl
@[simp] theorem Dev.setRel_elec (d : Dev) (src : Nat) (l : List Msg) : (d.setRel src l).elec = d.elec := rfl
@[simp] theorem Dev.setRel_free (d : Dev) (src : Nat) (l : List Msg) : (d.setRel src l).free = d.free := rfl
@[simp] theorem Dev.setRel_out (d : Dev) (src : Nat) (l : List Msg) : (d.setRel src l).out = d.out := rfl

/-! ## setArrived -/

@[simp] theorem Dev.setArrived_regs (d : Dev) (h ch : Nat) (l : List Msg) : (d.setArrived h ch l).regs = d.regs := rfl
@[simp] theorem Dev.setArrived_shadow (d : Dev) (h ch : Nat) (l : List Msg) : (d.setArrived h ch l).shadow = d.shadow := rfl
@[simp] theorem Dev.setArrived_prev (d : Dev) (h ch : Nat) (l : List Msg) : (d.setArrived h ch l).prev = d.prev := rfl
@[simp] theorem Dev.setArrived_snap (d : Dev) (h ch : Nat) (l : List Msg) : (d.setArrived h ch l).snap = d.snap := rfl
@[simp] theorem Dev.setArrived_tabs (d : Dev) (h ch : Nat) (l : List Msg) : (d.setArrived h ch l).tabs = d.tabs := rfl
@[simp] theorem Dev.setArrived_tabSh (d : Dev) (h ch : Nat) (l : List Msg) : (d.setArrived h ch l).tabSh = d.tabSh := rfl
@[simp] theorem Dev.setArrived_tabPrev (d : Dev) (h ch : Nat) (l : List Msg) : (d.setArrived h ch l).tabPrev = d.tabPrev := rfl
@[simp] theorem Dev.setArrived_tabUe (d : Dev) (h ch : Nat) (l : List Msg) : (d.setArrived h ch l).tabUe = d.tabUe := rfl
@[simp] theorem Dev.setArrived_tabUeSh (d : Dev) (h ch : Nat) (l : List Msg) : (d.setArrived h ch l).tabUeSh = d.tabUeSh := rfl
@[simp] theorem Dev.setArrived_tabUePrev (d : Dev) (h ch : Nat) (l : List Msg) : (d.setArrived h ch l).tabUePrev = d.tabUePrev := rfl
@[simp] theorem Dev.setArrived_tabUeSeen (d : Dev) (h ch : Nat) (l : List Msg) : (d.setArrived h ch l).tabUeSeen = d.tabUeSeen := rfl
@[simp] theorem Dev.setArrived_ctl (d : Dev) (h ch : Nat) (l : List Msg) : (d.setArrived h ch l).ctl = d.ctl := rfl
@[simp] theorem Dev.setArrived_flt (d : Dev) (h ch : Nat) (l : List Msg) : (d.setArrived h ch l).flt = d.flt := rfl
@[simp] theorem Dev.setArrived_obs (d : Dev) (h ch : Nat) (l : List Msg) : (d.setArrived h ch l).obs = d.obs := rfl
@[simp] theorem Dev.setArrived_octets (d : Dev) (h ch : Nat) (l : List Msg) : (d.setArrived h ch l).octets = d.octets := rfl
@[simp] theorem Dev.setArrived_ports (d : Dev) (h ch : Nat) (l : List Msg) : (d.setArrived h ch l).ports = d.ports := rfl
@[simp] theorem Dev.setArrived_links (d : Dev) (h ch : Nat) (l : List Msg) : (d.setArrived h ch l).links = d.links := rfl
@[simp] theorem Dev.setArrived_coh (d : Dev) (h ch : Nat) (l : List Msg) : (d.setArrived h ch l).coh = d.coh := rfl
@[simp] theorem Dev.setArrived_ldr (d : Dev) (h ch : Nat) (l : List Msg) : (d.setArrived h ch l).ldr = d.ldr := rfl
@[simp] theorem Dev.setArrived_dmv (d : Dev) (h ch : Nat) (l : List Msg) : (d.setArrived h ch l).dmv = d.dmv := rfl
@[simp] theorem Dev.setArrived_traf (d : Dev) (h ch : Nat) (l : List Msg) : (d.setArrived h ch l).traf = d.traf := rfl
@[simp] theorem Dev.setArrived_prot (d : Dev) (h ch : Nat) (l : List Msg) : (d.setArrived h ch l).prot = d.prot := rfl
@[simp] theorem Dev.setArrived_slots (d : Dev) (h ch : Nat) (l : List Msg) : (d.setArrived h ch l).slots = d.slots := rfl
@[simp] theorem Dev.setArrived_prf (d : Dev) (h ch : Nat) (l : List Msg) : (d.setArrived h ch l).prf = d.prf := rfl
@[simp] theorem Dev.setArrived_sec (d : Dev) (h ch : Nat) (l : List Msg) : (d.setArrived h ch l).sec = d.sec := rfl
@[simp] theorem Dev.setArrived_rst (d : Dev) (h ch : Nat) (l : List Msg) : (d.setArrived h ch l).rst = d.rst := rfl
@[simp] theorem Dev.setArrived_elec (d : Dev) (h ch : Nat) (l : List Msg) : (d.setArrived h ch l).elec = d.elec := rfl
@[simp] theorem Dev.setArrived_free (d : Dev) (h ch : Nat) (l : List Msg) : (d.setArrived h ch l).free = d.free := rfl
@[simp] theorem Dev.setArrived_out (d : Dev) (h ch : Nat) (l : List Msg) : (d.setArrived h ch l).out = d.out := rfl

/-! ## setHome -/

@[simp] theorem Dev.setHome_regs (d : Dev) (h : Nat) (x : Home) : (d.setHome h x).regs = d.regs := rfl
@[simp] theorem Dev.setHome_shadow (d : Dev) (h : Nat) (x : Home) : (d.setHome h x).shadow = d.shadow := rfl
@[simp] theorem Dev.setHome_prev (d : Dev) (h : Nat) (x : Home) : (d.setHome h x).prev = d.prev := rfl
@[simp] theorem Dev.setHome_snap (d : Dev) (h : Nat) (x : Home) : (d.setHome h x).snap = d.snap := rfl
@[simp] theorem Dev.setHome_tabs (d : Dev) (h : Nat) (x : Home) : (d.setHome h x).tabs = d.tabs := rfl
@[simp] theorem Dev.setHome_tabSh (d : Dev) (h : Nat) (x : Home) : (d.setHome h x).tabSh = d.tabSh := rfl
@[simp] theorem Dev.setHome_tabPrev (d : Dev) (h : Nat) (x : Home) : (d.setHome h x).tabPrev = d.tabPrev := rfl
@[simp] theorem Dev.setHome_tabUe (d : Dev) (h : Nat) (x : Home) : (d.setHome h x).tabUe = d.tabUe := rfl
@[simp] theorem Dev.setHome_tabUeSh (d : Dev) (h : Nat) (x : Home) : (d.setHome h x).tabUeSh = d.tabUeSh := rfl
@[simp] theorem Dev.setHome_tabUePrev (d : Dev) (h : Nat) (x : Home) : (d.setHome h x).tabUePrev = d.tabUePrev := rfl
@[simp] theorem Dev.setHome_tabUeSeen (d : Dev) (h : Nat) (x : Home) : (d.setHome h x).tabUeSeen = d.tabUeSeen := rfl
@[simp] theorem Dev.setHome_ctl (d : Dev) (h : Nat) (x : Home) : (d.setHome h x).ctl = d.ctl := rfl
@[simp] theorem Dev.setHome_flt (d : Dev) (h : Nat) (x : Home) : (d.setHome h x).flt = d.flt := rfl
@[simp] theorem Dev.setHome_obs (d : Dev) (h : Nat) (x : Home) : (d.setHome h x).obs = d.obs := rfl
@[simp] theorem Dev.setHome_octets (d : Dev) (h : Nat) (x : Home) : (d.setHome h x).octets = d.octets := rfl
@[simp] theorem Dev.setHome_ports (d : Dev) (h : Nat) (x : Home) : (d.setHome h x).ports = d.ports := rfl
@[simp] theorem Dev.setHome_links (d : Dev) (h : Nat) (x : Home) : (d.setHome h x).links = d.links := rfl
@[simp] theorem Dev.setHome_core (d : Dev) (h : Nat) (x : Home) : (d.setHome h x).core = d.core := rfl
@[simp] theorem Dev.setHome_ldr (d : Dev) (h : Nat) (x : Home) : (d.setHome h x).ldr = d.ldr := rfl
@[simp] theorem Dev.setHome_dmv (d : Dev) (h : Nat) (x : Home) : (d.setHome h x).dmv = d.dmv := rfl
@[simp] theorem Dev.setHome_traf (d : Dev) (h : Nat) (x : Home) : (d.setHome h x).traf = d.traf := rfl
@[simp] theorem Dev.setHome_prot (d : Dev) (h : Nat) (x : Home) : (d.setHome h x).prot = d.prot := rfl
@[simp] theorem Dev.setHome_slots (d : Dev) (h : Nat) (x : Home) : (d.setHome h x).slots = d.slots := rfl
@[simp] theorem Dev.setHome_prf (d : Dev) (h : Nat) (x : Home) : (d.setHome h x).prf = d.prf := rfl
@[simp] theorem Dev.setHome_sec (d : Dev) (h : Nat) (x : Home) : (d.setHome h x).sec = d.sec := rfl
@[simp] theorem Dev.setHome_rst (d : Dev) (h : Nat) (x : Home) : (d.setHome h x).rst = d.rst := rfl
@[simp] theorem Dev.setHome_elec (d : Dev) (h : Nat) (x : Home) : (d.setHome h x).elec = d.elec := rfl
@[simp] theorem Dev.setHome_free (d : Dev) (h : Nat) (x : Home) : (d.setHome h x).free = d.free := rfl
@[simp] theorem Dev.setHome_out (d : Dev) (h : Nat) (x : Home) : (d.setHome h x).out = d.out := rfl

/-! ## modHome -/

@[simp] theorem Dev.modHome_regs (d : Dev) (h : Nat) (f : Home → Home) : (d.modHome h f).regs = d.regs := rfl
@[simp] theorem Dev.modHome_shadow (d : Dev) (h : Nat) (f : Home → Home) : (d.modHome h f).shadow = d.shadow := rfl
@[simp] theorem Dev.modHome_prev (d : Dev) (h : Nat) (f : Home → Home) : (d.modHome h f).prev = d.prev := rfl
@[simp] theorem Dev.modHome_snap (d : Dev) (h : Nat) (f : Home → Home) : (d.modHome h f).snap = d.snap := rfl
@[simp] theorem Dev.modHome_tabs (d : Dev) (h : Nat) (f : Home → Home) : (d.modHome h f).tabs = d.tabs := rfl
@[simp] theorem Dev.modHome_tabSh (d : Dev) (h : Nat) (f : Home → Home) : (d.modHome h f).tabSh = d.tabSh := rfl
@[simp] theorem Dev.modHome_tabPrev (d : Dev) (h : Nat) (f : Home → Home) : (d.modHome h f).tabPrev = d.tabPrev := rfl
@[simp] theorem Dev.modHome_tabUe (d : Dev) (h : Nat) (f : Home → Home) : (d.modHome h f).tabUe = d.tabUe := rfl
@[simp] theorem Dev.modHome_tabUeSh (d : Dev) (h : Nat) (f : Home → Home) : (d.modHome h f).tabUeSh = d.tabUeSh := rfl
@[simp] theorem Dev.modHome_tabUePrev (d : Dev) (h : Nat) (f : Home → Home) : (d.modHome h f).tabUePrev = d.tabUePrev := rfl
@[simp] theorem Dev.modHome_tabUeSeen (d : Dev) (h : Nat) (f : Home → Home) : (d.modHome h f).tabUeSeen = d.tabUeSeen := rfl
@[simp] theorem Dev.modHome_ctl (d : Dev) (h : Nat) (f : Home → Home) : (d.modHome h f).ctl = d.ctl := rfl
@[simp] theorem Dev.modHome_flt (d : Dev) (h : Nat) (f : Home → Home) : (d.modHome h f).flt = d.flt := rfl
@[simp] theorem Dev.modHome_obs (d : Dev) (h : Nat) (f : Home → Home) : (d.modHome h f).obs = d.obs := rfl
@[simp] theorem Dev.modHome_octets (d : Dev) (h : Nat) (f : Home → Home) : (d.modHome h f).octets = d.octets := rfl
@[simp] theorem Dev.modHome_ports (d : Dev) (h : Nat) (f : Home → Home) : (d.modHome h f).ports = d.ports := rfl
@[simp] theorem Dev.modHome_links (d : Dev) (h : Nat) (f : Home → Home) : (d.modHome h f).links = d.links := rfl
@[simp] theorem Dev.modHome_core (d : Dev) (h : Nat) (f : Home → Home) : (d.modHome h f).core = d.core := rfl
@[simp] theorem Dev.modHome_ldr (d : Dev) (h : Nat) (f : Home → Home) : (d.modHome h f).ldr = d.ldr := rfl
@[simp] theorem Dev.modHome_dmv (d : Dev) (h : Nat) (f : Home → Home) : (d.modHome h f).dmv = d.dmv := rfl
@[simp] theorem Dev.modHome_traf (d : Dev) (h : Nat) (f : Home → Home) : (d.modHome h f).traf = d.traf := rfl
@[simp] theorem Dev.modHome_prot (d : Dev) (h : Nat) (f : Home → Home) : (d.modHome h f).prot = d.prot := rfl
@[simp] theorem Dev.modHome_slots (d : Dev) (h : Nat) (f : Home → Home) : (d.modHome h f).slots = d.slots := rfl
@[simp] theorem Dev.modHome_prf (d : Dev) (h : Nat) (f : Home → Home) : (d.modHome h f).prf = d.prf := rfl
@[simp] theorem Dev.modHome_sec (d : Dev) (h : Nat) (f : Home → Home) : (d.modHome h f).sec = d.sec := rfl
@[simp] theorem Dev.modHome_rst (d : Dev) (h : Nat) (f : Home → Home) : (d.modHome h f).rst = d.rst := rfl
@[simp] theorem Dev.modHome_elec (d : Dev) (h : Nat) (f : Home → Home) : (d.modHome h f).elec = d.elec := rfl
@[simp] theorem Dev.modHome_free (d : Dev) (h : Nat) (f : Home → Home) : (d.modHome h f).free = d.free := rfl
@[simp] theorem Dev.modHome_out (d : Dev) (h : Nat) (f : Home → Home) : (d.modHome h f).out = d.out := rfl

/-! ## setDirAt -/

@[simp] theorem Dev.setDirAt_regs (d : Dev) (h set_ : Nat) (l : List DirEnt) : (d.setDirAt h set_ l).regs = d.regs := rfl
@[simp] theorem Dev.setDirAt_shadow (d : Dev) (h set_ : Nat) (l : List DirEnt) : (d.setDirAt h set_ l).shadow = d.shadow := rfl
@[simp] theorem Dev.setDirAt_prev (d : Dev) (h set_ : Nat) (l : List DirEnt) : (d.setDirAt h set_ l).prev = d.prev := rfl
@[simp] theorem Dev.setDirAt_snap (d : Dev) (h set_ : Nat) (l : List DirEnt) : (d.setDirAt h set_ l).snap = d.snap := rfl
@[simp] theorem Dev.setDirAt_tabs (d : Dev) (h set_ : Nat) (l : List DirEnt) : (d.setDirAt h set_ l).tabs = d.tabs := rfl
@[simp] theorem Dev.setDirAt_tabSh (d : Dev) (h set_ : Nat) (l : List DirEnt) : (d.setDirAt h set_ l).tabSh = d.tabSh := rfl
@[simp] theorem Dev.setDirAt_tabPrev (d : Dev) (h set_ : Nat) (l : List DirEnt) : (d.setDirAt h set_ l).tabPrev = d.tabPrev := rfl
@[simp] theorem Dev.setDirAt_tabUe (d : Dev) (h set_ : Nat) (l : List DirEnt) : (d.setDirAt h set_ l).tabUe = d.tabUe := rfl
@[simp] theorem Dev.setDirAt_tabUeSh (d : Dev) (h set_ : Nat) (l : List DirEnt) : (d.setDirAt h set_ l).tabUeSh = d.tabUeSh := rfl
@[simp] theorem Dev.setDirAt_tabUePrev (d : Dev) (h set_ : Nat) (l : List DirEnt) : (d.setDirAt h set_ l).tabUePrev = d.tabUePrev := rfl
@[simp] theorem Dev.setDirAt_tabUeSeen (d : Dev) (h set_ : Nat) (l : List DirEnt) : (d.setDirAt h set_ l).tabUeSeen = d.tabUeSeen := rfl
@[simp] theorem Dev.setDirAt_ctl (d : Dev) (h set_ : Nat) (l : List DirEnt) : (d.setDirAt h set_ l).ctl = d.ctl := rfl
@[simp] theorem Dev.setDirAt_flt (d : Dev) (h set_ : Nat) (l : List DirEnt) : (d.setDirAt h set_ l).flt = d.flt := rfl
@[simp] theorem Dev.setDirAt_obs (d : Dev) (h set_ : Nat) (l : List DirEnt) : (d.setDirAt h set_ l).obs = d.obs := rfl
@[simp] theorem Dev.setDirAt_octets (d : Dev) (h set_ : Nat) (l : List DirEnt) : (d.setDirAt h set_ l).octets = d.octets := rfl
@[simp] theorem Dev.setDirAt_ports (d : Dev) (h set_ : Nat) (l : List DirEnt) : (d.setDirAt h set_ l).ports = d.ports := rfl
@[simp] theorem Dev.setDirAt_links (d : Dev) (h set_ : Nat) (l : List DirEnt) : (d.setDirAt h set_ l).links = d.links := rfl
@[simp] theorem Dev.setDirAt_core (d : Dev) (h set_ : Nat) (l : List DirEnt) : (d.setDirAt h set_ l).core = d.core := rfl
@[simp] theorem Dev.setDirAt_ldr (d : Dev) (h set_ : Nat) (l : List DirEnt) : (d.setDirAt h set_ l).ldr = d.ldr := rfl
@[simp] theorem Dev.setDirAt_dmv (d : Dev) (h set_ : Nat) (l : List DirEnt) : (d.setDirAt h set_ l).dmv = d.dmv := rfl
@[simp] theorem Dev.setDirAt_traf (d : Dev) (h set_ : Nat) (l : List DirEnt) : (d.setDirAt h set_ l).traf = d.traf := rfl
@[simp] theorem Dev.setDirAt_prot (d : Dev) (h set_ : Nat) (l : List DirEnt) : (d.setDirAt h set_ l).prot = d.prot := rfl
@[simp] theorem Dev.setDirAt_slots (d : Dev) (h set_ : Nat) (l : List DirEnt) : (d.setDirAt h set_ l).slots = d.slots := rfl
@[simp] theorem Dev.setDirAt_prf (d : Dev) (h set_ : Nat) (l : List DirEnt) : (d.setDirAt h set_ l).prf = d.prf := rfl
@[simp] theorem Dev.setDirAt_sec (d : Dev) (h set_ : Nat) (l : List DirEnt) : (d.setDirAt h set_ l).sec = d.sec := rfl
@[simp] theorem Dev.setDirAt_rst (d : Dev) (h set_ : Nat) (l : List DirEnt) : (d.setDirAt h set_ l).rst = d.rst := rfl
@[simp] theorem Dev.setDirAt_elec (d : Dev) (h set_ : Nat) (l : List DirEnt) : (d.setDirAt h set_ l).elec = d.elec := rfl
@[simp] theorem Dev.setDirAt_free (d : Dev) (h set_ : Nat) (l : List DirEnt) : (d.setDirAt h set_ l).free = d.free := rfl
@[simp] theorem Dev.setDirAt_out (d : Dev) (h set_ : Nat) (l : List DirEnt) : (d.setDirAt h set_ l).out = d.out := rfl

/-! ## setSccAt -/

@[simp] theorem Dev.setSccAt_regs (d : Dev) (h set_ : Nat) (l : List SccLine) : (d.setSccAt h set_ l).regs = d.regs := rfl
@[simp] theorem Dev.setSccAt_shadow (d : Dev) (h set_ : Nat) (l : List SccLine) : (d.setSccAt h set_ l).shadow = d.shadow := rfl
@[simp] theorem Dev.setSccAt_prev (d : Dev) (h set_ : Nat) (l : List SccLine) : (d.setSccAt h set_ l).prev = d.prev := rfl
@[simp] theorem Dev.setSccAt_snap (d : Dev) (h set_ : Nat) (l : List SccLine) : (d.setSccAt h set_ l).snap = d.snap := rfl
@[simp] theorem Dev.setSccAt_tabs (d : Dev) (h set_ : Nat) (l : List SccLine) : (d.setSccAt h set_ l).tabs = d.tabs := rfl
@[simp] theorem Dev.setSccAt_tabSh (d : Dev) (h set_ : Nat) (l : List SccLine) : (d.setSccAt h set_ l).tabSh = d.tabSh := rfl
@[simp] theorem Dev.setSccAt_tabPrev (d : Dev) (h set_ : Nat) (l : List SccLine) : (d.setSccAt h set_ l).tabPrev = d.tabPrev := rfl
@[simp] theorem Dev.setSccAt_tabUe (d : Dev) (h set_ : Nat) (l : List SccLine) : (d.setSccAt h set_ l).tabUe = d.tabUe := rfl
@[simp] theorem Dev.setSccAt_tabUeSh (d : Dev) (h set_ : Nat) (l : List SccLine) : (d.setSccAt h set_ l).tabUeSh = d.tabUeSh := rfl
@[simp] theorem Dev.setSccAt_tabUePrev (d : Dev) (h set_ : Nat) (l : List SccLine) : (d.setSccAt h set_ l).tabUePrev = d.tabUePrev := rfl
@[simp] theorem Dev.setSccAt_tabUeSeen (d : Dev) (h set_ : Nat) (l : List SccLine) : (d.setSccAt h set_ l).tabUeSeen = d.tabUeSeen := rfl
@[simp] theorem Dev.setSccAt_ctl (d : Dev) (h set_ : Nat) (l : List SccLine) : (d.setSccAt h set_ l).ctl = d.ctl := rfl
@[simp] theorem Dev.setSccAt_flt (d : Dev) (h set_ : Nat) (l : List SccLine) : (d.setSccAt h set_ l).flt = d.flt := rfl
@[simp] theorem Dev.setSccAt_obs (d : Dev) (h set_ : Nat) (l : List SccLine) : (d.setSccAt h set_ l).obs = d.obs := rfl
@[simp] theorem Dev.setSccAt_octets (d : Dev) (h set_ : Nat) (l : List SccLine) : (d.setSccAt h set_ l).octets = d.octets := rfl
@[simp] theorem Dev.setSccAt_ports (d : Dev) (h set_ : Nat) (l : List SccLine) : (d.setSccAt h set_ l).ports = d.ports := rfl
@[simp] theorem Dev.setSccAt_links (d : Dev) (h set_ : Nat) (l : List SccLine) : (d.setSccAt h set_ l).links = d.links := rfl
@[simp] theorem Dev.setSccAt_core (d : Dev) (h set_ : Nat) (l : List SccLine) : (d.setSccAt h set_ l).core = d.core := rfl
@[simp] theorem Dev.setSccAt_ldr (d : Dev) (h set_ : Nat) (l : List SccLine) : (d.setSccAt h set_ l).ldr = d.ldr := rfl
@[simp] theorem Dev.setSccAt_dmv (d : Dev) (h set_ : Nat) (l : List SccLine) : (d.setSccAt h set_ l).dmv = d.dmv := rfl
@[simp] theorem Dev.setSccAt_traf (d : Dev) (h set_ : Nat) (l : List SccLine) : (d.setSccAt h set_ l).traf = d.traf := rfl
@[simp] theorem Dev.setSccAt_prot (d : Dev) (h set_ : Nat) (l : List SccLine) : (d.setSccAt h set_ l).prot = d.prot := rfl
@[simp] theorem Dev.setSccAt_slots (d : Dev) (h set_ : Nat) (l : List SccLine) : (d.setSccAt h set_ l).slots = d.slots := rfl
@[simp] theorem Dev.setSccAt_prf (d : Dev) (h set_ : Nat) (l : List SccLine) : (d.setSccAt h set_ l).prf = d.prf := rfl
@[simp] theorem Dev.setSccAt_sec (d : Dev) (h set_ : Nat) (l : List SccLine) : (d.setSccAt h set_ l).sec = d.sec := rfl
@[simp] theorem Dev.setSccAt_rst (d : Dev) (h set_ : Nat) (l : List SccLine) : (d.setSccAt h set_ l).rst = d.rst := rfl
@[simp] theorem Dev.setSccAt_elec (d : Dev) (h set_ : Nat) (l : List SccLine) : (d.setSccAt h set_ l).elec = d.elec := rfl
@[simp] theorem Dev.setSccAt_free (d : Dev) (h set_ : Nat) (l : List SccLine) : (d.setSccAt h set_ l).free = d.free := rfl
@[simp] theorem Dev.setSccAt_out (d : Dev) (h set_ : Nat) (l : List SccLine) : (d.setSccAt h set_ l).out = d.out := rfl

/-! ## modTray -/

@[simp] theorem Dev.modTray_regs (d : Dev) (id : Nat) (f : TrayEnt → TrayEnt) : (d.modTray id f).regs = d.regs := rfl
@[simp] theorem Dev.modTray_shadow (d : Dev) (id : Nat) (f : TrayEnt → TrayEnt) : (d.modTray id f).shadow = d.shadow := rfl
@[simp] theorem Dev.modTray_prev (d : Dev) (id : Nat) (f : TrayEnt → TrayEnt) : (d.modTray id f).prev = d.prev := rfl
@[simp] theorem Dev.modTray_snap (d : Dev) (id : Nat) (f : TrayEnt → TrayEnt) : (d.modTray id f).snap = d.snap := rfl
@[simp] theorem Dev.modTray_tabs (d : Dev) (id : Nat) (f : TrayEnt → TrayEnt) : (d.modTray id f).tabs = d.tabs := rfl
@[simp] theorem Dev.modTray_tabSh (d : Dev) (id : Nat) (f : TrayEnt → TrayEnt) : (d.modTray id f).tabSh = d.tabSh := rfl
@[simp] theorem Dev.modTray_tabPrev (d : Dev) (id : Nat) (f : TrayEnt → TrayEnt) : (d.modTray id f).tabPrev = d.tabPrev := rfl
@[simp] theorem Dev.modTray_tabUe (d : Dev) (id : Nat) (f : TrayEnt → TrayEnt) : (d.modTray id f).tabUe = d.tabUe := rfl
@[simp] theorem Dev.modTray_tabUeSh (d : Dev) (id : Nat) (f : TrayEnt → TrayEnt) : (d.modTray id f).tabUeSh = d.tabUeSh := rfl
@[simp] theorem Dev.modTray_tabUePrev (d : Dev) (id : Nat) (f : TrayEnt → TrayEnt) : (d.modTray id f).tabUePrev = d.tabUePrev := rfl
@[simp] theorem Dev.modTray_tabUeSeen (d : Dev) (id : Nat) (f : TrayEnt → TrayEnt) : (d.modTray id f).tabUeSeen = d.tabUeSeen := rfl
@[simp] theorem Dev.modTray_ctl (d : Dev) (id : Nat) (f : TrayEnt → TrayEnt) : (d.modTray id f).ctl = d.ctl := rfl
@[simp] theorem Dev.modTray_flt (d : Dev) (id : Nat) (f : TrayEnt → TrayEnt) : (d.modTray id f).flt = d.flt := rfl
@[simp] theorem Dev.modTray_obs (d : Dev) (id : Nat) (f : TrayEnt → TrayEnt) : (d.modTray id f).obs = d.obs := rfl
@[simp] theorem Dev.modTray_octets (d : Dev) (id : Nat) (f : TrayEnt → TrayEnt) : (d.modTray id f).octets = d.octets := rfl
@[simp] theorem Dev.modTray_ports (d : Dev) (id : Nat) (f : TrayEnt → TrayEnt) : (d.modTray id f).ports = d.ports := rfl
@[simp] theorem Dev.modTray_links (d : Dev) (id : Nat) (f : TrayEnt → TrayEnt) : (d.modTray id f).links = d.links := rfl
@[simp] theorem Dev.modTray_core (d : Dev) (id : Nat) (f : TrayEnt → TrayEnt) : (d.modTray id f).core = d.core := rfl
@[simp] theorem Dev.modTray_ldr (d : Dev) (id : Nat) (f : TrayEnt → TrayEnt) : (d.modTray id f).ldr = d.ldr := rfl
@[simp] theorem Dev.modTray_dmv (d : Dev) (id : Nat) (f : TrayEnt → TrayEnt) : (d.modTray id f).dmv = d.dmv := rfl
@[simp] theorem Dev.modTray_traf (d : Dev) (id : Nat) (f : TrayEnt → TrayEnt) : (d.modTray id f).traf = d.traf := rfl
@[simp] theorem Dev.modTray_prot (d : Dev) (id : Nat) (f : TrayEnt → TrayEnt) : (d.modTray id f).prot = d.prot := rfl
@[simp] theorem Dev.modTray_slots (d : Dev) (id : Nat) (f : TrayEnt → TrayEnt) : (d.modTray id f).slots = d.slots := rfl
@[simp] theorem Dev.modTray_prf (d : Dev) (id : Nat) (f : TrayEnt → TrayEnt) : (d.modTray id f).prf = d.prf := rfl
@[simp] theorem Dev.modTray_sec (d : Dev) (id : Nat) (f : TrayEnt → TrayEnt) : (d.modTray id f).sec = d.sec := rfl
@[simp] theorem Dev.modTray_rst (d : Dev) (id : Nat) (f : TrayEnt → TrayEnt) : (d.modTray id f).rst = d.rst := rfl
@[simp] theorem Dev.modTray_elec (d : Dev) (id : Nat) (f : TrayEnt → TrayEnt) : (d.modTray id f).elec = d.elec := rfl
@[simp] theorem Dev.modTray_free (d : Dev) (id : Nat) (f : TrayEnt → TrayEnt) : (d.modTray id f).free = d.free := rfl
@[simp] theorem Dev.modTray_out (d : Dev) (id : Nat) (f : TrayEnt → TrayEnt) : (d.modTray id f).out = d.out := rfl

/-! ## setLbyte -/

@[simp] theorem Dev.setLbyte_regs (d : Dev) (a : Nat) (b : Byte) : (d.setLbyte a b).regs = d.regs := rfl
@[simp] theorem Dev.setLbyte_shadow (d : Dev) (a : Nat) (b : Byte) : (d.setLbyte a b).shadow = d.shadow := rfl
@[simp] theorem Dev.setLbyte_prev (d : Dev) (a : Nat) (b : Byte) : (d.setLbyte a b).prev = d.prev := rfl
@[simp] theorem Dev.setLbyte_snap (d : Dev) (a : Nat) (b : Byte) : (d.setLbyte a b).snap = d.snap := rfl
@[simp] theorem Dev.setLbyte_tabs (d : Dev) (a : Nat) (b : Byte) : (d.setLbyte a b).tabs = d.tabs := rfl
@[simp] theorem Dev.setLbyte_tabSh (d : Dev) (a : Nat) (b : Byte) : (d.setLbyte a b).tabSh = d.tabSh := rfl
@[simp] theorem Dev.setLbyte_tabPrev (d : Dev) (a : Nat) (b : Byte) : (d.setLbyte a b).tabPrev = d.tabPrev := rfl
@[simp] theorem Dev.setLbyte_tabUe (d : Dev) (a : Nat) (b : Byte) : (d.setLbyte a b).tabUe = d.tabUe := rfl
@[simp] theorem Dev.setLbyte_tabUeSh (d : Dev) (a : Nat) (b : Byte) : (d.setLbyte a b).tabUeSh = d.tabUeSh := rfl
@[simp] theorem Dev.setLbyte_tabUePrev (d : Dev) (a : Nat) (b : Byte) : (d.setLbyte a b).tabUePrev = d.tabUePrev := rfl
@[simp] theorem Dev.setLbyte_tabUeSeen (d : Dev) (a : Nat) (b : Byte) : (d.setLbyte a b).tabUeSeen = d.tabUeSeen := rfl
@[simp] theorem Dev.setLbyte_ctl (d : Dev) (a : Nat) (b : Byte) : (d.setLbyte a b).ctl = d.ctl := rfl
@[simp] theorem Dev.setLbyte_flt (d : Dev) (a : Nat) (b : Byte) : (d.setLbyte a b).flt = d.flt := rfl
@[simp] theorem Dev.setLbyte_obs (d : Dev) (a : Nat) (b : Byte) : (d.setLbyte a b).obs = d.obs := rfl
@[simp] theorem Dev.setLbyte_octets (d : Dev) (a : Nat) (b : Byte) : (d.setLbyte a b).octets = d.octets := rfl
@[simp] theorem Dev.setLbyte_ports (d : Dev) (a : Nat) (b : Byte) : (d.setLbyte a b).ports = d.ports := rfl
@[simp] theorem Dev.setLbyte_links (d : Dev) (a : Nat) (b : Byte) : (d.setLbyte a b).links = d.links := rfl
@[simp] theorem Dev.setLbyte_core (d : Dev) (a : Nat) (b : Byte) : (d.setLbyte a b).core = d.core := rfl
@[simp] theorem Dev.setLbyte_coh (d : Dev) (a : Nat) (b : Byte) : (d.setLbyte a b).coh = d.coh := rfl
@[simp] theorem Dev.setLbyte_dmv (d : Dev) (a : Nat) (b : Byte) : (d.setLbyte a b).dmv = d.dmv := rfl
@[simp] theorem Dev.setLbyte_traf (d : Dev) (a : Nat) (b : Byte) : (d.setLbyte a b).traf = d.traf := rfl
@[simp] theorem Dev.setLbyte_prot (d : Dev) (a : Nat) (b : Byte) : (d.setLbyte a b).prot = d.prot := rfl
@[simp] theorem Dev.setLbyte_slots (d : Dev) (a : Nat) (b : Byte) : (d.setLbyte a b).slots = d.slots := rfl
@[simp] theorem Dev.setLbyte_prf (d : Dev) (a : Nat) (b : Byte) : (d.setLbyte a b).prf = d.prf := rfl
@[simp] theorem Dev.setLbyte_sec (d : Dev) (a : Nat) (b : Byte) : (d.setLbyte a b).sec = d.sec := rfl
@[simp] theorem Dev.setLbyte_rst (d : Dev) (a : Nat) (b : Byte) : (d.setLbyte a b).rst = d.rst := rfl
@[simp] theorem Dev.setLbyte_elec (d : Dev) (a : Nat) (b : Byte) : (d.setLbyte a b).elec = d.elec := rfl
@[simp] theorem Dev.setLbyte_free (d : Dev) (a : Nat) (b : Byte) : (d.setLbyte a b).free = d.free := rfl
@[simp] theorem Dev.setLbyte_out (d : Dev) (a : Nat) (b : Byte) : (d.setLbyte a b).out = d.out := rfl

/-! ## setQueue -/

@[simp] theorem Dev.setQueue_regs (d : Dev) (q : Nat) (x : Queue) : (d.setQueue q x).regs = d.regs := rfl
@[simp] theorem Dev.setQueue_shadow (d : Dev) (q : Nat) (x : Queue) : (d.setQueue q x).shadow = d.shadow := rfl
@[simp] theorem Dev.setQueue_prev (d : Dev) (q : Nat) (x : Queue) : (d.setQueue q x).prev = d.prev := rfl
@[simp] theorem Dev.setQueue_snap (d : Dev) (q : Nat) (x : Queue) : (d.setQueue q x).snap = d.snap := rfl
@[simp] theorem Dev.setQueue_tabs (d : Dev) (q : Nat) (x : Queue) : (d.setQueue q x).tabs = d.tabs := rfl
@[simp] theorem Dev.setQueue_tabSh (d : Dev) (q : Nat) (x : Queue) : (d.setQueue q x).tabSh = d.tabSh := rfl
@[simp] theorem Dev.setQueue_tabPrev (d : Dev) (q : Nat) (x : Queue) : (d.setQueue q x).tabPrev = d.tabPrev := rfl
@[simp] theorem Dev.setQueue_tabUe (d : Dev) (q : Nat) (x : Queue) : (d.setQueue q x).tabUe = d.tabUe := rfl
@[simp] theorem Dev.setQueue_tabUeSh (d : Dev) (q : Nat) (x : Queue) : (d.setQueue q x).tabUeSh = d.tabUeSh := rfl
@[simp] theorem Dev.setQueue_tabUePrev (d : Dev) (q : Nat) (x : Queue) : (d.setQueue q x).tabUePrev = d.tabUePrev := rfl
@[simp] theorem Dev.setQueue_tabUeSeen (d : Dev) (q : Nat) (x : Queue) : (d.setQueue q x).tabUeSeen = d.tabUeSeen := rfl
@[simp] theorem Dev.setQueue_ctl (d : Dev) (q : Nat) (x : Queue) : (d.setQueue q x).ctl = d.ctl := rfl
@[simp] theorem Dev.setQueue_flt (d : Dev) (q : Nat) (x : Queue) : (d.setQueue q x).flt = d.flt := rfl
@[simp] theorem Dev.setQueue_obs (d : Dev) (q : Nat) (x : Queue) : (d.setQueue q x).obs = d.obs := rfl
@[simp] theorem Dev.setQueue_octets (d : Dev) (q : Nat) (x : Queue) : (d.setQueue q x).octets = d.octets := rfl
@[simp] theorem Dev.setQueue_ports (d : Dev) (q : Nat) (x : Queue) : (d.setQueue q x).ports = d.ports := rfl
@[simp] theorem Dev.setQueue_links (d : Dev) (q : Nat) (x : Queue) : (d.setQueue q x).links = d.links := rfl
@[simp] theorem Dev.setQueue_core (d : Dev) (q : Nat) (x : Queue) : (d.setQueue q x).core = d.core := rfl
@[simp] theorem Dev.setQueue_coh (d : Dev) (q : Nat) (x : Queue) : (d.setQueue q x).coh = d.coh := rfl
@[simp] theorem Dev.setQueue_ldr (d : Dev) (q : Nat) (x : Queue) : (d.setQueue q x).ldr = d.ldr := rfl
@[simp] theorem Dev.setQueue_traf (d : Dev) (q : Nat) (x : Queue) : (d.setQueue q x).traf = d.traf := rfl
@[simp] theorem Dev.setQueue_prot (d : Dev) (q : Nat) (x : Queue) : (d.setQueue q x).prot = d.prot := rfl
@[simp] theorem Dev.setQueue_slots (d : Dev) (q : Nat) (x : Queue) : (d.setQueue q x).slots = d.slots := rfl
@[simp] theorem Dev.setQueue_prf (d : Dev) (q : Nat) (x : Queue) : (d.setQueue q x).prf = d.prf := rfl
@[simp] theorem Dev.setQueue_sec (d : Dev) (q : Nat) (x : Queue) : (d.setQueue q x).sec = d.sec := rfl
@[simp] theorem Dev.setQueue_rst (d : Dev) (q : Nat) (x : Queue) : (d.setQueue q x).rst = d.rst := rfl
@[simp] theorem Dev.setQueue_elec (d : Dev) (q : Nat) (x : Queue) : (d.setQueue q x).elec = d.elec := rfl
@[simp] theorem Dev.setQueue_free (d : Dev) (q : Nat) (x : Queue) : (d.setQueue q x).free = d.free := rfl
@[simp] theorem Dev.setQueue_out (d : Dev) (q : Nat) (x : Queue) : (d.setQueue q x).out = d.out := rfl

/-! ## setMigr -/

@[simp] theorem Dev.setMigr_regs (d : Dev) (m : Nat) (g : Option Migr) : (d.setMigr m g).regs = d.regs := rfl
@[simp] theorem Dev.setMigr_shadow (d : Dev) (m : Nat) (g : Option Migr) : (d.setMigr m g).shadow = d.shadow := rfl
@[simp] theorem Dev.setMigr_prev (d : Dev) (m : Nat) (g : Option Migr) : (d.setMigr m g).prev = d.prev := rfl
@[simp] theorem Dev.setMigr_snap (d : Dev) (m : Nat) (g : Option Migr) : (d.setMigr m g).snap = d.snap := rfl
@[simp] theorem Dev.setMigr_tabs (d : Dev) (m : Nat) (g : Option Migr) : (d.setMigr m g).tabs = d.tabs := rfl
@[simp] theorem Dev.setMigr_tabSh (d : Dev) (m : Nat) (g : Option Migr) : (d.setMigr m g).tabSh = d.tabSh := rfl
@[simp] theorem Dev.setMigr_tabPrev (d : Dev) (m : Nat) (g : Option Migr) : (d.setMigr m g).tabPrev = d.tabPrev := rfl
@[simp] theorem Dev.setMigr_tabUe (d : Dev) (m : Nat) (g : Option Migr) : (d.setMigr m g).tabUe = d.tabUe := rfl
@[simp] theorem Dev.setMigr_tabUeSh (d : Dev) (m : Nat) (g : Option Migr) : (d.setMigr m g).tabUeSh = d.tabUeSh := rfl
@[simp] theorem Dev.setMigr_tabUePrev (d : Dev) (m : Nat) (g : Option Migr) : (d.setMigr m g).tabUePrev = d.tabUePrev := rfl
@[simp] theorem Dev.setMigr_tabUeSeen (d : Dev) (m : Nat) (g : Option Migr) : (d.setMigr m g).tabUeSeen = d.tabUeSeen := rfl
@[simp] theorem Dev.setMigr_ctl (d : Dev) (m : Nat) (g : Option Migr) : (d.setMigr m g).ctl = d.ctl := rfl
@[simp] theorem Dev.setMigr_flt (d : Dev) (m : Nat) (g : Option Migr) : (d.setMigr m g).flt = d.flt := rfl
@[simp] theorem Dev.setMigr_obs (d : Dev) (m : Nat) (g : Option Migr) : (d.setMigr m g).obs = d.obs := rfl
@[simp] theorem Dev.setMigr_octets (d : Dev) (m : Nat) (g : Option Migr) : (d.setMigr m g).octets = d.octets := rfl
@[simp] theorem Dev.setMigr_ports (d : Dev) (m : Nat) (g : Option Migr) : (d.setMigr m g).ports = d.ports := rfl
@[simp] theorem Dev.setMigr_links (d : Dev) (m : Nat) (g : Option Migr) : (d.setMigr m g).links = d.links := rfl
@[simp] theorem Dev.setMigr_core (d : Dev) (m : Nat) (g : Option Migr) : (d.setMigr m g).core = d.core := rfl
@[simp] theorem Dev.setMigr_coh (d : Dev) (m : Nat) (g : Option Migr) : (d.setMigr m g).coh = d.coh := rfl
@[simp] theorem Dev.setMigr_ldr (d : Dev) (m : Nat) (g : Option Migr) : (d.setMigr m g).ldr = d.ldr := rfl
@[simp] theorem Dev.setMigr_traf (d : Dev) (m : Nat) (g : Option Migr) : (d.setMigr m g).traf = d.traf := rfl
@[simp] theorem Dev.setMigr_prot (d : Dev) (m : Nat) (g : Option Migr) : (d.setMigr m g).prot = d.prot := rfl
@[simp] theorem Dev.setMigr_slots (d : Dev) (m : Nat) (g : Option Migr) : (d.setMigr m g).slots = d.slots := rfl
@[simp] theorem Dev.setMigr_prf (d : Dev) (m : Nat) (g : Option Migr) : (d.setMigr m g).prf = d.prf := rfl
@[simp] theorem Dev.setMigr_sec (d : Dev) (m : Nat) (g : Option Migr) : (d.setMigr m g).sec = d.sec := rfl
@[simp] theorem Dev.setMigr_rst (d : Dev) (m : Nat) (g : Option Migr) : (d.setMigr m g).rst = d.rst := rfl
@[simp] theorem Dev.setMigr_elec (d : Dev) (m : Nat) (g : Option Migr) : (d.setMigr m g).elec = d.elec := rfl
@[simp] theorem Dev.setMigr_free (d : Dev) (m : Nat) (g : Option Migr) : (d.setMigr m g).free = d.free := rfl
@[simp] theorem Dev.setMigr_out (d : Dev) (m : Nat) (g : Option Migr) : (d.setMigr m g).out = d.out := rfl

/-! ## setMeter -/

@[simp] theorem Dev.setMeter_regs (d : Dev) (p e : Nat) (x : Meter) : (d.setMeter p e x).regs = d.regs := rfl
@[simp] theorem Dev.setMeter_shadow (d : Dev) (p e : Nat) (x : Meter) : (d.setMeter p e x).shadow = d.shadow := rfl
@[simp] theorem Dev.setMeter_prev (d : Dev) (p e : Nat) (x : Meter) : (d.setMeter p e x).prev = d.prev := rfl
@[simp] theorem Dev.setMeter_snap (d : Dev) (p e : Nat) (x : Meter) : (d.setMeter p e x).snap = d.snap := rfl
@[simp] theorem Dev.setMeter_tabs (d : Dev) (p e : Nat) (x : Meter) : (d.setMeter p e x).tabs = d.tabs := rfl
@[simp] theorem Dev.setMeter_tabSh (d : Dev) (p e : Nat) (x : Meter) : (d.setMeter p e x).tabSh = d.tabSh := rfl
@[simp] theorem Dev.setMeter_tabPrev (d : Dev) (p e : Nat) (x : Meter) : (d.setMeter p e x).tabPrev = d.tabPrev := rfl
@[simp] theorem Dev.setMeter_tabUe (d : Dev) (p e : Nat) (x : Meter) : (d.setMeter p e x).tabUe = d.tabUe := rfl
@[simp] theorem Dev.setMeter_tabUeSh (d : Dev) (p e : Nat) (x : Meter) : (d.setMeter p e x).tabUeSh = d.tabUeSh := rfl
@[simp] theorem Dev.setMeter_tabUePrev (d : Dev) (p e : Nat) (x : Meter) : (d.setMeter p e x).tabUePrev = d.tabUePrev := rfl
@[simp] theorem Dev.setMeter_tabUeSeen (d : Dev) (p e : Nat) (x : Meter) : (d.setMeter p e x).tabUeSeen = d.tabUeSeen := rfl
@[simp] theorem Dev.setMeter_ctl (d : Dev) (p e : Nat) (x : Meter) : (d.setMeter p e x).ctl = d.ctl := rfl
@[simp] theorem Dev.setMeter_flt (d : Dev) (p e : Nat) (x : Meter) : (d.setMeter p e x).flt = d.flt := rfl
@[simp] theorem Dev.setMeter_obs (d : Dev) (p e : Nat) (x : Meter) : (d.setMeter p e x).obs = d.obs := rfl
@[simp] theorem Dev.setMeter_octets (d : Dev) (p e : Nat) (x : Meter) : (d.setMeter p e x).octets = d.octets := rfl
@[simp] theorem Dev.setMeter_ports (d : Dev) (p e : Nat) (x : Meter) : (d.setMeter p e x).ports = d.ports := rfl
@[simp] theorem Dev.setMeter_links (d : Dev) (p e : Nat) (x : Meter) : (d.setMeter p e x).links = d.links := rfl
@[simp] theorem Dev.setMeter_core (d : Dev) (p e : Nat) (x : Meter) : (d.setMeter p e x).core = d.core := rfl
@[simp] theorem Dev.setMeter_coh (d : Dev) (p e : Nat) (x : Meter) : (d.setMeter p e x).coh = d.coh := rfl
@[simp] theorem Dev.setMeter_ldr (d : Dev) (p e : Nat) (x : Meter) : (d.setMeter p e x).ldr = d.ldr := rfl
@[simp] theorem Dev.setMeter_dmv (d : Dev) (p e : Nat) (x : Meter) : (d.setMeter p e x).dmv = d.dmv := rfl
@[simp] theorem Dev.setMeter_prot (d : Dev) (p e : Nat) (x : Meter) : (d.setMeter p e x).prot = d.prot := rfl
@[simp] theorem Dev.setMeter_slots (d : Dev) (p e : Nat) (x : Meter) : (d.setMeter p e x).slots = d.slots := rfl
@[simp] theorem Dev.setMeter_prf (d : Dev) (p e : Nat) (x : Meter) : (d.setMeter p e x).prf = d.prf := rfl
@[simp] theorem Dev.setMeter_sec (d : Dev) (p e : Nat) (x : Meter) : (d.setMeter p e x).sec = d.sec := rfl
@[simp] theorem Dev.setMeter_rst (d : Dev) (p e : Nat) (x : Meter) : (d.setMeter p e x).rst = d.rst := rfl
@[simp] theorem Dev.setMeter_elec (d : Dev) (p e : Nat) (x : Meter) : (d.setMeter p e x).elec = d.elec := rfl
@[simp] theorem Dev.setMeter_free (d : Dev) (p e : Nat) (x : Meter) : (d.setMeter p e x).free = d.free := rfl
@[simp] theorem Dev.setMeter_out (d : Dev) (p e : Nat) (x : Meter) : (d.setMeter p e x).out = d.out := rfl

/-! ## setShaper -/

@[simp] theorem Dev.setShaper_regs (d : Dev) (p t : Nat) (x : Shaper) : (d.setShaper p t x).regs = d.regs := rfl
@[simp] theorem Dev.setShaper_shadow (d : Dev) (p t : Nat) (x : Shaper) : (d.setShaper p t x).shadow = d.shadow := rfl
@[simp] theorem Dev.setShaper_prev (d : Dev) (p t : Nat) (x : Shaper) : (d.setShaper p t x).prev = d.prev := rfl
@[simp] theorem Dev.setShaper_snap (d : Dev) (p t : Nat) (x : Shaper) : (d.setShaper p t x).snap = d.snap := rfl
@[simp] theorem Dev.setShaper_tabs (d : Dev) (p t : Nat) (x : Shaper) : (d.setShaper p t x).tabs = d.tabs := rfl
@[simp] theorem Dev.setShaper_tabSh (d : Dev) (p t : Nat) (x : Shaper) : (d.setShaper p t x).tabSh = d.tabSh := rfl
@[simp] theorem Dev.setShaper_tabPrev (d : Dev) (p t : Nat) (x : Shaper) : (d.setShaper p t x).tabPrev = d.tabPrev := rfl
@[simp] theorem Dev.setShaper_tabUe (d : Dev) (p t : Nat) (x : Shaper) : (d.setShaper p t x).tabUe = d.tabUe := rfl
@[simp] theorem Dev.setShaper_tabUeSh (d : Dev) (p t : Nat) (x : Shaper) : (d.setShaper p t x).tabUeSh = d.tabUeSh := rfl
@[simp] theorem Dev.setShaper_tabUePrev (d : Dev) (p t : Nat) (x : Shaper) : (d.setShaper p t x).tabUePrev = d.tabUePrev := rfl
@[simp] theorem Dev.setShaper_tabUeSeen (d : Dev) (p t : Nat) (x : Shaper) : (d.setShaper p t x).tabUeSeen = d.tabUeSeen := rfl
@[simp] theorem Dev.setShaper_ctl (d : Dev) (p t : Nat) (x : Shaper) : (d.setShaper p t x).ctl = d.ctl := rfl
@[simp] theorem Dev.setShaper_flt (d : Dev) (p t : Nat) (x : Shaper) : (d.setShaper p t x).flt = d.flt := rfl
@[simp] theorem Dev.setShaper_obs (d : Dev) (p t : Nat) (x : Shaper) : (d.setShaper p t x).obs = d.obs := rfl
@[simp] theorem Dev.setShaper_octets (d : Dev) (p t : Nat) (x : Shaper) : (d.setShaper p t x).octets = d.octets := rfl
@[simp] theorem Dev.setShaper_ports (d : Dev) (p t : Nat) (x : Shaper) : (d.setShaper p t x).ports = d.ports := rfl
@[simp] theorem Dev.setShaper_links (d : Dev) (p t : Nat) (x : Shaper) : (d.setShaper p t x).links = d.links := rfl
@[simp] theorem Dev.setShaper_core (d : Dev) (p t : Nat) (x : Shaper) : (d.setShaper p t x).core = d.core := rfl
@[simp] theorem Dev.setShaper_coh (d : Dev) (p t : Nat) (x : Shaper) : (d.setShaper p t x).coh = d.coh := rfl
@[simp] theorem Dev.setShaper_ldr (d : Dev) (p t : Nat) (x : Shaper) : (d.setShaper p t x).ldr = d.ldr := rfl
@[simp] theorem Dev.setShaper_dmv (d : Dev) (p t : Nat) (x : Shaper) : (d.setShaper p t x).dmv = d.dmv := rfl
@[simp] theorem Dev.setShaper_prot (d : Dev) (p t : Nat) (x : Shaper) : (d.setShaper p t x).prot = d.prot := rfl
@[simp] theorem Dev.setShaper_slots (d : Dev) (p t : Nat) (x : Shaper) : (d.setShaper p t x).slots = d.slots := rfl
@[simp] theorem Dev.setShaper_prf (d : Dev) (p t : Nat) (x : Shaper) : (d.setShaper p t x).prf = d.prf := rfl
@[simp] theorem Dev.setShaper_sec (d : Dev) (p t : Nat) (x : Shaper) : (d.setShaper p t x).sec = d.sec := rfl
@[simp] theorem Dev.setShaper_rst (d : Dev) (p t : Nat) (x : Shaper) : (d.setShaper p t x).rst = d.rst := rfl
@[simp] theorem Dev.setShaper_elec (d : Dev) (p t : Nat) (x : Shaper) : (d.setShaper p t x).elec = d.elec := rfl
@[simp] theorem Dev.setShaper_free (d : Dev) (p t : Nat) (x : Shaper) : (d.setShaper p t x).free = d.free := rfl
@[simp] theorem Dev.setShaper_out (d : Dev) (p t : Nat) (x : Shaper) : (d.setShaper p t x).out = d.out := rfl

/-! ## setEgress -/

@[simp] theorem Dev.setEgress_regs (d : Dev) (p : Nat) (x : Egress) : (d.setEgress p x).regs = d.regs := rfl
@[simp] theorem Dev.setEgress_shadow (d : Dev) (p : Nat) (x : Egress) : (d.setEgress p x).shadow = d.shadow := rfl
@[simp] theorem Dev.setEgress_prev (d : Dev) (p : Nat) (x : Egress) : (d.setEgress p x).prev = d.prev := rfl
@[simp] theorem Dev.setEgress_snap (d : Dev) (p : Nat) (x : Egress) : (d.setEgress p x).snap = d.snap := rfl
@[simp] theorem Dev.setEgress_tabs (d : Dev) (p : Nat) (x : Egress) : (d.setEgress p x).tabs = d.tabs := rfl
@[simp] theorem Dev.setEgress_tabSh (d : Dev) (p : Nat) (x : Egress) : (d.setEgress p x).tabSh = d.tabSh := rfl
@[simp] theorem Dev.setEgress_tabPrev (d : Dev) (p : Nat) (x : Egress) : (d.setEgress p x).tabPrev = d.tabPrev := rfl
@[simp] theorem Dev.setEgress_tabUe (d : Dev) (p : Nat) (x : Egress) : (d.setEgress p x).tabUe = d.tabUe := rfl
@[simp] theorem Dev.setEgress_tabUeSh (d : Dev) (p : Nat) (x : Egress) : (d.setEgress p x).tabUeSh = d.tabUeSh := rfl
@[simp] theorem Dev.setEgress_tabUePrev (d : Dev) (p : Nat) (x : Egress) : (d.setEgress p x).tabUePrev = d.tabUePrev := rfl
@[simp] theorem Dev.setEgress_tabUeSeen (d : Dev) (p : Nat) (x : Egress) : (d.setEgress p x).tabUeSeen = d.tabUeSeen := rfl
@[simp] theorem Dev.setEgress_ctl (d : Dev) (p : Nat) (x : Egress) : (d.setEgress p x).ctl = d.ctl := rfl
@[simp] theorem Dev.setEgress_flt (d : Dev) (p : Nat) (x : Egress) : (d.setEgress p x).flt = d.flt := rfl
@[simp] theorem Dev.setEgress_obs (d : Dev) (p : Nat) (x : Egress) : (d.setEgress p x).obs = d.obs := rfl
@[simp] theorem Dev.setEgress_octets (d : Dev) (p : Nat) (x : Egress) : (d.setEgress p x).octets = d.octets := rfl
@[simp] theorem Dev.setEgress_ports (d : Dev) (p : Nat) (x : Egress) : (d.setEgress p x).ports = d.ports := rfl
@[simp] theorem Dev.setEgress_links (d : Dev) (p : Nat) (x : Egress) : (d.setEgress p x).links = d.links := rfl
@[simp] theorem Dev.setEgress_core (d : Dev) (p : Nat) (x : Egress) : (d.setEgress p x).core = d.core := rfl
@[simp] theorem Dev.setEgress_coh (d : Dev) (p : Nat) (x : Egress) : (d.setEgress p x).coh = d.coh := rfl
@[simp] theorem Dev.setEgress_ldr (d : Dev) (p : Nat) (x : Egress) : (d.setEgress p x).ldr = d.ldr := rfl
@[simp] theorem Dev.setEgress_dmv (d : Dev) (p : Nat) (x : Egress) : (d.setEgress p x).dmv = d.dmv := rfl
@[simp] theorem Dev.setEgress_prot (d : Dev) (p : Nat) (x : Egress) : (d.setEgress p x).prot = d.prot := rfl
@[simp] theorem Dev.setEgress_slots (d : Dev) (p : Nat) (x : Egress) : (d.setEgress p x).slots = d.slots := rfl
@[simp] theorem Dev.setEgress_prf (d : Dev) (p : Nat) (x : Egress) : (d.setEgress p x).prf = d.prf := rfl
@[simp] theorem Dev.setEgress_sec (d : Dev) (p : Nat) (x : Egress) : (d.setEgress p x).sec = d.sec := rfl
@[simp] theorem Dev.setEgress_rst (d : Dev) (p : Nat) (x : Egress) : (d.setEgress p x).rst = d.rst := rfl
@[simp] theorem Dev.setEgress_elec (d : Dev) (p : Nat) (x : Egress) : (d.setEgress p x).elec = d.elec := rfl
@[simp] theorem Dev.setEgress_free (d : Dev) (p : Nat) (x : Egress) : (d.setEgress p x).free = d.free := rfl
@[simp] theorem Dev.setEgress_out (d : Dev) (p : Nat) (x : Egress) : (d.setEgress p x).out = d.out := rfl

/-! ## setSlot -/

@[simp] theorem Dev.setSlot_regs (d : Dev) (n : Nat) (x : Slot) : (d.setSlot n x).regs = d.regs := rfl
@[simp] theorem Dev.setSlot_shadow (d : Dev) (n : Nat) (x : Slot) : (d.setSlot n x).shadow = d.shadow := rfl
@[simp] theorem Dev.setSlot_prev (d : Dev) (n : Nat) (x : Slot) : (d.setSlot n x).prev = d.prev := rfl
@[simp] theorem Dev.setSlot_snap (d : Dev) (n : Nat) (x : Slot) : (d.setSlot n x).snap = d.snap := rfl
@[simp] theorem Dev.setSlot_tabs (d : Dev) (n : Nat) (x : Slot) : (d.setSlot n x).tabs = d.tabs := rfl
@[simp] theorem Dev.setSlot_tabSh (d : Dev) (n : Nat) (x : Slot) : (d.setSlot n x).tabSh = d.tabSh := rfl
@[simp] theorem Dev.setSlot_tabPrev (d : Dev) (n : Nat) (x : Slot) : (d.setSlot n x).tabPrev = d.tabPrev := rfl
@[simp] theorem Dev.setSlot_tabUe (d : Dev) (n : Nat) (x : Slot) : (d.setSlot n x).tabUe = d.tabUe := rfl
@[simp] theorem Dev.setSlot_tabUeSh (d : Dev) (n : Nat) (x : Slot) : (d.setSlot n x).tabUeSh = d.tabUeSh := rfl
@[simp] theorem Dev.setSlot_tabUePrev (d : Dev) (n : Nat) (x : Slot) : (d.setSlot n x).tabUePrev = d.tabUePrev := rfl
@[simp] theorem Dev.setSlot_tabUeSeen (d : Dev) (n : Nat) (x : Slot) : (d.setSlot n x).tabUeSeen = d.tabUeSeen := rfl
@[simp] theorem Dev.setSlot_ctl (d : Dev) (n : Nat) (x : Slot) : (d.setSlot n x).ctl = d.ctl := rfl
@[simp] theorem Dev.setSlot_flt (d : Dev) (n : Nat) (x : Slot) : (d.setSlot n x).flt = d.flt := rfl
@[simp] theorem Dev.setSlot_obs (d : Dev) (n : Nat) (x : Slot) : (d.setSlot n x).obs = d.obs := rfl
@[simp] theorem Dev.setSlot_octets (d : Dev) (n : Nat) (x : Slot) : (d.setSlot n x).octets = d.octets := rfl
@[simp] theorem Dev.setSlot_ports (d : Dev) (n : Nat) (x : Slot) : (d.setSlot n x).ports = d.ports := rfl
@[simp] theorem Dev.setSlot_links (d : Dev) (n : Nat) (x : Slot) : (d.setSlot n x).links = d.links := rfl
@[simp] theorem Dev.setSlot_core (d : Dev) (n : Nat) (x : Slot) : (d.setSlot n x).core = d.core := rfl
@[simp] theorem Dev.setSlot_coh (d : Dev) (n : Nat) (x : Slot) : (d.setSlot n x).coh = d.coh := rfl
@[simp] theorem Dev.setSlot_ldr (d : Dev) (n : Nat) (x : Slot) : (d.setSlot n x).ldr = d.ldr := rfl
@[simp] theorem Dev.setSlot_dmv (d : Dev) (n : Nat) (x : Slot) : (d.setSlot n x).dmv = d.dmv := rfl
@[simp] theorem Dev.setSlot_traf (d : Dev) (n : Nat) (x : Slot) : (d.setSlot n x).traf = d.traf := rfl
@[simp] theorem Dev.setSlot_prot (d : Dev) (n : Nat) (x : Slot) : (d.setSlot n x).prot = d.prot := rfl
@[simp] theorem Dev.setSlot_prf (d : Dev) (n : Nat) (x : Slot) : (d.setSlot n x).prf = d.prf := rfl
@[simp] theorem Dev.setSlot_sec (d : Dev) (n : Nat) (x : Slot) : (d.setSlot n x).sec = d.sec := rfl
@[simp] theorem Dev.setSlot_rst (d : Dev) (n : Nat) (x : Slot) : (d.setSlot n x).rst = d.rst := rfl
@[simp] theorem Dev.setSlot_elec (d : Dev) (n : Nat) (x : Slot) : (d.setSlot n x).elec = d.elec := rfl
@[simp] theorem Dev.setSlot_free (d : Dev) (n : Nat) (x : Slot) : (d.setSlot n x).free = d.free := rfl
@[simp] theorem Dev.setSlot_out (d : Dev) (n : Nat) (x : Slot) : (d.setSlot n x).out = d.out := rfl

/-! ## emit -/

@[simp] theorem Dev.emit_regs (d : Dev) (e : Emit) : (d.emit e).regs = d.regs := rfl
@[simp] theorem Dev.emit_shadow (d : Dev) (e : Emit) : (d.emit e).shadow = d.shadow := rfl
@[simp] theorem Dev.emit_prev (d : Dev) (e : Emit) : (d.emit e).prev = d.prev := rfl
@[simp] theorem Dev.emit_snap (d : Dev) (e : Emit) : (d.emit e).snap = d.snap := rfl
@[simp] theorem Dev.emit_tabs (d : Dev) (e : Emit) : (d.emit e).tabs = d.tabs := rfl
@[simp] theorem Dev.emit_tabSh (d : Dev) (e : Emit) : (d.emit e).tabSh = d.tabSh := rfl
@[simp] theorem Dev.emit_tabPrev (d : Dev) (e : Emit) : (d.emit e).tabPrev = d.tabPrev := rfl
@[simp] theorem Dev.emit_tabUe (d : Dev) (e : Emit) : (d.emit e).tabUe = d.tabUe := rfl
@[simp] theorem Dev.emit_tabUeSh (d : Dev) (e : Emit) : (d.emit e).tabUeSh = d.tabUeSh := rfl
@[simp] theorem Dev.emit_tabUePrev (d : Dev) (e : Emit) : (d.emit e).tabUePrev = d.tabUePrev := rfl
@[simp] theorem Dev.emit_tabUeSeen (d : Dev) (e : Emit) : (d.emit e).tabUeSeen = d.tabUeSeen := rfl
@[simp] theorem Dev.emit_ctl (d : Dev) (e : Emit) : (d.emit e).ctl = d.ctl := rfl
@[simp] theorem Dev.emit_flt (d : Dev) (e : Emit) : (d.emit e).flt = d.flt := rfl
@[simp] theorem Dev.emit_obs (d : Dev) (e : Emit) : (d.emit e).obs = d.obs := rfl
@[simp] theorem Dev.emit_octets (d : Dev) (e : Emit) : (d.emit e).octets = d.octets := rfl
@[simp] theorem Dev.emit_ports (d : Dev) (e : Emit) : (d.emit e).ports = d.ports := rfl
@[simp] theorem Dev.emit_links (d : Dev) (e : Emit) : (d.emit e).links = d.links := rfl
@[simp] theorem Dev.emit_core (d : Dev) (e : Emit) : (d.emit e).core = d.core := rfl
@[simp] theorem Dev.emit_coh (d : Dev) (e : Emit) : (d.emit e).coh = d.coh := rfl
@[simp] theorem Dev.emit_ldr (d : Dev) (e : Emit) : (d.emit e).ldr = d.ldr := rfl
@[simp] theorem Dev.emit_dmv (d : Dev) (e : Emit) : (d.emit e).dmv = d.dmv := rfl
@[simp] theorem Dev.emit_traf (d : Dev) (e : Emit) : (d.emit e).traf = d.traf := rfl
@[simp] theorem Dev.emit_prot (d : Dev) (e : Emit) : (d.emit e).prot = d.prot := rfl
@[simp] theorem Dev.emit_slots (d : Dev) (e : Emit) : (d.emit e).slots = d.slots := rfl
@[simp] theorem Dev.emit_prf (d : Dev) (e : Emit) : (d.emit e).prf = d.prf := rfl
@[simp] theorem Dev.emit_sec (d : Dev) (e : Emit) : (d.emit e).sec = d.sec := rfl
@[simp] theorem Dev.emit_rst (d : Dev) (e : Emit) : (d.emit e).rst = d.rst := rfl
@[simp] theorem Dev.emit_elec (d : Dev) (e : Emit) : (d.emit e).elec = d.elec := rfl
@[simp] theorem Dev.emit_free (d : Dev) (e : Emit) : (d.emit e).free = d.free := rfl

/-! ## cycleEnd -/

@[simp] theorem Dev.cycleEnd_regs (d : Dev) : (d.cycleEnd).regs = d.regs := rfl
@[simp] theorem Dev.cycleEnd_shadow (d : Dev) : (d.cycleEnd).shadow = d.shadow := rfl
@[simp] theorem Dev.cycleEnd_prev (d : Dev) : (d.cycleEnd).prev = d.prev := rfl
@[simp] theorem Dev.cycleEnd_snap (d : Dev) : (d.cycleEnd).snap = d.snap := rfl
@[simp] theorem Dev.cycleEnd_tabs (d : Dev) : (d.cycleEnd).tabs = d.tabs := rfl
@[simp] theorem Dev.cycleEnd_tabSh (d : Dev) : (d.cycleEnd).tabSh = d.tabSh := rfl
@[simp] theorem Dev.cycleEnd_tabPrev (d : Dev) : (d.cycleEnd).tabPrev = d.tabPrev := rfl
@[simp] theorem Dev.cycleEnd_tabUe (d : Dev) : (d.cycleEnd).tabUe = d.tabUe := rfl
@[simp] theorem Dev.cycleEnd_tabUeSh (d : Dev) : (d.cycleEnd).tabUeSh = d.tabUeSh := rfl
@[simp] theorem Dev.cycleEnd_tabUePrev (d : Dev) : (d.cycleEnd).tabUePrev = d.tabUePrev := rfl
@[simp] theorem Dev.cycleEnd_tabUeSeen (d : Dev) : (d.cycleEnd).tabUeSeen = d.tabUeSeen := rfl
@[simp] theorem Dev.cycleEnd_ctl (d : Dev) : (d.cycleEnd).ctl = d.ctl := rfl
@[simp] theorem Dev.cycleEnd_obs (d : Dev) : (d.cycleEnd).obs = d.obs := rfl
@[simp] theorem Dev.cycleEnd_octets (d : Dev) : (d.cycleEnd).octets = d.octets := rfl
@[simp] theorem Dev.cycleEnd_ports (d : Dev) : (d.cycleEnd).ports = d.ports := rfl
@[simp] theorem Dev.cycleEnd_links (d : Dev) : (d.cycleEnd).links = d.links := rfl
@[simp] theorem Dev.cycleEnd_core (d : Dev) : (d.cycleEnd).core = d.core := rfl
@[simp] theorem Dev.cycleEnd_coh (d : Dev) : (d.cycleEnd).coh = d.coh := rfl
@[simp] theorem Dev.cycleEnd_ldr (d : Dev) : (d.cycleEnd).ldr = d.ldr := rfl
@[simp] theorem Dev.cycleEnd_dmv (d : Dev) : (d.cycleEnd).dmv = d.dmv := rfl
@[simp] theorem Dev.cycleEnd_traf (d : Dev) : (d.cycleEnd).traf = d.traf := rfl
@[simp] theorem Dev.cycleEnd_prot (d : Dev) : (d.cycleEnd).prot = d.prot := rfl
@[simp] theorem Dev.cycleEnd_slots (d : Dev) : (d.cycleEnd).slots = d.slots := rfl
@[simp] theorem Dev.cycleEnd_prf (d : Dev) : (d.cycleEnd).prf = d.prf := rfl
@[simp] theorem Dev.cycleEnd_sec (d : Dev) : (d.cycleEnd).sec = d.sec := rfl
@[simp] theorem Dev.cycleEnd_rst (d : Dev) : (d.cycleEnd).rst = d.rst := rfl
@[simp] theorem Dev.cycleEnd_elec (d : Dev) : (d.cycleEnd).elec = d.elec := rfl
@[simp] theorem Dev.cycleEnd_free (d : Dev) : (d.cycleEnd).free = d.free := rfl
@[simp] theorem Dev.cycleEnd_out (d : Dev) : (d.cycleEnd).out = d.out := rfl

end Sys2Proof.Machine
end

