-- ==== Sys2Proof/Laws/Ops.lean ====
section
/-! SUPPORT. What the named operations do, once for each: bit fields, registers, tables, the Larder's bytes, the units'
records, free values, packets. -/

namespace Sys2Proof.Machine

/-! ## Bit fields -/

theorem testBit_bits (w : W64) (lo n i : Nat) : (bits w lo n).testBit i = (decide (i < n) && w.getLsbD (lo + i)) := by
  simp [bits, Nat.testBit_mod_two_pow, Nat.testBit_shiftRight, BitVec.getLsbD]

theorem getLsbD_setBits (w : W64) (lo n v i : Nat) (hi : i < 64) :
    (setBits w lo n v).getLsbD i = if lo ≤ i ∧ i < lo + n then v.testBit (i - lo) else w.getLsbD i := by
  have e1 : (BitVec.ofNat 64 ((2 ^ n - 1) <<< lo)).getLsbD i = decide (lo ≤ i ∧ i < lo + n) := by
    simp only [BitVec.getLsbD_ofNat, hi, decide_true, Bool.true_and, Nat.testBit_shiftLeft, Nat.testBit_two_pow_sub_one]
    by_cases h1 : lo ≤ i <;> simp [h1] <;> omega
  have e2 : (BitVec.ofNat 64 ((v % 2 ^ n) <<< lo)).getLsbD i = (decide (lo ≤ i ∧ i < lo + n) && v.testBit (i - lo)) := by
    simp only [BitVec.getLsbD_ofNat, hi, decide_true, Bool.true_and, Nat.testBit_shiftLeft, Nat.testBit_mod_two_pow]
    by_cases h1 : lo ≤ i
    · by_cases h2 : i < lo + n
      · have : i - lo < n := by omega
        simp [h1, h2, this]
      · have : ¬ i - lo < n := by omega
        simp [h1, h2, this]
    · simp [h1]
  simp only [setBits, BitVec.getLsbD_or, BitVec.getLsbD_and, BitVec.getLsbD_not, e1, e2, hi, decide_true, Bool.true_and]
  by_cases h : lo ≤ i ∧ i < lo + n <;> simp [h]

/-- A field reads what was written to it, at its width. -/
theorem bits_setBits_self (w : W64) (lo n v : Nat) (h : lo + n ≤ 64) : bits (setBits w lo n v) lo n = v % 2 ^ n := by
  apply Nat.eq_of_testBit_eq
  intro i
  rw [testBit_bits, Nat.testBit_mod_two_pow]
  by_cases hi : i < n
  · rw [getLsbD_setBits _ _ _ _ _ (by omega), if_pos (by omega)]
    simp [hi]
  · simp [hi]

/-- A field that shares no bit with the one written reads as before. -/
theorem bits_setBits_ne (w : W64) (lo n v lo2 n2 : Nat) (h : lo2 + n2 ≤ lo ∨ lo + n ≤ lo2) :
    bits (setBits w lo n v) lo2 n2 = bits w lo2 n2 := by
  apply Nat.eq_of_testBit_eq
  intro i
  rw [testBit_bits, testBit_bits]
  by_cases hi : i < n2
  · by_cases h64 : lo2 + i < 64
    · rw [getLsbD_setBits _ _ _ _ _ h64, if_neg (by omega)]
    · simp [BitVec.getLsbD_of_ge _ _ (Nat.le_of_not_lt h64)]
  · simp [hi]

theorem bits_lt (w : W64) (lo n : Nat) : bits w lo n < 2 ^ n := Nat.mod_lt _ (Nat.two_pow_pos n)

/-! ## Registers -/

@[simp] theorem Dev.word_setWord_self (d : Dev) (r : Reg) (i : Nat) (w : W64) (j : Nat) : (d.setWord r i w j).word r i j = w :=
  SMap.get_set_self _ _ _ _

/-- A register at another address reads as before. -/
theorem Dev.word_setWord_ne (d : Dev) (r q : Reg) (i k : Nat) (w : W64) (j l : Nat) (h : q.addr k l ≠ r.addr i j) :
    (d.setWord r i w j).word q k l = d.word q k l :=
  SMap.get_set_ne _ _ _ _ h

/-- A field reads what was put into it, at its width. -/
theorem Dev.get_put_self (d : Dev) (f : Fld) (i v j : Nat) (h : f.lo + f.width ≤ 64) :
    (d.put f i v j).get f i j = v % 2 ^ f.width := by
  simp only [Dev.get, Dev.put, Dev.word_setWord_self]
  exact bits_setBits_self _ _ _ _ h

/-- A field of a register at another address reads as before. -/
theorem Dev.get_put_ne (d : Dev) (f g : Fld) (i k v j l : Nat) (h : g.reg.addr k l ≠ f.reg.addr i j) :
    (d.put f i v j).get g k l = d.get g k l := by
  simp only [Dev.get, Dev.put, Dev.word_setWord_ne _ _ _ _ _ _ _ _ h]

/-- Another field of the same register reads as before. -/
theorem Dev.get_put_field (d : Dev) (f g : Fld) (i v j : Nat) (hr : g.reg = f.reg)
    (h : g.lo + g.width ≤ f.lo ∨ f.lo + f.width ≤ g.lo) : (d.put f i v j).get g i j = d.get g i j := by
  simp only [Dev.get, Dev.put, hr, Dev.word_setWord_self]
  exact bits_setBits_ne _ _ _ _ _ _ h

@[simp] theorem Dev.shWord_setShWord_self (d : Dev) (r : Reg) (i : Nat) (w : W64) (j : Nat) :
    (d.setShWord r i w j).shWord r i j = w := SMap.get_set_self _ _ _ _

/-- The active registers do not see a write to the shadow. -/
@[simp] theorem Dev.get_putSh (d : Dev) (f g : Fld) (i k v j l : Nat) : (d.putSh f i v j).get g k l = d.get g k l := rfl

@[simp] theorem Dev.get_emit (d : Dev) (e : Emit) (f : Fld) (i j : Nat) : (d.emit e).get f i j = d.get f i j := rfl
@[simp] theorem Dev.get_setPort (d : Dev) (p : Nat) (x : Port) (f : Fld) (i j : Nat) : (d.setPort p x).get f i j = d.get f i j := rfl
@[simp] theorem Dev.get_modPort (d : Dev) (p : Nat) (g : Port → Port) (f : Fld) (i j : Nat) : (d.modPort p g).get f i j = d.get f i j := rfl
@[simp] theorem Dev.get_setLink (d : Dev) (p : Nat) (x : Link) (f : Fld) (i j : Nat) : (d.setLink p x).get f i j = d.get f i j := rfl
@[simp] theorem Dev.get_modLink (d : Dev) (p : Nat) (g : Link → Link) (f : Fld) (i j : Nat) : (d.modLink p g).get f i j = d.get f i j := rfl
@[simp] theorem Dev.get_setOctet (d : Dev) (p : Nat) (x : Octet) (f : Fld) (i j : Nat) : (d.setOctet p x).get f i j = d.get f i j := rfl
@[simp] theorem Dev.get_setSlot (d : Dev) (p : Nat) (x : Slot) (f : Fld) (i j : Nat) : (d.setSlot p x).get f i j = d.get f i j := rfl
@[simp] theorem Dev.get_setQueue (d : Dev) (p : Nat) (x : Queue) (f : Fld) (i j : Nat) : (d.setQueue p x).get f i j = d.get f i j := rfl
@[simp] theorem Dev.get_modHome (d : Dev) (p : Nat) (g : Home → Home) (f : Fld) (i j : Nat) : (d.modHome p g).get f i j = d.get f i j := rfl
@[simp] theorem Dev.get_setLbyte (d : Dev) (a : Nat) (b : Byte) (f : Fld) (i j : Nat) : (d.setLbyte a b).get f i j = d.get f i j := rfl
@[simp] theorem Dev.get_setTab (d : Dev) (t k x w : Nat) (v : W64) (f : Fld) (i j : Nat) : (d.setTab t k x w v).get f i j = d.get f i j := rfl

/-! ## Tables -/

@[simp] theorem Dev.tab_setTab_self (d : Dev) (t i x w : Nat) (v : W64) : (d.setTab t i x w v).tab t i x w = v :=
  SMap.get_set_self _ _ _ _
@[simp] theorem Dev.tabS_setTabS_self (d : Dev) (t i x w : Nat) (v : W64) : (d.setTabS t i x w v).tabS t i x w = v :=
  SMap.get_set_self _ _ _ _
@[simp] theorem Dev.tab_setTabS (d : Dev) (t i x w : Nat) (v : W64) (u k y z : Nat) : (d.setTabS t i x w v).tab u k y z = d.tab u k y z := rfl

theorem Dev.tab_setTab_ne (d : Dev) (t i x w : Nat) (v : W64) (u k y z : Nat) (h : tkey u k y z ≠ tkey t i x w) :
    (d.setTab t i x w v).tab u k y z = d.tab u k y z := SMap.get_set_ne _ _ _ _ h

/-! ## The Larder's bytes -/

@[simp] theorem Dev.lbyte_setLbyte_self (d : Dev) (a : Nat) (b : Byte) : (d.setLbyte a b).lbyte a = b := SMap.get_set_self _ _ _ _

theorem Dev.lbyte_setLbyte_ne (d : Dev) (a c : Nat) (b : Byte) (h : c ≠ a) : (d.setLbyte a b).lbyte c = d.lbyte c :=
  SMap.get_set_ne _ _ _ _ h

/-- A run of bytes leaves every byte outside it. -/
theorem Dev.lbyte_lwrite_out (d : Dev) (a c : Nat) (l : Bytes) (h : c < a ∨ a + l.length ≤ c) : (d.lwrite a l).lbyte c = d.lbyte c := by
  induction l generalizing d a with
  | nil => rfl
  | cons b r ih =>
    simp only [List.length_cons] at h
    rw [Dev.lwrite, ih _ _ (by omega), Dev.lbyte_setLbyte_ne _ _ _ _ (by omega)]

/-- A run of bytes is read back. -/
theorem Dev.lbyte_lwrite_in (d : Dev) (a i : Nat) (l : Bytes) (h : i < l.length) : (d.lwrite a l).lbyte (a + i) = l[i] := by
  induction l generalizing d a i with
  | nil => simp at h
  | cons b r ih =>
    rw [Dev.lwrite]
    cases i with
    | zero => rw [Dev.lbyte_lwrite_out _ _ _ _ (by omega)]; simp
    | succ i =>
      have := ih (d.setLbyte a b) (a + 1) i (by simpa using h)
      rw [show a + (i + 1) = a + 1 + i by omega, this]; simp

/-! ## The units' records -/

@[simp] theorem Dev.octet_setOctet_self (d : Dev) (o : Nat) (x : Octet) : (d.setOctet o x).octet o = x := SMap.get_set_self _ _ _ _
@[simp] theorem Dev.port_setPort_self (d : Dev) (p : Nat) (x : Port) : (d.setPort p x).port p = x := SMap.get_set_self _ _ _ _
@[simp] theorem Dev.port_modPort_self (d : Dev) (p : Nat) (f : Port → Port) : (d.modPort p f).port p = f (d.port p) := SMap.get_set_self _ _ _ _
@[simp] theorem Dev.link_setLink_self (d : Dev) (k : Nat) (x : Link) : (d.setLink k x).link k = x := SMap.get_set_self _ _ _ _
@[simp] theorem Dev.link_modLink_self (d : Dev) (k : Nat) (f : Link → Link) : (d.modLink k f).link k = f (d.link k) := SMap.get_set_self _ _ _ _
@[simp] theorem Dev.slot_setSlot_self (d : Dev) (n : Nat) (x : Slot) : (d.setSlot n x).slot n = x := SMap.get_set_self _ _ _ _
@[simp] theorem Dev.queue_setQueue_self (d : Dev) (q : Nat) (x : Queue) : (d.setQueue q x).queue q = x := SMap.get_set_self _ _ _ _
@[simp] theorem Dev.home_modHome_self (d : Dev) (h : Nat) (f : Home → Home) : (d.modHome h f).home h = f (d.home h) := SMap.get_set_self _ _ _ _

theorem Dev.port_setPort_ne (d : Dev) (p q : Nat) (x : Port) (h : q ≠ p) : (d.setPort p x).port q = d.port q := SMap.get_set_ne _ _ _ _ h
theorem Dev.link_setLink_ne (d : Dev) (p q : Nat) (x : Link) (h : q ≠ p) : (d.setLink p x).link q = d.link q := SMap.get_set_ne _ _ _ _ h
theorem Dev.octet_setOctet_ne (d : Dev) (p q : Nat) (x : Octet) (h : q ≠ p) : (d.setOctet p x).octet q = d.octet q := SMap.get_set_ne _ _ _ _ h
theorem Dev.slot_setSlot_ne (d : Dev) (p q : Nat) (x : Slot) (h : q ≠ p) : (d.setSlot p x).slot q = d.slot q := SMap.get_set_ne _ _ _ _ h
theorem Dev.queue_setQueue_ne (d : Dev) (p q : Nat) (x : Queue) (h : q ≠ p) : (d.setQueue p x).queue q = d.queue q := SMap.get_set_ne _ _ _ _ h

@[simp] theorem Dev.port_put (d : Dev) (f : Fld) (i v j p : Nat) : (d.put f i v j).port p = d.port p := rfl
@[simp] theorem Dev.link_put (d : Dev) (f : Fld) (i v j p : Nat) : (d.put f i v j).link p = d.link p := rfl
@[simp] theorem Dev.octet_put (d : Dev) (f : Fld) (i v j p : Nat) : (d.put f i v j).octet p = d.octet p := rfl
@[simp] theorem Dev.slot_put (d : Dev) (f : Fld) (i v j p : Nat) : (d.put f i v j).slot p = d.slot p := rfl
@[simp] theorem Dev.queue_put (d : Dev) (f : Fld) (i v j p : Nat) : (d.put f i v j).queue p = d.queue p := rfl
@[simp] theorem Dev.home_put (d : Dev) (f : Fld) (i v j p : Nat) : (d.put f i v j).home p = d.home p := rfl
@[simp] theorem Dev.tab_put (d : Dev) (f : Fld) (i v j t k x w : Nat) : (d.put f i v j).tab t k x w = d.tab t k x w := rfl
@[simp] theorem Dev.lbyte_put (d : Dev) (f : Fld) (i v j a : Nat) : (d.put f i v j).lbyte a = d.lbyte a := rfl

/-! ## Free values -/

/-- Drawing a free value only moves the counter on. -/
theorem Dev.fresh_eq (d : Dev) : d.fresh = (Config.freeValue d.free, { d with free := d.free + 1 }) := rfl

/-! ## Bytes and packets -/

@[simp] theorem leBytes_length (n v : Nat) : (leBytes n v).length = n := by
  induction n generalizing v with
  | zero => rfl
  | succ n ih => simp [leBytes, ih]

theorem leNat_leBytes (n v : Nat) : leNat (leBytes n v) = v % 256 ^ n := by
  induction n generalizing v with
  | zero => simp [leBytes, leNat, Nat.mod_one]
  | succ n ih =>
    simp only [leBytes, leNat, ih, BitVec.toNat_ofNat]
    rw [Nat.pow_succ' (n := n), Nat.mod_mul, show v % 2 ^ 8 = v % 256 from rfl]

@[simp] theorem fitBytes_length (n : Nat) (b : Bytes) : (fitBytes n b).length = n := by
  simp [fitBytes]; omega

@[simp] theorem Msg.cellData_length (m : Msg) (k : Nat) : (m.cellData k).length = 64 := by
  unfold Msg.cellData
  split <;> exact fitBytes_length _ _

@[simp] theorem Msg.extBytes_length (m : Msg) : m.extBytes.length = 84 := by
  unfold Msg.extBytes
  split <;> exact fitBytes_length _ _

/-- A message packet is as long as its header says: 16 bytes, 84 more with an extension, 64 a cell, a 4-byte tail. -/
theorem msgPacket_length (m : Msg) (vc seq : Nat) (retx : Bool) :
    (msgPacket m vc seq retx).length = 16 + ((if m.xh then 84 else 0) + 64 * (m.len + 1)) + 4 := by
  cases hx : m.xh <;> simp [msgPacket, hx, Function.comp_def, List.map_const', List.sum_replicate] <;> omega

end Sys2Proof.Machine
end

