-- ==== Sys2Proof/Laws/SoundBase.lean ====
section
/-! SUPPORT. The invariant `Dev.Sound` through branches, pairs, options and folds. -/

namespace Sys2Proof.Machine

theorem sound_ite {c : Prop} [Decidable c] {a b : Dev} (ha : a.Sound) (hb : b.Sound) : (if c then a else b).Sound := by split <;> assumption
theorem sound_ite2 {α : Type} {c : Prop} [Decidable c] {a b : α × Dev} (ha : a.2.Sound) (hb : b.2.Sound) : (if c then a else b).2.Sound := by split <;> assumption
/-- The device of a pair an operation may give is sound. -/
def OSound {α : Type} : Option (α × Dev) → Prop
  | none => True
  | some x => x.2.Sound
/-- The device an operation may give is sound. -/
def OSound1 : Option Dev → Prop
  | none => True
  | some x => x.Sound
theorem osound_none {α : Type} : OSound (none : Option (α × Dev)) := trivial
theorem osound_some {α : Type} {x : α × Dev} (h : x.2.Sound) : OSound (some x) := h
theorem osound1_none : OSound1 none := trivial
theorem osound1_some {x : Dev} (h : x.Sound) : OSound1 (some x) := h
theorem osound_ite {α : Type} {c : Prop} [Decidable c] {a b : Option (α × Dev)} (ha : OSound a) (hb : OSound b) : OSound (if c then a else b) := by split <;> assumption
theorem osound1_ite {c : Prop} [Decidable c] {a b : Option Dev} (ha : OSound1 a) (hb : OSound1 b) : OSound1 (if c then a else b) := by split <;> assumption
theorem sound_foldl {α : Type} {l : List α} {f : Dev → α → Dev} {d : Dev} (h : d.Sound) (hf : ∀ d x, d.Sound → (f d x).Sound) : (l.foldl f d).Sound := by
  induction l generalizing d with
  | nil => exact h
  | cons x l ih => exact ih (hf _ _ h)
theorem sound_foldlp {α β : Type} {l : List α} {f : β × Dev → α → β × Dev} {d : β × Dev} (h : d.2.Sound) (hf : ∀ d x, d.2.Sound → (f d x).2.Sound) : (l.foldl f d).2.Sound := by
  induction l generalizing d with
  | nil => exact h
  | cons x l ih => exact ih (hf _ _ h)
theorem sound_of {d : Dev} (h : d.Sound) : SoundF d.ldr.mem d.obs.crumb.edges d.elec.avsAck := h
theorem sound_mk {regs shadow prev snap tabs tabSh tabPrev tabUe tabUeSh tabUePrev tabUeSeen ctl flt} {obs : Obs} {octets ports links core coh} {ldr : Larder} {dmv traf prot slots prf sec rst} {elec : Elec} {free out} :
   (Dev.mk regs shadow prev snap tabs tabSh tabPrev tabUe tabUeSh tabUePrev tabUeSeen ctl flt obs octets ports links core coh ldr dmv traf prot slots prf sec rst elec free out).Sound = SoundF ldr.mem obs.crumb.edges elec.avsAck := rfl
end Sys2Proof.Machine
end

