-- ==== Sys2Proof/Laws/SoundOps.lean ====
section
/-! SUPPORT. One lemma per operation: it keeps `Dev.Sound`. Here: the named operations. -/

namespace Sys2Proof.Machine

theorem Dev.setWord_sound {d : Dev} {r : Reg} {i : Nat} {w : W64} {j : Nat} (h_d : d.Sound) : (Dev.setWord d r i w j).Sound := by
  unfold Dev.setWord
  with_reducible repeat' (first
    | assumption | (simp only [sound_mk]; apply sound_of))

theorem Dev.put_sound {d : Dev} {f : Fld} {i v j : Nat} (h_d : d.Sound) : (Dev.put d f i v j).Sound := by
  unfold Dev.put
  with_reducible repeat' (first
    | assumption | apply Dev.setWord_sound)

theorem Dev.setShWord_sound {d : Dev} {r : Reg} {i : Nat} {w : W64} {j : Nat} (h_d : d.Sound) : (Dev.setShWord d r i w j).Sound := by
  unfold Dev.setShWord
  with_reducible repeat' (first
    | assumption | (simp only [sound_mk]; apply sound_of))

theorem Dev.putSh_sound {d : Dev} {f : Fld} {i v j : Nat} (h_d : d.Sound) : (Dev.putSh d f i v j).Sound := by
  unfold Dev.putSh
  with_reducible repeat' (first
    | assumption | apply Dev.setShWord_sound)

theorem Dev.cntAdd_sound {d : Dev} {b : Blk} {i c n : Nat} (h_d : d.Sound) : (Dev.cntAdd d b i c n).Sound := by
  unfold Dev.cntAdd
  (try lift_lets -underBinder)
  with_reducible repeat' (first
    | assumption | (intro x; clear_value x) | lift_lets -underBinder | apply sound_ite | apply Dev.put_sound)

theorem Dev.count_sound {d : Dev} {b : Blk} {i ev n : Nat} (h_d : d.Sound) : (Dev.count d b i ev n).Sound := by
  unfold Dev.count
  with_reducible repeat' (first
    | assumption | (intro _) | lift_lets -underBinder | apply sound_ite | apply sound_foldl | apply Dev.cntAdd_sound)

theorem Dev.inc_sound {d : Dev} {f : Fld} {i j n : Nat} (h_d : d.Sound) : (Dev.inc d f i j n).Sound := by
  unfold Dev.inc
  (try lift_lets -underBinder)
  with_reducible repeat' (first
    | assumption | (intro x; have hx : Dev.Sound x; unfold x; rotate_left; clear_value x) | (intro x; clear_value x)
    | apply Dev.put_sound | apply Dev.count_sound | split)

theorem Dev.fresh_sound {d : Dev} (h_d : d.Sound) : (Dev.fresh d).2.Sound := by
  unfold Dev.fresh
  with_reducible repeat' (first
    | assumption | (simp only [sound_mk]; apply sound_of))
theorem Dev.fresh_at {d : Dev} {r0 : Nat} {d1 : Dev} (hEq : Dev.fresh d = (r0, d1)) (h_d : d.Sound) : d1.Sound := by
  have h := Dev.fresh_sound (d := d) h_d 
  rw [hEq] at h
  exact h

theorem Dev.freshBytes_sound {d : Dev} {n : Nat} (h_d : d.Sound) : (Dev.freshBytes d n).2.Sound := by
  unfold Dev.freshBytes
  with_reducible repeat' (first
    | assumption | apply Dev.fresh_sound)
theorem Dev.emit_sound {d : Dev} {e : Emit} (h_d : d.Sound) : (Dev.emit d e).Sound := by
  unfold Dev.emit
  with_reducible repeat' (first
    | assumption | (simp only [sound_mk]; apply sound_of))

theorem Dev.instant_sound {d : Dev} (h_d : d.Sound) : (Dev.instant d).Sound := by
  unfold Dev.instant
  with_reducible repeat' (first
    | assumption | lift_lets -underBinder | apply Dev.fresh_sound | (simp only [sound_mk]; apply sound_of))

theorem Dev.setTab_sound {d : Dev} {t inst index w : Nat} {v : W64} (h_d : d.Sound) : (Dev.setTab d t inst index w v).Sound := by
  unfold Dev.setTab
  with_reducible repeat' (first
    | assumption | (simp only [sound_mk]; apply sound_of))

theorem Dev.setTabS_sound {d : Dev} {t inst index w : Nat} {v : W64} (h_d : d.Sound) : (Dev.setTabS d t inst index w v).Sound := by
  unfold Dev.setTabS
  with_reducible repeat' (first
    | assumption | (simp only [sound_mk]; apply sound_of))

theorem Dev.injectAt_sound {d : Dev} {b : Blk} {i : Nat} {srcs : List Nat} {sub : Option Nat} (h_d : d.Sound) : (Dev.injectAt d b i srcs sub).2.Sound := by
  unfold Dev.injectAt
  (try lift_lets -underBinder)
  with_reducible repeat' (first
    | assumption | (intro x; clear_value x) | lift_lets -underBinder | apply sound_ite | apply sound_ite2
    | apply Dev.put_sound)
theorem Dev.injectAt_at {d : Dev} {b : Blk} {i : Nat} {srcs : List Nat} {sub r0 : Option Nat} {d1 : Dev} (hEq : Dev.injectAt d b i srcs sub = (r0, d1)) (h_d : d.Sound) : d1.Sound := by
  have h := Dev.injectAt_sound (d := d) (b := b) (i := i) (srcs := srcs) (sub := sub) h_d 
  rw [hEq] at h
  exact h

theorem Dev.irq_sound {d : Dev} {i : Nat} (h_d : d.Sound) : (Dev.irq d i).Sound := by
  unfold Dev.irq
  (try lift_lets -underBinder)
  with_reducible repeat' (first
    | assumption | (intro x; clear_value x) | lift_lets -underBinder | apply sound_ite | apply Dev.emit_sound
    | (simp only [sound_mk]; apply sound_of))

theorem Dev.beginFlight_sound {d : Dev} (h_d : d.Sound) : (Dev.beginFlight d).2.Sound := by
  unfold Dev.beginFlight
  (try lift_lets -underBinder)
  with_reducible repeat' (first
    | assumption | (intro x; clear_value x) | (simp only [sound_mk]; apply sound_of))
theorem Dev.endFlight_sound {d : Dev} {n : Nat} (h_d : d.Sound) : (Dev.endFlight d n).Sound := by
  unfold Dev.endFlight
  (try lift_lets -underBinder)
  with_reducible repeat' (first
    | assumption | (intro x; clear_value x) | (simp only [sound_mk]; apply sound_of))

theorem Dev.restamp_sound {d : Dev} {n : Nat} (h_d : d.Sound) : (Dev.restamp d n).Sound := by
  unfold Dev.restamp
  (try lift_lets -underBinder)
  with_reducible repeat' (first
    | assumption | (intro x; clear_value x) | (simp only [sound_mk]; apply sound_of))

theorem Dev.setLbyte_sound {d : Dev} {a : Nat} {b : Byte} (h_d : d.Sound) : (Dev.setLbyte d a b).Sound :=
  ⟨SMap.set_wf (fun _ => (0 : Byte)) _ a b h_d.1, h_d.2⟩

theorem Dev.lwrite_sound {d : Dev} {a : Nat} {l : Bytes} (h_d : d.Sound) : (Dev.lwrite d a l).Sound := by
  induction l generalizing d a with
  | nil => exact h_d
  | cons b r ih => exact ih (Dev.setLbyte_sound h_d)

theorem Dev.lwriteBe_sound {d : Dev} {a be : Nat} {data : Bytes} (h_d : d.Sound) : (Dev.lwriteBe d a be data).Sound := by
  unfold Dev.lwriteBe
  with_reducible repeat' (first
    | assumption | (intro _) | lift_lets -underBinder | apply sound_ite | apply sound_foldl | apply Dev.setLbyte_sound)

theorem Dev.setLword_sound {d : Dev} {a : Nat} {w : W64} (h_d : d.Sound) : (Dev.setLword d a w).Sound := by
  unfold Dev.setLword
  with_reducible repeat' (first
    | assumption | apply Dev.lwrite_sound)

theorem Dev.setOctet_sound {d : Dev} {o : Nat} {x : Octet} (h_d : d.Sound) : (Dev.setOctet d o x).Sound := by
  unfold Dev.setOctet
  with_reducible repeat' (first
    | assumption | (simp only [sound_mk]; apply sound_of))

theorem Dev.setPort_sound {d : Dev} {p : Nat} {x : Port} (h_d : d.Sound) : (Dev.setPort d p x).Sound := by
  unfold Dev.setPort
  with_reducible repeat' (first
    | assumption | (simp only [sound_mk]; apply sound_of))

theorem Dev.modPort_sound {d : Dev} {p : Nat} {f : Port → Port} (h_d : d.Sound) : (Dev.modPort d p f).Sound := by
  unfold Dev.modPort
  with_reducible repeat' (first
    | assumption | apply Dev.setPort_sound)

theorem Dev.setLink_sound {d : Dev} {k : Nat} {x : Link} (h_d : d.Sound) : (Dev.setLink d k x).Sound := by
  unfold Dev.setLink
  with_reducible repeat' (first
    | assumption | (simp only [sound_mk]; apply sound_of))

theorem Dev.modLink_sound {d : Dev} {k : Nat} {f : Link → Link} (h_d : d.Sound) : (Dev.modLink d k f).Sound := by
  unfold Dev.modLink
  with_reducible repeat' (first
    | assumption | apply Dev.setLink_sound)

theorem Dev.modLane_sound {d : Dev} {o l : Nat} {f : Lane → Lane} (h_d : d.Sound) : (Dev.modLane d o l f).Sound := by
  unfold Dev.modLane
  with_reducible repeat' (first
    | assumption | apply Dev.setOctet_sound)

theorem Dev.setHome_sound {d : Dev} {h : Nat} {x : Home} (h_d : d.Sound) : (Dev.setHome d h x).Sound := by
  unfold Dev.setHome
  (try lift_lets -underBinder)
  with_reducible repeat' (first
    | assumption | (intro x; clear_value x) | (simp only [sound_mk]; apply sound_of))

theorem Dev.modHome_sound {d : Dev} {h : Nat} {f : Home → Home} (h_d : d.Sound) : (Dev.modHome d h f).Sound := by
  unfold Dev.modHome
  with_reducible repeat' (first
    | assumption | apply Dev.setHome_sound)

theorem Dev.setRing_sound {d : Dev} {r : Nat} {x : Ring} (h_d : d.Sound) : (Dev.setRing d r x).Sound := by
  unfold Dev.setRing
  (try lift_lets -underBinder)
  with_reducible repeat' (first
    | assumption | (intro x; have hx : Obs := x; clear hx; unfold x; clear x) | (simp only [sound_mk]; apply sound_of))

theorem Dev.setMeter_sound {d : Dev} {p e : Nat} {x : Meter} (h_d : d.Sound) : (Dev.setMeter d p e x).Sound := by
  unfold Dev.setMeter
  (try lift_lets -underBinder)
  with_reducible repeat' (first
    | assumption | (intro x; clear_value x) | (simp only [sound_mk]; apply sound_of))

theorem Dev.setShaper_sound {d : Dev} {p t : Nat} {x : Shaper} (h_d : d.Sound) : (Dev.setShaper d p t x).Sound := by
  unfold Dev.setShaper
  (try lift_lets -underBinder)
  with_reducible repeat' (first
    | assumption | (intro x; clear_value x) | (simp only [sound_mk]; apply sound_of))

theorem Dev.setEgress_sound {d : Dev} {p : Nat} {x : Egress} (h_d : d.Sound) : (Dev.setEgress d p x).Sound := by
  unfold Dev.setEgress
  (try lift_lets -underBinder)
  with_reducible repeat' (first
    | assumption | (intro x; clear_value x) | (simp only [sound_mk]; apply sound_of))

theorem Dev.setQueue_sound {d : Dev} {q : Nat} {x : Queue} (h_d : d.Sound) : (Dev.setQueue d q x).Sound := by
  unfold Dev.setQueue
  (try lift_lets -underBinder)
  with_reducible repeat' (first
    | assumption | (intro x; clear_value x) | (simp only [sound_mk]; apply sound_of))

theorem Dev.ctlBlock_sound {d : Dev} {o l : Nat} (h_d : d.Sound) : (Dev.ctlBlock d o l).Sound := by
  unfold Dev.ctlBlock
  (try lift_lets -underBinder)
  with_reducible repeat' (first
    | assumption | (intro x; clear_value x) | lift_lets -underBinder | apply Dev.emit_sound | apply Dev.modLane_sound)

theorem Dev.trainSend_sound {d : Dev} {o l : Nat} (h_d : d.Sound) : (Dev.trainSend d o l).Sound := by
  unfold Dev.trainSend
  with_reducible repeat' (first
    | assumption | (intro _) | lift_lets -underBinder | apply sound_foldl | apply Dev.ctlBlock_sound)

theorem Dev.txSwap_sound {d : Dev} {k : Nat} {x : Spare} (h_d : d.Sound) : (Dev.txSwap d k x).Sound := by
  unfold Dev.txSwap
  (try lift_lets -underBinder)
  with_reducible repeat' (first
    | assumption | (intro x; have hx : Dev.Sound x; unfold x; rotate_left; clear_value x) | (intro x; clear_value x)
    | apply Dev.setOctet_sound | apply Dev.modLink_sound)

theorem Dev.blockOut_sound {d : Dev} {k lane : Nat} {raw : Bytes} (h_d : d.Sound) : (Dev.blockOut d k lane raw).Sound := by
  unfold Dev.blockOut
  (try lift_lets -underBinder)
  with_reducible repeat' (first
    | assumption | (intro x; have hx : Dev.Sound (Prod.snd x); unfold x; rotate_left; clear_value x)
    | apply Dev.injectAt_sound | apply Dev.emit_sound)

theorem Dev.tailOut_sound {d : Dev} {k : Nat} {b : Bytes} (h_d : d.Sound) : (Dev.tailOut d k b).2.Sound := by
  unfold Dev.tailOut
  (try lift_lets -underBinder)
  with_reducible repeat' (first
    | assumption | (intro x; have hx : Dev.Sound (Prod.snd x); unfold x; rotate_left; clear_value x) | apply sound_ite2
    | apply Dev.injectAt_sound)
theorem Dev.txBlock_sound {d : Dev} {k : Nat} {xs : List TxByte} (h_d : d.Sound) : (Dev.txBlock d k xs).Sound := by
  unfold Dev.txBlock
  (try lift_lets -underBinder)
  with_reducible repeat' (first
    | assumption | (intro x; have hx : Dev.Sound x; unfold x; rotate_left; clear_value x) | (intro x; clear_value x)
    | (intro _) | lift_lets -underBinder | apply sound_ite | apply sound_foldl | apply Dev.txSwap_sound
    | apply Dev.ctlBlock_sound | apply Dev.blockOut_sound | apply Dev.modLink_sound | split)

theorem Dev.txBlocks_sound {d : Dev} {k : Nat} {xs : List TxByte} (h_d : d.Sound) : (Dev.txBlocks d k xs).Sound := by
  unfold Dev.txBlocks
  with_reducible repeat' (first
    | assumption | (intro _) | lift_lets -underBinder | apply sound_foldl | apply Dev.txBlock_sound)

theorem Dev.putPkt_sound {d : Dev} {k : Nat} {b : Bytes} (h_d : d.Sound) : (Dev.putPkt d k b).Sound := by
  unfold Dev.putPkt
  with_reducible repeat' (first
    | assumption | lift_lets -underBinder | apply Dev.emit_sound | apply Dev.count_sound)

theorem Dev.macsDue_sound {d : Dev} {k : Nat} (h_d : d.Sound) : (Dev.macsDue d k).2.Sound := by
  unfold Dev.macsDue
  (try lift_lets -underBinder)
  with_reducible repeat' (first
    | assumption | (intro x; clear_value x) | (intro _) | lift_lets -underBinder | apply sound_foldl
    | apply Dev.putPkt_sound | apply Dev.modLink_sound)
theorem Dev.txPacket_sound {d : Dev} {k : Nat} {b : Bytes} (h_d : d.Sound) : (Dev.txPacket d k b).Sound := by
  unfold Dev.txPacket
  (try lift_lets -underBinder)
  with_reducible repeat' (first
    | assumption | (intro x; have hx : Dev.Sound x; unfold x; rotate_left; clear_value x)
    | (intro x; have hx : Dev.Sound (Prod.snd x); unfold x; rotate_left; clear_value x) | (intro x; clear_value x)
    | apply Dev.macsDue_sound | apply Dev.putPkt_sound | apply Dev.txBlocks_sound)

theorem Dev.txSegEnd_sound {d : Dev} {k : Nat} (h_d : d.Sound) : (Dev.txSegEnd d k).Sound := by
  unfold Dev.txSegEnd
  (try lift_lets -underBinder)
  with_reducible repeat' (first
    | assumption | (intro x; clear_value x) | lift_lets -underBinder | apply sound_ite | apply Dev.txBlocks_sound)

theorem Dev.txMacs_sound {d : Dev} {k : Nat} (h_d : d.Sound) : (Dev.txMacs d k).Sound := by
  unfold Dev.txMacs
  (try lift_lets -underBinder)
  with_reducible repeat' (first
    | assumption | (intro x; have hx : Dev.Sound (Prod.snd x); unfold x; rotate_left; clear_value x)
    | apply Dev.macsDue_sound | apply Dev.txBlocks_sound)

theorem Dev.sendPkt_sound {d : Dev} {k : Nat} {b : Bytes} (h_d : d.Sound) : (Dev.sendPkt d k b).Sound := by
  unfold Dev.sendPkt
  with_reducible repeat' (first
    | assumption | lift_lets -underBinder | apply sound_ite | apply Dev.tailOut_sound | apply Dev.txPacket_sound
    | apply Dev.txSegEnd_sound | apply Dev.txMacs_sound)

theorem Dev.txIdleSegment_sound {d : Dev} {k : Nat} (h_d : d.Sound) : (Dev.txIdleSegment d k).Sound := by
  unfold Dev.txIdleSegment
  with_reducible repeat' (first
    | assumption | lift_lets -underBinder | apply Dev.txBlocks_sound | apply Dev.txMacs_sound)

theorem Dev.txKeySwitch_sound {d : Dev} {k slot : Nat} (h_d : d.Sound) : (Dev.txKeySwitch d k slot).Sound := by
  unfold Dev.txKeySwitch
  (try lift_lets -underBinder)
  with_reducible repeat' (first
    | assumption | (intro x; have hx : Dev.Sound x; unfold x; rotate_left; clear_value x) | lift_lets -underBinder
    | apply sound_ite | apply Dev.txPacket_sound | apply Dev.txSegEnd_sound | apply Dev.put_sound | apply Dev.modLink_sound
    | apply Dev.txMacs_sound)

theorem Dev.setTx_sound {d : Dev} {k u n : Nat} (h_d : d.Sound) : (Dev.setTx d k u n).Sound := by
  unfold Dev.setTx
  with_reducible repeat' (first
    | assumption | lift_lets -underBinder | apply Dev.put_sound)

theorem Dev.sendNak_sound {d : Dev} {k : Nat} (h_d : d.Sound) : (Dev.sendNak d k).Sound := by
  unfold Dev.sendNak
  with_reducible repeat' (first
    | assumption | lift_lets -underBinder | apply Dev.sendPkt_sound | apply Dev.modLink_sound)

theorem Dev.sendAck_sound {d : Dev} {k : Nat} (h_d : d.Sound) : (Dev.sendAck d k).Sound := by
  unfold Dev.sendAck
  with_reducible repeat' (first
    | assumption | lift_lets -underBinder | apply Dev.sendPkt_sound | apply Dev.modLink_sound)

theorem Dev.sendCredit_sound {d : Dev} {k v : Nat} (h_d : d.Sound) : (Dev.sendCredit d k v).Sound := by
  unfold Dev.sendCredit
  (try lift_lets -underBinder)
  with_reducible repeat' (first
    | assumption | (intro x; clear_value x) | lift_lets -underBinder | apply Dev.sendPkt_sound | apply Dev.modLink_sound)

theorem Dev.noteDue_sound {d : Dev} {s : FSrc} {i : Nat} {w : Who} (h_d : d.Sound) : (Dev.noteDue d s i w).Sound := by
  unfold Dev.noteDue
  (try lift_lets -underBinder)
  with_reducible repeat' (first
    | assumption | (intro x; clear_value x) | (simp only [sound_mk]; apply sound_of))

theorem Dev.setPortState_sound {d : Dev} {p s : Nat} (h_d : d.Sound) : (Dev.setPortState d p s).Sound := by
  unfold Dev.setPortState
  with_reducible repeat' (first
    | assumption | (intro _) | lift_lets -underBinder | apply sound_foldl | apply Dev.put_sound)

theorem Dev.writeCells_sound {d : Dev} {s n : Nat} {x : Stored} (h_d : d.Sound) : (Dev.writeCells d s n x).2.Sound := by
  induction n generalizing d x with
  | zero => exact h_d
  | succ n ih =>
    unfold Dev.writeCells
    split
    · exact h_d
    · split
      · exact h_d
      · rename_i b _
        have h : ({ d with core := { d.core with written := d.core.written ++ [8 * (16 * s + b) + x.cells.length] } } : Dev).Sound := h_d
        exact ih (d := (Dev.injectAt _ .ovn s [OVN_F_CE.num, OVN_F_UE_DATA.num, OVN_F_UE_SIDEBAND.num, OVN_F_LIST_LOST.num] (some b)).2)
          (Dev.injectAt_sound h)
theorem Dev.store_sound {d : Dev} {m : Msg} {dest seen : Nat} (h_d : d.Sound) : (Dev.store d m dest seen).2.Sound := by
  unfold Dev.store
  (try lift_lets -underBinder)
  with_reducible repeat' (first
    | assumption | (intro x; clear_value x) | lift_lets -underBinder | apply Dev.writeCells_sound | apply Dev.count_sound
    | (simp only [sound_mk]; apply sound_of))
theorem Dev.modStored_sound {d : Dev} {id : Nat} {f : Stored → Stored} (h_d : d.Sound) : (Dev.modStored d id f).Sound := by
  unfold Dev.modStored
  (try lift_lets -underBinder)
  with_reducible repeat' (first
    | assumption | (intro x; clear_value x) | (simp only [sound_mk]; apply sound_of))

theorem Dev.dropStored_sound {d : Dev} {id : Nat} (h_d : d.Sound) : (Dev.dropStored d id).Sound := by
  unfold Dev.dropStored
  (try lift_lets -underBinder)
  with_reducible repeat' (first
    | assumption | (intro x; clear_value x) | (simp only [sound_mk]; apply sound_of))

theorem Dev.rethread_sound {d : Dev} {s : Nat} (h_d : d.Sound) : (Dev.rethread d s).Sound := by
  unfold Dev.rethread
  (try lift_lets -underBinder)
  with_reducible repeat' (first
    | assumption | (intro x; clear_value x) | (simp only [sound_mk]; apply sound_of))

theorem Dev.linkStored_sound {d : Dev} {id : Nat} (h_d : d.Sound) : (Dev.linkStored d id).Sound := by
  unfold Dev.linkStored
  with_reducible repeat' (first
    | assumption | (intro x; have hx : Dev.Sound x; unfold x; rotate_left; clear_value x) | (intro x; clear_value x)
    | lift_lets -underBinder | apply sound_ite | apply Dev.rethread_sound | (simp only [sound_mk]; apply sound_of) | split)

theorem Dev.leaveList_sound {d : Dev} {x : Stored} (h_d : d.Sound) : (Dev.leaveList d x).Sound := by
  unfold Dev.leaveList
  (try lift_lets -underBinder)
  with_reducible repeat' (first
    | assumption | (intro x; clear_value x) | lift_lets -underBinder | apply sound_ite
    | (simp only [sound_mk]; apply sound_of))

theorem Dev.consumeCredit_sound {d : Dev} {m : Msg} (h_d : d.Sound) : (Dev.consumeCredit d m).Sound := by
  unfold Dev.consumeCredit
  with_reducible repeat' (first
    | assumption | (intro x; have hx : Dev.Sound x; unfold x; rotate_left; clear_value x) | (intro x; clear_value x)
    | lift_lets -underBinder | apply sound_ite | apply Dev.modLink_sound | apply Dev.sendCredit_sound | split)

theorem Dev.presentReq_sound {d : Dev} {s t : Nat} (h_d : d.Sound) : (Dev.presentReq d s t).Sound := by
  unfold Dev.presentReq
  (try lift_lets -underBinder)
  with_reducible repeat' (first
    | assumption | (intro x; have hx : Dev.Sound x; unfold x; rotate_left; clear_value x) | (intro x; clear_value x)
    | lift_lets -underBinder | apply sound_ite | apply Dev.put_sound | apply Dev.injectAt_sound
    | (simp only [sound_mk]; apply sound_of) | split)

theorem Dev.clearReq_sound {d : Dev} {s t : Nat} (h_d : d.Sound) : (Dev.clearReq d s t).Sound := by
  unfold Dev.clearReq
  (try lift_lets -underBinder)
  with_reducible repeat' (first
    | assumption | (intro x; have hx : Dev.Sound x; unfold x; rotate_left; clear_value x) | (intro x; clear_value x)
    | lift_lets -underBinder | apply Dev.put_sound | (simp only [sound_mk]; apply sound_of))

theorem Dev.presentAll_sound {d : Dev} {s : Nat} {ts : List Nat} (h_d : d.Sound) : (Dev.presentAll d s ts).Sound := by
  unfold Dev.presentAll
  with_reducible repeat' (first
    | assumption | (intro _) | lift_lets -underBinder | apply sound_foldl | apply Dev.presentReq_sound)

theorem Dev.cycleOver_sound {d : Dev} {s : Nat} (h_d : d.Sound) : (Dev.cycleOver d s).Sound := by
  unfold Dev.cycleOver
  (try lift_lets -underBinder)
  with_reducible repeat' (first
    | assumption | (intro x; clear_value x) | (simp only [sound_mk]; apply sound_of))

theorem Dev.writeLate_sound {d : Dev} {s : Nat} (h_d : d.Sound) : (Dev.writeLate d s).Sound := by
  unfold Dev.writeLate
  with_reducible repeat' (first
    | assumption | (intro x; have hx : Dev.Sound x; unfold x; rotate_left; clear_value x) | (intro _)
    | lift_lets -underBinder | apply sound_ite | apply sound_foldl | apply Dev.writeCells_sound | apply Dev.modStored_sound
    | apply Dev.count_sound | apply Dev.presentReq_sound | apply Dev.rethread_sound | apply Dev.cycleOver_sound | split)

theorem Dev.lateAll_sound {d : Dev} (h_d : d.Sound) : (Dev.lateAll d).Sound := by
  unfold Dev.lateAll
  with_reducible repeat' (first
    | assumption | (intro _) | lift_lets -underBinder | apply sound_foldl | apply Dev.writeLate_sound)

theorem Dev.refund_sound {d : Dev} {q : Nat} {m : Msg} (h_d : d.Sound) : (Dev.refund d q m).Sound := by
  unfold Dev.refund
  (try lift_lets -underBinder)
  with_reducible repeat' (first
    | assumption | (intro x; clear_value x) | lift_lets -underBinder | apply sound_ite | apply Dev.setShaper_sound)

theorem Dev.defLeft_sound {d : Dev} {q t : Nat} (h_d : d.Sound) : (Dev.defLeft d q t).Sound := by
  unfold Dev.defLeft
  (try lift_lets -underBinder)
  with_reducible repeat' (first
    | assumption | (intro x; clear_value x) | lift_lets -underBinder | apply sound_ite | apply Dev.setEgress_sound)

theorem Dev.discard_sound {d : Dev} {x : Stored} {credit : Bool} (h_d : d.Sound) : (Dev.discard d x credit).Sound := by
  unfold Dev.discard
  (try lift_lets -underBinder)
  with_reducible repeat' (first
    | assumption | (intro x; have hx : Dev.Sound x; unfold x; rotate_left; clear_value x) | (intro x; clear_value x)
    | (intro _) | lift_lets -underBinder | apply sound_ite | apply sound_foldl | apply Dev.clearReq_sound
    | apply Dev.leaveList_sound | apply Dev.endFlight_sound | apply Dev.consumeCredit_sound | apply Dev.dropStored_sound
    | apply Dev.presentAll_sound | apply Dev.writeLate_sound | apply Dev.defLeft_sound)

theorem Dev.setRel_sound {d : Dev} {src : Nat} {l : List Msg} (h_d : d.Sound) : (Dev.setRel d src l).Sound := by
  unfold Dev.setRel
  (try lift_lets -underBinder)
  with_reducible repeat' (first
    | assumption | (intro x; clear_value x) | (simp only [sound_mk]; apply sound_of))

theorem Dev.pushRel_sound {d : Dev} {m : Msg} (h_d : d.Sound) : (Dev.pushRel d m).Sound := by
  unfold Dev.pushRel
  (try lift_lets -underBinder)
  with_reducible repeat' (first
    | assumption | (intro x; clear_value x) | apply Dev.setRel_sound)

theorem Dev.setHeld_sound {d : Dev} {src : Nat} {on : Bool} (h_d : d.Sound) : (Dev.setHeld d src on).Sound := by
  unfold Dev.setHeld
  (try lift_lets -underBinder)
  with_reducible repeat' (first
    | assumption | (intro x; clear_value x) | lift_lets -underBinder | apply sound_ite
    | (simp only [sound_mk]; apply sound_of))

theorem Dev.flushHead_sound {d : Dev} {q src : Nat} (h_d : d.Sound) : (Dev.flushHead d q src).Sound := by
  unfold Dev.flushHead
  with_reducible repeat' (first
    | assumption | lift_lets -underBinder | apply Dev.setRel_sound | apply Dev.setHeld_sound | apply Dev.consumeCredit_sound
    | apply Dev.defLeft_sound | split)

theorem Dev.flushSel_sound {d : Dev} {q : Nat} {sel : Msg → Bool} {hs : List Nat} (h_d : d.Sound) : (Dev.flushSel d q sel hs).2.Sound := by
  unfold Dev.flushSel
  (try lift_lets -underBinder)
  with_reducible repeat' (first
    | assumption | (intro x; have hx : Dev.Sound x; unfold x; rotate_left; clear_value x) | (intro x; clear_value x)
    | (intro _) | lift_lets -underBinder | apply sound_foldl | apply Dev.refund_sound | apply Dev.discard_sound
    | apply Dev.modPort_sound | apply Dev.flushHead_sound)
theorem Dev.flushWith_sound {d : Dev} {q : Nat} {hs : List Nat} (h_d : d.Sound) : (Dev.flushWith d q hs).2.Sound := by
  unfold Dev.flushWith
  with_reducible repeat' (first
    | assumption | apply Dev.flushSel_sound)
theorem Dev.flushDest_sound {d : Dev} {q : Nat} (h_d : d.Sound) : (Dev.flushDest d q).2.Sound := by
  unfold Dev.flushDest
  with_reducible repeat' (first
    | assumption | apply Dev.flushWith_sound)
theorem Dev.dropIngress_sound {d : Dev} {p : Nat} (h_d : d.Sound) : (Dev.dropIngress d p).Sound := by
  unfold Dev.dropIngress
  with_reducible repeat' (first
    | assumption | apply Dev.modPort_sound)

theorem Dev.dropReleased_sound {d : Dev} {p : Nat} (h_d : d.Sound) : (Dev.dropReleased d p).Sound := by
  unfold Dev.dropReleased
  (try lift_lets -underBinder)
  with_reducible repeat' (first
    | assumption | (intro x; have hx : Dev.Sound x; unfold x; rotate_left; clear_value x) | (intro _)
    | lift_lets -underBinder | apply sound_ite | apply sound_foldl | apply Dev.endFlight_sound | apply Dev.setRel_sound
    | apply Dev.setHeld_sound)

theorem Dev.handOver_sound {d : Dev} {dest : Nat} {m : Msg} (h_d : d.Sound) : (Dev.handOver d dest m).Sound := by
  unfold Dev.handOver
  (try lift_lets -underBinder)
  with_reducible repeat' (first
    | assumption | (intro x; have hx : Dev.Sound x; unfold x; rotate_left; clear_value x) | (intro x; clear_value x)
    | lift_lets -underBinder | apply sound_ite | apply Dev.endFlight_sound | apply Dev.modPort_sound
    | (simp only [sound_mk]; apply sound_of))

theorem Dev.leaveListIf_sound {d : Dev} {x : Stored} (h_d : d.Sound) : (Dev.leaveListIf d x).Sound := by
  unfold Dev.leaveListIf
  with_reducible repeat' (first
    | assumption | lift_lets -underBinder | apply sound_ite | apply Dev.leaveList_sound)

theorem Dev.deliver_sound {d : Dev} {x : Stored} (h_d : d.Sound) : (Dev.deliver d x).Sound := by
  unfold Dev.deliver
  with_reducible repeat' (first
    | assumption | lift_lets -underBinder | apply Dev.leaveListIf_sound | apply Dev.dropStored_sound
    | apply Dev.handOver_sound | apply Dev.consumeCredit_sound | apply Dev.writeLate_sound | apply Dev.defLeft_sound)

theorem Dev.setArrived_sound {d : Dev} {h ch : Nat} {l : List Msg} (h_d : d.Sound) : (Dev.setArrived d h ch l).Sound := by
  unfold Dev.setArrived
  (try lift_lets -underBinder)
  with_reducible repeat' (first
    | assumption | (intro x; clear_value x) | (simp only [sound_mk]; apply sound_of))

theorem Dev.sendRoute_sound {d : Dev} {sub : Nat} {ports : List Nat} {exc : Option Nat} (h_d : d.Sound) : (Dev.sendRoute d sub ports exc).Sound := by
  unfold Dev.sendRoute
  with_reducible repeat' (first
    | assumption | (intro _) | lift_lets -underBinder | apply sound_foldl | apply Dev.sendPkt_sound)

theorem Dev.withdrawLost_sound {d : Dev} {before : List Nat} {exc : Option Nat} (h_d : d.Sound) : (Dev.withdrawLost d before exc).Sound := by
  unfold Dev.withdrawLost
  (try lift_lets -underBinder)
  with_reducible repeat' (first
    | assumption | (intro x; clear_value x) | lift_lets -underBinder | apply sound_ite | apply Dev.sendRoute_sound
    | (simp only [sound_mk]; apply sound_of))

theorem Dev.routeCommitted_sound {d : Dev} {before : List Nat} (h_d : d.Sound) : (Dev.routeCommitted d before).Sound := by
  unfold Dev.routeCommitted
  (try lift_lets -underBinder)
  with_reducible repeat' (first
    | assumption | (intro x; have hx : Dev.Sound x; unfold x; rotate_left; clear_value x) | (intro x; clear_value x)
    | (intro _) | lift_lets -underBinder | apply sound_ite | apply sound_foldl | apply Dev.modLink_sound
    | apply Dev.sendRoute_sound | apply Dev.withdrawLost_sound | (simp only [sound_mk]; apply sound_of))

theorem Dev.linkToDown_sound {d : Dev} {k : Nat} (h_d : d.Sound) : (Dev.linkToDown d k).Sound := by
  unfold Dev.linkToDown
  (try lift_lets -underBinder)
  with_reducible repeat' (first
    | assumption | (intro x; have hx : Dev.Sound x; unfold x; rotate_left; clear_value x) | (intro x; clear_value x)
    | lift_lets -underBinder | apply sound_ite | apply Dev.put_sound | apply Dev.modLink_sound | apply Dev.inc_sound
    | apply Dev.flushWith_sound | apply Dev.withdrawLost_sound | apply Dev.noteDue_sound)

theorem Dev.sendCrumb_sound {d : Dev} {id t origin : Nat} {exc : Option Nat} (h_d : d.Sound) : (Dev.sendCrumb d id t origin exc).Sound := by
  unfold Dev.sendCrumb
  with_reducible repeat' (first
    | assumption | (intro _) | lift_lets -underBinder | apply sound_foldl | apply Dev.sendPkt_sound)

theorem Dev.cycleEnd_sound {d : Dev} (h_d : d.Sound) : (Dev.cycleEnd d).Sound := by
  unfold Dev.cycleEnd
  (try lift_lets -underBinder)
  with_reducible repeat' (first
    | assumption | (intro x; clear_value x) | (simp only [sound_mk]; apply sound_of))

theorem sound_edges {d : Dev} {l : List Edge} (h_d : d.Sound) (h : l.length ≤ 4) :
    ({ d with obs := { d.obs with crumb := { d.obs.crumb with edges := l } } } : Dev).Sound := ⟨h_d.1, h, h_d.2.2⟩

theorem filter_two_length (l : List Edge) (t : Nat) :
    (l.filter fun e => decide (e.at_ < t)).length + (l.filter fun e => decide (t < e.at_)).length ≤ l.length := by
  induction l with
  | nil => simp
  | cons e r ih =>
    simp only [List.filter_cons, List.length_cons]
    by_cases h1 : e.at_ < t <;> by_cases h2 : t < e.at_ <;> simp [h1, h2] <;> omega

theorem Dev.addEdge_sound {d : Dev} {at_ cause origin id : Nat} {lateBy : Option Nat} (h_d : d.Sound) : (Dev.addEdge d at_ cause origin id lateBy).2.Sound := by
  unfold Dev.addEdge
  dsimp only
  split
  · exact sound_edges h_d (by simpa using h_d.2.1)
  · split
    · exact Dev.inc_sound h_d
    · rename_i h
      refine sound_edges h_d ?_
      have := filter_two_length d.obs.crumb.edges at_
      simp only [List.length_append, List.length_cons, List.length_nil]
      omega

theorem Dev.crumbTrigger_sound {d : Dev} {cause : Nat} (h_d : d.Sound) : (Dev.crumbTrigger d cause).2.Sound := by
  unfold Dev.crumbTrigger
  (try lift_lets -underBinder)
  with_reducible repeat' (first
    | assumption | (intro x; have hx : Obs := x; clear hx; unfold x; clear x)
    | (intro x; have hx : Crumb := x; clear hx; unfold x; clear x) | (intro x; clear_value x) | lift_lets -underBinder
    | apply sound_ite2 | apply Dev.addEdge_sound | apply Dev.sendCrumb_sound | (simp only [sound_mk]; apply sound_of))
theorem Dev.crumbTrigger_at {d : Dev} {cause : Nat} {r0 : Bool} {d1 : Dev} (hEq : Dev.crumbTrigger d cause = (r0, d1)) (h_d : d.Sound) : d1.Sound := by
  have h := Dev.crumbTrigger_sound (d := d) (cause := cause) h_d 
  rw [hEq] at h
  exact h

theorem Dev.hostOut_sound {d : Dev} {a : Nat} {b : Bytes} (h_d : d.Sound) : (Dev.hostOut d a b).Sound := by
  unfold Dev.hostOut
  with_reducible repeat' (first
    | assumption | apply Dev.emit_sound)

theorem Dev.ringProgress_sound {d : Dev} {a n done : Nat} {b : Bytes} (h_d : d.Sound) : (Dev.ringProgress d a n done b).Sound := by
  induction n generalizing d done b with
  | zero => exact h_d
  | succ n ih =>
    unfold Dev.ringProgress
    refine ih ?_
    with_reducible exact Dev.hostOut_sound (Dev.hostOut_sound h_d)

theorem Dev.ringWrite_sound {d : Dev} {r : Ring} {off : Nat} {ws : List W64} (h_d : d.Sound) : (Dev.ringWrite d r off ws).Sound := by
  unfold Dev.ringWrite
  (try lift_lets -underBinder)
  with_reducible repeat' (first
    | assumption | (intro x; have hx : Dev.Sound x; unfold x; rotate_left; clear_value x) | (intro x; clear_value x)
    | lift_lets -underBinder | apply sound_ite | apply Dev.lwrite_sound | apply Dev.hostOut_sound
    | apply Dev.ringProgress_sound)

theorem Dev.ringAppend_sound {d : Dev} {k : Nat} {ws : List W64} (h_d : d.Sound) : (Dev.ringAppend d k ws).Sound := by
  unfold Dev.ringAppend
  (try lift_lets -underBinder)
  with_reducible repeat' (first
    | assumption | (intro x; have hx : Dev.Sound x; unfold x; rotate_left; clear_value x) | (intro x; clear_value x)
    | apply Dev.ringWrite_sound | apply Dev.setRing_sound)

theorem Dev.ringPut_sound {d : Dev} {k src type_ : Nat} {payload : List W64} {ok : Bool} (h_d : d.Sound) : (Dev.ringPut d k src type_ payload ok).2.2.Sound := by
  unfold Dev.ringPut
  (try lift_lets -underBinder)
  with_reducible repeat' (first
    | assumption | (intro x; have hx : Dev.Sound x; unfold x; rotate_left; clear_value x) | (intro x; clear_value x)
    | lift_lets -underBinder | apply sound_ite | apply Dev.inc_sound | apply Dev.setRing_sound | apply Dev.ringAppend_sound
    | apply Dev.irq_sound | split)
theorem Dev.ringPut_at {d : Dev} {k src type_ : Nat} {payload : List W64} {ok : Bool} {r0 : RingEnd} {r1 : Bool} {d1 : Dev} (hEq : Dev.ringPut d k src type_ payload ok = (r0, r1, d1)) (h_d : d.Sound) : d1.Sound := by
  have h := Dev.ringPut_sound (d := d) (k := k) (src := src) (type_ := type_) (payload := payload) (ok := ok) h_d 
  rw [hEq] at h
  exact h

theorem Dev.ringGap_sound {d : Dev} {k : Nat} (h_d : d.Sound) : (Dev.ringGap d k).Sound := by
  unfold Dev.ringGap
  (try lift_lets -underBinder)
  with_reducible repeat' (first
    | assumption | (intro x; have hx : Dev.Sound x; unfold x; rotate_left; clear_value x) | (intro x; clear_value x)
    | lift_lets -underBinder | apply sound_ite | apply Dev.setRing_sound | apply Dev.ringAppend_sound)

theorem Dev.cyclesNow_sound {d : Dev} {b : Blk} (h_d : d.Sound) : (Dev.cyclesNow d b).2.Sound := by
  unfold Dev.cyclesNow
  with_reducible repeat' (first
    | assumption | apply Dev.fresh_sound | split)
theorem Dev.tickCounters_sound {d : Dev} (h_d : d.Sound) : (Dev.tickCounters d).Sound := by
  unfold Dev.tickCounters
  (try lift_lets -underBinder)
  with_reducible repeat' (first
    | assumption | (intro x; have hx : Dev.Sound x; unfold x; rotate_left; clear_value x)
    | (intro x; have hx : Obs := x; clear hx; unfold x; clear x) | (intro x; clear_value x) | (intro _)
    | lift_lets -underBinder | apply sound_ite | apply sound_foldl | apply Dev.cntAdd_sound | apply Dev.cyclesNow_sound
    | (simp only [sound_mk]; apply sound_of) | split)

theorem Dev.refreshTick_sound {d : Dev} (h_d : d.Sound) : (Dev.refreshTick d).Sound := by
  unfold Dev.refreshTick
  with_reducible repeat' (first
    | assumption | (intro x; clear_value x) | (intro _) | lift_lets -underBinder | apply sound_ite | apply sound_foldl
    | apply Dev.count_sound)

theorem Dev.tick_sound {d : Dev} (h_d : d.Sound) : (Dev.tick d).Sound := by
  unfold Dev.tick
  (try lift_lets -underBinder)
  with_reducible repeat' (first
    | assumption | (intro x; have hx : Dev.Sound x; unfold x; rotate_left; clear_value x)
    | (intro x; have hx : Obs := x; clear hx; unfold x; clear x) | (intro x; clear_value x) | lift_lets -underBinder
    | apply sound_ite | apply Dev.put_sound | apply Dev.refreshTick_sound | apply Dev.tickCounters_sound
    | (simp only [sound_mk]; apply sound_of))

theorem Dev.setFab_sound {d : Dev} {v : Nat} (h_d : d.Sound) : (Dev.setFab d v).Sound := by
  have h : ∀ n, ({ d with obs := { d.obs with clk := { d.obs.clk with offset := n } } } : Dev).Sound := fun _ => h_d
  exact h _

theorem Dev.setSlotWord_sound {d : Dev} {u v : Nat} {w : BitVec 32} (h_d : d.Sound) : (Dev.setSlotWord d u v w).Sound := by
  unfold Dev.setSlotWord
  (try lift_lets -underBinder)
  with_reducible repeat' (first
    | assumption | (intro x; clear_value x) | (simp only [sound_mk]; apply sound_of))

theorem Dev.slotFlag_sound {d : Dev} {u v b : Nat} (h_d : d.Sound) : (Dev.slotFlag d u v b).Sound := by
  unfold Dev.slotFlag
  with_reducible repeat' (first
    | assumption | apply Dev.setSlotWord_sound)

theorem Dev.hotPlug_sound {d : Dev} {u v : Nat} {pd : Bool} (h_d : d.Sound) : (Dev.hotPlug d u v pd).Sound := by
  unfold Dev.hotPlug
  (try lift_lets -underBinder)
  with_reducible repeat' (first
    | assumption | (intro x; have hx : Dev.Sound x; unfold x; rotate_left; clear_value x) | lift_lets -underBinder
    | apply sound_ite | apply Dev.slotFlag_sound | apply Dev.emit_sound)

theorem Dev.setFenced_sound {d : Dev} {u i : Nat} {on : Bool} (h_d : d.Sound) : (Dev.setFenced d u i on).Sound := by
  unfold Dev.setFenced
  (try lift_lets -underBinder)
  with_reducible repeat' (first
    | assumption | (intro x; have hx : Dev.Sound x; unfold x; rotate_left; clear_value x) | (intro x; clear_value x)
    | lift_lets -underBinder | apply sound_ite | apply Dev.setTab_sound | (simp only [sound_mk]; apply sound_of))

theorem Dev.setMember_sound {d : Dev} {u i k st : Nat} (h_d : d.Sound) : (Dev.setMember d u i k st).Sound := by
  unfold Dev.setMember
  (try lift_lets -underBinder)
  with_reducible repeat' (first
    | assumption | (intro x; have hx : Dev.Sound x; unfold x; rotate_left; clear_value x) | (intro x; clear_value x)
    | lift_lets -underBinder | apply sound_ite | apply Dev.setTab_sound | apply Dev.setTabS_sound
    | (simp only [sound_mk]; apply sound_of))

theorem Dev.setSuspect_sound {d : Dev} {a n : Nat} (h_d : d.Sound) : (Dev.setSuspect d a n).Sound := by
  unfold Dev.setSuspect
  (try lift_lets -underBinder)
  with_reducible repeat' (first
    | assumption | (intro x; clear_value x) | (simp only [sound_mk]; apply sound_of))

theorem Dev.setDirAt_sound {d : Dev} {h set_ : Nat} {l : List DirEnt} (h_d : d.Sound) : (Dev.setDirAt d h set_ l).Sound := by
  unfold Dev.setDirAt
  (try lift_lets -underBinder)
  with_reducible repeat' (first
    | assumption | (intro x; clear_value x) | (simp only [sound_mk]; apply sound_of))

theorem Dev.putEnt_sound {d : Dev} {e : DirEnt} (h_d : d.Sound) : (Dev.putEnt d e).Sound := by
  unfold Dev.putEnt
  (try lift_lets -underBinder)
  with_reducible repeat' (first
    | assumption | (intro x; clear_value x) | apply Dev.setDirAt_sound)

theorem Dev.freeEnt_sound {d : Dev} {tk h : Nat} (h_d : d.Sound) : (Dev.freeEnt d tk h).Sound := by
  unfold Dev.freeEnt
  (try lift_lets -underBinder)
  with_reducible repeat' (first
    | assumption | (intro x; clear_value x) | apply Dev.setDirAt_sound)

theorem Dev.modEnt_sound {d : Dev} {tk h : Nat} {f : DirEnt → DirEnt} (h_d : d.Sound) : (Dev.modEnt d tk h f).Sound := by
  unfold Dev.modEnt
  with_reducible repeat' (first
    | assumption | apply Dev.putEnt_sound | split)

theorem Dev.setSccAt_sound {d : Dev} {h set_ : Nat} {l : List SccLine} (h_d : d.Sound) : (Dev.setSccAt d h set_ l).Sound := by
  unfold Dev.setSccAt
  (try lift_lets -underBinder)
  with_reducible repeat' (first
    | assumption | (intro x; clear_value x) | (simp only [sound_mk]; apply sound_of))

theorem Dev.putScc_sound {d : Dev} {e : SccLine} (h_d : d.Sound) : (Dev.putScc d e).Sound := by
  unfold Dev.putScc
  (try lift_lets -underBinder)
  with_reducible repeat' (first
    | assumption | (intro x; clear_value x) | apply Dev.setSccAt_sound)

theorem Dev.dropScc_sound {d : Dev} {tk h : Nat} (h_d : d.Sound) : (Dev.dropScc d tk h).Sound := by
  unfold Dev.dropScc
  (try lift_lets -underBinder)
  with_reducible repeat' (first
    | assumption | (intro x; clear_value x) | apply Dev.setSccAt_sound)

theorem Dev.useScc_sound {d : Dev} {l : SccLine} (h_d : d.Sound) : (Dev.useScc d l).Sound := by
  unfold Dev.useScc
  (try lift_lets -underBinder)
  with_reducible repeat' (first
    | assumption | (intro x; have hx : Dev.Sound x; unfold x; rotate_left; clear_value x) | (intro x; clear_value x)
    | apply Dev.putScc_sound | (simp only [sound_mk]; apply sound_of))

theorem Dev.homeSend_sound {d : Dev} {h : Nat} {m : Msg} (h_d : d.Sound) : (Dev.homeSend d h m).Sound := by
  unfold Dev.homeSend
  with_reducible repeat' (first
    | assumption | apply Dev.pushRel_sound)

theorem Dev.replyFrom_sound {d : Dev} {via : Nat} {m : Msg} {op : MOp} {data : Bytes} {poison : Bool} {st : Nat} (h_d : d.Sound) : (Dev.replyFrom d via m op data poison st).Sound := by
  unfold Dev.replyFrom
  (try lift_lets -underBinder)
  with_reducible repeat' (first
    | assumption | (intro x; clear_value x) | lift_lets -underBinder | apply sound_ite | apply Dev.emit_sound
    | apply Dev.pushRel_sound)

theorem Dev.replyTo_sound {d : Dev} {s : Nat} {m : Msg} {op : MOp} {data : Bytes} {poison : Bool} {st : Nat} (h_d : d.Sound) : (Dev.replyTo d s m op data poison st).Sound := by
  unfold Dev.replyTo
  with_reducible repeat' (first
    | assumption | apply Dev.replyFrom_sound)

theorem Dev.replyFailFrom_sound {d : Dev} {via : Nat} {m : Msg} (h_d : d.Sound) : (Dev.replyFailFrom d via m).Sound := by
  unfold Dev.replyFailFrom
  with_reducible repeat' (first
    | assumption | lift_lets -underBinder | apply sound_ite | apply Dev.freshBytes_sound | apply Dev.replyFrom_sound)

theorem Dev.replyFail_sound {d : Dev} {s : Nat} {m : Msg} (h_d : d.Sound) : (Dev.replyFail d s m).Sound := by
  unfold Dev.replyFail
  with_reducible repeat' (first
    | assumption | apply Dev.replyFailFrom_sound)

theorem Dev.sendSnoop_sound {d : Dev} {tk h agent : Nat} {kind : MOp} {tc dom ep : Nat} (h_d : d.Sound) : (Dev.sendSnoop d tk h agent kind tc dom ep).2.Sound := by
  unfold Dev.sendSnoop
  (try lift_lets -underBinder)
  with_reducible repeat' (first
    | assumption | (intro x; clear_value x) | lift_lets -underBinder | apply sound_ite2 | apply Dev.homeSend_sound | split)
theorem Dev.modTray_sound {d : Dev} {id : Nat} {f : TrayEnt → TrayEnt} (h_d : d.Sound) : (Dev.modTray d id f).Sound := by
  unfold Dev.modTray
  (try lift_lets -underBinder)
  with_reducible repeat' (first
    | assumption | (intro x; clear_value x) | (simp only [sound_mk]; apply sound_of))

theorem Dev.setBlocks_sound {d : Dev} {s : Nat} {scc : Bool} {n : Nat} (h_d : d.Sound) : (Dev.setBlocks d s scc n).Sound := by
  unfold Dev.setBlocks
  (try lift_lets -underBinder)
  with_reducible repeat' (first
    | assumption | (intro x; have hx : Dev.Sound x; unfold x; rotate_left; clear_value x) | (intro x; clear_value x)
    | lift_lets -underBinder | apply Dev.put_sound | (simp only [sound_mk]; apply sound_of))

theorem Dev.returnBlocks_sound {d : Dev} {s : Nat} {scc : Bool} (h_d : d.Sound) : (Dev.returnBlocks d s scc).Sound := by
  unfold Dev.returnBlocks
  (try lift_lets -underBinder)
  with_reducible repeat' (first
    | assumption | (intro x; clear_value x) | lift_lets -underBinder | apply sound_ite | apply Dev.setBlocks_sound)

theorem Dev.trayFree_sound {d : Dev} {id : Nat} (h_d : d.Sound) : (Dev.trayFree d id).Sound := by
  unfold Dev.trayFree
  with_reducible repeat' (first
    | assumption | (intro x; have hx : Dev.Sound x; unfold x; rotate_left; clear_value x) | (intro x; clear_value x)
    | lift_lets -underBinder | apply sound_ite | apply Dev.returnBlocks_sound | apply Dev.endFlight_sound
    | (simp only [sound_mk]; apply sound_of) | split)

theorem Dev.drainSettle_sound {d : Dev} (h_d : d.Sound) : (Dev.drainSettle d).Sound := by
  unfold Dev.drainSettle
  (try lift_lets -underBinder)
  with_reducible repeat' (first
    | assumption | (intro x; have hx : Dev.Sound x; unfold x; rotate_left; clear_value x) | (intro x; clear_value x)
    | (intro _) | lift_lets -underBinder | apply sound_ite | apply sound_foldl | apply Dev.put_sound | apply Dev.emit_sound
    | (simp only [sound_mk]; apply sound_of))

theorem Dev.markDirty_sound {d : Dev} {w : Msg} (h_d : d.Sound) : (Dev.markDirty d w).Sound := by
  unfold Dev.markDirty
  with_reducible repeat' (first
    | assumption | (intro x; have hx : Dev.Sound x; unfold x; rotate_left; clear_value x) | (intro x; clear_value x)
    | lift_lets -underBinder | apply sound_ite | apply Dev.put_sound | (simp only [sound_mk]; apply sound_of) | split)

theorem Dev.noteFailed_sound {d : Dev} {r : Option Req} (h_d : d.Sound) : (Dev.noteFailed d r).Sound := by
  unfold Dev.noteFailed
  with_reducible repeat' (first
    | assumption | (intro x; clear_value x) | lift_lets -underBinder | apply Dev.setQueue_sound | split)

theorem Dev.trayPlace_sound {d : Dev} {e : TrayEnt} (h_d : d.Sound) : (Dev.trayPlace d e).Sound := by
  unfold Dev.trayPlace
  (try lift_lets -underBinder)
  with_reducible repeat' (first
    | assumption | (intro x; have hx : Dev.Sound x; unfold x; rotate_left; clear_value x) | (intro x; clear_value x)
    | lift_lets -underBinder | apply Dev.count_sound | apply Dev.markDirty_sound | apply Dev.modTray_sound
    | (simp only [sound_mk]; apply sound_of))

theorem Dev.traySettleOne_sound {d : Dev} {s id : Nat} (h_d : d.Sound) : (Dev.traySettleOne d s id).Sound := by
  unfold Dev.traySettleOne
  with_reducible repeat' (first
    | assumption | (intro x; have hx : Dev.Sound x; unfold x; rotate_left; clear_value x) | (intro x; clear_value x)
    | lift_lets -underBinder | apply sound_ite | apply Dev.trayPlace_sound | apply Dev.modTray_sound
    | apply Dev.replyTo_sound | apply Dev.noteFailed_sound | apply Dev.trayFree_sound | split)

theorem Dev.traySettle_sound {d : Dev} {s p : Nat} (h_d : d.Sound) : (Dev.traySettle d s p).Sound := by
  unfold Dev.traySettle
  (try lift_lets -underBinder)
  with_reducible repeat' (first
    | assumption | (intro x; have hx : Dev.Sound x; unfold x; rotate_left; clear_value x) | (intro x; clear_value x)
    | (intro _) | lift_lets -underBinder | apply sound_foldl | apply Dev.traySettleOne_sound | apply Dev.drainSettle_sound)

theorem Dev.trayOrder_sound {d : Dev} {id s : Nat} (h_d : d.Sound) : (Dev.trayOrder d id s).Sound := by
  unfold Dev.trayOrder
  with_reducible repeat' (first
    | assumption | lift_lets -underBinder | apply Dev.modTray_sound | apply Dev.traySettle_sound | split)

theorem Dev.trayCommit_sound {d : Dev} {id s : Nat} {ok : Bool} (h_d : d.Sound) : (Dev.trayCommit d id s ok).Sound := by
  unfold Dev.trayCommit
  with_reducible repeat' (first
    | assumption | (intro x; have hx : Dev.Sound x; unfold x; rotate_left; clear_value x) | lift_lets -underBinder
    | apply sound_ite | apply Dev.inc_sound | apply Dev.modTray_sound | apply Dev.traySettle_sound | split)

theorem Dev.ldrQueue_sound {d : Dev} {r : LdrReq} (h_d : d.Sound) : (Dev.ldrQueue d r).Sound := by
  unfold Dev.ldrQueue
  (try lift_lets -underBinder)
  with_reducible repeat' (first
    | assumption | (intro x; have hx : Larder := x; clear hx; unfold x; clear x) | (intro x; clear_value x)
    | (simp only [sound_mk]; apply sound_of))

theorem Dev.arriveRsp_sound {d : Dev} {h : Nat} {m : Msg} (h_d : d.Sound) : (Dev.arriveRsp d h m).Sound := by
  unfold Dev.arriveRsp
  with_reducible repeat' (first
    | assumption | apply Dev.setArrived_sound)

theorem Dev.tgtAccess_sound {d : Dev} {s tk dpa : Nat} {write : Bool} {m : Msg} (h_d : d.Sound) : (Dev.tgtAccess d s tk dpa write m).Sound := by
  unfold Dev.tgtAccess
  (try lift_lets -underBinder)
  with_reducible repeat' (first
    | assumption | (intro x; clear_value x) | lift_lets -underBinder | apply sound_ite | apply Dev.ldrQueue_sound
    | apply Dev.arriveRsp_sound | apply Dev.trayCommit_sound | apply Dev.replyFail_sound | apply Dev.homeSend_sound)

theorem Dev.tgtPut_sound {d : Dev} {tk h : Nat} {data : Bytes} {poison : Bool} {tc dom tag : Nat} (h_d : d.Sound) : (Dev.tgtPut d tk h data poison tc dom tag).Sound := by
  unfold Dev.tgtPut
  (try lift_lets -underBinder)
  with_reducible repeat' (first
    | assumption | (intro x; have hx : Dev.Sound x; unfold x; rotate_left; clear_value x) | (intro x; clear_value x)
    | lift_lets -underBinder | apply sound_ite | apply Dev.setHome_sound | apply Dev.tgtAccess_sound)

theorem Dev.tgtWriteAcc_sound {d : Dev} {tk h : Nat} {data : Bytes} {poison : Bool} {tc dom : Nat} {acc : Bool} (h_d : d.Sound) : (Dev.tgtWriteAcc d tk h data poison tc dom acc).Sound := by
  unfold Dev.tgtWriteAcc
  with_reducible repeat' (first
    | assumption | apply Dev.tgtPut_sound)

theorem Dev.tgtWrite_sound {d : Dev} {tk h : Nat} {data : Bytes} {poison : Bool} {tc dom : Nat} (h_d : d.Sound) : (Dev.tgtWrite d tk h data poison tc dom).Sound := by
  unfold Dev.tgtWrite
  with_reducible repeat' (first
    | assumption | apply Dev.tgtWriteAcc_sound)

theorem Dev.delTxn_sound {d : Dev} {t : Txn} (h_d : d.Sound) : (Dev.delTxn d t).Sound := by
  unfold Dev.delTxn
  with_reducible repeat' (first
    | assumption | apply Dev.modHome_sound)

theorem Dev.setTxn_sound {d : Dev} {t t2 : Txn} (h_d : d.Sound) : (Dev.setTxn d t t2).Sound := by
  unfold Dev.setTxn
  with_reducible repeat' (first
    | assumption | apply Dev.modHome_sound)

theorem Dev.addTxn_sound {d : Dev} {t : Txn} (h_d : d.Sound) : (Dev.addTxn d t).Sound := by
  unfold Dev.addTxn
  with_reducible repeat' (first
    | assumption | apply Dev.modHome_sound)

theorem Dev.freeHeld_sound {d : Dev} {tk h : Nat} (h_d : d.Sound) : (Dev.freeHeld d tk h).Sound := by
  unfold Dev.freeHeld
  with_reducible repeat' (first
    | assumption | (intro _) | lift_lets -underBinder | apply sound_foldl | apply Dev.modHome_sound)

theorem Dev.failHeld_sound {d : Dev} {tk h : Nat} (h_d : d.Sound) : (Dev.failHeld d tk h).Sound := by
  unfold Dev.failHeld
  with_reducible repeat' (first
    | assumption | (intro _) | lift_lets -underBinder | apply sound_foldl | apply Dev.replyFail_sound
    | apply Dev.freeHeld_sound)

theorem Dev.trayLeave_sound {d : Dev} {t : Txn} (h_d : d.Sound) : (Dev.trayLeave d t).Sound := by
  unfold Dev.trayLeave
  with_reducible repeat' (first
    | assumption | lift_lets -underBinder | apply sound_ite | apply Dev.trayCommit_sound)

theorem Dev.biAnswer_sound {d : Dev} {s : Nat} {m : Msg} {op : MOp} (h_d : d.Sound) : (Dev.biAnswer d s m op).Sound := by
  unfold Dev.biAnswer
  with_reducible repeat' (first
    | assumption | apply Dev.homeSend_sound)

theorem Dev.biEnd_sound {d : Dev} {s : Nat} {m : Msg} (h_d : d.Sound) : (Dev.biEnd d s m).Sound := by
  unfold Dev.biEnd
  with_reducible repeat' (first
    | assumption | apply Dev.biAnswer_sound | split)

theorem Dev.failReq_sound {d : Dev} {s : Nat} {m : Msg} (h_d : d.Sound) : (Dev.failReq d s m).Sound := by
  unfold Dev.failReq
  with_reducible repeat' (first
    | assumption | lift_lets -underBinder | apply sound_ite | apply Dev.trayCommit_sound | apply Dev.endFlight_sound
    | apply Dev.biEnd_sound | apply Dev.replyFail_sound | split)

theorem Dev.failTxn_sound {d : Dev} {t : Txn} (h_d : d.Sound) : (Dev.failTxn d t).Sound := by
  unfold Dev.failTxn
  (try lift_lets -underBinder)
  with_reducible repeat' (first
    | assumption | (intro x; have hx : Dev.Sound x; unfold x; rotate_left; clear_value x) | (intro x; clear_value x)
    | lift_lets -underBinder | apply sound_ite | apply Dev.delTxn_sound | apply Dev.failHeld_sound | apply Dev.modHome_sound
    | apply Dev.putEnt_sound | apply Dev.trayLeave_sound | apply Dev.modEnt_sound | apply Dev.failReq_sound | split)

theorem Dev.failWaits_sound {d : Dev} {s : Nat} {p : Wait → Bool} (h_d : d.Sound) : (Dev.failWaits d s p).Sound := by
  unfold Dev.failWaits
  (try lift_lets -underBinder)
  with_reducible repeat' (first
    | assumption | (intro x; have hx : Dev.Sound x; unfold x; rotate_left; clear_value x) | (intro x; clear_value x)
    | (intro _) | lift_lets -underBinder | apply sound_foldl | apply Dev.modHome_sound | apply Dev.failReq_sound)

theorem Dev.copyLost_sound {d : Dev} {s a dom : Nat} (h_d : d.Sound) : (Dev.copyLost d s a dom).Sound := by
  unfold Dev.copyLost
  (try lift_lets -underBinder)
  with_reducible repeat' (first
    | assumption | (intro x; have hx : Dev.Sound x; unfold x; rotate_left; clear_value x) | (intro x; clear_value x)
    | lift_lets -underBinder | apply sound_ite | apply Dev.setSuspect_sound | apply Dev.noteDue_sound
    | (simp only [sound_mk]; apply sound_of))

theorem Dev.snoopStep_sound {tk h tc dom ep : Nat} {kind : Nat → MOp} {acc : (List Nat × List Nat) × Dev} {a : Nat} (h_acc : acc.2.Sound) : (Dev.snoopStep tk h tc dom ep kind acc a).2.Sound := by
  unfold Dev.snoopStep
  (try lift_lets -underBinder)
  with_reducible repeat' (first
    | assumption | (intro x; have hx : Dev.Sound (Prod.snd x); unfold x; rotate_left; clear_value x)
    | apply Dev.sendSnoop_sound | apply Dev.count_sound | apply Dev.noteDue_sound | split)
theorem Dev.loseCopies_sound {d : Dev} {e : DirEnt} {l : List Nat} (h_d : d.Sound) : (Dev.loseCopies d e l).Sound := by
  unfold Dev.loseCopies
  with_reducible repeat' (first
    | assumption | (intro _) | lift_lets -underBinder | apply sound_foldl | apply Dev.modEnt_sound
    | apply Dev.copyLost_sound)

theorem Dev.openRecall_sound {d : Dev} {e : DirEnt} {agents : List Nat} {discard poison : Bool} (h_d : d.Sound) : (Dev.openRecall d e agents discard poison).Sound := by
  unfold Dev.openRecall
  (try lift_lets -underBinder)
  with_reducible repeat' (first
    | assumption | (intro x; have hx : Dev.Sound (Prod.snd x); unfold x; rotate_left; clear_value x)
    | (intro x; clear_value x) | (intro _) | lift_lets -underBinder | apply sound_foldlp | apply Dev.snoopStep_sound
    | apply Dev.addTxn_sound | apply Dev.modEnt_sound | apply Dev.loseCopies_sound)

theorem Dev.openInval_sound {d : Dev} {e : DirEnt} (h_d : d.Sound) : (Dev.openInval d e).Sound := by
  unfold Dev.openInval
  (try lift_lets -underBinder)
  with_reducible repeat' (first
    | assumption | (intro x; have hx : Dev.Sound x; unfold x; rotate_left; clear_value x) | (intro x; clear_value x)
    | lift_lets -underBinder | apply sound_ite | apply Dev.freeEnt_sound | apply Dev.openRecall_sound
    | apply Dev.delTxn_sound | split)

theorem Dev.logUeEntry_sound {d : Dev} {s set_ way kind : Nat} (h_d : d.Sound) : (Dev.logUeEntry d s set_ way kind).Sound := by
  unfold Dev.logUeEntry
  with_reducible repeat' (first
    | assumption | lift_lets -underBinder | apply sound_ite | apply Dev.put_sound)

theorem Dev.dropLost_sound {d : Dev} {s set_ : Nat} (h_d : d.Sound) : (Dev.dropLost d s set_).Sound := by
  unfold Dev.dropLost
  with_reducible repeat' (first
    | assumption | (intro x; have hx : Dev.Sound x; unfold x; rotate_left; clear_value x) | (intro x; clear_value x)
    | lift_lets -underBinder | apply sound_ite | apply Dev.logUeEntry_sound | apply Dev.setDirAt_sound
    | apply Dev.modHome_sound | apply Dev.noteDue_sound | split)

theorem Dev.entFix_sound {d : Dev} {e : DirEnt} (h_d : d.Sound) : (Dev.entFix d e).2.Sound := by
  unfold Dev.entFix
  with_reducible repeat' (first
    | assumption | lift_lets -underBinder | apply sound_ite2 | apply Dev.modEnt_sound | apply Dev.noteDue_sound)
theorem Dev.dirSweep_sound {d : Dev} {s : Nat} (h_d : d.Sound) : (Dev.dirSweep d s).Sound := by
  unfold Dev.dirSweep
  (try lift_lets -underBinder)
  with_reducible repeat' (first
    | assumption | (intro x; have hx : Dev.Sound x; unfold x; rotate_left; clear_value x) | (intro x; clear_value x)
    | (intro _) | lift_lets -underBinder | apply sound_foldl | apply Dev.dropLost_sound | apply Dev.entFix_sound)

theorem Dev.addLines_sound {d : Dev} {s n : Nat} (h_d : d.Sound) : (Dev.addLines d s n).Sound := by
  unfold Dev.addLines
  with_reducible repeat' (first
    | assumption | apply Dev.put_sound)

theorem Dev.removalsEnd_sound {d : Dev} (h_d : d.Sound) : (Dev.removalsEnd d).Sound := by
  unfold Dev.removalsEnd
  (try lift_lets -underBinder)
  with_reducible repeat' (first
    | assumption | (intro x; have hx : Dev.Sound x; unfold x; rotate_left; clear_value x) | (intro x; clear_value x)
    | (intro _) | lift_lets -underBinder | apply sound_foldl | apply Dev.hotPlug_sound | apply Dev.addLines_sound
    | (simp only [sound_mk]; apply sound_of))

theorem Dev.quenchSlice_sound {d : Dev} {dom s : Nat} (h_d : d.Sound) : (Dev.quenchSlice d dom s).Sound := by
  unfold Dev.quenchSlice
  (try lift_lets -underBinder)
  with_reducible repeat' (first
    | assumption | (intro x; have hx : Dev.Sound x; unfold x; rotate_left; clear_value x) | (intro x; clear_value x)
    | (intro _) | lift_lets -underBinder | apply sound_ite | apply sound_foldl | apply Dev.dirSweep_sound
    | apply Dev.failTxn_sound | apply Dev.failWaits_sound | apply Dev.dropScc_sound | apply Dev.tgtWriteAcc_sound
    | apply Dev.logUeEntry_sound | apply Dev.noteDue_sound | apply Dev.modEnt_sound | apply Dev.openRecall_sound | split)

theorem Dev.notice_sound {d : Dev} {b : Body} {dom : Nat} (h_d : d.Sound) : (Dev.notice d b dom).Sound := by
  unfold Dev.notice
  with_reducible repeat' (first
    | assumption | (intro _) | lift_lets -underBinder | apply sound_foldl | apply Dev.homeSend_sound)

theorem Dev.quench_sound {d : Dev} {dom : Nat} {agent : Option Nat} {send : Bool} (h_d : d.Sound) : (Dev.quench d dom agent send).Sound := by
  unfold Dev.quench
  (try lift_lets -underBinder)
  with_reducible repeat' (first
    | assumption | (intro x; have hx : Dev.Sound x; unfold x; rotate_left; clear_value x) | (intro x; clear_value x)
    | (intro _) | lift_lets -underBinder | apply sound_ite | apply sound_foldl | apply Dev.setFenced_sound
    | apply Dev.emit_sound | apply Dev.setTab_sound | apply Dev.notice_sound | apply Dev.put_sound | apply Dev.modHome_sound
    | apply Dev.quenchSlice_sound | (simp only [sound_mk]; apply sound_of) | split)

theorem Dev.quenchEnd_sound {d : Dev} (h_d : d.Sound) : (Dev.quenchEnd d).Sound := by
  unfold Dev.quenchEnd
  (try lift_lets -underBinder)
  with_reducible repeat' (first
    | assumption | (intro x; have hx : Dev.Sound x; unfold x; rotate_left; clear_value x) | (intro x; clear_value x)
    | (intro _) | lift_lets -underBinder | apply sound_foldl | apply Dev.setTab_sound
    | (simp only [sound_mk]; apply sound_of) | split)

theorem Dev.setCtxW_sound {d : Dev} {q i : Nat} {w : W64} (h_d : d.Sound) : (Dev.setCtxW d q i w).Sound := by
  unfold Dev.setCtxW
  (try lift_lets -underBinder)
  with_reducible repeat' (first
    | assumption | (intro x; have hx : Dev.Sound x; unfold x; rotate_left; clear_value x)
    | (intro x; have hx : Larder := x; clear hx; unfold x; clear x) | (intro x; clear_value x) | lift_lets -underBinder
    | apply sound_ite | apply Dev.setLword_sound | (simp only [sound_mk]; apply sound_of))

theorem Dev.qPut_sound {d : Dev} {n : Nat} {f : CtxF} {v : Nat} (h_d : d.Sound) : (Dev.qPut d n f v).Sound := by
  unfold Dev.qPut
  with_reducible repeat' (first
    | assumption | apply Dev.setCtxW_sound)

theorem Dev.setQState_sound {d : Dev} {n st : Nat} (h_d : d.Sound) : (Dev.setQState d n st).Sound := by
  unfold Dev.setQState
  (try lift_lets -underBinder)
  with_reducible repeat' (first
    | assumption | (intro x; clear_value x) | lift_lets -underBinder | apply Dev.put_sound | apply Dev.qPut_sound)

theorem Dev.setLanes_sound {d : Dev} {o : Nat} {ls : List Nat} {ps : Nat} (h_d : d.Sound) : (Dev.setLanes d o ls ps).Sound := by
  unfold Dev.setLanes
  with_reducible repeat' (first
    | assumption | (intro _) | lift_lets -underBinder | apply sound_foldl | apply Dev.put_sound)

theorem Dev.marginOff_sound {d : Dev} {o : Nat} {ls : List Nat} (h_d : d.Sound) : (Dev.marginOff d o ls).Sound := by
  unfold Dev.marginOff
  (try lift_lets -underBinder)
  with_reducible repeat' (first
    | assumption | (intro x; have hx : Dev.Sound x; unfold x; rotate_left; clear_value x) | (intro x; clear_value x)
    | lift_lets -underBinder | apply sound_ite | apply Dev.setOctet_sound | apply Dev.noteDue_sound | apply Dev.put_sound)

theorem Dev.linkStop_sound {d : Dev} {p st : Nat} (h_d : d.Sound) : (Dev.linkStop d p st).Sound := by
  unfold Dev.linkStop
  (try lift_lets -underBinder)
  with_reducible repeat' (first
    | assumption | (intro x; have hx : Dev.Sound x; unfold x; rotate_left; clear_value x) | (intro x; clear_value x)
    | (intro _) | lift_lets -underBinder | apply sound_foldl | apply Dev.setPortState_sound | apply Dev.put_sound
    | apply Dev.marginOff_sound | apply Dev.setLanes_sound)

theorem Dev.flushPort_sound {d : Dev} {p : Nat} (h_d : d.Sound) : (Dev.flushPort d p).2.Sound := by
  unfold Dev.flushPort
  with_reducible repeat' (first
    | assumption | lift_lets -underBinder | apply Dev.flushDest_sound | apply Dev.inc_sound | apply Dev.dropIngress_sound)
theorem Dev.stopPort_sound {d : Dev} {p : Nat} (h_d : d.Sound) : (Dev.stopPort d p).Sound := by
  unfold Dev.stopPort
  (try lift_lets -underBinder)
  with_reducible repeat' (first
    | assumption | (intro x; have hx : Dev.Sound x; unfold x; rotate_left; clear_value x) | (intro x; clear_value x)
    | lift_lets -underBinder | apply sound_ite | apply Dev.linkToDown_sound | apply Dev.linkStop_sound
    | apply Dev.dropIngress_sound | apply Dev.flushPort_sound | apply Dev.modPort_sound | split)

theorem Dev.addQuar_sound {d : Dev} {e : Elem} (h_d : d.Sound) : (Dev.addQuar d e).Sound := by
  unfold Dev.addQuar
  (try lift_lets -underBinder)
  with_reducible repeat' (first
    | assumption | (intro x; clear_value x) | (simp only [sound_mk]; apply sound_of))

theorem Dev.endQuar_sound {d : Dev} {e : Elem} (h_d : d.Sound) : (Dev.endQuar d e).Sound := by
  unfold Dev.endQuar
  (try lift_lets -underBinder)
  with_reducible repeat' (first
    | assumption | (intro x; clear_value x) | (simp only [sound_mk]; apply sound_of))

theorem Dev.perstUpdate_sound {d : Dev} (h_d : d.Sound) : (Dev.perstUpdate d).Sound := by
  unfold Dev.perstUpdate
  (try lift_lets -underBinder)
  with_reducible repeat' (first
    | assumption | (intro x; clear_value x) | (simp only [sound_mk]; apply sound_of))

theorem Dev.slotOff_sound {d : Dev} {n st : Nat} (h_d : d.Sound) : (Dev.slotOff d n st).Sound := by
  unfold Dev.slotOff
  (try lift_lets -underBinder)
  with_reducible repeat' (first
    | assumption | (intro x; have hx : Dev.Sound x; unfold x; rotate_left; clear_value x) | (intro x; clear_value x)
    | (intro _) | lift_lets -underBinder | apply sound_ite | apply sound_foldl | apply Dev.put_sound | apply Dev.emit_sound
    | apply Dev.modPort_sound | apply Dev.perstUpdate_sound)

theorem Dev.contain_sound {d : Dev} {e : Elem} (h_d : d.Sound) : (Dev.contain d e).Sound := by
  unfold Dev.contain
  (try lift_lets -underBinder)
  with_reducible repeat' (first
    | assumption | (intro x; have hx : Dev.Sound x; unfold x; rotate_left; clear_value x) | (intro x; clear_value x)
    | (intro _) | lift_lets -underBinder | apply sound_foldl | apply Dev.addQuar_sound | apply Dev.stopPort_sound
    | apply Dev.linkToDown_sound | apply Dev.put_sound | apply Dev.setQState_sound | apply Dev.slotOff_sound
    | (simp only [sound_mk]; apply sound_of) | split)

theorem Dev.haltNow_sound {d : Dev} {g : Pg} {src cause : Nat} (h_d : d.Sound) : (Dev.haltNow d g src cause).Sound := by
  unfold Dev.haltNow
  (try lift_lets -underBinder)
  with_reducible repeat' (first
    | assumption | (intro x; have hx : Dev.Sound x; unfold x; rotate_left; clear_value x) | (intro _)
    | lift_lets -underBinder | apply sound_ite | apply sound_foldl | apply Dev.put_sound | apply Dev.linkStop_sound)

theorem Dev.haltBy_sound {d : Dev} {g : Pg} {src cause : Nat} (h_d : d.Sound) : (Dev.haltBy d g src cause).Sound := by
  unfold Dev.haltBy
  (try lift_lets -underBinder)
  with_reducible repeat' (first
    | assumption | (intro x; clear_value x) | lift_lets -underBinder | apply sound_ite | apply Dev.haltNow_sound
    | (simp only [sound_mk]; apply sound_of))

theorem Dev.cycMark_sound {d : Dev} {s : FSrc} {g : Pg} {w : Who} (h_d : d.Sound) : (Dev.cycMark d s g w).Sound := by
  unfold Dev.cycMark
  (try lift_lets -underBinder)
  with_reducible repeat' (first
    | assumption | (intro x; clear_value x) | lift_lets -underBinder | apply sound_ite
    | (simp only [sound_mk]; apply sound_of))

theorem Dev.firstFault_sound {d : Dev} {s : FSrc} {g : Pg} {eff : Nat} {esc : Bool} (h_d : d.Sound) : (Dev.firstFault d s g eff esc).Sound := by
  unfold Dev.firstFault
  (try lift_lets -underBinder)
  with_reducible repeat' (first
    | assumption | (intro x; have hx : Dev.Sound x; unfold x; rotate_left; clear_value x) | (intro x; clear_value x)
    | lift_lets -underBinder | apply sound_ite | apply Dev.put_sound | (simp only [sound_mk]; apply sound_of))

theorem Dev.recordFault_sound {d : Dev} {s : FSrc} {g : Pg} {eff : Nat} {esc count : Bool} (h_d : d.Sound) : (Dev.recordFault d s g eff esc count).Sound := by
  unfold Dev.recordFault
  (try lift_lets -underBinder)
  with_reducible repeat' (first
    | assumption | (intro x; have hx : Dev.Sound x; unfold x; rotate_left; clear_value x) | (intro x; clear_value x)
    | lift_lets -underBinder | apply sound_ite | apply Dev.put_sound | apply Dev.firstFault_sound | apply Dev.count_sound
    | (simp only [sound_mk]; apply sound_of))

theorem Dev.actFault_sound {d : Dev} {s : FSrc} {g : Pg} {eff : Nat} {esc : Bool} {w : Who} (h_d : d.Sound) : (Dev.actFault d s g eff esc w).Sound := by
  unfold Dev.actFault
  (try lift_lets -underBinder)
  with_reducible repeat' (first
    | assumption | (intro x; have hx : Dev.Sound x; unfold x; rotate_left; clear_value x) | lift_lets -underBinder
    | apply sound_ite | apply Dev.contain_sound | apply Dev.quench_sound | apply Dev.haltBy_sound | split)

theorem Dev.reportLost_sound {d : Dev} {s : FSrc} (h_d : d.Sound) : (Dev.reportLost d s).2.Sound := by
  unfold Dev.reportLost
  (try lift_lets -underBinder)
  with_reducible repeat' (first
    | assumption | (intro x; have hx : Dev.Sound (Prod.snd x); unfold x; rotate_left; clear_value x) | apply sound_ite2
    | apply Dev.injectAt_sound)
theorem Dev.raiseN_sound {n : Nat} {d : Dev} {s : FSrc} {i : Nat} {w : Who} (h_d : d.Sound) : (Dev.raiseN n d s i w).Sound := by
  induction n generalizing d s i w with
  | zero => exact h_d
  | succ n ih =>
  unfold Dev.raiseN
  (try lift_lets -underBinder)
  with_reducible repeat' (first
    | assumption | (intro x; clear_value x) | (intro _) | lift_lets -underBinder | apply sound_ite | apply sound_foldl
    | apply Dev.cycMark_sound | apply Dev.recordFault_sound | apply Dev.reportLost_sound | apply Dev.irq_sound
    | apply Dev.actFault_sound | (refine Dev.crumbTrigger_at ‹_ = _› ?_) | (refine Dev.ringPut_at ‹_ = _› ?_) | apply ih
    | (simp only [sound_mk]; apply sound_of) | split)

theorem Dev.raise_sound {d : Dev} {s : FSrc} {i : Nat} {w : Who} (h_d : d.Sound) : (Dev.raise d s i w).Sound := by
  unfold Dev.raise
  with_reducible repeat' (first
    | assumption | apply Dev.raiseN_sound)

theorem Dev.raiseDue_sound {d : Dev} (h_d : d.Sound) : (Dev.raiseDue d).Sound := by
  unfold Dev.raiseDue
  (try lift_lets -underBinder)
  with_reducible repeat' (first
    | assumption | (intro x; clear_value x) | (intro _) | lift_lets -underBinder | apply sound_foldl | apply Dev.raise_sound
    | (simp only [sound_mk]; apply sound_of))

theorem Dev.tabRead_sound {d : Dev} {t inst : Nat} {is : List Nat} (h_d : d.Sound) : (Dev.tabRead d t inst is).Sound := by
  unfold Dev.tabRead
  with_reducible repeat' (first
    | assumption | (intro x; have hx : Dev.Sound x; unfold x; rotate_left; clear_value x) | (intro x; clear_value x)
    | (intro _) | lift_lets -underBinder | apply sound_ite | apply sound_foldl | apply Dev.raise_sound
    | (simp only [sound_mk]; apply sound_of) | split)

theorem Dev.persist_sound {d : Dev} {s : FSrc} {i : Nat} {on : Bool} (h_d : d.Sound) : (Dev.persist d s i on).Sound := by
  unfold Dev.persist
  (try lift_lets -underBinder)
  with_reducible repeat' (first
    | assumption | (intro x; clear_value x) | (simp only [sound_mk]; apply sound_of))

theorem Dev.crumb_sound {d : Dev} {cause : Nat} (h_d : d.Sound) : (Dev.crumb d cause).Sound := by
  unfold Dev.crumb
  with_reducible repeat' (first
    | assumption | lift_lets -underBinder | apply Dev.raise_sound | (refine Dev.crumbTrigger_at ‹_ = _› ?_) | split)

theorem Dev.putRecord_sound {d : Dev} {k src type_ : Nat} {payload : List W64} {ok : Bool} (h_d : d.Sound) : (Dev.putRecord d k src type_ payload ok).Sound := by
  unfold Dev.putRecord
  with_reducible repeat' (first
    | assumption | lift_lets -underBinder | apply Dev.raise_sound | apply Dev.crumb_sound
    | (refine Dev.ringPut_at ‹_ = _› ?_) | split)

theorem Dev.tgtReach_sound {d : Dev} {s tk dpa : Nat} {write : Bool} {m : Msg} (h_d : d.Sound) : (Dev.tgtReach d s tk dpa write m).Sound := by
  unfold Dev.tgtReach
  (try lift_lets -underBinder)
  with_reducible repeat' (first
    | assumption | (intro x; have hx : Dev.Sound x; unfold x; rotate_left; clear_value x) | (intro x; clear_value x)
    | lift_lets -underBinder | apply sound_ite | apply Dev.tgtAccess_sound | apply Dev.raise_sound)

theorem Dev.rowOpen_sound {d : Dev} {c line : Nat} (h_d : d.Sound) : (Dev.rowOpen d c line).Sound := by
  unfold Dev.rowOpen
  (try lift_lets -underBinder)
  with_reducible repeat' (first
    | assumption | (intro x; have hx : Dev.Sound x; unfold x; rotate_left; clear_value x)
    | (intro x; have hx : Larder := x; clear hx; unfold x; clear x) | (intro x; clear_value x) | lift_lets -underBinder
    | apply sound_ite | apply Dev.emit_sound | (simp only [sound_mk]; apply sound_of))

theorem Dev.logUe_sound {d : Dev} {c line kind : Nat} (h_d : d.Sound) : (Dev.logUe d c line kind).Sound := by
  unfold Dev.logUe
  (try lift_lets -underBinder)
  with_reducible repeat' (first
    | assumption | (intro x; have hx : Dev.Sound x; unfold x; rotate_left; clear_value x) | lift_lets -underBinder
    | apply sound_ite | apply Dev.inc_sound | apply Dev.put_sound)

theorem Dev.setLine_sound {d : Dev} {line : Nat} {ce ue poison : Bool} (h_d : d.Sound) : (Dev.setLine d line ce ue poison).Sound := by
  unfold Dev.setLine
  (try lift_lets -underBinder)
  with_reducible repeat' (first
    | assumption | (intro x; have hx : Larder := x; clear hx; unfold x; clear x) | (intro x; clear_value x)
    | (simp only [sound_mk]; apply sound_of))

theorem Dev.startSoft_sound {d : Dev} {c key : Nat} (h_d : d.Sound) : (Dev.startSoft d c key).Sound := by
  unfold Dev.startSoft
  (try lift_lets -underBinder)
  with_reducible repeat' (first
    | assumption | (intro x; have hx : Dev.Sound x; unfold x; rotate_left; clear_value x)
    | (intro x; have hx : Larder := x; clear hx; unfold x; clear x) | lift_lets -underBinder | apply sound_ite
    | apply Dev.put_sound | (simp only [sound_mk]; apply sound_of))

theorem Dev.corrected_sound {d : Dev} {c line : Nat} (h_d : d.Sound) : (Dev.corrected d c line).Sound := by
  unfold Dev.corrected
  (try lift_lets -underBinder)
  with_reducible repeat' (first
    | assumption | (intro x; have hx : Dev.Sound x; unfold x; rotate_left; clear_value x)
    | (intro x; have hx : Larder := x; clear hx; unfold x; clear x) | (intro x; clear_value x) | lift_lets -underBinder
    | apply sound_ite | apply Dev.inc_sound | apply Dev.raise_sound | apply Dev.startSoft_sound
    | (simp only [sound_mk]; apply sound_of))

theorem Dev.carveRead_sound {d : Dev} {a kind : Nat} (h_d : d.Sound) : (Dev.carveRead d a kind).2.Sound := by
  unfold Dev.carveRead
  (try lift_lets -underBinder)
  with_reducible repeat' (first
    | assumption | (intro x; have hx : Dev.Sound x; unfold x; rotate_left; clear_value x) | (intro x; clear_value x)
    | lift_lets -underBinder | apply sound_ite | apply sound_ite2 | apply Dev.rowOpen_sound | apply Dev.logUe_sound
    | apply Dev.raise_sound | apply Dev.corrected_sound)
theorem Dev.readLine_sound {d : Dev} {c line : Nat} (h_d : d.Sound) : (Dev.readLine d c line).2.2.Sound := by
  unfold Dev.readLine
  (try lift_lets -underBinder)
  with_reducible repeat' (first
    | assumption | (intro x; have hx : Dev.Sound x; unfold x; rotate_left; clear_value x) | lift_lets -underBinder
    | apply sound_ite | apply Dev.freshBytes_sound | apply Dev.rowOpen_sound | apply Dev.logUe_sound | apply Dev.raise_sound
    | apply Dev.corrected_sound | split)
theorem Dev.takeInject_sound {d : Dev} {c line : Nat} {carve : Bool} (h_d : d.Sound) : (Dev.takeInject d c line carve).2.Sound := by
  unfold Dev.takeInject
  (try lift_lets -underBinder)
  with_reducible repeat' (first
    | assumption | (intro x; clear_value x) | (intro _) | lift_lets -underBinder | apply sound_ite | apply sound_ite2
    | apply Dev.put_sound)
theorem Dev.writeLine_sound {d : Dev} {c line be : Nat} {data : Bytes} {poison : Bool} (h_d : d.Sound) : (Dev.writeLine d c line be data poison).Sound := by
  unfold Dev.writeLine
  (try lift_lets -underBinder)
  with_reducible repeat' (first
    | assumption | (intro x; have hx : Dev.Sound x; unfold x; rotate_left; clear_value x) | (intro x; clear_value x)
    | (intro _) | lift_lets -underBinder | apply sound_ite | apply Dev.rowOpen_sound | apply Dev.lwriteBe_sound
    | apply Dev.takeInject_sound | apply Dev.setLine_sound | apply Dev.logUe_sound | apply Dev.raise_sound)

theorem Dev.badAccess_sound {d : Dev} {path addr cause : Nat} {write : Bool} (h_d : d.Sound) : (Dev.badAccess d path addr cause write).Sound := by
  unfold Dev.badAccess
  (try lift_lets -underBinder)
  with_reducible repeat' (first
    | assumption | (intro x; have hx : Dev.Sound x; unfold x; rotate_left; clear_value x) | lift_lets -underBinder
    | apply sound_ite | apply Dev.put_sound | apply Dev.raise_sound)

theorem Dev.access_sound {d : Dev} {path : Nat} {g : Pg} {off : Nat} {f : Dev → Dev} (h_d : d.Sound) (h_f : ∀ (v0 : Dev), Dev.Sound v0 → Dev.Sound (f v0)) : (Dev.access d path g off f).Sound := by
  unfold Dev.access
  with_reducible repeat' (first
    | assumption | lift_lets -underBinder | apply sound_ite | apply Dev.badAccess_sound | apply h_f)

theorem Dev.accessPg_sound {d : Dev} {path pg off : Nat} {f : Pg → Dev → Dev} (h_d : d.Sound) (h_f : ∀ (v0 : Pg) (v1 : Dev), Dev.Sound v1 → Dev.Sound (f v0 v1)) : (Dev.accessPg d path pg off f).Sound := by
  unfold Dev.accessPg
  with_reducible repeat' (first
    | assumption | (intro _) | lift_lets -underBinder | apply sound_ite | apply Dev.access_sound | apply Dev.badAccess_sound
    | apply h_f | split)

theorem Dev.police_sound {d : Dev} {p : Nat} {m : Msg} (h_d : d.Sound) : (Dev.police d p m).2.2.Sound := by
  unfold Dev.police
  (try lift_lets -underBinder)
  with_reducible repeat' (first
    | assumption | (intro x; have hx : Dev.Sound x; unfold x; rotate_left; clear_value x)
    | (intro x; have hx : ∀ e : Dev, Dev.Sound e → Dev.Sound (x e); unfold x; rotate_left; clear_value x)
    | (intro x; clear_value x) | (intro _) | lift_lets -underBinder | apply sound_ite | apply Dev.tabRead_sound
    | apply Dev.inc_sound | apply Dev.raise_sound | apply Dev.setMeter_sound | split | apply_assumption)
theorem Dev.charge_sound {d : Dev} {q : Nat} {m : Msg} (h_d : d.Sound) : (Dev.charge d q m).Sound := by
  unfold Dev.charge
  (try lift_lets -underBinder)
  with_reducible repeat' (first
    | assumption | (intro x; clear_value x) | lift_lets -underBinder | apply sound_ite | apply Dev.setShaper_sound
    | apply Dev.count_sound)

theorem Dev.stampStart_sound {d : Dev} {q : Nat} (h_d : d.Sound) : (Dev.stampStart d q).Sound := by
  unfold Dev.stampStart
  (try lift_lets -underBinder)
  with_reducible repeat' (first
    | assumption | (intro x; clear_value x) | lift_lets -underBinder | apply Dev.put_sound)

theorem Dev.gateNote_sound {d : Dev} {q : Nat} {m : Msg} (h_d : d.Sound) : (Dev.gateNote d q m).Sound := by
  unfold Dev.gateNote
  with_reducible repeat' (first
    | assumption | (intro x; clear_value x) | lift_lets -underBinder | apply Dev.inc_sound | apply Dev.setEgress_sound
    | split)

theorem Dev.gateHold_sound {d : Dev} {q : Nat} {x : Stored} (h_d : d.Sound) : (Dev.gateHold d q x).Sound := by
  unfold Dev.gateHold
  (try lift_lets -underBinder)
  with_reducible repeat' (first
    | assumption | (intro x; have hx : Dev.Sound x; unfold x; rotate_left; clear_value x) | (intro x; clear_value x)
    | lift_lets -underBinder | apply sound_ite | apply Dev.modStored_sound | apply Dev.inc_sound | apply Dev.raise_sound
    | apply Dev.gateNote_sound)

theorem Dev.regate_sound {d : Dev} {q t : Nat} (h_d : d.Sound) : (Dev.regate d q t).Sound := by
  unfold Dev.regate
  (try lift_lets -underBinder)
  with_reducible repeat' (first
    | assumption | (intro x; clear_value x) | apply Dev.setEgress_sound)

theorem Dev.nextTc_sound {d : Dev} {q : Nat} (h_d : d.Sound) : (Dev.nextTc d q).2.Sound := by
  unfold Dev.nextTc
  (try lift_lets -underBinder)
  with_reducible repeat' (first
    | assumption | (intro x; clear_value x) | lift_lets -underBinder | apply sound_ite2 | apply Dev.setEgress_sound | split)
theorem Dev.nextTc_at {d : Dev} {q : Nat} {r0 : Option (Nat × Bool)} {d1 : Dev} (hEq : Dev.nextTc d q = (r0, d1)) (h_d : d.Sound) : d1.Sound := by
  have h := Dev.nextTc_sound (d := d) (q := q) h_d 
  rw [hEq] at h
  exact h

theorem Dev.settleDef_sound {d : Dev} {q : Nat} {m : Msg} {committed : Bool} (h_d : d.Sound) : (Dev.settleDef d q m committed).Sound := by
  unfold Dev.settleDef
  (try lift_lets -underBinder)
  with_reducible repeat' (first
    | assumption | (intro x; clear_value x) | apply Dev.setEgress_sound)

theorem Dev.noteDelay_sound {d : Dev} {q : Nat} {m : Msg} (h_d : d.Sound) : (Dev.noteDelay d q m).Sound := by
  unfold Dev.noteDelay
  (try lift_lets -underBinder)
  with_reducible repeat' (first
    | assumption | (intro x; clear_value x) | lift_lets -underBinder | apply sound_ite | apply Dev.put_sound)

theorem Dev.setTagErr_sound {d : Dev} {s w e : Nat} (h_d : d.Sound) : (Dev.setTagErr d s w e).Sound := by
  unfold Dev.setTagErr
  (try lift_lets -underBinder)
  with_reducible repeat' (first
    | assumption | (intro x; clear_value x) | (simp only [sound_mk]; apply sound_of))

theorem Dev.tagDrop_sound {d : Dev} {s w : Nat} (h_d : d.Sound) : (Dev.tagDrop d s w).Sound := by
  unfold Dev.tagDrop
  (try lift_lets -underBinder)
  with_reducible repeat' (first
    | assumption | (intro x; clear_value x) | lift_lets -underBinder | apply Dev.setTagErr_sound
    | (simp only [sound_mk]; apply sound_of))

theorem Dev.tagTouch_sound {d : Dev} {s w : Nat} (h_d : d.Sound) : (Dev.tagTouch d s w).Sound := by
  unfold Dev.tagTouch
  (try lift_lets -underBinder)
  with_reducible repeat' (first
    | assumption | (intro x; have hx : Dev.Sound x; unfold x; rotate_left; clear_value x) | (intro x; clear_value x)
    | lift_lets -underBinder | apply sound_ite | apply Dev.tagDrop_sound | apply Dev.raise_sound | apply Dev.setTagErr_sound
    | apply Dev.inc_sound | (simp only [sound_mk]; apply sound_of) | split)

theorem Dev.tagInsert_sound {d : Dev} {s w : Nat} (h_d : d.Sound) : (Dev.tagInsert d s w).Sound := by
  unfold Dev.tagInsert
  (try lift_lets -underBinder)
  with_reducible repeat' (first
    | assumption | (intro x; have hx : Dev.Sound x; unfold x; rotate_left; clear_value x) | (intro x; clear_value x)
    | lift_lets -underBinder | apply Dev.injectAt_sound | apply Dev.setTagErr_sound | (simp only [sound_mk]; apply sound_of))

theorem Dev.tagInvalidate_sound {d : Dev} {w : Nat} (h_d : d.Sound) : (Dev.tagInvalidate d w).Sound := by
  unfold Dev.tagInvalidate
  with_reducible repeat' (first
    | assumption | (intro x; have hx : Dev.Sound x; unfold x; rotate_left; clear_value x) | (intro x; clear_value x)
    | (intro _) | lift_lets -underBinder | apply sound_foldl | apply Dev.tagDrop_sound
    | (simp only [sound_mk]; apply sound_of))

theorem Dev.deny_sound {d : Dev} {p : Nat} {key : Key} {kind : AccKind} {c : Denial} {a : Nat} {w : Who} (h_d : d.Sound) : (Dev.deny d p key kind c a w).Sound := by
  unfold Dev.deny
  (try lift_lets -underBinder)
  with_reducible repeat' (first
    | assumption | (intro x; have hx : Dev.Sound x; unfold x; rotate_left; clear_value x) | lift_lets -underBinder
    | apply sound_ite | apply Dev.inc_sound | apply Dev.put_sound | apply Dev.raise_sound)

theorem Dev.refuseAnswer_sound {d : Dev} {p : Nat} {m : Msg} (h_d : d.Sound) : (Dev.refuseAnswer d p m).Sound := by
  unfold Dev.refuseAnswer
  (try lift_lets -underBinder)
  with_reducible repeat' (first
    | assumption | (intro x; have hx : Dev.Sound x; unfold x; rotate_left; clear_value x) | lift_lets -underBinder
    | apply sound_ite | apply Dev.replyTo_sound | apply Dev.replyFail_sound | apply Dev.endFlight_sound)

theorem Dev.refuse_sound {d : Dev} {p : Nat} {key : Key} {m : Msg} {kind : AccKind} {c : Denial} {a : Nat} (h_d : d.Sound) : (Dev.refuse d p key m kind c a).Sound := by
  unfold Dev.refuse
  with_reducible repeat' (first
    | assumption | lift_lets -underBinder | apply Dev.deny_sound | apply Dev.refuseAnswer_sound)

theorem Dev.answerMiss_sound {d : Dev} {m : Msg} (h_d : d.Sound) : (Dev.answerMiss d m).Sound := by
  unfold Dev.answerMiss
  (try lift_lets -underBinder)
  with_reducible repeat' (first
    | assumption | (intro x; clear_value x) | lift_lets -underBinder | apply sound_ite | apply Dev.replyTo_sound
    | apply Dev.replyFail_sound)

theorem Dev.decodeMiss_sound {d : Dev} {s : Nat} {m : Msg} (h_d : d.Sound) : (Dev.decodeMiss d s m).Sound := by
  unfold Dev.decodeMiss
  with_reducible repeat' (first
    | assumption | lift_lets -underBinder | apply Dev.inc_sound | apply Dev.raise_sound)

theorem Dev.hit_sound {d : Dev} {u i : Nat} (h_d : d.Sound) : (Dev.hit d u i).Sound := by
  unfold Dev.hit
  (try lift_lets -underBinder)
  with_reducible repeat' (first
    | assumption | (intro x; clear_value x) | apply Dev.setTab_sound)

theorem Dev.mirrorStale_sound {d : Dev} {u i k cause : Nat} (h_d : d.Sound) : (Dev.mirrorStale d u i k cause).Sound := by
  unfold Dev.mirrorStale
  (try lift_lets -underBinder)
  with_reducible repeat' (first
    | assumption | (intro x; have hx : Dev.Sound x; unfold x; rotate_left; clear_value x) | (intro x; clear_value x)
    | lift_lets -underBinder | apply sound_ite | apply Dev.setMember_sound | apply Dev.put_sound)

theorem Dev.mirrorSplit_sound {d : Dev} {m : Msg} (h_d : d.Sound) : (Dev.mirrorSplit d m).2.Sound := by
  unfold Dev.mirrorSplit
  (try lift_lets -underBinder)
  with_reducible repeat' (first
    | assumption | (intro x; clear_value x) | lift_lets -underBinder | apply sound_ite | apply sound_ite2
    | apply Dev.setFenced_sound | apply Dev.raise_sound | (simp only [sound_mk]; apply sound_of))
theorem Dev.mirrorSplit_at {d : Dev} {m : Msg} {r0 : List Msg} {d1 : Dev} (hEq : Dev.mirrorSplit d m = (r0, d1)) (h_d : d.Sound) : d1.Sound := by
  have h := Dev.mirrorSplit_sound (d := d) (m := m) h_d 
  rw [hEq] at h
  exact h

theorem Dev.endAccess_sound {d : Dev} {m : Msg} (h_d : d.Sound) : (Dev.endAccess d m).Sound := by
  unfold Dev.endAccess
  with_reducible repeat' (first
    | assumption | lift_lets -underBinder | apply sound_ite | apply Dev.endFlight_sound)

theorem Dev.direct_sound {d : Dev} {m : Msg} {u : Nat} {x : Dec} (h_d : d.Sound) : (Dev.direct d m u x).2.Sound := by
  unfold Dev.direct
  (try lift_lets -underBinder)
  with_reducible repeat' (first
    | assumption | (intro x; have hx : Dev.Sound x; unfold x; rotate_left; clear_value x)
    | (intro x; have hx : Dev.Sound (Prod.snd x); unfold x; rotate_left; clear_value x) | (intro x; clear_value x)
    | lift_lets -underBinder | apply sound_ite | apply sound_ite2 | apply Dev.hit_sound | apply Dev.replyFail_sound
    | apply Dev.endAccess_sound | apply Dev.mirrorSplit_sound | apply Dev.decodeMiss_sound | apply Dev.answerMiss_sound)
theorem Dev.passUp_sound {d : Dev} {m : Msg} {p : Nat} (h_d : d.Sound) : (Dev.passUp d m p).2.Sound := by
  unfold Dev.passUp
  (try lift_lets -underBinder)
  with_reducible repeat' (first
    | assumption | (intro x; clear_value x) | lift_lets -underBinder | apply sound_ite2 | apply Dev.answerMiss_sound
    | apply Dev.endAccess_sound | split)
theorem Dev.ldCfg_sound {d : Dev} {j off : Nat} {write : Bool} {val : Nat} (h_d : d.Sound) : (Dev.ldCfg d j off write val).2.Sound := by
  unfold Dev.ldCfg
  (try lift_lets -underBinder)
  with_reducible repeat' (first
    | assumption | (intro x; have hx : Larder := x; clear hx; unfold x; clear x) | (intro x; clear_value x)
    | lift_lets -underBinder | apply sound_ite2 | (simp only [sound_mk]; apply sound_of))
theorem Dev.directOther_sound {d : Dev} {m : Msg} {p : Nat} (h_d : d.Sound) : (Dev.directOther d m p).2.Sound := by
  unfold Dev.directOther
  (try lift_lets -underBinder)
  with_reducible repeat' (first
    | assumption | (intro x; clear_value x) | (intro _) | lift_lets -underBinder | apply sound_ite2 | apply Dev.ldCfg_sound
    | apply Dev.replyTo_sound | apply Dev.passUp_sound | split)
theorem Dev.stampMsg_sound {d : Dev} {m : Msg} {p : Nat} (h_d : d.Sound) : (Dev.stampMsg d m p).2.Sound := by
  unfold Dev.stampMsg
  (try lift_lets -underBinder)
  with_reducible repeat' (first
    | assumption | (intro x; have hx : Dev.Sound (Prod.snd x); unfold x; rotate_left; clear_value x)
    | (intro x; clear_value x) | lift_lets -underBinder | apply sound_ite2 | apply Dev.beginFlight_sound)
theorem Dev.missAdd_sound {d : Dev} {s w : Nat} (h_d : d.Sound) : (Dev.missAdd d s w).Sound := by
  unfold Dev.missAdd
  (try lift_lets -underBinder)
  with_reducible repeat' (first
    | assumption | (intro x; clear_value x) | lift_lets -underBinder | apply sound_ite
    | (simp only [sound_mk]; apply sound_of))

theorem Dev.onward_sound {d : Dev} {m : Msg} {p : Nat} (h_d : d.Sound) : (Dev.onward d m p).2.Sound := by
  unfold Dev.onward
  (try lift_lets -underBinder)
  with_reducible repeat' (first
    | assumption | (intro x; clear_value x) | lift_lets -underBinder | apply sound_ite2 | apply Dev.directOther_sound
    | apply Dev.passUp_sound | apply Dev.direct_sound | apply Dev.decodeMiss_sound | apply Dev.answerMiss_sound
    | apply Dev.endAccess_sound | split)
theorem Dev.policedOff_sound {d : Dev} {s : Nat} {m : Msg} (h_d : d.Sound) : (Dev.policedOff d s m).Sound := by
  unfold Dev.policedOff
  with_reducible repeat' (first
    | assumption | lift_lets -underBinder | apply sound_ite | apply Dev.replyFail_sound)

theorem Dev.accept_sound {d : Dev} {pol : Bool} {m : Msg} {p : Nat} {r : Region} {w : Option Nat} (h_d : d.Sound) : (Dev.accept d pol m p r w).2.Sound := by
  unfold Dev.accept
  (try lift_lets -underBinder)
  with_reducible repeat' (first
    | assumption | (intro x; have hx : Dev.Sound x; unfold x; rotate_left; clear_value x) | (intro x; clear_value x)
    | lift_lets -underBinder | apply sound_ite | apply sound_ite2 | apply Dev.refuseAnswer_sound
    | apply Dev.policedOff_sound | apply Dev.endAccess_sound | apply Dev.tagTouch_sound | apply Dev.missAdd_sound
    | apply Dev.onward_sound | split)
theorem Dev.tabsRead_sound {d : Dev} {m : Msg} {p : Nat} (h_d : d.Sound) : (Dev.tabsRead d m p).Sound := by
  unfold Dev.tabsRead
  (try lift_lets -underBinder)
  with_reducible repeat' (first
    | assumption | (intro x; have hx : Dev.Sound x; unfold x; rotate_left; clear_value x) | lift_lets -underBinder
    | apply sound_ite | apply Dev.tabRead_sound | split)

theorem Dev.prepare_sound {d : Dev} {m : Msg} {p : Nat} (h_d : d.Sound) : (Dev.prepare d m p).2.Sound := by
  unfold Dev.prepare
  (try lift_lets -underBinder)
  with_reducible repeat' (first
    | assumption | (intro x; have hx : Dev.Sound x; unfold x; rotate_left; clear_value x)
    | (intro x; have hx : Dev.Sound (Prod.snd x); unfold x; rotate_left; clear_value x)
    | (intro x; have hx : Dev.Sound (Prod.snd (Prod.snd x)); unfold x; rotate_left; clear_value x)
    | (intro x; clear_value x) | lift_lets -underBinder | apply Dev.stampMsg_sound | apply Dev.tabsRead_sound
    | apply Dev.police_sound | apply Dev.refuse_sound | apply Dev.accept_sound | split)
theorem Dev.prepare_at {d : Dev} {m : Msg} {p : Nat} {r0 : List Msg} {d1 : Dev} (hEq : Dev.prepare d m p = (r0, d1)) (h_d : d.Sound) : d1.Sound := by
  have h := Dev.prepare_sound (d := d) (m := m) (p := p) h_d 
  rw [hEq] at h
  exact h

theorem Dev.trayNew_sound {d : Dev} {p : Nat} {m : Msg} {cmb : Bool} (h_d : d.Sound) : (Dev.trayNew d p m cmb).2.Sound := by
  unfold Dev.trayNew
  (try lift_lets -underBinder)
  with_reducible repeat' (first
    | assumption | (intro x; clear_value x) | lift_lets -underBinder | apply sound_ite | apply Dev.injectAt_sound
    | apply Dev.raise_sound | (simp only [sound_mk]; apply sound_of))
theorem Dev.flushCmb_sound {d : Dev} {c : CmbEnt} (h_d : d.Sound) : (Dev.flushCmb d c).Sound := by
  unfold Dev.flushCmb
  (try lift_lets -underBinder)
  with_reducible repeat' (first
    | assumption | (intro x; have hx : Dev.Sound x; unfold x; rotate_left; clear_value x)
    | (intro x; have hx : Dev.Sound (Prod.snd x); unfold x; rotate_left; clear_value x) | (intro x; clear_value x)
    | (intro _) | lift_lets -underBinder | apply sound_ite2 | apply sound_foldl | apply Dev.mirrorSplit_sound
    | apply Dev.noteFailed_sound | apply Dev.endAccess_sound | apply Dev.trayNew_sound | apply Dev.pushRel_sound
    | (simp only [sound_mk]; apply sound_of) | split)

theorem Dev.flushAgent_sound {d : Dev} {a : Req} (h_d : d.Sound) : (Dev.flushAgent d a).Sound := by
  unfold Dev.flushAgent
  with_reducible repeat' (first
    | assumption | (intro _) | lift_lets -underBinder | apply sound_foldl | apply Dev.inc_sound | apply Dev.flushCmb_sound)

theorem Dev.drainJoin_sound {d : Dev} {p : Nat} {m : Msg} {c : CmbEnt} (h_d : d.Sound) : (Dev.drainJoin d p m c).Sound := by
  unfold Dev.drainJoin
  (try lift_lets -underBinder)
  with_reducible repeat' (first
    | assumption | (intro x; have hx : Dev.Sound x; unfold x; rotate_left; clear_value x) | (intro x; clear_value x)
    | lift_lets -underBinder | apply sound_ite | apply Dev.flushCmb_sound | apply Dev.inc_sound
    | (simp only [sound_mk]; apply sound_of))

theorem Dev.enterCmb_sound {d : Dev} {p : Nat} {m : Msg} {waited : Bool} (h_d : d.Sound) : (Dev.enterCmb d p m waited).2.Sound := by
  unfold Dev.enterCmb
  (try lift_lets -underBinder)
  with_reducible repeat' (first
    | assumption | (intro x; have hx : Dev.Sound x; unfold x; rotate_left; clear_value x)
    | (intro x; have hx : ∀ e : Dev, Dev.Sound e → Dev.Sound (x e); unfold x; rotate_left; clear_value x)
    | (intro x; clear_value x) | (intro _) | lift_lets -underBinder | apply sound_ite | apply sound_ite2
    | apply Dev.inc_sound | apply Dev.flushCmb_sound | apply Dev.replyTo_sound | apply Dev.endAccess_sound
    | apply Dev.drainJoin_sound | (simp only [sound_mk]; apply sound_of) | split | apply_assumption)
theorem Dev.ldReset_sound {d : Dev} {j : Nat} (h_d : d.Sound) : (Dev.ldReset d j).Sound := by
  unfold Dev.ldReset
  (try lift_lets -underBinder)
  with_reducible repeat' (first
    | assumption | (intro x; have hx : Larder := x; clear hx; unfold x; clear x) | (simp only [sound_mk]; apply sound_of))

theorem Dev.cfgServe_sound {d : Dev} {h : Nat} {m : Msg} (h_d : d.Sound) : (Dev.cfgServe d h m).Sound := by
  unfold Dev.cfgServe
  (try lift_lets -underBinder)
  with_reducible repeat' (first
    | assumption | (intro _) | lift_lets -underBinder | apply Dev.ldCfg_sound | apply Dev.replyTo_sound)

theorem Dev.takeDirect_sound {d : Dev} {dest : Nat} (h_d : d.Sound) : (Dev.takeDirect d dest).Sound := by
  unfold Dev.takeDirect
  (try lift_lets -underBinder)
  with_reducible repeat' (first
    | assumption | (intro x; have hx : Dev.Sound x; unfold x; rotate_left; clear_value x) | (intro x; clear_value x)
    | (intro _) | lift_lets -underBinder | apply sound_ite | apply sound_foldl | apply Dev.setArrived_sound
    | apply Dev.ldReset_sound | apply Dev.cfgServe_sound | apply Dev.tgtReach_sound)

theorem Dev.noRoute_sound {d : Dev} {m : Msg} (h_d : d.Sound) : (Dev.noRoute d m).Sound := by
  unfold Dev.noRoute
  (try lift_lets -underBinder)
  with_reducible repeat' (first
    | assumption | (intro x; clear_value x) | lift_lets -underBinder | apply Dev.consumeCredit_sound | apply Dev.inc_sound
    | apply Dev.raise_sound)

theorem Dev.admitTo_sound {d : Dev} {m : Msg} {dest : Nat} (h_d : d.Sound) : (Dev.admitTo d m dest).Sound := by
  unfold Dev.admitTo
  (try lift_lets -underBinder)
  with_reducible repeat' (first
    | assumption | (intro x; clear_value x) | lift_lets -underBinder | apply sound_ite | apply Dev.store_sound
    | apply Dev.modStored_sound | apply Dev.inc_sound | apply Dev.linkStored_sound | (simp only [sound_mk]; apply sound_of))

theorem Dev.crossErr_sound {d : Dev} {e : CrossErr} {s id : Nat} (h_d : d.Sound) : (Dev.crossErr d e s id).Sound := by
  unfold Dev.crossErr
  with_reducible repeat' (first
    | assumption | (intro x; have hx : Dev.Sound x; unfold x; rotate_left; clear_value x) | (intro _)
    | lift_lets -underBinder | apply sound_foldl | apply Dev.modStored_sound | apply Dev.inc_sound | apply Dev.raise_sound
    | split)

theorem Dev.expressTake_sound {d : Dev} {x : Stored} {e : CrossErr} (h_d : d.Sound) : (Dev.expressTake d x e).Sound := by
  unfold Dev.expressTake
  with_reducible repeat' (first
    | assumption | (intro x; have hx : Dev.Sound x; unfold x; rotate_left; clear_value x) | (intro x; clear_value x)
    | lift_lets -underBinder | apply sound_ite | apply Dev.modStored_sound | apply Dev.charge_sound
    | apply Dev.settleDef_sound | apply Dev.linkStored_sound | apply Dev.count_sound | apply Dev.crossErr_sound
    | apply Dev.deliver_sound | apply Dev.takeDirect_sound | apply Dev.leaveList_sound | apply Dev.defLeft_sound
    | (refine Dev.injectAt_at ‹_ = _› ?_) | (simp only [sound_mk]; apply sound_of) | split)

theorem Dev.settleClaims_sound {d : Dev} {e : CrossErr} (h_d : d.Sound) : (Dev.settleClaims d e).Sound := by
  unfold Dev.settleClaims
  (try lift_lets -underBinder)
  with_reducible repeat' (first
    | assumption | (intro x; have hx : Dev.Sound x; unfold x; rotate_left; clear_value x) | (intro x; clear_value x)
    | (intro _) | lift_lets -underBinder | apply sound_ite | apply sound_ite2 | apply sound_foldlp
    | apply Dev.modStored_sound | apply Dev.expressTake_sound | apply Dev.linkStored_sound)

theorem Dev.noteFull_sound {d : Dev} {src k : Nat} (h_d : d.Sound) : (Dev.noteFull d src k).Sound := by
  unfold Dev.noteFull
  (try lift_lets -underBinder)
  with_reducible repeat' (first
    | assumption | (intro x; have hx : Dev.Sound x; unfold x; rotate_left; clear_value x) | (intro x; clear_value x)
    | apply Dev.setHeld_sound | (simp only [sound_mk]; apply sound_of))

theorem Dev.admitHead_sound {d : Dev} {src : Nat} {m : Msg} {rest : List Msg} (h_d : d.Sound) : (Dev.admitHead d src m rest).Sound := by
  unfold Dev.admitHead
  with_reducible repeat' (first
    | assumption | (intro x; have hx : Dev.Sound x; unfold x; rotate_left; clear_value x) | (intro x; clear_value x)
    | lift_lets -underBinder | apply sound_ite | apply Dev.setRel_sound | apply Dev.setHeld_sound | apply Dev.noRoute_sound
    | apply Dev.endAccess_sound | apply Dev.consumeCredit_sound | apply Dev.inc_sound | apply Dev.answerMiss_sound
    | apply Dev.flushCmb_sound | apply Dev.enterCmb_sound | apply Dev.noteFull_sound | apply Dev.admitTo_sound
    | apply Dev.trayNew_sound | apply Dev.modTray_sound | apply Dev.raise_sound | split)

theorem Dev.admitOpen_sound {d : Dev} {src : Nat} {m : Msg} {rest : List Msg} (h_d : d.Sound) : (Dev.admitOpen d src m rest).Sound := by
  unfold Dev.admitOpen
  with_reducible repeat' (first
    | assumption | lift_lets -underBinder | apply sound_ite | apply Dev.setRel_sound | apply Dev.admitHead_sound
    | apply Dev.setHeld_sound | apply Dev.replyFail_sound | apply Dev.endAccess_sound
    | (refine Dev.mirrorSplit_at ‹_ = _› ?_) | split)

theorem Dev.tryHead_sound {d : Dev} {src : Nat} {m : Msg} {rest : List Msg} (h_d : d.Sound) : (Dev.tryHead d src m rest).Sound := by
  unfold Dev.tryHead
  (try lift_lets -underBinder)
  with_reducible repeat' (first
    | assumption | (intro x; have hx : Dev.Sound x; unfold x; rotate_left; clear_value x) | lift_lets -underBinder
    | apply sound_ite | apply Dev.setHeld_sound | apply Dev.admitOpen_sound | apply Dev.police_sound
    | apply Dev.setRel_sound | apply Dev.admitHead_sound | apply Dev.consumeCredit_sound | apply Dev.policedOff_sound
    | apply Dev.drainSettle_sound | (refine Dev.prepare_at ‹_ = _› ?_) | split)

theorem Dev.present_sound {d : Dev} {src : Nat} (h_d : d.Sound) : (Dev.present d src).Sound := by
  unfold Dev.present
  with_reducible repeat' (first
    | assumption | lift_lets -underBinder | apply sound_ite | apply Dev.tryHead_sound | split)

theorem Dev.retryHeld_sound {d : Dev} {src : Nat} (h_d : d.Sound) : (Dev.retryHeld d src).Sound := by
  unfold Dev.retryHeld
  with_reducible repeat' (first
    | assumption | lift_lets -underBinder | apply sound_ite | apply Dev.setHeld_sound | apply Dev.tryHead_sound | split)

theorem Dev.dropMirror_sound {d : Dev} {id : Nat} (h_d : d.Sound) : (Dev.dropMirror d id).Sound := by
  unfold Dev.dropMirror
  (try lift_lets -underBinder)
  with_reducible repeat' (first
    | assumption | (intro x; clear_value x) | (simp only [sound_mk]; apply sound_of))

theorem Dev.modMirror_sound {d : Dev} {id : Nat} {f : Mirror → Mirror} (h_d : d.Sound) : (Dev.modMirror d id f).Sound := by
  unfold Dev.modMirror
  (try lift_lets -underBinder)
  with_reducible repeat' (first
    | assumption | (intro x; clear_value x) | (simp only [sound_mk]; apply sound_of))

theorem Dev.mirrorComplete_sound {d : Dev} {s : Nat} {r : Mirror} {ok : Bool} (h_d : d.Sound) : (Dev.mirrorComplete d s r ok).Sound := by
  unfold Dev.mirrorComplete
  with_reducible repeat' (first
    | assumption | (intro x; have hx : Dev.Sound x; unfold x; rotate_left; clear_value x) | (intro x; clear_value x)
    | lift_lets -underBinder | apply sound_ite | apply Dev.replyTo_sound | apply Dev.modTray_sound
    | apply Dev.traySettle_sound | apply Dev.endAccess_sound | split)

theorem Dev.staleRaise_sound {d : Dev} {u n : Nat} (h_d : d.Sound) : (Dev.staleRaise d u n).Sound := by
  unfold Dev.staleRaise
  with_reducible repeat' (first
    | assumption | (intro _) | lift_lets -underBinder | apply sound_foldl | apply Dev.raise_sound)

theorem Dev.mirrorClose_sound {d : Dev} {s : Nat} {r : Mirror} (h_d : d.Sound) : (Dev.mirrorClose d s r).Sound := by
  unfold Dev.mirrorClose
  (try lift_lets -underBinder)
  with_reducible repeat' (first
    | assumption | (intro x; have hx : Dev.Sound x; unfold x; rotate_left; clear_value x) | lift_lets -underBinder
    | apply sound_ite | apply Dev.dropMirror_sound | apply Dev.setFenced_sound | apply Dev.raise_sound
    | apply Dev.mirrorComplete_sound | apply Dev.trayCommit_sound)

theorem Dev.mirrorWrite_sound {d : Dev} {s : Nat} {r : Mirror} {k : Nat} {ok : Bool} {cause : Nat} (h_d : d.Sound) : (Dev.mirrorWrite d s r k ok cause).Sound := by
  unfold Dev.mirrorWrite
  (try lift_lets -underBinder)
  with_reducible repeat' (first
    | assumption | (intro x; have hx : Dev.Sound x; unfold x; rotate_left; clear_value x)
    | (intro x; have hx : ∀ (e : Dev) y, Dev.Sound e → Dev.Sound (x e y); unfold x; rotate_left; clear_value x)
    | (intro x; clear_value x) | (intro _) | lift_lets -underBinder | apply sound_ite | apply Dev.mirrorClose_sound
    | apply Dev.modMirror_sound | apply Dev.staleRaise_sound | apply Dev.mirrorComplete_sound | apply Dev.mirrorStale_sound
    | apply_assumption)

theorem Dev.mirrorRetry_sound {d : Dev} {s : Nat} {r : Mirror} {k : Nat} {poison : Bool} (h_d : d.Sound) : (Dev.mirrorRetry d s r k poison).Sound := by
  unfold Dev.mirrorRetry
  (try lift_lets -underBinder)
  with_reducible repeat' (first
    | assumption | (intro x; have hx : Dev.Sound x; unfold x; rotate_left; clear_value x) | (intro x; clear_value x)
    | lift_lets -underBinder | apply sound_ite | apply Dev.raise_sound | apply Dev.modMirror_sound | apply Dev.pushRel_sound
    | apply Dev.dropMirror_sound | apply Dev.replyFail_sound | apply Dev.endAccess_sound | split)

theorem Dev.mirrorAnswer_sound {d : Dev} {s : Nat} {m : Msg} {op : MOp} {data : Bytes} {poison : Bool} {cause : Nat} (h_d : d.Sound) : (Dev.mirrorAnswer d s m op data poison cause).Sound := by
  unfold Dev.mirrorAnswer
  with_reducible repeat' (first
    | assumption | (intro x; clear_value x) | lift_lets -underBinder | apply sound_ite | apply Dev.mirrorWrite_sound
    | apply Dev.mirrorStale_sound | apply Dev.raise_sound | apply Dev.mirrorRetry_sound | apply Dev.dropMirror_sound
    | apply Dev.replyTo_sound | apply Dev.endAccess_sound | split)

theorem Dev.lostWrite_sound {d : Dev} {s tk line : Nat} (h_d : d.Sound) : (Dev.lostWrite d s tk line).Sound := by
  unfold Dev.lostWrite
  (try lift_lets -underBinder)
  with_reducible repeat' (first
    | assumption | (intro x; have hx : Dev.Sound x; unfold x; rotate_left; clear_value x) | lift_lets -underBinder
    | apply sound_ite | apply Dev.put_sound | apply Dev.raise_sound)

theorem Dev.accessAnswer_sound {d : Dev} {via : Nat} {m : Msg} {op : MOp} {data : Bytes} {poison : Bool} {cause : Nat} (h_d : d.Sound) : (Dev.accessAnswer d via m op data poison cause).Sound := by
  unfold Dev.accessAnswer
  (try lift_lets -underBinder)
  with_reducible repeat' (first
    | assumption | (intro x; have hx : Dev.Sound x; unfold x; rotate_left; clear_value x) | (intro x; clear_value x)
    | (intro _) | lift_lets -underBinder | apply sound_ite | apply Dev.mirrorAnswer_sound | apply Dev.lostWrite_sound
    | apply Dev.replyFrom_sound | apply Dev.replyFailFrom_sound | apply Dev.trayCommit_sound | apply Dev.markDirty_sound
    | split)

end Sys2Proof.Machine
end

