-- ==== Sys2Proof/Laws/SoundFlow.lean ====
section
/-! SUPPORT. One lemma per operation: it keeps `Dev.Sound`. Here: the home, Data Mover, port, slot and link operations. -/

namespace Sys2Proof.Machine

theorem Dev.declareDead_sound {d : Dev} {a cause from_ dom : Nat} (h_d : d.Sound) : (Dev.declareDead d a cause from_ dom).Sound := by
  unfold Dev.declareDead
  (try lift_lets -underBinder)
  with_reducible repeat' (first
    | assumption | (intro x; have hx : Dev.Sound x; unfold x; rotate_left; clear_value x) | (intro x; clear_value x)
    | lift_lets -underBinder | apply sound_ite | apply Dev.put_sound | apply Dev.quench_sound | apply Dev.raise_sound
    | (simp only [sound_mk]; apply sound_of))

theorem Dev.deathsGo_sound {d : Dev} {n : Nat} (h_d : d.Sound) : (Dev.deathsGo d n).Sound := by
  induction n generalizing d with
  | zero => exact h_d
  | succ n ih =>
    unfold Dev.deathsGo
    dsimp only
    split
    · exact h_d
    · exact ih (sound_foldl (sound_of h_d) fun _ _ h => Dev.declareDead_sound h)


theorem Dev.copiesEnd_sound {d : Dev} (h_d : d.Sound) : (Dev.copiesEnd d).Sound := by
  unfold Dev.copiesEnd
  with_reducible repeat' (first
    | assumption | lift_lets -underBinder | apply Dev.raiseDue_sound | apply Dev.deathsGo_sound)

theorem Dev.snoopTimedOut_sound {d : Dev} {s a dom : Nat} (h_d : d.Sound) : (Dev.snoopTimedOut d s a dom).Sound := by
  unfold Dev.snoopTimedOut
  with_reducible repeat' (first
    | assumption | lift_lets -underBinder | apply Dev.copyLost_sound | apply Dev.copiesEnd_sound)

theorem Dev.sccCheck_sound {d : Dev} {e : DirEnt} (h_d : d.Sound) : (Dev.sccCheck d e).2.2.Sound := by
  unfold Dev.sccCheck
  with_reducible repeat' (first
    | assumption | (intro x; have hx : Dev.Sound x; unfold x; rotate_left; clear_value x) | (intro x; clear_value x)
    | lift_lets -underBinder | apply sound_ite | apply Dev.putScc_sound | apply Dev.raise_sound | apply Dev.modHome_sound
    | apply Dev.dropScc_sound | apply Dev.freshBytes_sound | apply Dev.tgtWriteAcc_sound | split)
theorem Dev.sccVictim_sound {d : Dev} {l : SccLine} {keep : Bool} {dom : Nat} (h_d : d.Sound) : (Dev.sccVictim d l keep dom).Sound := by
  unfold Dev.sccVictim
  (try lift_lets -underBinder)
  with_reducible repeat' (first
    | assumption | (intro x; have hx : Dev.Sound x; unfold x; rotate_left; clear_value x)
    | (intro x; have hx : Dev.Sound (Prod.snd (Prod.snd x)); unfold x; rotate_left; clear_value x)
    | (intro x; clear_value x) | lift_lets -underBinder | apply sound_ite | apply Dev.dropScc_sound
    | apply Dev.sccCheck_sound | apply Dev.openInval_sound | apply Dev.putEnt_sound | apply Dev.copiesEnd_sound
    | apply Dev.tgtWriteAcc_sound | apply Dev.count_sound | apply Dev.putScc_sound | apply Dev.returnBlocks_sound | split)

theorem Dev.writeBack_sound {d : Dev} {ls : List SccLine} {keep : Bool} (h_d : d.Sound) : (Dev.writeBack d ls keep).Sound := by
  unfold Dev.writeBack
  with_reducible repeat' (first
    | assumption | (intro _) | lift_lets -underBinder | apply sound_ite | apply sound_foldl | apply Dev.sccVictim_sound
    | split)

theorem Dev.trimSlice_sound {d : Dev} {s : Nat} (h_d : d.Sound) : (Dev.trimSlice d s).Sound := by
  unfold Dev.trimSlice
  (try lift_lets -underBinder)
  with_reducible repeat' (first
    | assumption | (intro x; clear_value x) | lift_lets -underBinder | apply sound_ite | apply Dev.writeBack_sound)

theorem Dev.sccHold_sound {d : Dev} {tk h dom : Nat} {p : Bool} {data : Bytes} {poison dirty acc : Bool} (h_d : d.Sound) : (Dev.sccHold d tk h dom p data poison dirty acc).2.Sound := by
  unfold Dev.sccHold
  (try lift_lets -underBinder)
  with_reducible repeat' (first
    | assumption | (intro x; have hx : ∀ (e : Dev) y, Dev.Sound e → Dev.Sound (x e y); unfold x; rotate_left; clear_value x)
    | (intro x; clear_value x) | (intro _) | lift_lets -underBinder | apply sound_ite2 | apply Dev.injectAt_sound
    | apply Dev.useScc_sound | apply Dev.sccVictim_sound | split | apply_assumption)
theorem Dev.keepClean_sound {d : Dev} {e : DirEnt} {data : Bytes} {poison : Bool} (h_d : d.Sound) : (Dev.keepClean d e data poison).2.Sound := by
  unfold Dev.keepClean
  with_reducible repeat' (first
    | assumption | lift_lets -underBinder | apply sound_ite2 | apply Dev.sccHold_sound | apply Dev.dropScc_sound)
theorem Dev.holdDirty_sound {d : Dev} {e : DirEnt} {policy : Bool} {st tc : Nat} {data : Bytes} {poison acc : Bool} (h_d : d.Sound) : (Dev.holdDirty d e policy st tc data poison acc).2.Sound := by
  unfold Dev.holdDirty
  (try lift_lets -underBinder)
  with_reducible repeat' (first
    | assumption | (intro x; have hx : Dev.Sound x; unfold x; rotate_left; clear_value x) | (intro x; clear_value x)
    | lift_lets -underBinder | apply sound_ite2 | apply Dev.sccHold_sound | apply Dev.tgtWriteAcc_sound
    | apply Dev.keepClean_sound)
theorem Dev.share_sound {d : Dev} {e : DirEnt} {a : Nat} (h_d : d.Sound) : (Dev.share d e a).2.Sound := by
  unfold Dev.share
  with_reducible repeat' (first
    | assumption | lift_lets -underBinder | apply sound_ite | apply Dev.raise_sound)
theorem Dev.shareOpt_sound {d : Dev} {e : DirEnt} {a : Option Nat} (h_d : d.Sound) : (Dev.shareOpt d e a).2.Sound := by
  unfold Dev.shareOpt
  with_reducible repeat' (first
    | assumption | apply Dev.share_sound | split)
theorem Dev.dropCopy_sound {d : Dev} {e : DirEnt} (h_d : d.Sound) : (Dev.dropCopy d e).2.Sound := by
  unfold Dev.dropCopy
  with_reducible repeat' (first
    | assumption | apply Dev.dropScc_sound)
theorem Dev.grantOwn_sound {d : Dev} {e : DirEnt} {m : Msg} {dirty : Bool} {data : Bytes} {poison : Bool} (h_d : d.Sound) : (Dev.grantOwn d e m dirty data poison).2.2.Sound := by
  unfold Dev.grantOwn
  (try lift_lets -underBinder)
  with_reducible repeat' (first
    | assumption | (intro x; have hx : Dev.Sound x; unfold x; rotate_left; clear_value x) | (intro x; clear_value x)
    | lift_lets -underBinder | apply sound_ite | apply Dev.tgtWriteAcc_sound | apply Dev.dropCopy_sound)
theorem Dev.readReply_sound {d : Dev} {t : Txn} {data : Bytes} {poison : Bool} {st : Nat} (h_d : d.Sound) : (Dev.readReply d t data poison st).Sound := by
  unfold Dev.readReply
  with_reducible repeat' (first
    | assumption | apply Dev.replyTo_sound)

theorem Dev.cleanAfter_sound {d : Dev} {t : Txn} {e : DirEnt} {data : Bytes} {poison : Bool} (h_d : d.Sound) : (Dev.cleanAfter d t e data poison).2.Sound := by
  unfold Dev.cleanAfter
  (try lift_lets -underBinder)
  with_reducible repeat' (first
    | assumption | (intro x; have hx : Dev.Sound (Prod.snd x); unfold x; rotate_left; clear_value x)
    | lift_lets -underBinder | apply sound_ite2 | apply Dev.keepClean_sound)
theorem Dev.giveBack_sound {d : Dev} {t : Txn} {e : DirEnt} {sccOwn : Bool} {data : Bytes} {poison : Bool} (h_d : d.Sound) : (Dev.giveBack d t e sccOwn data poison).Sound := by
  unfold Dev.giveBack
  with_reducible repeat' (first
    | assumption | lift_lets -underBinder | apply sound_ite | apply Dev.tgtWriteAcc_sound)

theorem Dev.sccClear_sound {d : Dev} {e : DirEnt} (h_d : d.Sound) : (Dev.sccClear d e).Sound := by
  unfold Dev.sccClear
  with_reducible repeat' (first
    | assumption | apply Dev.putScc_sound | split)

theorem Dev.resRdSOwned_sound {d : Dev} {t : Txn} {e : DirEnt} {was : Option Nat} {data : Bytes} {poison : Bool} (h_d : d.Sound) : (Dev.resRdSOwned d t e was data poison).2.Sound := by
  unfold Dev.resRdSOwned
  (try lift_lets -underBinder)
  with_reducible repeat' (first
    | assumption | (intro x; have hx : Dev.Sound (Prod.snd x); unfold x; rotate_left; clear_value x)
    | (intro x; clear_value x) | lift_lets -underBinder | apply sound_ite2 | apply Dev.shareOpt_sound
    | apply Dev.readReply_sound | apply Dev.holdDirty_sound)
theorem Dev.resRdS_sound {d : Dev} {t : Txn} {e : DirEnt} {sccOwn : Bool} {was : Option Nat} {data : Bytes} {poison : Bool} (h_d : d.Sound) : (Dev.resRdS d t e sccOwn was data poison).2.Sound := by
  unfold Dev.resRdS
  (try lift_lets -underBinder)
  with_reducible repeat' (first
    | assumption | (intro x; have hx : Dev.Sound (Prod.snd x); unfold x; rotate_left; clear_value x)
    | (intro x; clear_value x) | lift_lets -underBinder | apply sound_ite2 | apply Dev.readReply_sound
    | apply Dev.shareOpt_sound | apply Dev.cleanAfter_sound | apply Dev.resRdSOwned_sound)
theorem Dev.resRdO_sound {d : Dev} {t : Txn} {e : DirEnt} {sccOwn : Bool} {data : Bytes} {poison : Bool} (h_d : d.Sound) : (Dev.resRdO d t e sccOwn data poison).2.Sound := by
  unfold Dev.resRdO
  (try lift_lets -underBinder)
  with_reducible repeat' (first
    | assumption | (intro x; have hx : Dev.Sound (Prod.snd (Prod.snd x)); unfold x; rotate_left; clear_value x)
    | apply Dev.grantOwn_sound | apply Dev.readReply_sound)
theorem Dev.resOwnNd_sound {d : Dev} {t : Txn} {e : DirEnt} (h_d : d.Sound) : (Dev.resOwnNd d t e).2.Sound := by
  unfold Dev.resOwnNd
  (try lift_lets -underBinder)
  with_reducible repeat' (first
    | assumption | (intro x; have hx : Dev.Sound (Prod.snd x); unfold x; rotate_left; clear_value x)
    | (intro x; clear_value x) | apply Dev.dropCopy_sound | apply Dev.replyTo_sound)
theorem Dev.resRdC_sound {d : Dev} {t : Txn} {e : DirEnt} {data : Bytes} {poison : Bool} (h_d : d.Sound) : (Dev.resRdC d t e data poison).2.Sound := by
  unfold Dev.resRdC
  (try lift_lets -underBinder)
  with_reducible repeat' (first
    | assumption | (intro x; have hx : Dev.Sound (Prod.snd x); unfold x; rotate_left; clear_value x)
    | lift_lets -underBinder | apply sound_ite2 | apply Dev.readReply_sound | apply Dev.cleanAfter_sound)
theorem Dev.placeWrite_sound {d : Dev} {t : Txn} {e : DirEnt} {sccOwn : Bool} {line : Bytes} {pois : Bool} (h_d : d.Sound) : (Dev.placeWrite d t e sccOwn line pois).2.Sound := by
  unfold Dev.placeWrite
  (try lift_lets -underBinder)
  with_reducible repeat' (first
    | assumption | (intro x; clear_value x) | lift_lets -underBinder | apply sound_ite2 | apply Dev.tgtWriteAcc_sound
    | apply Dev.dropScc_sound | apply Dev.holdDirty_sound)
theorem Dev.mergeTray_sound {d : Dev} {m : Msg} (h_d : d.Sound) : (Dev.mergeTray d m).Sound := by
  unfold Dev.mergeTray
  (try lift_lets -underBinder)
  with_reducible repeat' (first
    | assumption | (intro x; clear_value x) | lift_lets -underBinder | apply Dev.modTray_sound
    | (simp only [sound_mk]; apply sound_of))

theorem Dev.endFar_sound {d : Dev} {t : Txn} {e : DirEnt} (h_d : d.Sound) : (Dev.endFar d t e).Sound := by
  unfold Dev.endFar
  (try lift_lets -underBinder)
  with_reducible repeat' (first
    | assumption | (intro x; clear_value x) | lift_lets -underBinder | apply sound_ite | apply Dev.modHome_sound
    | apply Dev.replyTo_sound)

theorem Dev.endWrite_sound {d : Dev} {t : Txn} {e : DirEnt} {data : Bytes} {poison : Bool} (h_d : d.Sound) : (Dev.endWrite d t e data poison).Sound := by
  unfold Dev.endWrite
  (try lift_lets -underBinder)
  with_reducible repeat' (first
    | assumption | (intro x; have hx : Dev.Sound x; unfold x; rotate_left; clear_value x)
    | (intro x; have hx : ∀ (e : Dev) y, Dev.Sound e → Dev.Sound (x e y); unfold x; rotate_left; clear_value x)
    | (intro x; clear_value x) | (intro _) | lift_lets -underBinder | apply sound_ite | apply Dev.replyTo_sound
    | apply Dev.trayCommit_sound | apply Dev.endFar_sound | apply_assumption)

theorem Dev.resWrite_sound {d : Dev} {t : Txn} {e : DirEnt} {sccOwn : Bool} {data : Bytes} {poison : Bool} (h_d : d.Sound) : (Dev.resWrite d t e sccOwn data poison).2.Sound := by
  unfold Dev.resWrite
  (try lift_lets -underBinder)
  with_reducible repeat' (first
    | assumption | (intro x; have hx : Dev.Sound (Prod.snd x); unfold x; rotate_left; clear_value x)
    | lift_lets -underBinder | apply Dev.mergeTray_sound | apply Dev.placeWrite_sound | apply Dev.endWrite_sound)
theorem Dev.resBisI_sound {d : Dev} {t : Txn} {e : DirEnt} {sccOwn : Bool} {data : Bytes} {poison : Bool} (h_d : d.Sound) : (Dev.resBisI d t e sccOwn data poison).2.Sound := by
  unfold Dev.resBisI
  (try lift_lets -underBinder)
  with_reducible repeat' (first
    | assumption | (intro x; have hx : Dev.Sound (Prod.snd x); unfold x; rotate_left; clear_value x)
    | lift_lets -underBinder | apply Dev.giveBack_sound | apply Dev.dropCopy_sound)
theorem Dev.resBisS_sound {d : Dev} {t : Txn} {e : DirEnt} {sccOwn : Bool} {was : Option Nat} {data : Bytes} {poison : Bool} (h_d : d.Sound) : (Dev.resBisS d t e sccOwn was data poison).2.Sound := by
  unfold Dev.resBisS
  (try lift_lets -underBinder)
  with_reducible repeat' (first
    | assumption | (intro x; have hx : Dev.Sound x; unfold x; rotate_left; clear_value x)
    | (intro x; have hx : Dev.Sound (Prod.snd x); unfold x; rotate_left; clear_value x) | lift_lets -underBinder
    | apply sound_ite | apply Dev.giveBack_sound | apply Dev.sccClear_sound | apply Dev.shareOpt_sound)
theorem Dev.resBisC_sound {d : Dev} {t : Txn} {e : DirEnt} {sccOwn : Bool} {data : Bytes} {poison : Bool} (h_d : d.Sound) : (Dev.resBisC d t e sccOwn data poison).2.Sound := by
  unfold Dev.resBisC
  (try lift_lets -underBinder)
  with_reducible repeat' (first
    | assumption | (intro x; have hx : Dev.Sound x; unfold x; rotate_left; clear_value x) | lift_lets -underBinder
    | apply sound_ite2 | apply Dev.giveBack_sound | apply Dev.sccClear_sound)
theorem Dev.resRecall_sound {d : Dev} {t : Txn} {e : DirEnt} (h_d : d.Sound) : (Dev.resRecall d t e).2.Sound := by
  unfold Dev.resRecall
  (try lift_lets -underBinder)
  with_reducible repeat' (first
    | assumption | (intro x; have hx : Dev.Sound x; unfold x; rotate_left; clear_value x) | lift_lets -underBinder
    | apply sound_ite | apply Dev.tgtWrite_sound | split)
theorem Dev.resConserv_sound {d : Dev} {t : Txn} {e : DirEnt} (h_d : d.Sound) : (Dev.resConserv d t e).2.Sound := by
  unfold Dev.resConserv
  (try lift_lets -underBinder)
  with_reducible repeat' (first
    | assumption | (intro x; have hx : Dev.Sound x; unfold x; rotate_left; clear_value x)
    | (intro x; have hx : Dev.Sound (Prod.snd x); unfold x; rotate_left; clear_value x) | (intro x; clear_value x)
    | lift_lets -underBinder | apply sound_ite | apply Dev.tgtWrite_sound | apply Dev.tgtWriteAcc_sound
    | apply Dev.dropCopy_sound | apply Dev.raise_sound | split)
theorem Dev.lateLine_sound {d : Dev} {t : Txn} {e : DirEnt} {data : Bytes} (h_d : d.Sound) : (Dev.lateLine d t e data).Sound := by
  unfold Dev.lateLine
  with_reducible repeat' (first
    | assumption | lift_lets -underBinder | apply sound_ite | apply Dev.tgtWriteAcc_sound | apply Dev.dropScc_sound)

theorem Dev.result_sound {d : Dev} {t : Txn} {e : DirEnt} {data : Bytes} {poison : Bool} (h_d : d.Sound) : (Dev.result d t e data poison).2.Sound := by
  unfold Dev.result
  (try lift_lets -underBinder)
  with_reducible repeat' (first
    | assumption | (intro x; have hx : Dev.Sound x; unfold x; rotate_left; clear_value x) | (intro x; clear_value x)
    | apply Dev.lateLine_sound | apply Dev.resRdS_sound | apply Dev.resRdO_sound | apply Dev.resOwnNd_sound
    | apply Dev.resRdC_sound | apply Dev.resWrite_sound | apply Dev.resBisI_sound | apply Dev.resBisS_sound
    | apply Dev.resBisC_sound | apply Dev.resRecall_sound | apply Dev.resConserv_sound | split)
theorem Dev.staleWb_sound {d : Dev} {s : Nat} {m : Msg} (h_d : d.Sound) : (Dev.staleWb d s m).Sound := by
  unfold Dev.staleWb
  with_reducible repeat' (first
    | assumption | lift_lets -underBinder | apply Dev.inc_sound | apply Dev.raise_sound | apply Dev.replyTo_sound)

theorem Dev.lostDirty_sound {d : Dev} {e : DirEnt} {a tc : Nat} (h_d : d.Sound) : (Dev.lostDirty d e a tc).Sound := by
  unfold Dev.lostDirty
  (try lift_lets -underBinder)
  with_reducible repeat' (first
    | assumption | (intro x; clear_value x) | lift_lets -underBinder | apply Dev.freshBytes_sound | apply Dev.tgtWrite_sound
    | apply Dev.dropScc_sound | apply Dev.freeEnt_sound | apply Dev.raise_sound)

theorem Dev.writeEnt_sound {d : Dev} {e : DirEnt} (h_d : d.Sound) : (Dev.writeEnt d e).Sound := by
  unfold Dev.writeEnt
  (try lift_lets -underBinder)
  with_reducible repeat' (first
    | assumption | (intro x; have hx : Dev.Sound (Prod.snd x); unfold x; rotate_left; clear_value x)
    | (intro x; clear_value x) | lift_lets -underBinder | apply Dev.putEnt_sound | apply Dev.fresh_sound
    | (refine Dev.injectAt_at ‹_ = _› ?_) | split)

theorem Dev.wbDone_sound {d : Dev} {s : Nat} {m : Msg} {e : DirEnt} (h_d : d.Sound) : (Dev.wbDone d s m e).Sound := by
  unfold Dev.wbDone
  with_reducible repeat' (first
    | assumption | lift_lets -underBinder | apply Dev.writeEnt_sound | apply Dev.replyTo_sound)

theorem Dev.wbClean_sound {d : Dev} {s : Nat} {m : Msg} {e : DirEnt} (h_d : d.Sound) : (Dev.wbClean d s m e).Sound := by
  unfold Dev.wbClean
  (try lift_lets -underBinder)
  with_reducible repeat' (first
    | assumption | (intro x; clear_value x) | (intro _) | lift_lets -underBinder | apply sound_ite
    | apply Dev.lostDirty_sound | apply Dev.staleWb_sound | apply Dev.wbDone_sound)

theorem Dev.wbDirty_sound {d : Dev} {s : Nat} {m : Msg} {e : DirEnt} {keep : Bool} (h_d : d.Sound) : (Dev.wbDirty d s m e keep).Sound := by
  unfold Dev.wbDirty
  (try lift_lets -underBinder)
  with_reducible repeat' (first
    | assumption | (intro x; have hx : Dev.Sound (Prod.snd x); unfold x; rotate_left; clear_value x)
    | (intro x; clear_value x) | lift_lets -underBinder | apply sound_ite | apply sound_ite2 | apply Dev.staleWb_sound
    | apply Dev.shareOpt_sound | apply Dev.holdDirty_sound | apply Dev.wbDone_sound)

theorem Dev.touchDir_sound {d : Dev} {s set_ way : Nat} (h_d : d.Sound) : (Dev.touchDir d s set_ way).Sound := by
  unfold Dev.touchDir
  (try lift_lets -underBinder)
  with_reducible repeat' (first
    | assumption | (intro x; clear_value x) | (simp only [sound_mk]; apply sound_of))

theorem Dev.decideWb_sound {d : Dev} {m : Msg} {k : Kind} (h_d : d.Sound) : (Dev.decideWb d m k).Sound := by
  unfold Dev.decideWb
  (try lift_lets -underBinder)
  with_reducible repeat' (first
    | assumption | (intro x; have hx : Dev.Sound x; unfold x; rotate_left; clear_value x) | (intro x; clear_value x)
    | lift_lets -underBinder | apply sound_ite | apply Dev.tgtWrite_sound | apply Dev.replyTo_sound
    | apply Dev.staleWb_sound | apply Dev.touchDir_sound | apply Dev.wbClean_sound | apply Dev.wbDirty_sound | split)

theorem Dev.takeHeld_sound {d : Dev} {tk h : Nat} (h_d : d.Sound) : (Dev.takeHeld d tk h).2.Sound := by
  unfold Dev.takeHeld
  with_reducible repeat' (first
    | assumption | apply Dev.freeHeld_sound)
theorem Dev.resealLine_sound {d : Dev} {t : Txn} {e : DirEnt} (h_d : d.Sound) : (Dev.resealLine d t e).2.Sound := by
  unfold Dev.resealLine
  (try lift_lets -underBinder)
  with_reducible repeat' (first
    | assumption | (intro x; clear_value x) | lift_lets -underBinder | apply sound_ite | apply sound_ite2
    | apply Dev.sccVictim_sound | split)
theorem Dev.closeTxn_sound {d : Dev} {t : Txn} {e : DirEnt} (h_d : d.Sound) : (Dev.closeTxn d t e).2.Sound := by
  unfold Dev.closeTxn
  (try lift_lets -underBinder)
  with_reducible repeat' (first
    | assumption | (intro x; have hx : Dev.Sound x; unfold x; rotate_left; clear_value x)
    | (intro x; have hx : Dev.Sound (Prod.snd x); unfold x; rotate_left; clear_value x) | (intro x; clear_value x)
    | lift_lets -underBinder | apply sound_ite | apply Dev.endAccess_sound | apply Dev.biEnd_sound
    | apply Dev.writeEnt_sound | apply Dev.trayLeave_sound | apply Dev.trimSlice_sound | apply Dev.takeHeld_sound
    | apply Dev.resealLine_sound)
theorem Dev.finishTxn_sound {d : Dev} {t : Txn} {data : Bytes} {poison : Bool} (h_d : d.Sound) : (Dev.finishTxn d t data poison).2.Sound := by
  unfold Dev.finishTxn
  (try lift_lets -underBinder)
  with_reducible repeat' (first
    | assumption | (intro x; have hx : Dev.Sound x; unfold x; rotate_left; clear_value x)
    | (intro x; have hx : Dev.Sound (Prod.snd x); unfold x; rotate_left; clear_value x) | (intro x; clear_value x)
    | lift_lets -underBinder | apply sound_ite2 | apply Dev.delTxn_sound | apply Dev.replyTo_sound | apply Dev.failReq_sound
    | apply Dev.takeHeld_sound | apply Dev.result_sound | apply Dev.putEnt_sound | apply Dev.addTxn_sound
    | apply Dev.closeTxn_sound | split)
theorem Dev.askMem_sound {d : Dev} {t : Txn} (h_d : d.Sound) : (Dev.askMem d t).Sound := by
  unfold Dev.askMem
  (try lift_lets -underBinder)
  with_reducible repeat' (first
    | assumption | (intro x; have hx : Dev.Sound x; unfold x; rotate_left; clear_value x) | (intro x; clear_value x)
    | apply Dev.setTxn_sound | apply Dev.tgtReach_sound)

theorem Dev.advance_sound {d : Dev} {t : Txn} (h_d : d.Sound) : (Dev.advance d t).2.Sound := by
  unfold Dev.advance
  (try lift_lets -underBinder)
  with_reducible repeat' (first
    | assumption | (intro x; have hx : Dev.Sound x; unfold x; rotate_left; clear_value x) | (intro x; clear_value x)
    | lift_lets -underBinder | apply sound_ite | apply sound_ite2 | apply Dev.setTxn_sound | apply Dev.trayOrder_sound
    | apply Dev.replyTo_sound | apply Dev.finishTxn_sound | apply Dev.askMem_sound | apply Dev.freshBytes_sound | split)
theorem Dev.openTxn_sound {d : Dev} {e : DirEnt} {k : Kind} {m : Msg} {st0 : Nat} {next : Option Msg} (h_d : d.Sound) : (Dev.openTxn d e k m st0 next).2.Sound := by
  unfold Dev.openTxn
  (try lift_lets -underBinder)
  with_reducible repeat' (first
    | assumption | (intro x; have hx : Dev.Sound x; unfold x; rotate_left; clear_value x)
    | (intro x; have hx : Dev.Sound (Prod.snd x); unfold x; rotate_left; clear_value x) | (intro x; clear_value x)
    | (intro _) | lift_lets -underBinder | apply sound_ite2 | apply sound_foldlp | apply Dev.snoopStep_sound
    | apply Dev.putEnt_sound | apply Dev.addTxn_sound | apply Dev.loseCopies_sound | apply Dev.copiesEnd_sound
    | apply Dev.advance_sound)
theorem Dev.openConserv_sound {d : Dev} {e : DirEnt} {m : Msg} {next : Option Msg} (h_d : d.Sound) : (Dev.openConserv d e m next).2.Sound := by
  unfold Dev.openConserv
  (try lift_lets -underBinder)
  with_reducible repeat' (first
    | assumption | (intro x; clear_value x) | lift_lets -underBinder | apply Dev.logUeEntry_sound | apply Dev.openTxn_sound)
theorem Dev.evict_sound {d : Dev} {e : DirEnt} {m : Msg} {next : Option Msg} (h_d : d.Sound) : (Dev.evict d e m next).2.Sound := by
  unfold Dev.evict
  (try lift_lets -underBinder)
  with_reducible repeat' (first
    | assumption | (intro x; have hx : Dev.Sound (Prod.snd x); unfold x; rotate_left; clear_value x)
    | (intro x; have hx : Dev.Sound (Prod.snd (Prod.snd x)); unfold x; rotate_left; clear_value x) | lift_lets -underBinder
    | apply sound_ite2 | apply Dev.openConserv_sound | apply Dev.entFix_sound | apply Dev.raiseDue_sound
    | apply Dev.sccCheck_sound | apply Dev.freeEnt_sound | apply Dev.endAccess_sound | apply Dev.putEnt_sound
    | apply Dev.openTxn_sound)
theorem Dev.startRecall_sound {d : Dev} {e : DirEnt} {hs : List Nat} {discard poison : Bool} {fid : Nat} (h_d : d.Sound) : (Dev.startRecall d e hs discard poison fid).2.Sound := by
  unfold Dev.startRecall
  (try lift_lets -underBinder)
  with_reducible repeat' (first
    | assumption | (intro x; have hx : Dev.Sound x; unfold x; rotate_left; clear_value x)
    | (intro x; have hx : Dev.Sound (Prod.snd x); unfold x; rotate_left; clear_value x) | (intro x; clear_value x)
    | lift_lets -underBinder | apply sound_ite2 | apply Dev.openConserv_sound | apply Dev.entFix_sound
    | apply Dev.openRecall_sound | apply Dev.setTxn_sound | apply Dev.advance_sound | split)
theorem Dev.removeFrom_sound {d : Dev} {e : DirEnt} {u : Nat} (h_d : d.Sound) : (Dev.removeFrom d e u).2.Sound := by
  unfold Dev.removeFrom
  (try lift_lets -underBinder)
  with_reducible repeat' (first
    | assumption | (intro x; clear_value x) | lift_lets -underBinder | apply sound_ite2 | apply Dev.startRecall_sound)
theorem Dev.enqueue_sound {d : Dev} {m : Msg} {retry : Bool} (h_d : d.Sound) : (Dev.enqueue d m retry).Sound := by
  unfold Dev.enqueue
  with_reducible repeat' (first
    | assumption | lift_lets -underBinder | apply sound_ite | apply Dev.count_sound | apply Dev.modHome_sound)

theorem Dev.allocIn_sound {d : Dev} {m : Msg} {k : Kind} {w : Nat} (h_d : d.Sound) : (Dev.allocIn d m k w).2.Sound := by
  unfold Dev.allocIn
  (try lift_lets -underBinder)
  with_reducible repeat' (first
    | assumption | (intro x; have hx : Dev.Sound x; unfold x; rotate_left; clear_value x) | (intro x; clear_value x)
    | lift_lets -underBinder | apply sound_ite2 | apply Dev.touchDir_sound | apply Dev.putEnt_sound
    | apply Dev.openTxn_sound)
theorem Dev.allocate_sound {d : Dev} {m : Msg} {k : Kind} (h_d : d.Sound) : (Dev.allocate d m k).2.Sound := by
  unfold Dev.allocate
  (try lift_lets -underBinder)
  with_reducible repeat' (first
    | assumption | (intro x; clear_value x) | lift_lets -underBinder | apply Dev.enqueue_sound | apply Dev.raise_sound
    | apply Dev.allocIn_sound | apply Dev.evict_sound | split)
theorem Dev.touchScc_sound {d : Dev} {tk h : Nat} (h_d : d.Sound) : (Dev.touchScc d tk h).Sound := by
  unfold Dev.touchScc
  with_reducible repeat' (first
    | assumption | apply Dev.useScc_sound | split)

theorem Dev.decideReq_sound {d : Dev} {m : Msg} {k0 : Kind} {way : Option Nat} (h_d : d.Sound) : (Dev.decideReq d m k0 way).2.Sound := by
  unfold Dev.decideReq
  (try lift_lets -underBinder)
  with_reducible repeat' (first
    | assumption | (intro x; have hx : Dev.Sound x; unfold x; rotate_left; clear_value x)
    | (intro x; have hx : ∀ e : Dev, Dev.Sound e → Dev.Sound (Prod.snd (x e)); unfold x; rotate_left; clear_value x)
    | (intro x; clear_value x) | (intro _) | lift_lets -underBinder | apply sound_ite | apply sound_ite2
    | apply Dev.raise_sound | apply Dev.allocIn_sound | apply Dev.allocate_sound | apply Dev.modHome_sound
    | apply Dev.advance_sound | apply Dev.biAnswer_sound | apply Dev.decideWb_sound | apply Dev.touchDir_sound
    | apply Dev.sccCheck_sound | apply Dev.touchScc_sound | apply Dev.freeEnt_sound | apply Dev.putEnt_sound
    | apply Dev.openTxn_sound | apply Dev.lostDirty_sound | split | apply_assumption)
theorem Dev.holdWb_sound {d : Dev} {src : Nat} {m : Msg} (h_d : d.Sound) : (Dev.holdWb d src m).Sound := by
  unfold Dev.holdWb
  with_reducible repeat' (first
    | assumption | apply Dev.modHome_sound)

theorem Dev.wbAnswer_sound {d : Dev} {t : Txn} {m : Msg} (h_d : d.Sound) : (Dev.wbAnswer d t m).Sound := by
  unfold Dev.wbAnswer
  (try lift_lets -underBinder)
  with_reducible repeat' (first
    | assumption | (intro x; have hx : Dev.Sound x; unfold x; rotate_left; clear_value x) | (intro x; clear_value x)
    | lift_lets -underBinder | apply sound_ite | apply Dev.raise_sound | apply Dev.setTxn_sound | apply Dev.replyTo_sound)

theorem Dev.wbBusy_sound {d : Dev} {src : Nat} {m : Msg} (h_d : d.Sound) : (Dev.wbBusy d src m).2.Sound := by
  unfold Dev.wbBusy
  (try lift_lets -underBinder)
  with_reducible repeat' (first
    | assumption | (intro x; clear_value x) | lift_lets -underBinder | apply sound_ite | apply sound_ite2
    | apply Dev.holdWb_sound | apply Dev.staleWb_sound | apply Dev.wbAnswer_sound | split)
theorem Dev.wbConserv_sound {d : Dev} {e : DirEnt} {m : Msg} (h_d : d.Sound) : (Dev.wbConserv d e m).2.Sound := by
  unfold Dev.wbConserv
  (try lift_lets -underBinder)
  with_reducible repeat' (first
    | assumption | (intro x; have hx : Dev.Sound (Prod.snd x); unfold x; rotate_left; clear_value x)
    | (intro x; clear_value x) | lift_lets -underBinder | apply sound_ite2 | apply Dev.openConserv_sound
    | apply Dev.wbBusy_sound | apply Dev.staleWb_sound)
theorem Dev.countDecision_sound {d : Dev} {tk h : Nat} {req : Bool} (h_d : d.Sound) : (Dev.countDecision d tk h req).Sound := by
  unfold Dev.countDecision
  (try lift_lets -underBinder)
  with_reducible repeat' (first
    | assumption | (intro x; have hx : Dev.Sound x; unfold x; rotate_left; clear_value x) | (intro x; clear_value x)
    | lift_lets -underBinder | apply sound_ite | apply Dev.count_sound)

theorem Dev.readSet_sound {d : Dev} {tk h : Nat} (h_d : d.Sound) : (Dev.readSet d tk h).Sound := by
  unfold Dev.readSet
  (try lift_lets -underBinder)
  with_reducible repeat' (first
    | assumption | (intro x; have hx : Dev.Sound x; unfold x; rotate_left; clear_value x) | lift_lets -underBinder
    | apply Dev.dropLost_sound | apply Dev.entFix_sound | apply Dev.raiseDue_sound | split)

theorem Dev.decideFree_sound {d : Dev} {m : Msg} {k : Kind} {way : Option Nat} (h_d : d.Sound) : (Dev.decideFree d m k way).2.Sound := by
  unfold Dev.decideFree
  (try lift_lets -underBinder)
  with_reducible repeat' (first
    | assumption | (intro x; have hx : Dev.Sound x; unfold x; rotate_left; clear_value x) | (intro x; clear_value x)
    | lift_lets -underBinder | apply sound_ite2 | apply Dev.countDecision_sound | apply Dev.wbConserv_sound
    | apply Dev.openConserv_sound | apply Dev.decideWb_sound | apply Dev.decideReq_sound | split)
theorem Dev.decideOne_sound {d : Dev} {x : Next} (h_d : d.Sound) : (Dev.decideOne d x).2.Sound := by
  unfold Dev.decideOne
  (try lift_lets -underBinder)
  with_reducible repeat' (first
    | assumption | (intro x; have hx : Dev.Sound x; unfold x; rotate_left; clear_value x) | (intro x; clear_value x)
    | lift_lets -underBinder | apply sound_ite | apply sound_ite2 | apply Dev.readSet_sound | apply Dev.enqueue_sound
    | apply Dev.removeFrom_sound | apply Dev.evict_sound | apply Dev.endAccess_sound | apply Dev.wbBusy_sound
    | apply Dev.decideFree_sound | split)
theorem Dev.decideAll_sound {d : Dev} {n : Nat} {l : List Next} (h_d : d.Sound) : (Dev.decideAll n l d).Sound := by
  induction n generalizing d l with
  | zero => exact h_d
  | succ n ih => cases l with
    | nil => exact h_d
    | cons x xs => exact ih (Dev.decideOne_sound h_d)

theorem Dev.runHome_sound {r : List Next × Dev} (h_r : r.2.Sound) : (Dev.runHome r).Sound := by
  unfold Dev.runHome
  with_reducible repeat' (first
    | assumption | lift_lets -underBinder | apply Dev.decideAll_sound | apply Dev.copiesEnd_sound
    | apply Dev.removalsEnd_sound)

theorem Dev.snoopAnswered_sound {d : Dev} {m : Msg} (h_d : d.Sound) : (Dev.snoopAnswered d m).Sound := by
  unfold Dev.snoopAnswered
  (try lift_lets -underBinder)
  with_reducible repeat' (first
    | assumption | (intro x; have hx : Dev.Sound x; unfold x; rotate_left; clear_value x) | (intro x; clear_value x)
    | (intro _) | lift_lets -underBinder | apply sound_ite | apply Dev.setSuspect_sound | apply Dev.raise_sound
    | apply Dev.setTxn_sound | apply Dev.modEnt_sound | apply Dev.runHome_sound | apply Dev.advance_sound | split)

theorem Dev.snoopExpire_sound {d : Dev} {tk h a : Nat} (h_d : d.Sound) : (Dev.snoopExpire d tk h a).Sound := by
  unfold Dev.snoopExpire
  (try lift_lets -underBinder)
  with_reducible repeat' (first
    | assumption | (intro x; have hx : Dev.Sound x; unfold x; rotate_left; clear_value x) | (intro x; clear_value x)
    | lift_lets -underBinder | apply sound_ite | apply Dev.setTxn_sound | apply Dev.modEnt_sound
    | apply Dev.snoopTimedOut_sound | apply Dev.runHome_sound | apply Dev.advance_sound | split)

theorem Dev.wakeReads_sound {d : Dev} {tk h : Nat} (h_d : d.Sound) : (Dev.wakeReads d tk h).Sound := by
  unfold Dev.wakeReads
  (try lift_lets -underBinder)
  with_reducible repeat' (first
    | assumption | (intro x; clear_value x) | (intro _) | lift_lets -underBinder | apply sound_ite | apply sound_foldl
    | apply Dev.runHome_sound | apply Dev.advance_sound)

theorem Dev.lineFreed_sound {d : Dev} {tk h : Nat} (h_d : d.Sound) : (Dev.lineFreed d tk h).2.Sound := by
  unfold Dev.lineFreed
  with_reducible repeat' (first
    | assumption | lift_lets -underBinder | apply Dev.delTxn_sound | apply Dev.closeTxn_sound | apply Dev.takeHeld_sound
    | split)
theorem Dev.wrRelease_sound {d : Dev} {s : Nat} (h_d : d.Sound) : (Dev.wrRelease d s).Sound := by
  unfold Dev.wrRelease
  (try lift_lets -underBinder)
  with_reducible repeat' (first
    | assumption | (intro x; have hx : Dev.Sound x; unfold x; rotate_left; clear_value x) | (intro x; clear_value x)
    | lift_lets -underBinder | apply sound_ite | apply Dev.setHome_sound | apply Dev.tgtPut_sound | apply Dev.runHome_sound
    | apply Dev.lineFreed_sound | split)

theorem Dev.dropClean_sound {d : Dev} {tk h : Nat} (h_d : d.Sound) : (Dev.dropClean d tk h).Sound := by
  unfold Dev.dropClean
  with_reducible repeat' (first
    | assumption | lift_lets -underBinder | apply sound_ite | apply Dev.dropScc_sound | apply Dev.modEnt_sound | split)

theorem Dev.rewriteFailed_sound {d : Dev} {s tk : Nat} (h_d : d.Sound) : (Dev.rewriteFailed d s tk).Sound := by
  unfold Dev.rewriteFailed
  (try lift_lets -underBinder)
  with_reducible repeat' (first
    | assumption | (intro x; have hx : Dev.Sound x; unfold x; rotate_left; clear_value x) | (intro x; clear_value x)
    | (intro _) | lift_lets -underBinder | apply sound_foldl | apply Dev.modHome_sound | apply Dev.dropClean_sound
    | apply Dev.freshBytes_sound | apply Dev.tgtWrite_sound)

theorem Dev.commitLine_sound {d : Dev} {s tk h : Nat} {ok : Bool} {n : Nat} (h_d : d.Sound) : (Dev.commitLine d s tk h ok n).Sound := by
  unfold Dev.commitLine
  (try lift_lets -underBinder)
  with_reducible repeat' (first
    | assumption | (intro x; have hx : Dev.Sound x; unfold x; rotate_left; clear_value x) | (intro x; clear_value x)
    | (intro _) | lift_lets -underBinder | apply sound_foldl | apply Dev.trayCommit_sound | apply Dev.modHome_sound
    | apply Dev.replyTo_sound)

theorem Dev.homeWritten_sound {d : Dev} {s : Nat} {m : Msg} {ok : Bool} (h_d : d.Sound) : (Dev.homeWritten d s m ok).Sound := by
  unfold Dev.homeWritten
  (try lift_lets -underBinder)
  with_reducible repeat' (first
    | assumption | (intro x; have hx : Dev.Sound x; unfold x; rotate_left; clear_value x) | (intro x; clear_value x)
    | lift_lets -underBinder | apply sound_ite | apply Dev.modHome_sound | apply Dev.inc_sound | apply Dev.dropClean_sound
    | apply Dev.lostWrite_sound | apply Dev.commitLine_sound | apply Dev.wrRelease_sound | apply Dev.wakeReads_sound)

theorem Dev.homeTarget_sound {d : Dev} {s : Nat} {m : Msg} (h_d : d.Sound) : (Dev.homeTarget d s m).Sound := by
  unfold Dev.homeTarget
  (try lift_lets -underBinder)
  with_reducible repeat' (first
    | assumption | (intro x; have hx : Dev.Sound x; unfold x; rotate_left; clear_value x) | (intro x; clear_value x)
    | (intro _) | lift_lets -underBinder | apply sound_ite | apply Dev.rewriteFailed_sound | apply Dev.homeWritten_sound
    | apply Dev.freshBytes_sound | apply Dev.setTxn_sound | apply Dev.runHome_sound | apply Dev.advance_sound | split)

theorem Dev.takeFrom_at {d : Dev} {s ch : Nat} {m : Msg} {d1 : Dev} (hEq : d.takeFrom s ch = some (m, d1)) (h_d : d.Sound) : d1.Sound := by
  unfold Dev.takeFrom at hEq
  obtain ⟨_, _, h⟩ := Option.map_eq_some_iff.1 hEq
  cases h
  exact Dev.setArrived_sound h_d

theorem Dev.lineGo_sound {d : Dev} {tk h n : Nat} (h_d : d.Sound) : (Dev.lineGo d tk h n).Sound := by
  induction n generalizing d with
  | zero => exact h_d
  | succ n ih =>
    unfold Dev.lineGo
    split
    · exact h_d
    · split
      · exact ih (Dev.runHome_sound (Dev.decideOne_sound (Dev.modHome_sound h_d)))
      · exact h_d


theorem Dev.seeAgent_sound {d : Dev} {m : Msg} (h_d : d.Sound) : (Dev.seeAgent d m).Sound := by
  unfold Dev.seeAgent
  with_reducible repeat' (first
    | assumption | (intro x; clear_value x) | lift_lets -underBinder | apply sound_ite
    | (simp only [sound_mk]; apply sound_of) | split)

theorem Dev.takeMsg_sound {d : Dev} {s : Nat} {k : Kind} {m : Msg} {d2 : Dev} (h_d : d.Sound) (h_d2 : d2.Sound) : (Dev.takeMsg d s k m d2).Sound := by
  unfold Dev.takeMsg
  (try lift_lets -underBinder)
  with_reducible repeat' (first
    | assumption | (intro x; have hx : Dev.Sound x; unfold x; rotate_left; clear_value x) | (intro x; clear_value x)
    | lift_lets -underBinder | apply sound_ite | apply Dev.seeAgent_sound | apply Dev.enqueue_sound
    | apply Dev.runHome_sound | apply Dev.lineGo_sound | apply Dev.decideOne_sound | apply Dev.modHome_sound)

theorem Dev.takeKind_sound {d : Dev} {s : Nat} {k : Kind} (h_d : d.Sound) : (Dev.takeKind d s k).Sound := by
  unfold Dev.takeKind
  with_reducible repeat' (first
    | assumption | lift_lets -underBinder | apply sound_ite | apply Dev.takeMsg_sound | (refine Dev.takeFrom_at ‹_ = _› ?_)
    | split)

theorem Dev.qRaise_sound {d : Dev} {q : Nat} {f : FSrc} (h_d : d.Sound) : (Dev.qRaise d q f).Sound := by
  unfold Dev.qRaise
  with_reducible repeat' (first
    | assumption | apply Dev.raise_sound)

theorem Dev.rangeTags_sound {d : Dev} {u a len : Nat} (h_d : d.Sound) : (Dev.rangeTags d u a len).Sound := by
  unfold Dev.rangeTags
  (try lift_lets -underBinder)
  with_reducible repeat' (first
    | assumption | (intro x; have hx : Dev.Sound x; unfold x; rotate_left; clear_value x) | (intro x; clear_value x)
    | (intro _) | lift_lets -underBinder | apply sound_ite | apply sound_foldl | apply Dev.tagTouch_sound
    | apply Dev.carveRead_sound | apply Dev.tagInsert_sound)

theorem Dev.rangeCheck_sound {d : Dev} {q : Nat} {l : List (AccKind × Nat × Nat)} (h_d : d.Sound) : (Dev.rangeCheck d q l).2.Sound := by
  unfold Dev.rangeCheck
  (try lift_lets -underBinder)
  with_reducible repeat' (first
    | assumption | (intro x; have hx : Dev.Sound x; unfold x; rotate_left; clear_value x) | (intro _)
    | lift_lets -underBinder | apply sound_foldl | apply Dev.rangeTags_sound | apply Dev.deny_sound | split)
theorem Dev.rangeCheck_at {d : Dev} {q : Nat} {l : List (AccKind × Nat × Nat)} {r0 : Option Nat} {d1 : Dev} (hEq : Dev.rangeCheck d q l = (r0, d1)) (h_d : d.Sound) : d1.Sound := by
  have h := Dev.rangeCheck_sound (d := d) (q := q) (l := l) h_d 
  rw [hEq] at h
  exact h

theorem Dev.issue_sound {d : Dev} {q fid : Nat} {op : MOp} {a tag be : Nat} {line : Bytes} {arg : Nat} {poison nt : Bool} (h_d : d.Sound) : OSound (Dev.issue d q fid op a tag be line arg poison nt) := by
  unfold Dev.issue
  (try lift_lets -underBinder)
  with_reducible repeat' (first
    | assumption | (intro x; have hx : Dev.Sound (Prod.snd x); unfold x; rotate_left; clear_value x)
    | (intro x; clear_value x) | (intro _) | lift_lets -underBinder | apply sound_foldl | apply osound_none
    | apply osound_some | apply Dev.direct_sound | apply Dev.pushRel_sound | split)
theorem Dev.issue_at {d : Dev} {q fid : Nat} {op : MOp} {a tag be : Nat} {line : Bytes} {arg : Nat} {poison nt r0 : Bool} {d1 : Dev} (hEq : Dev.issue d q fid op a tag be line arg poison nt = some (r0, d1)) (h_d : d.Sound) : d1.Sound := by
  have h := Dev.issue_sound (d := d) (q := q) (fid := fid) (op := op) (a := a) (tag := tag) (be := be) (line := line) (arg := arg) (poison := poison) (nt := nt) h_d
  rw [hEq] at h
  exact h

theorem Dev.takeTag_sound {d : Dev} (h_d : d.Sound) : (Dev.takeTag d).2.Sound := by
  unfold Dev.takeTag
  (try lift_lets -underBinder)
  with_reducible repeat' (first
    | assumption | (intro x; clear_value x) | (simp only [sound_mk]; apply sound_of))
theorem Dev.takeTag_at {d : Dev} {r0 : Nat} {d1 : Dev} (hEq : Dev.takeTag d = (r0, d1)) (h_d : d.Sound) : d1.Sound := by
  have h := Dev.takeTag_sound (d := d) h_d 
  rw [hEq] at h
  exact h

theorem Dev.bufferUe_sound {d : Dev} {x : Desc} (h_d : d.Sound) : (Dev.bufferUe d x).2.Sound := by
  unfold Dev.bufferUe
  with_reducible repeat' (first
    | assumption | lift_lets -underBinder | apply Dev.raise_sound | (refine Dev.injectAt_at ‹_ = _› ?_) | split)
theorem Dev.bufferUe_at {d : Dev} {x : Desc} {r0 : Bool} {d1 : Dev} (hEq : Dev.bufferUe d x = (r0, d1)) (h_d : d.Sound) : d1.Sound := by
  have h := Dev.bufferUe_sound (d := d) (x := x) h_d 
  rw [hEq] at h
  exact h

theorem Dev.issueWr_sound {d : Dev} {q : Nat} {x : Desc} {a off : Nat} {b : Bytes} {poison : Bool} (h_d : d.Sound) : (Dev.issueWr d q x a off b poison).2.Sound := by
  unfold Dev.issueWr
  with_reducible repeat' (first
    | assumption | (intro x; clear_value x) | lift_lets -underBinder | apply Dev.noteFailed_sound
    | (refine Dev.bufferUe_at ‹_ = _› ?_) | (refine Dev.takeTag_at ‹_ = _› ?_) | (refine Dev.issue_at ‹_ = _› ?_) | split)
theorem Dev.issueRd_sound {d : Dev} {q : Nat} {x : Desc} {kind a off len : Nat} (h_d : d.Sound) : (Dev.issueRd d q x kind a off len).2.Sound := by
  unfold Dev.issueRd
  with_reducible repeat' (first
    | assumption | lift_lets -underBinder | (refine Dev.takeTag_at ‹_ = _› ?_) | (refine Dev.issue_at ‹_ = _› ?_) | split)
theorem Dev.issueReads_sound {d : Dev} {q : Nat} {x : Desc} {kind a len : Nat} (h_d : d.Sound) : (Dev.issueReads d q x kind a len).2.Sound := by
  unfold Dev.issueReads
  with_reducible repeat' (first
    | assumption | (intro _) | lift_lets -underBinder | apply sound_foldlp | apply Dev.issueRd_sound)
theorem Dev.issueBytes_sound {d : Dev} {q : Nat} {x : Desc} {a off : Nat} {b : Bytes} {poison : Bool} (h_d : d.Sound) : (Dev.issueBytes d q x a off b poison).2.Sound := by
  unfold Dev.issueBytes
  with_reducible repeat' (first
    | assumption | (intro _) | lift_lets -underBinder | apply sound_foldlp | apply Dev.issueWr_sound)
theorem Dev.issueAtom_sound {d : Dev} {q : Nat} {x : Desc} {aop n : Nat} (h_d : d.Sound) : (Dev.issueAtom d q x aop n).2.Sound := by
  unfold Dev.issueAtom
  with_reducible repeat' (first
    | assumption | lift_lets -underBinder | apply Dev.noteFailed_sound | (refine Dev.takeTag_at ‹_ = _› ?_)
    | (refine Dev.issue_at ‹_ = _› ?_) | split)
theorem Dev.staleOne_sound {d : Dev} {q : Nat} {x : Desc} (h_d : d.Sound) : (Dev.staleOne d q x).Sound := by
  unfold Dev.staleOne
  with_reducible repeat' (first
    | assumption | lift_lets -underBinder | apply sound_ite | apply Dev.qPut_sound | apply Dev.qRaise_sound)

theorem Dev.endFid_sound {d : Dev} {fid : Nat} (h_d : d.Sound) : (Dev.endFid d fid).Sound := by
  unfold Dev.endFid
  with_reducible repeat' (first
    | assumption | lift_lets -underBinder | apply sound_ite | apply Dev.endFlight_sound)

theorem Dev.settleQueue_sound {d : Dev} {q : Nat} (h_d : d.Sound) : (Dev.settleQueue d q).Sound := by
  unfold Dev.settleQueue
  (try lift_lets -underBinder)
  with_reducible repeat' (first
    | assumption | (intro x; clear_value x) | (intro _) | lift_lets -underBinder | apply sound_ite | apply sound_foldl
    | apply Dev.setQueue_sound | apply Dev.endFid_sound | apply Dev.staleOne_sound | apply Dev.qPut_sound)

theorem Dev.accEnded_sound {d : Dev} {q : Nat} {x : Desc} {c : DAcc} {m : Msg} (h_d : d.Sound) : (Dev.accEnded d q x c m).2.Sound := by
  unfold Dev.accEnded
  (try lift_lets -underBinder)
  with_reducible repeat' (first
    | assumption | (intro x; clear_value x) | lift_lets -underBinder | apply sound_ite2 | apply Dev.issueBytes_sound
    | apply Dev.noteFailed_sound)
theorem Dev.recordFailed_sound {d : Dev} {q : Nat} (h_d : d.Sound) : (Dev.recordFailed d q).Sound := by
  unfold Dev.recordFailed
  with_reducible repeat' (first
    | assumption | lift_lets -underBinder | apply Dev.setQState_sound | apply Dev.qRaise_sound)

theorem Dev.recordAnswer_sound {d : Dev} {q tag : Nat} {failed : Bool} (h_d : d.Sound) : (Dev.recordAnswer d q tag failed).Sound := by
  unfold Dev.recordAnswer
  (try lift_lets -underBinder)
  with_reducible repeat' (first
    | assumption | (intro x; have hx : Dev.Sound x; unfold x; rotate_left; clear_value x) | (intro x; clear_value x)
    | lift_lets -underBinder | apply sound_ite | apply Dev.setQueue_sound | apply Dev.recordFailed_sound)

theorem Dev.dmvAnswer_sound {d : Dev} {m : Msg} (h_d : d.Sound) : (Dev.dmvAnswer d m).Sound := by
  unfold Dev.dmvAnswer
  with_reducible repeat' (first
    | assumption | (intro x; clear_value x) | lift_lets -underBinder | apply Dev.recordAnswer_sound
    | apply Dev.accEnded_sound | apply Dev.setQueue_sound | apply Dev.settleQueue_sound | split)

theorem Dev.qReset_sound {d : Dev} {q st : Nat} {clear : Bool} (h_d : d.Sound) : (Dev.qReset d q st clear).Sound := by
  unfold Dev.qReset
  (try lift_lets -underBinder)
  with_reducible repeat' (first
    | assumption | (intro x; have hx : Dev.Sound x; unfold x; rotate_left; clear_value x) | (intro x; clear_value x)
    | (intro _) | lift_lets -underBinder | apply sound_ite | apply sound_foldl | apply Dev.endFid_sound
    | apply Dev.staleOne_sound | apply Dev.setQueue_sound | apply Dev.setQState_sound | apply Dev.endQuar_sound
    | apply Dev.qPut_sound | apply Dev.setLine_sound | apply Dev.setCtxW_sound)

theorem Dev.allocFn_sound {d : Dev} {u fn : Nat} (h_d : d.Sound) : (Dev.allocFn d u fn).Sound := by
  unfold Dev.allocFn
  with_reducible repeat' (first
    | assumption | (intro x; have hx : Dev.Sound x; unfold x; rotate_left; clear_value x) | (intro _)
    | lift_lets -underBinder | apply sound_ite | apply sound_foldl | apply Dev.setQState_sound | apply Dev.qPut_sound
    | apply Dev.put_sound)

theorem Dev.removeQueues_sound {d : Dev} {l : List Nat} (h_d : d.Sound) : (Dev.removeQueues d l).Sound := by
  unfold Dev.removeQueues
  with_reducible repeat' (first
    | assumption | (intro x; have hx : Dev.Sound x; unfold x; rotate_left; clear_value x) | (intro _)
    | lift_lets -underBinder | apply sound_ite | apply sound_foldl | apply Dev.qReset_sound | apply Dev.qPut_sound
    | apply Dev.put_sound)

theorem Dev.removeFn_sound {d : Dev} {u fn : Nat} (h_d : d.Sound) : (Dev.removeFn d u fn).Sound := by
  unfold Dev.removeFn
  with_reducible repeat' (first
    | assumption | apply Dev.removeQueues_sound)

theorem Dev.dropVfs_sound {d : Dev} {u : Nat} (h_d : d.Sound) : (Dev.dropVfs d u).Sound := by
  unfold Dev.dropVfs
  (try lift_lets -underBinder)
  with_reducible repeat' (first
    | assumption | (intro x; have hx : Dev.Sound x; unfold x; rotate_left; clear_value x) | (intro x; clear_value x)
    | (intro _) | lift_lets -underBinder | apply sound_foldl | apply Dev.removeFn_sound
    | (simp only [sound_mk]; apply sound_of))

theorem Dev.fnRegsReset_sound {d : Dev} {u fn : Nat} (h_d : d.Sound) : (Dev.fnRegsReset d u fn).Sound := by
  unfold Dev.fnRegsReset
  (try lift_lets -underBinder)
  with_reducible repeat' (first
    | assumption | (intro x; have hx : Dev.Sound x; unfold x; rotate_left; clear_value x) | (intro x; clear_value x)
    | (intro _) | lift_lets -underBinder | apply sound_foldl | apply Dev.put_sound)

theorem Dev.flrFn_sound {d : Dev} {u fn : Nat} (h_d : d.Sound) : (Dev.flrFn d u fn).Sound := by
  unfold Dev.flrFn
  with_reducible repeat' (first
    | assumption | (intro _) | lift_lets -underBinder | apply sound_ite | apply sound_foldl | apply Dev.qReset_sound
    | apply Dev.fnRegsReset_sound)

theorem Dev.endpointReset_sound {d : Dev} {u : Nat} (h_d : d.Sound) : (Dev.endpointReset d u).Sound := by
  unfold Dev.endpointReset
  (try lift_lets -underBinder)
  with_reducible repeat' (first
    | assumption | (intro x; have hx : Dev.Sound x; unfold x; rotate_left; clear_value x) | (intro _)
    | lift_lets -underBinder | apply sound_ite | apply sound_foldl | apply Dev.dropVfs_sound | apply Dev.qReset_sound
    | apply Dev.fnRegsReset_sound)

theorem Dev.abortDescs_sound {d : Dev} {q : Nat} {p : Desc → Bool} (h_d : d.Sound) : (Dev.abortDescs d q p).Sound := by
  unfold Dev.abortDescs
  (try lift_lets -underBinder)
  with_reducible repeat' (first
    | assumption | (intro x; clear_value x) | lift_lets -underBinder | apply Dev.setQueue_sound
    | apply Dev.settleQueue_sound)

theorem Dev.savePrev_sound {d : Dev} {g : Pg} (h_d : d.Sound) : (Dev.savePrev d g).Sound := by
  unfold Dev.savePrev
  (try lift_lets -underBinder)
  with_reducible repeat' (first
    | assumption | (intro x; clear_value x) | (simp only [sound_mk]; apply sound_of))

theorem Dev.raiseEpoch_sound {d : Dev} {g : Pg} (h_d : d.Sound) : (Dev.raiseEpoch d g).Sound := by
  unfold Dev.raiseEpoch
  (try lift_lets -underBinder)
  with_reducible repeat' (first
    | assumption | (intro x; clear_value x) | lift_lets -underBinder | apply Dev.put_sound)

theorem Dev.setMigr_sound {d : Dev} {m : Nat} {g : Option Migr} (h_d : d.Sound) : (Dev.setMigr d m g).Sound := by
  unfold Dev.setMigr
  (try lift_lets -underBinder)
  with_reducible repeat' (first
    | assumption | (intro x; clear_value x) | (simp only [sound_mk]; apply sound_of))

theorem Dev.visibleLine_sound {d : Dev} {t : Tgt} {line : Nat} (h_d : d.Sound) : (Dev.visibleLine d t line).2.Sound := by
  unfold Dev.visibleLine
  (try lift_lets -underBinder)
  with_reducible repeat' (first
    | assumption | (intro x; clear_value x) | lift_lets -underBinder | apply sound_ite2 | apply Dev.readLine_sound
    | apply Dev.freshBytes_sound)
theorem Dev.visibleLine_at {d : Dev} {t : Tgt} {line : Nat} {r0 : Option (Bytes × Bool)} {d1 : Dev} (hEq : Dev.visibleLine d t line = (r0, d1)) (h_d : d.Sound) : d1.Sound := by
  have h := Dev.visibleLine_sound (d := d) (t := t) (line := line) h_d 
  rw [hEq] at h
  exact h

theorem Dev.copyWrite_sound {d : Dev} {t : Tgt} {line : Nat} {b : Bytes} {poison : Bool} (h_d : d.Sound) : (Dev.copyWrite d t line b poison).2.Sound := by
  unfold Dev.copyWrite
  (try lift_lets -underBinder)
  with_reducible repeat' (first
    | assumption | (intro x; clear_value x) | lift_lets -underBinder | apply sound_ite2 | apply Dev.writeLine_sound)
theorem Dev.copyWrite_at {d : Dev} {t : Tgt} {line : Nat} {b : Bytes} {poison r0 : Bool} {d1 : Dev} (hEq : Dev.copyWrite d t line b poison = (r0, d1)) (h_d : d.Sound) : d1.Sound := by
  have h := Dev.copyWrite_sound (d := d) (t := t) (line := line) (b := b) (poison := poison) h_d 
  rw [hEq] at h
  exact h

theorem Dev.copyGranules_sound {d : Dev} {src dst : Tgt} {lo new : Nat} {l : List Nat} (h_d : d.Sound) : (Dev.copyGranules d src dst lo new l).2.Sound := by
  unfold Dev.copyGranules
  with_reducible repeat' (first
    | assumption | (intro _) | lift_lets -underBinder | apply sound_foldlp | (refine Dev.visibleLine_at ‹_ = _› ?_)
    | (refine Dev.copyWrite_at ‹_ = _› ?_) | split)
theorem Dev.mlIdle_sound {d : Dev} {m : Nat} (h_d : d.Sound) : (Dev.mlIdle d m).Sound := by
  unfold Dev.mlIdle
  with_reducible repeat' (first
    | assumption | apply Dev.setWord_sound)

theorem Dev.endMoveDesc_sound {d : Dev} {g : Migr} {st : Nat} (h_d : d.Sound) : (Dev.endMoveDesc d g st).Sound := by
  unfold Dev.endMoveDesc
  (try lift_lets -underBinder)
  with_reducible repeat' (first
    | assumption | (intro x; clear_value x) | lift_lets -underBinder | apply Dev.setQueue_sound
    | apply Dev.settleQueue_sound)

theorem Dev.releaseOne_sound {d : Dev} {u : Nat} {e : TrayEnt} {m : Msg} (h_d : d.Sound) : (Dev.releaseOne d u e m).Sound := by
  unfold Dev.releaseOne
  (try lift_lets -underBinder)
  with_reducible repeat' (first
    | assumption | (intro x; have hx : Dev.Sound x; unfold x; rotate_left; clear_value x) | (intro x; clear_value x)
    | lift_lets -underBinder | apply sound_ite | apply Dev.trayCommit_sound | apply Dev.modTray_sound
    | apply Dev.pushRel_sound | split)

theorem Dev.releaseHeld_sound {d : Dev} {u i : Nat} {again : Bool} (h_d : d.Sound) : (Dev.releaseHeld d u i again).Sound := by
  unfold Dev.releaseHeld
  with_reducible repeat' (first
    | assumption | (intro x; have hx : Dev.Sound x; unfold x; rotate_left; clear_value x) | (intro x; clear_value x)
    | (intro _) | lift_lets -underBinder | apply sound_ite | apply sound_foldl | apply Dev.releaseOne_sound
    | apply Dev.restamp_sound | apply Dev.rangeTags_sound | apply Dev.deny_sound | apply Dev.trayCommit_sound | split)

theorem Dev.migrFail_sound {d : Dev} {m : Nat} {g : Migr} {st : Nat} (h_d : d.Sound) : (Dev.migrFail d m g st).Sound := by
  unfold Dev.migrFail
  (try lift_lets -underBinder)
  with_reducible repeat' (first
    | assumption | (intro x; have hx : Dev.Sound x; unfold x; rotate_left; clear_value x) | lift_lets -underBinder
    | apply Dev.setMigr_sound | apply Dev.mlIdle_sound | apply Dev.releaseHeld_sound | apply Dev.endMoveDesc_sound
    | apply Dev.raise_sound)

theorem Dev.migrStop_sound {d : Dev} {p : Migr → Bool} {st : Nat} (h_d : d.Sound) : (Dev.migrStop d p st).Sound := by
  unfold Dev.migrStop
  with_reducible repeat' (first
    | assumption | (intro _) | lift_lets -underBinder | apply sound_ite | apply sound_foldl | apply Dev.migrFail_sound
    | split)

theorem Dev.migrCopy_sound {d : Dev} {m : Nat} {g : Migr} {l : List Nat} (h_d : d.Sound) : (Dev.migrCopy d m g l).2.Sound := by
  unfold Dev.migrCopy
  with_reducible repeat' (first
    | assumption | (intro x; have hx : Dev.Sound (Prod.snd x); unfold x; rotate_left; clear_value x)
    | (intro x; clear_value x) | lift_lets -underBinder | apply Dev.migrFail_sound | apply Dev.copyGranules_sound
    | apply Dev.setMigr_sound | split)
theorem Dev.migrCopy_at {d : Dev} {m : Nat} {g : Migr} {l : List Nat} {r0 : Option Migr} {d1 : Dev} (hEq : Dev.migrCopy d m g l = (r0, d1)) (h_d : d.Sound) : d1.Sound := by
  have h := Dev.migrCopy_sound (d := d) (m := m) (g := g) (l := l) h_d 
  rw [hEq] at h
  exact h

theorem Dev.endAsk_sound {d : Dev} {p : Nat} {m : Msg} {op : MOp} {data : Bytes} {poison : Bool} {cause : Nat} (h_d : d.Sound) : (Dev.endAsk d p m op data poison cause).Sound := by
  unfold Dev.endAsk
  with_reducible repeat' (first
    | assumption | (intro x; clear_value x) | lift_lets -underBinder | apply Dev.arriveRsp_sound
    | apply Dev.accessAnswer_sound | split)

theorem Dev.failOutst_sound {d : Dev} {p : Nat} {sel : Outst → Bool} {cause : Nat} (h_d : d.Sound) : (Dev.failOutst d p sel cause).Sound := by
  unfold Dev.failOutst
  (try lift_lets -underBinder)
  with_reducible repeat' (first
    | assumption | (intro x; have hx : Dev.Sound x; unfold x; rotate_left; clear_value x) | (intro x; clear_value x)
    | (intro _) | lift_lets -underBinder | apply sound_foldl | apply Dev.modPort_sound | apply Dev.endAsk_sound)

theorem Dev.flushSome_sound {d : Dev} {p : Nat} {sel : Msg → Bool} (h_d : d.Sound) : (Dev.flushSome d p sel).2.Sound := by
  unfold Dev.flushSome
  (try lift_lets -underBinder)
  with_reducible repeat' (first
    | assumption | (intro x; clear_value x) | (intro _) | lift_lets -underBinder | apply sound_ite | apply sound_foldl
    | apply Dev.flushSel_sound | apply Dev.endAsk_sound | apply Dev.inc_sound)
theorem Dev.flushAnswered_sound {d : Dev} {p : Nat} (h_d : d.Sound) : (Dev.flushAnswered d p).2.Sound := by
  unfold Dev.flushAnswered
  (try lift_lets -underBinder)
  with_reducible repeat' (first
    | assumption | (intro x; have hx : Dev.Sound (Prod.snd x); unfold x; rotate_left; clear_value x)
    | apply Dev.flushSome_sound | apply Dev.dropIngress_sound)
theorem Dev.flushAnswered_at {d : Dev} {p r0 : Nat} {d1 : Dev} (hEq : Dev.flushAnswered d p = (r0, d1)) (h_d : d.Sound) : d1.Sound := by
  have h := Dev.flushAnswered_sound (d := d) (p := p) h_d 
  rw [hEq] at h
  exact h

theorem Dev.answerEnded_sound {d : Dev} {p : Nat} (h_d : d.Sound) : (Dev.answerEnded d p).Sound := by
  unfold Dev.answerEnded
  (try lift_lets -underBinder)
  with_reducible repeat' (first
    | assumption | (intro x; clear_value x) | (intro _) | lift_lets -underBinder | apply sound_foldl
    | apply Dev.endAsk_sound | apply Dev.modPort_sound)

theorem Dev.recallLine_sound {d : Dev} {e : DirEnt} {hs : List Nat} {discard poison : Bool} {fid : Nat} (h_d : d.Sound) : (Dev.recallLine d e hs discard poison fid).Sound := by
  unfold Dev.recallLine
  with_reducible repeat' (first
    | assumption | lift_lets -underBinder | apply Dev.runHome_sound | apply Dev.startRecall_sound)

theorem Dev.lineWaits_sound {d : Dev} {m : Msg} (h_d : d.Sound) : (Dev.lineWaits d m).Sound := by
  unfold Dev.lineWaits
  with_reducible repeat' (first
    | assumption | apply Dev.modHome_sound)

theorem Dev.recallOrWait_sound {d : Dev} {e : DirEnt} {hs : List Nat} {fid : Nat} (h_d : d.Sound) : (Dev.recallOrWait d e hs fid).Sound := by
  unfold Dev.recallOrWait
  with_reducible repeat' (first
    | assumption | lift_lets -underBinder | apply sound_ite | apply Dev.lineWaits_sound | apply Dev.recallLine_sound)

theorem Dev.sweepAll_sound {d : Dev} (h_d : d.Sound) : (Dev.sweepAll d).Sound := by
  unfold Dev.sweepAll
  with_reducible repeat' (first
    | assumption | (intro _) | lift_lets -underBinder | apply sound_foldl | apply Dev.dirSweep_sound
    | apply Dev.raiseDue_sound)

theorem Dev.removeLine_sound {d : Dev} {e : DirEnt} (h_d : d.Sound) : (Dev.removeLine d e).Sound := by
  unfold Dev.removeLine
  (try lift_lets -underBinder)
  with_reducible repeat' (first
    | assumption | (intro x; have hx : Dev.Sound x; unfold x; rotate_left; clear_value x) | (intro x; clear_value x)
    | lift_lets -underBinder | apply Dev.failTxn_sound | apply Dev.failWaits_sound | apply Dev.dropScc_sound
    | apply Dev.putEnt_sound | apply Dev.recallLine_sound | split)

theorem Dev.removeLines_sound {d : Dev} {tk : Nat} {only : Option Nat} (h_d : d.Sound) : (Dev.removeLines d tk only).2.Sound := by
  unfold Dev.removeLines
  (try lift_lets -underBinder)
  with_reducible repeat' (first
    | assumption | (intro x; have hx : Dev.Sound x; unfold x; rotate_left; clear_value x) | (intro x; clear_value x)
    | (intro _) | lift_lets -underBinder | apply sound_ite | apply sound_foldl | apply Dev.sweepAll_sound
    | apply Dev.lineWaits_sound | apply Dev.runHome_sound | apply Dev.removeFrom_sound | apply Dev.removeLine_sound | split)
theorem Dev.fenceFor_sound {d : Dev} {u v : Nat} (h_d : d.Sound) : (Dev.fenceFor d u v).Sound := by
  unfold Dev.fenceFor
  with_reducible repeat' (first
    | assumption | (intro x; clear_value x) | (intro _) | lift_lets -underBinder | apply sound_ite | apply sound_foldl
    | apply Dev.mirrorStale_sound | apply Dev.raise_sound | apply Dev.setFenced_sound)

theorem Dev.dropAsker_sound {d : Dev} {t : Txn} (h_d : d.Sound) : (Dev.dropAsker d t).Sound := by
  unfold Dev.dropAsker
  (try lift_lets -underBinder)
  with_reducible repeat' (first
    | assumption | (intro x; have hx : Dev.Sound x; unfold x; rotate_left; clear_value x) | (intro x; clear_value x)
    | lift_lets -underBinder | apply sound_ite | apply Dev.failTxn_sound | apply Dev.setTxn_sound | apply Dev.failReq_sound
    | apply Dev.runHome_sound | apply Dev.advance_sound)

theorem Dev.endHomeAsks_sound {d : Dev} {t : Tgt} {only : Option Nat} (h_d : d.Sound) : (Dev.endHomeAsks d t only).Sound := by
  unfold Dev.endHomeAsks
  (try lift_lets -underBinder)
  with_reducible repeat' (first
    | assumption | (intro x; have hx : Dev.Sound x; unfold x; rotate_left; clear_value x)
    | (intro x; have hx : Larder := x; clear hx; unfold x; clear x) | (intro x; clear_value x) | (intro _)
    | lift_lets -underBinder | apply sound_foldl | apply Dev.failReq_sound | apply Dev.setArrived_sound
    | apply Dev.failWaits_sound | apply Dev.dropAsker_sound | apply Dev.discard_sound | apply Dev.accessAnswer_sound
    | (simp only [sound_mk]; apply sound_of))

theorem Dev.endAsks_sound {d : Dev} {t : Tgt} {only : Option Nat} (h_d : d.Sound) : (Dev.endAsks d t only).Sound := by
  unfold Dev.endAsks
  (try lift_lets -underBinder)
  with_reducible repeat' (first
    | assumption | (intro x; have hx : Dev.Sound x; unfold x; rotate_left; clear_value x)
    | (intro x; have hx : Dev.Sound (Prod.snd x); unfold x; rotate_left; clear_value x) | (intro x; clear_value x)
    | (intro _) | lift_lets -underBinder | apply sound_ite | apply sound_foldl | apply Dev.flushSome_sound
    | apply Dev.raise_sound | apply Dev.failOutst_sound | apply Dev.endHomeAsks_sound)

theorem Dev.removeTarget_sound {d : Dev} {t : Tgt} {only : Option Nat} (h_d : d.Sound) : (Dev.removeTarget d t only).Sound := by
  unfold Dev.removeTarget
  (try lift_lets -underBinder)
  with_reducible repeat' (first
    | assumption | (intro x; have hx : Dev.Sound x; unfold x; rotate_left; clear_value x) | (intro x; clear_value x)
    | (intro _) | lift_lets -underBinder | apply sound_ite2 | apply sound_foldl | apply Dev.fenceFor_sound
    | apply Dev.migrStop_sound | apply Dev.removeLines_sound | apply Dev.endAsks_sound | apply Dev.removalsEnd_sound
    | (simp only [sound_mk]; apply sound_of))

theorem Dev.removeTargets_sound {d : Dev} {ts : List Tgt} (h_d : d.Sound) : (Dev.removeTargets d ts).Sound := by
  unfold Dev.removeTargets
  (try lift_lets -underBinder)
  with_reducible repeat' (first
    | assumption | (intro x; have hx : Dev.Sound x; unfold x; rotate_left; clear_value x) | (intro _)
    | lift_lets -underBinder | apply sound_foldl | apply Dev.put_sound | apply Dev.removeTarget_sound)

theorem Dev.removalNotice_sound {d : Dev} {p ld : Nat} (h_d : d.Sound) : (Dev.removalNotice d p ld).Sound := by
  unfold Dev.removalNotice
  with_reducible repeat' (first
    | assumption | apply Dev.notice_sound)

theorem Dev.dropAwait_sound {d : Dev} {tk h a : Nat} (h_d : d.Sound) : (Dev.dropAwait d tk h a).Sound := by
  unfold Dev.dropAwait
  with_reducible repeat' (first
    | assumption | (intro x; have hx : Dev.Sound x; unfold x; rotate_left; clear_value x) | (intro x; clear_value x)
    | lift_lets -underBinder | apply sound_ite | apply Dev.setTxn_sound | apply Dev.modEnt_sound | apply Dev.runHome_sound
    | apply Dev.advance_sound | split)

theorem Dev.entWithout_sound {d : Dev} {e : DirEnt} {a : Nat} (h_d : d.Sound) : (Dev.entWithout d e a).2.Sound := by
  unfold Dev.entWithout
  (try lift_lets -underBinder)
  with_reducible repeat' (first
    | assumption | (intro x; clear_value x) | lift_lets -underBinder | apply sound_ite2 | apply Dev.freshBytes_sound
    | apply Dev.tgtWrite_sound | apply Dev.dropScc_sound)
theorem Dev.removeHolder_sound {d : Dev} {e : DirEnt} {a : Nat} (h_d : d.Sound) : (Dev.removeHolder d e a).Sound := by
  unfold Dev.removeHolder
  (try lift_lets -underBinder)
  with_reducible repeat' (first
    | assumption | (intro x; have hx : Dev.Sound x; unfold x; rotate_left; clear_value x)
    | (intro x; have hx : Dev.Sound (Prod.snd x); unfold x; rotate_left; clear_value x) | lift_lets -underBinder
    | apply sound_ite | apply Dev.entWithout_sound | apply Dev.putEnt_sound | apply Dev.modEnt_sound
    | apply Dev.setTxn_sound | split)

theorem Dev.removeAgent_sound {d : Dev} {a : Nat} {send : Bool} (h_d : d.Sound) : (Dev.removeAgent d a send).Sound := by
  unfold Dev.removeAgent
  (try lift_lets -underBinder)
  with_reducible repeat' (first
    | assumption | (intro x; have hx : Dev.Sound x; unfold x; rotate_left; clear_value x) | (intro _)
    | lift_lets -underBinder | apply sound_ite | apply sound_foldl | apply Dev.sweepAll_sound | apply Dev.dropAwait_sound
    | apply Dev.recallOrWait_sound | apply Dev.removeHolder_sound | apply Dev.notice_sound | split)

theorem Dev.trainStart_sound {d : Dev} {p : Nat} (h_d : d.Sound) : (Dev.trainStart d p).Sound := by
  unfold Dev.trainStart
  (try lift_lets -underBinder)
  with_reducible repeat' (first
    | assumption | (intro x; have hx : Dev.Sound x; unfold x; rotate_left; clear_value x) | (intro _)
    | lift_lets -underBinder | apply sound_ite | apply sound_foldl | apply Dev.setLanes_sound | apply Dev.setPortState_sound
    | apply Dev.modPort_sound | apply Dev.put_sound)

theorem Dev.perstGo_sound {d : Dev} (h_d : d.Sound) : (Dev.perstGo d).Sound := by
  unfold Dev.perstGo
  with_reducible repeat' (first
    | assumption | (intro _) | lift_lets -underBinder | apply sound_foldl | apply Dev.trainStart_sound
    | apply Dev.perstUpdate_sound)

theorem Dev.sendHot_sound {d : Dev} {q : Nat} (h_d : d.Sound) : (Dev.sendHot d q).Sound := by
  unfold Dev.sendHot
  (try lift_lets -underBinder)
  with_reducible repeat' (first
    | assumption | (intro x; have hx : Dev.Sound x; unfold x; rotate_left; clear_value x) | lift_lets -underBinder
    | apply sound_ite | apply Dev.emit_sound | apply Dev.put_sound | apply Dev.setPortState_sound | apply Dev.modPort_sound)

theorem Dev.toRemote_sound {d : Dev} {u : Nat} {t : Tgt} {b : Body} (h_d : d.Sound) : (Dev.toRemote d u t b).Sound := by
  unfold Dev.toRemote
  (try lift_lets -underBinder)
  with_reducible repeat' (first
    | assumption | (intro x; clear_value x) | apply Dev.pushRel_sound)

theorem Dev.remoteReset_sound {d : Dev} {u : Nat} {t : Tgt} {port : Bool} (h_d : d.Sound) : (Dev.remoteReset d u t port).Sound := by
  unfold Dev.remoteReset
  with_reducible repeat' (first
    | assumption | apply Dev.toRemote_sound)

theorem Dev.vcsReset_sound {d : Dev} {u : Nat} (h_d : d.Sound) : (Dev.vcsReset d u).Sound := by
  unfold Dev.vcsReset
  (try lift_lets -underBinder)
  with_reducible repeat' (first
    | assumption | (intro x; have hx : Dev.Sound x; unfold x; rotate_left; clear_value x) | (intro x; clear_value x)
    | (intro _) | lift_lets -underBinder | apply sound_ite | apply sound_foldl | apply Dev.remoteReset_sound
    | apply Dev.ldReset_sound | apply Dev.emit_sound | apply Dev.sendHot_sound | (simp only [sound_mk]; apply sound_of)
    | split)

theorem Dev.clearStatus_sound {d : Dev} {g : Pg} (h_d : d.Sound) : (Dev.clearStatus d g).Sound := by
  unfold Dev.clearStatus
  (try lift_lets -underBinder)
  with_reducible repeat' (first
    | assumption | (intro x; have hx : Dev.Sound x; unfold x; rotate_left; clear_value x) | (intro x; clear_value x)
    | (intro _) | lift_lets -underBinder | apply sound_foldl | apply Dev.put_sound | (simp only [sound_mk]; apply sound_of))

theorem Dev.dropWaits_sound {d : Dev} {sel : TrayEnt → Bool} {answer : Bool} (h_d : d.Sound) : (Dev.dropWaits d sel answer).Sound := by
  unfold Dev.dropWaits
  with_reducible repeat' (first
    | assumption | (intro x; have hx : Dev.Sound x; unfold x; rotate_left; clear_value x) | (intro x; clear_value x)
    | (intro _) | lift_lets -underBinder | apply sound_ite | apply sound_foldl | apply Dev.replyFail_sound
    | apply Dev.discard_sound | apply Dev.trayFree_sound)

theorem Dev.writeBackPort_sound {d : Dev} {p : Nat} (h_d : d.Sound) : (Dev.writeBackPort d p).Sound := by
  unfold Dev.writeBackPort
  with_reducible repeat' (first
    | assumption | (intro _) | lift_lets -underBinder | apply sound_ite | apply sound_foldl | apply Dev.sccVictim_sound)

theorem Dev.portResetNow_sound {d : Dev} {p st : Nat} (h_d : d.Sound) : (Dev.portResetNow d p st).Sound := by
  unfold Dev.portResetNow
  (try lift_lets -underBinder)
  with_reducible repeat' (first
    | assumption | (intro x; have hx : Dev.Sound x; unfold x; rotate_left; clear_value x) | (intro x; clear_value x)
    | (intro _) | lift_lets -underBinder | apply sound_ite | apply sound_foldl | apply Dev.writeBackPort_sound
    | apply Dev.dropWaits_sound | apply Dev.removeAgent_sound | apply Dev.clearStatus_sound | apply Dev.linkToDown_sound
    | apply Dev.flushAnswered_sound | apply Dev.dropReleased_sound | apply Dev.answerEnded_sound | apply Dev.failOutst_sound
    | apply Dev.linkStop_sound | apply Dev.put_sound | apply Dev.modPort_sound | apply Dev.endpointReset_sound
    | apply Dev.raiseDue_sound | (simp only [sound_mk]; apply sound_of) | split)

theorem Dev.portResetStart_sound {d : Dev} {p : Nat} (h_d : d.Sound) : (Dev.portResetStart d p).Sound := by
  unfold Dev.portResetStart
  (try lift_lets -underBinder)
  with_reducible repeat' (first
    | assumption | (intro x; have hx : Dev.Sound x; unfold x; rotate_left; clear_value x) | (intro _)
    | lift_lets -underBinder | apply sound_ite | apply sound_foldl | apply Dev.modPort_sound | apply Dev.sweepAll_sound
    | apply Dev.recallOrWait_sound | apply Dev.portResetNow_sound | apply Dev.perstGo_sound | split)

theorem Dev.portResetOver_sound {d : Dev} {p : Nat} (h_d : d.Sound) : (Dev.portResetOver d p).Sound := by
  unfold Dev.portResetOver
  with_reducible repeat' (first
    | assumption | lift_lets -underBinder | apply Dev.put_sound | apply Dev.perstGo_sound | apply Dev.trainStart_sound)

theorem Dev.rstIgnored_sound {d : Dev} (h_d : d.Sound) : (Dev.rstIgnored d).Sound := by
  unfold Dev.rstIgnored
  with_reducible repeat' (first
    | assumption | apply Dev.raise_sound)

theorem Dev.rstLog_sound {d : Dev} {scope trigger target path : Nat} {escalated : Bool} (h_d : d.Sound) : (Dev.rstLog d scope trigger target path escalated).Sound := by
  unfold Dev.rstLog
  (try lift_lets -underBinder)
  with_reducible repeat' (first
    | assumption | (intro x; have hx : Dev.Sound x; unfold x; rotate_left; clear_value x) | lift_lets -underBinder
    | apply Dev.setWord_sound | apply Dev.put_sound)

theorem Dev.hostReset_sound {d : Dev} {p trigger : Nat} (h_d : d.Sound) : (Dev.hostReset d p trigger).Sound := by
  unfold Dev.hostReset
  (try lift_lets -underBinder)
  with_reducible repeat' (first
    | assumption | (intro x; have hx : Dev.Sound x; unfold x; rotate_left; clear_value x) | lift_lets -underBinder
    | apply sound_ite | apply Dev.rstIgnored_sound | apply Dev.rstLog_sound | apply Dev.vcsReset_sound
    | apply Dev.portResetNow_sound | apply Dev.portResetOver_sound)

theorem Dev.perstIn_sound {d : Dev} {i : Nat} {on : Bool} (h_d : d.Sound) : (Dev.perstIn d i on).Sound := by
  unfold Dev.perstIn
  (try lift_lets -underBinder)
  with_reducible repeat' (first
    | assumption | (intro x; have hx : Dev.Sound x; unfold x; rotate_left; clear_value x) | (intro x; clear_value x)
    | (intro _) | lift_lets -underBinder | apply sound_ite | apply sound_foldl | apply Dev.put_sound
    | apply Dev.hostReset_sound | apply Dev.portResetOver_sound)

theorem Dev.surpriseDown_sound {d : Dev} {p : Nat} (h_d : d.Sound) : (Dev.surpriseDown d p).Sound := by
  unfold Dev.surpriseDown
  (try lift_lets -underBinder)
  with_reducible repeat' (first
    | assumption | (intro x; have hx : Dev.Sound x; unfold x; rotate_left; clear_value x) | lift_lets -underBinder
    | apply Dev.raise_sound | apply Dev.failOutst_sound | apply Dev.removeTargets_sound | apply Dev.removalNotice_sound)

theorem Dev.portLinkDown_sound {d : Dev} {p : Nat} (h_d : d.Sound) : (Dev.portLinkDown d p).Sound := by
  unfold Dev.portLinkDown
  (try lift_lets -underBinder)
  with_reducible repeat' (first
    | assumption | (intro x; have hx : Dev.Sound x; unfold x; rotate_left; clear_value x) | (intro x; clear_value x)
    | lift_lets -underBinder | apply sound_ite | apply Dev.raise_sound | apply Dev.answerEnded_sound
    | apply Dev.linkStop_sound | apply Dev.modPort_sound | apply Dev.raiseDue_sound | apply Dev.surpriseDown_sound
    | apply Dev.declareDead_sound | (refine Dev.flushAnswered_at ‹_ = _› ?_) | split)

theorem Dev.setSlot_sound {d : Dev} {n : Nat} {x : Slot} (h_d : d.Sound) : (Dev.setSlot d n x).Sound := by
  unfold Dev.setSlot
  with_reducible repeat' (first
    | assumption | (simp only [sound_mk]; apply sound_of))

theorem Dev.slotGo_sound {d : Dev} {n : Nat} (h_d : d.Sound) : (Dev.slotGo d n).Sound := by
  unfold Dev.slotGo
  with_reducible repeat' (first
    | assumption | lift_lets -underBinder | apply sound_ite | apply Dev.put_sound)

theorem Dev.slotFault_sound {d : Dev} {n : Nat} (h_d : d.Sound) : (Dev.slotFault d n).Sound := by
  unfold Dev.slotFault
  with_reducible repeat' (first
    | assumption | (intro _) | lift_lets -underBinder | apply sound_foldl | apply Dev.slotFlag_sound)

theorem Dev.slotOnNow_sound {d : Dev} {n : Nat} (h_d : d.Sound) : (Dev.slotOnNow d n).Sound := by
  unfold Dev.slotOnNow
  (try lift_lets -underBinder)
  with_reducible repeat' (first
    | assumption | (intro x; have hx : Dev.Sound x; unfold x; rotate_left; clear_value x) | lift_lets -underBinder
    | apply sound_ite | apply Dev.put_sound | apply Dev.endQuar_sound | apply Dev.slotGo_sound)

theorem Dev.slotOnCmd_sound {d : Dev} {n : Nat} (h_d : d.Sound) : (Dev.slotOnCmd d n).Sound := by
  unfold Dev.slotOnCmd
  with_reducible repeat' (first
    | assumption | lift_lets -underBinder | apply sound_ite | apply Dev.slotOnNow_sound)

theorem Dev.slotOffCmd_sound {d : Dev} {n : Nat} (h_d : d.Sound) : (Dev.slotOffCmd d n).Sound := by
  unfold Dev.slotOffCmd
  with_reducible repeat' (first
    | assumption | lift_lets -underBinder | apply sound_ite | apply Dev.put_sound | apply Dev.slotOff_sound)

theorem Dev.slotClearFet_sound {d : Dev} {n vout : Nat} (h_d : d.Sound) : (Dev.slotClearFet d n vout).Sound := by
  unfold Dev.slotClearFet
  with_reducible repeat' (first
    | assumption | lift_lets -underBinder | apply sound_ite | apply Dev.put_sound | apply Dev.slotGo_sound)

theorem Dev.slotTrip_sound {d : Dev} {n code : Nat} {s : FSrc} (h_d : d.Sound) : (Dev.slotTrip d n code s).Sound := by
  unfold Dev.slotTrip
  (try lift_lets -underBinder)
  with_reducible repeat' (first
    | assumption | (intro x; have hx : Dev.Sound x; unfold x; rotate_left; clear_value x) | (intro x; clear_value x)
    | lift_lets -underBinder | apply sound_ite | apply Dev.put_sound | apply Dev.setSlot_sound | apply Dev.slotOff_sound
    | apply Dev.raise_sound | apply Dev.slotFault_sound)

theorem Dev.prsntNow_sound {d : Dev} {n : Nat} {on : Bool} (h_d : d.Sound) : (Dev.prsntNow d n on).Sound := by
  unfold Dev.prsntNow
  (try lift_lets -underBinder)
  with_reducible repeat' (first
    | assumption | (intro x; have hx : Dev.Sound x; unfold x; rotate_left; clear_value x) | (intro x; clear_value x)
    | (intro _) | lift_lets -underBinder | apply sound_foldl | apply Dev.put_sound | apply Dev.setSlot_sound
    | apply Dev.raise_sound | apply Dev.slotFlag_sound)

theorem Dev.prsntSet_sound {d : Dev} {n : Nat} {on : Bool} (h_d : d.Sound) : (Dev.prsntSet d n on).Sound := by
  unfold Dev.prsntSet
  with_reducible repeat' (first
    | assumption | lift_lets -underBinder | apply sound_ite | apply Dev.prsntNow_sound | apply Dev.slotGo_sound
    | apply Dev.put_sound | apply Dev.slotOff_sound)

theorem Dev.slotsOff_sound {d : Dev} (h_d : d.Sound) : (Dev.slotsOff d).Sound := by
  unfold Dev.slotsOff
  with_reducible repeat' (first
    | assumption | (intro _) | lift_lets -underBinder | apply sound_foldl | apply Dev.slotOff_sound)

theorem Dev.slotsClear_sound {d : Dev} {enN : Bool} (h_d : d.Sound) : (Dev.slotsClear d enN).Sound := by
  unfold Dev.slotsClear
  (try lift_lets -underBinder)
  with_reducible repeat' (first
    | assumption | (intro x; have hx : Dev.Sound x; unfold x; rotate_left; clear_value x) | (intro x; clear_value x)
    | (intro _) | lift_lets -underBinder | apply sound_foldl | apply Dev.slotsOff_sound | apply Dev.setWord_sound
    | apply Dev.put_sound | (simp only [sound_mk]; apply sound_of))

theorem Dev.timeStepped_sound {d : Dev} {delta : Int} (h_d : d.Sound) : (Dev.timeStepped d delta).Sound := by
  unfold Dev.timeStepped
  (try lift_lets -underBinder)
  with_reducible repeat' (first
    | assumption | (intro x; clear_value x) | (intro _) | lift_lets -underBinder | apply sound_ite | apply sound_foldl
    | apply Dev.regate_sound | apply Dev.raise_sound)

theorem Dev.holdover_sound {d : Dev} (h_d : d.Sound) : (Dev.holdover d).Sound := by
  unfold Dev.holdover
  (try lift_lets -underBinder)
  with_reducible repeat' (first
    | assumption | (intro x; have hx : Dev.Sound x; unfold x; rotate_left; clear_value x)
    | (intro x; have hx : Obs := x; clear hx; unfold x; clear x) | (intro x; clear_value x) | lift_lets -underBinder
    | apply sound_ite | apply Dev.put_sound | apply Dev.raise_sound | (simp only [sound_mk]; apply sound_of))

theorem Dev.trackCheck_sound {d : Dev} (h_d : d.Sound) : (Dev.trackCheck d).Sound := by
  unfold Dev.trackCheck
  with_reducible repeat' (first
    | assumption | lift_lets -underBinder | apply sound_ite | apply Dev.put_sound | apply Dev.holdover_sound | split)

theorem Dev.clockEdge_sound {d : Dev} (h_d : d.Sound) : (Dev.clockEdge d).Sound := by
  unfold Dev.clockEdge
  (try lift_lets -underBinder)
  with_reducible repeat' (first
    | assumption | (intro x; have hx : Dev.Sound x; unfold x; rotate_left; clear_value x)
    | (intro x; have hx : Obs := x; clear hx; unfold x; clear x) | (intro x; clear_value x) | lift_lets -underBinder
    | apply Dev.tick_sound | apply Dev.setFab_sound | apply Dev.timeStepped_sound | apply Dev.trackCheck_sound
    | (simp only [sound_mk]; apply sound_of) | split)

theorem Dev.servo_sound {d : Dev} {theta : Int} (h_d : d.Sound) : (Dev.servo d theta).Sound := by
  unfold Dev.servo
  (try lift_lets -underBinder)
  with_reducible repeat' (first
    | assumption | (intro x; have hx : Dev.Sound x; unfold x; rotate_left; clear_value x)
    | (intro x; have hx : Obs := x; clear hx; unfold x; clear x) | (intro x; clear_value x) | lift_lets -underBinder
    | apply sound_ite | apply Dev.put_sound | (simp only [sound_mk]; apply sound_of))

theorem Dev.marginAbort_sound {d : Dev} {o : Nat} {ls : List Nat} (h_d : d.Sound) : (Dev.marginAbort d o ls).Sound := by
  unfold Dev.marginAbort
  with_reducible repeat' (first
    | assumption | lift_lets -underBinder | apply Dev.marginOff_sound | apply Dev.raiseDue_sound)

theorem Dev.marginPort_sound {d : Dev} {p : Nat} (h_d : d.Sound) : (Dev.marginPort d p).Sound := by
  unfold Dev.marginPort
  with_reducible repeat' (first
    | assumption | (intro _) | lift_lets -underBinder | apply sound_foldl | apply Dev.marginAbort_sound)

theorem Dev.laneCounts_sound {d : Dev} {o l corr sync err : Nat} (h_d : d.Sound) : (Dev.laneCounts d o l corr sync err).Sound := by
  unfold Dev.laneCounts
  (try lift_lets -underBinder)
  with_reducible repeat' (first
    | assumption | (intro x; have hx : Dev.Sound x; unfold x; rotate_left; clear_value x) | (intro x; clear_value x)
    | lift_lets -underBinder | apply sound_ite | apply Dev.modLane_sound | apply Dev.put_sound | apply Dev.marginAbort_sound
    | split)

theorem Dev.noteBr_sound {d : Dev} {p width rate : Nat} (h_d : d.Sound) : (Dev.noteBr d p width rate).Sound := by
  unfold Dev.noteBr
  (try lift_lets -underBinder)
  with_reducible repeat' (first
    | assumption | (intro x; have hx : Dev.Sound x; unfold x; rotate_left; clear_value x) | (intro x; clear_value x)
    | lift_lets -underBinder | apply sound_ite | apply Dev.setEgress_sound | apply Dev.put_sound | apply Dev.raise_sound)

theorem Dev.sendInit_sound {d : Dev} {k sub : Nat} (h_d : d.Sound) : (Dev.sendInit d k sub).Sound := by
  unfold Dev.sendInit
  with_reducible repeat' (first
    | assumption | apply Dev.sendPkt_sound)

theorem Dev.linkDownEv_sound {d : Dev} {k : Nat} (h_d : d.Sound) : (Dev.linkDownEv d k).Sound := by
  unfold Dev.linkDownEv
  with_reducible repeat' (first
    | assumption | lift_lets -underBinder | apply sound_ite | apply Dev.linkToDown_sound | apply Dev.raiseDue_sound
    | apply Dev.trackCheck_sound)

theorem Dev.seqReset_sound {d : Dev} {k : Nat} (h_d : d.Sound) : (Dev.seqReset d k).Sound := by
  unfold Dev.seqReset
  (try lift_lets -underBinder)
  with_reducible repeat' (first
    | assumption | (intro x; have hx : Dev.Sound x; unfold x; rotate_left; clear_value x) | (intro x; clear_value x)
    | lift_lets -underBinder | apply Dev.setTx_sound | apply Dev.put_sound | apply Dev.modLink_sound)

theorem Dev.initEnter_sound {d : Dev} {k : Nat} (h_d : d.Sound) : (Dev.initEnter d k).Sound := by
  unfold Dev.initEnter
  with_reducible repeat' (first
    | assumption | lift_lets -underBinder | apply Dev.seqReset_sound | apply Dev.modLink_sound | apply Dev.put_sound
    | apply Dev.sendInit_sound)

theorem Dev.initCredit_sound {d : Dev} {k : Nat} (h_d : d.Sound) : (Dev.initCredit d k).Sound := by
  unfold Dev.initCredit
  with_reducible repeat' (first
    | assumption | (intro _) | lift_lets -underBinder | apply sound_foldl | apply Dev.sendCredit_sound)

theorem Dev.activeEnter_sound {d : Dev} {k : Nat} (h_d : d.Sound) : (Dev.activeEnter d k).Sound := by
  unfold Dev.activeEnter
  (try lift_lets -underBinder)
  with_reducible repeat' (first
    | assumption | (intro x; have hx : Dev.Sound x; unfold x; rotate_left; clear_value x) | lift_lets -underBinder
    | apply Dev.put_sound | apply Dev.initCredit_sound | apply Dev.trackCheck_sound)

theorem Dev.keyTry_sound {d : Dev} {k : Nat} (h_d : d.Sound) : (Dev.keyTry d k).Sound := by
  unfold Dev.keyTry
  (try lift_lets -underBinder)
  with_reducible repeat' (first
    | assumption | (intro x; clear_value x) | lift_lets -underBinder | apply sound_ite | apply Dev.activeEnter_sound)

theorem Dev.drState_sound {d : Dev} {o st : Nat} (h_d : d.Sound) : (Dev.drState d o st).Sound := by
  unfold Dev.drState
  (try lift_lets -underBinder)
  with_reducible repeat' (first
    | assumption | (intro x; have hx : Dev.Sound x; unfold x; rotate_left; clear_value x) | lift_lets -underBinder
    | apply sound_ite | apply Dev.put_sound | apply Dev.modLink_sound | apply Dev.trackCheck_sound
    | apply Dev.initCredit_sound | apply Dev.sendNak_sound | apply Dev.linkDownEv_sound | split)

theorem Dev.unlockAll_sound {d : Dev} {o : Nat} (h_d : d.Sound) : (Dev.unlockAll d o).Sound := by
  unfold Dev.unlockAll
  (try lift_lets -underBinder)
  with_reducible repeat' (first
    | assumption | (intro x; have hx : Dev.Sound x; unfold x; rotate_left; clear_value x) | (intro x; clear_value x)
    | (intro _) | lift_lets -underBinder | apply sound_foldl | apply Dev.put_sound | apply Dev.modLane_sound
    | apply Dev.setOctet_sound)

theorem Dev.startTaps_sound {d : Dev} {o : Nat} {cached tx : Bool} (h_d : d.Sound) : (Dev.startTaps d o cached tx).Sound := by
  unfold Dev.startTaps
  with_reducible repeat' (first
    | assumption | (intro x; clear_value x) | (intro _) | lift_lets -underBinder | apply sound_foldl
    | apply Dev.modLane_sound)

theorem Dev.enterDrLock_sound {d : Dev} {o : Nat} (h_d : d.Sound) : (Dev.enterDrLock d o).Sound := by
  unfold Dev.enterDrLock
  (try lift_lets -underBinder)
  with_reducible repeat' (first
    | assumption | (intro x; have hx : Dev.Sound x; unfold x; rotate_left; clear_value x) | lift_lets -underBinder
    | apply Dev.drState_sound | apply Dev.marginAbort_sound | apply Dev.setLanes_sound | apply Dev.unlockAll_sound
    | apply Dev.startTaps_sound)

theorem Dev.enterFailed_sound {d : Dev} {o : Nat} {cal : Bool} {s : FSrc} (h_d : d.Sound) : (Dev.enterFailed d o cal s).Sound := by
  unfold Dev.enterFailed
  (try lift_lets -underBinder)
  with_reducible repeat' (first
    | assumption | (intro x; have hx : Dev.Sound x; unfold x; rotate_left; clear_value x) | (intro x; clear_value x)
    | lift_lets -underBinder | apply sound_ite | apply Dev.drState_sound | apply Dev.marginAbort_sound | apply Dev.put_sound
    | apply Dev.setOctet_sound | apply Dev.setLanes_sound | apply Dev.startTaps_sound | apply Dev.raise_sound)

theorem Dev.enterCal_sound {d : Dev} {o : Nat} (h_d : d.Sound) : (Dev.enterCal d o).Sound := by
  unfold Dev.enterCal
  (try lift_lets -underBinder)
  with_reducible repeat' (first
    | assumption | (intro x; have hx : Dev.Sound x; unfold x; rotate_left; clear_value x) | (intro x; clear_value x)
    | (intro _) | lift_lets -underBinder | apply sound_foldl | apply Dev.drState_sound | apply Dev.put_sound
    | apply Dev.marginAbort_sound | apply Dev.setLanes_sound | apply Dev.unlockAll_sound | apply Dev.setOctet_sound)

theorem Dev.recal_sound {d : Dev} {o : Nat} (h_d : d.Sound) : (Dev.recal d o).Sound := by
  unfold Dev.recal
  with_reducible repeat' (first
    | assumption | lift_lets -underBinder | apply sound_ite | apply Dev.enterCal_sound)

theorem Dev.calHold_sound {d : Dev} {o : Nat} (h_d : d.Sound) : (Dev.calHold d o).Sound := by
  unfold Dev.calHold
  (try lift_lets -underBinder)
  with_reducible repeat' (first
    | assumption | (intro x; have hx : Dev.Sound x; unfold x; rotate_left; clear_value x) | lift_lets -underBinder
    | apply sound_ite | apply Dev.put_sound)

theorem Dev.octetGo_sound {d : Dev} {o : Nat} (h_d : d.Sound) : (Dev.octetGo d o).Sound := by
  unfold Dev.octetGo
  with_reducible repeat' (first
    | assumption | (intro _) | lift_lets -underBinder | apply sound_ite | apply sound_foldl | apply Dev.put_sound
    | apply Dev.setLanes_sound | apply Dev.enterDrLock_sound | apply Dev.raise_sound | apply Dev.trainStart_sound
    | apply Dev.calHold_sound)

theorem Dev.pairGo_sound {d : Dev} {o : Nat} {was : Bool} (h_d : d.Sound) : (Dev.pairGo d o was).Sound := by
  unfold Dev.pairGo
  (try lift_lets -underBinder)
  with_reducible repeat' (first
    | assumption | (intro x; clear_value x) | lift_lets -underBinder | apply sound_ite | apply Dev.octetGo_sound)

theorem Dev.portLost_sound {d : Dev} {p : Nat} (h_d : d.Sound) : (Dev.portLost d p).Sound := by
  unfold Dev.portLost
  with_reducible repeat' (first
    | assumption | lift_lets -underBinder | apply sound_ite | apply Dev.linkDownEv_sound | apply Dev.marginPort_sound
    | apply Dev.portLinkDown_sound | apply Dev.linkStop_sound | apply Dev.raiseDue_sound | split)

theorem Dev.octetPllLoss_sound {d : Dev} {o : Nat} (h_d : d.Sound) : (Dev.octetPllLoss d o).Sound := by
  unfold Dev.octetPllLoss
  (try lift_lets -underBinder)
  with_reducible repeat' (first
    | assumption | (intro x; have hx : Dev.Sound x; unfold x; rotate_left; clear_value x) | (intro x; clear_value x)
    | (intro _) | lift_lets -underBinder | apply sound_foldl | apply Dev.portLost_sound | apply Dev.drState_sound
    | apply Dev.put_sound | apply Dev.setLanes_sound | apply Dev.unlockAll_sound | apply Dev.setOctet_sound
    | apply Dev.raise_sound | apply Dev.persist_sound)

theorem Dev.drRetrain_sound {d : Dev} {o : Nat} (h_d : d.Sound) : (Dev.drRetrain d o).Sound := by
  unfold Dev.drRetrain
  (try lift_lets -underBinder)
  with_reducible repeat' (first
    | assumption | (intro x; have hx : Dev.Sound x; unfold x; rotate_left; clear_value x) | lift_lets -underBinder
    | apply sound_ite | apply Dev.marginAbort_sound | apply Dev.drState_sound | apply Dev.setLanes_sound
    | apply Dev.unlockAll_sound | apply Dev.startTaps_sound)

theorem Dev.spareFail_sound {d : Dev} {k : Nat} (h_d : d.Sound) : (Dev.spareFail d k).Sound := by
  unfold Dev.spareFail
  with_reducible repeat' (first
    | assumption | lift_lets -underBinder | apply Dev.modLink_sound | apply Dev.raise_sound | apply Dev.drRetrain_sound)

theorem Dev.spareAsk_sound {d : Dev} {o lane : Nat} (h_d : d.Sound) : (Dev.spareAsk d o lane).Sound := by
  unfold Dev.spareAsk
  with_reducible repeat' (first
    | assumption | (intro x; clear_value x) | lift_lets -underBinder | apply sound_ite | apply Dev.modLink_sound
    | apply Dev.sendPkt_sound | split)

theorem Dev.laneOut_sound {d : Dev} {o l : Nat} {s : FSrc} (h_d : d.Sound) : (Dev.laneOut d o l s).Sound := by
  unfold Dev.laneOut
  (try lift_lets -underBinder)
  with_reducible repeat' (first
    | assumption | (intro x; have hx : Dev.Sound x; unfold x; rotate_left; clear_value x) | lift_lets -underBinder
    | apply sound_ite | apply Dev.raise_sound | apply Dev.modLane_sound | apply Dev.put_sound | apply Dev.spareAsk_sound)

theorem Dev.laneFail_sound {d : Dev} {o l : Nat} (h_d : d.Sound) : (Dev.laneFail d o l).Sound := by
  unfold Dev.laneFail
  with_reducible repeat' (first
    | assumption | lift_lets -underBinder | apply Dev.put_sound | apply Dev.marginAbort_sound | apply Dev.laneOut_sound)

theorem Dev.lockLost_sound {d : Dev} {o lane : Nat} (h_d : d.Sound) : (Dev.lockLost d o lane).Sound := by
  unfold Dev.lockLost
  (try lift_lets -underBinder)
  with_reducible repeat' (first
    | assumption | (intro x; have hx : Dev.Sound x; unfold x; rotate_left; clear_value x) | lift_lets -underBinder
    | apply sound_ite | apply Dev.put_sound | apply Dev.modLane_sound | apply Dev.marginAbort_sound | apply Dev.raise_sound
    | apply Dev.enterDrLock_sound | apply Dev.laneFail_sound)

theorem Dev.laneHeader_sound {d : Dev} {o lane h : Nat} (h_d : d.Sound) : (Dev.laneHeader d o lane h).Sound := by
  unfold Dev.laneHeader
  (try lift_lets -underBinder)
  with_reducible repeat' (first
    | assumption | (intro x; have hx : Dev.Sound x; unfold x; rotate_left; clear_value x) | (intro x; clear_value x)
    | lift_lets -underBinder | apply sound_ite | apply Dev.modLane_sound | apply Dev.lockLost_sound)

end Sys2Proof.Machine
end

