-- ==== Sys2Proof/Laws/SoundControl.lean ====
section
/-! SUPPORT. One lemma per operation: it keeps `Dev.Sound`. Here: commits, resets, CXL ports, Proof and observability registers. -/

namespace Sys2Proof.Machine

theorem Dev.activateUe_sound {d : Dev} {g : Pg} (h_d : d.Sound) : (Dev.activateUe d g).Sound := by
  unfold Dev.activateUe
  (try lift_lets -underBinder)
  with_reducible repeat' (first
    | assumption | (intro x; clear_value x) | (simp only [sound_mk]; apply sound_of))

theorem Dev.activate_sound {d : Dev} {g : Pg} (h_d : d.Sound) : (Dev.activate d g).Sound := by
  unfold Dev.activate
  (try lift_lets -underBinder)
  with_reducible repeat' (first
    | assumption | (intro x; have hx : Dev.Sound x; unfold x; rotate_left; clear_value x) | (intro x; clear_value x)
    | (intro _) | lift_lets -underBinder | apply sound_foldl | apply Dev.put_sound | apply Dev.activateUe_sound
    | (simp only [sound_mk]; apply sound_of))

theorem Dev.unshadow_sound {d : Dev} {g : Pg} (h_d : d.Sound) : (Dev.unshadow d g).Sound := by
  unfold Dev.unshadow
  (try lift_lets -underBinder)
  with_reducible repeat' (first
    | assumption | (intro x; have hx : Dev.Sound x; unfold x; rotate_left; clear_value x) | (intro x; clear_value x)
    | (intro _) | lift_lets -underBinder | apply sound_foldl | apply Dev.putSh_sound
    | (simp only [sound_mk]; apply sound_of))

theorem Dev.putPend_sound {d : Dev} {g : Pg} {on : Bool} (h_d : d.Sound) : (Dev.putPend d g on).Sound := by
  unfold Dev.putPend
  with_reducible repeat' (first
    | assumption | apply Dev.put_sound)

theorem Dev.putBusy_sound {d : Dev} {g : Pg} {on : Bool} (h_d : d.Sound) : (Dev.putBusy d g on).Sound := by
  unfold Dev.putBusy
  with_reducible repeat' (first
    | assumption | apply Dev.put_sound)

theorem Dev.putApplied_sound {d : Dev} {g : Pg} {on : Bool} (h_d : d.Sound) : (Dev.putApplied d g on).Sound := by
  unfold Dev.putApplied
  with_reducible repeat' (first
    | assumption | apply Dev.put_sound)

theorem Dev.bgEnd_sound {d : Dev} {g : Pg} {code : Nat} (h_d : d.Sound) : (Dev.bgEnd d g code).Sound := by
  unfold Dev.bgEnd
  (try lift_lets -underBinder)
  with_reducible repeat' (first
    | assumption | (intro x; clear_value x) | lift_lets -underBinder | apply sound_ite | apply Dev.emit_sound
    | (simp only [sound_mk]; apply sound_of))

theorem Dev.cmtRefuse_sound {d : Dev} {g : Pg} {code : Nat} (h_d : d.Sound) : (Dev.cmtRefuse d g code).Sound := by
  unfold Dev.cmtRefuse
  (try lift_lets -underBinder)
  with_reducible repeat' (first
    | assumption | (intro x; have hx : Dev.Sound x; unfold x; rotate_left; clear_value x) | (intro x; clear_value x)
    | lift_lets -underBinder | apply sound_ite | apply Dev.put_sound | apply Dev.putPend_sound | apply Dev.putBusy_sound
    | apply Dev.bgEnd_sound | apply Dev.irq_sound | (simp only [sound_mk]; apply sound_of))

theorem Dev.sdsPre_sound {d n : Dev} {o : Nat} (h_d : d.Sound) (h_n : n.Sound) : (Dev.sdsPre d n o).Sound := by
  unfold Dev.sdsPre
  with_reducible repeat' (first
    | assumption | (intro _) | lift_lets -underBinder | apply sound_ite | apply sound_foldl | apply Dev.portLost_sound)

theorem Dev.sdsPost_sound {d old : Dev} {o : Nat} (h_d : d.Sound) (h_old : old.Sound) : (Dev.sdsPost d old o).Sound := by
  unfold Dev.sdsPost
  (try lift_lets -underBinder)
  with_reducible repeat' (first
    | assumption | (intro x; have hx : Dev.Sound x; unfold x; rotate_left; clear_value x) | (intro x; clear_value x)
    | lift_lets -underBinder | apply sound_ite | apply Dev.endQuar_sound | apply Dev.recal_sound
    | apply Dev.putApplied_sound | apply Dev.pairGo_sound | apply Dev.enterCal_sound | apply Dev.octetGo_sound)

theorem Dev.sdsPages_sound {d : Dev} {o : Nat} (h_d : d.Sound) : (Dev.sdsPages d o).Sound := by
  unfold Dev.sdsPages
  (try lift_lets -underBinder)
  with_reducible repeat' (first
    | assumption | (intro x; clear_value x) | (intro _) | lift_lets -underBinder | apply sound_ite | apply sound_foldl
    | apply Dev.put_sound)

theorem Dev.prtPre_sound {d n : Dev} {p : Nat} (h_d : d.Sound) (h_n : n.Sound) : (Dev.prtPre d n p).Sound := by
  unfold Dev.prtPre
  with_reducible repeat' (first
    | assumption | lift_lets -underBinder | apply sound_ite | apply Dev.portLost_sound | apply Dev.linkStop_sound
    | apply Dev.raiseDue_sound)

theorem Dev.prtPost_sound {d old : Dev} {p : Nat} (h_d : d.Sound) (h_old : old.Sound) : (Dev.prtPost d old p).Sound := by
  unfold Dev.prtPost
  with_reducible repeat' (first
    | assumption | lift_lets -underBinder | apply sound_ite | apply Dev.putApplied_sound | apply Dev.perstGo_sound
    | apply Dev.trainStart_sound)

theorem Dev.drlPost_sound {d old : Dev} {k : Nat} (h_d : d.Sound) (h_old : old.Sound) : (Dev.drlPost d old k).Sound := by
  unfold Dev.drlPost
  (try lift_lets -underBinder)
  with_reducible repeat' (first
    | assumption | (intro x; have hx : Dev.Sound x; unfold x; rotate_left; clear_value x) | (intro x; clear_value x)
    | lift_lets -underBinder | apply sound_ite | apply Dev.endQuar_sound | apply Dev.linkDownEv_sound
    | apply Dev.modLink_sound | apply Dev.putApplied_sound)

theorem Dev.resealScan_sound {d : Dev} {s : Nat} (h_d : d.Sound) : (Dev.resealScan d s).Sound := by
  unfold Dev.resealScan
  (try lift_lets -underBinder)
  with_reducible repeat' (first
    | assumption | (intro x; have hx : Dev.Sound x; unfold x; rotate_left; clear_value x) | (intro _)
    | lift_lets -underBinder | apply sound_ite | apply sound_foldl | apply Dev.dirSweep_sound | apply Dev.raiseDue_sound
    | apply Dev.runHome_sound | apply Dev.sccVictim_sound | split)

theorem Dev.ovnPost_sound {d old : Dev} {s : Nat} (h_d : d.Sound) (h_old : old.Sound) : (Dev.ovnPost d old s).Sound := by
  unfold Dev.ovnPost
  (try lift_lets -underBinder)
  with_reducible repeat' (first
    | assumption | (intro x; have hx : Dev.Sound x; unfold x; rotate_left; clear_value x) | lift_lets -underBinder
    | apply sound_ite | apply Dev.putApplied_sound | apply Dev.modHome_sound | apply Dev.resealScan_sound)

theorem Dev.arbPost_sound {d old : Dev} {s : Nat} {wr : List ((Nat × Nat) × Nat)} (h_d : d.Sound) (h_old : old.Sound) : (Dev.arbPost d old s wr).Sound := by
  unfold Dev.arbPost
  (try lift_lets -underBinder)
  with_reducible repeat' (first
    | assumption | (intro x; have hx : Dev.Sound x; unfold x; rotate_left; clear_value x) | (intro x; clear_value x)
    | (intro _) | lift_lets -underBinder | apply sound_ite | apply sound_foldl | apply Dev.putApplied_sound
    | apply Dev.put_sound | apply Dev.presentAll_sound | (simp only [sound_mk]; apply sound_of))

theorem Dev.polPost_sound {d old : Dev} {p : Nat} (h_d : d.Sound) (h_old : old.Sound) : (Dev.polPost d old p).Sound := by
  unfold Dev.polPost
  with_reducible repeat' (first
    | assumption | (intro x; clear_value x) | (intro _) | lift_lets -underBinder | apply sound_ite | apply sound_foldl
    | apply Dev.setMeter_sound | apply Dev.putApplied_sound)

theorem Dev.gtePost_sound {d old : Dev} {q : Nat} (h_d : d.Sound) (h_old : old.Sound) : (Dev.gtePost d old q).Sound := by
  unfold Dev.gtePost
  with_reducible repeat' (first
    | assumption | (intro x; clear_value x) | lift_lets -underBinder | apply Dev.setEgress_sound | apply Dev.regate_sound
    | apply Dev.put_sound | apply Dev.putApplied_sound)

theorem Dev.dirPost_sound {d old : Dev} {s : Nat} (h_d : d.Sound) (h_old : old.Sound) : (Dev.dirPost d old s).Sound := by
  unfold Dev.dirPost
  (try lift_lets -underBinder)
  with_reducible repeat' (first
    | assumption | (intro x; have hx : Dev.Sound x; unfold x; rotate_left; clear_value x) | (intro x; clear_value x)
    | (intro _) | lift_lets -underBinder | apply sound_foldl | apply Dev.putApplied_sound | apply Dev.setSuspect_sound
    | (simp only [sound_mk]; apply sound_of))

theorem Dev.dmvPost_sound {d old : Dev} {e : Nat} (h_d : d.Sound) (h_old : old.Sound) : (Dev.dmvPost d old e).Sound := by
  unfold Dev.dmvPost
  (try lift_lets -underBinder)
  with_reducible repeat' (first
    | assumption | (intro x; have hx : Dev.Sound x; unfold x; rotate_left; clear_value x) | (intro x; clear_value x)
    | (intro _) | lift_lets -underBinder | apply sound_ite | apply sound_foldl | apply Dev.putApplied_sound
    | apply Dev.dropVfs_sound | apply Dev.removeQueues_sound | apply Dev.allocFn_sound)

theorem Dev.recallEntry_sound {d : Dev} {u : Nat} {x : Hdm} {skip : List (Option Tgt)} (h_d : d.Sound) : (Dev.recallEntry d u x skip).2.Sound := by
  unfold Dev.recallEntry
  (try lift_lets -underBinder)
  with_reducible repeat' (first
    | assumption | (intro x; clear_value x) | (intro _) | lift_lets -underBinder | apply sound_ite | apply sound_foldl
    | apply Dev.beginFlight_sound | apply Dev.recallOrWait_sound | split)
theorem Dev.decPre_sound {d n : Dev} {s : Nat} (h_d : d.Sound) (h_n : n.Sound) : (Dev.decPre d n s).Sound := by
  unfold Dev.decPre
  (try lift_lets -underBinder)
  with_reducible repeat' (first
    | assumption | (intro x; have hx : Dev.Sound x; unfold x; rotate_left; clear_value x) | (intro x; clear_value x)
    | (intro _) | lift_lets -underBinder | apply sound_ite | apply sound_foldl | apply sound_foldlp
    | apply Dev.migrStop_sound | apply Dev.put_sound | apply Dev.removeTarget_sound | apply Dev.recallEntry_sound
    | apply Dev.sweepAll_sound | apply Dev.addLines_sound | split)

theorem Dev.decPost_sound {d old : Dev} {s : Nat} {wr : List ((Nat × Nat) × Nat)} (h_d : d.Sound) (h_old : old.Sound) : (Dev.decPost d old s wr).Sound := by
  unfold Dev.decPost
  (try lift_lets -underBinder)
  with_reducible repeat' (first
    | assumption | (intro x; have hx : Dev.Sound x; unfold x; rotate_left; clear_value x) | (intro x; clear_value x)
    | (intro _) | lift_lets -underBinder | apply sound_foldl | apply Dev.hotPlug_sound | apply Dev.setFenced_sound
    | apply Dev.quenchEnd_sound | (simp only [sound_mk]; apply sound_of))

theorem Dev.forceAbort_sound {d : Dev} {g : Pg} (h_d : d.Sound) : (Dev.forceAbort d g).Sound := by
  unfold Dev.forceAbort
  (try lift_lets -underBinder)
  with_reducible repeat' (first
    | assumption | (intro x; clear_value x) | (intro _) | lift_lets -underBinder | apply sound_foldl
    | apply Dev.abortDescs_sound)

theorem Dev.commitPre_sound {d n : Dev} {g : Pg} (h_d : d.Sound) (h_n : n.Sound) : (Dev.commitPre d n g).Sound := by
  unfold Dev.commitPre
  with_reducible repeat' (first
    | assumption | apply Dev.sdsPre_sound | apply Dev.prtPre_sound | apply Dev.decPre_sound | split)

theorem Dev.commitPrev_sound {d : Dev} {g : Pg} (h_d : d.Sound) : (Dev.commitPrev d g).Sound := by
  unfold Dev.commitPrev
  with_reducible repeat' (first
    | assumption | lift_lets -underBinder | apply sound_ite | apply Dev.savePrev_sound)

theorem Dev.commitPost_sound {d old : Dev} {g : Pg} {wr : List ((Nat × Nat) × Nat)} {reach : List Nat} (h_d : d.Sound) (h_old : old.Sound) : (Dev.commitPost d old g wr reach).Sound := by
  unfold Dev.commitPost
  with_reducible repeat' (first
    | assumption | lift_lets -underBinder | apply Dev.sdsPost_sound | apply Dev.sdsPages_sound | apply Dev.prtPost_sound
    | apply Dev.drlPost_sound | apply Dev.ovnPost_sound | apply Dev.arbPost_sound | apply Dev.polPost_sound
    | apply Dev.putApplied_sound | apply Dev.gtePost_sound | apply Dev.dirPost_sound | apply Dev.dmvPost_sound
    | apply Dev.decPost_sound | apply Dev.routeCommitted_sound | split)

theorem Dev.commitAccept_sound {d : Dev} {g : Pg} {force : Bool} (h_d : d.Sound) : (Dev.commitAccept d g force).Sound := by
  unfold Dev.commitAccept
  (try lift_lets -underBinder)
  with_reducible repeat' (first
    | assumption | (intro x; have hx : Dev.Sound x; unfold x; rotate_left; clear_value x) | (intro x; clear_value x)
    | lift_lets -underBinder | apply sound_ite | apply Dev.activate_sound | apply Dev.commitPre_sound
    | apply Dev.commitPrev_sound | apply Dev.raiseEpoch_sound | apply Dev.put_sound | apply Dev.putPend_sound
    | apply Dev.putBusy_sound | apply Dev.commitPost_sound | apply Dev.forceAbort_sound
    | (simp only [sound_mk]; apply sound_of))

theorem Dev.commitTake_sound {d : Dev} {c : HeldCommit} (h_d : d.Sound) : (Dev.commitTake d c).Sound := by
  unfold Dev.commitTake
  with_reducible repeat' (first
    | assumption | (intro x; have hx : Dev.Sound x; unfold x; rotate_left; clear_value x) | lift_lets -underBinder
    | apply sound_ite | apply Dev.put_sound | apply Dev.cmtRefuse_sound | apply Dev.commitAccept_sound | split)

theorem Dev.commitPoll_sound {d : Dev} {g : Pg} (h_d : d.Sound) : (Dev.commitPoll d g).Sound := by
  unfold Dev.commitPoll
  with_reducible repeat' (first
    | assumption | (intro x; have hx : Dev.Sound x; unfold x; rotate_left; clear_value x) | lift_lets -underBinder
    | apply sound_ite | apply Dev.putBusy_sound | apply Dev.forceAbort_sound | apply Dev.commitTake_sound | split)

theorem Dev.commitBegin_sound {d : Dev} {g : Pg} {force : Bool} (h_d : d.Sound) : (Dev.commitBegin d g force).Sound := by
  unfold Dev.commitBegin
  (try lift_lets -underBinder)
  with_reducible repeat' (first
    | assumption | (intro x; have hx : Dev.Sound x; unfold x; rotate_left; clear_value x) | (intro x; clear_value x)
    | apply Dev.putPend_sound | (simp only [sound_mk]; apply sound_of))

theorem Dev.commitReq_sound {d : Dev} {g : Pg} {force : Bool} (h_d : d.Sound) : (Dev.commitReq d g force).Sound := by
  unfold Dev.commitReq
  with_reducible repeat' (first
    | assumption | lift_lets -underBinder | apply sound_ite | apply Dev.cmtRefuse_sound | apply Dev.commitBegin_sound
    | apply Dev.commitPoll_sound)

theorem Dev.unbindDone_sound {d : Dev} {s : Nat} (h_d : d.Sound) : (Dev.unbindDone d s).Sound := by
  unfold Dev.unbindDone
  (try lift_lets -underBinder)
  with_reducible repeat' (first
    | assumption | (intro x; have hx : Dev.Sound x; unfold x; rotate_left; clear_value x) | (intro x; clear_value x)
    | (intro _) | lift_lets -underBinder | apply sound_foldl | apply Dev.hotPlug_sound
    | (simp only [sound_mk]; apply sound_of))

theorem Dev.epochEnd_sound {d : Dev} {g : Pg} (h_d : d.Sound) : (Dev.epochEnd d g).Sound := by
  unfold Dev.epochEnd
  (try lift_lets -underBinder)
  with_reducible repeat' (first
    | assumption | (intro x; have hx : Dev.Sound x; unfold x; rotate_left; clear_value x) | (intro x; clear_value x)
    | lift_lets -underBinder | apply sound_ite | apply Dev.putApplied_sound | apply Dev.unbindDone_sound
    | apply Dev.bgEnd_sound | apply Dev.commitPoll_sound | (simp only [sound_mk]; apply sound_of))

theorem Dev.epochApply_sound {d : Dev} {g : Pg} (h_d : d.Sound) : (Dev.epochApply d g).Sound := by
  unfold Dev.epochApply
  with_reducible repeat' (first
    | assumption | lift_lets -underBinder | apply sound_ite | apply Dev.epochEnd_sound)

theorem Dev.lockBroken_sound {d : Dev} {i cause : Nat} (h_d : d.Sound) : (Dev.lockBroken d i cause).Sound := by
  unfold Dev.lockBroken
  (try lift_lets -underBinder)
  with_reducible repeat' (first
    | assumption | (intro x; have hx : Dev.Sound x; unfold x; rotate_left; clear_value x) | (intro x; clear_value x)
    | lift_lets -underBinder | apply Dev.put_sound | apply Dev.raise_sound | apply Dev.irq_sound
    | (simp only [sound_mk]; apply sound_of))

theorem Dev.lockBreak_sound {d : Dev} {i cause : Nat} (h_d : d.Sound) : (Dev.lockBreak d i cause).Sound := by
  unfold Dev.lockBreak
  with_reducible repeat' (first
    | assumption | lift_lets -underBinder | apply sound_ite | apply Dev.lockBroken_sound)

theorem Dev.pathReset_sound {d : Dev} {path : Nat} (h_d : d.Sound) : (Dev.pathReset d path).Sound := by
  unfold Dev.pathReset
  with_reducible repeat' (first
    | assumption | (intro _) | lift_lets -underBinder | apply sound_ite | apply sound_foldl | apply Dev.lockBreak_sound)

theorem Dev.pfReset_sound {d : Dev} {up : Bool} (h_d : d.Sound) : (Dev.pfReset d up).Sound := by
  unfold Dev.pfReset
  (try lift_lets -underBinder)
  with_reducible repeat' (first
    | assumption | (intro x; have hx : Dev.Sound x; unfold x; rotate_left; clear_value x) | (intro x; clear_value x)
    | apply Dev.pathReset_sound | (simp only [sound_mk]; apply sound_of))

theorem Dev.queueReset_sound {d : Dev} {q : Nat} (h_d : d.Sound) : (Dev.queueReset d q).Sound := by
  unfold Dev.queueReset
  (try lift_lets -underBinder)
  with_reducible repeat' (first
    | assumption | (intro x; clear_value x) | lift_lets -underBinder | apply sound_ite | apply Dev.setQueue_sound
    | apply Dev.qReset_sound)

theorem Dev.ctxFlush_sound {d : Dev} (h_d : d.Sound) : (Dev.ctxFlush d).Sound := by
  unfold Dev.ctxFlush
  (try lift_lets -underBinder)
  with_reducible repeat' (first
    | assumption | (intro x; have hx : Dev.Sound x; unfold x; rotate_left; clear_value x)
    | (intro x; have hx : Larder := x; clear hx; unfold x; clear x) | (intro x; clear_value x) | (intro _)
    | lift_lets -underBinder | apply sound_foldl | apply Dev.setLword_sound | (simp only [sound_mk]; apply sound_of))

theorem Dev.recallAll_sound {d : Dev} {es : List DirEnt} (h_d : d.Sound) : (Dev.recallAll d es).Sound := by
  unfold Dev.recallAll
  with_reducible repeat' (first
    | assumption | (intro _) | lift_lets -underBinder | apply sound_ite | apply sound_foldl | apply Dev.recallOrWait_sound
    | split)

theorem Dev.quiesceStart_sound {d : Dev} {r : RstReq} {esc : Bool} (h_d : d.Sound) : (Dev.quiesceStart d r esc).Sound := by
  unfold Dev.quiesceStart
  (try lift_lets -underBinder)
  with_reducible repeat' (first
    | assumption | (intro x; have hx : Dev.Sound x; unfold x; rotate_left; clear_value x) | (intro x; clear_value x)
    | (intro _) | lift_lets -underBinder | apply sound_ite | apply sound_foldl | apply Dev.put_sound
    | apply Dev.flushCmb_sound | apply Dev.sweepAll_sound | apply Dev.recallAll_sound | apply Dev.writeBack_sound
    | (simp only [sound_mk]; apply sound_of))

theorem Dev.rstPrep_sound {d : Dev} {warm : Bool} (h_d : d.Sound) : (Dev.rstPrep d warm).Sound := by
  unfold Dev.rstPrep
  (try lift_lets -underBinder)
  with_reducible repeat' (first
    | assumption | (intro x; have hx : Dev.Sound x; unfold x; rotate_left; clear_value x) | (intro _)
    | lift_lets -underBinder | apply sound_ite | apply sound_foldl | apply Dev.lwriteBe_sound | apply Dev.removeQueues_sound
    | apply Dev.ctxFlush_sound | apply Dev.lockBreak_sound | apply Dev.pfReset_sound)

theorem Dev.rstKeep_sound {d : Dev} {sc : Scope} (h_d : d.Sound) : (Dev.rstKeep d sc).Sound := ⟨h_d.1, Nat.zero_le 4, h_d.2.2⟩

theorem Dev.rstFill_sound {n : Dev} {warm : Bool} {pwrfail : Nat} (h_n : n.Sound) : (Dev.rstFill n warm pwrfail).Sound := by
  unfold Dev.rstFill
  (try lift_lets -underBinder)
  with_reducible repeat' (first
    | assumption | (intro x; have hx : Dev.Sound x; unfold x; rotate_left; clear_value x) | (intro _)
    | lift_lets -underBinder | apply sound_ite | apply sound_foldl | apply Dev.put_sound | apply Dev.setPortState_sound)

theorem Dev.rstEnter_sound {d : Dev} {r : RstReq} {abandoned : Nat} (h_d : d.Sound) : (Dev.rstEnter d r abandoned).Sound := by
  unfold Dev.rstEnter
  (try lift_lets -underBinder)
  with_reducible repeat' (first
    | assumption | (intro x; have hx : Dev.Sound x; unfold x; rotate_left; clear_value x) | (intro x; clear_value x)
    | lift_lets -underBinder | apply sound_ite | apply Dev.rstPrep_sound | apply Dev.rstKeep_sound | apply Dev.rstLog_sound
    | apply Dev.put_sound | apply Dev.rstFill_sound | apply Dev.raise_sound)

theorem Dev.bigReq_sound {d : Dev} {sc : Scope} {trigger path : Nat} (h_d : d.Sound) : (Dev.bigReq d sc trigger path).Sound := by
  unfold Dev.bigReq
  (try lift_lets -underBinder)
  with_reducible repeat' (first
    | assumption | (intro x; clear_value x) | lift_lets -underBinder | apply sound_ite | apply Dev.rstIgnored_sound
    | apply Dev.rstEnter_sound | apply Dev.quiesceStart_sound | (simp only [sound_mk]; apply sound_of) | split)

theorem Dev.coldDev_sound {d : Dev} {phase : Phase} {pwrGood coldPin : Bool} : (Dev.coldDev d phase pwrGood coldPin).Sound := by
  have h : SoundF [] [] 750 := by unfold SoundF; decide
  exact h

theorem Dev.coldEnter_sound {d : Dev} {phase : Phase} {pwrGood coldPin : Bool} {trigger : Nat} (h_d : d.Sound) : (Dev.coldEnter d phase pwrGood coldPin trigger).Sound := by
  unfold Dev.coldEnter
  (try lift_lets -underBinder)
  with_reducible repeat' (first
    | assumption | (intro x; have hx : Dev.Sound x; unfold x; rotate_left; clear_value x) | lift_lets -underBinder
    | apply sound_ite | apply Dev.slotsOff_sound | apply Dev.coldDev_sound | apply Dev.slotsClear_sound
    | apply Dev.put_sound)

theorem Dev.flushCount_sound {d : Dev} {dest : Nat} (h_d : d.Sound) : (Dev.flushCount d dest).Sound := by
  unfold Dev.flushCount
  with_reducible repeat' (first
    | assumption | lift_lets -underBinder | apply sound_ite | apply Dev.inc_sound)

theorem Dev.flushRel_sound {d : Dev} {m : Msg} (h_d : d.Sound) : (Dev.flushRel d m).Sound := by
  unfold Dev.flushRel
  (try lift_lets -underBinder)
  with_reducible repeat' (first
    | assumption | (intro x; have hx : Dev.Sound x; unfold x; rotate_left; clear_value x) | lift_lets -underBinder
    | apply sound_ite | apply Dev.endFlight_sound | apply Dev.flushCount_sound)

theorem Dev.flushSources_sound {d : Dev} {s : Nat} (h_d : d.Sound) : (Dev.flushSources d s).Sound := by
  unfold Dev.flushSources
  (try lift_lets -underBinder)
  with_reducible repeat' (first
    | assumption | (intro x; have hx : Dev.Sound x; unfold x; rotate_left; clear_value x) | (intro x; clear_value x)
    | (intro _) | lift_lets -underBinder | apply sound_foldl | apply Dev.discard_sound | apply Dev.flushCount_sound
    | apply Dev.flushRel_sound | (simp only [sound_mk]; apply sound_of))

theorem Dev.flushArrived_sound {d : Dev} {s : Nat} (h_d : d.Sound) : (Dev.flushArrived d s).Sound := by
  unfold Dev.flushArrived
  (try lift_lets -underBinder)
  with_reducible repeat' (first
    | assumption | (intro x; have hx : Dev.Sound x; unfold x; rotate_left; clear_value x) | (intro x; clear_value x)
    | (intro _) | lift_lets -underBinder | apply sound_ite | apply sound_foldl | apply Dev.endFlight_sound
    | apply Dev.replyFail_sound | (simp only [sound_mk]; apply sound_of))

theorem Dev.sliceStart_sound {d : Dev} {s : Nat} (h_d : d.Sound) : (Dev.sliceStart d s).Sound := by
  unfold Dev.sliceStart
  (try lift_lets -underBinder)
  with_reducible repeat' (first
    | assumption | (intro x; have hx : Dev.Sound x; unfold x; rotate_left; clear_value x) | (intro _)
    | lift_lets -underBinder | apply sound_foldl | apply Dev.portResetStart_sound | apply Dev.dropWaits_sound
    | apply Dev.flushCmb_sound | apply Dev.dirSweep_sound | apply Dev.raiseDue_sound | apply Dev.recallAll_sound
    | apply Dev.writeBack_sound | apply Dev.queueReset_sound)

theorem Dev.sliceOver_sound {d : Dev} {s : Nat} (h_d : d.Sound) : (Dev.sliceOver d s).Sound := by
  unfold Dev.sliceOver
  (try lift_lets -underBinder)
  with_reducible repeat' (first
    | assumption | (intro x; have hx : Dev.Sound x; unfold x; rotate_left; clear_value x) | (intro x; clear_value x)
    | (intro _) | lift_lets -underBinder | apply sound_ite | apply sound_foldl | apply Dev.portResetNow_sound
    | apply Dev.perstGo_sound | apply Dev.failTxn_sound | apply Dev.failWaits_sound | apply Dev.trayFree_sound
    | apply Dev.flushSources_sound | apply Dev.flushArrived_sound | apply Dev.put_sound | apply Dev.setBlocks_sound
    | apply Dev.clearStatus_sound | apply Dev.portResetOver_sound | (simp only [sound_mk]; apply sound_of))

theorem Dev.domainStep_sound {d : Dev} {dom : Nat} (h_d : d.Sound) : (Dev.domainStep d dom).Sound := by
  unfold Dev.domainStep
  (try lift_lets -underBinder)
  with_reducible repeat' (first
    | assumption | (intro x; have hx : Dev.Sound x; unfold x; rotate_left; clear_value x) | (intro _)
    | lift_lets -underBinder | apply sound_ite | apply sound_foldl | apply Dev.recallAll_sound | apply Dev.writeBack_sound
    | apply Dev.freeEnt_sound)

theorem Dev.domainStart_sound {d : Dev} {dom : Nat} (h_d : d.Sound) : (Dev.domainStart d dom).Sound := by
  unfold Dev.domainStart
  (try lift_lets -underBinder)
  with_reducible repeat' (first
    | assumption | (intro x; have hx : Dev.Sound x; unfold x; rotate_left; clear_value x) | (intro x; clear_value x)
    | (intro _) | lift_lets -underBinder | apply sound_ite | apply sound_foldl | apply Dev.flushCmb_sound
    | apply Dev.queueReset_sound | apply Dev.setMeter_sound | apply Dev.sweepAll_sound | apply Dev.domainStep_sound)

theorem Dev.domainOver_sound {d : Dev} {dom : Nat} (h_d : d.Sound) : (Dev.domainOver d dom).Sound := by
  unfold Dev.domainOver
  (try lift_lets -underBinder)
  with_reducible repeat' (first
    | assumption | (intro x; clear_value x) | (simp only [sound_mk]; apply sound_of))

theorem Dev.rstPoll_sound {d : Dev} (h_d : d.Sound) : (Dev.rstPoll d).Sound := by
  unfold Dev.rstPoll
  with_reducible repeat' (first
    | assumption | (intro x; have hx : Dev.Sound x; unfold x; rotate_left; clear_value x) | (intro _)
    | lift_lets -underBinder | apply sound_ite | apply sound_foldl | apply Dev.recallAll_sound | apply Dev.writeBack_sound
    | apply Dev.sliceOver_sound | apply Dev.domainStep_sound | apply Dev.domainOver_sound | split)

theorem Dev.portResetEnd_sound {d : Dev} {p : Nat} (h_d : d.Sound) : (Dev.portResetEnd d p).Sound := by
  unfold Dev.portResetEnd
  with_reducible repeat' (first
    | assumption | lift_lets -underBinder | apply sound_ite | apply Dev.portResetOver_sound)

theorem Dev.portReq_sound {d : Dev} {p path : Nat} (h_d : d.Sound) : (Dev.portReq d p path).Sound := by
  unfold Dev.portReq
  with_reducible repeat' (first
    | assumption | lift_lets -underBinder | apply sound_ite | apply Dev.rstIgnored_sound | apply Dev.rstLog_sound
    | apply Dev.portResetStart_sound | apply Dev.portResetEnd_sound)

theorem Dev.sliceBegin_sound {d : Dev} {s path : Nat} (h_d : d.Sound) : (Dev.sliceBegin d s path).Sound := by
  unfold Dev.sliceBegin
  (try lift_lets -underBinder)
  with_reducible repeat' (first
    | assumption | (intro x; have hx : Dev.Sound x; unfold x; rotate_left; clear_value x) | (intro x; clear_value x)
    | lift_lets -underBinder | apply Dev.sliceStart_sound | apply Dev.rstPoll_sound | (simp only [sound_mk]; apply sound_of))

theorem Dev.domainBegin_sound {d : Dev} {dom path : Nat} (h_d : d.Sound) : (Dev.domainBegin d dom path).Sound := by
  unfold Dev.domainBegin
  (try lift_lets -underBinder)
  with_reducible repeat' (first
    | assumption | (intro x; have hx : Dev.Sound x; unfold x; rotate_left; clear_value x) | (intro x; clear_value x)
    | lift_lets -underBinder | apply Dev.domainStart_sound | apply Dev.rstPoll_sound
    | (simp only [sound_mk]; apply sound_of))

theorem Dev.sliceReq_sound {d : Dev} {s path : Nat} (h_d : d.Sound) : (Dev.sliceReq d s path).Sound := by
  unfold Dev.sliceReq
  (try lift_lets -underBinder)
  with_reducible repeat' (first
    | assumption | (intro x; clear_value x) | lift_lets -underBinder | apply sound_ite | apply Dev.rstIgnored_sound
    | apply Dev.rstLog_sound | apply Dev.sliceBegin_sound)

theorem Dev.domainReq_sound {d : Dev} {dom path : Nat} (h_d : d.Sound) : (Dev.domainReq d dom path).Sound := by
  unfold Dev.domainReq
  with_reducible repeat' (first
    | assumption | lift_lets -underBinder | apply sound_ite | apply Dev.rstIgnored_sound | apply Dev.rstLog_sound
    | apply Dev.domainBegin_sound)

theorem Dev.toRecovery_sound {d : Dev} {p : Nat} (h_d : d.Sound) : (Dev.toRecovery d p).Sound := by
  unfold Dev.toRecovery
  with_reducible repeat' (first
    | assumption | lift_lets -underBinder | apply sound_ite | apply Dev.marginPort_sound | apply Dev.setPortState_sound)

theorem Dev.narrow_sound {d : Dev} {p : Nat} (h_d : d.Sound) : (Dev.narrow d p).Sound := by
  unfold Dev.narrow
  with_reducible repeat' (first
    | assumption | (intro x; have hx : Dev.Sound x; unfold x; rotate_left; clear_value x) | (intro x; clear_value x)
    | (intro _) | lift_lets -underBinder | apply sound_foldl | apply Dev.marginPort_sound | apply Dev.portLinkDown_sound
    | apply Dev.toRecovery_sound | apply Dev.put_sound | apply Dev.noteBr_sound | split)

theorem Dev.laneGone_sound {d : Dev} {ol : Nat × Nat} (h_d : d.Sound) : (Dev.laneGone d ol).Sound := by
  unfold Dev.laneGone
  (try lift_lets -underBinder)
  with_reducible repeat' (first
    | assumption | (intro x; have hx : Dev.Sound x; unfold x; rotate_left; clear_value x) | lift_lets -underBinder
    | apply Dev.put_sound | apply Dev.marginAbort_sound | apply Dev.modLane_sound | apply Dev.raise_sound)

theorem Dev.putLink_sound {d : Dev} {p : Nat} {mem cache : Bool} {flit : Nat} {mld : Bool} {lds : Nat} {pcie : Bool} (h_d : d.Sound) : (Dev.putLink d p mem cache flit mld lds pcie).Sound := by
  unfold Dev.putLink
  (try lift_lets -underBinder)
  with_reducible repeat' (first
    | assumption | (intro x; have hx : Dev.Sound x; unfold x; rotate_left; clear_value x) | lift_lets -underBinder
    | apply Dev.put_sound)

theorem Dev.refusePartner_sound {d : Dev} {p : Nat} (h_d : d.Sound) : (Dev.refusePartner d p).Sound := by
  unfold Dev.refusePartner
  (try lift_lets -underBinder)
  with_reducible repeat' (first
    | assumption | (intro x; have hx : Dev.Sound x; unfold x; rotate_left; clear_value x) | (intro _)
    | lift_lets -underBinder | apply sound_foldl | apply Dev.setLanes_sound | apply Dev.setPortState_sound
    | apply Dev.modPort_sound | apply Dev.raise_sound)

theorem Dev.protocolNegotiationRow_sound {d : Dev} {p partner : Nat} (h_d : d.Sound) : (Dev.protocolNegotiationRow d p partner).Sound := by
  unfold Dev.protocolNegotiationRow
  (try lift_lets -underBinder)
  with_reducible repeat' (first
    | assumption | (intro x; clear_value x) | lift_lets -underBinder | apply sound_ite | apply Dev.setPortState_sound
    | apply Dev.modPort_sound | apply Dev.putLink_sound | apply Dev.refusePartner_sound)

theorem Dev.completionIn_sound {d : Dev} {p : Nat} {b : Body} {op : MOp} {poison : Bool} (h_d : d.Sound) : (Dev.completionIn d p b op poison).Sound := by
  unfold Dev.completionIn
  with_reducible repeat' (first
    | assumption | (intro x; have hx : Dev.Sound x; unfold x; rotate_left; clear_value x) | (intro x; clear_value x)
    | lift_lets -underBinder | apply Dev.modPort_sound | apply Dev.pushRel_sound | apply Dev.endAsk_sound
    | apply Dev.inc_sound | split)

theorem Dev.release_sound {d : Dev} {p : Nat} {b : Body} {poison : Bool} (h_d : d.Sound) : (Dev.release d p b poison).Sound := by
  unfold Dev.release
  (try lift_lets -underBinder)
  with_reducible repeat' (first
    | assumption | (intro x; have hx : Dev.Sound x; unfold x; rotate_left; clear_value x) | (intro x; clear_value x)
    | lift_lets -underBinder | apply sound_ite | apply Dev.count_sound | apply Dev.raise_sound
    | apply Dev.completionIn_sound | apply Dev.pushRel_sound | split)

theorem Dev.ideFail_sound {d : Dev} {p : Nat} (h_d : d.Sound) : (Dev.ideFail d p).Sound := by
  unfold Dev.ideFail
  (try lift_lets -underBinder)
  with_reducible repeat' (first
    | assumption | (intro x; have hx : Dev.Sound x; unfold x; rotate_left; clear_value x) | lift_lets -underBinder
    | apply Dev.modPort_sound | apply Dev.put_sound | apply Dev.raise_sound)

theorem Dev.dropMalformed_sound {d : Dev} {p : Nat} (h_d : d.Sound) : (Dev.dropMalformed d p).Sound := by
  unfold Dev.dropMalformed
  with_reducible repeat' (first
    | assumption | lift_lets -underBinder | apply Dev.inc_sound | apply Dev.raise_sound)

theorem Dev.complete_sound {d : Dev} {p : Nat} {l : List FlitPart} {f : Flit} (h_d : d.Sound) : (Dev.complete d p l f).Sound := by
  unfold Dev.complete
  (try lift_lets -underBinder)
  with_reducible repeat' (first
    | assumption | (intro x; have hx : Dev.Sound x; unfold x; rotate_left; clear_value x) | (intro x; clear_value x)
    | (intro _) | lift_lets -underBinder | apply sound_ite | apply sound_foldl | apply Dev.dropMalformed_sound
    | apply Dev.modPort_sound | apply Dev.release_sound | apply Dev.ideFail_sound | split)

theorem Dev.flitLanes_sound {d : Dev} {p : Nat} {f : Flit} (h_d : d.Sound) : (Dev.flitLanes d p f).Sound := by
  unfold Dev.flitLanes
  (try lift_lets -underBinder)
  with_reducible repeat' (first
    | assumption | (intro x; have hx : ∀ (e : Dev) y, Dev.Sound e → Dev.Sound (x e y); unfold x; rotate_left; clear_value x)
    | (intro x; clear_value x) | (intro _) | lift_lets -underBinder | apply sound_ite | apply sound_foldl
    | apply Dev.laneCounts_sound | split)

theorem Dev.flitGood_sound {d : Dev} {p : Nat} {f : Flit} (h_d : d.Sound) : (Dev.flitGood d p f).Sound := by
  unfold Dev.flitGood
  (try lift_lets -underBinder)
  with_reducible repeat' (first
    | assumption | (intro x; have hx : Dev.Sound x; unfold x; rotate_left; clear_value x) | (intro x; clear_value x)
    | apply Dev.modPort_sound | apply Dev.complete_sound)

theorem Dev.flitBad_sound {d : Dev} {p : Nat} (h_d : d.Sound) : (Dev.flitBad d p).Sound := by
  unfold Dev.flitBad
  (try lift_lets -underBinder)
  with_reducible repeat' (first
    | assumption | (intro x; have hx : Dev.Sound x; unfold x; rotate_left; clear_value x) | lift_lets -underBinder
    | apply Dev.modPort_sound | apply Dev.emit_sound | apply Dev.raise_sound)

theorem Dev.flitReceiveRow_sound {d : Dev} {p : Nat} {f : Flit} (h_d : d.Sound) : (Dev.flitReceiveRow d p f).Sound := by
  unfold Dev.flitReceiveRow
  (try lift_lets -underBinder)
  with_reducible repeat' (first
    | assumption | (intro x; have hx : Dev.Sound x; unfold x; rotate_left; clear_value x) | (intro x; clear_value x)
    | lift_lets -underBinder | apply sound_ite | apply Dev.flitLanes_sound | apply Dev.flitBad_sound
    | apply Dev.flitGood_sound)

theorem Dev.persFlush_sound {d : Dev} {u : Nat} (h_d : d.Sound) : (Dev.persFlush d u).Sound := by
  unfold Dev.persFlush
  (try lift_lets -underBinder)
  with_reducible repeat' (first
    | assumption | (intro x; have hx : Dev.Sound x; unfold x; rotate_left; clear_value x) | (intro _)
    | lift_lets -underBinder | apply sound_ite | apply sound_foldl | apply Dev.flushCmb_sound | apply Dev.sccVictim_sound)

theorem Dev.gpfEnd_sound {d : Dev} {u : Nat} {g : Gpf} {ok : Bool} (h_d : d.Sound) : (Dev.gpfEnd d u g ok).Sound := by
  unfold Dev.gpfEnd
  (try lift_lets -underBinder)
  with_reducible repeat' (first
    | assumption | (intro x; have hx : Dev.Sound x; unfold x; rotate_left; clear_value x) | (intro x; clear_value x)
    | lift_lets -underBinder | apply sound_ite | apply Dev.modPort_sound | apply Dev.hostReset_sound | apply Dev.emit_sound
    | apply Dev.put_sound)

theorem Dev.gpfTry_sound {d : Dev} {u : Nat} (h_d : d.Sound) : (Dev.gpfTry d u).Sound := by
  unfold Dev.gpfTry
  with_reducible repeat' (first
    | assumption | lift_lets -underBinder | apply sound_ite | apply Dev.gpfEnd_sound | split)

theorem Dev.gpfIssue_sound {d : Dev} {q phase u : Nat} (h_d : d.Sound) : (Dev.gpfIssue d q phase u).Sound := by
  unfold Dev.gpfIssue
  with_reducible repeat' (first
    | assumption | lift_lets -underBinder | apply Dev.emit_sound | apply Dev.modPort_sound)

theorem Dev.gpfPhaseRow_sound {d : Dev} {p phase : Nat} (h_d : d.Sound) : (Dev.gpfPhaseRow d p phase).Sound := by
  unfold Dev.gpfPhaseRow
  (try lift_lets -underBinder)
  with_reducible repeat' (first
    | assumption | (intro x; have hx : Dev.Sound x; unfold x; rotate_left; clear_value x) | (intro x; clear_value x)
    | (intro _) | lift_lets -underBinder | apply sound_ite | apply sound_foldl | apply Dev.modPort_sound
    | apply Dev.gpfEnd_sound | apply Dev.gpfIssue_sound | apply Dev.toRemote_sound | apply Dev.persFlush_sound)

theorem Dev.gpfReply_sound {d : Dev} {p g tc : Nat} (h_d : d.Sound) : (Dev.gpfReply d p g tc).Sound := by
  unfold Dev.gpfReply
  (try lift_lets -underBinder)
  with_reducible repeat' (first
    | assumption | (intro x; clear_value x) | apply Dev.pushRel_sound)

theorem Dev.gpfAnswerRow_sound {d : Dev} {p : Nat} (h_d : d.Sound) : (Dev.gpfAnswerRow d p).Sound := by
  unfold Dev.gpfAnswerRow
  with_reducible repeat' (first
    | assumption | (intro x; have hx : Dev.Sound x; unfold x; rotate_left; clear_value x) | (intro x; clear_value x)
    | lift_lets -underBinder | apply sound_ite | apply Dev.modPort_sound | apply Dev.gpfReply_sound | apply Dev.gpfTry_sound
    | (simp only [sound_mk]; apply sound_of) | split)

theorem Dev.gpfExpire_sound {d : Dev} {p : Nat} {g : Gpf} (h_d : d.Sound) : (Dev.gpfExpire d p g).Sound := by
  unfold Dev.gpfExpire
  (try lift_lets -underBinder)
  with_reducible repeat' (first
    | assumption | (intro x; have hx : Dev.Sound x; unfold x; rotate_left; clear_value x) | (intro x; clear_value x)
    | (intro _) | lift_lets -underBinder | apply sound_ite | apply sound_foldl | apply Dev.modPort_sound
    | apply Dev.raise_sound | apply Dev.hostReset_sound | apply Dev.emit_sound | apply Dev.put_sound)

theorem Dev.gpfLate_sound {d : Dev} {p : Nat} (h_d : d.Sound) : (Dev.gpfLate d p).Sound := by
  unfold Dev.gpfLate
  (try lift_lets -underBinder)
  with_reducible repeat' (first
    | assumption | (intro x; clear_value x) | (intro _) | lift_lets -underBinder | apply sound_foldl | apply Dev.raise_sound
    | apply Dev.modPort_sound)

theorem Dev.gpfTimeoutRow_sound {d : Dev} {p : Nat} (h_d : d.Sound) : (Dev.gpfTimeoutRow d p).Sound := by
  unfold Dev.gpfTimeoutRow
  with_reducible repeat' (first
    | assumption | lift_lets -underBinder | apply sound_ite | apply Dev.gpfLate_sound | apply Dev.gpfExpire_sound | split)

theorem Dev.askOut_sound {d : Dev} {p : Nat} {m : Msg} (h_d : d.Sound) : (Dev.askOut d p m).Sound := by
  unfold Dev.askOut
  (try lift_lets -underBinder)
  with_reducible repeat' (first
    | assumption | (intro x; have hx : Dev.Sound x; unfold x; rotate_left; clear_value x) | (intro x; clear_value x)
    | apply Dev.modPort_sound | apply Dev.emit_sound | (simp only [sound_mk]; apply sound_of))

theorem Dev.portOwn_sound {d : Dev} {p : Nat} {m : Msg} (h_d : d.Sound) : (Dev.portOwn d p m).Sound := by
  unfold Dev.portOwn
  with_reducible repeat' (first
    | assumption | lift_lets -underBinder | apply sound_ite | apply Dev.gpfIssue_sound | apply Dev.modPort_sound
    | apply Dev.gpfTry_sound | apply Dev.emit_sound | apply Dev.sendHot_sound | split)

theorem Dev.flitOut_sound {d : Dev} {p : Nat} (h_d : d.Sound) : (Dev.flitOut d p).Sound := by
  unfold Dev.flitOut
  (try lift_lets -underBinder)
  with_reducible repeat' (first
    | assumption | (intro x; have hx : Dev.Sound (Prod.snd x); unfold x; rotate_left; clear_value x)
    | lift_lets -underBinder | apply sound_ite | apply Dev.injectAt_sound | apply Dev.emit_sound)

theorem Dev.sendOut_sound {d : Dev} {p : Nat} {m : Msg} (h_d : d.Sound) : (Dev.sendOut d p m).Sound := by
  unfold Dev.sendOut
  (try lift_lets -underBinder)
  with_reducible repeat' (first
    | assumption | (intro x; have hx : Dev.Sound x; unfold x; rotate_left; clear_value x) | lift_lets -underBinder
    | apply sound_ite | apply Dev.count_sound | apply Dev.stampStart_sound | apply Dev.flitOut_sound | apply Dev.emit_sound
    | apply Dev.askOut_sound)

theorem Dev.ldMiss_sound {d : Dev} {p : Nat} {m : Msg} (h_d : d.Sound) : (Dev.ldMiss d p m).Sound := by
  unfold Dev.ldMiss
  (try lift_lets -underBinder)
  with_reducible repeat' (first
    | assumption | (intro x; have hx : Dev.Sound x; unfold x; rotate_left; clear_value x) | lift_lets -underBinder
    | apply sound_ite | apply Dev.decodeMiss_sound | apply Dev.endAsk_sound | apply Dev.answerMiss_sound
    | apply Dev.endAccess_sound)

theorem Dev.egressStartRow_sound {d : Dev} {p : Nat} (h_d : d.Sound) : (Dev.egressStartRow d p).Sound := by
  unfold Dev.egressStartRow
  (try lift_lets -underBinder)
  with_reducible repeat' (first
    | assumption | (intro x; have hx : Dev.Sound x; unfold x; rotate_left; clear_value x) | (intro x; clear_value x)
    | (intro _) | lift_lets -underBinder | apply sound_ite | apply sound_foldl | apply Dev.gateNote_sound
    | apply Dev.modPort_sound | apply Dev.portOwn_sound | apply Dev.ldMiss_sound | apply Dev.sendOut_sound | split)

theorem Dev.ideKeySwitchRow_sound {d : Dev} {p : Nat} (h_d : d.Sound) : (Dev.ideKeySwitchRow d p).Sound := by
  unfold Dev.ideKeySwitchRow
  with_reducible repeat' (first
    | assumption | lift_lets -underBinder | apply sound_ite | apply Dev.modPort_sound | apply Dev.put_sound)

theorem Dev.perstInAssertRow_sound {d : Dev} {i : Nat} (h_d : d.Sound) : (Dev.perstInAssertRow d i).Sound := by
  unfold Dev.perstInAssertRow
  with_reducible repeat' (first
    | assumption | apply Dev.perstIn_sound)

theorem Dev.perstInDeassertRow_sound {d : Dev} {i : Nat} (h_d : d.Sound) : (Dev.perstInDeassertRow d i).Sound := by
  unfold Dev.perstInDeassertRow
  with_reducible repeat' (first
    | assumption | apply Dev.perstIn_sound)

theorem Dev.perstOutDelayRow_sound {d : Dev} {p : Nat} (h_d : d.Sound) : (Dev.perstOutDelayRow d p).Sound := by
  unfold Dev.perstOutDelayRow
  with_reducible repeat' (first
    | assumption | lift_lets -underBinder | apply sound_ite | apply Dev.modPort_sound | apply Dev.perstGo_sound)

theorem Dev.perstOutHoldRow_sound {d : Dev} {p : Nat} (h_d : d.Sound) : (Dev.perstOutHoldRow d p).Sound := by
  unfold Dev.perstOutHoldRow
  with_reducible repeat' (first
    | assumption | lift_lets -underBinder | apply sound_ite | apply Dev.modPort_sound | apply Dev.portResetOver_sound)

theorem Dev.hotResetReceivedRow_sound {d : Dev} {p : Nat} (h_d : d.Sound) : (Dev.hotResetReceivedRow d p).Sound := by
  unfold Dev.hotResetReceivedRow
  with_reducible repeat' (first
    | assumption | lift_lets -underBinder | apply sound_ite | apply Dev.modPort_sound | apply Dev.hostReset_sound)

theorem Dev.hotResetRow_sound {d : Dev} {path p : Nat} (h_d : d.Sound) : (Dev.hotResetRow d path p).Sound := by
  unfold Dev.hotResetRow
  with_reducible repeat' (first
    | assumption | (intro _) | lift_lets -underBinder | apply sound_ite | apply Dev.access_sound | apply Dev.sendHot_sound)

theorem Dev.hotResetTimeoutRow_sound {d : Dev} {p : Nat} (h_d : d.Sound) : (Dev.hotResetTimeoutRow d p).Sound := by
  unfold Dev.hotResetTimeoutRow
  with_reducible repeat' (first
    | assumption | lift_lets -underBinder | apply sound_ite | apply Dev.portLinkDown_sound)

theorem Dev.retrainRow_sound {d : Dev} {path p : Nat} (h_d : d.Sound) : (Dev.retrainRow d path p).Sound := by
  unfold Dev.retrainRow
  with_reducible repeat' (first
    | assumption | (intro _) | lift_lets -underBinder | apply Dev.access_sound | apply Dev.toRecovery_sound)

theorem Dev.disableOn_sound {d : Dev} {p : Nat} (h_d : d.Sound) : (Dev.disableOn d p).Sound := by
  unfold Dev.disableOn
  (try lift_lets -underBinder)
  with_reducible repeat' (first
    | assumption | (intro x; have hx : Dev.Sound x; unfold x; rotate_left; clear_value x) | lift_lets -underBinder
    | apply sound_ite | apply Dev.put_sound | apply Dev.portResetStart_sound)

theorem Dev.disableOff_sound {d : Dev} {p : Nat} (h_d : d.Sound) : (Dev.disableOff d p).Sound := by
  unfold Dev.disableOff
  (try lift_lets -underBinder)
  with_reducible repeat' (first
    | assumption | (intro x; have hx : Dev.Sound x; unfold x; rotate_left; clear_value x) | lift_lets -underBinder
    | apply sound_ite | apply Dev.put_sound | apply Dev.portResetOver_sound)

theorem Dev.disableRow_sound {d : Dev} {path p : Nat} (h_d : d.Sound) : (Dev.disableRow d path p).Sound := by
  unfold Dev.disableRow
  with_reducible repeat' (first
    | assumption | (intro _) | lift_lets -underBinder | apply Dev.access_sound | apply Dev.disableOn_sound)

theorem Dev.disableClearRow_sound {d : Dev} {path p : Nat} (h_d : d.Sound) : (Dev.disableClearRow d path p).Sound := by
  unfold Dev.disableClearRow
  with_reducible repeat' (first
    | assumption | (intro _) | lift_lets -underBinder | apply Dev.access_sound | apply Dev.disableOff_sound)

theorem Dev.linkDownRow_sound {d : Dev} {p : Nat} (h_d : d.Sound) : (Dev.linkDownRow d p).Sound := by
  unfold Dev.linkDownRow
  with_reducible repeat' (first
    | assumption | lift_lets -underBinder | apply sound_ite | apply Dev.portLinkDown_sound | apply Dev.answerEnded_sound)

theorem Dev.cplTimeoutRow_sound {d : Dev} {p tag : Nat} (h_d : d.Sound) : (Dev.cplTimeoutRow d p tag).Sound := by
  unfold Dev.cplTimeoutRow
  with_reducible repeat' (first
    | assumption | (intro x; have hx : Dev.Sound x; unfold x; rotate_left; clear_value x) | lift_lets -underBinder
    | apply sound_ite | apply Dev.modPort_sound | apply Dev.raise_sound | apply Dev.endAsk_sound | split)

theorem Dev.putOpen_sound {d : Dev} {f : Fld} {i v : Nat} (h_d : d.Sound) : (Dev.putOpen d f i v).Sound := by
  unfold Dev.putOpen
  with_reducible repeat' (first
    | assumption | lift_lets -underBinder | apply sound_ite | apply Dev.put_sound | apply Dev.fresh_sound)

theorem Dev.blocksAt_sound {d : Dev} {vs : Nat} (h_d : d.Sound) : (Dev.blocksAt d vs).2.Sound := by
  unfold Dev.blocksAt
  (try lift_lets -underBinder)
  with_reducible repeat' (first
    | assumption | (intro x; clear_value x) | lift_lets -underBinder | apply sound_ite2 | apply Dev.fresh_sound)
theorem Dev.dmaxNow_sound {d : Dev} (h_d : d.Sound) : (Dev.dmaxNow d).2.Sound := by
  unfold Dev.dmaxNow
  with_reducible repeat' (first
    | assumption | lift_lets -underBinder | apply sound_ite2 | apply Dev.blocksAt_sound)
theorem Dev.recallBlocks_sound {d : Dev} {n : Nat} (h_d : d.Sound) : (Dev.recallBlocks d n).Sound := by
  induction n generalizing d with
  | zero => exact h_d
  | succ n ih => exact ih (Dev.setBlocks_sound h_d)

theorem Dev.trimScc_sound {d : Dev} (h_d : d.Sound) : (Dev.trimScc d).Sound := by
  unfold Dev.trimScc
  with_reducible repeat' (first
    | assumption | (intro _) | lift_lets -underBinder | apply sound_foldl | apply Dev.trimSlice_sound)

theorem Dev.gate_sound {d : Dev} {dm : Nat} (h_d : d.Sound) : (Dev.gate d dm).Sound := by
  unfold Dev.gate
  (try lift_lets -underBinder)
  with_reducible repeat' (first
    | assumption | (intro x; have hx : Dev.Sound x; unfold x; rotate_left; clear_value x) | (intro _)
    | lift_lets -underBinder | apply sound_ite | apply sound_foldl | apply Dev.put_sound | apply Dev.raise_sound)

theorem Dev.dmaxUpdate_sound {d : Dev} (h_d : d.Sound) : (Dev.dmaxUpdate d).Sound := by
  unfold Dev.dmaxUpdate
  (try lift_lets -underBinder)
  with_reducible repeat' (first
    | assumption | (intro x; clear_value x) | (intro _) | lift_lets -underBinder | apply sound_ite | apply sound_foldl
    | apply Dev.dmaxNow_sound | apply Dev.putOpen_sound | apply Dev.gate_sound | apply Dev.flushCmb_sound
    | apply Dev.recallBlocks_sound | apply Dev.trimScc_sound)

theorem Dev.proofRaise_sound {d : Dev} {s : FSrc} (h_d : d.Sound) : (Dev.proofRaise d s).Sound := by
  unfold Dev.proofRaise
  (try lift_lets -underBinder)
  with_reducible repeat' (first
    | assumption | (intro x; have hx : Dev.Sound x; unfold x; rotate_left; clear_value x) | lift_lets -underBinder
    | apply sound_ite | apply Dev.raise_sound | apply Dev.dmaxUpdate_sound)

theorem Dev.measBegin_sound {d : Dev} (h_d : d.Sound) : (Dev.measBegin d).Sound := by
  unfold Dev.measBegin
  (try lift_lets -underBinder)
  with_reducible repeat' (first
    | assumption | (intro x; have hx : Dev.Sound x; unfold x; rotate_left; clear_value x) | (intro x; clear_value x)
    | lift_lets -underBinder | apply sound_ite | apply Dev.put_sound | apply Dev.dmaxUpdate_sound
    | (simp only [sound_mk]; apply sound_of))

theorem Dev.measStart_sound {d : Dev} (h_d : d.Sound) : (Dev.measStart d).Sound := by
  unfold Dev.measStart
  with_reducible repeat' (first
    | assumption | lift_lets -underBinder | apply sound_ite | apply Dev.measBegin_sound)

theorem Dev.measEnd_sound {d : Dev} (h_d : d.Sound) : (Dev.measEnd d).Sound := by
  unfold Dev.measEnd
  (try lift_lets -underBinder)
  with_reducible repeat' (first
    | assumption | (intro x; have hx : Dev.Sound x; unfold x; rotate_left; clear_value x) | (intro x; clear_value x)
    | lift_lets -underBinder | apply Dev.put_sound | apply Dev.dmaxUpdate_sound | (simp only [sound_mk]; apply sound_of))

theorem Dev.flushStep_sound {d : Dev} (h_d : d.Sound) : (Dev.flushStep d).Sound := by
  unfold Dev.flushStep
  (try lift_lets -underBinder)
  with_reducible repeat' (first
    | assumption | (intro x; have hx : Dev.Sound x; unfold x; rotate_left; clear_value x) | (intro x; clear_value x)
    | (intro _) | lift_lets -underBinder | apply sound_foldl | apply Dev.flushCmb_sound | apply Dev.writeBack_sound
    | (simp only [sound_mk]; apply sound_of))

theorem Dev.flushStart_sound {d : Dev} {trigger : Nat} (h_d : d.Sound) : (Dev.flushStart d trigger).Sound := by
  unfold Dev.flushStart
  (try lift_lets -underBinder)
  with_reducible repeat' (first
    | assumption | (intro x; have hx : Dev.Sound x; unfold x; rotate_left; clear_value x) | (intro x; clear_value x)
    | lift_lets -underBinder | apply sound_ite | apply Dev.put_sound | apply Dev.setWord_sound | apply Dev.proofRaise_sound
    | apply Dev.flushStep_sound | (simp only [sound_mk]; apply sound_of))

theorem Dev.clockHalt_sound {d : Dev} {src : Nat} (h_d : d.Sound) : (Dev.clockHalt d src).Sound := by
  unfold Dev.clockHalt
  (try lift_lets -underBinder)
  with_reducible repeat' (first
    | assumption | (intro x; have hx : Dev.Sound x; unfold x; rotate_left; clear_value x) | (intro x; clear_value x)
    | lift_lets -underBinder | apply sound_ite | apply Dev.setWord_sound | apply Dev.put_sound | apply Dev.haltNow_sound
    | apply Dev.raiseDue_sound | (simp only [sound_mk]; apply sound_of))

theorem Dev.flushGpf_sound {d : Dev} {phase : Nat} {ps : List Nat} (h_d : d.Sound) : (Dev.flushGpf d phase ps).Sound := by
  unfold Dev.flushGpf
  (try lift_lets -underBinder)
  with_reducible repeat' (first
    | assumption | (intro x; have hx : Dev.Sound x; unfold x; rotate_left; clear_value x) | (intro x; clear_value x)
    | (intro _) | lift_lets -underBinder | apply sound_foldl | apply Dev.emit_sound | apply Dev.modPort_sound
    | (simp only [sound_mk]; apply sound_of))

theorem Dev.answerHosts_sound {d : Dev} {phase : Nat} {ok : Bool} (h_d : d.Sound) : (Dev.answerHosts d phase ok).Sound := by
  unfold Dev.answerHosts
  with_reducible repeat' (first
    | assumption | (intro _) | lift_lets -underBinder | apply sound_ite | apply sound_foldl | apply Dev.gpfEnd_sound | split)

theorem Dev.huOkLow_sound {d : Dev} {ok : Bool} (h_d : d.Sound) : (Dev.huOkLow d ok).Sound := by
  unfold Dev.huOkLow
  (try lift_lets -underBinder)
  with_reducible repeat' (first
    | assumption | (intro x; have hx : Dev.Sound x; unfold x; rotate_left; clear_value x) | (intro x; clear_value x)
    | lift_lets -underBinder | apply sound_ite | apply Dev.answerHosts_sound | apply Dev.put_sound
    | apply Dev.slotsOff_sound | apply Dev.haltNow_sound | apply Dev.raiseDue_sound | apply Dev.coldEnter_sound
    | apply Dev.rstEnter_sound | (simp only [sound_mk]; apply sound_of) | split)

theorem Dev.pwrfailSet_sound {d : Dev} {on : Bool} (h_d : d.Sound) : (Dev.pwrfailSet d on).Sound := by
  unfold Dev.pwrfailSet
  (try lift_lets -underBinder)
  with_reducible repeat' (first
    | assumption | (intro x; have hx : Dev.Sound x; unfold x; rotate_left; clear_value x) | lift_lets -underBinder
    | apply sound_ite | apply Dev.put_sound | apply Dev.flushStart_sound)

theorem Dev.timeSet_sound {d : Dev} {v : Nat} (h_d : d.Sound) : (Dev.timeSet d v).Sound := by
  unfold Dev.timeSet
  (try lift_lets -underBinder)
  with_reducible repeat' (first
    | assumption | (intro x; have hx : Obs := x; clear hx; unfold x; clear x) | (intro x; clear_value x)
    | lift_lets -underBinder | apply sound_ite | (simp only [sound_mk]; apply sound_of))

theorem Dev.clrAll_sound {d : Dev} (h_d : d.Sound) : (Dev.clrAll d).Sound := by
  unfold Dev.clrAll
  with_reducible repeat' (first
    | assumption | (intro _) | lift_lets -underBinder | apply sound_foldl | apply Dev.put_sound)

theorem Dev.cntZero_sound {d : Dev} {g : Pg} {c : Nat} (h_d : d.Sound) : (Dev.cntZero d g c).Sound := by
  unfold Dev.cntZero
  with_reducible repeat' (first
    | assumption | lift_lets -underBinder | apply Dev.put_sound)

theorem Dev.cntSelSet_sound {d : Dev} {g : Pg} {c v m : Nat} (h_d : d.Sound) : (Dev.cntSelSet d g c v m).Sound := by
  unfold Dev.cntSelSet
  (try lift_lets -underBinder)
  with_reducible repeat' (first
    | assumption | (intro x; have hx : Dev.Sound x; unfold x; rotate_left; clear_value x) | (intro x; clear_value x)
    | lift_lets -underBinder | apply sound_ite | apply Dev.setWord_sound | apply Dev.cntZero_sound)

theorem Dev.ringBase_sound {d : Dev} {w : W64} (h_d : d.Sound) : (Dev.ringBase d w).Sound := by
  unfold Dev.ringBase
  (try lift_lets -underBinder)
  with_reducible repeat' (first
    | assumption | (intro x; clear_value x) | lift_lets -underBinder | apply sound_ite | apply Dev.setRing_sound)

theorem Dev.ringCfg_sound {d : Dev} {w : W64} (h_d : d.Sound) : (Dev.ringCfg d w).Sound := by
  unfold Dev.ringCfg
  (try lift_lets -underBinder)
  with_reducible repeat' (first
    | assumption | (intro x; clear_value x) | (intro _) | lift_lets -underBinder | apply sound_ite | apply Dev.setRing_sound
    | apply Dev.raise_sound)

theorem Dev.ringAdvance_sound {d : Dev} {k n head : Nat} (h_d : d.Sound) : (Dev.ringAdvance d k n head).Sound := by
  unfold Dev.ringAdvance
  (try lift_lets -underBinder)
  with_reducible repeat' (first
    | assumption | (intro x; have hx : Dev.Sound x; unfold x; rotate_left; clear_value x) | (intro x; clear_value x)
    | lift_lets -underBinder | apply sound_ite | apply Dev.setRing_sound | apply Dev.ringGap_sound)

theorem Dev.popRead_sound {d : Dev} {r : Ring} (h_d : d.Sound) : (Dev.popRead d r).2.Sound := by
  unfold Dev.popRead
  with_reducible repeat' (first
    | assumption | lift_lets -underBinder | apply sound_ite2 | apply Dev.carveRead_sound | apply Dev.fresh_sound)
theorem Dev.ringPop_sound {d : Dev} (h_d : d.Sound) : (Dev.ringPop d).2.Sound := by
  unfold Dev.ringPop
  (try lift_lets -underBinder)
  with_reducible repeat' (first
    | assumption | (intro x; clear_value x) | lift_lets -underBinder | apply sound_ite2 | apply Dev.popRead_sound
    | apply Dev.setRing_sound | apply Dev.ringAdvance_sound | split)
theorem Dev.ringHead_sound {d : Dev} {v : Nat} (h_d : d.Sound) : (Dev.ringHead d v).Sound := by
  unfold Dev.ringHead
  (try lift_lets -underBinder)
  with_reducible repeat' (first
    | assumption | (intro x; clear_value x) | lift_lets -underBinder | apply sound_ite | apply Dev.ringAdvance_sound
    | apply Dev.raise_sound | split)

theorem Dev.collectCfg_sound {d : Dev} {was : Bool} (h_d : d.Sound) : (Dev.collectCfg d was).Sound := by
  unfold Dev.collectCfg
  with_reducible repeat' (first
    | assumption | lift_lets -underBinder | apply sound_ite | apply Dev.put_sound | apply Dev.raise_sound)

theorem Dev.collectWrite_sound {d : Dev} {x : Sweep} {seq : Nat} (h_d : d.Sound) : (Dev.collectWrite d x seq).Sound := by
  unfold Dev.collectWrite
  (try lift_lets -underBinder)
  with_reducible repeat' (first
    | assumption | (intro x; clear_value x) | lift_lets -underBinder | apply sound_ite | apply Dev.lwrite_sound
    | apply Dev.emit_sound)

end Sys2Proof.Machine
end

