-- ==== Sys2Proof/Laws/SoundTraffic.lean ====
section
/-! SUPPORT. One lemma per operation: it keeps `Dev.Sound`. Here: the rows of ordering, home, Oven, links, lanes and Larder. -/

namespace Sys2Proof.Machine

theorem Dev.acceptanceIndexRecordRow_sound {d : Dev} {id : Nat} (h_d : d.Sound) : (Dev.acceptanceIndexRecordRow d id).Sound := by
  unfold Dev.acceptanceIndexRecordRow
  with_reducible repeat' (first
    | assumption | lift_lets -underBinder | apply sound_ite | apply Dev.trayOrder_sound | apply Dev.modTray_sound
    | apply Dev.raise_sound | split)

theorem Dev.trayHoldReleaseRow_sound {d : Dev} {src : Nat} (h_d : d.Sound) : (Dev.trayHoldReleaseRow d src).Sound := by
  unfold Dev.trayHoldReleaseRow
  with_reducible repeat' (first
    | assumption | lift_lets -underBinder | apply sound_ite | apply Dev.tryHead_sound | apply Dev.settleClaims_sound | split)

theorem Dev.streamingWriteRow_sound {d : Dev} {src : Nat} (h_d : d.Sound) : (Dev.streamingWriteRow d src).Sound := by
  unfold Dev.streamingWriteRow
  with_reducible repeat' (first
    | assumption | lift_lets -underBinder | apply sound_ite | apply Dev.tryHead_sound | apply Dev.present_sound
    | apply Dev.settleClaims_sound | split)

theorem Dev.cmbTimeoutRow_sound {d : Dev} {s line agent : Nat} (h_d : d.Sound) : (Dev.cmbTimeoutRow d s line agent).Sound := by
  unfold Dev.cmbTimeoutRow
  with_reducible repeat' (first
    | assumption | lift_lets -underBinder | apply Dev.inc_sound | apply Dev.flushCmb_sound | split)

theorem Dev.drainStart_sound {d : Dev} {p : Nat} (h_d : d.Sound) : (Dev.drainStart d p).Sound := by
  unfold Dev.drainStart
  (try lift_lets -underBinder)
  with_reducible repeat' (first
    | assumption | (intro x; have hx : Dev.Sound x; unfold x; rotate_left; clear_value x) | (intro x; clear_value x)
    | lift_lets -underBinder | apply sound_ite | apply Dev.flushAgent_sound | apply Dev.setRel_sound | apply Dev.put_sound
    | apply Dev.drainSettle_sound | (simp only [sound_mk]; apply sound_of))

theorem Dev.drainWriteRow_sound {d : Dev} {p fn : Nat} (h_d : d.Sound) : (Dev.drainWriteRow d p fn).Sound := by
  unfold Dev.drainWriteRow
  with_reducible repeat' (first
    | assumption | lift_lets -underBinder | apply sound_ite | apply Dev.drainStart_sound)

theorem Dev.drainReadRow_sound {d : Dev} {p fn : Nat} (h_d : d.Sound) : (Dev.drainReadRow d p fn).Sound := by
  unfold Dev.drainReadRow
  with_reducible repeat' (first
    | assumption | (intro x; clear_value x) | lift_lets -underBinder | apply sound_ite | apply Dev.emit_sound
    | (simp only [sound_mk]; apply sound_of) | split)

theorem Dev.rdSRow_sound {d : Dev} {h : Nat} (h_d : d.Sound) : (Dev.rdSRow d h).Sound := by
  unfold Dev.rdSRow
  with_reducible repeat' (first
    | assumption | apply Dev.takeKind_sound)

theorem Dev.rdORow_sound {d : Dev} {h : Nat} (h_d : d.Sound) : (Dev.rdORow d h).Sound := by
  unfold Dev.rdORow
  with_reducible repeat' (first
    | assumption | apply Dev.takeKind_sound)

theorem Dev.ownNdRow_sound {d : Dev} {h : Nat} (h_d : d.Sound) : (Dev.ownNdRow d h).Sound := by
  unfold Dev.ownNdRow
  with_reducible repeat' (first
    | assumption | apply Dev.takeKind_sound)

theorem Dev.rdCRow_sound {d : Dev} {h : Nat} (h_d : d.Sound) : (Dev.rdCRow d h).Sound := by
  unfold Dev.rdCRow
  with_reducible repeat' (first
    | assumption | apply Dev.takeKind_sound)

theorem Dev.wrRow_sound {d : Dev} {h : Nat} (h_d : d.Sound) : (Dev.wrRow d h).Sound := by
  unfold Dev.wrRow
  with_reducible repeat' (first
    | assumption | apply Dev.takeKind_sound)

theorem Dev.atomRow_sound {d : Dev} {h : Nat} (h_d : d.Sound) : (Dev.atomRow d h).Sound := by
  unfold Dev.atomRow
  with_reducible repeat' (first
    | assumption | apply Dev.takeKind_sound)

theorem Dev.wbIRow_sound {d : Dev} {h : Nat} (h_d : d.Sound) : (Dev.wbIRow d h).Sound := by
  unfold Dev.wbIRow
  with_reducible repeat' (first
    | assumption | apply Dev.takeKind_sound)

theorem Dev.wbSRow_sound {d : Dev} {h : Nat} (h_d : d.Sound) : (Dev.wbSRow d h).Sound := by
  unfold Dev.wbSRow
  with_reducible repeat' (first
    | assumption | apply Dev.takeKind_sound)

theorem Dev.clnRow_sound {d : Dev} {h : Nat} (h_d : d.Sound) : (Dev.clnRow d h).Sound := by
  unfold Dev.clnRow
  with_reducible repeat' (first
    | assumption | apply Dev.takeKind_sound)

theorem Dev.bisIRow_sound {d : Dev} {h : Nat} (h_d : d.Sound) : (Dev.bisIRow d h).Sound := by
  unfold Dev.bisIRow
  with_reducible repeat' (first
    | assumption | apply Dev.takeKind_sound)

theorem Dev.bisSRow_sound {d : Dev} {h : Nat} (h_d : d.Sound) : (Dev.bisSRow d h).Sound := by
  unfold Dev.bisSRow
  with_reducible repeat' (first
    | assumption | apply Dev.takeKind_sound)

theorem Dev.bisCRow_sound {d : Dev} {h : Nat} (h_d : d.Sound) : (Dev.bisCRow d h).Sound := by
  unfold Dev.bisCRow
  with_reducible repeat' (first
    | assumption | apply Dev.takeKind_sound)

theorem Dev.frontRsp_sound {d : Dev} {h : Nat} (h_d : d.Sound) : OSound (Dev.frontRsp d h) := by
  unfold Dev.frontRsp
  with_reducible repeat' (first
    | assumption | lift_lets -underBinder | apply osound_none | apply osound_some | apply Dev.setArrived_sound | split)
theorem Dev.frontRsp_at {d : Dev} {h : Nat} {r0 : Msg} {d1 : Dev} (hEq : Dev.frontRsp d h = some (r0, d1)) (h_d : d.Sound) : d1.Sound := by
  have h := Dev.frontRsp_sound (d := d) (h := h) h_d
  rw [hEq] at h
  exact h

theorem Dev.snoopAnswerRow_sound {d : Dev} {h : Nat} (h_d : d.Sound) : (Dev.snoopAnswerRow d h).Sound := by
  unfold Dev.snoopAnswerRow
  with_reducible repeat' (first
    | assumption | lift_lets -underBinder | apply sound_ite | apply Dev.snoopAnswered_sound
    | (refine Dev.frontRsp_at ‹_ = _› ?_) | split)

theorem Dev.remoteAnswered_sound {d : Dev} {h : Nat} {m a : Msg} (h_d : d.Sound) : (Dev.remoteAnswered d h m a).Sound := by
  unfold Dev.remoteAnswered
  with_reducible repeat' (first
    | assumption | lift_lets -underBinder | apply sound_ite | apply Dev.accessAnswer_sound | apply Dev.replyTo_sound)

theorem Dev.targetAnswerRow_sound {d : Dev} {h : Nat} (h_d : d.Sound) : (Dev.targetAnswerRow d h).Sound := by
  unfold Dev.targetAnswerRow
  with_reducible repeat' (first
    | assumption | lift_lets -underBinder | apply sound_ite | apply Dev.homeTarget_sound | apply Dev.dmvAnswer_sound
    | apply Dev.trayOrder_sound | apply Dev.modPort_sound | apply Dev.remoteAnswered_sound
    | (refine Dev.frontRsp_at ‹_ = _› ?_) | split)

theorem Dev.lineQueueHeadRow_sound {d : Dev} {h line : Nat} (h_d : d.Sound) : (Dev.lineQueueHeadRow d h line).Sound := by
  unfold Dev.lineQueueHeadRow
  (try lift_lets -underBinder)
  with_reducible repeat' (first
    | assumption | (intro x; clear_value x) | lift_lets -underBinder | apply sound_ite | apply Dev.runHome_sound
    | apply Dev.modHome_sound | apply Dev.decideOne_sound | split)

theorem Dev.waitBufferEntryFreeRow_sound {d : Dev} {h src : Nat} (h_d : d.Sound) : (Dev.waitBufferEntryFreeRow d h src).Sound := by
  unfold Dev.waitBufferEntryFreeRow
  with_reducible repeat' (first
    | assumption | lift_lets -underBinder | apply sound_ite | apply Dev.modHome_sound)

theorem Dev.takeWay_sound {d : Dev} {h set_ way : Nat} {m : Msg} (h_d : d.Sound) : (Dev.takeWay d h set_ way m).Sound := by
  unfold Dev.takeWay
  (try lift_lets -underBinder)
  with_reducible repeat' (first
    | assumption | (intro x; have hx : Dev.Sound x; unfold x; rotate_left; clear_value x) | (intro x; clear_value x)
    | lift_lets -underBinder | apply sound_ite | apply Dev.enqueue_sound | apply Dev.readSet_sound | apply Dev.runHome_sound
    | apply Dev.decideFree_sound | apply Dev.decideReq_sound | apply Dev.evict_sound | split)

theorem Dev.retryTake_sound {d : Dev} {h set_ : Nat} {w : Wait} (h_d : d.Sound) : (Dev.retryTake d h set_ w).Sound := by
  unfold Dev.retryTake
  with_reducible repeat' (first
    | assumption | apply Dev.modHome_sound)

theorem Dev.retryOfferRow_sound {d : Dev} {h set_ way : Nat} (h_d : d.Sound) : (Dev.retryOfferRow d h set_ way).Sound := by
  unfold Dev.retryOfferRow
  with_reducible repeat' (first
    | assumption | lift_lets -underBinder | apply sound_ite | apply Dev.retryTake_sound | apply Dev.takeWay_sound | split)

theorem Dev.snoopTimeoutRow_sound {d : Dev} {h line agent : Nat} (h_d : d.Sound) : (Dev.snoopTimeoutRow d h line agent).Sound := by
  unfold Dev.snoopTimeoutRow
  (try lift_lets -underBinder)
  with_reducible repeat' (first
    | assumption | (intro x; clear_value x) | lift_lets -underBinder | apply sound_ite | apply Dev.snoopExpire_sound)

theorem Dev.quenchNoticeRow_sound {d : Dev} {agent domain dev : Nat} (h_d : d.Sound) : (Dev.quenchNoticeRow d agent domain dev).Sound := by
  unfold Dev.quenchNoticeRow
  with_reducible repeat' (first
    | assumption | (intro x; have hx : Dev.Sound x; unfold x; rotate_left; clear_value x) | lift_lets -underBinder
    | apply sound_ite | apply Dev.setArrived_sound | apply Dev.quench_sound | apply Dev.declareDead_sound | split)

theorem Dev.quenchScanEnd_sound {d : Dev} {h : Nat} {ready : List Nat} (h_d : d.Sound) : (Dev.quenchScanEnd d h ready).Sound := by
  unfold Dev.quenchScanEnd
  (try lift_lets -underBinder)
  with_reducible repeat' (first
    | assumption | (intro x; have hx : Dev.Sound x; unfold x; rotate_left; clear_value x) | (intro x; clear_value x)
    | (intro _) | lift_lets -underBinder | apply sound_ite | apply sound_foldl | apply Dev.failTxn_sound
    | apply Dev.dropScc_sound | apply Dev.freeEnt_sound | apply Dev.modHome_sound | apply Dev.put_sound
    | apply Dev.quenchEnd_sound | apply Dev.removalsEnd_sound)

theorem Dev.quenchScanDoneRow_sound {d : Dev} {h : Nat} (h_d : d.Sound) : (Dev.quenchScanDoneRow d h).Sound := by
  unfold Dev.quenchScanDoneRow
  with_reducible repeat' (first
    | assumption | lift_lets -underBinder | apply sound_ite | apply Dev.quenchScanEnd_sound)

theorem Dev.dirPeek_sound {d : Dev} {h : Nat} (h_d : d.Sound) : (Dev.dirPeek d h).Sound := by
  unfold Dev.dirPeek
  (try lift_lets -underBinder)
  with_reducible repeat' (first
    | assumption | (intro x; clear_value x) | lift_lets -underBinder | apply Dev.setWord_sound)

theorem Dev.dirPeekRow_sound {d : Dev} {path h : Nat} (h_d : d.Sound) : (Dev.dirPeekRow d path h).Sound := by
  unfold Dev.dirPeekRow
  with_reducible repeat' (first
    | assumption | (intro _) | lift_lets -underBinder | apply Dev.access_sound | apply Dev.dirPeek_sound)

theorem Dev.sccClean_sound {d : Dev} {h : Nat} (h_d : d.Sound) : (Dev.sccClean d h).Sound := by
  unfold Dev.sccClean
  with_reducible repeat' (first
    | assumption | (intro _) | lift_lets -underBinder | apply sound_ite | apply sound_foldl | apply Dev.sccVictim_sound)

theorem Dev.sccFlushCleanRow_sound {d : Dev} {path h : Nat} (h_d : d.Sound) : (Dev.sccFlushCleanRow d path h).Sound := by
  unfold Dev.sccFlushCleanRow
  with_reducible repeat' (first
    | assumption | (intro _) | lift_lets -underBinder | apply Dev.access_sound | apply Dev.sccClean_sound)

theorem Dev.remoteSnoop_sound {d : Dev} {h : Nat} {m : Msg} {k : MOp} (h_d : d.Sound) : (Dev.remoteSnoop d h m k).Sound := by
  unfold Dev.remoteSnoop
  (try lift_lets -underBinder)
  with_reducible repeat' (first
    | assumption | (intro x; clear_value x) | apply Dev.raise_sound | apply Dev.homeSend_sound | split)

theorem Dev.remoteSnoopRow_sound {d : Dev} {h : Nat} (h_d : d.Sound) : (Dev.remoteSnoopRow d h).Sound := by
  unfold Dev.remoteSnoopRow
  with_reducible repeat' (first
    | assumption | lift_lets -underBinder | apply sound_ite | apply Dev.remoteSnoop_sound
    | (refine Dev.takeFrom_at ‹_ = _› ?_) | split)

theorem Dev.shutHead_sound {d : Dev} {src : Nat} (h_d : d.Sound) : (Dev.shutHead d src).Sound := by
  unfold Dev.shutHead
  with_reducible repeat' (first
    | assumption | (intro x; have hx : Dev.Sound x; unfold x; rotate_left; clear_value x) | lift_lets -underBinder
    | apply sound_ite | apply Dev.setRel_sound | apply Dev.setHeld_sound | apply Dev.consumeCredit_sound
    | apply Dev.endAsk_sound | apply Dev.answerMiss_sound | apply Dev.endAccess_sound | split)

theorem Dev.cellPresentRow_sound {d : Dev} {srcs : List Nat} {e : CrossErr} (h_d : d.Sound) : (Dev.cellPresentRow d srcs e).Sound := by
  unfold Dev.cellPresentRow
  with_reducible repeat' (first
    | assumption | (intro _) | lift_lets -underBinder | apply sound_ite | apply sound_foldl | apply Dev.present_sound
    | apply Dev.shutHead_sound | apply Dev.settleClaims_sound | apply Dev.lateAll_sound)

theorem Dev.heldAdmitRow_sound {d : Dev} {src : Nat} {e : CrossErr} (h_d : d.Sound) : (Dev.heldAdmitRow d src e).Sound := by
  unfold Dev.heldAdmitRow
  with_reducible repeat' (first
    | assumption | lift_lets -underBinder | apply sound_ite | apply Dev.retryHeld_sound | apply Dev.shutHead_sound
    | apply Dev.settleClaims_sound | apply Dev.lateAll_sound)

theorem Dev.refuseLate_sound {d : Dev} {m : Msg} {c : Denial} {a : Nat} (h_d : d.Sound) : (Dev.refuseLate d m c a).Sound := by
  unfold Dev.refuseLate
  (try lift_lets -underBinder)
  with_reducible repeat' (first
    | assumption | (intro x; have hx : Dev.Sound x; unfold x; rotate_left; clear_value x) | (intro x; clear_value x)
    | lift_lets -underBinder | apply sound_ite | apply Dev.refuse_sound | (simp only [sound_mk]; apply sound_of))

theorem Dev.tagReport_sound {d : Dev} {id : Nat} {ue : Bool} (h_d : d.Sound) : (Dev.tagReport d id ue).Sound := by
  unfold Dev.tagReport
  with_reducible repeat' (first
    | assumption | lift_lets -underBinder | apply Dev.modStored_sound | apply Dev.linkStored_sound
    | apply Dev.dropStored_sound | apply Dev.writeLate_sound | apply Dev.defLeft_sound | apply Dev.refuseLate_sound | split)

theorem Dev.tagReportHeld_sound {d : Dev} {src w : Nat} {ue : Bool} (h_d : d.Sound) : (Dev.tagReportHeld d src w ue).Sound := by
  unfold Dev.tagReportHeld
  with_reducible repeat' (first
    | assumption | (intro _) | lift_lets -underBinder | apply sound_ite | apply sound_foldl | apply Dev.setRel_sound
    | apply Dev.setHeld_sound | apply Dev.refuseLate_sound | split)

theorem Dev.tagArrive_sound {d : Dev} {s word : Nat} {ue : Bool} (h_d : d.Sound) : (Dev.tagArrive d s word ue).Sound := by
  unfold Dev.tagArrive
  (try lift_lets -underBinder)
  with_reducible repeat' (first
    | assumption | (intro x; have hx : Dev.Sound x; unfold x; rotate_left; clear_value x) | (intro x; clear_value x)
    | (intro _) | lift_lets -underBinder | apply sound_ite | apply sound_foldl | apply Dev.setLine_sound
    | apply Dev.carveRead_sound | apply Dev.tagInsert_sound | apply Dev.tagReport_sound | apply Dev.tagReportHeld_sound
    | (simp only [sound_mk]; apply sound_of))

theorem Dev.tagFillRow_sound {d : Dev} {s word : Nat} {ue : Bool} (h_d : d.Sound) : (Dev.tagFillRow d s word ue).Sound := by
  unfold Dev.tagFillRow
  (try lift_lets -underBinder)
  with_reducible repeat' (first
    | assumption | (intro x; clear_value x) | lift_lets -underBinder | apply sound_ite | apply Dev.tagArrive_sound
    | (simp only [sound_mk]; apply sound_of))

theorem Dev.dropTailBad_sound {d : Dev} {x : Stored} (h_d : d.Sound) : (Dev.dropTailBad d x).Sound := by
  unfold Dev.dropTailBad
  (try lift_lets -underBinder)
  with_reducible repeat' (first
    | assumption | (intro x; clear_value x) | lift_lets -underBinder | apply Dev.refund_sound | apply Dev.discard_sound
    | apply Dev.inc_sound | apply Dev.raise_sound)

theorem Dev.purgeBad_sound {d : Dev} {dest : Nat} (h_d : d.Sound) : (Dev.purgeBad d dest).Sound := by
  unfold Dev.purgeBad
  with_reducible repeat' (first
    | assumption | (intro _) | lift_lets -underBinder | apply sound_ite | apply sound_foldl | apply Dev.dropTailBad_sound)

theorem Dev.take_sound {d : Dev} {x : Stored} (h_d : d.Sound) : (Dev.take d x).Sound := by
  unfold Dev.take
  (try lift_lets -underBinder)
  with_reducible repeat' (first
    | assumption | (intro x; have hx : Dev.Sound x; unfold x; rotate_left; clear_value x) | lift_lets -underBinder
    | apply Dev.leaveList_sound | apply Dev.modStored_sound | apply Dev.presentReq_sound)

theorem Dev.selectPort_sound {d : Dev} {q : Nat} (h_d : d.Sound) : (Dev.selectPort d q).Sound := by
  unfold Dev.selectPort
  (try lift_lets -underBinder)
  with_reducible repeat' (first
    | assumption | (intro x; have hx : Dev.Sound x; unfold x; rotate_left; clear_value x) | (intro x; clear_value x)
    | (intro _) | lift_lets -underBinder | apply sound_ite | apply sound_foldl | apply Dev.tabRead_sound
    | apply Dev.gateHold_sound | apply Dev.take_sound | apply Dev.modStored_sound | apply Dev.charge_sound
    | apply Dev.settleDef_sound | apply Dev.noteDelay_sound | apply Dev.count_sound | (refine Dev.nextTc_at ‹_ = _› ?_)
    | (simp only [sound_mk]; apply sound_of) | split)

theorem Dev.selectHome_sound {d : Dev} {h : Nat} (h_d : d.Sound) : (Dev.selectHome d h).Sound := by
  unfold Dev.selectHome
  (try lift_lets -underBinder)
  with_reducible repeat' (first
    | assumption | (intro x; clear_value x) | lift_lets -underBinder | apply Dev.take_sound
    | (simp only [sound_mk]; apply sound_of) | split)

theorem Dev.egressSelectRow_sound {d : Dev} {dest : Nat} {bridge : Bool} (h_d : d.Sound) : (Dev.egressSelectRow d dest bridge).Sound := by
  unfold Dev.egressSelectRow
  (try lift_lets -underBinder)
  with_reducible repeat' (first
    | assumption | (intro x; have hx : Dev.Sound x; unfold x; rotate_left; clear_value x) | lift_lets -underBinder
    | apply sound_ite | apply Dev.crossErr_sound | apply Dev.purgeBad_sound | apply Dev.selectPort_sound
    | apply Dev.selectHome_sound)

theorem Dev.retireNow_sound {d : Dev} {s b : Nat} (h_d : d.Sound) : (Dev.retireNow d s b).Sound := by
  unfold Dev.retireNow
  (try lift_lets -underBinder)
  with_reducible repeat' (first
    | assumption | (intro x; have hx : Dev.Sound x; unfold x; rotate_left; clear_value x) | (intro x; clear_value x)
    | lift_lets -underBinder | apply Dev.put_sound | (simp only [sound_mk]; apply sound_of))

theorem Dev.retireBank_sound {d : Dev} {s b : Nat} (h_d : d.Sound) : (Dev.retireBank d s b).Sound := by
  unfold Dev.retireBank
  with_reducible repeat' (first
    | assumption | lift_lets -underBinder | apply sound_ite | apply Dev.retireNow_sound | apply Dev.raise_sound)

theorem Dev.autoRetire_sound {d : Dev} {s b : Nat} (h_d : d.Sound) : (Dev.autoRetire d s b).Sound := by
  unfold Dev.autoRetire
  with_reducible repeat' (first
    | assumption | lift_lets -underBinder | apply sound_ite | apply Dev.retireBank_sound)

theorem Dev.bankCorrected_sound {d : Dev} {s b : Nat} (h_d : d.Sound) : (Dev.bankCorrected d s b).Sound := by
  unfold Dev.bankCorrected
  (try lift_lets -underBinder)
  with_reducible repeat' (first
    | assumption | (intro x; have hx : Dev.Sound x; unfold x; rotate_left; clear_value x) | (intro x; clear_value x)
    | lift_lets -underBinder | apply sound_ite | apply Dev.raise_sound | apply Dev.autoRetire_sound
    | (simp only [sound_mk]; apply sound_of))

theorem Dev.relocate_sound {d : Dev} {s b id : Nat} {c : Cell} (h_d : d.Sound) : (Dev.relocate d s b id c).Sound := by
  unfold Dev.relocate
  with_reducible repeat' (first
    | assumption | (intro x; have hx : Dev.Sound x; unfold x; rotate_left; clear_value x) | (intro x; clear_value x)
    | (intro _) | lift_lets -underBinder | apply sound_ite | apply sound_foldl | apply Dev.modStored_sound
    | apply Dev.put_sound | apply Dev.rethread_sound | split)

theorem Dev.finishRead_sound {d : Dev} {id : Nat} (h_d : d.Sound) : (Dev.finishRead d id).Sound := by
  unfold Dev.finishRead
  with_reducible repeat' (first
    | assumption | lift_lets -underBinder | apply sound_ite | apply Dev.dropTailBad_sound | apply Dev.deliver_sound
    | apply Dev.takeDirect_sound | split)

theorem Dev.closed_sound {d : Dev} {id : Nat} (h_d : d.Sound) : (Dev.closed d id).Sound := by
  unfold Dev.closed
  with_reducible repeat' (first
    | assumption | lift_lets -underBinder | apply sound_ite | apply Dev.dropTailBad_sound | apply Dev.finishRead_sound
    | apply Dev.presentReq_sound | split)

theorem Dev.poisonStored_sound {d : Dev} {id : Nat} (h_d : d.Sound) : (Dev.poisonStored d id).Sound := by
  unfold Dev.poisonStored
  with_reducible repeat' (first
    | assumption | apply Dev.modStored_sound)

theorem Dev.readErr_sound {d : Dev} {s b : Nat} {x : Stored} {first : Bool} {err : BankErr} (h_d : d.Sound) : (Dev.readErr d s b x first err).Sound := by
  unfold Dev.readErr
  with_reducible repeat' (first
    | assumption | (intro x; have hx : Dev.Sound x; unfold x; rotate_left; clear_value x) | (intro x; clear_value x)
    | (intro _) | lift_lets -underBinder | apply sound_ite | apply sound_foldl | apply Dev.bankCorrected_sound
    | apply Dev.poisonStored_sound | apply Dev.inc_sound | apply Dev.raise_sound | apply Dev.autoRetire_sound
    | apply Dev.discard_sound | split)

theorem Dev.relocStep_sound {d : Dev} {s b : Nat} {err : BankErr} (h_d : d.Sound) : (Dev.relocStep d s b err).Sound := by
  unfold Dev.relocStep
  (try lift_lets -underBinder)
  with_reducible repeat' (first
    | assumption | (intro x; have hx : Dev.Sound x; unfold x; rotate_left; clear_value x) | lift_lets -underBinder
    | apply Dev.put_sound | apply Dev.relocate_sound | apply Dev.readErr_sound | split)

theorem Dev.grant_sound {d : Dev} {s b r : Nat} {err : BankErr} (h_d : d.Sound) : (Dev.grant d s b r err).Sound := by
  unfold Dev.grant
  (try lift_lets -underBinder)
  with_reducible repeat' (first
    | assumption | (intro x; have hx : Dev.Sound x; unfold x; rotate_left; clear_value x) | (intro x; clear_value x)
    | lift_lets -underBinder | apply Dev.clearReq_sound | apply Dev.put_sound | apply Dev.count_sound
    | apply Dev.presentReq_sound | apply Dev.modStored_sound | apply Dev.injectAt_sound | apply Dev.readErr_sound
    | apply Dev.crossErr_sound | apply Dev.finishRead_sound | apply Dev.writeLate_sound | split)

theorem Dev.ageLosers_sound {d : Dev} {s : Nat} {ls : List Nat} (h_d : d.Sound) : (Dev.ageLosers d s ls).Sound := by
  unfold Dev.ageLosers
  with_reducible repeat' (first
    | assumption | (intro x; have hx : Dev.Sound x; unfold x; rotate_left; clear_value x) | (intro x; clear_value x)
    | (intro _) | lift_lets -underBinder | apply sound_ite | apply sound_foldl | apply Dev.put_sound | apply Dev.raise_sound)

theorem Dev.bankTurn_sound {d : Dev} {s b : Nat} {hidden : List Nat} {err : BankErr} (h_d : d.Sound) : (Dev.bankTurn d s b hidden err).Sound := by
  unfold Dev.bankTurn
  (try lift_lets -underBinder)
  with_reducible repeat' (first
    | assumption | (intro x; have hx : Dev.Sound x; unfold x; rotate_left; clear_value x) | (intro x; clear_value x)
    | (intro _) | lift_lets -underBinder | apply sound_ite | apply Dev.put_sound | apply Dev.ageLosers_sound
    | apply Dev.relocStep_sound | apply Dev.count_sound | apply Dev.grant_sound | (simp only [sound_mk]; apply sound_of)
    | split)

theorem Dev.bankStep_sound {d : Dev} {s b : Nat} {err : BankErr} (h_d : d.Sound) : (Dev.bankStep d s b err).Sound := by
  unfold Dev.bankStep
  (try lift_lets -underBinder)
  with_reducible repeat' (first
    | assumption | (intro x; have hx : Dev.Sound x; unfold x; rotate_left; clear_value x) | (intro x; clear_value x)
    | (intro _) | lift_lets -underBinder | apply sound_ite | apply sound_foldl | apply Dev.raise_sound
    | apply Dev.tabRead_sound | apply Dev.bankTurn_sound | (simp only [sound_mk]; apply sound_of))

theorem Dev.bankDecisionRow_sound {d : Dev} {s b : Nat} {err : BankErr} (h_d : d.Sound) : (Dev.bankDecisionRow d s b err).Sound := by
  unfold Dev.bankDecisionRow
  with_reducible repeat' (first
    | assumption | lift_lets -underBinder | apply sound_ite | apply Dev.bankStep_sound)

theorem Dev.stallLink_sound {d : Dev} {k seq : Nat} (h_d : d.Sound) : (Dev.stallLink d k seq).Sound := by
  unfold Dev.stallLink
  (try lift_lets -underBinder)
  with_reducible repeat' (first
    | assumption | (intro x; have hx : Dev.Sound x; unfold x; rotate_left; clear_value x) | lift_lets -underBinder
    | apply sound_ite | apply Dev.modLink_sound | apply Dev.sendNak_sound)

theorem Dev.stallClose_sound {d : Dev} {s id : Nat} {x : Stored} (h_d : d.Sound) : (Dev.stallClose d s id x).Sound := by
  unfold Dev.stallClose
  (try lift_lets -underBinder)
  with_reducible repeat' (first
    | assumption | (intro x; have hx : Dev.Sound x; unfold x; rotate_left; clear_value x) | (intro x; clear_value x)
    | lift_lets -underBinder | apply Dev.modStored_sound | apply Dev.inc_sound | apply Dev.raise_sound
    | apply Dev.stallLink_sound | apply Dev.rethread_sound | apply Dev.closed_sound | (simp only [sound_mk]; apply sound_of)
    | split)

theorem Dev.stallTimeoutRow_sound {d : Dev} {s id : Nat} (h_d : d.Sound) : (Dev.stallTimeoutRow d s id).Sound := by
  unfold Dev.stallTimeoutRow
  with_reducible repeat' (first
    | assumption | lift_lets -underBinder | apply sound_ite | apply Dev.stallClose_sound | split)

theorem Dev.retireRow_sound {d : Dev} {path s b : Nat} (h_d : d.Sound) : (Dev.retireRow d path s b).Sound := by
  unfold Dev.retireRow
  with_reducible repeat' (first
    | assumption | (intro _) | lift_lets -underBinder | apply Dev.access_sound | apply Dev.put_sound
    | apply Dev.retireBank_sound)

theorem Dev.retirementDoneRow_sound {d : Dev} {s : Nat} (h_d : d.Sound) : (Dev.retirementDoneRow d s).Sound := by
  unfold Dev.retirementDoneRow
  (try lift_lets -underBinder)
  with_reducible repeat' (first
    | assumption | (intro x; have hx : Dev.Sound x; unfold x; rotate_left; clear_value x) | (intro x; clear_value x)
    | (intro _) | lift_lets -underBinder | apply sound_ite | apply sound_foldl | apply Dev.raise_sound | apply Dev.put_sound
    | (simp only [sound_mk]; apply sound_of))

theorem Dev.popFront_sound {d : Dev} {k : Nat} {b : Bytes} (h_d : d.Sound) : (Dev.popFront d k b).Sound := by
  unfold Dev.popFront
  (try lift_lets -underBinder)
  with_reducible repeat' (first
    | assumption | (intro x; clear_value x) | apply Dev.setLink_sound)

theorem Dev.showCells_sound {d : Dev} {k : Nat} {w : Bytes × Bytes} {n : Nat} (h_d : d.Sound) : (Dev.showCells d k w n).Sound := by
  unfold Dev.showCells
  (try lift_lets -underBinder)
  with_reducible repeat' (first
    | assumption | (intro x; clear_value x) | lift_lets -underBinder | apply sound_ite | apply Dev.setRel_sound
    | apply Dev.modStored_sound | apply Dev.writeLate_sound | split)

theorem Dev.closeStored_sound {d : Dev} {id : Nat} {bad : Bool} {m : Msg} (h_d : d.Sound) : (Dev.closeStored d id bad m).Sound := by
  unfold Dev.closeStored
  (try lift_lets -underBinder)
  with_reducible repeat' (first
    | assumption | (intro x; have hx : Dev.Sound x; unfold x; rotate_left; clear_value x) | (intro x; clear_value x)
    | lift_lets -underBinder | apply Dev.modStored_sound | apply Dev.writeLate_sound | apply Dev.closed_sound
    | (simp only [sound_mk]; apply sound_of) | split)

theorem Dev.closeOpen_sound {d : Dev} {k : Nat} {bad : Bool} {b : Msg} (h_d : d.Sound) : (Dev.closeOpen d k bad b).Sound := by
  unfold Dev.closeOpen
  (try lift_lets -underBinder)
  with_reducible repeat' (first
    | assumption | (intro x; have hx : Dev.Sound x; unfold x; rotate_left; clear_value x) | (intro x; clear_value x)
    | lift_lets -underBinder | apply sound_ite | apply Dev.modLink_sound | apply Dev.setRel_sound
    | apply Dev.closeStored_sound)

theorem Dev.closeBad_sound {d : Dev} {k : Nat} (h_d : d.Sound) : (Dev.closeBad d k).Sound := by
  unfold Dev.closeBad
  with_reducible repeat' (first
    | assumption | lift_lets -underBinder | apply sound_ite | apply Dev.closeOpen_sound | apply Dev.raise_sound)

theorem Dev.parseLose_sound {d : Dev} {k : Nat} (h_d : d.Sound) : (Dev.parseLose d k).Sound := by
  unfold Dev.parseLose
  (try lift_lets -underBinder)
  with_reducible repeat' (first
    | assumption | (intro x; have hx : Dev.Sound x; unfold x; rotate_left; clear_value x) | (intro x; clear_value x)
    | lift_lets -underBinder | apply sound_ite | apply Dev.closeBad_sound | apply Dev.modLink_sound
    | apply Dev.sendNak_sound)

theorem Dev.frontCheck_sound {d : Dev} {k : Nat} (h_d : d.Sound) : (Dev.frontCheck d k).Sound := by
  unfold Dev.frontCheck
  (try lift_lets -underBinder)
  with_reducible repeat' (first
    | assumption | (intro x; clear_value x) | lift_lets -underBinder | apply sound_ite | apply Dev.parseLose_sound
    | apply Dev.linkDownEv_sound | apply Dev.raise_sound)

theorem Dev.deliverIn_sound {d : Dev} {k : Nat} {m : Msg} (h_d : d.Sound) : (Dev.deliverIn d k m).Sound := by
  unfold Dev.deliverIn
  (try lift_lets -underBinder)
  with_reducible repeat' (first
    | assumption | (intro x; have hx : Dev.Sound x; unfold x; rotate_left; clear_value x) | (intro x; clear_value x)
    | lift_lets -underBinder | apply sound_ite | apply Dev.consumeCredit_sound | apply Dev.inc_sound | apply Dev.raise_sound
    | apply Dev.replyTo_sound | apply Dev.replyFail_sound | apply Dev.modPort_sound | apply Dev.endAsk_sound
    | apply Dev.decodeMiss_sound | apply Dev.count_sound | apply Dev.pushRel_sound | split)

theorem Dev.openHeader_sound {d : Dev} {k : Nat} {b : Bytes} {n : Nat} (h_d : d.Sound) : (Dev.openHeader d k b n).Sound := by
  unfold Dev.openHeader
  with_reducible repeat' (first
    | assumption | lift_lets -underBinder | apply Dev.modLink_sound | apply Dev.pushRel_sound)

theorem Dev.pushBad_sound {d : Dev} {m : Msg} (h_d : d.Sound) : (Dev.pushBad d m).Sound := by
  unfold Dev.pushBad
  with_reducible repeat' (first
    | assumption | lift_lets -underBinder | apply sound_ite | apply Dev.pushRel_sound)

theorem Dev.ackAfter_sound {d : Dev} {k : Nat} (h_d : d.Sound) : (Dev.ackAfter d k).Sound := by
  unfold Dev.ackAfter
  (try lift_lets -underBinder)
  with_reducible repeat' (first
    | assumption | (intro x; have hx : Dev.Sound x; unfold x; rotate_left; clear_value x) | (intro x; clear_value x)
    | lift_lets -underBinder | apply sound_ite | apply Dev.modLink_sound | apply Dev.sendAck_sound)

theorem Dev.takeMessage_sound {d : Dev} {k : Nat} {b : Bytes} (h_d : d.Sound) : (Dev.takeMessage d k b).Sound := by
  unfold Dev.takeMessage
  (try lift_lets -underBinder)
  with_reducible repeat' (first
    | assumption | (intro x; have hx : Dev.Sound x; unfold x; rotate_left; clear_value x) | (intro x; clear_value x)
    | lift_lets -underBinder | apply sound_ite | apply Dev.modLink_sound | apply Dev.put_sound | apply Dev.count_sound
    | apply Dev.raise_sound | apply Dev.closeOpen_sound | apply Dev.deliverIn_sound | apply Dev.ackAfter_sound
    | apply Dev.pushBad_sound | apply Dev.sendNak_sound | apply Dev.sendAck_sound)

theorem Dev.releaseTo_sound {d : Dev} {k s : Nat} (h_d : d.Sound) : (Dev.releaseTo d k s).Sound := by
  unfold Dev.releaseTo
  (try lift_lets -underBinder)
  with_reducible repeat' (first
    | assumption | (intro x; clear_value x) | lift_lets -underBinder | apply sound_ite | apply Dev.setTx_sound
    | apply Dev.modLink_sound)

theorem Dev.replayFrom_sound {d : Dev} {k e : Nat} (h_d : d.Sound) : (Dev.replayFrom d k e).Sound := by
  unfold Dev.replayFrom
  (try lift_lets -underBinder)
  with_reducible repeat' (first
    | assumption | (intro x; have hx : Dev.Sound x; unfold x; rotate_left; clear_value x) | (intro x; clear_value x)
    | (intro _) | lift_lets -underBinder | apply sound_ite | apply sound_foldl | apply Dev.sendPkt_sound
    | apply Dev.count_sound | apply Dev.raise_sound | apply Dev.modLink_sound | apply Dev.drRetrain_sound)

theorem Dev.takeNak_sound {d : Dev} {k e : Nat} (h_d : d.Sound) : (Dev.takeNak d k e).Sound := by
  unfold Dev.takeNak
  (try lift_lets -underBinder)
  with_reducible repeat' (first
    | assumption | (intro x; clear_value x) | lift_lets -underBinder | apply sound_ite | apply Dev.releaseTo_sound
    | apply Dev.replayFrom_sound)

theorem Dev.takeCredit_sound {d : Dev} {k : Nat} {b : Bytes} (h_d : d.Sound) : (Dev.takeCredit d k b).Sound := by
  unfold Dev.takeCredit
  (try lift_lets -underBinder)
  with_reducible repeat' (first
    | assumption | (intro x; have hx : Dev.Sound x; unfold x; rotate_left; clear_value x) | (intro x; clear_value x)
    | lift_lets -underBinder | apply sound_ite | apply Dev.modLink_sound | apply Dev.releaseTo_sound)

theorem Dev.takePeer_sound {d : Dev} {k : Nat} {b : Bytes} (h_d : d.Sound) : (Dev.takePeer d k b).Sound := by
  unfold Dev.takePeer
  with_reducible repeat' (first
    | assumption | lift_lets -underBinder | apply Dev.put_sound)

theorem Dev.takeInit_sound {d : Dev} {k : Nat} {b : Bytes} (h_d : d.Sound) : (Dev.takeInit d k b).Sound := by
  unfold Dev.takeInit
  with_reducible repeat' (first
    | assumption | lift_lets -underBinder | apply Dev.takePeer_sound | apply Dev.seqReset_sound | apply Dev.sendInit_sound)

theorem Dev.takeInitAck_sound {d : Dev} {k : Nat} {b : Bytes} (h_d : d.Sound) : (Dev.takeInitAck d k b).Sound := by
  unfold Dev.takeInitAck
  (try lift_lets -underBinder)
  with_reducible repeat' (first
    | assumption | (intro x; have hx : Dev.Sound x; unfold x; rotate_left; clear_value x) | lift_lets -underBinder
    | apply sound_ite | apply Dev.takePeer_sound | apply Dev.put_sound | apply Dev.modLink_sound | apply Dev.keyTry_sound
    | apply Dev.activeEnter_sound | apply Dev.raise_sound)

theorem Dev.takeSpareReq_sound {d : Dev} {k lane t : Nat} (h_d : d.Sound) : (Dev.takeSpareReq d k lane t).Sound := by
  unfold Dev.takeSpareReq
  with_reducible repeat' (first
    | assumption | (intro x; clear_value x) | lift_lets -underBinder | apply sound_ite | apply Dev.sendPkt_sound
    | apply Dev.modLink_sound | split)

theorem Dev.takeSpare_sound {d : Dev} {k : Nat} {b : Bytes} (h_d : d.Sound) : (Dev.takeSpare d k b).Sound := by
  unfold Dev.takeSpare
  (try lift_lets -underBinder)
  with_reducible repeat' (first
    | assumption | (intro x; have hx : Dev.Sound x; unfold x; rotate_left; clear_value x) | (intro x; clear_value x)
    | lift_lets -underBinder | apply sound_ite | apply Dev.takeSpareReq_sound | apply Dev.modLink_sound
    | apply Dev.txSwap_sound | apply Dev.setOctet_sound | apply Dev.spareFail_sound | split)

theorem Dev.takeTime_sound {d : Dev} {k : Nat} {b : Bytes} {at_ : Nat} (h_d : d.Sound) : (Dev.takeTime d k b at_).Sound := by
  unfold Dev.takeTime
  (try lift_lets -underBinder)
  with_reducible repeat' (first
    | assumption | (intro x; have hx : Dev.Sound x; unfold x; rotate_left; clear_value x) | (intro x; clear_value x)
    | lift_lets -underBinder | apply sound_ite | apply Dev.sendPkt_sound | apply Dev.modLink_sound | apply Dev.put_sound
    | apply Dev.servo_sound | split)

theorem Dev.takeCrumb_sound {d : Dev} {k : Nat} {b : Bytes} (h_d : d.Sound) : (Dev.takeCrumb d k b).Sound := by
  unfold Dev.takeCrumb
  (try lift_lets -underBinder)
  with_reducible repeat' (first
    | assumption | (intro x; have hx : Dev.Sound x; unfold x; rotate_left; clear_value x)
    | (intro x; have hx : Obs := x; clear hx; unfold x; clear x)
    | (intro x; have hx : Crumb := x; clear hx; unfold x; clear x) | (intro x; clear_value x) | (intro _)
    | lift_lets -underBinder | apply sound_ite | apply Dev.sendCrumb_sound | apply Dev.addEdge_sound | apply Dev.raise_sound
    | (simp only [sound_mk]; apply sound_of))

theorem Dev.takeRoute_sound {d : Dev} {k : Nat} {b : Bytes} (h_d : d.Sound) : (Dev.takeRoute d k b).Sound := by
  unfold Dev.takeRoute
  (try lift_lets -underBinder)
  with_reducible repeat' (first
    | assumption | (intro x; have hx : Dev.Sound x; unfold x; rotate_left; clear_value x) | (intro x; clear_value x)
    | lift_lets -underBinder | apply sound_ite | apply Dev.modLink_sound | apply Dev.withdrawLost_sound)

theorem Dev.takePacket_sound {d : Dev} {k : Nat} {b : Bytes} {at_ : Nat} (h_d : d.Sound) : (Dev.takePacket d k b at_).Sound := by
  unfold Dev.takePacket
  with_reducible repeat' (first
    | assumption | lift_lets -underBinder | apply sound_ite | apply Dev.takeMessage_sound | apply Dev.releaseTo_sound
    | apply Dev.takeNak_sound | apply Dev.takeCredit_sound | apply Dev.takeInit_sound | apply Dev.takeInitAck_sound
    | apply Dev.takeSpare_sound | apply Dev.takeTime_sound | apply Dev.takeCrumb_sound | apply Dev.takeRoute_sound | split)

theorem Dev.releaseCells_sound {d : Dev} {k : Nat} {b : Bytes} {n : Nat} (h_d : d.Sound) : (Dev.releaseCells d k b n).Sound := by
  unfold Dev.releaseCells
  (try lift_lets -underBinder)
  with_reducible repeat' (first
    | assumption | (intro x; clear_value x) | lift_lets -underBinder | apply sound_ite | apply Dev.showCells_sound
    | apply Dev.openHeader_sound)

theorem Dev.segPassed_sound {d : Dev} {k n : Nat} (h_d : d.Sound) : (Dev.segPassed d k n).Sound := by
  unfold Dev.segPassed
  (try lift_lets -underBinder)
  with_reducible repeat' (first
    | assumption | (intro x; have hx : Dev.Sound x; unfold x; rotate_left; clear_value x) | (intro x; clear_value x)
    | (intro _) | lift_lets -underBinder | apply sound_ite | apply sound_foldl | apply Dev.modLink_sound
    | apply Dev.takePacket_sound | apply Dev.releaseCells_sound)

theorem Dev.takeMac_sound {d : Dev} {k blk : Nat} {b : Bytes} (h_d : d.Sound) : (Dev.takeMac d k blk b).Sound := by
  unfold Dev.takeMac
  (try lift_lets -underBinder)
  with_reducible repeat' (first
    | assumption | (intro x; have hx : Dev.Sound x; unfold x; rotate_left; clear_value x) | (intro x; clear_value x)
    | lift_lets -underBinder | apply sound_ite | apply Dev.modLink_sound | apply Dev.segPassed_sound
    | apply Dev.keyTry_sound | apply Dev.closeBad_sound | apply Dev.linkDownEv_sound | apply Dev.raise_sound)

theorem Dev.takeKeySwitch_sound {d : Dev} {k blk : Nat} {b : Bytes} (h_d : d.Sound) : (Dev.takeKeySwitch d k blk b).Sound := by
  unfold Dev.takeKeySwitch
  (try lift_lets -underBinder)
  with_reducible repeat' (first
    | assumption | (intro x; clear_value x) | apply Dev.modLink_sound)

theorem Dev.timeCut_sound {d : Dev} {k : Nat} (h_d : d.Sound) : (Dev.timeCut d k).Sound := by
  unfold Dev.timeCut
  with_reducible repeat' (first
    | assumption | apply Dev.modLink_sound)

theorem Dev.retxMark_sound {d : Dev} {k : Nat} {b : Bytes} {blks : List Nat} (h_d : d.Sound) : (Dev.retxMark d k b blks).Sound := by
  unfold Dev.retxMark
  with_reducible repeat' (first
    | assumption | lift_lets -underBinder | apply sound_ite | apply Dev.modLink_sound)

theorem Dev.packetIn_sound {d : Dev} {k : Nat} {b : Bytes} {blks : List Nat} (h_d : d.Sound) : (Dev.packetIn d k b blks).Sound := by
  unfold Dev.packetIn
  (try lift_lets -underBinder)
  with_reducible repeat' (first
    | assumption | (intro x; have hx : Dev.Sound x; unfold x; rotate_left; clear_value x) | (intro x; clear_value x)
    | lift_lets -underBinder | apply sound_ite | apply Dev.retxMark_sound | apply Dev.timeCut_sound
    | apply Dev.takeMac_sound | apply Dev.takeKeySwitch_sound | apply Dev.modLink_sound | apply Dev.takePacket_sound)

theorem Dev.takeFront_sound {d : Dev} {k : Nat} {b : Bytes} (h_d : d.Sound) : (Dev.takeFront d k b).Sound := by
  unfold Dev.takeFront
  (try lift_lets -underBinder)
  with_reducible repeat' (first
    | assumption | (intro x; have hx : Dev.Sound x; unfold x; rotate_left; clear_value x) | (intro x; clear_value x)
    | lift_lets -underBinder | apply sound_ite | apply Dev.popFront_sound | apply Dev.packetIn_sound
    | apply Dev.frontCheck_sound)

theorem Dev.rowPkt_sound {d : Dev} {k t : Nat} {sub : Option Nat} (h_d : d.Sound) : (Dev.rowPkt d k t sub).Sound := by
  unfold Dev.rowPkt
  with_reducible repeat' (first
    | assumption | lift_lets -underBinder | apply sound_ite | apply Dev.takeFront_sound | split)

theorem Dev.takeWhole_sound {f k : Nat} {d : Dev} (h_d : d.Sound) : (Dev.takeWhole f d k).Sound := by
  induction f generalizing d with
  | zero => exact h_d
  | succ f ih =>
    unfold Dev.takeWhole
    split
    · exact h_d
    · split
      · exact h_d
      · exact ih (Dev.takeFront_sound h_d)


theorem Dev.cellsCome_sound {d : Dev} {k : Nat} (h_d : d.Sound) : (Dev.cellsCome d k).Sound := by
  unfold Dev.cellsCome
  (try lift_lets -underBinder)
  with_reducible repeat' (first
    | assumption | (intro x; clear_value x) | lift_lets -underBinder | apply sound_ite | apply Dev.releaseCells_sound)

theorem Dev.packetCut_sound {d : Dev} {k : Nat} (h_d : d.Sound) : (Dev.packetCut d k).Sound := by
  unfold Dev.packetCut
  (try lift_lets -underBinder)
  with_reducible repeat' (first
    | assumption | (intro x; have hx : Dev.Sound x; unfold x; rotate_left; clear_value x)
    | (intro x; have hx : ∀ e : Dev, Dev.Sound e → Dev.Sound (x e); unfold x; rotate_left; clear_value x)
    | (intro x; clear_value x) | (intro _) | lift_lets -underBinder | apply sound_ite | apply Dev.sendNak_sound
    | apply Dev.closeOpen_sound | apply Dev.pushBad_sound | apply Dev.raise_sound | apply Dev.sendAck_sound
    | apply_assumption)

theorem Dev.blockLost_sound {d : Dev} {k : Nat} (h_d : d.Sound) : (Dev.blockLost d k).Sound := by
  unfold Dev.blockLost
  (try lift_lets -underBinder)
  with_reducible repeat' (first
    | assumption | (intro x; have hx : Dev.Sound x; unfold x; rotate_left; clear_value x) | lift_lets -underBinder
    | apply sound_ite | apply Dev.takeWhole_sound | apply Dev.packetCut_sound | apply Dev.parseLose_sound
    | apply Dev.modLink_sound | split)

theorem Dev.blockData_sound {d : Dev} {k n : Nat} {start : Bool} {pl : Bytes} (h_d : d.Sound) : (Dev.blockData d k n start pl).Sound := by
  unfold Dev.blockData
  (try lift_lets -underBinder)
  with_reducible repeat' (first
    | assumption | (intro x; have hx : Dev.Sound x; unfold x; rotate_left; clear_value x) | (intro x; clear_value x)
    | (intro _) | lift_lets -underBinder | apply sound_ite | apply Dev.takeWhole_sound | apply Dev.parseLose_sound
    | apply Dev.modLink_sound | apply Dev.frontCheck_sound | apply Dev.cellsCome_sound)

theorem Dev.streamBlock_sound {d : Dev} {k lane : Nat} {x : RxBlk} (h_d : d.Sound) : (Dev.streamBlock d k lane x).Sound := by
  unfold Dev.streamBlock
  (try lift_lets -underBinder)
  with_reducible repeat' (first
    | assumption | (intro x; have hx : Dev.Sound x; unfold x; rotate_left; clear_value x) | (intro x; clear_value x)
    | lift_lets -underBinder | apply sound_ite | apply Dev.modLink_sound | apply Dev.blockData_sound
    | apply Dev.blockLost_sound | split)

theorem Dev.rxDrain_sound {f k : Nat} {d : Dev} (h_d : d.Sound) : (Dev.rxDrain f d k).Sound := by
  induction f generalizing d with
  | zero => exact h_d
  | succ f ih =>
    unfold Dev.rxDrain
    dsimp only
    split
    · refine ih ?_
      with_reducible exact Dev.streamBlock_sound (Dev.modLink_sound h_d)
    · split
      · exact h_d
      · refine ih ?_
        with_reducible exact Dev.streamBlock_sound (Dev.modLink_sound h_d)

theorem Dev.blockIn_sound {d : Dev} {k n : Nat} {x : RxBlk} (h_d : d.Sound) : (Dev.blockIn d k n x).Sound := by
  unfold Dev.blockIn
  (try lift_lets -underBinder)
  with_reducible repeat' (first
    | assumption | (intro x; have hx : Dev.Sound x; unfold x; rotate_left; clear_value x) | apply Dev.modLink_sound
    | apply Dev.rxDrain_sound)

theorem Dev.blockUncorr_sound {d : Dev} {k lane bad : Nat} (h_d : d.Sound) : (Dev.blockUncorr d k lane bad).Sound := by
  unfold Dev.blockUncorr
  (try lift_lets -underBinder)
  with_reducible repeat' (first
    | assumption | (intro x; have hx : Dev.Sound x; unfold x; rotate_left; clear_value x) | (intro x; clear_value x)
    | lift_lets -underBinder | apply sound_ite | apply Dev.laneCounts_sound | apply Dev.raise_sound
    | apply Dev.blockIn_sound)

theorem Dev.blockGood_sound {d : Dev} {k lane bad : Nat} {b : Bytes} {n : Nat} (h_d : d.Sound) : (Dev.blockGood d k lane bad b n).Sound := by
  unfold Dev.blockGood
  (try lift_lets -underBinder)
  with_reducible repeat' (first
    | assumption | (intro x; have hx : Dev.Sound x; unfold x; rotate_left; clear_value x) | (intro x; clear_value x)
    | lift_lets -underBinder | apply sound_ite | apply Dev.laneCounts_sound | apply Dev.blockIn_sound)

theorem Dev.dunrunBlockRow_sound {d : Dev} {k lane : Nat} {raw : Bytes} (h_d : d.Sound) : (Dev.dunrunBlockRow d k lane raw).Sound := by
  unfold Dev.dunrunBlockRow
  (try lift_lets -underBinder)
  with_reducible repeat' (first
    | assumption | (intro x; have hx : Dev.Sound x; unfold x; rotate_left; clear_value x) | (intro x; clear_value x)
    | lift_lets -underBinder | apply sound_ite | apply Dev.blockUncorr_sound | apply Dev.blockGood_sound
    | apply Dev.laneHeader_sound | split)

theorem Dev.messagePacketRow_sound {d : Dev} {k : Nat} (h_d : d.Sound) : (Dev.messagePacketRow d k).Sound := by
  unfold Dev.messagePacketRow
  with_reducible repeat' (first
    | assumption | lift_lets -underBinder | apply sound_ite | apply Dev.rowPkt_sound | apply Dev.cellsCome_sound | split)

theorem Dev.ackRow_sound {d : Dev} {k : Nat} (h_d : d.Sound) : (Dev.ackRow d k).Sound := by
  unfold Dev.ackRow
  with_reducible repeat' (first
    | assumption | apply Dev.rowPkt_sound)

theorem Dev.nakRow_sound {d : Dev} {k : Nat} (h_d : d.Sound) : (Dev.nakRow d k).Sound := by
  unfold Dev.nakRow
  with_reducible repeat' (first
    | assumption | apply Dev.rowPkt_sound)

theorem Dev.creditRow_sound {d : Dev} {k : Nat} (h_d : d.Sound) : (Dev.creditRow d k).Sound := by
  unfold Dev.creditRow
  with_reducible repeat' (first
    | assumption | apply Dev.rowPkt_sound)

theorem Dev.initRow_sound {d : Dev} {k : Nat} (h_d : d.Sound) : (Dev.initRow d k).Sound := by
  unfold Dev.initRow
  with_reducible repeat' (first
    | assumption | apply Dev.rowPkt_sound)

theorem Dev.initAckRow_sound {d : Dev} {k : Nat} (h_d : d.Sound) : (Dev.initAckRow d k).Sound := by
  unfold Dev.initAckRow
  with_reducible repeat' (first
    | assumption | apply Dev.rowPkt_sound)

theorem Dev.spareReqRow_sound {d : Dev} {k : Nat} (h_d : d.Sound) : (Dev.spareReqRow d k).Sound := by
  unfold Dev.spareReqRow
  with_reducible repeat' (first
    | assumption | apply Dev.rowPkt_sound)

theorem Dev.spareAckRow_sound {d : Dev} {k : Nat} (h_d : d.Sound) : (Dev.spareAckRow d k).Sound := by
  unfold Dev.spareAckRow
  with_reducible repeat' (first
    | assumption | apply Dev.rowPkt_sound)

theorem Dev.spareDoneRow_sound {d : Dev} {k : Nat} (h_d : d.Sound) : (Dev.spareDoneRow d k).Sound := by
  unfold Dev.spareDoneRow
  with_reducible repeat' (first
    | assumption | apply Dev.rowPkt_sound)

theorem Dev.spareNackRow_sound {d : Dev} {k : Nat} (h_d : d.Sound) : (Dev.spareNackRow d k).Sound := by
  unfold Dev.spareNackRow
  with_reducible repeat' (first
    | assumption | apply Dev.rowPkt_sound)

theorem Dev.timeReqRow_sound {d : Dev} {k : Nat} (h_d : d.Sound) : (Dev.timeReqRow d k).Sound := by
  unfold Dev.timeReqRow
  with_reducible repeat' (first
    | assumption | apply Dev.rowPkt_sound)

theorem Dev.timeRespRow_sound {d : Dev} {k : Nat} (h_d : d.Sound) : (Dev.timeRespRow d k).Sound := by
  unfold Dev.timeRespRow
  with_reducible repeat' (first
    | assumption | apply Dev.rowPkt_sound)

theorem Dev.timeFollowRow_sound {d : Dev} {k : Nat} (h_d : d.Sound) : (Dev.timeFollowRow d k).Sound := by
  unfold Dev.timeFollowRow
  with_reducible repeat' (first
    | assumption | apply Dev.rowPkt_sound)

theorem Dev.crumbRow_sound {d : Dev} {k : Nat} (h_d : d.Sound) : (Dev.crumbRow d k).Sound := by
  unfold Dev.crumbRow
  with_reducible repeat' (first
    | assumption | apply Dev.rowPkt_sound)

theorem Dev.routeWithdrawRow_sound {d : Dev} {k : Nat} (h_d : d.Sound) : (Dev.routeWithdrawRow d k).Sound := by
  unfold Dev.routeWithdrawRow
  with_reducible repeat' (first
    | assumption | apply Dev.rowPkt_sound)

theorem Dev.routeRestoreRow_sound {d : Dev} {k : Nat} (h_d : d.Sound) : (Dev.routeRestoreRow d k).Sound := by
  unfold Dev.routeRestoreRow
  with_reducible repeat' (first
    | assumption | apply Dev.rowPkt_sound)

theorem Dev.secMacRow_sound {d : Dev} {k : Nat} (h_d : d.Sound) : (Dev.secMacRow d k).Sound := by
  unfold Dev.secMacRow
  with_reducible repeat' (first
    | assumption | apply Dev.rowPkt_sound)

theorem Dev.keySwitchRow_sound {d : Dev} {k : Nat} (h_d : d.Sound) : (Dev.keySwitchRow d k).Sound := by
  unfold Dev.keySwitchRow
  with_reducible repeat' (first
    | assumption | apply Dev.rowPkt_sound)

theorem Dev.drlAttach_sound {d : Dev} {k oct : Nat} {valid : Bool} (h_d : d.Sound) : (Dev.drlAttach d k oct valid).Sound := by
  unfold Dev.drlAttach
  with_reducible repeat' (first
    | assumption | lift_lets -underBinder | apply sound_ite | apply Dev.put_sound | apply Dev.modLink_sound)

theorem Dev.drlAttachRow_sound {d : Dev} {path k oct : Nat} {valid : Bool} (h_d : d.Sound) : (Dev.drlAttachRow d path k oct valid).Sound := by
  unfold Dev.drlAttachRow
  with_reducible repeat' (first
    | assumption | (intro _) | lift_lets -underBinder | apply Dev.access_sound | apply Dev.drlAttach_sound)

theorem Dev.linkInitRow_sound {d : Dev} {k : Nat} (h_d : d.Sound) : (Dev.linkInitRow d k).Sound := by
  unfold Dev.linkInitRow
  with_reducible repeat' (first
    | assumption | lift_lets -underBinder | apply sound_ite | apply Dev.initEnter_sound)

theorem Dev.initResendRow_sound {d : Dev} {k : Nat} (h_d : d.Sound) : (Dev.initResendRow d k).Sound := by
  unfold Dev.initResendRow
  with_reducible repeat' (first
    | assumption | lift_lets -underBinder | apply sound_ite | apply Dev.sendInit_sound)

theorem Dev.nakResendRow_sound {d : Dev} {k : Nat} (h_d : d.Sound) : (Dev.nakResendRow d k).Sound := by
  unfold Dev.nakResendRow
  with_reducible repeat' (first
    | assumption | lift_lets -underBinder | apply sound_ite | apply Dev.sendNak_sound)

theorem Dev.ackNsTimerRow_sound {d : Dev} {k : Nat} (h_d : d.Sound) : (Dev.ackNsTimerRow d k).Sound := by
  unfold Dev.ackNsTimerRow
  with_reducible repeat' (first
    | assumption | lift_lets -underBinder | apply sound_ite | apply Dev.sendAck_sound)

theorem Dev.ackIdleTimerRow_sound {d : Dev} {k : Nat} (h_d : d.Sound) : (Dev.ackIdleTimerRow d k).Sound := by
  unfold Dev.ackIdleTimerRow
  with_reducible repeat' (first
    | assumption | lift_lets -underBinder | apply sound_ite | apply Dev.sendAck_sound)

theorem Dev.replayTimeoutRow_sound {d : Dev} {k : Nat} (h_d : d.Sound) : (Dev.replayTimeoutRow d k).Sound := by
  unfold Dev.replayTimeoutRow
  with_reducible repeat' (first
    | assumption | lift_lets -underBinder | apply sound_ite | apply Dev.replayFrom_sound)

theorem Dev.liveTimeoutRow_sound {d : Dev} {k : Nat} (h_d : d.Sound) : (Dev.liveTimeoutRow d k).Sound := by
  unfold Dev.liveTimeoutRow
  with_reducible repeat' (first
    | assumption | lift_lets -underBinder | apply sound_ite | apply Dev.linkDownEv_sound)

theorem Dev.packetOut_sound {d : Dev} {k : Nat} {m : Msg} {rest : List Msg} (h_d : d.Sound) : (Dev.packetOut d k m rest).Sound := by
  unfold Dev.packetOut
  (try lift_lets -underBinder)
  with_reducible repeat' (first
    | assumption | (intro x; have hx : Dev.Sound x; unfold x; rotate_left; clear_value x) | (intro x; clear_value x)
    | lift_lets -underBinder | apply sound_ite | apply Dev.modPort_sound | apply Dev.setTx_sound | apply Dev.modLink_sound
    | apply Dev.count_sound | apply Dev.stampStart_sound | apply Dev.sendPkt_sound | (simp only [sound_mk]; apply sound_of))

theorem Dev.messagePacketSendRow_sound {d : Dev} {k : Nat} (h_d : d.Sound) : (Dev.messagePacketSendRow d k).Sound := by
  unfold Dev.messagePacketSendRow
  (try lift_lets -underBinder)
  with_reducible repeat' (first
    | assumption | (intro x; clear_value x) | lift_lets -underBinder | apply sound_ite | apply Dev.packetOut_sound | split)

theorem Dev.creditTimerRow_sound {d : Dev} {k : Nat} (h_d : d.Sound) : (Dev.creditTimerRow d k).Sound := by
  unfold Dev.creditTimerRow
  with_reducible repeat' (first
    | assumption | (intro _) | lift_lets -underBinder | apply sound_ite | apply sound_foldl | apply Dev.sendCredit_sound)

theorem Dev.creditStallRow_sound {d : Dev} {k vc : Nat} (h_d : d.Sound) : (Dev.creditStallRow d k vc).Sound := by
  unfold Dev.creditStallRow
  with_reducible repeat' (first
    | assumption | lift_lets -underBinder | apply sound_ite | apply Dev.raise_sound)

theorem Dev.timeExchangeRow_sound {d : Dev} {k : Nat} (h_d : d.Sound) : (Dev.timeExchangeRow d k).Sound := by
  unfold Dev.timeExchangeRow
  (try lift_lets -underBinder)
  with_reducible repeat' (first
    | assumption | (intro x; clear_value x) | lift_lets -underBinder | apply sound_ite | apply Dev.modLink_sound
    | apply Dev.sendPkt_sound)

theorem Dev.spareSwap_sound {d : Dev} {k : Nat} {x : Spare} {sp : Nat} (h_d : d.Sound) : (Dev.spareSwap d k x sp).Sound := by
  unfold Dev.spareSwap
  (try lift_lets -underBinder)
  with_reducible repeat' (first
    | assumption | (intro x; have hx : Dev.Sound x; unfold x; rotate_left; clear_value x) | (intro x; clear_value x)
    | lift_lets -underBinder | apply Dev.put_sound | apply Dev.setLanes_sound | apply Dev.timeCut_sound
    | apply Dev.modLink_sound | apply Dev.sendPkt_sound | apply Dev.raise_sound | split)

theorem Dev.spareBlockSwitchRow_sound {d : Dev} {k : Nat} (h_d : d.Sound) : (Dev.spareBlockSwitchRow d k).Sound := by
  unfold Dev.spareBlockSwitchRow
  (try lift_lets -underBinder)
  with_reducible repeat' (first
    | assumption | (intro x; clear_value x) | lift_lets -underBinder | apply sound_ite | apply Dev.spareSwap_sound | split)

theorem Dev.spareReqRepeatRow_sound {d : Dev} {k : Nat} (h_d : d.Sound) : (Dev.spareReqRepeatRow d k).Sound := by
  unfold Dev.spareReqRepeatRow
  (try lift_lets -underBinder)
  with_reducible repeat' (first
    | assumption | (intro x; clear_value x) | (intro _) | lift_lets -underBinder | apply sound_ite | apply sound_foldl
    | apply Dev.sendPkt_sound)

theorem Dev.spareTimeoutRow_sound {d : Dev} {k : Nat} (h_d : d.Sound) : (Dev.spareTimeoutRow d k).Sound := by
  unfold Dev.spareTimeoutRow
  (try lift_lets -underBinder)
  with_reducible repeat' (first
    | assumption | (intro x; clear_value x) | lift_lets -underBinder | apply sound_ite | apply Dev.spareFail_sound)

theorem Dev.calNote_sound {d : Dev} (h_d : d.Sound) : (Dev.calNote d).Sound := by
  unfold Dev.calNote
  with_reducible repeat' (first
    | assumption | lift_lets -underBinder | apply sound_ite | apply Dev.put_sound)

theorem Dev.calDoneRow_sound {d : Dev} {o : Nat} (h_d : d.Sound) : (Dev.calDoneRow d o).Sound := by
  unfold Dev.calDoneRow
  (try lift_lets -underBinder)
  with_reducible repeat' (first
    | assumption | (intro x; have hx : Dev.Sound x; unfold x; rotate_left; clear_value x) | (intro x; clear_value x)
    | lift_lets -underBinder | apply sound_ite | apply Dev.setOctet_sound | apply Dev.put_sound | apply Dev.octetGo_sound
    | apply Dev.calNote_sound)

theorem Dev.calTimeoutRow_sound {d : Dev} {o : Nat} (h_d : d.Sound) : (Dev.calTimeoutRow d o).Sound := by
  unfold Dev.calTimeoutRow
  with_reducible repeat' (first
    | assumption | lift_lets -underBinder | apply sound_ite | apply Dev.put_sound | apply Dev.enterFailed_sound
    | apply Dev.calNote_sound)

theorem Dev.failedRetryRow_sound {d : Dev} {o : Nat} (h_d : d.Sound) : (Dev.failedRetryRow d o).Sound := by
  unfold Dev.failedRetryRow
  with_reducible repeat' (first
    | assumption | lift_lets -underBinder | apply sound_ite | apply Dev.enterCal_sound | apply Dev.enterDrLock_sound)

theorem Dev.chipletPllLossRow_sound {d : Dev} {c : Nat} (h_d : d.Sound) : (Dev.chipletPllLossRow d c).Sound := by
  unfold Dev.chipletPllLossRow
  with_reducible repeat' (first
    | assumption | (intro _) | lift_lets -underBinder | apply sound_foldl | apply Dev.octetPllLoss_sound)

theorem Dev.pllRelockRow_sound {d : Dev} {c : Nat} (h_d : d.Sound) : (Dev.pllRelockRow d c).Sound := by
  unfold Dev.pllRelockRow
  with_reducible repeat' (first
    | assumption | (intro x; clear_value x) | (intro _) | lift_lets -underBinder | apply sound_ite | apply sound_foldl
    | apply Dev.persist_sound | apply Dev.enterCal_sound)

theorem Dev.elasticBad_sound {d : Dev} {o lane : Nat} (h_d : d.Sound) : (Dev.elasticBad d o lane).Sound := by
  unfold Dev.elasticBad
  (try lift_lets -underBinder)
  with_reducible repeat' (first
    | assumption | (intro x; have hx : Dev.Sound x; unfold x; rotate_left; clear_value x) | lift_lets -underBinder
    | apply sound_ite | apply Dev.raise_sound | apply Dev.blockUncorr_sound | apply Dev.flitBad_sound | split)

theorem Dev.elasticErrRow_sound {d : Dev} {o lane : Nat} (h_d : d.Sound) : (Dev.elasticErrRow d o lane).Sound := by
  unfold Dev.elasticErrRow
  with_reducible repeat' (first
    | assumption | lift_lets -underBinder | apply sound_ite | apply Dev.elasticBad_sound)

theorem Dev.eqFull_sound {d : Dev} {rate : Nat} {ol : Nat × Nat} {preset : Nat} (h_d : d.Sound) : (Dev.eqFull d rate ol preset).Sound := by
  unfold Dev.eqFull
  with_reducible repeat' (first
    | assumption | (intro x; have hx : Dev.Sound x; unfold x; rotate_left; clear_value x) | lift_lets -underBinder
    | apply Dev.modLane_sound | apply Dev.put_sound | (refine Dev.fresh_at ‹_ = _› ?_) | split)

theorem Dev.eqCached_sound {d : Dev} {rate : Nat} {ol : Nat × Nat} (h_d : d.Sound) : (Dev.eqCached d rate ol).Sound := by
  unfold Dev.eqCached
  with_reducible repeat' (first
    | assumption | lift_lets -underBinder | apply Dev.fresh_sound | apply Dev.modLane_sound | split)

theorem Dev.noReceiver_sound {d : Dev} {ol : Nat × Nat} (h_d : d.Sound) : (Dev.noReceiver d ol).Sound := by
  unfold Dev.noReceiver
  with_reducible repeat' (first
    | assumption | lift_lets -underBinder | apply Dev.setWord_sound | apply Dev.put_sound | apply Dev.modLane_sound)

theorem Dev.equalise_sound {d : Dev} {p rate : Nat} {cached : Bool} {used presets : List Nat} (h_d : d.Sound) : (Dev.equalise d p rate cached used presets).Sound := by
  unfold Dev.equalise
  (try lift_lets -underBinder)
  with_reducible repeat' (first
    | assumption | (intro x; have hx : Dev.Sound x; unfold x; rotate_left; clear_value x) | (intro x; clear_value x)
    | (intro _) | lift_lets -underBinder | apply sound_ite | apply sound_foldl | apply Dev.emit_sound
    | apply Dev.eqCached_sound | apply Dev.eqFull_sound)

theorem Dev.l0Lane_sound {d : Dev} {o l n : Nat} {used : Bool} (h_d : d.Sound) : (Dev.l0Lane d o l n used).Sound := by
  unfold Dev.l0Lane
  (try lift_lets -underBinder)
  with_reducible repeat' (first
    | assumption | (intro x; have hx : Dev.Sound x; unfold x; rotate_left; clear_value x) | lift_lets -underBinder
    | apply sound_ite | apply Dev.put_sound | apply Dev.setLanes_sound | apply Dev.modLane_sound)

theorem Dev.l0Go_sound {d : Dev} {p rate : Nat} {used : List Nat} (h_d : d.Sound) : (Dev.l0Go d p rate used).Sound := by
  unfold Dev.l0Go
  (try lift_lets -underBinder)
  with_reducible repeat' (first
    | assumption | (intro x; have hx : Dev.Sound x; unfold x; rotate_left; clear_value x) | (intro x; clear_value x)
    | (intro _) | lift_lets -underBinder | apply sound_ite | apply sound_foldl | apply Dev.l0Lane_sound
    | apply Dev.put_sound | apply Dev.setPortState_sound | apply Dev.modPort_sound | apply Dev.noteBr_sound
    | apply Dev.emit_sound | apply Dev.hotPlug_sound)

theorem Dev.detected_sound {d : Dev} {p : Nat} {t : CxlTrain} (h_d : d.Sound) : (Dev.detected d p t).Sound := by
  unfold Dev.detected
  (try lift_lets -underBinder)
  with_reducible repeat' (first
    | assumption | (intro x; have hx : Dev.Sound x; unfold x; rotate_left; clear_value x) | (intro x; clear_value x)
    | (intro _) | lift_lets -underBinder | apply sound_ite | apply sound_foldl | apply Dev.noReceiver_sound
    | apply Dev.put_sound | apply Dev.modPort_sound)

theorem Dev.trainEnd_sound {d : Dev} {p : Nat} {fresh : Bool} {t : CxlTrain} (h_d : d.Sound) : (Dev.trainEnd d p fresh t).Sound := by
  unfold Dev.trainEnd
  (try lift_lets -underBinder)
  with_reducible repeat' (first
    | assumption | (intro x; have hx : Dev.Sound x; unfold x; rotate_left; clear_value x) | (intro x; clear_value x)
    | (intro _) | lift_lets -underBinder | apply sound_ite | apply sound_foldl | apply Dev.detected_sound
    | apply Dev.emit_sound | apply Dev.equalise_sound | apply Dev.modPort_sound | apply Dev.l0Go_sound | split)

theorem Dev.l0Back_sound {d : Dev} {p : Nat} (h_d : d.Sound) : (Dev.l0Back d p).Sound := by
  unfold Dev.l0Back
  (try lift_lets -underBinder)
  with_reducible repeat' (first
    | assumption | (intro x; clear_value x) | apply Dev.l0Go_sound)

theorem Dev.l0EntryRow_sound {d : Dev} {p : Nat} {t : CxlTrain} (h_d : d.Sound) : (Dev.l0EntryRow d p t).Sound := by
  unfold Dev.l0EntryRow
  (try lift_lets -underBinder)
  with_reducible repeat' (first
    | assumption | (intro x; clear_value x) | lift_lets -underBinder | apply sound_ite | apply Dev.trainEnd_sound
    | apply Dev.l0Back_sound)

theorem Dev.eqDrop_sound {d : Dev} {p rate : Nat} (h_d : d.Sound) : (Dev.eqDrop d p rate).Sound := by
  unfold Dev.eqDrop
  (try lift_lets -underBinder)
  with_reducible repeat' (first
    | assumption | (intro x; have hx : Dev.Sound x; unfold x; rotate_left; clear_value x) | (intro _)
    | lift_lets -underBinder | apply sound_ite | apply sound_foldl | apply Dev.put_sound | apply Dev.raise_sound
    | apply Dev.toRecovery_sound | split)

theorem Dev.eqFallbackRow_sound {d : Dev} {p rate : Nat} (h_d : d.Sound) : (Dev.eqFallbackRow d p rate).Sound := by
  unfold Dev.eqFallbackRow
  (try lift_lets -underBinder)
  with_reducible repeat' (first
    | assumption | (intro x; clear_value x) | lift_lets -underBinder | apply sound_ite | apply Dev.eqDrop_sound)

theorem Dev.recoveryRow_sound {d : Dev} {p : Nat} {exhaust : Bool} (h_d : d.Sound) : (Dev.recoveryRow d p exhaust).Sound := by
  unfold Dev.recoveryRow
  with_reducible repeat' (first
    | assumption | lift_lets -underBinder | apply sound_ite | apply Dev.raise_sound | apply Dev.toRecovery_sound)

theorem Dev.laneLossRow_sound {d : Dev} {p : Nat} {lost : List Nat} (h_d : d.Sound) : (Dev.laneLossRow d p lost).Sound := by
  unfold Dev.laneLossRow
  (try lift_lets -underBinder)
  with_reducible repeat' (first
    | assumption | (intro x; clear_value x) | (intro _) | lift_lets -underBinder | apply sound_ite | apply sound_foldl
    | apply Dev.laneGone_sound | apply Dev.narrow_sound)

theorem Dev.l1EntryRow_sound {d : Dev} {p : Nat} {l0p : Bool} (h_d : d.Sound) : (Dev.l1EntryRow d p l0p).Sound := by
  unfold Dev.l1EntryRow
  (try lift_lets -underBinder)
  with_reducible repeat' (first
    | assumption | (intro x; clear_value x) | (intro _) | lift_lets -underBinder | apply sound_ite | apply sound_foldl
    | apply Dev.fresh_sound | apply Dev.setLanes_sound | apply Dev.setPortState_sound)

theorem Dev.laneJudge_sound {d : Dev} {o : Nat} {cfg : W64} {eyes : List Nat} {l : Nat} (h_d : d.Sound) : (Dev.laneJudge d o cfg eyes l).2.Sound := by
  unfold Dev.laneJudge
  (try lift_lets -underBinder)
  with_reducible repeat' (first
    | assumption | (intro x; have hx : Dev.Sound x; unfold x; rotate_left; clear_value x)
    | (intro x; have hx : Dev.Sound (Prod.snd x); unfold x; rotate_left; clear_value x) | (intro x; clear_value x)
    | lift_lets -underBinder | apply Dev.fresh_sound | apply Dev.put_sound | apply Dev.modLane_sound)
theorem Dev.degraded_sound {d : Dev} {o : Nat} {new : List Nat} (h_d : d.Sound) : (Dev.degraded d o new).Sound := by
  unfold Dev.degraded
  (try lift_lets -underBinder)
  with_reducible repeat' (first
    | assumption | (intro x; have hx : Dev.Sound x; unfold x; rotate_left; clear_value x) | (intro _)
    | lift_lets -underBinder | apply sound_ite | apply sound_foldl | apply Dev.laneOut_sound | apply Dev.raise_sound
    | apply Dev.modLane_sound | apply Dev.narrow_sound)

theorem Dev.windowEnd_sound {d : Dev} {o : Nat} {eyes : List Nat} (h_d : d.Sound) : (Dev.windowEnd d o eyes).Sound := by
  unfold Dev.windowEnd
  (try lift_lets -underBinder)
  with_reducible repeat' (first
    | assumption | (intro x; have hx : Dev.Sound x; unfold x; rotate_left; clear_value x)
    | (intro x; have hx : Dev.Sound (Prod.snd x); unfold x; rotate_left; clear_value x) | (intro x; clear_value x)
    | (intro _) | lift_lets -underBinder | apply sound_foldlp | apply Dev.laneJudge_sound | apply Dev.setOctet_sound
    | apply Dev.degraded_sound)

theorem Dev.healthWindowRow_sound {d : Dev} {o : Nat} {eyes : List Nat} (h_d : d.Sound) : (Dev.healthWindowRow d o eyes).Sound := by
  unfold Dev.healthWindowRow
  with_reducible repeat' (first
    | assumption | lift_lets -underBinder | apply sound_ite | apply Dev.windowEnd_sound)

theorem Dev.nextReq_sound {d : Dev} {o l : Nat} (h_d : d.Sound) : (Dev.nextReq d o l).Sound := by
  unfold Dev.nextReq
  (try lift_lets -underBinder)
  with_reducible repeat' (first
    | assumption | (intro x; clear_value x) | lift_lets -underBinder | apply sound_ite | apply Dev.fresh_sound
    | apply Dev.modLane_sound)

theorem Dev.trainTake_sound {d : Dev} {o lane : Nat} {payload : Bytes} (h_d : d.Sound) : (Dev.trainTake d o lane payload).Sound := by
  unfold Dev.trainTake
  (try lift_lets -underBinder)
  with_reducible repeat' (first
    | assumption | (intro x; have hx : Dev.Sound x; unfold x; rotate_left; clear_value x) | (intro x; clear_value x)
    | lift_lets -underBinder | apply sound_ite | apply Dev.modLane_sound | apply Dev.setOctet_sound
    | apply Dev.nextReq_sound | apply Dev.trainSend_sound)

theorem Dev.trainingControlBlockRow_sound {d : Dev} {o lane : Nat} {payload : Bytes} (h_d : d.Sound) : (Dev.trainingControlBlockRow d o lane payload).Sound := by
  unfold Dev.trainingControlBlockRow
  with_reducible repeat' (first
    | assumption | lift_lets -underBinder | apply sound_ite | apply Dev.trainTake_sound)

theorem Dev.laneLockRow_sound {d : Dev} {o lane : Nat} {headers : List Nat} (h_d : d.Sound) : (Dev.laneLockRow d o lane headers).Sound := by
  unfold Dev.laneLockRow
  (try lift_lets -underBinder)
  with_reducible repeat' (first
    | assumption | (intro x; have hx : Dev.Sound x; unfold x; rotate_left; clear_value x) | (intro x; clear_value x)
    | lift_lets -underBinder | apply sound_ite | apply Dev.put_sound | apply Dev.modLane_sound)

theorem Dev.lockLostRow_sound {d : Dev} {o lane : Nat} {headers : List Nat} (h_d : d.Sound) : (Dev.lockLostRow d o lane headers).Sound := by
  unfold Dev.lockLostRow
  with_reducible repeat' (first
    | assumption | (intro _) | lift_lets -underBinder | apply sound_ite | apply sound_foldl | apply Dev.laneHeader_sound)

theorem Dev.storeTaps_sound {d : Dev} {o : Nat} (h_d : d.Sound) : (Dev.storeTaps d o).Sound := by
  unfold Dev.storeTaps
  with_reducible repeat' (first
    | assumption | (intro x; have hx : Dev.Sound x; unfold x; rotate_left; clear_value x) | (intro x; clear_value x)
    | (intro _) | lift_lets -underBinder | apply sound_foldl | apply Dev.put_sound | apply Dev.modLane_sound)

theorem Dev.enterDrTrain_sound {d : Dev} {o : Nat} (h_d : d.Sound) : (Dev.enterDrTrain d o).Sound := by
  unfold Dev.enterDrTrain
  (try lift_lets -underBinder)
  with_reducible repeat' (first
    | assumption | (intro x; have hx : Dev.Sound x; unfold x; rotate_left; clear_value x) | (intro _)
    | lift_lets -underBinder | apply sound_foldl | apply Dev.storeTaps_sound | apply Dev.drState_sound | apply Dev.put_sound
    | apply Dev.modLane_sound)

theorem Dev.drLockDoneRow_sound {d : Dev} {o : Nat} (h_d : d.Sound) : (Dev.drLockDoneRow d o).Sound := by
  unfold Dev.drLockDoneRow
  with_reducible repeat' (first
    | assumption | lift_lets -underBinder | apply sound_ite | apply Dev.enterDrTrain_sound)

theorem Dev.drLockTimeoutRow_sound {d : Dev} {o : Nat} (h_d : d.Sound) : (Dev.drLockTimeoutRow d o).Sound := by
  unfold Dev.drLockTimeoutRow
  with_reducible repeat' (first
    | assumption | lift_lets -underBinder | apply sound_ite | apply Dev.enterDrTrain_sound | apply Dev.enterFailed_sound)

theorem Dev.drTrainDoneRow_sound {d : Dev} {o : Nat} (h_d : d.Sound) : (Dev.drTrainDoneRow d o).Sound := by
  unfold Dev.drTrainDoneRow
  with_reducible repeat' (first
    | assumption | lift_lets -underBinder | apply sound_ite | apply Dev.storeTaps_sound | apply Dev.drState_sound)

theorem Dev.drTrainTimeoutRow_sound {d : Dev} {o : Nat} (h_d : d.Sound) : (Dev.drTrainTimeoutRow d o).Sound := by
  unfold Dev.drTrainTimeoutRow
  (try lift_lets -underBinder)
  with_reducible repeat' (first
    | assumption | (intro x; clear_value x) | lift_lets -underBinder | apply sound_ite | apply Dev.enterFailed_sound
    | apply Dev.setOctet_sound | apply Dev.enterDrLock_sound)

theorem Dev.txAlign_sound {d : Dev} {o : Nat} {rev : Bool} {w : Nat} (h_d : d.Sound) : (Dev.txAlign d o rev w).Sound := by
  unfold Dev.txAlign
  (try lift_lets -underBinder)
  with_reducible repeat' (first
    | assumption | (intro x; clear_value x) | apply Dev.setOctet_sound)

theorem Dev.alignDone_sound {d : Dev} {o : Nat} {rev : Bool} (h_d : d.Sound) : (Dev.alignDone d o rev).Sound := by
  unfold Dev.alignDone
  (try lift_lets -underBinder)
  with_reducible repeat' (first
    | assumption | (intro x; have hx : Dev.Sound x; unfold x; rotate_left; clear_value x) | (intro x; clear_value x)
    | (intro _) | lift_lets -underBinder | apply sound_foldl | apply Dev.storeTaps_sound | apply Dev.put_sound
    | apply Dev.setLanes_sound | apply Dev.modLane_sound | apply Dev.setOctet_sound | apply Dev.txAlign_sound
    | apply Dev.drState_sound | apply Dev.noteBr_sound | split)

theorem Dev.drAlignDoneRow_sound {d : Dev} {o skew : Nat} (h_d : d.Sound) : (Dev.drAlignDoneRow d o skew).Sound := by
  unfold Dev.drAlignDoneRow
  with_reducible repeat' (first
    | assumption | lift_lets -underBinder | apply sound_ite | apply Dev.enterFailed_sound | apply Dev.alignDone_sound
    | split)

theorem Dev.drAlignTimeoutRow_sound {d : Dev} {o : Nat} (h_d : d.Sound) : (Dev.drAlignTimeoutRow d o).Sound := by
  unfold Dev.drAlignTimeoutRow
  with_reducible repeat' (first
    | assumption | lift_lets -underBinder | apply sound_ite | apply Dev.enterFailed_sound)

theorem Dev.adaptRx_sound {d : Dev} {o l : Nat} (h_d : d.Sound) : (Dev.adaptRx d o l).Sound := by
  unfold Dev.adaptRx
  with_reducible repeat' (first
    | assumption | lift_lets -underBinder | apply sound_ite | apply Dev.fresh_sound | apply Dev.modLane_sound)

theorem Dev.drRetrainDoneRow_sound {d : Dev} {o : Nat} (h_d : d.Sound) : (Dev.drRetrainDoneRow d o).Sound := by
  unfold Dev.drRetrainDoneRow
  with_reducible repeat' (first
    | assumption | (intro _) | lift_lets -underBinder | apply sound_ite | apply sound_foldl | apply Dev.adaptRx_sound
    | apply Dev.drState_sound)

theorem Dev.drRetrainTimeoutRow_sound {d : Dev} {o : Nat} (h_d : d.Sound) : (Dev.drRetrainTimeoutRow d o).Sound := by
  unfold Dev.drRetrainTimeoutRow
  with_reducible repeat' (first
    | assumption | lift_lets -underBinder | apply sound_ite | apply Dev.enterDrLock_sound)

theorem Dev.marginRun_sound {d : Dev} {o : Nat} (h_d : d.Sound) : (Dev.marginRun d o).Sound := by
  unfold Dev.marginRun
  (try lift_lets -underBinder)
  with_reducible repeat' (first
    | assumption | (intro x; clear_value x) | lift_lets -underBinder | apply Dev.put_sound | apply Dev.setOctet_sound)

theorem Dev.marginStart_sound {d : Dev} {o : Nat} (h_d : d.Sound) : (Dev.marginStart d o).Sound := by
  unfold Dev.marginStart
  (try lift_lets -underBinder)
  with_reducible repeat' (first
    | assumption | (intro x; clear_value x) | lift_lets -underBinder | apply sound_ite | apply Dev.put_sound
    | apply Dev.marginRun_sound)

theorem Dev.marginEnd_sound {d : Dev} {o : Nat} (h_d : d.Sound) : (Dev.marginEnd d o).Sound := by
  unfold Dev.marginEnd
  with_reducible repeat' (first
    | assumption | apply Dev.marginAbort_sound | split)

theorem Dev.marginGoRow_sound {d : Dev} {path o : Nat} (h_d : d.Sound) : (Dev.marginGoRow d path o).Sound := by
  unfold Dev.marginGoRow
  with_reducible repeat' (first
    | assumption | (intro _) | lift_lets -underBinder | apply Dev.access_sound | apply Dev.marginStart_sound)

theorem Dev.marginStopRow_sound {d : Dev} {path o : Nat} (h_d : d.Sound) : (Dev.marginStopRow d path o).Sound := by
  unfold Dev.marginStopRow
  with_reducible repeat' (first
    | assumption | (intro _) | lift_lets -underBinder | apply Dev.access_sound | apply Dev.marginEnd_sound)

theorem Dev.partnerStep_sound {d : Dev} {o lane : Nat} {voltage right : Bool} {steps limit : Nat} (h_d : d.Sound) : (Dev.partnerStep d o lane voltage right steps limit).Sound := by
  unfold Dev.partnerStep
  (try lift_lets -underBinder)
  with_reducible repeat' (first
    | assumption | (intro x; clear_value x) | lift_lets -underBinder | apply sound_ite | apply Dev.emit_sound
    | apply Dev.setOctet_sound | apply Dev.put_sound)

theorem Dev.partnerMarginingRow_sound {d : Dev} {o lane : Nat} {cmd : MarginCmd} (h_d : d.Sound) : (Dev.partnerMarginingRow d o lane cmd).Sound := by
  unfold Dev.partnerMarginingRow
  (try lift_lets -underBinder)
  with_reducible repeat' (first
    | assumption | (intro x; clear_value x) | lift_lets -underBinder | apply sound_ite | apply Dev.emit_sound
    | apply Dev.partnerStep_sound | apply Dev.put_sound | apply Dev.setOctet_sound | split)

theorem Dev.marginDwellEndRow_sound {d : Dev} {o errs : Nat} (h_d : d.Sound) : (Dev.marginDwellEndRow d o errs).Sound := by
  unfold Dev.marginDwellEndRow
  with_reducible repeat' (first
    | assumption | (intro x; have hx : Dev.Sound x; unfold x; rotate_left; clear_value x) | (intro x; clear_value x)
    | lift_lets -underBinder | apply sound_ite | apply Dev.put_sound | apply Dev.marginAbort_sound
    | apply Dev.setOctet_sound | split)

theorem Dev.marginErrLimitRow_sound {d : Dev} {o : Nat} (h_d : d.Sound) : (Dev.marginErrLimitRow d o).Sound := by
  unfold Dev.marginErrLimitRow
  with_reducible repeat' (first
    | assumption | lift_lets -underBinder | apply Dev.put_sound | apply Dev.marginAbort_sound | split)

theorem Dev.eqCacheWrite_sound {d : Dev} {o l : Nat} {v m : W64} (h_d : d.Sound) : (Dev.eqCacheWrite d o l v m).Sound := by
  unfold Dev.eqCacheWrite
  (try lift_lets -underBinder)
  with_reducible repeat' (first
    | assumption | (intro x; clear_value x) | lift_lets -underBinder | apply Dev.setWord_sound | apply Dev.modLane_sound)

theorem Dev.eqCacheWriteRow_sound {d : Dev} {path o lane val : Nat} (h_d : d.Sound) : (Dev.eqCacheWriteRow d path o lane val).Sound := by
  unfold Dev.eqCacheWriteRow
  with_reducible repeat' (first
    | assumption | (intro _) | lift_lets -underBinder | apply Dev.access_sound | apply Dev.eqCacheWrite_sound)

theorem Dev.dropReq_sound {d : Dev} {c : Nat} {r : LdrReq} (h_d : d.Sound) : (Dev.dropReq d c r).Sound := by
  unfold Dev.dropReq
  (try lift_lets -underBinder)
  with_reducible repeat' (first
    | assumption | (intro x; have hx : Larder := x; clear hx; unfold x; clear x) | (simp only [sound_mk]; apply sound_of))

theorem Dev.ldrAnswer_sound {d : Dev} {r : LdrReq} {op : MOp} {data : Bytes} {poison : Bool} (h_d : d.Sound) : (Dev.ldrAnswer d r op data poison).Sound := by
  unfold Dev.ldrAnswer
  (try lift_lets -underBinder)
  with_reducible repeat' (first
    | assumption | (intro x; clear_value x) | lift_lets -underBinder | apply sound_ite | apply Dev.arriveRsp_sound
    | apply Dev.accessAnswer_sound)

theorem Dev.larderReadRow_sound {d : Dev} {c : Nat} (h_d : d.Sound) : (Dev.larderReadRow d c).Sound := by
  unfold Dev.larderReadRow
  with_reducible repeat' (first
    | assumption | lift_lets -underBinder | apply Dev.dropReq_sound | apply Dev.count_sound | apply Dev.readLine_sound
    | apply Dev.ldrAnswer_sound | split)

theorem Dev.larderWriteRow_sound {d : Dev} {c : Nat} (h_d : d.Sound) : (Dev.larderWriteRow d c).Sound := by
  unfold Dev.larderWriteRow
  with_reducible repeat' (first
    | assumption | (intro x; have hx : Dev.Sound x; unfold x; rotate_left; clear_value x) | lift_lets -underBinder
    | apply sound_ite | apply Dev.dropReq_sound | apply Dev.count_sound | apply Dev.ldrAnswer_sound
    | apply Dev.readLine_sound | apply Dev.writeLine_sound | split)

theorem Dev.scrubMove_sound {d : Dev} {c n : Nat} (h_d : d.Sound) : (Dev.scrubMove d c n).Sound := by
  unfold Dev.scrubMove
  (try lift_lets -underBinder)
  with_reducible repeat' (first
    | assumption | (intro x; have hx : Larder := x; clear hx; unfold x; clear x) | (simp only [sound_mk]; apply sound_of))

theorem Dev.scrubLine_sound {d : Dev} {c l : Nat} (h_d : d.Sound) : (Dev.scrubLine d c l).Sound := by
  unfold Dev.scrubLine
  (try lift_lets -underBinder)
  with_reducible repeat' (first
    | assumption | (intro x; have hx : Dev.Sound x; unfold x; rotate_left; clear_value x) | (intro x; clear_value x)
    | (intro _) | lift_lets -underBinder | apply sound_ite | apply Dev.rowOpen_sound | apply Dev.scrubMove_sound
    | apply Dev.put_sound | apply Dev.logUe_sound | apply Dev.setLine_sound | apply Dev.raise_sound
    | apply Dev.corrected_sound)

theorem Dev.scrubReadRow_sound {d : Dev} {c : Nat} (h_d : d.Sound) : (Dev.scrubReadRow d c).Sound := by
  unfold Dev.scrubReadRow
  with_reducible repeat' (first
    | assumption | lift_lets -underBinder | apply sound_ite | apply Dev.scrubLine_sound)

theorem Dev.pprRecord_sound {d : Dev} {c : Nat} (h_d : d.Sound) : (Dev.pprRecord d c).Sound := by
  unfold Dev.pprRecord
  (try lift_lets -underBinder)
  with_reducible repeat' (first
    | assumption | (intro x; have hx : Dev.Sound x; unfold x; rotate_left; clear_value x)
    | (intro x; have hx : Larder := x; clear hx; unfold x; clear x) | apply Dev.put_sound
    | (simp only [sound_mk]; apply sound_of))

theorem Dev.pprGo_sound {d : Dev} {c : Nat} (h_d : d.Sound) : (Dev.pprGo d c).Sound := by
  unfold Dev.pprGo
  with_reducible repeat' (first
    | assumption | lift_lets -underBinder | apply sound_ite | apply Dev.pprRecord_sound | apply Dev.startSoft_sound)

theorem Dev.pprSoftRow_sound {d : Dev} {path c : Nat} (h_d : d.Sound) : (Dev.pprSoftRow d path c).Sound := by
  unfold Dev.pprSoftRow
  with_reducible repeat' (first
    | assumption | (intro _) | lift_lets -underBinder | apply Dev.access_sound | apply Dev.put_sound | apply Dev.pprGo_sound)

theorem Dev.pprHardRow_sound {d : Dev} {path c : Nat} (h_d : d.Sound) : (Dev.pprHardRow d path c).Sound := by
  unfold Dev.pprHardRow
  with_reducible repeat' (first
    | assumption | (intro _) | lift_lets -underBinder | apply Dev.access_sound | apply Dev.put_sound | apply Dev.pprGo_sound)

theorem Dev.pprDoneRow_sound {d : Dev} {c res : Nat} (h_d : d.Sound) : (Dev.pprDoneRow d c res).Sound := by
  unfold Dev.pprDoneRow
  with_reducible repeat' (first
    | assumption | (intro x; have hx : Dev.Sound x; unfold x; rotate_left; clear_value x)
    | (intro x; have hx : Larder := x; clear hx; unfold x; clear x) | lift_lets -underBinder | apply sound_ite
    | apply Dev.put_sound | apply Dev.raise_sound | (simp only [sound_mk]; apply sound_of) | split)

theorem Dev.thermal_sound {d : Dev} {c temp : Nat} (h_d : d.Sound) : (Dev.thermal d c temp).Sound := by
  unfold Dev.thermal
  (try lift_lets -underBinder)
  with_reducible repeat' (first
    | assumption | (intro x; have hx : Dev.Sound x; unfold x; rotate_left; clear_value x)
    | (intro x; have hx : Larder := x; clear hx; unfold x; clear x) | (intro x; clear_value x) | lift_lets -underBinder
    | apply sound_ite | apply Dev.put_sound | apply Dev.raise_sound | (simp only [sound_mk]; apply sound_of))

theorem Dev.dimmThermalReadRow_sound {d : Dev} {c temp : Nat} (h_d : d.Sound) : (Dev.dimmThermalReadRow d c temp).Sound := by
  unfold Dev.dimmThermalReadRow
  with_reducible repeat' (first
    | assumption | lift_lets -underBinder | apply sound_ite | apply Dev.thermal_sound)

theorem Dev.chanFailRow_sound {d : Dev} {c _cause : Nat} (h_d : d.Sound) : (Dev.chanFailRow d c _cause).Sound := by
  unfold Dev.chanFailRow
  with_reducible repeat' (first
    | assumption | lift_lets -underBinder | apply sound_ite | apply Dev.put_sound | apply Dev.raise_sound)

theorem Dev.ioDieFaultRow_sound {d : Dev} {die : Nat} (h_d : d.Sound) : (Dev.ioDieFaultRow d die).Sound := by
  unfold Dev.ioDieFaultRow
  with_reducible repeat' (first
    | assumption | (intro x; have hx : Dev.Sound x; unfold x; rotate_left; clear_value x) | (intro _)
    | lift_lets -underBinder | apply sound_ite | apply sound_foldl | apply Dev.put_sound | apply Dev.raise_sound)

theorem Dev.chStat_sound {d : Dev} {m : Module} {state : Nat} (h_d : d.Sound) : (Dev.chStat d m state).Sound := by
  unfold Dev.chStat
  (try lift_lets -underBinder)
  with_reducible repeat' (first
    | assumption | (intro x; clear_value x) | lift_lets -underBinder | apply Dev.put_sound)

theorem Dev.layCarve_sound {d : Dev} {w gib : Nat} (h_d : d.Sound) : (Dev.layCarve d w gib).Sound := by
  unfold Dev.layCarve
  (try lift_lets -underBinder)
  with_reducible repeat' (first
    | assumption | (intro x; clear_value x) | lift_lets -underBinder | apply Dev.put_sound)

theorem Dev.endHard_sound {d : Dev} {m : Module} (h_d : d.Sound) : (Dev.endHard d m).Sound := by
  unfold Dev.endHard
  (try lift_lets -underBinder)
  with_reducible repeat' (first
    | assumption | (intro x; have hx : Dev.Sound x; unfold x; rotate_left; clear_value x)
    | (intro x; have hx : Larder := x; clear hx; unfold x; clear x) | (intro x; clear_value x) | lift_lets -underBinder
    | apply sound_ite | apply Dev.put_sound | apply Dev.raise_sound | (simp only [sound_mk]; apply sound_of))

theorem Dev.larderUp_sound {d : Dev} {mods : List Module} (h_d : d.Sound) : (Dev.larderUp d mods).Sound := by
  unfold Dev.larderUp
  (try lift_lets -underBinder)
  with_reducible repeat' (first
    | assumption | (intro x; have hx : Dev.Sound x; unfold x; rotate_left; clear_value x)
    | (intro x; have hx : Larder := x; clear hx; unfold x; clear x) | (intro x; clear_value x) | (intro _)
    | lift_lets -underBinder | apply sound_ite | apply sound_foldl | apply Dev.chStat_sound | apply Dev.endHard_sound
    | apply Dev.raise_sound | apply Dev.layCarve_sound | apply Dev.put_sound | (simp only [sound_mk]; apply sound_of))

theorem Dev.larderTrainDoneRow_sound {d : Dev} {mods : List Module} (h_d : d.Sound) : (Dev.larderTrainDoneRow d mods).Sound := by
  unfold Dev.larderTrainDoneRow
  with_reducible repeat' (first
    | assumption | (intro x; have hx : Dev.Sound x; unfold x; rotate_left; clear_value x) | (intro _)
    | lift_lets -underBinder | apply sound_ite | apply sound_foldl | apply Dev.raise_sound | apply Dev.chStat_sound
    | apply Dev.larderUp_sound)

end Sys2Proof.Machine
end

