-- ==== Sys2Proof/Laws/SoundUnits.lean ====
section
/-! SUPPORT. One lemma per operation: it keeps `Dev.Sound`. Here: the rows of the Data Mover, resets, Proof, slots and egress. -/

namespace Sys2Proof.Machine

theorem Dev.newTurn_sound {d : Dev} {q e : Nat} (h_d : d.Sound) : (Dev.newTurn d q e).Sound := by
  unfold Dev.newTurn
  (try lift_lets -underBinder)
  with_reducible repeat' (first
    | assumption | (intro x; clear_value x) | (simp only [sound_mk]; apply sound_of))

theorem Dev.takeEngine_sound {d : Dev} {q e : Nat} (h_d : d.Sound) : (Dev.takeEngine d q e).Sound := by
  unfold Dev.takeEngine
  (try lift_lets -underBinder)
  with_reducible repeat' (first
    | assumption | (intro x; have hx : Dev.Sound x; unfold x; rotate_left; clear_value x) | lift_lets -underBinder
    | apply sound_ite | apply Dev.put_sound | apply Dev.newTurn_sound)

theorem Dev.turnTaken_sound {d : Dev} {x : Desc} (h_d : d.Sound) : (Dev.turnTaken d x).Sound := by
  unfold Dev.turnTaken
  (try lift_lets -underBinder)
  with_reducible repeat' (first
    | assumption | (intro x; clear_value x) | (simp only [sound_mk]; apply sound_of))

theorem Dev.afterStart_sound {r : Desc × Dev} {q : Nat} (h_r : r.2.Sound) : (Dev.afterStart r q).Sound := by
  unfold Dev.afterStart
  (try lift_lets -underBinder)
  with_reducible repeat' (first
    | assumption | (intro x; have hx : Dev.Sound x; unfold x; rotate_left; clear_value x) | (intro x; clear_value x)
    | lift_lets -underBinder | apply Dev.turnTaken_sound | apply Dev.setQueue_sound | apply Dev.settleQueue_sound)

theorem Dev.startDesc_sound {d : Dev} {q op : Nat} {f : Desc → Dev → Desc × Dev} (h_d : d.Sound) (h_f : ∀ (v0 : Desc) (v1 : Dev), Dev.Sound v1 → Dev.Sound (Prod.snd (f v0 v1))) : (Dev.startDesc d q op f).Sound := by
  unfold Dev.startDesc
  with_reducible repeat' (first
    | assumption | (intro x; have hx : Dev.Sound x; unfold x; rotate_left; clear_value x) | lift_lets -underBinder
    | apply Dev.takeEngine_sound | apply Dev.afterStart_sound | apply h_f | split)

theorem Dev.checkedStart_sound {d : Dev} {q : Nat} {x : Desc} {l : List (AccKind × Nat × Nat)} {go : Desc → Dev → Desc × Dev} (h_d : d.Sound) (h_go : ∀ (v0 : Desc) (v1 : Dev), Dev.Sound v1 → Dev.Sound (Prod.snd (go v0 v1))) : (Dev.checkedStart d q x l go).2.Sound := by
  unfold Dev.checkedStart
  with_reducible repeat' (first
    | assumption | lift_lets -underBinder | apply Dev.beginFlight_sound | (refine Dev.rangeCheck_at ‹_ = _› ?_) | apply h_go
    | split)
theorem Dev.nopRow_sound {d : Dev} {q : Nat} (h_d : d.Sound) : (Dev.nopRow d q).Sound := by
  unfold Dev.nopRow
  with_reducible repeat' (first
    | assumption | (intro _) | apply Dev.startDesc_sound)

theorem Dev.copyRow_sound {d : Dev} {q : Nat} (h_d : d.Sound) : (Dev.copyRow d q).Sound := by
  unfold Dev.copyRow
  with_reducible repeat' (first
    | assumption | (intro _) | lift_lets -underBinder | apply Dev.startDesc_sound | apply Dev.checkedStart_sound
    | apply Dev.issueReads_sound)

theorem Dev.fillRow_sound {d : Dev} {q : Nat} (h_d : d.Sound) : (Dev.fillRow d q).Sound := by
  unfold Dev.fillRow
  with_reducible repeat' (first
    | assumption | (intro _) | lift_lets -underBinder | apply Dev.startDesc_sound | apply Dev.checkedStart_sound
    | apply Dev.issueBytes_sound)

theorem Dev.compareRow_sound {d : Dev} {q : Nat} (h_d : d.Sound) : (Dev.compareRow d q).Sound := by
  unfold Dev.compareRow
  with_reducible repeat' (first
    | assumption | (intro x; have hx : Dev.Sound (Prod.snd x); unfold x; rotate_left; clear_value x) | (intro _)
    | lift_lets -underBinder | apply Dev.startDesc_sound | apply Dev.checkedStart_sound | apply Dev.issueReads_sound)

theorem Dev.crcRow_sound {d : Dev} {q : Nat} (h_d : d.Sound) : (Dev.crcRow d q).Sound := by
  unfold Dev.crcRow
  with_reducible repeat' (first
    | assumption | (intro _) | lift_lets -underBinder | apply Dev.startDesc_sound | apply Dev.checkedStart_sound
    | apply Dev.issueReads_sound)

theorem Dev.atomic8Row_sound {d : Dev} {q : Nat} (h_d : d.Sound) : (Dev.atomic8Row d q).Sound := by
  unfold Dev.atomic8Row
  with_reducible repeat' (first
    | assumption | (intro _) | lift_lets -underBinder | apply Dev.startDesc_sound | apply Dev.checkedStart_sound
    | apply Dev.issueAtom_sound)

theorem Dev.atomic16Row_sound {d : Dev} {q : Nat} (h_d : d.Sound) : (Dev.atomic16Row d q).Sound := by
  unfold Dev.atomic16Row
  with_reducible repeat' (first
    | assumption | (intro x; clear_value x) | (intro _) | lift_lets -underBinder | apply Dev.startDesc_sound
    | apply Dev.checkedStart_sound | apply Dev.issueAtom_sound)

theorem Dev.barrierLdRow_sound {d : Dev} {q : Nat} (h_d : d.Sound) : (Dev.barrierLdRow d q).Sound := by
  unfold Dev.barrierLdRow
  with_reducible repeat' (first
    | assumption | (intro _) | apply Dev.startDesc_sound)

theorem Dev.barrierStRow_sound {d : Dev} {q : Nat} (h_d : d.Sound) : (Dev.barrierStRow d q).Sound := by
  unfold Dev.barrierStRow
  with_reducible repeat' (first
    | assumption | (intro _) | lift_lets -underBinder | apply Dev.startDesc_sound | apply Dev.flushAgent_sound)

theorem Dev.barrierFullRow_sound {d : Dev} {q : Nat} (h_d : d.Sound) : (Dev.barrierFullRow d q).Sound := by
  unfold Dev.barrierFullRow
  with_reducible repeat' (first
    | assumption | (intro _) | lift_lets -underBinder | apply Dev.startDesc_sound | apply Dev.flushAgent_sound)

theorem Dev.interruptRow_sound {d : Dev} {q : Nat} (h_d : d.Sound) : (Dev.interruptRow d q).Sound := by
  unfold Dev.interruptRow
  with_reducible repeat' (first
    | assumption | (intro _) | apply Dev.startDesc_sound)

theorem Dev.barrierEnd_sound {d : Dev} {q : Nat} {b : Desc} (h_d : d.Sound) : (Dev.barrierEnd d q b).Sound := by
  unfold Dev.barrierEnd
  (try lift_lets -underBinder)
  with_reducible repeat' (first
    | assumption | (intro x; clear_value x) | lift_lets -underBinder | apply Dev.setQueue_sound
    | apply Dev.settleQueue_sound)

theorem Dev.barrierCompleteRow_sound {d : Dev} {q : Nat} (h_d : d.Sound) : (Dev.barrierCompleteRow d q).Sound := by
  unfold Dev.barrierCompleteRow
  with_reducible repeat' (first
    | assumption | lift_lets -underBinder | apply sound_ite | apply Dev.barrierEnd_sound | split)

theorem Dev.writeRecord_sound {d : Dev} {q : Nat} {b : Bytes} (h_d : d.Sound) : (Dev.writeRecord d q b).2.Sound := by
  unfold Dev.writeRecord
  (try lift_lets -underBinder)
  with_reducible repeat' (first
    | assumption | (intro x; clear_value x) | lift_lets -underBinder | apply Dev.setQueue_sound
    | (refine Dev.rangeCheck_at ‹_ = _› ?_) | (refine Dev.takeTag_at ‹_ = _› ?_) | (refine Dev.issue_at ‹_ = _› ?_) | split)
theorem Dev.writeRecord_at {d : Dev} {q : Nat} {b : Bytes} {r0 : Bool} {d1 : Dev} (hEq : Dev.writeRecord d q b = (r0, d1)) (h_d : d.Sound) : d1.Sound := by
  have h := Dev.writeRecord_sound (d := d) (q := q) (b := b) h_d 
  rw [hEq] at h
  exact h

theorem Dev.descIrq_sound {d : Dev} {q : Nat} {x : Desc} (h_d : d.Sound) : (Dev.descIrq d q x).Sound := by
  unfold Dev.descIrq
  (try lift_lets -underBinder)
  with_reducible repeat' (first
    | assumption | (intro x; clear_value x) | lift_lets -underBinder | apply sound_ite | apply Dev.pushRel_sound)

theorem Dev.recordWritten_sound {d : Dev} {q : Nat} (h_d : d.Sound) : (Dev.recordWritten d q).Sound := by
  unfold Dev.recordWritten
  (try lift_lets -underBinder)
  with_reducible repeat' (first
    | assumption | (intro x; have hx : Dev.Sound x; unfold x; rotate_left; clear_value x) | (intro x; clear_value x)
    | lift_lets -underBinder | apply sound_ite | apply Dev.qPut_sound)

theorem Dev.completionRecordRow_sound {d : Dev} {q : Nat} {ok : Bool} (h_d : d.Sound) : (Dev.completionRecordRow d q ok).Sound := by
  unfold Dev.completionRecordRow
  with_reducible repeat' (first
    | assumption | (intro x; have hx : Dev.Sound x; unfold x; rotate_left; clear_value x) | (intro x; clear_value x)
    | lift_lets -underBinder | apply sound_ite | apply Dev.setQueue_sound | apply Dev.count_sound | apply Dev.descIrq_sound
    | apply Dev.recordFailed_sound | apply Dev.recordWritten_sound | (refine Dev.writeRecord_at ‹_ = _› ?_) | split)

theorem Dev.shareEntryEndRow_sound {d : Dev} {e : Nat} (h_d : d.Sound) : (Dev.shareEntryEndRow d e).Sound := by
  unfold Dev.shareEntryEndRow
  (try lift_lets -underBinder)
  with_reducible repeat' (first
    | assumption | (intro x; have hx : Dev.Sound x; unfold x; rotate_left; clear_value x) | (intro x; clear_value x)
    | lift_lets -underBinder | apply sound_ite | apply Dev.put_sound | (simp only [sound_mk]; apply sound_of) | split)

theorem Dev.moveBegin_sound {d : Dev} {q m : Nat} {x : Desc} (h_d : d.Sound) : (Dev.moveBegin d q m x).2.Sound := by
  unfold Dev.moveBegin
  (try lift_lets -underBinder)
  with_reducible repeat' (first
    | assumption | (intro x; have hx : Dev.Sound x; unfold x; rotate_left; clear_value x)
    | (intro x; have hx : Dev.Sound (Prod.snd x); unfold x; rotate_left; clear_value x) | (intro x; clear_value x)
    | (intro _) | lift_lets -underBinder | apply sound_foldl | apply Dev.flushCmb_sound | apply Dev.takeTag_sound
    | apply Dev.setMigr_sound | apply Dev.mlIdle_sound | apply Dev.put_sound)
theorem Dev.moveLiveRow_sound {d : Dev} {q : Nat} (h_d : d.Sound) : (Dev.moveLiveRow d q).Sound := by
  unfold Dev.moveLiveRow
  with_reducible repeat' (first
    | assumption | (intro x; clear_value x) | (intro _) | lift_lets -underBinder | apply sound_ite2
    | apply Dev.startDesc_sound | apply Dev.moveBegin_sound | split)

theorem Dev.moveLiveCopyDoneRow_sound {d : Dev} {m : Nat} (h_d : d.Sound) : (Dev.moveLiveCopyDoneRow d m).Sound := by
  unfold Dev.moveLiveCopyDoneRow
  with_reducible repeat' (first
    | assumption | lift_lets -underBinder | apply sound_ite | apply Dev.put_sound | (refine Dev.migrCopy_at ‹_ = _› ?_)
    | split)

theorem Dev.moveLiveRecopyDoneRow_sound {d : Dev} {m : Nat} (h_d : d.Sound) : (Dev.moveLiveRecopyDoneRow d m).Sound := by
  unfold Dev.moveLiveRecopyDoneRow
  with_reducible repeat' (first
    | assumption | (intro x; have hx : Dev.Sound x; unfold x; rotate_left; clear_value x) | (intro x; clear_value x)
    | lift_lets -underBinder | apply sound_ite | apply Dev.setMigr_sound | apply Dev.put_sound | apply Dev.migrFail_sound
    | (refine Dev.migrCopy_at ‹_ = _› ?_) | split)

theorem Dev.swapEntry_sound {d : Dev} {g : Migr} (h_d : d.Sound) : (Dev.swapEntry d g).Sound := by
  unfold Dev.swapEntry
  (try lift_lets -underBinder)
  with_reducible repeat' (first
    | assumption | (intro x; have hx : Dev.Sound x; unfold x; rotate_left; clear_value x) | (intro x; clear_value x)
    | lift_lets -underBinder | apply Dev.savePrev_sound | apply Dev.setTab_sound | apply Dev.setTabS_sound
    | apply Dev.raiseEpoch_sound)

theorem Dev.moveLiveHoldReadyRow_sound {d : Dev} {m : Nat} (h_d : d.Sound) : (Dev.moveLiveHoldReadyRow d m).Sound := by
  unfold Dev.moveLiveHoldReadyRow
  with_reducible repeat' (first
    | assumption | (intro x; have hx : Dev.Sound x; unfold x; rotate_left; clear_value x) | lift_lets -underBinder
    | apply sound_ite | apply Dev.setMigr_sound | apply Dev.mlIdle_sound | apply Dev.swapEntry_sound
    | apply Dev.releaseHeld_sound | apply Dev.endMoveDesc_sound | (refine Dev.migrCopy_at ‹_ = _› ?_) | split)

theorem Dev.moveLiveHoldTimeoutRow_sound {d : Dev} {m : Nat} (h_d : d.Sound) : (Dev.moveLiveHoldTimeoutRow d m).Sound := by
  unfold Dev.moveLiveHoldTimeoutRow
  with_reducible repeat' (first
    | assumption | (intro x; have hx : Dev.Sound x; unfold x; rotate_left; clear_value x) | (intro x; clear_value x)
    | lift_lets -underBinder | apply sound_ite | apply Dev.put_sound | apply Dev.migrFail_sound
    | apply Dev.releaseHeld_sound | split)

theorem Dev.vfEnableRow_sound {d : Dev} {u n : Nat} (h_d : d.Sound) : (Dev.vfEnableRow d u n).Sound := by
  unfold Dev.vfEnableRow
  (try lift_lets -underBinder)
  with_reducible repeat' (first
    | assumption | (intro x; have hx : Dev.Sound x; unfold x; rotate_left; clear_value x) | (intro x; clear_value x)
    | (intro _) | lift_lets -underBinder | apply sound_ite | apply sound_foldl | apply Dev.allocFn_sound
    | (simp only [sound_mk]; apply sound_of))

theorem Dev.vfDisableRow_sound {d : Dev} {u : Nat} (h_d : d.Sound) : (Dev.vfDisableRow d u).Sound := by
  unfold Dev.vfDisableRow
  with_reducible repeat' (first
    | assumption | lift_lets -underBinder | apply sound_ite | apply Dev.dropVfs_sound)

theorem Dev.functionFlrRow_sound {d : Dev} {u fn : Nat} (h_d : d.Sound) : (Dev.functionFlrRow d u fn).Sound := by
  unfold Dev.functionFlrRow
  with_reducible repeat' (first
    | assumption | lift_lets -underBinder | apply sound_ite | apply Dev.flrFn_sound)

theorem Dev.ctxBack_sound {d : Dev} {q : Nat} (h_d : d.Sound) : (Dev.ctxBack d q).Sound := by
  unfold Dev.ctxBack
  (try lift_lets -underBinder)
  with_reducible repeat' (first
    | assumption | (intro x; clear_value x) | (intro _) | lift_lets -underBinder | apply sound_foldl
    | apply Dev.setLword_sound)

theorem Dev.ctxDrop_sound {d : Dev} {q : Nat} (h_d : d.Sound) : (Dev.ctxDrop d q).Sound := by
  unfold Dev.ctxDrop
  (try lift_lets -underBinder)
  with_reducible repeat' (first
    | assumption | (intro x; have hx : Dev.Sound x; unfold x; rotate_left; clear_value x)
    | (intro x; have hx : Larder := x; clear hx; unfold x; clear x) | apply Dev.ctxBack_sound
    | (simp only [sound_mk]; apply sound_of))

theorem Dev.ctxLost_sound {d : Dev} {q : Nat} (h_d : d.Sound) : (Dev.ctxLost d q).Sound := by
  unfold Dev.ctxLost
  (try lift_lets -underBinder)
  with_reducible repeat' (first
    | assumption | (intro x; have hx : Dev.Sound x; unfold x; rotate_left; clear_value x) | (intro x; clear_value x)
    | lift_lets -underBinder | apply sound_ite | apply Dev.setQueue_sound | apply Dev.qRaise_sound | apply Dev.contain_sound)

theorem Dev.ctxFetch_sound {d : Dev} {q : Nat} (h_d : d.Sound) : (Dev.ctxFetch d q).Sound := by
  unfold Dev.ctxFetch
  (try lift_lets -underBinder)
  with_reducible repeat' (first
    | assumption | (intro x; have hx : Dev.Sound x; unfold x; rotate_left; clear_value x)
    | (intro x; have hx : Larder := x; clear hx; unfold x; clear x) | (intro x; clear_value x) | lift_lets -underBinder
    | apply sound_ite | apply Dev.carveRead_sound | apply Dev.injectAt_sound | apply Dev.ctxLost_sound
    | apply Dev.ctxDrop_sound | (simp only [sound_mk]; apply sound_of) | split)

theorem Dev.qResult_sound {d : Dev} {k r : Nat} (h_d : d.Sound) : (Dev.qResult d k r).Sound := by
  unfold Dev.qResult
  with_reducible repeat' (first
    | assumption | lift_lets -underBinder | apply Dev.put_sound)

theorem Dev.qCommand_sound {d : Dev} {u fn : Nat} {f : Nat → Dev → Dev} (h_d : d.Sound) (h_f : ∀ (v0 : Nat) (v1 : Dev), Dev.Sound v1 → Dev.Sound (f v0 v1)) : (Dev.qCommand d u fn f).Sound := by
  unfold Dev.qCommand
  with_reducible repeat' (first
    | assumption | lift_lets -underBinder | apply sound_ite | apply Dev.ctxFetch_sound | apply Dev.qResult_sound | apply h_f
    | split)

theorem Dev.qcmdReadRow_sound {d : Dev} {u fn : Nat} (h_d : d.Sound) : (Dev.qcmdReadRow d u fn).Sound := by
  unfold Dev.qcmdReadRow
  with_reducible repeat' (first
    | assumption | (intro _) | lift_lets -underBinder | apply sound_foldl | apply Dev.qCommand_sound | apply Dev.put_sound
    | apply Dev.qResult_sound)

theorem Dev.qcmdWriteRow_sound {d : Dev} {u fn : Nat} (h_d : d.Sound) : (Dev.qcmdWriteRow d u fn).Sound := by
  unfold Dev.qcmdWriteRow
  with_reducible repeat' (first
    | assumption | (intro _) | lift_lets -underBinder | apply sound_ite | apply sound_foldl | apply Dev.qCommand_sound
    | apply Dev.qResult_sound | apply Dev.setCtxW_sound)

theorem Dev.qcmdEnableRow_sound {d : Dev} {u fn : Nat} (h_d : d.Sound) : (Dev.qcmdEnableRow d u fn).Sound := by
  unfold Dev.qcmdEnableRow
  with_reducible repeat' (first
    | assumption | (intro x; have hx : Dev.Sound x; unfold x; rotate_left; clear_value x) | (intro _)
    | lift_lets -underBinder | apply sound_ite | apply Dev.qCommand_sound | apply Dev.fresh_sound | apply Dev.qResult_sound
    | apply Dev.qPut_sound | apply Dev.setQState_sound)

theorem Dev.qcmdDisableRow_sound {d : Dev} {u fn : Nat} (h_d : d.Sound) : (Dev.qcmdDisableRow d u fn).Sound := by
  unfold Dev.qcmdDisableRow
  with_reducible repeat' (first
    | assumption | (intro _) | lift_lets -underBinder | apply sound_ite | apply Dev.qCommand_sound
    | apply Dev.setQState_sound | apply Dev.qResult_sound)

theorem Dev.qcmdResetRow_sound {d : Dev} {u fn : Nat} (h_d : d.Sound) : (Dev.qcmdResetRow d u fn).Sound := by
  unfold Dev.qcmdResetRow
  with_reducible repeat' (first
    | assumption | (intro x; clear_value x) | (intro _) | lift_lets -underBinder | apply sound_ite
    | apply Dev.qCommand_sound | apply Dev.setQueue_sound | apply Dev.qResult_sound | apply Dev.qReset_sound)

theorem Dev.heldResetRow_sound {d : Dev} {q : Nat} (h_d : d.Sound) : (Dev.heldResetRow d q).Sound := by
  unfold Dev.heldResetRow
  with_reducible repeat' (first
    | assumption | lift_lets -underBinder | apply sound_ite | apply Dev.qReset_sound)

theorem Dev.disablingDoneRow_sound {d : Dev} {q : Nat} (h_d : d.Sound) : (Dev.disablingDoneRow d q).Sound := by
  unfold Dev.disablingDoneRow
  (try lift_lets -underBinder)
  with_reducible repeat' (first
    | assumption | (intro x; clear_value x) | lift_lets -underBinder | apply sound_ite | apply Dev.setQueue_sound
    | apply Dev.setQState_sound)

theorem Dev.dbDrop_sound {d : Dev} (h_d : d.Sound) : (Dev.dbDrop d).Sound := by
  unfold Dev.dbDrop
  with_reducible repeat' (first
    | assumption | apply Dev.inc_sound)

theorem Dev.ring__sound {d : Dev} {q val : Nat} {cqv : Bool} (h_d : d.Sound) : (Dev.ring_ d q val cqv).Sound := by
  unfold Dev.ring_
  (try lift_lets -underBinder)
  with_reducible repeat' (first
    | assumption | (intro x; have hx : Dev.Sound x; unfold x; rotate_left; clear_value x) | (intro x; clear_value x)
    | lift_lets -underBinder | apply sound_ite | apply Dev.dbDrop_sound | apply Dev.qRaise_sound | apply Dev.setQState_sound
    | apply Dev.qPut_sound)

theorem Dev.doorbellRow_sound {d : Dev} {u fn off nbytes val : Nat} (h_d : d.Sound) : (Dev.doorbellRow d u fn off nbytes val).Sound := by
  unfold Dev.doorbellRow
  with_reducible repeat' (first
    | assumption | lift_lets -underBinder | apply sound_ite | apply Dev.dbDrop_sound | apply Dev.ctxFetch_sound
    | apply Dev.ring__sound)

theorem Dev.contextFetchRow_sound {d : Dev} {q : Nat} (h_d : d.Sound) : (Dev.contextFetchRow d q).Sound := by
  unfold Dev.contextFetchRow
  (try lift_lets -underBinder)
  with_reducible repeat' (first
    | assumption | (intro x; have hx : Larder := x; clear hx; unfold x; clear x) | lift_lets -underBinder | apply sound_ite
    | apply Dev.ctxFetch_sound | (simp only [sound_mk]; apply sound_of))

theorem Dev.takeDesc_sound {d : Dev} {q : Nat} {ws : List W64} (h_d : d.Sound) : (Dev.takeDesc d q ws).Sound := by
  unfold Dev.takeDesc
  (try lift_lets -underBinder)
  with_reducible repeat' (first
    | assumption | (intro x; clear_value x) | lift_lets -underBinder | apply Dev.setQueue_sound | apply Dev.qPut_sound)

theorem Dev.fetchFail_sound {d : Dev} {q : Nat} (h_d : d.Sound) : (Dev.fetchFail d q).Sound := by
  unfold Dev.fetchFail
  (try lift_lets -underBinder)
  with_reducible repeat' (first
    | assumption | (intro x; have hx : Dev.Sound x; unfold x; rotate_left; clear_value x) | (intro x; clear_value x)
    | lift_lets -underBinder | apply Dev.setQueue_sound | apply Dev.setQState_sound | apply Dev.qRaise_sound)

theorem Dev.fetchDescs_sound {d : Dev} {q : Nat} {words : List W64} (h_d : d.Sound) : (Dev.fetchDescs d q words).Sound := by
  unfold Dev.fetchDescs
  (try lift_lets -underBinder)
  with_reducible repeat' (first
    | assumption | (intro x; clear_value x) | (intro _) | lift_lets -underBinder | apply sound_ite | apply sound_foldl
    | apply Dev.fetchFail_sound | apply Dev.takeDesc_sound | (refine Dev.rangeCheck_at ‹_ = _› ?_) | split)

theorem Dev.descriptorFetchRow_sound {d : Dev} {q : Nat} {words : List W64} {ok : Bool} (h_d : d.Sound) : (Dev.descriptorFetchRow d q words ok).Sound := by
  unfold Dev.descriptorFetchRow
  with_reducible repeat' (first
    | assumption | lift_lets -underBinder | apply sound_ite | apply Dev.fetchFail_sound | apply Dev.fetchDescs_sound)

theorem Dev.devRst_sound {d : Dev} {path key : Nat} {f : Dev → Dev} (h_d : d.Sound) (h_f : ∀ (v0 : Dev), Dev.Sound v0 → Dev.Sound (f v0)) : (Dev.devRst d path key f).Sound := by
  unfold Dev.devRst
  with_reducible repeat' (first
    | assumption | (intro _) | lift_lets -underBinder | apply sound_ite | apply Dev.access_sound | apply Dev.badAccess_sound
    | apply h_f)

theorem Dev.devRstWarmRow_sound {d : Dev} {path key : Nat} (h_d : d.Sound) : (Dev.devRstWarmRow d path key).Sound := by
  unfold Dev.devRstWarmRow
  with_reducible repeat' (first
    | assumption | (intro _) | lift_lets -underBinder | apply Dev.devRst_sound | apply Dev.bigReq_sound)

theorem Dev.devRstControlRow_sound {d : Dev} {path key : Nat} (h_d : d.Sound) : (Dev.devRstControlRow d path key).Sound := by
  unfold Dev.devRstControlRow
  with_reducible repeat' (first
    | assumption | (intro _) | lift_lets -underBinder | apply Dev.devRst_sound | apply Dev.bigReq_sound)

theorem Dev.devRstSliceRow_sound {d : Dev} {path key target : Nat} (h_d : d.Sound) : (Dev.devRstSliceRow d path key target).Sound := by
  unfold Dev.devRstSliceRow
  with_reducible repeat' (first
    | assumption | (intro _) | lift_lets -underBinder | apply Dev.devRst_sound | apply Dev.sliceReq_sound)

theorem Dev.devRstDomainRow_sound {d : Dev} {path key target : Nat} (h_d : d.Sound) : (Dev.devRstDomainRow d path key target).Sound := by
  unfold Dev.devRstDomainRow
  with_reducible repeat' (first
    | assumption | (intro _) | lift_lets -underBinder | apply Dev.devRst_sound | apply Dev.domainReq_sound)

theorem Dev.devRstPortRow_sound {d : Dev} {path key target : Nat} (h_d : d.Sound) : (Dev.devRstPortRow d path key target).Sound := by
  unfold Dev.devRstPortRow
  with_reducible repeat' (first
    | assumption | (intro _) | lift_lets -underBinder | apply Dev.devRst_sound | apply Dev.portReq_sound)

theorem Dev.pwrGoodRiseRow_sound {d : Dev} (h_d : d.Sound) : (Dev.pwrGoodRiseRow d).Sound := by
  unfold Dev.pwrGoodRiseRow
  with_reducible repeat' (first
    | assumption | lift_lets -underBinder | apply sound_ite | apply Dev.coldEnter_sound)

theorem Dev.pwrGoodFallRow_sound {d : Dev} (h_d : d.Sound) : (Dev.pwrGoodFallRow d).Sound := by
  unfold Dev.pwrGoodFallRow
  with_reducible repeat' (first
    | assumption | lift_lets -underBinder | apply sound_ite | apply Dev.coldEnter_sound)

theorem Dev.coldPinNow_sound {d : Dev} (h_d : d.Sound) : (Dev.coldPinNow d).Sound := by
  unfold Dev.coldPinNow
  (try lift_lets -underBinder)
  with_reducible repeat' (first
    | assumption | (intro x; clear_value x) | (simp only [sound_mk]; apply sound_of))

theorem Dev.coldRstNRow_sound {d : Dev} (h_d : d.Sound) : (Dev.coldRstNRow d).Sound := by
  unfold Dev.coldRstNRow
  (try lift_lets -underBinder)
  with_reducible repeat' (first
    | assumption | (intro x; have hx : Dev.Sound x; unfold x; rotate_left; clear_value x) | (intro x; clear_value x)
    | lift_lets -underBinder | apply sound_ite | apply Dev.coldPinNow_sound | apply Dev.coldEnter_sound
    | (simp only [sound_mk]; apply sound_of))

theorem Dev.coldRstNReleaseRow_sound {d : Dev} (h_d : d.Sound) : (Dev.coldRstNReleaseRow d).Sound := by
  unfold Dev.coldRstNReleaseRow
  (try lift_lets -underBinder)
  with_reducible repeat' (first
    | assumption | (intro x; clear_value x) | lift_lets -underBinder | apply sound_ite | apply Dev.coldEnter_sound
    | (simp only [sound_mk]; apply sound_of))

theorem Dev.warmRstNRow_sound {d : Dev} (h_d : d.Sound) : (Dev.warmRstNRow d).Sound := by
  unfold Dev.warmRstNRow
  with_reducible repeat' (first
    | assumption | lift_lets -underBinder | apply sound_ite | apply Dev.put_sound | apply Dev.bigReq_sound)

theorem Dev.quiesceMore_sound {d : Dev} (h_d : d.Sound) : (Dev.quiesceMore d).Sound := by
  unfold Dev.quiesceMore
  (try lift_lets -underBinder)
  with_reducible repeat' (first
    | assumption | (intro x; have hx : Dev.Sound x; unfold x; rotate_left; clear_value x) | lift_lets -underBinder
    | apply sound_ite | apply Dev.recallAll_sound | apply Dev.writeBack_sound)

theorem Dev.resetEntryRow_sound {d : Dev} (h_d : d.Sound) : (Dev.resetEntryRow d).Sound := by
  unfold Dev.resetEntryRow
  with_reducible repeat' (first
    | assumption | (intro x; have hx : Dev.Sound x; unfold x; rotate_left; clear_value x) | lift_lets -underBinder
    | apply sound_ite | apply Dev.rstEnter_sound | apply Dev.quiesceMore_sound | split)

theorem Dev.abandon_sound {d : Dev} {n : Nat} (h_d : d.Sound) : (Dev.abandon d n).Sound := by
  unfold Dev.abandon
  with_reducible repeat' (first
    | assumption | lift_lets -underBinder | apply sound_ite | apply Dev.put_sound | apply Dev.raise_sound)

theorem Dev.portRecallOver_sound {d : Dev} {p : Nat} (h_d : d.Sound) : (Dev.portRecallOver d p).Sound := by
  unfold Dev.portRecallOver
  with_reducible repeat' (first
    | assumption | lift_lets -underBinder | apply Dev.portResetNow_sound | apply Dev.perstGo_sound
    | apply Dev.portResetOver_sound)

theorem Dev.quiesceTimeoutRow_sound {d : Dev} (h_d : d.Sound) : (Dev.quiesceTimeoutRow d).Sound := by
  unfold Dev.quiesceTimeoutRow
  with_reducible repeat' (first
    | assumption | (intro x; have hx : Dev.Sound x; unfold x; rotate_left; clear_value x) | (intro x; clear_value x)
    | (intro _) | lift_lets -underBinder | apply sound_ite | apply sound_foldl | apply Dev.rstEnter_sound
    | apply Dev.portRecallOver_sound | apply Dev.abandon_sound | apply Dev.sliceOver_sound | apply Dev.domainOver_sound
    | (simp only [sound_mk]; apply sound_of) | split)

theorem Dev.portResetRecallDoneRow_sound {d : Dev} {p : Nat} (h_d : d.Sound) : (Dev.portResetRecallDoneRow d p).Sound := by
  unfold Dev.portResetRecallDoneRow
  (try lift_lets -underBinder)
  with_reducible repeat' (first
    | assumption | (intro x; clear_value x) | lift_lets -underBinder | apply sound_ite | apply Dev.portRecallOver_sound
    | apply Dev.rstPoll_sound)

theorem Dev.fabricUp_sound {d : Dev} (h_d : d.Sound) : (Dev.fabricUp d).Sound := by
  unfold Dev.fabricUp
  (try lift_lets -underBinder)
  with_reducible repeat' (first
    | assumption | (intro x; have hx : Dev.Sound x; unfold x; rotate_left; clear_value x) | (intro x; clear_value x)
    | (intro _) | lift_lets -underBinder | apply sound_ite | apply sound_foldl | apply Dev.put_sound
    | apply Dev.slotGo_sound | apply Dev.trainStart_sound | apply Dev.perstGo_sound | apply Dev.bigReq_sound
    | (simp only [sound_mk]; apply sound_of))

theorem Dev.fabricReadyRiseRow_sound {d : Dev} (h_d : d.Sound) : (Dev.fabricReadyRiseRow d).Sound := by
  unfold Dev.fabricReadyRiseRow
  with_reducible repeat' (first
    | assumption | lift_lets -underBinder | apply sound_ite | apply Dev.fabricUp_sound)

theorem Dev.clockLossRow_sound {d : Dev} {refclk : Bool} (h_d : d.Sound) : (Dev.clockLossRow d refclk).Sound := by
  unfold Dev.clockLossRow
  (try lift_lets -underBinder)
  with_reducible repeat' (first
    | assumption | (intro x; have hx : Dev.Sound x; unfold x; rotate_left; clear_value x) | (intro x; clear_value x)
    | lift_lets -underBinder | apply sound_ite | apply Dev.put_sound | apply Dev.clockHalt_sound | apply Dev.raise_sound
    | (simp only [sound_mk]; apply sound_of))

theorem Dev.gpioSet_sound {d : Dev} {j : Nat} {on : Bool} (h_d : d.Sound) : (Dev.gpioSet d j on).Sound := by
  unfold Dev.gpioSet
  (try lift_lets -underBinder)
  with_reducible repeat' (first
    | assumption | (intro x; clear_value x) | lift_lets -underBinder | apply sound_ite | apply Dev.put_sound)

theorem Dev.snapInSet_sound {d : Dev} {on : Bool} (h_d : d.Sound) : (Dev.snapInSet d on).Sound := by
  unfold Dev.snapInSet
  (try lift_lets -underBinder)
  with_reducible repeat' (first
    | assumption | (intro x; have hx : Dev.Sound x; unfold x; rotate_left; clear_value x) | lift_lets -underBinder
    | apply sound_ite | apply Dev.put_sound | apply Dev.crumb_sound)

theorem Dev.inputDebounceRow_sound {d : Dev} {i : Nat} {level : Bool} (h_d : d.Sound) : (Dev.inputDebounceRow d i level).Sound := by
  unfold Dev.inputDebounceRow
  with_reducible repeat' (first
    | assumption | lift_lets -underBinder | apply sound_ite | apply Dev.prsntSet_sound | apply Dev.perstIn_sound
    | apply Dev.gpioSet_sound | apply Dev.pwrfailSet_sound | apply Dev.snapInSet_sound | apply Dev.warmRstNRow_sound
    | apply Dev.put_sound)

theorem Dev.chatterRow_sound {d : Dev} {i count : Nat} (h_d : d.Sound) : (Dev.chatterRow d i count).Sound := by
  unfold Dev.chatterRow
  (try lift_lets -underBinder)
  with_reducible repeat' (first
    | assumption | (intro x; clear_value x) | lift_lets -underBinder | apply sound_ite | apply Dev.put_sound
    | apply Dev.raise_sound)

theorem Dev.vddAuxLossRow_sound {d : Dev} (h_d : d.Sound) : (Dev.vddAuxLossRow d).Sound := by
  unfold Dev.vddAuxLossRow
  (try lift_lets -underBinder)
  with_reducible repeat' (first
    | assumption | (intro x; have hx : Dev.Sound x; unfold x; rotate_left; clear_value x) | (intro x; clear_value x)
    | apply Dev.slotsClear_sound | apply Dev.put_sound | (simp only [sound_mk]; apply sound_of))

theorem Dev.vddAuxRiseRow_sound {d : Dev} (h_d : d.Sound) : (Dev.vddAuxRiseRow d).Sound := by
  unfold Dev.vddAuxRiseRow
  (try lift_lets -underBinder)
  with_reducible repeat' (first
    | assumption | (intro x; have hx : Dev.Sound x; unfold x; rotate_left; clear_value x) | (intro x; clear_value x)
    | lift_lets -underBinder | apply sound_ite | apply Dev.slotsClear_sound | apply Dev.put_sound
    | (simp only [sound_mk]; apply sound_of))

theorem Dev.measureRow_sound {d : Dev} {path : Nat} (h_d : d.Sound) : (Dev.measureRow d path).Sound := by
  unfold Dev.measureRow
  with_reducible repeat' (first
    | assumption | (intro _) | lift_lets -underBinder | apply Dev.access_sound | apply Dev.measStart_sound)

theorem Dev.measurePeriodicRow_sound {d : Dev} (h_d : d.Sound) : (Dev.measurePeriodicRow d).Sound := by
  unfold Dev.measurePeriodicRow
  with_reducible repeat' (first
    | assumption | lift_lets -underBinder | apply sound_ite | apply Dev.measStart_sound)

theorem Dev.measureHoldReadyRow_sound {d : Dev} (h_d : d.Sound) : (Dev.measureHoldReadyRow d).Sound := by
  unfold Dev.measureHoldReadyRow
  (try lift_lets -underBinder)
  with_reducible repeat' (first
    | assumption | (intro x; clear_value x) | lift_lets -underBinder | apply sound_ite
    | (simp only [sound_mk]; apply sound_of))

theorem Dev.measureSettledRow_sound {d : Dev} {v1 : Nat} (h_d : d.Sound) : (Dev.measureSettledRow d v1).Sound := by
  unfold Dev.measureSettledRow
  (try lift_lets -underBinder)
  with_reducible repeat' (first
    | assumption | (intro x; clear_value x) | lift_lets -underBinder | apply sound_ite
    | (simp only [sound_mk]; apply sound_of))

theorem Dev.measureLoadEndRow_sound {d : Dev} {charge loadUs : Nat} (h_d : d.Sound) : (Dev.measureLoadEndRow d charge loadUs).Sound := by
  unfold Dev.measureLoadEndRow
  (try lift_lets -underBinder)
  with_reducible repeat' (first
    | assumption | (intro x; clear_value x) | lift_lets -underBinder | apply sound_ite
    | (simp only [sound_mk]; apply sound_of))

theorem Dev.measGood_sound {d : Dev} (h_d : d.Sound) : (Dev.measGood d).Sound := by
  unfold Dev.measGood
  (try lift_lets -underBinder)
  with_reducible repeat' (first
    | assumption | (intro x; clear_value x) | lift_lets -underBinder | apply Dev.endQuar_sound
    | (simp only [sound_mk]; apply sound_of))

theorem Dev.flushLogged_sound {d : Dev} (h_d : d.Sound) : (Dev.flushLogged d).Sound := by
  unfold Dev.flushLogged
  (try lift_lets -underBinder)
  with_reducible repeat' (first
    | assumption | (intro x; have hx : Dev.Sound x; unfold x; rotate_left; clear_value x) | (intro x; clear_value x)
    | lift_lets -underBinder | apply Dev.put_sound | (simp only [sound_mk]; apply sound_of))

theorem Dev.measureDoneRow_sound {d : Dev} {v2 : Nat} (h_d : d.Sound) : (Dev.measureDoneRow d v2).Sound := by
  unfold Dev.measureDoneRow
  (try lift_lets -underBinder)
  with_reducible repeat' (first
    | assumption | (intro x; have hx : Dev.Sound x; unfold x; rotate_left; clear_value x) | lift_lets -underBinder
    | apply sound_ite | apply Dev.put_sound | apply Dev.measEnd_sound | apply Dev.proofRaise_sound | apply Dev.putOpen_sound
    | apply Dev.measGood_sound)

theorem Dev.dmaxRecomputeRow_sound {d : Dev} {vstart : Nat} (h_d : d.Sound) : (Dev.dmaxRecomputeRow d vstart).Sound := by
  unfold Dev.dmaxRecomputeRow
  (try lift_lets -underBinder)
  with_reducible repeat' (first
    | assumption | (intro x; clear_value x) | lift_lets -underBinder | apply Dev.put_sound | apply Dev.dmaxUpdate_sound
    | (simp only [sound_mk]; apply sound_of))

theorem Dev.creditBlockRequestRow_sound {d : Dev} {s : Nat} {scc : Bool} (h_d : d.Sound) : (Dev.creditBlockRequestRow d s scc).Sound := by
  unfold Dev.creditBlockRequestRow
  (try lift_lets -underBinder)
  with_reducible repeat' (first
    | assumption | (intro x; have hx : Dev.Sound x; unfold x; rotate_left; clear_value x) | (intro x; clear_value x)
    | lift_lets -underBinder | apply sound_ite | apply Dev.setBlocks_sound | apply Dev.put_sound
    | apply Dev.traySettle_sound)

theorem Dev.pwrfailRow_sound {d : Dev} (h_d : d.Sound) : (Dev.pwrfailRow d).Sound := by
  unfold Dev.pwrfailRow
  with_reducible repeat' (first
    | assumption | apply Dev.pwrfailSet_sound)

theorem Dev.lowBankRow_sound {d : Dev} {vbank : Nat} (h_d : d.Sound) : (Dev.lowBankRow d vbank).Sound := by
  unfold Dev.lowBankRow
  with_reducible repeat' (first
    | assumption | lift_lets -underBinder | apply sound_ite | apply Dev.proofRaise_sound | apply Dev.flushStart_sound)

theorem Dev.flushWritesDoneRow_sound {d : Dev} (h_d : d.Sound) : (Dev.flushWritesDoneRow d).Sound := by
  unfold Dev.flushWritesDoneRow
  (try lift_lets -underBinder)
  with_reducible repeat' (first
    | assumption | (intro x; have hx : Dev.Sound x; unfold x; rotate_left; clear_value x) | lift_lets -underBinder
    | apply sound_ite | apply Dev.flushStep_sound | apply Dev.flushLogged_sound | apply Dev.flushGpf_sound)

theorem Dev.flushPhase1DoneRow_sound {d : Dev} (h_d : d.Sound) : (Dev.flushPhase1DoneRow d).Sound := by
  unfold Dev.flushPhase1DoneRow
  (try lift_lets -underBinder)
  with_reducible repeat' (first
    | assumption | (intro x; clear_value x) | lift_lets -underBinder | apply sound_ite | apply Dev.flushGpf_sound
    | apply Dev.answerHosts_sound | (simp only [sound_mk]; apply sound_of))

theorem Dev.flushPhase2DoneRow_sound {d : Dev} (h_d : d.Sound) : (Dev.flushPhase2DoneRow d).Sound := by
  unfold Dev.flushPhase2DoneRow
  with_reducible repeat' (first
    | assumption | lift_lets -underBinder | apply sound_ite | apply Dev.huOkLow_sound)

theorem Dev.flushGpfTimeoutRow_sound {d : Dev} (h_d : d.Sound) : (Dev.flushGpfTimeoutRow d).Sound := by
  unfold Dev.flushGpfTimeoutRow
  with_reducible repeat' (first
    | assumption | lift_lets -underBinder | apply sound_ite | apply Dev.put_sound | apply Dev.proofRaise_sound
    | apply Dev.huOkLow_sound)

theorem Dev.prsntAssertRow_sound {d : Dev} {n : Nat} (h_d : d.Sound) : (Dev.prsntAssertRow d n).Sound := by
  unfold Dev.prsntAssertRow
  with_reducible repeat' (first
    | assumption | lift_lets -underBinder | apply sound_ite | apply Dev.prsntSet_sound)

theorem Dev.prsntDeassertRow_sound {d : Dev} {n : Nat} (h_d : d.Sound) : (Dev.prsntDeassertRow d n).Sound := by
  unfold Dev.prsntDeassertRow
  with_reducible repeat' (first
    | assumption | lift_lets -underBinder | apply sound_ite | apply Dev.prsntSet_sound)

theorem Dev.vinWindowRow_sound {d : Dev} {n vin : Nat} (h_d : d.Sound) : (Dev.vinWindowRow d n vin).Sound := by
  unfold Dev.vinWindowRow
  (try lift_lets -underBinder)
  with_reducible repeat' (first
    | assumption | (intro x; have hx : Dev.Sound x; unfold x; rotate_left; clear_value x) | (intro x; clear_value x)
    | lift_lets -underBinder | apply sound_ite | apply Dev.put_sound | apply Dev.setSlot_sound | apply Dev.raise_sound)

theorem Dev.insertionTimerRow_sound {d : Dev} {n : Nat} (h_d : d.Sound) : (Dev.insertionTimerRow d n).Sound := by
  unfold Dev.insertionTimerRow
  (try lift_lets -underBinder)
  with_reducible repeat' (first
    | assumption | (intro x; clear_value x) | lift_lets -underBinder | apply sound_ite | apply Dev.setSlot_sound)

theorem Dev.rampEntryRow_sound {d : Dev} {n : Nat} (h_d : d.Sound) : (Dev.rampEntryRow d n).Sound := by
  unfold Dev.rampEntryRow
  (try lift_lets -underBinder)
  with_reducible repeat' (first
    | assumption | (intro x; clear_value x) | lift_lets -underBinder | apply sound_ite | apply Dev.put_sound
    | apply Dev.emit_sound)

theorem Dev.rampDoneRow_sound {d : Dev} {n vin vout : Nat} (h_d : d.Sound) : (Dev.rampDoneRow d n vin vout).Sound := by
  unfold Dev.rampDoneRow
  (try lift_lets -underBinder)
  with_reducible repeat' (first
    | assumption | (intro x; have hx : Dev.Sound x; unfold x; rotate_left; clear_value x) | lift_lets -underBinder
    | apply sound_ite | apply Dev.put_sound | apply Dev.perstGo_sound)

theorem Dev.rampTimeoutRow_sound {d : Dev} {n : Nat} (h_d : d.Sound) : (Dev.rampTimeoutRow d n).Sound := by
  unfold Dev.rampTimeoutRow
  with_reducible repeat' (first
    | assumption | lift_lets -underBinder | apply sound_ite | apply Dev.slotTrip_sound)

theorem Dev.fastTripRow_sound {d : Dev} {n iout : Nat} (h_d : d.Sound) : (Dev.fastTripRow d n iout).Sound := by
  unfold Dev.fastTripRow
  (try lift_lets -underBinder)
  with_reducible repeat' (first
    | assumption | (intro x; have hx : Dev.Sound x; unfold x; rotate_left; clear_value x) | lift_lets -underBinder
    | apply sound_ite | apply Dev.put_sound | apply Dev.slotTrip_sound)

theorem Dev.ovTripRow_sound {d : Dev} {n vin : Nat} (h_d : d.Sound) : (Dev.ovTripRow d n vin).Sound := by
  unfold Dev.ovTripRow
  (try lift_lets -underBinder)
  with_reducible repeat' (first
    | assumption | (intro x; have hx : Dev.Sound x; unfold x; rotate_left; clear_value x) | lift_lets -underBinder
    | apply sound_ite | apply Dev.put_sound | apply Dev.slotTrip_sound)

theorem Dev.ocTripRow_sound {d : Dev} {n : Nat} (h_d : d.Sound) : (Dev.ocTripRow d n).Sound := by
  unfold Dev.ocTripRow
  with_reducible repeat' (first
    | assumption | lift_lets -underBinder | apply sound_ite | apply Dev.put_sound | apply Dev.slotTrip_sound)

theorem Dev.vinLowRow_sound {d : Dev} {n vin : Nat} (h_d : d.Sound) : (Dev.vinLowRow d n vin).Sound := by
  unfold Dev.vinLowRow
  (try lift_lets -underBinder)
  with_reducible repeat' (first
    | assumption | (intro x; have hx : Dev.Sound x; unfold x; rotate_left; clear_value x) | lift_lets -underBinder
    | apply sound_ite | apply Dev.put_sound | apply Dev.raise_sound)

theorem Dev.coolDoneRow_sound {d : Dev} {n : Nat} (h_d : d.Sound) : (Dev.coolDoneRow d n).Sound := by
  unfold Dev.coolDoneRow
  (try lift_lets -underBinder)
  with_reducible repeat' (first
    | assumption | (intro x; have hx : Dev.Sound x; unfold x; rotate_left; clear_value x) | (intro x; clear_value x)
    | lift_lets -underBinder | apply sound_ite | apply Dev.setSlot_sound | apply Dev.put_sound)

theorem Dev.fetFailRow_sound {d : Dev} {n vout : Nat} (h_d : d.Sound) : (Dev.fetFailRow d n vout).Sound := by
  unfold Dev.fetFailRow
  (try lift_lets -underBinder)
  with_reducible repeat' (first
    | assumption | (intro x; have hx : Dev.Sound x; unfold x; rotate_left; clear_value x) | lift_lets -underBinder
    | apply sound_ite | apply Dev.put_sound | apply Dev.raise_sound | apply Dev.slotFault_sound)

theorem Dev.retryCountResetRow_sound {d : Dev} {n : Nat} (h_d : d.Sound) : (Dev.retryCountResetRow d n).Sound := by
  unfold Dev.retryCountResetRow
  with_reducible repeat' (first
    | assumption | lift_lets -underBinder | apply sound_ite | apply Dev.put_sound)

theorem Dev.spuOnRow_sound {d : Dev} {path n : Nat} (h_d : d.Sound) : (Dev.spuOnRow d path n).Sound := by
  unfold Dev.spuOnRow
  with_reducible repeat' (first
    | assumption | (intro _) | lift_lets -underBinder | apply Dev.access_sound | apply Dev.slotOnCmd_sound)

theorem Dev.spuOffRow_sound {d : Dev} {path n : Nat} (h_d : d.Sound) : (Dev.spuOffRow d path n).Sound := by
  unfold Dev.spuOffRow
  with_reducible repeat' (first
    | assumption | (intro _) | lift_lets -underBinder | apply Dev.access_sound | apply Dev.slotOffCmd_sound)

theorem Dev.clearFetRow_sound {d : Dev} {path n vout : Nat} (h_d : d.Sound) : (Dev.clearFetRow d path n vout).Sound := by
  unfold Dev.clearFetRow
  with_reducible repeat' (first
    | assumption | (intro _) | lift_lets -underBinder | apply Dev.access_sound | apply Dev.slotClearFet_sound)

theorem Dev.refillOne_sound {d : Dev} {q t n : Nat} (h_d : d.Sound) : (Dev.refillOne d q t n).Sound := by
  unfold Dev.refillOne
  with_reducible repeat' (first
    | assumption | apply Dev.setShaper_sound)

theorem Dev.shaperSwitch_sound {d : Dev} {q t : Nat} {was : Bool} (h_d : d.Sound) : (Dev.shaperSwitch d q t was).Sound := by
  unfold Dev.shaperSwitch
  with_reducible repeat' (first
    | assumption | lift_lets -underBinder | apply sound_ite | apply Dev.setShaper_sound)

theorem Dev.refillAll_sound {d : Dev} {p : Nat} (h_d : d.Sound) : (Dev.refillAll d p).Sound := by
  unfold Dev.refillAll
  (try lift_lets -underBinder)
  with_reducible repeat' (first
    | assumption | (intro x; clear_value x) | (intro _) | lift_lets -underBinder | apply sound_foldl
    | apply Dev.refillOne_sound)

theorem Dev.shaperRefillRow_sound {d : Dev} {p : Nat} (h_d : d.Sound) : (Dev.shaperRefillRow d p).Sound := by
  unfold Dev.shaperRefillRow
  (try lift_lets -underBinder)
  with_reducible repeat' (first
    | assumption | (intro x; have hx : Dev.Sound x; unfold x; rotate_left; clear_value x) | (intro x; clear_value x)
    | (intro _) | lift_lets -underBinder | apply sound_ite | apply sound_foldl | apply Dev.tabRead_sound
    | apply Dev.refillAll_sound | apply Dev.put_sound | apply Dev.shaperSwitch_sound)

theorem Dev.sampleNow_sound {d : Dev} {p : Nat} (h_d : d.Sound) : (Dev.sampleNow d p).Sound := by
  unfold Dev.sampleNow
  (try lift_lets -underBinder)
  with_reducible repeat' (first
    | assumption | (intro x; have hx : Dev.Sound x; unfold x; rotate_left; clear_value x) | (intro x; clear_value x)
    | (intro _) | lift_lets -underBinder | apply sound_ite | apply sound_foldl | apply Dev.putRecord_sound
    | apply Dev.put_sound | apply Dev.raise_sound)

theorem Dev.egsSampleRow_sound {d : Dev} {p : Nat} (h_d : d.Sound) : (Dev.egsSampleRow d p).Sound := by
  unfold Dev.egsSampleRow
  with_reducible repeat' (first
    | assumption | lift_lets -underBinder | apply sound_ite | apply Dev.sampleNow_sound)

theorem Dev.gateEdgeRow_sound {d : Dev} {p : Nat} (h_d : d.Sound) : (Dev.gateEdgeRow d p).Sound := by
  unfold Dev.gateEdgeRow
  (try lift_lets -underBinder)
  with_reducible repeat' (first
    | assumption | (intro x; have hx : Dev.Sound x; unfold x; rotate_left; clear_value x) | (intro x; clear_value x)
    | lift_lets -underBinder | apply sound_ite | apply Dev.tabRead_sound | apply Dev.setEgress_sound | apply Dev.put_sound
    | split)

end Sys2Proof.Machine
end

