-- ==== Sys2Proof/Laws/SoundRows.lean ====
section
/-! SUPPORT. One lemma per operation: it keeps `Dev.Sound`. Here: the rows of the control space, security, observability and binding, and the idle cycle. -/

namespace Sys2Proof.Machine

theorem Dev.meas6_sound {d : Dev} (h_d : d.Sound) : (Dev.meas6 d).Sound := by
  unfold Dev.meas6
  (try lift_lets -underBinder)
  with_reducible repeat' (first
    | assumption | (intro x; clear_value x) | (simp only [sound_mk]; apply sound_of))

theorem Dev.allSet_sound {d : Dev} (h_d : d.Sound) : (Dev.allSet d).Sound := by
  unfold Dev.allSet
  with_reducible repeat' (first
    | assumption | (intro _) | lift_lets -underBinder | apply sound_foldl | apply Dev.put_sound | apply Dev.meas6_sound)

theorem Dev.lockPages_sound {d : Dev} {gs : List Pg} (h_d : d.Sound) : (Dev.lockPages d gs).Sound := by
  unfold Dev.lockPages
  (try lift_lets -underBinder)
  with_reducible repeat' (first
    | assumption | (intro x; have hx : Dev.Sound x; unfold x; rotate_left; clear_value x) | (intro x; clear_value x)
    | (intro _) | lift_lets -underBinder | apply sound_ite | apply sound_foldl | apply Dev.put_sound
    | apply Dev.allSet_sound)

theorem Dev.cfgLock_sound {d : Dev} (h_d : d.Sound) : (Dev.cfgLock d).Sound := by
  unfold Dev.cfgLock
  with_reducible repeat' (first
    | assumption | lift_lets -underBinder | apply Dev.put_sound | apply Dev.lockPages_sound)

theorem Dev.lockPage_sound {d : Dev} {g : Pg} (h_d : d.Sound) : (Dev.lockPage d g).Sound := by
  unfold Dev.lockPage
  with_reducible repeat' (first
    | assumption | lift_lets -underBinder | apply sound_ite | apply Dev.lockPages_sound)

theorem Dev.enableNow_sound {d : Dev} {g : Pg} (h_d : d.Sound) : (Dev.enableNow d g).Sound := by
  unfold Dev.enableNow
  (try lift_lets -underBinder)
  with_reducible repeat' (first
    | assumption | (intro x; have hx : Dev.Sound x; unfold x; rotate_left; clear_value x) | lift_lets -underBinder
    | apply sound_ite | apply Dev.put_sound | apply Dev.octetGo_sound | apply Dev.trainStart_sound | split)

theorem Dev.disableNow_sound {d : Dev} {g : Pg} (h_d : d.Sound) : (Dev.disableNow d g).Sound := by
  unfold Dev.disableNow
  (try lift_lets -underBinder)
  with_reducible repeat' (first
    | assumption | (intro x; have hx : Dev.Sound x; unfold x; rotate_left; clear_value x) | (intro _)
    | lift_lets -underBinder | apply sound_ite | apply sound_foldl | apply Dev.put_sound | apply Dev.portLost_sound
    | apply Dev.octetGo_sound | apply Dev.portResetNow_sound | apply Dev.perstGo_sound | apply Dev.portResetOver_sound
    | apply Dev.linkDownEv_sound | split)

theorem Dev.enableSet_sound {d : Dev} {g : Pg} (h_d : d.Sound) : (Dev.enableSet d g).Sound := by
  unfold Dev.enableSet
  with_reducible repeat' (first
    | assumption | lift_lets -underBinder | apply sound_ite | apply Dev.enableNow_sound)

theorem Dev.enableClear_sound {d : Dev} {g : Pg} (h_d : d.Sound) : (Dev.enableClear d g).Sound := by
  unfold Dev.enableClear
  with_reducible repeat' (first
    | assumption | lift_lets -underBinder | apply sound_ite | apply Dev.disableNow_sound)

theorem Dev.blockClear_sound {d : Dev} {g : Pg} (h_d : d.Sound) : (Dev.blockClear d g).Sound := by
  unfold Dev.blockClear
  (try lift_lets -underBinder)
  with_reducible repeat' (first
    | assumption | (intro x; have hx : Dev.Sound x; unfold x; rotate_left; clear_value x) | (intro x; clear_value x)
    | (intro _) | lift_lets -underBinder | apply sound_foldl | apply Dev.setPort_sound | apply Dev.setOctet_sound
    | apply Dev.modLink_sound | apply Dev.flushSources_sound | apply Dev.failTxn_sound | apply Dev.failWaits_sound
    | apply Dev.raiseDue_sound | apply Dev.setBlocks_sound | apply Dev.dropWaits_sound | apply Dev.trayFree_sound
    | apply Dev.setEgress_sound | (simp only [sound_mk]; apply sound_of) | split)

theorem Dev.blockReset_sound {d : Dev} {g : Pg} (h_d : d.Sound) : (Dev.blockReset d g).Sound := by
  unfold Dev.blockReset
  (try lift_lets -underBinder)
  with_reducible repeat' (first
    | assumption | (intro x; have hx : Dev.Sound x; unfold x; rotate_left; clear_value x) | (intro x; clear_value x)
    | lift_lets -underBinder | apply sound_ite | apply Dev.blockClear_sound | apply Dev.sdsPages_sound
    | apply Dev.pairGo_sound | apply Dev.putBusy_sound | (simp only [sound_mk]; apply sound_of))

theorem Dev.blockResetReq_sound {d : Dev} {g : Pg} (h_d : d.Sound) : (Dev.blockResetReq d g).Sound := by
  unfold Dev.blockResetReq
  with_reducible repeat' (first
    | assumption | lift_lets -underBinder | apply sound_ite | apply Dev.cmtRefuse_sound | apply Dev.blockReset_sound)

theorem Dev.pgctl_sound {d : Dev} {g : Pg} {enable : Option Bool} {discard brst commit force : Bool} (h_d : d.Sound) : (Dev.pgctl d g enable discard brst commit force).Sound := by
  unfold Dev.pgctl
  (try lift_lets -underBinder)
  with_reducible repeat' (first
    | assumption | (intro x; have hx : Dev.Sound x; unfold x; rotate_left; clear_value x) | lift_lets -underBinder
    | apply sound_ite | apply Dev.enableSet_sound | apply Dev.enableClear_sound | apply Dev.unshadow_sound
    | apply Dev.blockResetReq_sound | apply Dev.commitReq_sound | split)

theorem Dev.fltClear_sound {d : Dev} {g : Pg} {mask : Nat} (h_d : d.Sound) : (Dev.fltClear d g mask).Sound := by
  unfold Dev.fltClear
  with_reducible repeat' (first
    | assumption | (intro x; have hx : Dev.Sound x; unfold x; rotate_left; clear_value x) | (intro x; clear_value x)
    | (intro _) | lift_lets -underBinder | apply sound_ite | apply sound_foldl | apply Dev.put_sound
    | (simp only [sound_mk]; apply sound_of))

theorem Dev.fltMaskSet_sound {d : Dev} {g : Pg} {v m : W64} (h_d : d.Sound) : (Dev.fltMaskSet d g v m).Sound := by
  unfold Dev.fltMaskSet
  with_reducible repeat' (first
    | assumption | lift_lets -underBinder | apply sound_ite | apply Dev.setWord_sound)

theorem Dev.fltSevSet_sound {d : Dev} {g : Pg} {v m : W64} (h_d : d.Sound) : (Dev.fltSevSet d g v m).Sound := by
  unfold Dev.fltSevSet
  (try lift_lets -underBinder)
  with_reducible repeat' (first
    | assumption | (intro x; have hx : Dev.Sound x; unfold x; rotate_left; clear_value x) | (intro x; clear_value x)
    | lift_lets -underBinder | apply sound_ite | apply Dev.setWord_sound | apply Dev.raise_sound)

theorem Dev.fltInjectWord_sound {d : Dev} {g : Pg} {v m : W64} (h_d : d.Sound) : (Dev.fltInjectWord d g v m).Sound := by
  unfold Dev.fltInjectWord
  with_reducible repeat' (first
    | assumption | apply Dev.setWord_sound)

theorem Dev.fltInjectSet_sound {d : Dev} {g : Pg} {v m : W64} (h_d : d.Sound) : (Dev.fltInjectSet d g v m).Sound := by
  unfold Dev.fltInjectSet
  (try lift_lets -underBinder)
  with_reducible repeat' (first
    | assumption | (intro x; have hx : Dev.Sound x; unfold x; rotate_left; clear_value x) | lift_lets -underBinder
    | apply sound_ite | apply Dev.fltInjectWord_sound | apply Dev.put_sound)

theorem Dev.fltCountClr_sound {d : Dev} {g : Pg} (h_d : d.Sound) : (Dev.fltCountClr d g).Sound := by
  unfold Dev.fltCountClr
  with_reducible repeat' (first
    | assumption | lift_lets -underBinder | apply Dev.put_sound)

theorem Dev.tblOvr_sound {d : Dev} {w : Nat} (h_d : d.Sound) : (Dev.tblOvr d w).Sound := by
  unfold Dev.tblOvr
  with_reducible repeat' (first
    | assumption | lift_lets -underBinder | apply sound_ite | apply Dev.put_sound | apply Dev.raise_sound)

theorem Dev.tblBegin_sound {d : Dev} {w op : Nat} {inc : Bool} (h_d : d.Sound) : (Dev.tblBegin d w op inc).Sound := by
  unfold Dev.tblBegin
  (try lift_lets -underBinder)
  with_reducible repeat' (first
    | assumption | (intro x; clear_value x) | lift_lets -underBinder | apply Dev.put_sound
    | (simp only [sound_mk]; apply sound_of))

theorem Dev.tblCmd_sound {d : Dev} {w op : Nat} {inc : Bool} (h_d : d.Sound) : (Dev.tblCmd d w op inc).Sound := by
  unfold Dev.tblCmd
  with_reducible repeat' (first
    | assumption | lift_lets -underBinder | apply sound_ite | apply Dev.tblOvr_sound | apply Dev.tblBegin_sound)

theorem Dev.tblPut_sound {d : Dev} {t : TblOp} {i : Nat} {v : W64} (h_d : d.Sound) : (Dev.tblPut d t i v).Sound := by
  unfold Dev.tblPut
  (try lift_lets -underBinder)
  with_reducible repeat' (first
    | assumption | (intro x; clear_value x) | lift_lets -underBinder | apply sound_ite | apply Dev.setLword_sound
    | apply Dev.tagInvalidate_sound | apply Dev.setCtxW_sound | apply Dev.setTab_sound | apply Dev.setTabS_sound)

theorem Dev.tblCheckBits_sound {d : Dev} {w : Nat} {t : TblOp} (h_d : d.Sound) : (Dev.tblCheckBits d w t).Sound := by
  unfold Dev.tblCheckBits
  (try lift_lets -underBinder)
  with_reducible repeat' (first
    | assumption | (intro x; clear_value x) | lift_lets -underBinder | apply Dev.injectAt_sound
    | (simp only [sound_mk]; apply sound_of) | split)

theorem Dev.tblDo_sound {d : Dev} {w : Nat} {t : TblOp} (h_d : d.Sound) : (Dev.tblDo d w t).Sound := by
  unfold Dev.tblDo
  with_reducible repeat' (first
    | assumption | (intro x; have hx : Dev.Sound x; unfold x; rotate_left; clear_value x) | (intro x; clear_value x)
    | (intro _) | lift_lets -underBinder | apply sound_ite | apply sound_foldl | apply Dev.setWord_sound
    | apply Dev.tblPut_sound | apply Dev.tblCheckBits_sound | (simp only [sound_mk]; apply sound_of) | split)

theorem Dev.tblStep_sound {d : Dev} {w : Nat} {t : TblOp} (h_d : d.Sound) : (Dev.tblStep d w t).Sound := by
  unfold Dev.tblStep
  with_reducible repeat' (first
    | assumption | lift_lets -underBinder | apply sound_ite | apply Dev.put_sound)

theorem Dev.tblEnd_sound {d : Dev} {w e : Nat} (h_d : d.Sound) : (Dev.tblEnd d w e).Sound := by
  unfold Dev.tblEnd
  (try lift_lets -underBinder)
  with_reducible repeat' (first
    | assumption | (intro x; have hx : Dev.Sound x; unfold x; rotate_left; clear_value x) | (intro x; clear_value x)
    | (intro _) | lift_lets -underBinder | apply sound_ite | apply sound_foldl | apply Dev.put_sound | apply Dev.irq_sound
    | apply Dev.commitPoll_sound | (simp only [sound_mk]; apply sound_of))

theorem Dev.tblDone_sound {d : Dev} {w : Nat} {ue : Bool} (h_d : d.Sound) : (Dev.tblDone d w ue).Sound := by
  unfold Dev.tblDone
  with_reducible repeat' (first
    | assumption | (intro x; have hx : Dev.Sound x; unfold x; rotate_left; clear_value x) | (intro x; clear_value x)
    | (intro _) | lift_lets -underBinder | apply sound_ite | apply sound_foldl | apply Dev.tblDo_sound
    | apply Dev.tblStep_sound | apply Dev.setWord_sound | apply Dev.raise_sound | apply Dev.tblEnd_sound | split)

theorem Dev.lease_sound {d : Dev} {i ms : Nat} (h_d : d.Sound) : (Dev.lease d i ms).Sound := by
  unfold Dev.lease
  (try lift_lets -underBinder)
  with_reducible repeat' (first
    | assumption | (intro x; clear_value x) | (simp only [sound_mk]; apply sound_of))

theorem Dev.lockAcquire_sound {d : Dev} {path i tag ms : Nat} (h_d : d.Sound) : (Dev.lockAcquire d path i tag ms).Sound := by
  unfold Dev.lockAcquire
  with_reducible repeat' (first
    | assumption | lift_lets -underBinder | apply sound_ite | apply Dev.put_sound | apply Dev.lease_sound)

theorem Dev.lockRenew_sound {d : Dev} {path i tag ms : Nat} (h_d : d.Sound) : (Dev.lockRenew d path i tag ms).Sound := by
  unfold Dev.lockRenew
  with_reducible repeat' (first
    | assumption | lift_lets -underBinder | apply sound_ite | apply Dev.raise_sound | apply Dev.lease_sound)

theorem Dev.lockRelease_sound {d : Dev} {path i tag : Nat} (h_d : d.Sound) : (Dev.lockRelease d path i tag).Sound := by
  unfold Dev.lockRelease
  (try lift_lets -underBinder)
  with_reducible repeat' (first
    | assumption | (intro x; have hx : Dev.Sound x; unfold x; rotate_left; clear_value x) | (intro x; clear_value x)
    | lift_lets -underBinder | apply sound_ite | apply Dev.raise_sound | apply Dev.put_sound
    | (simp only [sound_mk]; apply sound_of))

theorem Dev.lockClr_sound {d : Dev} {path i tag : Nat} (h_d : d.Sound) : (Dev.lockClr d path i tag).Sound := by
  unfold Dev.lockClr
  with_reducible repeat' (first
    | assumption | lift_lets -underBinder | apply sound_ite | apply Dev.raise_sound | apply Dev.put_sound)

theorem Dev.lockCmd_sound {d : Dev} {path i : Nat} {v : W64} (h_d : d.Sound) : (Dev.lockCmd d path i v).Sound := by
  unfold Dev.lockCmd
  (try lift_lets -underBinder)
  with_reducible repeat' (first
    | assumption | (intro x; clear_value x) | apply Dev.lockAcquire_sound | apply Dev.lockRenew_sound
    | apply Dev.lockRelease_sound | apply Dev.lockBreak_sound | apply Dev.lockClr_sound | split)

theorem Dev.mboxGo_sound {d : Dev} (h_d : d.Sound) : (Dev.mboxGo d).Sound := by
  unfold Dev.mboxGo
  with_reducible repeat' (first
    | assumption | lift_lets -underBinder | apply sound_ite | apply Dev.put_sound)

theorem Dev.relayNext_sound {d : Dev} (h_d : d.Sound) : (Dev.relayNext d).Sound := by
  unfold Dev.relayNext
  with_reducible repeat' (first
    | assumption | (intro x; have hx : Dev.Sound x; unfold x; rotate_left; clear_value x) | (intro x; clear_value x)
    | (intro _) | lift_lets -underBinder | apply sound_ite | apply sound_foldl | apply Dev.setWord_sound
    | apply Dev.put_sound | (simp only [sound_mk]; apply sound_of) | split)

theorem Dev.winTake_sound {d : Dev} (h_d : d.Sound) : (Dev.winTake d).Sound := by
  unfold Dev.winTake
  (try lift_lets -underBinder)
  with_reducible repeat' (first
    | assumption | (intro x; clear_value x) | (simp only [sound_mk]; apply sound_of))

theorem Dev.plainWrite_sound {d : Dev} {g : Pg} {x : RegD} {j : Nat} {v m : W64} (h_d : d.Sound) : (Dev.plainWrite d g x j v m).Sound := by
  unfold Dev.plainWrite
  (try lift_lets -underBinder)
  with_reducible repeat' (first
    | assumption | (intro x; have hx : Dev.Sound x; unfold x; rotate_left; clear_value x) | (intro x; clear_value x)
    | lift_lets -underBinder | apply sound_ite | apply Dev.setWord_sound | apply Dev.setShWord_sound)

theorem Dev.perstWrite_sound {d : Dev} {x : RegD} {p : Nat} {v m : W64} (h_d : d.Sound) : (Dev.perstWrite d x p v m).Sound := by
  unfold Dev.perstWrite
  (try lift_lets -underBinder)
  with_reducible repeat' (first
    | assumption | (intro x; have hx : Dev.Sound x; unfold x; rotate_left; clear_value x) | (intro x; clear_value x)
    | lift_lets -underBinder | apply sound_ite | apply Dev.plainWrite_sound | apply Dev.modPort_sound
    | apply Dev.perstGo_sound | apply Dev.put_sound | apply Dev.hostReset_sound | apply Dev.portResetOver_sound)

theorem Dev.laneForced_sound {d : Dev} {o l : Nat} (h_d : d.Sound) : (Dev.laneForced d o l).Sound := by
  unfold Dev.laneForced
  (try lift_lets -underBinder)
  with_reducible repeat' (first
    | assumption | (intro x; have hx : Dev.Sound x; unfold x; rotate_left; clear_value x) | (intro _)
    | lift_lets -underBinder | apply sound_ite | apply Dev.put_sound | apply Dev.laneFail_sound | apply Dev.laneGone_sound
    | apply Dev.narrow_sound | split)

theorem Dev.lanePower_sound {d : Dev} {x : RegD} {o : Nat} {v m : W64} (h_d : d.Sound) : (Dev.lanePower d x o v m).Sound := by
  unfold Dev.lanePower
  (try lift_lets -underBinder)
  with_reducible repeat' (first
    | assumption | (intro x; have hx : Dev.Sound x; unfold x; rotate_left; clear_value x) | (intro x; clear_value x)
    | (intro _) | lift_lets -underBinder | apply sound_foldl | apply Dev.plainWrite_sound | apply Dev.laneForced_sound)

theorem Dev.regWrite_sound {d : Dev} {path : Nat} {g : Pg} {x : RegD} {j : Nat} {v m : W64} (h_d : d.Sound) : (Dev.regWrite d path g x j v m).Sound := by
  unfold Dev.regWrite
  (try lift_lets -underBinder)
  with_reducible repeat' (first
    | assumption | (intro x; have hx : Dev.Sound x; unfold x; rotate_left; clear_value x) | (intro x; clear_value x)
    | lift_lets -underBinder | apply sound_ite | apply Dev.plainWrite_sound | apply Dev.pgctl_sound
    | apply Dev.lockPage_sound | apply Dev.fltClear_sound | apply Dev.fltMaskSet_sound | apply Dev.fltSevSet_sound
    | apply Dev.fltInjectSet_sound | apply Dev.fltCountClr_sound | apply Dev.cntSelSet_sound | apply Dev.tblCmd_sound
    | apply Dev.tblOvr_sound | apply Dev.lockCmd_sound | apply Dev.cfgLock_sound | apply Dev.mboxGo_sound
    | apply Dev.eqCacheWrite_sound | apply Dev.setOctet_sound | apply Dev.marginStart_sound | apply Dev.marginEnd_sound
    | apply Dev.lanePower_sound | apply Dev.sendHot_sound | apply Dev.toRecovery_sound | apply Dev.disableOn_sound
    | apply Dev.disableOff_sound | apply Dev.perstWrite_sound | apply Dev.drlAttach_sound | apply Dev.trackCheck_sound
    | apply Dev.retireBank_sound | apply Dev.dirPeek_sound | apply Dev.sccClean_sound | apply Dev.pprGo_sound
    | apply Dev.slotOnCmd_sound | apply Dev.slotOffCmd_sound | apply Dev.slotClearFet_sound | apply Dev.measStart_sound
    | apply Dev.relayNext_sound | apply Dev.winTake_sound | apply Dev.timeSet_sound | apply Dev.crumb_sound
    | apply Dev.clrAll_sound | apply Dev.collectCfg_sound | apply Dev.ringBase_sound | apply Dev.ringCfg_sound
    | apply Dev.ringHead_sound | split)

theorem Dev.devRstWrite_sound {d : Dev} {path : Nat} {v m : W64} (h_d : d.Sound) : (Dev.devRstWrite d path v m).Sound := by
  unfold Dev.devRstWrite
  with_reducible repeat' (first
    | assumption | lift_lets -underBinder | apply sound_ite | apply Dev.badAccess_sound | apply Dev.bigReq_sound
    | apply Dev.sliceReq_sound | apply Dev.domainReq_sound | apply Dev.portReq_sound | split)

theorem Dev.pageWrite_sound {d : Dev} {path : Nat} {g : Pg} {off n v : Nat} (h_d : d.Sound) : (Dev.pageWrite d path g off n v).Sound := by
  unfold Dev.pageWrite
  with_reducible repeat' (first
    | assumption | lift_lets -underBinder | apply sound_ite | apply Dev.devRstWrite_sound | apply Dev.regWrite_sound | split)

theorem Dev.vppbPower_sound {d : Dev} {u v : Nat} {on : Bool} (h_d : d.Sound) : (Dev.vppbPower d u v on).Sound := by
  unfold Dev.vppbPower
  (try lift_lets -underBinder)
  with_reducible repeat' (first
    | assumption | (intro x; have hx : Dev.Sound x; unfold x; rotate_left; clear_value x) | (intro x; clear_value x)
    | lift_lets -underBinder | apply sound_ite | apply Dev.slotOnCmd_sound | apply Dev.slotOffCmd_sound
    | apply Dev.setSlotWord_sound | apply Dev.slotFlag_sound)

theorem Dev.slotWrite_sound {d : Dev} {u v : Nat} {val : BitVec 32} (h_d : d.Sound) : (Dev.slotWrite d u v val).Sound := by
  unfold Dev.slotWrite
  (try lift_lets -underBinder)
  with_reducible repeat' (first
    | assumption | (intro x; have hx : Dev.Sound x; unfold x; rotate_left; clear_value x) | (intro x; clear_value x)
    | lift_lets -underBinder | apply sound_ite | apply Dev.setSlotWord_sound | apply Dev.vppbPower_sound)

theorem Dev.vppbWrite_sound {d : Dev} {u v dw val : Nat} (h_d : d.Sound) : (Dev.vppbWrite d u v dw val).Sound := by
  unfold Dev.vppbWrite
  (try lift_lets -underBinder)
  with_reducible repeat' (first
    | assumption | (intro x; clear_value x) | lift_lets -underBinder | apply sound_ite | apply Dev.slotWrite_sound
    | (simp only [sound_mk]; apply sound_of))

theorem Dev.hdmWrite_sound {d : Dev} {u off val : Nat} (h_d : d.Sound) : (Dev.hdmWrite d u off val).Sound := by
  unfold Dev.hdmWrite
  (try lift_lets -underBinder)
  with_reducible repeat' (first
    | assumption | (intro x; clear_value x) | lift_lets -underBinder | apply sound_ite
    | (simp only [sound_mk]; apply sound_of))

theorem Dev.cfgAnswer_sound {d : Dev} {m : Msg} {v : Option Nat} (h_d : d.Sound) : (Dev.cfgAnswer d m v).Sound := by
  unfold Dev.cfgAnswer
  with_reducible repeat' (first
    | assumption | apply Dev.replyTo_sound | split)

theorem Dev.cfgBelow_sound {d : Dev} {m : Msg} {v off : Nat} {write : Bool} {val : Nat} (h_d : d.Sound) : (Dev.cfgBelow d m v off write val).Sound := by
  unfold Dev.cfgBelow
  with_reducible repeat' (first
    | assumption | lift_lets -underBinder | apply sound_ite | apply Dev.cfgAnswer_sound | apply Dev.ldCfg_sound
    | apply Dev.pushRel_sound | split)

theorem Dev.configurationRequestRow_sound {d : Dev} {vcs vppb : Nat} {below : Bool} {off : Nat} {write : Bool} {val : Nat} (h_d : d.Sound) : (Dev.configurationRequestRow d vcs vppb below off write val).Sound := by
  unfold Dev.configurationRequestRow
  (try lift_lets -underBinder)
  with_reducible repeat' (first
    | assumption | (intro x; clear_value x) | lift_lets -underBinder | apply sound_ite | apply Dev.cfgBelow_sound
    | apply Dev.hdmWrite_sound | apply Dev.cfgAnswer_sound | apply Dev.vppbWrite_sound)

theorem Dev.mldLdLostRow_sound {d : Dev} {p ld : Nat} (h_d : d.Sound) : (Dev.mldLdLostRow d p ld).Sound := by
  unfold Dev.mldLdLostRow
  (try lift_lets -underBinder)
  with_reducible repeat' (first
    | assumption | (intro x; clear_value x) | lift_lets -underBinder | apply sound_ite | apply Dev.raise_sound
    | apply Dev.removeTargets_sound | apply Dev.removalNotice_sound)

theorem Dev.removalNoticeRow_sound {d : Dev} {dev p ld : Nat} (h_d : d.Sound) : (Dev.removalNoticeRow d dev p ld).Sound := by
  unfold Dev.removalNoticeRow
  with_reducible repeat' (first
    | assumption | (intro x; have hx : Dev.Sound x; unfold x; rotate_left; clear_value x) | lift_lets -underBinder
    | apply sound_ite | apply Dev.setArrived_sound | apply Dev.removeAgent_sound | apply Dev.removeTargets_sound | split)

theorem Dev.vppbPowerControlRow_sound {d : Dev} {u vppb : Nat} {on : Bool} (h_d : d.Sound) : (Dev.vppbPowerControlRow d u vppb on).Sound := by
  unfold Dev.vppbPowerControlRow
  (try lift_lets -underBinder)
  with_reducible repeat' (first
    | assumption | (intro x; clear_value x) | lift_lets -underBinder | apply sound_ite | apply Dev.vppbPower_sound)

theorem Dev.fm_sound {d : Dev} {i : Instr} {path : Nat} {f : Dev → Dev} (h_d : d.Sound) (h_f : ∀ (v0 : Dev), Dev.Sound v0 → Dev.Sound (f v0)) : (Dev.fm d i path f).Sound := by
  unfold Dev.fm
  (try lift_lets -underBinder)
  with_reducible repeat' (first
    | assumption | (intro x; clear_value x) | lift_lets -underBinder | apply sound_ite | apply h_f
    | (simp only [sound_mk]; apply sound_of))

theorem Dev.fmOk_sound {d : Dev} {b : Bytes} (h_d : d.Sound) : (Dev.fmOk d b).Sound := by
  unfold Dev.fmOk
  with_reducible repeat' (first
    | assumption | apply Dev.emit_sound)

theorem Dev.fmBad_sound {d : Dev} (h_d : d.Sound) : (Dev.fmBad d).Sound := by
  unfold Dev.fmBad
  with_reducible repeat' (first
    | assumption | apply Dev.emit_sound)

theorem Dev.getVirtualCxlSwitchInfoRow_sound {d : Dev} {path vcs start limit : Nat} (h_d : d.Sound) : (Dev.getVirtualCxlSwitchInfoRow d path vcs start limit).Sound := by
  unfold Dev.getVirtualCxlSwitchInfoRow
  with_reducible repeat' (first
    | assumption | (intro _) | lift_lets -underBinder | apply Dev.fm_sound | apply Dev.fmOk_sound)

theorem Dev.fmTab_sound {d : Dev} {t inst index w : Nat} {v : W64} (h_d : d.Sound) : (Dev.fmTab d t inst index w v).Sound := by
  unfold Dev.fmTab
  (try lift_lets -underBinder)
  with_reducible repeat' (first
    | assumption | (intro x; have hx : Dev.Sound x; unfold x; rotate_left; clear_value x) | (intro x; clear_value x)
    | apply Dev.setTabS_sound | (simp only [sound_mk]; apply sound_of))

theorem Dev.fmApply_sound {d : Dev} {vcs : Nat} {f : Dev → Dev} (h_d : d.Sound) (h_f : ∀ (v0 : Dev), Dev.Sound v0 → Dev.Sound (f v0)) : (Dev.fmApply d vcs f).Sound := by
  unfold Dev.fmApply
  (try lift_lets -underBinder)
  with_reducible repeat' (first
    | assumption | (intro x; have hx : Dev.Sound x; unfold x; rotate_left; clear_value x) | (intro x; clear_value x)
    | lift_lets -underBinder | apply sound_ite | apply Dev.commitReq_sound | apply Dev.fmBad_sound | apply Dev.emit_sound
    | apply h_f | (simp only [sound_mk]; apply sound_of))

theorem Dev.fmCommit_sound {d : Dev} {vcs : Nat} {f : Dev → Dev} (h_d : d.Sound) (h_f : ∀ (v0 : Dev), Dev.Sound v0 → Dev.Sound (f v0)) : (Dev.fmCommit d vcs f).Sound := by
  unfold Dev.fmCommit
  (try lift_lets -underBinder)
  with_reducible repeat' (first
    | assumption | (intro x; clear_value x) | lift_lets -underBinder | apply sound_ite | apply Dev.fmBad_sound
    | apply Dev.fmApply_sound)

theorem Dev.bindVppbRow_sound {d : Dev} {path vcs vppb tgt ld : Nat} (h_d : d.Sound) : (Dev.bindVppbRow d path vcs vppb tgt ld).Sound := by
  unfold Dev.bindVppbRow
  with_reducible repeat' (first
    | assumption | (intro _) | lift_lets -underBinder | apply Dev.fm_sound | apply Dev.fmCommit_sound
    | apply Dev.fmTab_sound)

theorem Dev.fmUnmap_sound {d : Dev} {u v : Nat} (h_d : d.Sound) : (Dev.fmUnmap d u v).Sound := by
  unfold Dev.fmUnmap
  with_reducible repeat' (first
    | assumption | (intro x; clear_value x) | (intro _) | lift_lets -underBinder | apply sound_ite | apply sound_foldl
    | apply Dev.fmTab_sound)

theorem Dev.unbindVppbRow_sound {d : Dev} {path vcs vppb option : Nat} (h_d : d.Sound) : (Dev.unbindVppbRow d path vcs vppb option).Sound := by
  unfold Dev.unbindVppbRow
  with_reducible repeat' (first
    | assumption | (intro x; clear_value x) | (intro _) | lift_lets -underBinder | apply sound_ite | apply Dev.fm_sound
    | apply Dev.fmBad_sound | apply Dev.fmCommit_sound | apply Dev.fmTab_sound | apply Dev.fmUnmap_sound)

theorem Dev.generateAerEventRow_sound {d : Dev} {path vcs vppb err : Nat} (h_d : d.Sound) : (Dev.generateAerEventRow d path vcs vppb err).Sound := by
  unfold Dev.generateAerEventRow
  with_reducible repeat' (first
    | assumption | (intro _) | lift_lets -underBinder | apply sound_ite | apply Dev.fm_sound | apply Dev.emit_sound
    | apply Dev.fmOk_sound | apply Dev.fmBad_sound)

theorem Dev.identifySwitchDeviceRow_sound {d : Dev} {path : Nat} (h_d : d.Sound) : (Dev.identifySwitchDeviceRow d path).Sound := by
  unfold Dev.identifySwitchDeviceRow
  with_reducible repeat' (first
    | assumption | (intro _) | lift_lets -underBinder | apply Dev.fm_sound | apply Dev.fmOk_sound)

theorem Dev.getPhysicalPortStateRow_sound {d : Dev} {path : Nat} {ports : List Nat} (h_d : d.Sound) : (Dev.getPhysicalPortStateRow d path ports).Sound := by
  unfold Dev.getPhysicalPortStateRow
  with_reducible repeat' (first
    | assumption | (intro _) | lift_lets -underBinder | apply sound_ite | apply Dev.fm_sound | apply Dev.fmOk_sound
    | apply Dev.fmBad_sound)

theorem Dev.physicalPortControlRow_sound {d : Dev} {path p op : Nat} (h_d : d.Sound) : (Dev.physicalPortControlRow d path p op).Sound := by
  unfold Dev.physicalPortControlRow
  with_reducible repeat' (first
    | assumption | (intro _) | lift_lets -underBinder | apply sound_ite | apply Dev.fm_sound | apply Dev.disableOn_sound
    | apply Dev.fmOk_sound | apply Dev.disableOff_sound | apply Dev.portReq_sound | apply Dev.toRecovery_sound
    | apply Dev.sendHot_sound | apply Dev.fmBad_sound | split)

theorem Dev.fwCfgOut_sound {d : Dev} {p ld off : Nat} {write : Bool} {val : Nat} (h_d : d.Sound) : (Dev.fwCfgOut d p ld off write val).Sound := by
  unfold Dev.fwCfgOut
  (try lift_lets -underBinder)
  with_reducible repeat' (first
    | assumption | (intro x; clear_value x) | apply Dev.pushRel_sound)

theorem Dev.sendLdCxlIoConfigRequestRow_sound {d : Dev} {path p ld off : Nat} {write : Bool} {val : Nat} (h_d : d.Sound) : (Dev.sendLdCxlIoConfigRequestRow d path p ld off write val).Sound := by
  unfold Dev.sendLdCxlIoConfigRequestRow
  with_reducible repeat' (first
    | assumption | (intro _) | lift_lets -underBinder | apply sound_ite | apply Dev.fm_sound | apply Dev.ldCfg_sound
    | apply Dev.fmOk_sound | apply Dev.fmBad_sound | apply Dev.fwCfgOut_sound | apply Dev.emit_sound)

theorem Dev.tunnelOut_sound {d : Dev} {p : Nat} {payload : Bytes} (h_d : d.Sound) : (Dev.tunnelOut d p payload).Sound := by
  unfold Dev.tunnelOut
  (try lift_lets -underBinder)
  with_reducible repeat' (first
    | assumption | (intro x; clear_value x) | apply Dev.pushRel_sound)

theorem Dev.tunnelAnswer_sound {d : Dev} (h_d : d.Sound) : (Dev.tunnelAnswer d).Sound := by
  unfold Dev.tunnelAnswer
  (try lift_lets -underBinder)
  with_reducible repeat' (first
    | assumption | (intro x; have hx : Dev.Sound (Prod.snd x); unfold x; rotate_left; clear_value x) | apply Dev.fresh_sound
    | apply Dev.freshBytes_sound | apply Dev.fmOk_sound)

theorem Dev.tunnelManagementCommandRow_sound {d : Dev} {path p : Nat} {payload : Bytes} (h_d : d.Sound) : (Dev.tunnelManagementCommandRow d path p payload).Sound := by
  unfold Dev.tunnelManagementCommandRow
  with_reducible repeat' (first
    | assumption | (intro _) | lift_lets -underBinder | apply sound_ite | apply Dev.fm_sound | apply Dev.tunnelAnswer_sound
    | apply Dev.fmBad_sound | apply Dev.tunnelOut_sound)

theorem Dev.fmServe_sound {d : Dev} {i : Instr} (h_d : d.Sound) : (Dev.fmServe d i).Sound := by
  unfold Dev.fmServe
  with_reducible repeat' (first
    | assumption | apply Dev.getVirtualCxlSwitchInfoRow_sound | apply Dev.bindVppbRow_sound | apply Dev.unbindVppbRow_sound
    | apply Dev.generateAerEventRow_sound | apply Dev.identifySwitchDeviceRow_sound
    | apply Dev.getPhysicalPortStateRow_sound | apply Dev.physicalPortControlRow_sound
    | apply Dev.sendLdCxlIoConfigRequestRow_sound | apply Dev.tunnelManagementCommandRow_sound | split)

theorem Dev.fmWake_sound {d : Dev} (h_d : d.Sound) : (Dev.fmWake d).Sound := by
  unfold Dev.fmWake
  (try lift_lets -underBinder)
  with_reducible repeat' (first
    | assumption | (intro x; clear_value x) | (intro _) | lift_lets -underBinder | apply sound_foldl
    | apply Dev.fmServe_sound | (simp only [sound_mk]; apply sound_of))

theorem Dev.secCode_sound {d : Dev} {code detail : Nat} (h_d : d.Sound) : (Dev.secCode d code detail).Sound := by
  unfold Dev.secCode
  with_reducible repeat' (first
    | assumption | lift_lets -underBinder | apply Dev.put_sound)

theorem Dev.secDone_sound {d : Dev} {code detail : Nat} (h_d : d.Sound) : (Dev.secDone d code detail).Sound := by
  unfold Dev.secDone
  with_reducible repeat' (first
    | assumption | lift_lets -underBinder | apply Dev.secCode_sound | apply Dev.put_sound)

theorem Dev.fwRun_sound {d : Dev} {x : Image} (h_d : d.Sound) : (Dev.fwRun d x).Sound := by
  unfold Dev.fwRun
  (try lift_lets -underBinder)
  with_reducible repeat' (first
    | assumption | (intro x; have hx : Dev.Sound x; unfold x; rotate_left; clear_value x) | (intro x; clear_value x)
    | lift_lets -underBinder | apply Dev.put_sound | apply Dev.fmWake_sound | (simp only [sound_mk]; apply sound_of))

theorem Dev.boot_sound {d : Dev} {bank : Nat} {f : FlashImage} (h_d : d.Sound) : (Dev.boot d bank f).Sound := by
  unfold Dev.boot
  (try lift_lets -underBinder)
  with_reducible repeat' (first
    | assumption | (intro x; have hx : Dev.Sound x; unfold x; rotate_left; clear_value x) | lift_lets -underBinder
    | apply sound_ite | apply Dev.fwRun_sound | apply Dev.measStart_sound)

theorem Dev.setMeas_sound {d : Dev} {i : Nat} {b : Bytes} (h_d : d.Sound) : (Dev.setMeas d i b).Sound := by
  unfold Dev.setMeas
  (try lift_lets -underBinder)
  with_reducible repeat' (first
    | assumption | (intro x; clear_value x) | (simp only [sound_mk]; apply sound_of))

theorem Dev.meas7_sound {d : Dev} (h_d : d.Sound) : (Dev.meas7 d).Sound := by
  unfold Dev.meas7
  with_reducible repeat' (first
    | assumption | lift_lets -underBinder | apply sound_ite | apply Dev.setMeas_sound)

theorem Dev.linkOpen_sound {d : Dev} {slot : Nat} (h_d : d.Sound) : (Dev.linkOpen d slot).Sound := by
  unfold Dev.linkOpen
  (try lift_lets -underBinder)
  with_reducible repeat' (first
    | assumption | (intro x; clear_value x) | lift_lets -underBinder | apply sound_ite
    | (simp only [sound_mk]; apply sound_of))

theorem Dev.sessionEnd_sound {d : Dev} {id : Nat} (h_d : d.Sound) : (Dev.sessionEnd d id).Sound := by
  unfold Dev.sessionEnd
  (try lift_lets -underBinder)
  with_reducible repeat' (first
    | assumption | (intro x; clear_value x) | (simp only [sound_mk]; apply sound_of))

theorem Dev.spdmErr_sound {d : Dev} {c : Nat} (h_d : d.Sound) : (Dev.spdmErr d c).Sound := by
  unfold Dev.spdmErr
  with_reducible repeat' (first
    | assumption | apply Dev.emit_sound)

theorem Dev.spdmServe_sound {d : Dev} {src : Nat} {req : Spdm} (h_d : d.Sound) : (Dev.spdmServe d src req).Sound := by
  unfold Dev.spdmServe
  with_reducible repeat' (first
    | assumption | (intro x; have hx : Dev.Sound x; unfold x; rotate_left; clear_value x) | (intro x; clear_value x)
    | lift_lets -underBinder | apply sound_ite | apply Dev.emit_sound | apply Dev.spdmErr_sound | apply Dev.freshBytes_sound
    | apply Dev.linkOpen_sound | apply Dev.sessionEnd_sound | (simp only [sound_mk]; apply sound_of) | split)

theorem Dev.spdmDrain_sound {d : Dev} (h_d : d.Sound) : (Dev.spdmDrain d).Sound := by
  unfold Dev.spdmDrain
  (try lift_lets -underBinder)
  with_reducible repeat' (first
    | assumption | (intro x; clear_value x) | (intro _) | lift_lets -underBinder | apply sound_foldl
    | apply Dev.spdmServe_sound | (simp only [sound_mk]; apply sound_of))

theorem Dev.bundleEnd_sound {d : Dev} {x : BundleRun} {fail : Bool} (h_d : d.Sound) : (Dev.bundleEnd d x fail).Sound := by
  unfold Dev.bundleEnd
  (try lift_lets -underBinder)
  with_reducible repeat' (first
    | assumption | (intro x; have hx : Dev.Sound x; unfold x; rotate_left; clear_value x) | (intro x; clear_value x)
    | lift_lets -underBinder | apply sound_ite | apply Dev.put_sound | apply Dev.lockPages_sound | apply Dev.cfgLock_sound
    | apply Dev.setMeas_sound | apply Dev.meas6_sound | apply Dev.meas7_sound | apply Dev.raise_sound
    | apply Dev.secCode_sound | apply Dev.secDone_sound | apply Dev.spdmDrain_sound | (simp only [sound_mk]; apply sound_of))

theorem Dev.bundleNext_sound {d : Dev} {x : BundleRun} {len : Nat} (h_d : d.Sound) : (Dev.bundleNext d x len).Sound := by
  unfold Dev.bundleNext
  (try lift_lets -underBinder)
  with_reducible repeat' (first
    | assumption | (intro x; clear_value x) | lift_lets -underBinder | apply sound_ite
    | (simp only [sound_mk]; apply sound_of))

theorem Dev.bundleUnlock_sound {d : Dev} {x : BundleRun} {g : Pg} (h_d : d.Sound) : (Dev.bundleUnlock d x g).2.Sound := by
  unfold Dev.bundleUnlock
  (try lift_lets -underBinder)
  with_reducible repeat' (first
    | assumption | (intro x; have hx : Dev.Sound x; unfold x; rotate_left; clear_value x) | lift_lets -underBinder
    | apply sound_ite | apply sound_ite2 | apply Dev.put_sound | apply Dev.setMeas_sound)
theorem Dev.bundleTable_sound {d : Dev} {g : Pg} {head : Nat} {b : Bytes} {off : Nat} (h_d : d.Sound) : OSound1 (Dev.bundleTable d g head b off) := by
  unfold Dev.bundleTable
  (try lift_lets -underBinder)
  with_reducible repeat' (first
    | assumption | (intro x; have hx : Dev.Sound x; unfold x; rotate_left; clear_value x) | (intro x; clear_value x)
    | (intro _) | lift_lets -underBinder | apply sound_ite | apply sound_foldl | apply osound1_none | apply osound1_some
    | apply osound1_ite | apply Dev.tblPut_sound | (simp only [sound_mk]; apply sound_of) | split)
theorem Dev.bundleTable_at {d : Dev} {g : Pg} {head : Nat} {b : Bytes} {off : Nat} {d1 : Dev} (hEq : Dev.bundleTable d g head b off = some d1) (h_d : d.Sound) : d1.Sound := by
  have h := Dev.bundleTable_sound (d := d) (g := g) (head := head) (b := b) (off := off) h_d
  rw [hEq] at h
  exact h

theorem Dev.bundleLarder_sound {d : Dev} {x : BundleRun} {tlm tag : Nat} (h_d : d.Sound) : OSound1 (Dev.bundleLarder d x tlm tag) := by
  unfold Dev.bundleLarder
  (try lift_lets -underBinder)
  with_reducible repeat' (first
    | assumption | (intro x; have hx : Dev.Sound x; unfold x; rotate_left; clear_value x)
    | (intro x; have hx : Larder := x; clear hx; unfold x; clear x) | lift_lets -underBinder | apply sound_ite
    | apply osound1_none | apply osound1_some | apply osound1_ite | apply Dev.layCarve_sound
    | (simp only [sound_mk]; apply sound_of))
theorem Dev.bundleLarder_at {d : Dev} {x : BundleRun} {tlm tag : Nat} {d1 : Dev} (hEq : Dev.bundleLarder d x tlm tag = some d1) (h_d : d.Sound) : d1.Sound := by
  have h := Dev.bundleLarder_sound (d := d) (x := x) (tlm := tlm) (tag := tag) h_d
  rw [hEq] at h
  exact h

theorem Dev.bundleOpen_sound {d : Dev} {x : BundleRun} {h : Nat} (h_d : d.Sound) : (Dev.bundleOpen d x h).2.Sound := by
  unfold Dev.bundleOpen
  with_reducible repeat' (first
    | assumption | lift_lets -underBinder | apply sound_ite2 | apply Dev.bundleUnlock_sound | split)
theorem Dev.bundleRecord_sound {d : Dev} {x0 : BundleRun} (h_d : d.Sound) : (Dev.bundleRecord d x0).2.Sound := by
  unfold Dev.bundleRecord
  (try lift_lets -underBinder)
  with_reducible repeat' (first
    | assumption | (intro x; have hx : Dev.Sound x; unfold x; rotate_left; clear_value x)
    | (intro x; have hx : Dev.Sound (Prod.snd x); unfold x; rotate_left; clear_value x) | (intro x; clear_value x)
    | (intro _) | lift_lets -underBinder | apply sound_ite2 | apply Dev.bundleOpen_sound | apply Dev.pageWrite_sound
    | apply Dev.bundleNext_sound | apply Dev.pgctl_sound | apply Dev.slotOnCmd_sound | apply Dev.slotOffCmd_sound
    | apply Dev.slotClearFet_sound | (refine Dev.bundleTable_at ‹_ = _› ?_) | (refine Dev.bundleLarder_at ‹_ = _› ?_)
    | (simp only [sound_mk]; apply sound_of) | split)
theorem Dev.bundleRecord_at {d : Dev} {x0 : BundleRun} {r0 : Bool} {d1 : Dev} (hEq : Dev.bundleRecord d x0 = (r0, d1)) (h_d : d.Sound) : d1.Sound := by
  have h := Dev.bundleRecord_sound (d := d) (x0 := x0) h_d 
  rw [hEq] at h
  exact h

theorem Dev.bundleGo_sound {n : Nat} {d : Dev} (h_d : d.Sound) : (Dev.bundleGo n d).Sound := by
  induction n generalizing d with
  | zero => exact h_d
  | succ n ih =>
    unfold Dev.bundleGo
    split
    · exact h_d
    · split
      · split
        · exact h_d
        · split
          · exact h_d
          · split
            · exact Dev.bundleEnd_sound h_d
            · exact ih (Dev.bundleNext_sound h_d)
      · split
        · exact Dev.bundleEnd_sound h_d
        · split
          · exact h_d
          · split
            · exact ih (Dev.bundleRecord_at ‹_› h_d)
            · exact Dev.bundleEnd_sound (Dev.bundleRecord_at ‹_› h_d)

theorem Dev.bundlePoll_sound {d : Dev} (h_d : d.Sound) : (Dev.bundlePoll d).Sound := by
  unfold Dev.bundlePoll
  with_reducible repeat' (first
    | assumption | apply Dev.bundleGo_sound | split)

theorem Dev.bundleStart_sound {d : Dev} {b : Bytes} {boot : Bool} (h_d : d.Sound) : (Dev.bundleStart d b boot).Sound := by
  unfold Dev.bundleStart
  with_reducible repeat' (first
    | assumption | (intro x; have hx : Dev.Sound x; unfold x; rotate_left; clear_value x) | (intro x; clear_value x)
    | lift_lets -underBinder | apply sound_ite | apply Dev.raise_sound | apply Dev.secCode_sound | apply Dev.secDone_sound
    | apply Dev.put_sound | apply Dev.bundlePoll_sound | (simp only [sound_mk]; apply sound_of) | split)

theorem Dev.setKx_sound {d : Dev} {k : Nat} {x : KeyX} (h_d : d.Sound) : (Dev.setKx d k x).Sound := by
  unfold Dev.setKx
  (try lift_lets -underBinder)
  with_reducible repeat' (first
    | assumption | (intro x; clear_value x) | (simp only [sound_mk]; apply sound_of))

theorem Dev.relaySend_sound {d : Dev} {k : Nat} (h_d : d.Sound) : (Dev.relaySend d k).Sound := by
  unfold Dev.relaySend
  with_reducible repeat' (first
    | assumption | (intro x; clear_value x) | lift_lets -underBinder | apply Dev.fresh_sound | apply Dev.freshBytes_sound
    | apply Dev.relayNext_sound | (simp only [sound_mk]; apply sound_of))

theorem Dev.kxStart_sound {d : Dev} {k : Nat} (h_d : d.Sound) : (Dev.kxStart d k).Sound := by
  unfold Dev.kxStart
  with_reducible repeat' (first
    | assumption | lift_lets -underBinder | apply sound_ite | apply Dev.setKx_sound | apply Dev.relaySend_sound)

theorem Dev.keysIn_sound {d : Dev} {k slot : Nat} (h_d : d.Sound) : (Dev.keysIn d k slot).Sound := by
  unfold Dev.keysIn
  with_reducible repeat' (first
    | assumption | lift_lets -underBinder | apply Dev.fresh_sound | apply Dev.modLink_sound | apply Dev.put_sound)

theorem Dev.kxDone_sound {d : Dev} {k : Nat} (h_d : d.Sound) : (Dev.kxDone d k).Sound := by
  unfold Dev.kxDone
  (try lift_lets -underBinder)
  with_reducible repeat' (first
    | assumption | (intro x; have hx : Dev.Sound x; unfold x; rotate_left; clear_value x) | lift_lets -underBinder
    | apply Dev.setKx_sound | apply Dev.keysIn_sound | apply Dev.put_sound | apply Dev.modLink_sound
    | apply Dev.linkOpen_sound | apply Dev.txIdleSegment_sound | apply Dev.keyTry_sound)

theorem Dev.rekey_sound {d : Dev} {k : Nat} (h_d : d.Sound) : (Dev.rekey d k).Sound := by
  unfold Dev.rekey
  (try lift_lets -underBinder)
  with_reducible repeat' (first
    | assumption | (intro x; clear_value x) | lift_lets -underBinder | apply Dev.relaySend_sound | apply Dev.keysIn_sound
    | apply Dev.txKeySwitch_sound)

theorem Dev.relayTake_sound {d : Dev} {k : Nat} (h_d : d.Sound) : (Dev.relayTake d k).Sound := by
  unfold Dev.relayTake
  (try lift_lets -underBinder)
  with_reducible repeat' (first
    | assumption | (intro x; have hx : Dev.Sound (Prod.snd x); unfold x; rotate_left; clear_value x)
    | lift_lets -underBinder | apply Dev.setKx_sound | apply Dev.fresh_sound | apply Dev.relaySend_sound
    | apply Dev.kxDone_sound | apply Dev.raise_sound | split)

theorem Dev.relayIn_sound {d : Dev} {k : Nat} (h_d : d.Sound) : (Dev.relayIn d k).Sound := by
  unfold Dev.relayIn
  with_reducible repeat' (first
    | assumption | lift_lets -underBinder | apply sound_ite | apply Dev.secDone_sound | apply Dev.relayTake_sound)

theorem Dev.challengeNow_sound {d : Dev} (h_d : d.Sound) : (Dev.challengeNow d).Sound := by
  unfold Dev.challengeNow
  (try lift_lets -underBinder)
  with_reducible repeat' (first
    | assumption | (intro x; have hx : Dev.Sound x; unfold x; rotate_left; clear_value x)
    | (intro x; have hx : Dev.Sound (Prod.snd x); unfold x; rotate_left; clear_value x) | (intro x; clear_value x)
    | (intro _) | lift_lets -underBinder | apply sound_foldl | apply Dev.freshBytes_sound | apply Dev.setWord_sound
    | apply Dev.secDone_sound | (simp only [sound_mk]; apply sound_of))

theorem Dev.dbgChallenge_sound {d : Dev} (h_d : d.Sound) : (Dev.dbgChallenge d).Sound := by
  unfold Dev.dbgChallenge
  with_reducible repeat' (first
    | assumption | lift_lets -underBinder | apply sound_ite | apply Dev.secDone_sound | apply Dev.challengeNow_sound)

theorem Dev.dbgOpen_sound {d : Dev} (h_d : d.Sound) : (Dev.dbgOpen d).Sound := by
  unfold Dev.dbgOpen
  (try lift_lets -underBinder)
  with_reducible repeat' (first
    | assumption | (intro x; have hx : Dev.Sound x; unfold x; rotate_left; clear_value x) | (intro x; clear_value x)
    | (intro _) | lift_lets -underBinder | apply sound_foldl | apply Dev.ideFail_sound | apply Dev.modPort_sound
    | apply Dev.linkDownEv_sound | apply Dev.put_sound | apply Dev.modLink_sound | apply Dev.raise_sound
    | (simp only [sound_mk]; apply sound_of))

theorem Dev.dbgUnlock_sound {d : Dev} (h_d : d.Sound) : (Dev.dbgUnlock d).Sound := by
  unfold Dev.dbgUnlock
  with_reducible repeat' (first
    | assumption | (intro x; have hx : Dev.Sound x; unfold x; rotate_left; clear_value x) | (intro x; clear_value x)
    | lift_lets -underBinder | apply sound_ite | apply Dev.secDone_sound | apply Dev.dbgOpen_sound
    | (simp only [sound_mk]; apply sound_of) | split)

theorem Dev.advanceArc_sound {d : Dev} {burned : Bool} (h_d : d.Sound) : (Dev.advanceArc d burned).Sound := by
  unfold Dev.advanceArc
  with_reducible repeat' (first
    | assumption | (intro x; have hx : Dev.Sound x; unfold x; rotate_left; clear_value x) | (intro x; clear_value x)
    | lift_lets -underBinder | apply sound_ite | apply Dev.secDone_sound | apply Dev.put_sound
    | (simp only [sound_mk]; apply sound_of) | split)

theorem Dev.bundleApply_sound {d : Dev} (h_d : d.Sound) : (Dev.bundleApply d).Sound := by
  unfold Dev.bundleApply
  (try lift_lets -underBinder)
  with_reducible repeat' (first
    | assumption | (intro x; have hx : Dev.Sound x; unfold x; rotate_left; clear_value x) | apply Dev.winTake_sound
    | apply Dev.bundleStart_sound)

theorem Dev.rcvWrite_sound {d : Dev} {bank : Nat} (h_d : d.Sound) : (Dev.rcvWrite d bank).Sound := by
  unfold Dev.rcvWrite
  with_reducible repeat' (first
    | assumption | lift_lets -underBinder | apply sound_ite | apply Dev.secDone_sound | apply Dev.emit_sound)

theorem Dev.rcvBoot_sound {d : Dev} {bank : Nat} {img : Option FlashImage} (h_d : d.Sound) : (Dev.rcvBoot d bank img).Sound := by
  unfold Dev.rcvBoot
  with_reducible repeat' (first
    | assumption | lift_lets -underBinder | apply sound_ite | apply Dev.secDone_sound | apply Dev.boot_sound | split)

theorem Dev.anchorSet_sound {d : Dev} {i : Nat} (h_d : d.Sound) : (Dev.anchorSet d i).Sound := by
  unfold Dev.anchorSet
  (try lift_lets -underBinder)
  with_reducible repeat' (first
    | assumption | (intro x; clear_value x) | lift_lets -underBinder | apply sound_ite | apply Dev.secDone_sound
    | (simp only [sound_mk]; apply sound_of))

theorem Dev.drlRekey_sound {d : Dev} {k : Nat} (h_d : d.Sound) : (Dev.drlRekey d k).Sound := by
  unfold Dev.drlRekey
  with_reducible repeat' (first
    | assumption | lift_lets -underBinder | apply sound_ite | apply Dev.secDone_sound | apply Dev.rekey_sound)

theorem Dev.secTake_sound {d : Dev} {f : Dev → Dev} (h_d : d.Sound) (h_f : ∀ (v0 : Dev), Dev.Sound v0 → Dev.Sound (f v0)) : (Dev.secTake d f).Sound := by
  unfold Dev.secTake
  with_reducible repeat' (first
    | assumption | lift_lets -underBinder | apply sound_ite | apply h_f)

theorem Dev.rcvBootFree_sound {d : Dev} {bank : Nat} (h_d : d.Sound) : (Dev.rcvBootFree d bank).Sound := by
  unfold Dev.rcvBootFree
  (try lift_lets -underBinder)
  with_reducible repeat' (first
    | assumption | (intro x; have hx : Dev.Sound (Prod.snd x); unfold x; rotate_left; clear_value x) | apply Dev.fresh_sound
    | apply Dev.rcvBoot_sound)

theorem Dev.advanceArcFree_sound {d : Dev} (h_d : d.Sound) : (Dev.advanceArcFree d).Sound := by
  unfold Dev.advanceArcFree
  (try lift_lets -underBinder)
  with_reducible repeat' (first
    | assumption | (intro x; have hx : Dev.Sound (Prod.snd x); unfold x; rotate_left; clear_value x) | apply Dev.fresh_sound
    | apply Dev.advanceArc_sound)

theorem Dev.secCmd_sound {d : Dev} {v : W64} (h_d : d.Sound) : (Dev.secCmd d v).Sound := by
  unfold Dev.secCmd
  (try lift_lets -underBinder)
  with_reducible repeat' (first
    | assumption | (intro x; clear_value x) | (intro _) | lift_lets -underBinder | apply sound_ite | apply Dev.secTake_sound
    | apply Dev.advanceArcFree_sound | apply Dev.dbgChallenge_sound | apply Dev.dbgUnlock_sound
    | apply Dev.bundleApply_sound | apply Dev.rcvWrite_sound | apply Dev.rcvBootFree_sound | apply Dev.relayIn_sound
    | apply Dev.secDone_sound | apply Dev.anchorSet_sound | apply Dev.drlRekey_sound | split)

theorem Dev.registerWriteRow_sound {d : Dev} {path addr nbytes val : Nat} (h_d : d.Sound) : (Dev.registerWriteRow d path addr nbytes val).Sound := by
  unfold Dev.registerWriteRow
  with_reducible repeat' (first
    | assumption | (intro x; clear_value x) | lift_lets -underBinder | apply sound_ite | apply Dev.badAccess_sound
    | apply Dev.secCmd_sound | apply Dev.pageWrite_sound | split)

theorem Dev.refusedReadRow_sound {d : Dev} {path addr nbytes : Nat} (h_d : d.Sound) : (Dev.refusedReadRow d path addr nbytes).Sound := by
  unfold Dev.refusedReadRow
  with_reducible repeat' (first
    | assumption | (intro x; clear_value x) | lift_lets -underBinder | apply sound_ite | apply Dev.badAccess_sound
    | apply Dev.emit_sound | apply Dev.ringPop_sound | split)

theorem Dev.mgmtPfResetRow_sound {d : Dev} {cause : Nat} (h_d : d.Sound) : (Dev.mgmtPfResetRow d cause).Sound := by
  unfold Dev.mgmtPfResetRow
  with_reducible repeat' (first
    | assumption | lift_lets -underBinder | apply sound_ite | apply Dev.pfReset_sound)

theorem Dev.msixDeliver_sound {d : Dev} (h_d : d.Sound) : (Dev.msixDeliver d).Sound := by
  unfold Dev.msixDeliver
  (try lift_lets -underBinder)
  with_reducible repeat' (first
    | assumption | (intro x; have hx : Dev.Sound x; unfold x; rotate_left; clear_value x) | (intro x; clear_value x)
    | (intro _) | lift_lets -underBinder | apply sound_ite | apply sound_foldl | apply Dev.emit_sound
    | (simp only [sound_mk]; apply sound_of))

theorem Dev.pfConfigWrite_sound {d : Dev} {off val : Nat} (h_d : d.Sound) : (Dev.pfConfigWrite d off val).Sound := by
  unfold Dev.pfConfigWrite
  (try lift_lets -underBinder)
  with_reducible repeat' (first
    | assumption | (intro x; clear_value x) | lift_lets -underBinder | apply sound_ite | apply Dev.msixDeliver_sound
    | (simp only [sound_mk]; apply sound_of))

theorem Dev.msixUnmaskRow_sound {d : Dev} {wr : MsixWr} (h_d : d.Sound) : (Dev.msixUnmaskRow d wr).Sound := by
  unfold Dev.msixUnmaskRow
  with_reducible repeat' (first
    | assumption | (intro x; have hx : Dev.Sound x; unfold x; rotate_left; clear_value x) | (intro x; clear_value x)
    | lift_lets -underBinder | apply sound_ite | apply Dev.msixDeliver_sound | apply Dev.pfConfigWrite_sound
    | apply Dev.emit_sound | (simp only [sound_mk]; apply sound_of) | split)

theorem Dev.mctpPathResetRow_sound {d : Dev} {m : Nat} (h_d : d.Sound) : (Dev.mctpPathResetRow d m).Sound := by
  unfold Dev.mctpPathResetRow
  with_reducible repeat' (first
    | assumption | apply Dev.pathReset_sound)

theorem Dev.tapResetRow_sound {d : Dev} (h_d : d.Sound) : (Dev.tapResetRow d).Sound := by
  unfold Dev.tapResetRow
  with_reducible repeat' (first
    | assumption | apply Dev.pathReset_sound)

theorem Dev.enableSetRow_sound {d : Dev} {path pg : Nat} (h_d : d.Sound) : (Dev.enableSetRow d path pg).Sound := by
  unfold Dev.enableSetRow
  with_reducible repeat' (first
    | assumption | (intro _) | lift_lets -underBinder | apply Dev.accessPg_sound | apply Dev.pgctl_sound)

theorem Dev.enableClearRow_sound {d : Dev} {path pg : Nat} (h_d : d.Sound) : (Dev.enableClearRow d path pg).Sound := by
  unfold Dev.enableClearRow
  with_reducible repeat' (first
    | assumption | (intro _) | lift_lets -underBinder | apply Dev.accessPg_sound | apply Dev.pgctl_sound)

theorem Dev.brstRow_sound {d : Dev} {path pg : Nat} (h_d : d.Sound) : (Dev.brstRow d path pg).Sound := by
  unfold Dev.brstRow
  with_reducible repeat' (first
    | assumption | (intro _) | lift_lets -underBinder | apply Dev.accessPg_sound | apply Dev.pgctl_sound)

theorem Dev.commitRow_sound {d : Dev} {path pg : Nat} (h_d : d.Sound) : (Dev.commitRow d path pg).Sound := by
  unfold Dev.commitRow
  with_reducible repeat' (first
    | assumption | (intro _) | lift_lets -underBinder | apply Dev.accessPg_sound | apply Dev.pgctl_sound)

theorem Dev.forceRow_sound {d : Dev} {path pg : Nat} (h_d : d.Sound) : (Dev.forceRow d path pg).Sound := by
  unfold Dev.forceRow
  with_reducible repeat' (first
    | assumption | (intro _) | lift_lets -underBinder | apply Dev.accessPg_sound | apply Dev.pgctl_sound)

theorem Dev.discardRow_sound {d : Dev} {path pg : Nat} (h_d : d.Sound) : (Dev.discardRow d path pg).Sound := by
  unfold Dev.discardRow
  with_reducible repeat' (first
    | assumption | (intro _) | lift_lets -underBinder | apply Dev.accessPg_sound | apply Dev.pgctl_sound)

theorem Dev.blockResetDoneRow_sound {d : Dev} {pg : Nat} (h_d : d.Sound) : (Dev.blockResetDoneRow d pg).Sound := by
  unfold Dev.blockResetDoneRow
  with_reducible repeat' (first
    | assumption | (intro x; have hx : Dev.Sound x; unfold x; rotate_left; clear_value x) | (intro x; clear_value x)
    | lift_lets -underBinder | apply sound_ite | apply Dev.putBusy_sound | apply Dev.presentAll_sound
    | (simp only [sound_mk]; apply sound_of) | split)

theorem Dev.heldCommitRow_sound {d : Dev} {pg : Nat} (h_d : d.Sound) : (Dev.heldCommitRow d pg).Sound := by
  unfold Dev.heldCommitRow
  with_reducible repeat' (first
    | assumption | apply Dev.commitPoll_sound | split)

theorem Dev.epochAppliedRow_sound {d : Dev} {pg : Nat} (h_d : d.Sound) : (Dev.epochAppliedRow d pg).Sound := by
  unfold Dev.epochAppliedRow
  with_reducible repeat' (first
    | assumption | apply Dev.epochApply_sound | split)

theorem Dev.pglockLockedRow_sound {d : Dev} {path pg : Nat} (h_d : d.Sound) : (Dev.pglockLockedRow d path pg).Sound := by
  unfold Dev.pglockLockedRow
  with_reducible repeat' (first
    | assumption | (intro _) | lift_lets -underBinder | apply Dev.accessPg_sound | apply Dev.lockPage_sound)

theorem Dev.devCfgLockRow_sound {d : Dev} {path : Nat} (h_d : d.Sound) : (Dev.devCfgLockRow d path).Sound := by
  unfold Dev.devCfgLockRow
  with_reducible repeat' (first
    | assumption | (intro _) | lift_lets -underBinder | apply Dev.access_sound | apply Dev.cfgLock_sound)

theorem Dev.tblReadRow_sound {d : Dev} {path w : Nat} {inc : Bool} (h_d : d.Sound) : (Dev.tblReadRow d path w inc).Sound := by
  unfold Dev.tblReadRow
  with_reducible repeat' (first
    | assumption | (intro _) | lift_lets -underBinder | apply Dev.access_sound | apply Dev.tblCmd_sound)

theorem Dev.tblWriteRow_sound {d : Dev} {path w : Nat} {inc : Bool} (h_d : d.Sound) : (Dev.tblWriteRow d path w inc).Sound := by
  unfold Dev.tblWriteRow
  with_reducible repeat' (first
    | assumption | (intro _) | lift_lets -underBinder | apply Dev.access_sound | apply Dev.tblCmd_sound)

theorem Dev.tblClearRow_sound {d : Dev} {path w : Nat} {inc : Bool} (h_d : d.Sound) : (Dev.tblClearRow d path w inc).Sound := by
  unfold Dev.tblClearRow
  with_reducible repeat' (first
    | assumption | (intro _) | lift_lets -underBinder | apply Dev.access_sound | apply Dev.tblCmd_sound)

theorem Dev.tblBadOpRow_sound {d : Dev} {path w op : Nat} {inc : Bool} (h_d : d.Sound) : (Dev.tblBadOpRow d path w op inc).Sound := by
  unfold Dev.tblBadOpRow
  with_reducible repeat' (first
    | assumption | (intro _) | lift_lets -underBinder | apply sound_ite | apply Dev.access_sound | apply Dev.tblCmd_sound)

theorem Dev.tblOpDoneRow_sound {d : Dev} {w : Nat} {ue : Bool} (h_d : d.Sound) : (Dev.tblOpDoneRow d w ue).Sound := by
  unfold Dev.tblOpDoneRow
  with_reducible repeat' (first
    | assumption | apply Dev.tblDone_sound)

theorem Dev.acquireRow_sound {d : Dev} {path i tag lease : Nat} (h_d : d.Sound) : (Dev.acquireRow d path i tag lease).Sound := by
  unfold Dev.acquireRow
  with_reducible repeat' (first
    | assumption | (intro _) | lift_lets -underBinder | apply Dev.access_sound | apply Dev.lockAcquire_sound)

theorem Dev.renewRow_sound {d : Dev} {path i tag lease : Nat} (h_d : d.Sound) : (Dev.renewRow d path i tag lease).Sound := by
  unfold Dev.renewRow
  with_reducible repeat' (first
    | assumption | (intro _) | lift_lets -underBinder | apply Dev.access_sound | apply Dev.lockRenew_sound)

theorem Dev.releaseRow_sound {d : Dev} {path i tag : Nat} (h_d : d.Sound) : (Dev.releaseRow d path i tag).Sound := by
  unfold Dev.releaseRow
  with_reducible repeat' (first
    | assumption | (intro _) | lift_lets -underBinder | apply Dev.access_sound | apply Dev.lockRelease_sound)

theorem Dev.breakLockRow_sound {d : Dev} {path i : Nat} (h_d : d.Sound) : (Dev.breakLockRow d path i).Sound := by
  unfold Dev.breakLockRow
  with_reducible repeat' (first
    | assumption | (intro _) | lift_lets -underBinder | apply Dev.access_sound | apply Dev.lockBreak_sound)

theorem Dev.clrBrokenRow_sound {d : Dev} {path i tag : Nat} (h_d : d.Sound) : (Dev.clrBrokenRow d path i tag).Sound := by
  unfold Dev.clrBrokenRow
  with_reducible repeat' (first
    | assumption | (intro _) | lift_lets -underBinder | apply Dev.access_sound | apply Dev.lockClr_sound)

theorem Dev.leaseExpiryRow_sound {d : Dev} {i : Nat} (h_d : d.Sound) : (Dev.leaseExpiryRow d i).Sound := by
  unfold Dev.leaseExpiryRow
  with_reducible repeat' (first
    | assumption | apply Dev.lockBreak_sound)

theorem Dev.mboxGoRow_sound {d : Dev} {path : Nat} (h_d : d.Sound) : (Dev.mboxGoRow d path).Sound := by
  unfold Dev.mboxGoRow
  with_reducible repeat' (first
    | assumption | (intro _) | lift_lets -underBinder | apply Dev.access_sound | apply Dev.mboxGo_sound)

theorem Dev.mboxDoneRow_sound {d : Dev} {status : Nat} {resp : Bytes} (h_d : d.Sound) : (Dev.mboxDoneRow d status resp).Sound := by
  unfold Dev.mboxDoneRow
  (try lift_lets -underBinder)
  with_reducible repeat' (first
    | assumption | (intro x; have hx : Dev.Sound x; unfold x; rotate_left; clear_value x) | (intro x; clear_value x)
    | (intro _) | lift_lets -underBinder | apply sound_ite | apply sound_foldl | apply Dev.setWord_sound
    | apply Dev.put_sound)

theorem Dev.fltStatusClearRow_sound {d : Dev} {path pg mask : Nat} (h_d : d.Sound) : (Dev.fltStatusClearRow d path pg mask).Sound := by
  unfold Dev.fltStatusClearRow
  with_reducible repeat' (first
    | assumption | (intro _) | lift_lets -underBinder | apply Dev.accessPg_sound | apply Dev.fltClear_sound)

theorem Dev.fltInjectRow_sound {d : Dev} {path pg val : Nat} (h_d : d.Sound) : (Dev.fltInjectRow d path pg val).Sound := by
  unfold Dev.fltInjectRow
  with_reducible repeat' (first
    | assumption | (intro _) | lift_lets -underBinder | apply Dev.accessPg_sound | apply Dev.fltInjectSet_sound)

theorem Dev.fltCountClrRow_sound {d : Dev} {path pg : Nat} (h_d : d.Sound) : (Dev.fltCountClrRow d path pg).Sound := by
  unfold Dev.fltCountClrRow
  with_reducible repeat' (first
    | assumption | (intro _) | lift_lets -underBinder | apply Dev.accessPg_sound | apply Dev.fltCountClr_sound)

theorem Dev.secAccess_sound {d : Dev} {path : Nat} {f : Dev → Dev} (h_d : d.Sound) (h_f : ∀ (v0 : Dev), Dev.Sound v0 → Dev.Sound (f v0)) : (Dev.secAccess d path f).Sound := by
  unfold Dev.secAccess
  with_reducible repeat' (first
    | assumption | (intro _) | lift_lets -underBinder | apply Dev.access_sound | apply Dev.secTake_sound)

theorem Dev.fusesIn_sound {d : Dev} {x : Fuses} (h_d : d.Sound) : (Dev.fusesIn d x).Sound := by
  unfold Dev.fusesIn
  (try lift_lets -underBinder)
  with_reducible repeat' (first
    | assumption | (intro x; have hx : Dev.Sound x; unfold x; rotate_left; clear_value x) | (intro x; clear_value x)
    | (intro _) | lift_lets -underBinder | apply sound_foldl | apply Dev.put_sound | apply Dev.recal_sound
    | (simp only [sound_mk]; apply sound_of))

theorem Dev.fuseLoadRow_sound {d : Dev} {ok : Bool} {arc krev : Nat} {cust : Option Bytes} (h_d : d.Sound) : (Dev.fuseLoadRow d ok arc krev cust).Sound := by
  unfold Dev.fuseLoadRow
  with_reducible repeat' (first
    | assumption | lift_lets -underBinder | apply sound_ite | apply Dev.put_sound | apply Dev.raise_sound
    | apply Dev.fusesIn_sound)

theorem Dev.bankBad_sound {d : Dev} {c : Nat} (h_d : d.Sound) : (Dev.bankBad d c).Sound := by
  unfold Dev.bankBad
  with_reducible repeat' (first
    | assumption | lift_lets -underBinder | apply Dev.secCode_sound | apply Dev.raise_sound)

theorem Dev.bankFailed_sound {d : Dev} {n c : Nat} {other : Option FlashImage} (h_d : d.Sound) : (Dev.bankFailed d n c other).Sound := by
  unfold Dev.bankFailed
  (try lift_lets -underBinder)
  with_reducible repeat' (first
    | assumption | (intro x; have hx : Dev.Sound x; unfold x; rotate_left; clear_value x) | lift_lets -underBinder
    | apply Dev.put_sound | apply Dev.bankBad_sound | apply Dev.boot_sound | apply Dev.raise_sound | split)

theorem Dev.bootVerifyRow_sound {d : Dev} {imgA imgB : Option FlashImage} (h_d : d.Sound) : (Dev.bootVerifyRow d imgA imgB).Sound := by
  unfold Dev.bootVerifyRow
  (try lift_lets -underBinder)
  with_reducible repeat' (first
    | assumption | (intro x; clear_value x) | lift_lets -underBinder | apply sound_ite | apply Dev.boot_sound
    | apply Dev.bankFailed_sound | split)

theorem Dev.bootBundleRow_sound {d : Dev} {bundle : Bytes} (h_d : d.Sound) : (Dev.bootBundleRow d bundle).Sound := by
  unfold Dev.bootBundleRow
  (try lift_lets -underBinder)
  with_reducible repeat' (first
    | assumption | (intro x; clear_value x) | lift_lets -underBinder | apply sound_ite | apply Dev.bundleStart_sound
    | (simp only [sound_mk]; apply sound_of))

theorem Dev.managementComplexCrashRow_sound {d : Dev} (h_d : d.Sound) : (Dev.managementComplexCrashRow d).Sound := by
  unfold Dev.managementComplexCrashRow
  (try lift_lets -underBinder)
  with_reducible repeat' (first
    | assumption | (intro x; have hx : Dev.Sound x; unfold x; rotate_left; clear_value x) | (intro x; clear_value x)
    | lift_lets -underBinder | apply sound_ite | apply Dev.put_sound | (simp only [sound_mk]; apply sound_of))

theorem Dev.fwRestartRow_sound {d : Dev} {img : Option FlashImage} (h_d : d.Sound) : (Dev.fwRestartRow d img).Sound := by
  unfold Dev.fwRestartRow
  (try lift_lets -underBinder)
  with_reducible repeat' (first
    | assumption | (intro x; have hx : Dev.Sound x; unfold x; rotate_left; clear_value x) | (intro x; clear_value x)
    | lift_lets -underBinder | apply sound_ite | apply Dev.raise_sound | apply Dev.pathReset_sound | apply Dev.fwRun_sound
    | apply Dev.bankBad_sound | split)

theorem Dev.trngFailRow_sound {d : Dev} (h_d : d.Sound) : (Dev.trngFailRow d).Sound := by
  unfold Dev.trngFailRow
  with_reducible repeat' (first
    | assumption | lift_lets -underBinder | apply sound_ite | apply Dev.put_sound | apply Dev.raise_sound)

theorem Dev.advanceArcRow_sound {d : Dev} {path : Nat} {burned : Bool} (h_d : d.Sound) : (Dev.advanceArcRow d path burned).Sound := by
  unfold Dev.advanceArcRow
  with_reducible repeat' (first
    | assumption | (intro _) | lift_lets -underBinder | apply Dev.secAccess_sound | apply Dev.advanceArc_sound)

theorem Dev.dbgChallengeRow_sound {d : Dev} {path : Nat} (h_d : d.Sound) : (Dev.dbgChallengeRow d path).Sound := by
  unfold Dev.dbgChallengeRow
  with_reducible repeat' (first
    | assumption | (intro _) | lift_lets -underBinder | apply Dev.secAccess_sound | apply Dev.dbgChallenge_sound)

theorem Dev.dbgUnlockRow_sound {d : Dev} {path : Nat} (h_d : d.Sound) : (Dev.dbgUnlockRow d path).Sound := by
  unfold Dev.dbgUnlockRow
  with_reducible repeat' (first
    | assumption | (intro _) | lift_lets -underBinder | apply Dev.secAccess_sound | apply Dev.dbgUnlock_sound)

theorem Dev.bundleApplyRow_sound {d : Dev} {path : Nat} (h_d : d.Sound) : (Dev.bundleApplyRow d path).Sound := by
  unfold Dev.bundleApplyRow
  with_reducible repeat' (first
    | assumption | (intro _) | lift_lets -underBinder | apply Dev.secAccess_sound | apply Dev.bundleApply_sound)

theorem Dev.rcvWriteRow_sound {d : Dev} {path bank : Nat} (h_d : d.Sound) : (Dev.rcvWriteRow d path bank).Sound := by
  unfold Dev.rcvWriteRow
  with_reducible repeat' (first
    | assumption | (intro _) | lift_lets -underBinder | apply Dev.secAccess_sound | apply Dev.rcvWrite_sound)

theorem Dev.rcvBootRow_sound {d : Dev} {path bank : Nat} {img : Option FlashImage} (h_d : d.Sound) : (Dev.rcvBootRow d path bank img).Sound := by
  unfold Dev.rcvBootRow
  with_reducible repeat' (first
    | assumption | (intro _) | lift_lets -underBinder | apply Dev.secAccess_sound | apply Dev.rcvBoot_sound)

theorem Dev.relayInRow_sound {d : Dev} {path k : Nat} (h_d : d.Sound) : (Dev.relayInRow d path k).Sound := by
  unfold Dev.relayInRow
  with_reducible repeat' (first
    | assumption | (intro _) | lift_lets -underBinder | apply Dev.secAccess_sound | apply Dev.relayIn_sound)

theorem Dev.anchorSetRow_sound {d : Dev} {path i : Nat} (h_d : d.Sound) : (Dev.anchorSetRow d path i).Sound := by
  unfold Dev.anchorSetRow
  with_reducible repeat' (first
    | assumption | (intro _) | lift_lets -underBinder | apply Dev.secAccess_sound | apply Dev.anchorSet_sound)

theorem Dev.drlRekeyRow_sound {d : Dev} {path k : Nat} (h_d : d.Sound) : (Dev.drlRekeyRow d path k).Sound := by
  unfold Dev.drlRekeyRow
  with_reducible repeat' (first
    | assumption | (intro _) | lift_lets -underBinder | apply Dev.secAccess_sound | apply Dev.drlRekey_sound)

theorem Dev.relayOutReleaseRow_sound {d : Dev} {path : Nat} (h_d : d.Sound) : (Dev.relayOutReleaseRow d path).Sound := by
  unfold Dev.relayOutReleaseRow
  with_reducible repeat' (first
    | assumption | (intro _) | lift_lets -underBinder | apply Dev.access_sound | apply Dev.put_sound
    | apply Dev.relayNext_sound)

theorem Dev.spdmRequestRow_sound {d : Dev} {src : Nat} {req : Spdm} (h_d : d.Sound) : (Dev.spdmRequestRow d src req).Sound := by
  unfold Dev.spdmRequestRow
  (try lift_lets -underBinder)
  with_reducible repeat' (first
    | assumption | (intro x; clear_value x) | lift_lets -underBinder | apply sound_ite | apply Dev.spdmServe_sound
    | (simp only [sound_mk]; apply sound_of))

theorem Dev.ideKeys_sound {d : Dev} {p : Nat} (h_d : d.Sound) : (Dev.ideKeys d p).Sound := by
  unfold Dev.ideKeys
  (try lift_lets -underBinder)
  with_reducible repeat' (first
    | assumption | (intro x; have hx : Dev.Sound x; unfold x; rotate_left; clear_value x) | lift_lets -underBinder
    | apply sound_ite | apply Dev.linkOpen_sound | apply Dev.modPort_sound | apply Dev.put_sound)

theorem Dev.ideKmRow_sound {d : Dev} {p : Nat} {good : Bool} {root : Bytes} (h_d : d.Sound) : (Dev.ideKmRow d p good root).Sound := by
  unfold Dev.ideKmRow
  (try lift_lets -underBinder)
  with_reducible repeat' (first
    | assumption | (intro x; clear_value x) | lift_lets -underBinder | apply sound_ite | apply Dev.emit_sound
    | apply Dev.raise_sound | apply Dev.ideKeys_sound)

theorem Dev.dunrunKeyExchangeRow_sound {d : Dev} {k : Nat} (h_d : d.Sound) : (Dev.dunrunKeyExchangeRow d k).Sound := by
  unfold Dev.dunrunKeyExchangeRow
  with_reducible repeat' (first
    | assumption | lift_lets -underBinder | apply sound_ite | apply Dev.kxStart_sound)

theorem Dev.keyExchangeTimeoutRow_sound {d : Dev} {k : Nat} (h_d : d.Sound) : (Dev.keyExchangeTimeoutRow d k).Sound := by
  unfold Dev.keyExchangeTimeoutRow
  with_reducible repeat' (first
    | assumption | lift_lets -underBinder | apply sound_ite | apply Dev.setKx_sound | apply Dev.raise_sound)

theorem Dev.keyExchangeRestartRow_sound {d : Dev} {k : Nat} (h_d : d.Sound) : (Dev.keyExchangeRestartRow d k).Sound := by
  unfold Dev.keyExchangeRestartRow
  with_reducible repeat' (first
    | assumption | lift_lets -underBinder | apply sound_ite | apply Dev.setKx_sound | apply Dev.kxStart_sound)

theorem Dev.keyUsageLimitRow_sound {d : Dev} {k : Nat} (h_d : d.Sound) : (Dev.keyUsageLimitRow d k).Sound := by
  unfold Dev.keyUsageLimitRow
  with_reducible repeat' (first
    | assumption | lift_lets -underBinder | apply sound_ite | apply Dev.rekey_sound)

theorem Dev.meas7ComputeRow_sound {d : Dev} (h_d : d.Sound) : (Dev.meas7ComputeRow d).Sound := by
  unfold Dev.meas7ComputeRow
  with_reducible repeat' (first
    | assumption | apply Dev.meas7_sound)

theorem Dev.fwStallRow_sound {d : Dev} (h_d : d.Sound) : (Dev.fwStallRow d).Sound := by
  unfold Dev.fwStallRow
  with_reducible repeat' (first
    | assumption | lift_lets -underBinder | apply Dev.raise_sound | apply Dev.persist_sound)

theorem Dev.epochWaitRow_sound {d : Dev} (h_d : d.Sound) : (Dev.epochWaitRow d).Sound := by
  unfold Dev.epochWaitRow
  with_reducible repeat' (first
    | assumption | lift_lets -underBinder | apply sound_ite | apply Dev.raise_sound)

theorem Dev.tmbSetRow_sound {d : Dev} {path v : Nat} (h_d : d.Sound) : (Dev.tmbSetRow d path v).Sound := by
  unfold Dev.tmbSetRow
  with_reducible repeat' (first
    | assumption | (intro _) | lift_lets -underBinder | apply Dev.access_sound | apply Dev.timeSet_sound)

theorem Dev.ptmTimerRow_sound {d : Dev} (h_d : d.Sound) : (Dev.ptmTimerRow d).Sound := by
  unfold Dev.ptmTimerRow
  (try lift_lets -underBinder)
  with_reducible repeat' (first
    | assumption | (intro x; have hx : Dev.Sound x; unfold x; rotate_left; clear_value x)
    | (intro x; have hx : Obs := x; clear hx; unfold x; clear x) | (intro x; clear_value x) | lift_lets -underBinder
    | apply sound_ite | apply Dev.raise_sound | apply Dev.holdover_sound | apply Dev.emit_sound
    | (simp only [sound_mk]; apply sound_of))

theorem Dev.ptmRequestRow_sound {d : Dev} {p : Nat} (h_d : d.Sound) : (Dev.ptmRequestRow d p).Sound := by
  unfold Dev.ptmRequestRow
  with_reducible repeat' (first
    | assumption | lift_lets -underBinder | apply sound_ite | apply Dev.emit_sound)

theorem Dev.ptmResponseRow_sound {d : Dev} {t2 t3 t4 : Nat} (h_d : d.Sound) : (Dev.ptmResponseRow d t2 t3 t4).Sound := by
  unfold Dev.ptmResponseRow
  with_reducible repeat' (first
    | assumption | (intro x; have hx : Dev.Sound x; unfold x; rotate_left; clear_value x)
    | (intro x; have hx : Obs := x; clear hx; unfold x; clear x) | (intro x; clear_value x) | lift_lets -underBinder
    | apply sound_ite | apply Dev.servo_sound | (simp only [sound_mk]; apply sound_of) | split)

theorem Dev.fireRow_sound {d : Dev} {path : Nat} (h_d : d.Sound) : (Dev.fireRow d path).Sound := by
  unfold Dev.fireRow
  with_reducible repeat' (first
    | assumption | (intro _) | lift_lets -underBinder | apply Dev.access_sound | apply Dev.crumb_sound)

theorem Dev.clrallRow_sound {d : Dev} {path : Nat} (h_d : d.Sound) : (Dev.clrallRow d path).Sound := by
  unfold Dev.clrallRow
  with_reducible repeat' (first
    | assumption | (intro _) | lift_lets -underBinder | apply Dev.access_sound | apply Dev.clrAll_sound)

theorem Dev.crumbTimeMatchRow_sound {d : Dev} (h_d : d.Sound) : (Dev.crumbTimeMatchRow d).Sound := by
  unfold Dev.crumbTimeMatchRow
  with_reducible repeat' (first
    | assumption | lift_lets -underBinder | apply sound_ite | apply Dev.put_sound | apply Dev.addEdge_sound
    | apply Dev.raise_sound)

theorem Dev.latchPage_sound {d : Dev} {g : Pg} (h_d : d.Sound) : (Dev.latchPage d g).2.Sound := by
  unfold Dev.latchPage
  (try lift_lets -underBinder)
  with_reducible repeat' (first
    | assumption | (intro x; have hx : Dev.Sound x; unfold x; rotate_left; clear_value x) | (intro x; clear_value x)
    | lift_lets -underBinder | apply sound_ite2 | apply Dev.put_sound | (simp only [sound_mk]; apply sound_of))
theorem Dev.snapPulse_sound {d : Dev} {e : Edge} (h_d : d.Sound) : (Dev.snapPulse d e).Sound := by
  unfold Dev.snapPulse
  (try lift_lets -underBinder)
  with_reducible repeat' (first
    | assumption | (intro x; have hx : Dev.Sound x; unfold x; rotate_left; clear_value x)
    | (intro x; have hx : Obs := x; clear hx; unfold x; clear x)
    | (intro x; have hx : Crumb := x; clear hx; unfold x; clear x) | (intro x; clear_value x) | lift_lets -underBinder
    | apply sound_ite | apply Dev.emit_sound | (simp only [sound_mk]; apply sound_of))

theorem Dev.latchLog_sound {d : Dev} {e : Edge} {kept : Nat} (h_d : d.Sound) : (Dev.latchLog d e kept).Sound := by
  unfold Dev.latchLog
  (try lift_lets -underBinder)
  with_reducible repeat' (first
    | assumption | (intro x; have hx : Dev.Sound x; unfold x; rotate_left; clear_value x) | (intro x; clear_value x)
    | lift_lets -underBinder | apply Dev.put_sound)

theorem Dev.crumbTake_sound {d : Dev} {e : Edge} (h_d : d.Sound) : (Dev.crumbTake d e).Sound := by
  unfold Dev.crumbTake
  (try lift_lets -underBinder)
  with_reducible repeat' (first
    | assumption | (intro x; have hx : Dev.Sound x; unfold x; rotate_left; clear_value x)
    | (intro x; have hx : Dev.Sound (Prod.snd x); unfold x; rotate_left; clear_value x) | (intro x; clear_value x)
    | (intro _) | lift_lets -underBinder | apply sound_ite | apply sound_foldl | apply sound_foldlp
    | apply Dev.latchPage_sound | apply Dev.count_sound | apply Dev.latchLog_sound | apply Dev.snapPulse_sound
    | apply Dev.irq_sound | apply Dev.raise_sound)

theorem Dev.crumbLatchRow_sound {d : Dev} (h_d : d.Sound) : (Dev.crumbLatchRow d).Sound := by
  unfold Dev.crumbLatchRow
  split
  · exact h_d
  · rename_i e rest h
    refine Dev.crumbTake_sound (sound_edges h_d ?_)
    have := h_d.2.1
    rw [h] at this
    exact Nat.le_of_succ_le this

theorem Dev.cntSelWriteRow_sound {d : Dev} {path pg j val : Nat} (h_d : d.Sound) : (Dev.cntSelWriteRow d path pg j val).Sound := by
  unfold Dev.cntSelWriteRow
  with_reducible repeat' (first
    | assumption | (intro x; clear_value x) | (intro _) | lift_lets -underBinder | apply Dev.accessPg_sound
    | apply Dev.cntSelSet_sound)

theorem Dev.cntClrRow_sound {d : Dev} {path pg i : Nat} (h_d : d.Sound) : (Dev.cntClrRow d path pg i).Sound := by
  unfold Dev.cntClrRow
  with_reducible repeat' (first
    | assumption | (intro _) | lift_lets -underBinder | apply Dev.accessPg_sound | apply Dev.cntZero_sound)

theorem Dev.cclSweepRow_sound {d : Dev} (h_d : d.Sound) : (Dev.cclSweepRow d).Sound := by
  unfold Dev.cclSweepRow
  (try lift_lets -underBinder)
  with_reducible repeat' (first
    | assumption | (intro x; have hx : Obs := x; clear hx; unfold x; clear x) | (intro x; clear_value x)
    | lift_lets -underBinder | apply sound_ite | apply Dev.inc_sound | apply Dev.raise_sound
    | (simp only [sound_mk]; apply sound_of))

theorem Dev.sweepEnd_sound {d : Dev} {x : Sweep} (h_d : d.Sound) : (Dev.sweepEnd d x).Sound := by
  unfold Dev.sweepEnd
  (try lift_lets -underBinder)
  with_reducible repeat' (first
    | assumption | (intro x; have hx : Dev.Sound x; unfold x; rotate_left; clear_value x)
    | (intro x; have hx : Obs := x; clear hx; unfold x; clear x) | (intro x; clear_value x) | lift_lets -underBinder
    | apply Dev.collectWrite_sound | apply Dev.inc_sound | apply Dev.put_sound | apply Dev.irq_sound
    | (simp only [sound_mk]; apply sound_of))

theorem Dev.cclSweepDoneRow_sound {d : Dev} {ok : Bool} (h_d : d.Sound) : (Dev.cclSweepDoneRow d ok).Sound := by
  unfold Dev.cclSweepDoneRow
  with_reducible repeat' (first
    | assumption | (intro x; have hx : Obs := x; clear hx; unfold x; clear x) | lift_lets -underBinder | apply sound_ite
    | apply Dev.sweepEnd_sound | apply Dev.raise_sound | (simp only [sound_mk]; apply sound_of) | split)

theorem Dev.telemetryRecordRow_sound {d : Dev} {r src type_ : Nat} {payload : Bytes} {ok : Bool} (h_d : d.Sound) : (Dev.telemetryRecordRow d r src type_ payload ok).Sound := by
  unfold Dev.telemetryRecordRow
  with_reducible repeat' (first
    | assumption | lift_lets -underBinder | apply sound_ite | apply Dev.putRecord_sound)

theorem Dev.tlmPopRow_sound {d : Dev} {path : Nat} (h_d : d.Sound) : (Dev.tlmPopRow d path).Sound := by
  unfold Dev.tlmPopRow
  with_reducible repeat' (first
    | assumption | lift_lets -underBinder | apply sound_ite | apply Dev.badAccess_sound | apply Dev.emit_sound
    | apply Dev.ringPop_sound)

theorem Dev.tlmRheadRow_sound {d : Dev} {path v : Nat} (h_d : d.Sound) : (Dev.tlmRheadRow d path v).Sound := by
  unfold Dev.tlmRheadRow
  with_reducible repeat' (first
    | assumption | (intro _) | lift_lets -underBinder | apply Dev.access_sound | apply Dev.ringHead_sound)

theorem Dev.tlmRingEnableRow_sound {d : Dev} {path : Nat} (h_d : d.Sound) : (Dev.tlmRingEnableRow d path).Sound := by
  unfold Dev.tlmRingEnableRow
  with_reducible repeat' (first
    | assumption | (intro _) | lift_lets -underBinder | apply Dev.access_sound | apply Dev.ringCfg_sound)

theorem Dev.avsUpdateRow_sound {d : Dev} {target : Nat} {ack : Bool} (h_d : d.Sound) : (Dev.avsUpdateRow d target ack).Sound := by
  unfold Dev.avsUpdateRow
  dsimp only
  split
  · exact h_d
  · split
    · exact h_d
    · rename_i h
      simp only [Bool.or_eq_true, decide_eq_true_eq, not_or] at h
      have he := Dev.emit_sound (e := .avs target) h_d
      split
      · have hs : 720 ≤ target ∧ target ≤ 800 ∧ target % 5 = 0 := by omega
        exact ⟨he.1, he.2.1, hs⟩
      · exact he

theorem Dev.setTemps_sound {d : Dev} {temps : List Int} (h_d : d.Sound) : (Dev.setTemps d temps).Sound := by
  unfold Dev.setTemps
  (try lift_lets -underBinder)
  with_reducible repeat' (first
    | assumption | (intro x; have hx : Elec := x; clear hx; unfold x; clear x) | (intro x; clear_value x)
    | (simp only [sound_mk]; apply sound_of))

theorem Dev.thermalTrip_sound {d : Dev} (h_d : d.Sound) : (Dev.thermalTrip d).Sound := by
  unfold Dev.thermalTrip
  (try lift_lets -underBinder)
  with_reducible repeat' (first
    | assumption | (intro x; have hx : Dev.Sound x; unfold x; rotate_left; clear_value x)
    | (intro x; have hx : Dev.Sound (Prod.snd x); unfold x; rotate_left; clear_value x) | (intro x; clear_value x)
    | apply Dev.fresh_sound | apply Dev.clockHalt_sound | (simp only [sound_mk]; apply sound_of))

theorem Dev.junctionSensorReadRow_sound {d : Dev} {temps : List Int} (h_d : d.Sound) : (Dev.junctionSensorReadRow d temps).Sound := by
  unfold Dev.junctionSensorReadRow
  (try lift_lets -underBinder)
  with_reducible repeat' (first
    | assumption | (intro x; have hx : Dev.Sound x; unfold x; rotate_left; clear_value x) | lift_lets -underBinder
    | apply sound_ite | apply Dev.setTemps_sound | apply Dev.thermalTrip_sound)

theorem Dev.oscTick_sound {d : Dev} (h_d : d.Sound) : (Dev.oscTick d).Sound := by
  unfold Dev.oscTick
  (try lift_lets -underBinder)
  with_reducible repeat' (first
    | assumption | (intro x; have hx : Elec := x; clear hx; unfold x; clear x) | (simp only [sound_mk]; apply sound_of))

theorem Dev.cycle_sound {d : Dev} (h_d : d.Sound) : (Dev.cycle d).Sound := by
  unfold Dev.cycle
  (try lift_lets -underBinder)
  with_reducible repeat' (first
    | assumption | (intro x; have hx : Dev.Sound x; unfold x; rotate_left; clear_value x) | lift_lets -underBinder
    | apply sound_ite | apply Dev.oscTick_sound | apply Dev.bundlePoll_sound | apply Dev.rstPoll_sound
    | apply Dev.clockEdge_sound | apply Dev.instant_sound | apply Dev.cycleEnd_sound)

end Sys2Proof.Machine
end

