-- ==== Sys2Proof/Tests/Slice0.lean ====
section
/-! SUPPORT. The model's own tests: ill-formed commands are refused, effects on small states, and for every statement
with hypotheses a concrete state and operands that meet them. -/

namespace Sys2Proof.Machine

set_option Elab.async false

/-- A running device: firmware runs, the management PF is up, power is good. -/
def wUp : Dev :=
  (({ rst := { phase := .running }, ctl := { pfUp := true } } : Dev).put DEV_READY_FUSES_OK 0 1).put DEV_READY_FW_RUN 0 1

/-- Octet o in a mode and training state. -/
def wOct (d : Dev) (o mode st : Nat) : Dev := (d.put SDS_MODE_MODE o mode).put SDS_STAT_STATE_A o st

/-- Port 0 in a role (1 UPSTREAM, 2 DOWNSTREAM), its octet in a training state, its data link active. -/
def wPort (role st : Nat) : Dev := ((wOct wUp 0 0 st).put PRT_CFG_ROLE 0 role).put PRT_STAT_DL_ACTIVE 0 1

/-- Link 0 attached to octet 0 in Dunrun mode, training done, in a link state. -/
def wLink (st : Nat) : Dev := ((wOct wUp 0 2 13).put DRL_ATTACH_VALID 0 1).put DRL_STAT_STATE 0 st

/-- Link 0 active with received bytes at its front. -/
def wRx (b : Bytes) : Dev := (wLink 3).modLink 0 fun l => { l with stream := b }

/-- A 16-byte packet of a type and subtype. -/
def wPkt (type_ sub : Nat) : Bytes := BitVec.ofNat 8 (type_ + 16 * sub) :: List.replicate 15 0

/-- A message of a kind waiting at SIE[0]. -/
def wMsg (op : MOp) : Msg := { body := { op := op } }
def wHome (ch : Nat) (m : Msg) : Dev := wUp.setArrived 0 ch [m]

/-- Slice 0's pages enabled. -/
def wSlice : Dev := Blk.slicePages.foldl (fun d b => d.put (PGCTL_ENABLE b) 0 1) wUp

/-- A message released at a source. -/
def wRel (src : Nat) (m : Msg) : Dev := { wSlice with core := { wSlice.core with rel := [(src, [m])] } }

/-- Queue 0's context cached, with the words given; slice 0 and access unit 0 enabled. -/
def wQueue (w : List W64) : Dev :=
  let d := (wSlice.put (PGCTL_ENABLE .acu) 0 1).put LDR_CARVE_CTX_EN 0 1
  { d with ldr := { d.ldr with up := true, ctxLru := [0], ctx := [(0, w)] } }

/-- Context words: both rings of 2^6 entries; HEAD, TAIL and STATE given. -/
def wCtx (st tail : Nat) (w8 : Nat) : List W64 :=
  [0, 0, BitVec.ofNat 64 (6 + 6 * 32), 0, BitVec.ofNat 64 (tail * 2 ^ 16 + st * 2 ^ 57), 0, 0, 0, BitVec.ofNat 64 w8,
   BitVec.ofNat 64 (2 ^ 26)]

/-- An enabled queue 0 holding descriptors. -/
def wDescs (l : List Desc) (w8 : Nat := 0) : Dev := (wQueue (wCtx 2 1 w8)).setQueue 0 { descs := l }

/-- A descriptor of an operation, 64 bytes from address 0 to address 4096. -/
def wDesc (op : Nat) : Desc := { words := [BitVec.ofNat 64 op, 0, 4096, 64] }

/-- Service endpoint 0 with one queue allocated to its physical function, the queue's context in a state. -/
def wFn (st : Nat) : Dev :=
  let d := (((wQueue (wCtx st 0 0)).put PRT_CFG_ROLE 0 1).put DMV_EPCFG_EN 0 1 0).put DMV_EPCFG_PF_Q 0 1 0
  d.put DMV_EPCFG_TOTALVFS 0 4 0

/-- Slot 0 in a power state. -/
def wSlot (st : Nat) : Dev := (wUp.put SPU_STAT_STATE 0 st).put SPU_STAT_PRSNT 0 1

/-- Channel 0 of the Larder ready, with a request. -/
def wChan (st : Nat) (l : List LdrReq) : Dev :=
  let d := wUp.put LDR_CHSTAT_STATE 0 st
  { d with ldr := { d.ldr with reqs := [(0, l)] } }

/-- A migration of entry 0 of VCS 0. -/
def wMigr : Migr := { queue := 0, tag := 0, vcs := 0, entry := 0, tgt := 1, base := 16 }

/-- Decoder entry 0 of VCS 0 (256 MiB at 0 of vPPB 0), vPPBs 0 and 1 bound to ports 2 and 4. -/
def wBound (d : Dev) : Dev :=
  ((((d.setTab 0x04 0 0 0 1).setTab 0x04 0 0 1 0).setTab 0x03 0 0 0 (BitVec.ofNat 64 (1 + 4 * 2))).setTab 0x03 0 1 0
    (BitVec.ofNat 64 (1 + 4 * 4)))

/-- A device in a phase of its start or reset. -/
def wPhase (p : Phase) : Dev := { wUp with rst := { wUp.rst with phase := p } }

/-! ## Ill-formed commands: one for each check, each operand at the first value beyond its range -/

theorem test_illformed_1 :
    ([(.registerWrite 6 0 0 0 : Instr),
      .registerWrite 1 67108864 0 0,
      .mgmtPfReset 3,
      .enableSet 6 0,
      .enableClear 6 0,
      .brst 6 0,
      .commit 6 0,
      .force 6 0,
      .discard 6 0,
      .pglockLocked 6 0,
      .devCfgLock 6,
      .tblRead 6 0 false,
      .tblRead 1 16 false,
      .tblWrite 6 0 false,
      .tblWrite 1 16 false,
      .tblClear 6 0 false,
      .tblClear 1 16 false,
      .tblBadOp 6 0 0 false,
      .tblBadOp 1 16 0 false,
      .tblOpDone 16 false,
      .acquire 6 0 0 0,
      .acquire 1 64 0 0,
      .acquire 1 0 65536 0,
      .acquire 1 0 0 1048576,
      .renew 6 0 0 0,
      .renew 1 64 0 0,
      .renew 1 0 65536 0,
      .renew 1 0 0 1048576,
      .release 6 0 0,
      .release 1 64 0,
      .release 1 0 65536,
      .breakLock 6 0,
      .breakLock 1 64,
      .clrBroken 6 0 0,
      .clrBroken 1 64 0,
      .clrBroken 1 0 65536,
      .leaseExpiry 64,
      .mctpPathReset 2,
      .devRstWarm 6 0,
      .devRstWarm 1 256,
      .devRstControl 6 0,
      .devRstControl 1 256,
      .devRstSlice 6 0 0,
      .devRstSlice 1 256 0,
      .devRstSlice 1 0 1024,
      .devRstDomain 6 0 0,
      .devRstDomain 1 256 0,
      .devRstDomain 1 0 1024,
      .devRstPort 6 0 0,
      .devRstPort 1 256 0,
      .devRstPort 1 0 1024,
      .mboxGo 6,
      .mboxDone 256 [],
      .calDone 64,
      .calTimeout 64,
      .failedRetry 64,
      .chipletPllLoss 8,
      .pllRelock 8,
      .elasticErr 64 0,
      .elasticErr 0 9].map Instr.wf).all (! ·) = true := by decide +kernel

theorem test_illformed_2 :
    ([(.l0Entry 128 [] false {} : Instr),
      .eqFallback ⟨128, 5⟩,
      .recovery ⟨128, false⟩,
      .laneLoss 128 [],
      .healthWindow 64 [],
      .trainingControlBlock 64 0 [],
      .trainingControlBlock 0 9 [],
      .laneLock 64 0 [],
      .laneLock 0 9 [],
      .lockLost 64 0 [],
      .lockLost 0 9 [],
      .drLockDone 64,
      .drLockTimeout 64,
      .drTrainDone 64,
      .drTrainTimeout 64,
      .drAlignDone ⟨64, 0⟩,
      .drAlignTimeout 64,
      .drRetrainTimeout 64,
      .marginGo 6 0,
      .marginGo 1 64,
      .marginStop 6 0,
      .marginStop 1 64,
      .partnerMargining 64 ⟨0, .clearErrors⟩,
      .partnerMargining 0 ⟨9, .clearErrors⟩,
      .marginDwellEnd 64 0,
      .marginErrLimit 64,
      .eqCacheWrite 6 0 0 0,
      .eqCacheWrite 1 64 0 0,
      .eqCacheWrite 1 0 9 0,
      .l1Entry 128 false,
      .protocolNegotiation 128 0,
      .flitReceive 128 {},
      .egressStart 128,
      .ideKeySwitch 128,
      .gpfPhase 128 0,
      .gpfAnswer 128,
      .gpfTimeout 128,
      .perstInAssert 16,
      .perstInDeassert 16,
      .perstOutDelay 128,
      .perstOutHold 128,
      .hotResetReceived 128,
      .hotReset 6 0,
      .hotReset 1 128,
      .hotResetTimeout 128,
      .retrain 6 0,
      .retrain 1 128,
      .disable 6 0,
      .disable 1 128,
      .disableClear 6 0,
      .disableClear 1 128,
      .linkDown 128,
      .cplTimeout 128 0,
      .drlAttach 6 0 0 false,
      .drlAttach 1 32 0 false,
      .drlAttach 1 0 64 false,
      .dunrunBlock 32 0 [],
      .dunrunBlock 0 9 [],
      .messagePacket 32,
      .ack 32].map Instr.wf).all (! ·) = true := by decide +kernel

theorem test_illformed_3 :
    ([(.nak 32 : Instr),
      .credit 32,
      .init 32,
      .initAck 32,
      .spareReq 32,
      .spareAck 32,
      .spareDone 32,
      .spareNack 32,
      .spareBlockSwitch 32,
      .spareReqRepeat 32,
      .spareTimeout 32,
      .timeReq 32,
      .timeResp 32,
      .timeFollow 32,
      .crumb 32,
      .routeWithdraw 32,
      .routeRestore 32,
      .secMac 32,
      .keySwitch 32,
      .linkInit 32,
      .initResend 32,
      .nakResend 32,
      .ackNsTimer 32,
      .ackIdleTimer 32,
      .replayTimeout 32,
      .liveTimeout 32,
      .messagePacketSend 32,
      .creditTimer 32,
      .creditStall 32 0,
      .creditStall 0 8,
      .timeExchange 32,
      .cellPresent ⟨[144], .none⟩,
      .heldAdmit ⟨144, .none⟩,
      .tagFill 16 0 false,
      .egressSelect ⟨144, false⟩,
      .bankDecision 16 0 .none,
      .bankDecision 0 16 .none,
      .stallTimeout 16 0,
      .retire 6 0 0,
      .retire 1 16 0,
      .retire 1 0 16,
      .retirementDone 16,
      .shaperRefill 128,
      .egsSample 128,
      .gateEdge 128,
      .configurationRequest 128 0 false 0 false 0,
      .configurationRequest 0 128 false 0 false 0,
      .configurationRequest 0 0 false 8192 false 0,
      .mldLdLost 128 0,
      .mldLdLost 0 16,
      .removalNotice 16 0 0,
      .removalNotice 0 128 0,
      .vppbPowerControl 128 0 false,
      .vppbPowerControl 0 128 false,
      .getVirtualCxlSwitchInfo 6 0 0 0,
      .getVirtualCxlSwitchInfo 1 128 0 0,
      .getVirtualCxlSwitchInfo 1 0 128 0,
      .bindVppb 6 0 0 0 0,
      .bindVppb 1 128 0 0 0,
      .bindVppb 1 0 128 0 0].map Instr.wf).all (! ·) = true := by decide +kernel

theorem test_illformed_4 :
    ([(.bindVppb 1 0 0 128 0 : Instr),
      .unbindVppb 6 0 0 0,
      .unbindVppb 1 128 0 0,
      .unbindVppb 1 0 128 0,
      .generateAerEvent 6 0 0 0,
      .generateAerEvent 1 128 0 0,
      .generateAerEvent 1 0 128 0,
      .identifySwitchDevice 6,
      .getPhysicalPortState 6 [],
      .physicalPortControl 6 0 0,
      .physicalPortControl 1 128 0,
      .sendLdCxlIoConfigRequest 6 0 0 0 false 0,
      .sendLdCxlIoConfigRequest 1 0 16 0 false 0,
      .sendLdCxlIoConfigRequest 1 0 0 4096 false 0,
      .tunnelManagementCommand 6 0 [],
      .rdS 16,
      .rdO 16,
      .ownNd 16,
      .rdC 16,
      .wr 16,
      .atom 16,
      .wbI 16,
      .wbS 16,
      .cln 16,
      .bisI 16,
      .bisS 16,
      .bisC 16,
      .snoopAnswer 16,
      .targetAnswer 16,
      .lineQueueHead 16 0,
      .waitBufferEntryFree 16 0,
      .waitBufferEntryFree 0 144,
      .retryOffer 16 0 0,
      .retryOffer 0 16384 0,
      .retryOffer 0 0 16,
      .snoopTimeout 16 0 0,
      .quenchNotice 4096 0 0,
      .quenchNotice 0 1024 0,
      .quenchNotice 0 0 16,
      .quenchScanDone 16,
      .dirPeek 6 0,
      .dirPeek 1 16,
      .sccFlushClean 6 0,
      .sccFlushClean 1 16,
      .trayHoldRelease 144,
      .streamingWrite 144,
      .cmbTimeout 16 0 0,
      .drainWrite 128 0,
      .drainWrite 0 128,
      .drainRead 128 0,
      .drainRead 0 128,
      .larderRead 12,
      .larderWrite 12,
      .scrubRead 12,
      .pprSoft 6 0,
      .pprSoft 1 12,
      .pprHard 6 0,
      .pprHard 1 12,
      .pprDone 12 0,
      .pprDone 0 5].map Instr.wf).all (! ·) = true := by decide +kernel

theorem test_illformed_5 :
    ([(.dimmThermalRead 12 0 : Instr),
      .dimmThermalRead 0 256,
      .chanFail 12 0,
      .ioDieFault 2,
      .vfEnable 128 0,
      .vfEnable 0 128,
      .vfDisable 128,
      .functionFlr 128 0,
      .functionFlr 0 128,
      .qcmdRead 128 0,
      .qcmdRead 0 128,
      .qcmdWrite 128 0,
      .qcmdWrite 0 128,
      .qcmdEnable 128 0,
      .qcmdEnable 0 128,
      .qcmdDisable 128 0,
      .qcmdDisable 0 128,
      .qcmdReset 128 0,
      .qcmdReset 0 128,
      .heldReset 1048576,
      .disablingDone 1048576,
      .doorbell 128 0 0 0 0,
      .doorbell 0 128 0 0 0,
      .doorbell 0 0 4194304 0 0,
      .contextFetch 1048576,
      .descriptorFetch 1048576 [] false,
      .nop 1048576,
      .copy 1048576,
      .fill 1048576,
      .compare 1048576,
      .crc 1048576,
      .atomic8 1048576,
      .atomic16 1048576,
      .moveLive 1048576,
      .barrierLd 1048576,
      .barrierSt 1048576,
      .barrierFull 1048576,
      .interrupt 1048576,
      .barrierComplete 1048576,
      .completionRecord 1048576 false,
      .shareEntryEnd 64,
      .moveLiveCopyDone 64,
      .moveLiveRecopyDone 64,
      .moveLiveHoldReady 64,
      .moveLiveHoldTimeout 64,
      .prsntAssert 32,
      .prsntDeassert 32,
      .vinWindow 32 0,
      .vinWindow 0 65536,
      .insertionTimer 32,
      .rampEntry 32,
      .rampDone 32 0 0,
      .rampDone 0 65536 0,
      .rampDone 0 0 65536,
      .rampTimeout 32,
      .fastTrip 32 0,
      .fastTrip 0 65536,
      .ovTrip 32 0,
      .ovTrip 0 65536,
      .ocTrip 32].map Instr.wf).all (! ·) = true := by decide +kernel

theorem test_illformed_6 :
    ([(.vinLow 32 0 : Instr),
      .vinLow 0 65536,
      .coolDone 32,
      .fetFail 32 0,
      .fetFail 0 65536,
      .retryCountReset 32,
      .spuOn 6 0,
      .spuOn 1 32,
      .spuOff 6 0,
      .spuOff 1 32,
      .clearFet 6 0 0,
      .clearFet 1 32 0,
      .clearFet 1 0 65536,
      .measure 6,
      .dmaxRecompute 65536,
      .creditBlockRequest 16 false,
      .lowBank 65536,
      .fuseLoad false 65 0 none,
      .fuseLoad false 0 16 none,
      .advanceArc 6 false,
      .dbgChallenge 6,
      .dbgUnlock 6,
      .bundleApply 6,
      .rcvWrite 6 0,
      .rcvWrite 1 2,
      .rcvBoot 6 0 none,
      .rcvBoot 1 2 none,
      .relayIn 6 0,
      .relayIn 1 32,
      .relayOutRelease 6,
      .anchorSet 6 0,
      .anchorSet 1 8,
      .drlRekey 6 0,
      .drlRekey 1 32,
      .ideKm 128 ⟨false, []⟩,
      .dunrunKeyExchange 32,
      .keyExchangeTimeout 32,
      .keyExchangeRestart 32,
      .keyUsageLimit 32,
      .portResetRecallDone 128,
      .inputDebounce 67 false,
      .chatter 67 0,
      .fltStatusClear 6 0 0,
      .fltStatusClear 1 0 65536,
      .fltInject 6 0 0,
      .fltCountClr 6 0,
      .tmbSet 6 0,
      .ptmRequest 128,
      .fire 6,
      .clrall 6,
      .cntSelWrite 6 0 0 0,
      .cntSelWrite 1 0 8 0,
      .cntClr 6 0 0,
      .cntClr 1 0 16,
      .telemetryRecord 4096 0 0 [] false,
      .tlmPop 6,
      .tlmRhead 6 0,
      .tlmRingEnable 6,
      .refusedRead 6 0 0,
      .refusedRead 1 67108864 0].map Instr.wf).all (! ·) = true := by decide +kernel

theorem test_illformed_7 :
    ([(.drRetrainDone 64 : Instr),
      .remoteSnoop 16].map Instr.wf).all (! ·) = true := by decide +kernel

/-! ## Effects, with the expected values of the spec's own examples and tables -/

/-- The line of the example in chapter 10: home slice 7, directory set 0x2261, slice-cache set 0x261. -/
theorem test_home_slice_example : homeSlice 0x600 0x2461 = 7 ∧ dirSet 0x600 0x2461 = 0x2261 ∧ sccSet 0x600 0x2461 = 0x261 := by
  decide +kernel

/-- Entry 3 of VCS 17 in the example of chapter 9: INTERLEAVE, NT 1, IG 2, HOME 1, HPA_BASE 0x400, SIZE 0x100. -/
def wEntry : Hdm := hdmOf (BitVec.ofNat 64 (1 + 2 + 8 + 2 * 2 ^ 5 + 2 ^ 9 + 0x400 * 2 ^ 24)) 0x100 (4 + 5 * 256)

/-- HPA 0x40_0012_3456 decodes to way 1, vPPB 5, DPA 0x9_1856 (example of chapter 9). -/
theorem test_decode_example : wEntry.map 0x4000123456 = (1, 0x91856) ∧ wEntry.tgts.getD 1 0 = 5 := by decide +kernel

/-- DPA 0x9_1840 at way 1 decodes back to the line of that HPA. -/
theorem test_reverse_decode_example : wEntry.unmap 1 0x91840 = 0x4000123440 := by decide +kernel

/-- The addresses of the example of chapter 2: ACU[17], TBL[3], LCK_STAT[5]. -/
theorem test_page_addresses :
    (⟨.acu, 17⟩ : Pg).addr = 0x411000 ∧ (⟨.tbl, 3⟩ : Pg).addr = 0x13000 ∧ LCK_STAT.addr 0 5 = 0x5190 ∧ LCK_CMD.addr 0 5 = 0x5198 := by
  decide +kernel

/-- Port 77 lies in slice 9 (example of chapter 1); SDS[38] lies at 0x1A_6000 (example of chapter 3). -/
theorem test_port_slice : portSlice 77 = 9 ∧ (⟨.sds, 38⟩ : Pg).addr = 0x1A6000 := by decide +kernel

/-- ACQUIRE by the management PF, path code 1 (R65). -/
theorem test_acquire_holds :
    (wUp.acquireRow 1 5 0x77 100).get LCK_STAT_TAG 0 5 = 0x77 ∧ (wUp.acquireRow 1 5 0x77 100).on LCK_STAT_HELD 0 5 = true := by
  decide +kernel

/-- ACQUIRE with LEASE 0 has no effect (R65). -/
theorem test_acquire_no_lease : (wUp.acquireRow 1 5 0x77 0).regs = wUp.regs := by decide +kernel

/-- A read at an unaligned address completes with an abort and BAD_ACCESS is recorded (R44). -/
theorem test_unaligned_read : (wUp.refusedReadRow 1 2 4).on MGT_ERRLOG_VALID = true := by decide +kernel

/-- An idle step moves local time by the 32 root ticks of a TIMECLK cycle (R624). -/
theorem test_idle_step_time : wUp.cycle.obs.clk.local_ = 32 := by decide +kernel

/-- INSERTION_TIMER of an absent slot has no effect. -/
theorem test_insertion_absent : ((wUp.insertionTimerRow 3).slot 3).insDone = false := by decide +kernel

/-- A partial Larder write stores its enabled bytes only, little-endian byte order within the line (R11). -/
theorem test_line_write_bytes :
    (wUp.writeLine 0 2 2 [7, 9] false).lbyte 129 = 9 ∧ (wUp.writeLine 0 2 2 [7, 9] false).lbyte 128 = 0 := by decide +kernel

/-- The balls of the example of chapter 21: DW61, DV61, CE75, N40, P40 and BK47; row 15 is T. -/
theorem test_ball_examples :
    rowName 94 = ['D', 'W'] ∧ rowName 62 = ['C', 'E'] ∧ rowName 48 = ['B', 'K'] ∧ rowName 15 = ['T'] ∧
    ballSignal 94 61 = .sdsTx 38 8 false ∧ ballSignal 93 61 = .sdsTx 38 8 true ∧ ballSignal 62 75 = .memDqs 4 7 false ∧
    ballSignal 13 40 = .gate 5 ∧ ballSignal 14 40 = .prsnt 5 ∧ ballSignal 48 47 = .rail .core := by decide +kernel


/-! ## Witnesses of the statements' hypotheses -/

/-- Each hypothesis list of the statement is met by a concrete state and operands. -/
theorem witness_ControlSpaceCommands :
    (((.registerWrite 1 16 8 2 : Instr).wf = true) ∧ ((wUp : Dev).pathOpen 1 = true) ∧ ((wUp : Dev).reachAt 16 8 = .inr (⟨.dev, 0⟩ : Pg)) ∧ ((⟨.dev, 0⟩ : Pg).blk ≠ .sec ∨ 16 % 4096 / 8 * 8 ≠ SEC_CMD.off) ∧ (16 % 4096 < 0x800) ∧ ((⟨.dev, 0⟩ : Pg).regAt (16 % 4096 / 8 * 8) = some ((⟨PGSTAT .dev, [PGSTAT_FLT_PEND .dev, PGSTAT_SNAP_VALID .dev, PGSTAT_BUSY .dev, PGSTAT_AVAIL .dev, PGSTAT_CMT_ERR .dev, PGSTAT_CMT_CODE .dev]⟩ : RegD), 0)) ∧ ((⟨PGSTAT .dev, [PGSTAT_FLT_PEND .dev, PGSTAT_SNAP_VALID .dev, PGSTAT_BUSY .dev, PGSTAT_AVAIL .dev, PGSTAT_CMT_ERR .dev, PGSTAT_CMT_CODE .dev]⟩ : RegD).reg ≠ DEV_RST)) ∧
    (((.registerWrite 1 ((0x4000 + SEC_CMD.off) : Nat) 8 0 : Instr).wf = true) ∧ ((wUp : Dev).pathOpen 1 = true) ∧ ((wUp : Dev).reachAt ((0x4000 + SEC_CMD.off) : Nat) 8 = .inr (⟨.sec, 0⟩ : Pg)) ∧ ((⟨.sec, 0⟩ : Pg).blk = .sec) ∧ (((0x4000 + SEC_CMD.off) : Nat) % 4096 / 8 * 8 = SEC_CMD.off)) ∧
    (((.refusedRead 1 1 4 : Instr).wf = true) ∧ ((wUp : Dev).pathOpen 1 = true) ∧ ((wUp : Dev).reachAt 1 4 = .inl 1)) ∧
    (((.refusedRead 1 0 8 : Instr).wf = true) ∧ ((wUp : Dev).pathOpen 1 = true) ∧ ((wUp : Dev).reachAt 0 8 = .inr (⟨.dev, 0⟩ : Pg)) ∧ ((⟨.dev, 0⟩ : Pg).blk ≠ .tlm)) ∧
    (((.mgmtPfReset 0 : Instr).wf = true) ∧ ((wUp : Dev).ctl.pfUp = true)) ∧
    (((.msixUnmask (.vector 3 0 0 false) : Instr).wf = true) ∧ ((wUp : Dev).ctl.pfUp = true) ∧ (3 < 2048)) ∧
    (((.msixUnmask (.control true false true) : Instr).wf = true) ∧ ((wUp : Dev).ctl.pfUp = true)) ∧
    (((.msixUnmask (.config (4 * Config.msixDword) 0) : Instr).wf = true) ∧ ((wUp : Dev).ctl.pfUp = true) ∧ ((4 * Config.msixDword) / 4 = Config.msixDword)) ∧
    (((.msixUnmask (.readConfig 0) : Instr).wf = true) ∧ ((wUp : Dev).ctl.pfUp = true)) ∧
    (((.msixUnmask (.readTable 0) : Instr).wf = true) ∧ ((wUp : Dev).ctl.pfUp = true)) ∧
    (((.mboxGo 1 : Instr).wf = true) ∧ ((wUp : Dev).Reaches 1 ⟨.mgt, 0⟩) ∧ ((wUp : Dev).on MGT_MBOX_CTL_BUSY = false)) ∧
    (((.mboxDone 0 ([] : Bytes) : Instr).wf = true) ∧ (((wUp.put MGT_MBOX_CTL_BUSY 0 1) : Dev).on MGT_MBOX_CTL_BUSY = true) ∧ (((wUp.put MGT_MBOX_CTL_BUSY 0 1) : Dev).on DEV_READY_FW_RUN = true) ∧ (fmRefused (((wUp.put MGT_MBOX_CTL_BUSY 0 1) : Dev).get MGT_MBOX_CTL_OPCODE) = false)) ∧
    (((.mboxDone 0 ([] : Bytes) : Instr).wf = true) ∧ ((((wUp.put MGT_MBOX_CTL_BUSY 0 1).put MGT_MBOX_CTL_OPCODE 0 0x5500) : Dev).on MGT_MBOX_CTL_BUSY = true) ∧ ((((wUp.put MGT_MBOX_CTL_BUSY 0 1).put MGT_MBOX_CTL_OPCODE 0 0x5500) : Dev).on DEV_READY_FW_RUN = true) ∧ (fmRefused ((((wUp.put MGT_MBOX_CTL_BUSY 0 1).put MGT_MBOX_CTL_OPCODE 0 0x5500) : Dev).get MGT_MBOX_CTL_OPCODE) = true)) := by
  and_intros
  all_goals first | decide +kernel | exact Nat.mul_div_cancel_left _ (by decide) | exact ⟨by decide +kernel, by decide +kernel⟩

/-- Each hypothesis list of the statement is met by a concrete state and operands. -/
theorem witness_PageControlCommands :
    (((.enableSet 1 768 : Instr).wf = true) ∧ ((wUp : Dev).Finds 1 768 (⟨.pol, 0⟩ : Pg) 0x018) ∧ ((⟨.pol, 0⟩ : Pg).blk.alwaysOn = false) ∧ ((wUp : Dev).on (PGCTL_ENABLE (⟨.pol, 0⟩ : Pg).blk) (⟨.pol, 0⟩ : Pg).inst = false) ∧ ((wUp : Dev).avail (⟨.pol, 0⟩ : Pg) = true)) ∧
    (((.enableClear 1 768 : Instr).wf = true) ∧ (((wUp.put (PGCTL_ENABLE .pol) 0 1) : Dev).Finds 1 768 (⟨.pol, 0⟩ : Pg) 0x018) ∧ ((⟨.pol, 0⟩ : Pg).blk.alwaysOn = false) ∧ (((wUp.put (PGCTL_ENABLE .pol) 0 1) : Dev).on (PGCTL_ENABLE (⟨.pol, 0⟩ : Pg).blk) (⟨.pol, 0⟩ : Pg).inst = true)) ∧
    (((.brst 1 768 : Instr).wf = true) ∧ ((wUp : Dev).Finds 1 768 (⟨.pol, 0⟩ : Pg) 0x018) ∧ ((wUp : Dev).avail (⟨.pol, 0⟩ : Pg) = true) ∧ ((wUp : Dev).on (PGEPOCH_PEND (⟨.pol, 0⟩ : Pg).blk) (⟨.pol, 0⟩ : Pg).inst = false) ∧ ((wUp : Dev).on (PGSTAT_BUSY (⟨.pol, 0⟩ : Pg).blk) (⟨.pol, 0⟩ : Pg).inst = false) ∧ ((wUp : Dev).locked (⟨.pol, 0⟩ : Pg) = false) ∧ ((wUp : Dev).enabled (⟨.pol, 0⟩ : Pg) = false)) ∧
    (((.blockResetDone 768 : Instr).wf = true) ∧ (Pg.at? (768 * 4096) = some (⟨.pol, 0⟩ : Pg)) ∧ (({ wUp with ctl := { wUp.ctl with resets := [⟨.pol, 0⟩] } } : Dev).ctl.resets.contains (⟨.pol, 0⟩ : Pg) = true) ∧ ((⟨.pol, 0⟩ : Pg).blk ≠ .arb)) ∧
    (((.blockResetDone 544 : Instr).wf = true) ∧ (Pg.at? (544 * 4096) = some (⟨.arb, 0⟩ : Pg)) ∧ (({ wUp with ctl := { wUp.ctl with resets := [⟨.arb, 0⟩] } } : Dev).ctl.resets.contains (⟨.arb, 0⟩ : Pg) = true) ∧ ((⟨.arb, 0⟩ : Pg).blk = .arb)) ∧
    (((.commit 1 768 : Instr).wf = true) ∧ ((wUp : Dev).Finds 1 768 (⟨.pol, 0⟩ : Pg) 0x018) ∧ ((wUp : Dev).avail (⟨.pol, 0⟩ : Pg) = true) ∧ ((wUp : Dev).on (PGEPOCH_PEND (⟨.pol, 0⟩ : Pg).blk) (⟨.pol, 0⟩ : Pg).inst = false) ∧ ((wUp : Dev).on (PGSTAT_BUSY (⟨.pol, 0⟩ : Pg).blk) (⟨.pol, 0⟩ : Pg).inst = false) ∧ ((wUp : Dev).locked (⟨.pol, 0⟩ : Pg) = false) ∧ (((wUp : Dev).commitBegin (⟨.pol, 0⟩ : Pg) false).ctl.commits.find? (·.pg = (⟨.pol, 0⟩ : Pg)) = some { pg := (⟨.pol, 0⟩ : Pg), force := false, waits := [] }) ∧ (((wUp : Dev).commitBegin (⟨.pol, 0⟩ : Pg) false).commitBehind (⟨.pol, 0⟩ : Pg) = false) ∧ (((wUp : Dev).commitBegin (⟨.pol, 0⟩ : Pg) false).epochTooOld (⟨.pol, 0⟩ : Pg) = false) ∧ (((wUp : Dev).commitBegin (⟨.pol, 0⟩ : Pg) false).commitErr (⟨.pol, 0⟩ : Pg) = none)) ∧
    (((.force 1 768 : Instr).wf = true) ∧ ((wUp : Dev).Finds 1 768 (⟨.pol, 0⟩ : Pg) 0x018) ∧ ((wUp : Dev).avail (⟨.pol, 0⟩ : Pg) = true) ∧ ((wUp : Dev).on (PGEPOCH_PEND (⟨.pol, 0⟩ : Pg).blk) (⟨.pol, 0⟩ : Pg).inst = false) ∧ ((wUp : Dev).on (PGSTAT_BUSY (⟨.pol, 0⟩ : Pg).blk) (⟨.pol, 0⟩ : Pg).inst = false) ∧ ((wUp : Dev).locked (⟨.pol, 0⟩ : Pg) = false) ∧ (((wUp : Dev).commitBegin (⟨.pol, 0⟩ : Pg) true).ctl.commits.find? (·.pg = (⟨.pol, 0⟩ : Pg)) = some { pg := (⟨.pol, 0⟩ : Pg), force := (⟨.pol, 0⟩ : Pg).rule, waits := [] }) ∧ (((wUp : Dev).commitBegin (⟨.pol, 0⟩ : Pg) true).commitBehind (⟨.pol, 0⟩ : Pg) = false) ∧ (((wUp : Dev).commitBegin (⟨.pol, 0⟩ : Pg) true).epochTooOld (⟨.pol, 0⟩ : Pg) = false) ∧ (((wUp : Dev).commitBegin (⟨.pol, 0⟩ : Pg) true).commitErr (⟨.pol, 0⟩ : Pg) = none)) ∧
    (((.discard 1 768 : Instr).wf = true) ∧ ((wUp : Dev).Finds 1 768 (⟨.pol, 0⟩ : Pg) 0x018)) ∧
    (((.heldCommit 768 : Instr).wf = true) ∧ (Pg.at? (768 * 4096) = some (⟨.pol, 0⟩ : Pg)) ∧ (({ wUp with ctl := { wUp.ctl with commits := [{ pg := ⟨.pol, 0⟩ }] } } : Dev).ctl.commits.find? (·.pg = (⟨.pol, 0⟩ : Pg)) = some { pg := (⟨.pol, 0⟩ : Pg), force := false, waits := [] }) ∧ (({ wUp with ctl := { wUp.ctl with commits := [{ pg := ⟨.pol, 0⟩ }] } } : Dev).commitBehind (⟨.pol, 0⟩ : Pg) = false) ∧ (({ wUp with ctl := { wUp.ctl with commits := [{ pg := ⟨.pol, 0⟩ }] } } : Dev).epochTooOld (⟨.pol, 0⟩ : Pg) = false) ∧ (({ wUp with ctl := { wUp.ctl with commits := [{ pg := ⟨.pol, 0⟩ }] } } : Dev).commitErr (⟨.pol, 0⟩ : Pg) = none)) ∧
    (((.epochApplied (0x260 : Nat) : Instr).wf = true) ∧ (Pg.at? ((0x260 : Nat) * 4096) = some (⟨.dec, 0⟩ : Pg)) ∧ ((⟨.dec, 0⟩ : Pg).rule = true) ∧ (((wUp.put (PGEPOCH_APPLIED .dec) 0 0) : Dev).applied (⟨.dec, 0⟩ : Pg) = false) ∧ (((wUp.put (PGEPOCH_APPLIED .dec) 0 0) : Dev).olderFlights (⟨.dec, 0⟩ : Pg) = false)) ∧
    (((.pglockLocked 1 768 : Instr).wf = true) ∧ ((wUp : Dev).Finds 1 768 (⟨.pol, 0⟩ : Pg) 0x028)) ∧
    (((.devCfgLock 1 : Instr).wf = true) ∧ ((wUp : Dev).Reaches 1 ⟨.dev, 0⟩)) := by
  and_intros
  all_goals first | decide +kernel | exact ⟨by decide +kernel, ⟨by decide +kernel, by decide +kernel⟩, by decide +kernel⟩ | exact ⟨by decide +kernel, by decide +kernel⟩

/-- Each hypothesis list of the statement is met by a concrete state and operands. -/
theorem witness_TableAndLockCommands :
    (((.tblRead 1 15 true : Instr).wf = true) ∧ ((wUp : Dev).Reaches 1 ⟨.tbl, 15⟩) ∧ ((wUp : Dev).tblBusy 15 = false)) ∧
    (((.tblWrite 1 15 true : Instr).wf = true) ∧ ((wUp : Dev).Reaches 1 ⟨.tbl, 15⟩) ∧ ((wUp : Dev).tblBusy 15 = false)) ∧
    (((.tblClear 1 15 true : Instr).wf = true) ∧ ((wUp : Dev).Reaches 1 ⟨.tbl, 15⟩) ∧ ((wUp : Dev).tblBusy 15 = false)) ∧
    (((.tblBadOp 1 15 7 true : Instr).wf = true) ∧ ((wUp : Dev).Reaches 1 ⟨.tbl, 15⟩) ∧ (4 ≤ 7) ∧ (7 < 8) ∧ ((wUp : Dev).tblBusy 15 = false)) ∧
    (((.tblOpDone 0 false : Instr).wf = true) ∧ (SMap.get none ({ wUp with ctl := { wUp.ctl with tblOps := [(0, some { op := 2, table := 3 })] } } : Dev).ctl.tblOps 0 = some ({ op := 2, table := 3 } : TblOp)) ∧ (({ wUp with ctl := { wUp.ctl with tblOps := [(0, some { op := 2, table := 3 })] } } : Dev).tblErr ({ op := 2, table := 3 } : TblOp) false = 0)) ∧
    (((.acquire 1 63 65535 1 : Instr).wf = true) ∧ ((wUp : Dev).Reaches 1 ⟨.lck, 0⟩) ∧ ((wUp : Dev).on LCK_STAT_HELD 0 63 = false) ∧ (1 ≠ 0)) ∧
    (((.renew 1 5 0 7 : Instr).wf = true) ∧ ((((wUp.put LCK_STAT_HELD 0 1 5).put LCK_STAT_PATH 0 1 5) : Dev).Reaches 1 ⟨.lck, 0⟩) ∧ ((((wUp.put LCK_STAT_HELD 0 1 5).put LCK_STAT_PATH 0 1 5) : Dev).lockMine 1 5 0 = true) ∧ (7 ≠ 0)) ∧
    (((.release 1 5 0 : Instr).wf = true) ∧ ((((wUp.put LCK_STAT_HELD 0 1 5).put LCK_STAT_PATH 0 1 5) : Dev).Reaches 1 ⟨.lck, 0⟩) ∧ ((((wUp.put LCK_STAT_HELD 0 1 5).put LCK_STAT_PATH 0 1 5) : Dev).lockMine 1 5 0 = true)) ∧
    (((.breakLock 1 5 : Instr).wf = true) ∧ (((wUp.put LCK_STAT_HELD 0 1 5) : Dev).Reaches 1 ⟨.lck, 0⟩) ∧ (((wUp.put LCK_STAT_HELD 0 1 5) : Dev).on LCK_STAT_HELD 0 5 = true)) ∧
    (((.clrBroken 1 5 0 : Instr).wf = true) ∧ ((((wUp.put LCK_STAT_HELD 0 1 5).put LCK_STAT_PATH 0 1 5) : Dev).Reaches 1 ⟨.lck, 0⟩) ∧ ((((wUp.put LCK_STAT_HELD 0 1 5).put LCK_STAT_PATH 0 1 5) : Dev).lockMine 1 5 0 = true)) ∧
    (((.leaseExpiry 5 : Instr).wf = true) ∧ (((wUp.put LCK_STAT_HELD 0 1 5) : Dev).on LCK_STAT_HELD 0 5 = true)) := by
  and_intros
  all_goals first | decide +kernel | exact ⟨by decide +kernel, by decide +kernel⟩

/-- Each hypothesis list of the statement is met by a concrete state and operands. -/
theorem witness_FaultBlockCommands :
    (((.fltStatusClear 1 0 1 : Instr).wf = true) ∧ ((wUp : Dev).Finds 1 0 (⟨.dev, 0⟩ : Pg) 0x040)) ∧
    (((.fltInject 1 (0x480 : Nat) 1 : Instr).wf = true) ∧ ((wUp : Dev).Finds 1 (0x480 : Nat) (⟨.ldr, 0⟩ : Pg) 0x058) ∧ ((wUp : Dev).allLocked = false) ∧ ((⟨.ldr, 0⟩ : Pg).blk.checkers.contains (((wUp : Dev).fltInjectWord (⟨.ldr, 0⟩ : Pg) (BitVec.ofNat 64 1) (BitVec.allOnes 64)).get (FLT_INJECT_SOURCE (⟨.ldr, 0⟩ : Pg).blk) (⟨.ldr, 0⟩ : Pg).inst) = true)) ∧
    (((.fltInject 1 0 1 : Instr).wf = true) ∧ ((wUp : Dev).Finds 1 0 (⟨.dev, 0⟩ : Pg) 0x058) ∧ ((wUp : Dev).allLocked = false) ∧ ((⟨.dev, 0⟩ : Pg).blk.checkers.contains (((wUp : Dev).fltInjectWord (⟨.dev, 0⟩ : Pg) (BitVec.ofNat 64 1) (BitVec.allOnes 64)).get (FLT_INJECT_SOURCE (⟨.dev, 0⟩ : Pg).blk) (⟨.dev, 0⟩ : Pg).inst) = false)) ∧
    (((.fltCountClr 1 768 : Instr).wf = true) ∧ ((wUp : Dev).Finds 1 768 (⟨.pol, 0⟩ : Pg) 0x068)) ∧
    (((.epochWait : Instr).wf = true) ∧ (({ wUp with ctl := { wUp.ctl with flights := [⟨1, 65535⟩] } } : Dev).oldestEpoch ≠ ({ wUp with ctl := { wUp.ctl with flights := [⟨1, 65535⟩] } } : Dev).epoch)) ∧
    (((.cntSelWrite 1 768 7 1 : Instr).wf = true) ∧ ((wUp : Dev).Finds 1 768 (⟨.pol, 0⟩ : Pg) (0x100 + 8 * 7))) ∧
    (((.cntClr 1 768 15 : Instr).wf = true) ∧ ((wUp : Dev).Finds 1 768 (⟨.pol, 0⟩ : Pg) (0x100 + 8 * (15 / 2)))) := by
  and_intros
  all_goals first | decide +kernel | exact ⟨by decide +kernel, ⟨by decide +kernel, by decide +kernel⟩, by decide +kernel⟩

/-- Each hypothesis list of the statement is met by a concrete state and operands. -/
theorem witness_ResetCommands :
    (((.devRstWarm 1 (0x5A : Nat) : Instr).wf = true) ∧ ((wUp : Dev).Reaches 1 ⟨.dev, 0⟩) ∧ ((0x5A : Nat) = 0x5A) ∧ ((wUp : Dev).canQuiesce = true)) ∧
    (((.devRstControl 1 (0x5A : Nat) : Instr).wf = true) ∧ ((wUp : Dev).Reaches 1 ⟨.dev, 0⟩) ∧ ((0x5A : Nat) = 0x5A) ∧ ((wUp : Dev).canQuiesce = true)) ∧
    (((.devRstSlice 1 (0x5A : Nat) 15 : Instr).wf = true) ∧ ((wUp : Dev).Reaches 1 ⟨.dev, 0⟩) ∧ ((0x5A : Nat) = 0x5A) ∧ (15 < 16) ∧ ((wUp : Dev).flushing = false) ∧ ((wUp : Dev).flushed = false) ∧ ((wUp : Dev).bigReset = false) ∧ ((wUp : Dev).rst.active.any (fun r => r.scope = .slice && r.target = 15) = false)) ∧
    (((.devRstDomain 1 (0x5A : Nat) 5 : Instr).wf = true) ∧ (((wUp.setTab 0x02 0 0 0 (BitVec.ofNat 64 (1024 + 5))) : Dev).Reaches 1 ⟨.dev, 0⟩) ∧ ((0x5A : Nat) = 0x5A) ∧ (5 ≠ 0x3FF) ∧ ((((wUp.setTab 0x02 0 0 0 (BitVec.ofNat 64 (1024 + 5))) : Dev).domainSlot 5).isNone = false) ∧ (((wUp.setTab 0x02 0 0 0 (BitVec.ofNat 64 (1024 + 5))) : Dev).flushing = false) ∧ (((wUp.setTab 0x02 0 0 0 (BitVec.ofNat 64 (1024 + 5))) : Dev).flushed = false) ∧ (((wUp.setTab 0x02 0 0 0 (BitVec.ofNat 64 (1024 + 5))) : Dev).bigReset = false) ∧ (((wUp.setTab 0x02 0 0 0 (BitVec.ofNat 64 (1024 + 5))) : Dev).domainRst 5 = false)) ∧
    (((.devRstPort 1 (0x5A : Nat) 127 : Instr).wf = true) ∧ ((wUp : Dev).Reaches 1 ⟨.dev, 0⟩) ∧ ((0x5A : Nat) = 0x5A) ∧ (127 < 128) ∧ ((wUp : Dev).portAvail 127 = true) ∧ ((wUp : Dev).flushing = false) ∧ ((wUp : Dev).flushed = false) ∧ ((wUp : Dev).portContained 127 = false)) ∧
    (((.pwrGoodRise : Instr).wf = true) ∧ (({ wUp with rst := { wUp.rst with phase := .off, pwrGood := false } } : Dev).rst.pwrGood = false) ∧ (({ wUp with rst := { wUp.rst with phase := .off, pwrGood := false } } : Dev).rst.vddAux = true)) ∧
    (((.pwrGoodFall : Instr).wf = true) ∧ ((wUp : Dev).rst.pwrGood = true)) ∧
    (((.coldRstN : Instr).wf = true) ∧ ((wUp : Dev).rst.coldPin = false) ∧ ((wUp : Dev).rst.pwrGood = true) ∧ ((wUp : Dev).flushing = false)) ∧
    (((.coldRstNRelease : Instr).wf = true) ∧ (({ wUp with rst := { wUp.rst with phase := .coldHeld, coldPin := true } } : Dev).rst.coldPin = true) ∧ (({ wUp with rst := { wUp.rst with phase := .coldHeld, coldPin := true } } : Dev).flushing = false) ∧ (({ wUp with rst := { wUp.rst with phase := .coldHeld, coldPin := true } } : Dev).rst.pwrGood = true)) ∧
    (((.warmRstN : Instr).wf = true) ∧ ((wUp : Dev).on CKR_INSTAT1_WARM_RST = false) ∧ ((wUp : Dev).rst.phase ≠ .off) ∧ ((wUp : Dev).rst.phase ≠ .coldHeld) ∧ (((wUp : Dev).put CKR_INSTAT1_WARM_RST 0 1).canQuiesce = true)) ∧
    (((.resetEntry : Instr).wf = true) ∧ (({ wUp with rst := { wUp.rst with phase := .quiesce, pend := some { scope := .warm } } } : Dev).rst.pend = some ({ scope := .warm } : RstReq)) ∧ (({ wUp with rst := { wUp.rst with phase := .quiesce, pend := some { scope := .warm } } } : Dev).rst.phase = .quiesce) ∧ (({ wUp with rst := { wUp.rst with phase := .quiesce, pend := some { scope := .warm } } } : Dev).flushing = false) ∧ (({ wUp with rst := { wUp.rst with phase := .quiesce, pend := some { scope := .warm } } } : Dev).stopped = false) ∧ (({ wUp with rst := { wUp.rst with phase := .quiesce, pend := some { scope := .warm } } } : Dev).on FAG_STAT_HALTED = false) ∧ (({ scope := .warm } : RstReq).step ≠ 2) ∧ (({ wUp with rst := { wUp.rst with phase := .quiesce, pend := some { scope := .warm } } } : Dev).quiesceMore.quiesceDone = true) ∧ (({ wUp with rst := { wUp.rst with phase := .quiesce, pend := some { scope := .warm } } } : Dev).quiesceMore.warmHeld ({ scope := .warm } : RstReq) = false)) ∧
    (((.quiesceTimeout : Instr).wf = true) ∧ (({ wUp with rst := { wUp.rst with phase := .quiesce, pend := some { scope := .warm } } } : Dev).rst.phase = .quiesce) ∧ (({ wUp with rst := { wUp.rst with phase := .quiesce, pend := some { scope := .warm } } } : Dev).rst.pend = some ({ scope := .warm } : RstReq)) ∧ (({ wUp with rst := { wUp.rst with phase := .quiesce, pend := some { scope := .warm } } } : Dev).flushing = false) ∧ (({ wUp with rst := { wUp.rst with phase := .quiesce, pend := some { scope := .warm } } } : Dev).stopped = false) ∧ (({ wUp with rst := { wUp.rst with phase := .quiesce, pend := some { scope := .warm } } } : Dev).on FAG_STAT_HALTED = false) ∧ (({ wUp with rst := { wUp.rst with phase := .quiesce, pend := some { scope := .warm } } } : Dev).warmHeld ({ scope := .warm } : RstReq) = false)) ∧
    (((.portResetRecallDone 0 : Instr).wf = true) ∧ ((((wUp.setPort 0 { resetting := true, recallOnly := true }) : Dev).port 0).resetting = true) ∧ ((((wUp.setPort 0 { resetting := true, recallOnly := true }) : Dev).port 0).recallOnly = true) ∧ ((match ((wUp.setPort 0 { resetting := true, recallOnly := true }) : Dev).portAgent 0 with | some a => ((wUp.setPort 0 { resetting := true, recallOnly := true }) : Dev).recalling a | none => false) = false)) ∧
    (((.fabricReadyRise : Instr).wf = true) ∧ ((((({ wUp with rst := { wUp.rst with phase := .starting, kind := .warm } } : Dev).put DEV_READY_SDS_CAL 0 1).put DEV_READY_LARDER_READY 0 1).put SEC_STAT_BOOT 0 1 : Dev).fabricOk = true)) := by
  and_intros
  all_goals first | decide +kernel | exact ⟨by decide +kernel, by decide +kernel⟩

/-- Each hypothesis list of the statement is met by a concrete state and operands. -/
theorem witness_PinAndSupplyCommands :
    (((.clockLoss true : Instr).wf = true) ∧ ((wUp : Dev).rst.phase ≠ .off) ∧ ((wUp : Dev).rst.phase ≠ .coldHeld)) ∧
    (((.inputDebounce 31 true : Instr).wf = true) ∧ ((wUp : Dev).rst.vddAux = true) ∧ (31 < 32)) ∧
    (((.inputDebounce 32 true : Instr).wf = true) ∧ ((wUp : Dev).rst.vddAux = true) ∧ ((wUp : Dev).rst.phase ≠ .off) ∧ ((wUp : Dev).rst.phase ≠ .coldHeld) ∧ (32 ≤ 32) ∧ (32 < 48)) ∧
    (((.inputDebounce 63 true : Instr).wf = true) ∧ ((wUp : Dev).rst.vddAux = true) ∧ ((wUp : Dev).rst.phase ≠ .off) ∧ ((wUp : Dev).rst.phase ≠ .coldHeld) ∧ (48 ≤ 63) ∧ (63 < 64)) ∧
    (((.inputDebounce 64 true : Instr).wf = true) ∧ ((wUp : Dev).rst.vddAux = true) ∧ ((wUp : Dev).rst.phase ≠ .off) ∧ ((wUp : Dev).rst.phase ≠ .coldHeld) ∧ (64 = 64)) ∧
    (((.inputDebounce 65 true : Instr).wf = true) ∧ ((wUp : Dev).rst.vddAux = true) ∧ ((wUp : Dev).rst.phase ≠ .off) ∧ ((wUp : Dev).rst.phase ≠ .coldHeld) ∧ (65 = 65)) ∧
    (((.inputDebounce 66 false : Instr).wf = true) ∧ ((wUp : Dev).rst.vddAux = true) ∧ ((wUp : Dev).rst.phase ≠ .off) ∧ ((wUp : Dev).rst.phase ≠ .coldHeld) ∧ (66 = 66) ∧ (false = false)) ∧
    (((.chatter 2 4 : Instr).wf = true) ∧ (((wUp.put CKR_INCFG_CH_MAX 0 3 2) : Dev).get CKR_INCFG_CH_MAX 0 2 ≠ 0) ∧ (((wUp.put CKR_INCFG_CH_MAX 0 3 2) : Dev).get CKR_INCFG_CH_MAX 0 2 < 4)) ∧
    (((.vddAuxRise : Instr).wf = true) ∧ (({ wUp with rst := { wUp.rst with phase := .off, vddAux := false, pwrGood := false } } : Dev).rst.vddAux = false)) ∧
    (((.avsUpdate 760 true : Instr).wf = true) ∧ ((wUp : Dev).on DEV_READY_FUSES_OK = true) ∧ ((wUp : Dev).rst.clockLost = false) ∧ ((wUp : Dev).rst.thermTrip = false) ∧ (720 ≤ 760) ∧ (760 ≤ 800) ∧ (760 % 5 = 0) ∧ (760 ≤ (wUp : Dev).elec.avsAck + 10) ∧ ((wUp : Dev).elec.avsAck ≤ 760 + 10)) ∧
    (((.junctionSensorRead ([114] : List Int) : Instr).wf = true) ∧ ((([114] : List Int).take 64).any (· ≥ 115) = false)) ∧
    (((.junctionSensorRead ([115] : List Int) : Instr).wf = true) ∧ ((([115] : List Int).take 64).any (· ≥ 115) = true) ∧ ((wUp : Dev).rst.thermTrip = false)) := by
  and_intros <;> decide +kernel

/-- Each hypothesis list of the statement is met by a concrete state and operands. -/
theorem witness_OctetAndCxlTrainingCommands :
    (((.calDone 1 : Instr).wf = true) ∧ (((wOct wUp 1 1 1) : Dev).halted = false) ∧ (((wOct wUp 1 1 1) : Dev).octState 1 = tsCal)) ∧
    (((.calTimeout 1 : Instr).wf = true) ∧ (((wOct wUp 1 1 1) : Dev).halted = false) ∧ (((wOct wUp 1 1 1) : Dev).octState 1 = tsCal)) ∧
    (((.failedRetry 1 : Instr).wf = true) ∧ (((wOct wUp 1 2 15) : Dev).halted = false) ∧ (((wOct wUp 1 2 15) : Dev).octState 1 = tsFailed) ∧ (((wOct wUp 1 2 15) : Dev).octMode 1 = 2)) ∧
    (((.elasticErr 0 0 : Instr).wf = true) ∧ ((wUp : Dev).halted = false)) ∧
    (((.l0Entry 0 ({ rates := [1, 2, 3, 4, 5, 6], bypass := false } : CxlTrain).rates ({ rates := [1, 2, 3, 4, 5, 6], bypass := false } : CxlTrain).bypass ({ rates := [1, 2, 3, 4, 5, 6], bypass := false } : CxlTrain).toCxlLanes : Instr).wf = true) ∧ ((((List.range 9).foldl (fun d l => (rateCache 6).elim (d.put SDS_LANE_PRESENT 0 1 l) fun c => (d.put SDS_LANE_PRESENT 0 1 l).put c.2.1 0 1 l) (((wPort 2 5).put SDS_MODE_MAXRATE 0 6).put SDS_MODE_EQ_FAST 0 1)) : Dev).cxlPort 0 = true) ∧ (((((List.range 9).foldl (fun d l => (rateCache 6).elim (d.put SDS_LANE_PRESENT 0 1 l) fun c => (d.put SDS_LANE_PRESENT 0 1 l).put c.2.1 0 1 l) (((wPort 2 5).put SDS_MODE_MAXRATE 0 6).put SDS_MODE_EQ_FAST 0 1)) : Dev).port 0).negFail = false) ∧ ((((List.range 9).foldl (fun d l => (rateCache 6).elim (d.put SDS_LANE_PRESENT 0 1 l) fun c => (d.put SDS_LANE_PRESENT 0 1 l).put c.2.1 0 1 l) (((wPort 2 5).put SDS_MODE_MAXRATE 0 6).put SDS_MODE_EQ_FAST 0 1)) : Dev).portState 0 = tsRecovery) ∧ ((((List.range 9).foldl (fun d l => (rateCache 6).elim (d.put SDS_LANE_PRESENT 0 1 l) fun c => (d.put SDS_LANE_PRESENT 0 1 l).put c.2.1 0 1 l) (((wPort 2 5).put SDS_MODE_MAXRATE 0 6).put SDS_MODE_EQ_FAST 0 1)) : Dev).commonRate 0 ({ rates := [1, 2, 3, 4, 5, 6], bypass := false } : CxlTrain).rates = some 6) ∧ (widest ((((List.range 9).foldl (fun d l => (rateCache 6).elim (d.put SDS_LANE_PRESENT 0 1 l) fun c => (d.put SDS_LANE_PRESENT 0 1 l).put c.2.1 0 1 l) (((wPort 2 5).put SDS_MODE_MAXRATE 0 6).put SDS_MODE_EQ_FAST 0 1)) : Dev).trainLanes 0 false ({ rates := [1, 2, 3, 4, 5, 6], bypass := false } : CxlTrain)) = some 4) ∧ ((((List.range 9).foldl (fun d l => (rateCache 6).elim (d.put SDS_LANE_PRESENT 0 1 l) fun c => (d.put SDS_LANE_PRESENT 0 1 l).put c.2.1 0 1 l) (((wPort 2 5).put SDS_MODE_MAXRATE 0 6).put SDS_MODE_EQ_FAST 0 1)) : Dev).cacheOk 0 6 = true)) ∧
    (((.l0Entry 0 ({ rates := [1, 2, 3, 4, 5, 6] } : CxlTrain).rates ({ rates := [1, 2, 3, 4, 5, 6] } : CxlTrain).bypass ({ rates := [1, 2, 3, 4, 5, 6] } : CxlTrain).toCxlLanes : Instr).wf = true) ∧ (((wPort 2 4) : Dev).cxlPort 0 = true) ∧ ((((wPort 2 4) : Dev).port 0).negFail = false) ∧ (List.contains [tsDetect, tsPolling, tsConfig] (((wPort 2 4) : Dev).portState 0) = true)) ∧
    (((.l0Entry 0 ({ rates := [1, 2, 3, 4, 5, 6] } : CxlTrain).rates ({ rates := [1, 2, 3, 4, 5, 6] } : CxlTrain).bypass ({ rates := [1, 2, 3, 4, 5, 6] } : CxlTrain).toCxlLanes : Instr).wf = true) ∧ (((wPort 2 8) : Dev).cxlPort 0 = true) ∧ ((((wPort 2 8) : Dev).port 0).negFail = false) ∧ (((wPort 2 8) : Dev).portState 0 = tsL1 ∨ ((wPort 2 8) : Dev).portState 0 = tsL0p)) ∧
    (((.eqFallback ⟨0, 5⟩ : Instr).wf = true) ∧ (((List.range 9).foldl (fun d l => (rateCache 5).elim d fun c => d.put c.2.1 0 1 l) (((wPort 2 5).put SDS_STAT_RATE_A 0 5).put SDS_MODE_EQ_FAST 0 1) : Dev).cxlPort 0 = true) ∧ (((List.range 9).foldl (fun d l => (rateCache 5).elim d fun c => d.put c.2.1 0 1 l) (((wPort 2 5).put SDS_STAT_RATE_A 0 5).put SDS_MODE_EQ_FAST 0 1) : Dev).cacheOk 0 5 = true) ∧ (List.contains [tsDetect, tsPolling, tsConfig, tsRecovery] (((List.range 9).foldl (fun d l => (rateCache 5).elim d fun c => d.put c.2.1 0 1 l) (((wPort 2 5).put SDS_STAT_RATE_A 0 5).put SDS_MODE_EQ_FAST 0 1) : Dev).portState 0) = true ∨ (((List.range 9).foldl (fun d l => (rateCache 5).elim d fun c => d.put c.2.1 0 1 l) (((wPort 2 5).put SDS_STAT_RATE_A 0 5).put SDS_MODE_EQ_FAST 0 1) : Dev).portState 0 = tsL0 ∧ (((List.range 9).foldl (fun d l => (rateCache 5).elim d fun c => d.put c.2.1 0 1 l) (((wPort 2 5).put SDS_STAT_RATE_A 0 5).put SDS_MODE_EQ_FAST 0 1) : Dev).port 0).cachedEq = true ∧ ((List.range 9).foldl (fun d l => (rateCache 5).elim d fun c => d.put c.2.1 0 1 l) (((wPort 2 5).put SDS_STAT_RATE_A 0 5).put SDS_MODE_EQ_FAST 0 1) : Dev).get (rateFld 0) (0 / 2) = 5))) ∧
    (((.recovery ⟨0, false⟩ : Instr).wf = true) ∧ (((wPort 2 6) : Dev).cxlPort 0 = true) ∧ ([tsL0, tsL0p, tsL1].contains (((wPort 2 6) : Dev).portState 0) = true) ∧ (false = false ∨ ((wPort 2 6) : Dev).carries 0 = false)) ∧
    (((.recovery ⟨0, true⟩ : Instr).wf = true) ∧ (((wPort 2 6) : Dev).carries 0 = true) ∧ (true = true)) ∧
    (((.laneLoss 0 ([0] : List Nat) : Instr).wf = true) ∧ ((((wPort 2 6).put SDS_LANE_LOGICAL 0 0 0) : Dev).cxlPort 0 = true) ∧ (List.contains [tsL0, tsL0p, tsL1, tsRecovery] ((((wPort 2 6).put SDS_LANE_LOGICAL 0 0 0) : Dev).portState 0) = true) ∧ (((((wPort 2 6).put SDS_LANE_LOGICAL 0 0 0) : Dev).lostLanes 0 ([0] : List Nat)).isEmpty = false)) ∧
    (((.l1Entry 0 false : Instr).wf = true) ∧ (((((wPort 2 6).put PRT_STAT_FLIT 0 2).put SDS_PWR_L1_EN 0 1) : Dev).cxlPort 0 = true) ∧ (((((wPort 2 6).put PRT_STAT_FLIT 0 2).put SDS_PWR_L1_EN 0 1) : Dev).portState 0 = tsL0) ∧ (2 ≤ ((((wPort 2 6).put PRT_STAT_FLIT 0 2).put SDS_PWR_L1_EN 0 1) : Dev).get PRT_STAT_FLIT 0) ∧ (false = false) ∧ (((((((wPort 2 6).put PRT_STAT_FLIT 0 2).put SDS_PWR_L1_EN 0 1) : Dev).portOctets 0).all fun o => ((((wPort 2 6).put PRT_STAT_FLIT 0 2).put SDS_PWR_L1_EN 0 1) : Dev).on SDS_PWR_L1_EN o) = true)) ∧
    (((.healthWindow 0 ([] : List Nat) : Instr).wf = true) ∧ ((wUp : Dev).halted = false)) := by
  and_intros <;> decide +kernel

/-- Each hypothesis list of the statement is met by a concrete state and operands. -/
theorem witness_DunrunTrainingCommands :
    (((.trainingControlBlock 0 3 ([0xA1] : Bytes) : Instr).wf = true) ∧ ((((wOct wUp 0 2 10).put SDS_LANE_LOCK 0 1 3) : Dev).halted = false) ∧ ((((wOct wUp 0 2 10).put SDS_LANE_LOCK 0 1 3) : Dev).octMode 0 = 2) ∧ (List.contains [tsDrLock, tsDrTrain, tsDrAlign, tsDrRetrain] ((((wOct wUp 0 2 10).put SDS_LANE_LOCK 0 1 3) : Dev).octState 0) = true) ∧ ((((wOct wUp 0 2 10).put SDS_LANE_LOCK 0 1 3) : Dev).on SDS_LANE_LOCK 0 3 = true) ∧ ((([0xA1] : Bytes).getD 0 0).toNat = 0xA1)) ∧
    (((.laneLock 0 3 (List.replicate 32 syncData : List Nat) : Instr).wf = true) ∧ ((((wOct wUp 0 2 10).put SDS_MODE_POL_AUTO 0 0) : Dev).halted = false) ∧ ((((wOct wUp 0 2 10).put SDS_MODE_POL_AUTO 0 0) : Dev).octMode 0 = 2) ∧ (List.contains [tsDrLock, tsDrTrain, tsDrRetrain, tsDrActive] ((((wOct wUp 0 2 10).put SDS_MODE_POL_AUTO 0 0) : Dev).octState 0) = true) ∧ ((((wOct wUp 0 2 10).put SDS_MODE_POL_AUTO 0 0) : Dev).on SDS_LANE_LOCK 0 3 = false) ∧ ((((wOct wUp 0 2 10).put SDS_MODE_POL_AUTO 0 0) : Dev).laneOff 0 3 = false) ∧ (((((wOct wUp 0 2 10).put SDS_MODE_POL_AUTO 0 0) : Dev).lane 0 3).hunts ((((wOct wUp 0 2 10).put SDS_MODE_POL_AUTO 0 0) : Dev).on SDS_MODE_POL_AUTO 0) ((((wOct wUp 0 2 10).put SDS_MODE_POL_AUTO 0 0) : Dev).on SDS_LANE_POL_INV 0 3) (List.replicate 32 syncData : List Nat) = ((((({} : Lane).hunts false false (List.replicate 32 syncData)).1) : Lane), false)) ∧ (32 ≤ (((({} : Lane).hunts false false (List.replicate 32 syncData)).1) : Lane).run)) ∧
    (((.lockLost 0 3 [(0x77 : Nat)] : Instr).wf = true) ∧ ((((wOct wUp 0 2 13).put SDS_LANE_LOCK 0 1 3).setOctet 0 { lanes := [(3, { hist := List.replicate 7 true })] } : Dev).halted = false) ∧ ((((wOct wUp 0 2 13).put SDS_LANE_LOCK 0 1 3).setOctet 0 { lanes := [(3, { hist := List.replicate 7 true })] } : Dev).octMode 0 = 2) ∧ ((((wOct wUp 0 2 13).put SDS_LANE_LOCK 0 1 3).setOctet 0 { lanes := [(3, { hist := List.replicate 7 true })] } : Dev).on SDS_LANE_LOCK 0 3 = true) ∧ ((((wOct wUp 0 2 13).put SDS_LANE_LOCK 0 1 3).setOctet 0 { lanes := [(3, { hist := List.replicate 7 true })] } : Dev).hdrOk 0 3 (0x77 : Nat) = false) ∧ (7 ≤ ((((((wOct wUp 0 2 13).put SDS_LANE_LOCK 0 1 3).setOctet 0 { lanes := [(3, { hist := List.replicate 7 true })] } : Dev).lane 0 3).hist.take 63).filter id).length)) ∧
    (((.lockLost 0 3 [(syncData : Nat)] : Instr).wf = true) ∧ ((((wOct wUp 0 2 13).put SDS_LANE_LOCK 0 1 3) : Dev).halted = false) ∧ ((((wOct wUp 0 2 13).put SDS_LANE_LOCK 0 1 3) : Dev).octMode 0 = 2) ∧ ((((wOct wUp 0 2 13).put SDS_LANE_LOCK 0 1 3) : Dev).on SDS_LANE_LOCK 0 3 = true) ∧ ((((wOct wUp 0 2 13).put SDS_LANE_LOCK 0 1 3) : Dev).hdrOk 0 3 (syncData : Nat) = true)) ∧
    (((.drLockDone 0 : Instr).wf = true) ∧ (((((List.range 9).foldl (fun d l => d.put SDS_LANE_LOCK 0 1 l) (wOct wUp 0 2 10)).setOctet 0 { lockMask := 511 }) : Dev).halted = false) ∧ (((((List.range 9).foldl (fun d l => d.put SDS_LANE_LOCK 0 1 l) (wOct wUp 0 2 10)).setOctet 0 { lockMask := 511 }) : Dev).octState 0 = tsDrLock) ∧ ((((((List.range 9).foldl (fun d l => d.put SDS_LANE_LOCK 0 1 l) (wOct wUp 0 2 10)).setOctet 0 { lockMask := 511 }) : Dev).lockedLanes 0).length = 9) ∧ (((((List.range 9).foldl (fun d l => d.put SDS_LANE_LOCK 0 1 l) (wOct wUp 0 2 10)).setOctet 0 { lockMask := 511 }) : Dev).peerLocked 0 = 9)) ∧
    (((.drLockTimeout 0 : Instr).wf = true) ∧ (((((List.range 9).foldl (fun d l => d.put SDS_LANE_LOCK 0 1 l) (wOct wUp 0 2 10)).setOctet 0 { lockMask := 15 }) : Dev).halted = false) ∧ (((((List.range 9).foldl (fun d l => d.put SDS_LANE_LOCK 0 1 l) (wOct wUp 0 2 10)).setOctet 0 { lockMask := 15 }) : Dev).octState 0 = tsDrLock) ∧ (4 ≤ (((((List.range 9).foldl (fun d l => d.put SDS_LANE_LOCK 0 1 l) (wOct wUp 0 2 10)).setOctet 0 { lockMask := 15 }) : Dev).lockedLanes 0).length) ∧ (4 ≤ ((((List.range 9).foldl (fun d l => d.put SDS_LANE_LOCK 0 1 l) (wOct wUp 0 2 10)).setOctet 0 { lockMask := 15 }) : Dev).peerLocked 0)) ∧
    (((.drTrainDone 0 : Instr).wf = true) ∧ (((wOct wUp 0 2 11) : Dev).halted = false) ∧ (((wOct wUp 0 2 11) : Dev).octState 0 = tsDrTrain) ∧ (((((wOct wUp 0 2 11) : Dev).lockedLanes 0).all fun l => (((wOct wUp 0 2 11) : Dev).lane 0 l).rxDone && (((wOct wUp 0 2 11) : Dev).lane 0 l).partnerDone) = true)) ∧
    (((.drTrainTimeout 0 : Instr).wf = true) ∧ (((wOct wUp 0 2 11) : Dev).halted = false) ∧ (((wOct wUp 0 2 11) : Dev).octState 0 = tsDrTrain) ∧ ((((wOct wUp 0 2 11) : Dev).octet 0).trainRetry = false)) ∧
    (((.drAlignDone ⟨0, 2048⟩ : Instr).wf = true) ∧ (((((wOct wUp 0 2 12).put SDS_LANE_LOCK 0 1 3).setOctet 0 { lanes := [(3, { laneId := some 3 })] }) : Dev).halted = false) ∧ (((((wOct wUp 0 2 12).put SDS_LANE_LOCK 0 1 3).setOctet 0 { lanes := [(3, { laneId := some 3 })] }) : Dev).octState 0 = tsDrAlign) ∧ (2048 ≤ 2048) ∧ ((((((wOct wUp 0 2 12).put SDS_LANE_LOCK 0 1 3).setOctet 0 { lanes := [(3, { laneId := some 3 })] }) : Dev).lockedLanes 0).isEmpty = false) ∧ (((((wOct wUp 0 2 12).put SDS_LANE_LOCK 0 1 3).setOctet 0 { lanes := [(3, { laneId := some 3 })] }) : Dev).laneOrder 0 = some false)) ∧
    (((.drAlignTimeout 0 : Instr).wf = true) ∧ (((wOct wUp 0 2 12) : Dev).halted = false) ∧ (((wOct wUp 0 2 12) : Dev).octState 0 = tsDrAlign)) ∧
    (((.drRetrainDone 0 : Instr).wf = true) ∧ ((((List.range 4).foldl (fun d l => d.put SDS_LANE_LOCK 0 1 l) (wOct wUp 0 2 14)).setOctet 0 { lockMask := 15 } : Dev).halted = false) ∧ ((((List.range 4).foldl (fun d l => d.put SDS_LANE_LOCK 0 1 l) (wOct wUp 0 2 14)).setOctet 0 { lockMask := 15 } : Dev).octState 0 = tsDrRetrain) ∧ (4 ≤ ((((List.range 4).foldl (fun d l => d.put SDS_LANE_LOCK 0 1 l) (wOct wUp 0 2 14)).setOctet 0 { lockMask := 15 } : Dev).lockedLanes 0).length) ∧ (4 ≤ (((List.range 4).foldl (fun d l => d.put SDS_LANE_LOCK 0 1 l) (wOct wUp 0 2 14)).setOctet 0 { lockMask := 15 } : Dev).peerLocked 0)) ∧
    (((.drRetrainTimeout 0 : Instr).wf = true) ∧ (((wOct wUp 0 2 14) : Dev).halted = false) ∧ (((wOct wUp 0 2 14) : Dev).octState 0 = tsDrRetrain)) := by
  and_intros <;> decide +kernel

/-- Each hypothesis list of the statement is met by a concrete state and operands. -/
theorem witness_MarginCommands :
    (((.marginGo 1 0 : Instr).wf = true) ∧ (((((((wOct wUp 0 2 13).put SDS_LANE_LOCK 0 1 0).put SDS_LANE_SPARE 0 1 0).put SDS_MARGIN_CTL_LANE 0 0).put SDS_MARGIN_CTL_STEPS 0 5) : Dev).Reaches 1 ⟨.sds, 0⟩) ∧ ((((((((wOct wUp 0 2 13).put SDS_LANE_LOCK 0 1 0).put SDS_LANE_SPARE 0 1 0).put SDS_MARGIN_CTL_LANE 0 0).put SDS_MARGIN_CTL_STEPS 0 5) : Dev).octet 0).margin = none) ∧ (((((((wOct wUp 0 2 13).put SDS_LANE_LOCK 0 1 0).put SDS_LANE_SPARE 0 1 0).put SDS_MARGIN_CTL_LANE 0 0).put SDS_MARGIN_CTL_STEPS 0 5) : Dev).halted = false) ∧ ((((((((wOct wUp 0 2 13).put SDS_LANE_LOCK 0 1 0).put SDS_LANE_SPARE 0 1 0).put SDS_MARGIN_CTL_LANE 0 0).put SDS_MARGIN_CTL_STEPS 0 5) : Dev).octet 0).partnerMargin = none) ∧ (((((((wOct wUp 0 2 13).put SDS_LANE_LOCK 0 1 0).put SDS_LANE_SPARE 0 1 0).put SDS_MARGIN_CTL_LANE 0 0).put SDS_MARGIN_CTL_STEPS 0 5) : Dev).marginLaneOk 0 (((((((wOct wUp 0 2 13).put SDS_LANE_LOCK 0 1 0).put SDS_LANE_SPARE 0 1 0).put SDS_MARGIN_CTL_LANE 0 0).put SDS_MARGIN_CTL_STEPS 0 5) : Dev).get SDS_MARGIN_CTL_LANE 0) = true) ∧ (((((((wOct wUp 0 2 13).put SDS_LANE_LOCK 0 1 0).put SDS_LANE_SPARE 0 1 0).put SDS_MARGIN_CTL_LANE 0 0).put SDS_MARGIN_CTL_STEPS 0 5) : Dev).marginSteps 0 = true)) ∧
    (((.marginStop 1 0 : Instr).wf = true) ∧ (((wUp.setOctet 0 { margin := some 2 }) : Dev).Reaches 1 ⟨.sds, 0⟩) ∧ ((((wUp.setOctet 0 { margin := some 2 }) : Dev).octet 0).margin = some 2)) ∧
    (((.partnerMargining 0 ⟨2, (.step false true 63 4)⟩ : Instr).wf = true) ∧ ((((wOct wUp 0 1 6).put SDS_LANE_LOCK 0 1 2) : Dev).halted = false) ∧ ((((wOct wUp 0 1 6).put SDS_LANE_LOCK 0 1 2) : Dev).octMode 0 = 1) ∧ (((((wOct wUp 0 1 6).put SDS_LANE_LOCK 0 1 2) : Dev).octet 0).margin = none) ∧ (((((wOct wUp 0 1 6).put SDS_LANE_LOCK 0 1 2) : Dev).octet 0).partnerMargin = none) ∧ ((((wOct wUp 0 1 6).put SDS_LANE_LOCK 0 1 2) : Dev).marginLaneOk 0 2 = true) ∧ (1 ≤ 63) ∧ (63 ≤ (if false then 127 else 63))) ∧
    (((.partnerMargining 0 ⟨2, .normal⟩ : Instr).wf = true) ∧ ((((wOct wUp 0 1 6).setOctet 0 { partnerMargin := some { lane := 2 } }) : Dev).halted = false) ∧ ((((wOct wUp 0 1 6).setOctet 0 { partnerMargin := some { lane := 2 } }) : Dev).octMode 0 = 1) ∧ (((((wOct wUp 0 1 6).setOctet 0 { partnerMargin := some { lane := 2 } }) : Dev).octet 0).partnerMargin = some ({ lane := 2 } : PMargin)) ∧ (({ lane := 2 } : PMargin).lane = 2)) ∧
    (((.partnerMargining 0 ⟨2, (.report 3)⟩ : Instr).wf = true) ∧ (((wOct wUp 0 1 6) : Dev).halted = false) ∧ (((wOct wUp 0 1 6) : Dev).octMode 0 = 1)) ∧
    (((.marginDwellEnd 0 0 : Instr).wf = true) ∧ ((((wUp.setOctet 0 { margin := some 2 }) : Dev).octet 0).margin = some 2) ∧ (((wUp.setOctet 0 { margin := some 2 }) : Dev).get SDS_MARGIN_STAT_ERRS 0 + 0 < max 1 ((((wUp.setOctet 0 { margin := some 2 }) : Dev).put SDS_MARGIN_STAT_ERRS 0 (min 255 (((wUp.setOctet 0 { margin := some 2 }) : Dev).get SDS_MARGIN_STAT_ERRS 0 + 0))).get SDS_MARGIN_CTL_ERR_LIMIT 0))) ∧
    (((.marginErrLimit 0 : Instr).wf = true) ∧ ((((wUp.setOctet 0 { margin := some 2 }) : Dev).octet 0).margin = some 2)) ∧
    (((.eqCacheWrite 1 0 0 0 : Instr).wf = true) ∧ ((wUp : Dev).Reaches 1 ⟨.sds, 0⟩)) := by
  and_intros
  all_goals first | decide +kernel | exact ⟨by decide +kernel, by decide +kernel⟩

/-- Each hypothesis list of the statement is met by a concrete state and operands. -/
theorem witness_CxlLinkCommands :
    (((.protocolNegotiation 0 17 : Instr).wf = true) ∧ (((wPort 2 4) : Dev).cxlPort 0 = true) ∧ (List.contains [tsDetect, tsPolling, tsConfig] (((wPort 2 4) : Dev).portState 0) = true) ∧ (offers 17 0 = true) ∧ (offers 17 8 = false) ∧ (offers 17 6 = false) ∧ (((wPort 2 4) : Dev).flitMode 0 17 ≠ 0)) ∧
    (((.flitReceive 0 ({} : Flit) : Instr).wf = true) ∧ (((wPort 2 6) : Dev).carries 0 = true) ∧ (({} : Flit).half = 0) ∧ (({} : Flit).corr = []) ∧ (({} : Flit).sync = []) ∧ (({} : Flit).crcOk = true) ∧ (({} : Flit).seq = (((wPort 2 6) : Dev).port 0).rxNext) ∧ ((((wPort 2 6) : Dev).port 0).rxHalf = false)) ∧
    (((.flitReceive 0 ({ crcOk := false } : Flit) : Instr).wf = true) ∧ (((wPort 2 6) : Dev).carries 0 = true) ∧ (({ crcOk := false } : Flit).half = 0) ∧ (({ crcOk := false } : Flit).corr = []) ∧ (({ crcOk := false } : Flit).sync = []) ∧ (({ crcOk := false } : Flit).crcOk = false) ∧ ((((wPort 2 6) : Dev).port 0).rxHold = false)) ∧
    (((.egressStart 0 : Instr).wf = true) ∧ (((wPort 2 6).setPort 0 { tx := [{ cls := 2 }] } : Dev).carries 0 = true) ∧ ((((wPort 2 6).setPort 0 { tx := [{ cls := 2 }] } : Dev).port 0).recallOnly = false) ∧ (((((wPort 2 6).setPort 0 { tx := [{ cls := 2 }] } : Dev).port 0).tx.foldl (fun d m => d.gateNote 0 m) ((wPort 2 6).setPort 0 { tx := [{ cls := 2 }] } : Dev) : Dev) = (((wPort 2 6).setPort 0 { tx := [{ cls := 2 }] } : Dev).port 0).tx.foldl (fun d m => d.gateNote 0 m) ((wPort 2 6).setPort 0 { tx := [{ cls := 2 }] } : Dev)) ∧ (((((wPort 2 6).setPort 0 { tx := [{ cls := 2 }] } : Dev).port 0).tx.foldl (fun d m => d.gateNote 0 m) ((wPort 2 6).setPort 0 { tx := [{ cls := 2 }] } : Dev) : Dev).txPick 0 [] (((wPort 2 6).setPort 0 { tx := [{ cls := 2 }] } : Dev).port 0).tx = some ({ cls := 2 } : Msg)) ∧ ((((((wPort 2 6).setPort 0 { tx := [{ cls := 2 }] } : Dev).port 0).tx.foldl (fun d m => d.gateNote 0 m) ((wPort 2 6).setPort 0 { tx := [{ cls := 2 }] } : Dev) : Dev).modPort 0 (fun x => { x with tx := x.tx.erase ({ cls := 2 } : Msg) })) = ((((wPort 2 6).setPort 0 { tx := [{ cls := 2 }] } : Dev).port 0).tx.foldl (fun d m => d.gateNote 0 m) ((wPort 2 6).setPort 0 { tx := [{ cls := 2 }] } : Dev) : Dev).modPort 0 (fun x => { x with tx := x.tx.erase ({ cls := 2 } : Msg) })) ∧ (ownOp ({ cls := 2 } : Msg).body.op = false) ∧ ((((((wPort 2 6).setPort 0 { tx := [{ cls := 2 }] } : Dev).port 0).tx.foldl (fun d m => d.gateNote 0 m) ((wPort 2 6).setPort 0 { tx := [{ cls := 2 }] } : Dev) : Dev).modPort 0 (fun x => { x with tx := x.tx.erase ({ cls := 2 } : Msg) })).ldLacks 0 ({ cls := 2 } : Msg) = false) ∧ (({ cls := 2 } : Msg).body.op ≠ .fnMsi) ∧ (({ cls := 2 } : Msg).asks = false)) ∧
    (((.egressStart 0 : Instr).wf = true) ∧ (((wPort 2 6).setPort 0 { tx := [{ cls := 1, body := { op := .memRdData } }] } : Dev).carries 0 = true) ∧ ((((wPort 2 6).setPort 0 { tx := [{ cls := 1, body := { op := .memRdData } }] } : Dev).port 0).recallOnly = false) ∧ (((((wPort 2 6).setPort 0 { tx := [{ cls := 1, body := { op := .memRdData } }] } : Dev).port 0).tx.foldl (fun d m => d.gateNote 0 m) ((wPort 2 6).setPort 0 { tx := [{ cls := 1, body := { op := .memRdData } }] } : Dev) : Dev) = (((wPort 2 6).setPort 0 { tx := [{ cls := 1, body := { op := .memRdData } }] } : Dev).port 0).tx.foldl (fun d m => d.gateNote 0 m) ((wPort 2 6).setPort 0 { tx := [{ cls := 1, body := { op := .memRdData } }] } : Dev)) ∧ (((((wPort 2 6).setPort 0 { tx := [{ cls := 1, body := { op := .memRdData } }] } : Dev).port 0).tx.foldl (fun d m => d.gateNote 0 m) ((wPort 2 6).setPort 0 { tx := [{ cls := 1, body := { op := .memRdData } }] } : Dev) : Dev).txPick 0 [] (((wPort 2 6).setPort 0 { tx := [{ cls := 1, body := { op := .memRdData } }] } : Dev).port 0).tx = some ({ cls := 1, body := { op := .memRdData } } : Msg)) ∧ ((((((wPort 2 6).setPort 0 { tx := [{ cls := 1, body := { op := .memRdData } }] } : Dev).port 0).tx.foldl (fun d m => d.gateNote 0 m) ((wPort 2 6).setPort 0 { tx := [{ cls := 1, body := { op := .memRdData } }] } : Dev) : Dev).modPort 0 (fun x => { x with tx := x.tx.erase ({ cls := 1, body := { op := .memRdData } } : Msg) })) = ((((wPort 2 6).setPort 0 { tx := [{ cls := 1, body := { op := .memRdData } }] } : Dev).port 0).tx.foldl (fun d m => d.gateNote 0 m) ((wPort 2 6).setPort 0 { tx := [{ cls := 1, body := { op := .memRdData } }] } : Dev) : Dev).modPort 0 (fun x => { x with tx := x.tx.erase ({ cls := 1, body := { op := .memRdData } } : Msg) })) ∧ (ownOp ({ cls := 1, body := { op := .memRdData } } : Msg).body.op = false) ∧ ((((((wPort 2 6).setPort 0 { tx := [{ cls := 1, body := { op := .memRdData } }] } : Dev).port 0).tx.foldl (fun d m => d.gateNote 0 m) ((wPort 2 6).setPort 0 { tx := [{ cls := 1, body := { op := .memRdData } }] } : Dev) : Dev).modPort 0 (fun x => { x with tx := x.tx.erase ({ cls := 1, body := { op := .memRdData } } : Msg) })).ldLacks 0 ({ cls := 1, body := { op := .memRdData } } : Msg) = false) ∧ (({ cls := 1, body := { op := .memRdData } } : Msg).body.op ≠ .fnMsi) ∧ (({ cls := 1, body := { op := .memRdData } } : Msg).asks = true)) ∧
    (((.egressStart 0 : Instr).wf = true) ∧ (((wPort 2 6).setPort 0 { tx := [{ cls := 2, body := { op := .fnMsi } }] } : Dev).carries 0 = true) ∧ ((((wPort 2 6).setPort 0 { tx := [{ cls := 2, body := { op := .fnMsi } }] } : Dev).port 0).recallOnly = false) ∧ (((((wPort 2 6).setPort 0 { tx := [{ cls := 2, body := { op := .fnMsi } }] } : Dev).port 0).tx.foldl (fun d m => d.gateNote 0 m) ((wPort 2 6).setPort 0 { tx := [{ cls := 2, body := { op := .fnMsi } }] } : Dev) : Dev) = (((wPort 2 6).setPort 0 { tx := [{ cls := 2, body := { op := .fnMsi } }] } : Dev).port 0).tx.foldl (fun d m => d.gateNote 0 m) ((wPort 2 6).setPort 0 { tx := [{ cls := 2, body := { op := .fnMsi } }] } : Dev)) ∧ (((((wPort 2 6).setPort 0 { tx := [{ cls := 2, body := { op := .fnMsi } }] } : Dev).port 0).tx.foldl (fun d m => d.gateNote 0 m) ((wPort 2 6).setPort 0 { tx := [{ cls := 2, body := { op := .fnMsi } }] } : Dev) : Dev).txPick 0 [] (((wPort 2 6).setPort 0 { tx := [{ cls := 2, body := { op := .fnMsi } }] } : Dev).port 0).tx = some ({ cls := 2, body := { op := .fnMsi } } : Msg)) ∧ ((((((wPort 2 6).setPort 0 { tx := [{ cls := 2, body := { op := .fnMsi } }] } : Dev).port 0).tx.foldl (fun d m => d.gateNote 0 m) ((wPort 2 6).setPort 0 { tx := [{ cls := 2, body := { op := .fnMsi } }] } : Dev) : Dev).modPort 0 (fun x => { x with tx := x.tx.erase ({ cls := 2, body := { op := .fnMsi } } : Msg) })) = ((((wPort 2 6).setPort 0 { tx := [{ cls := 2, body := { op := .fnMsi } }] } : Dev).port 0).tx.foldl (fun d m => d.gateNote 0 m) ((wPort 2 6).setPort 0 { tx := [{ cls := 2, body := { op := .fnMsi } }] } : Dev) : Dev).modPort 0 (fun x => { x with tx := x.tx.erase ({ cls := 2, body := { op := .fnMsi } } : Msg) })) ∧ (ownOp ({ cls := 2, body := { op := .fnMsi } } : Msg).body.op = false) ∧ ((((((wPort 2 6).setPort 0 { tx := [{ cls := 2, body := { op := .fnMsi } }] } : Dev).port 0).tx.foldl (fun d m => d.gateNote 0 m) ((wPort 2 6).setPort 0 { tx := [{ cls := 2, body := { op := .fnMsi } }] } : Dev) : Dev).modPort 0 (fun x => { x with tx := x.tx.erase ({ cls := 2, body := { op := .fnMsi } } : Msg) })).ldLacks 0 ({ cls := 2, body := { op := .fnMsi } } : Msg) = false) ∧ (({ cls := 2, body := { op := .fnMsi } } : Msg).body.op = .fnMsi)) ∧
    (((.egressStart 0 : Instr).wf = true) ∧ (((wPort 2 6).setPort 0 { tx := [{ body := { op := .gpfAsk } }] } : Dev).carries 0 = true) ∧ ((((wPort 2 6).setPort 0 { tx := [{ body := { op := .gpfAsk } }] } : Dev).port 0).recallOnly = false) ∧ (((((wPort 2 6).setPort 0 { tx := [{ body := { op := .gpfAsk } }] } : Dev).port 0).tx.foldl (fun d m => d.gateNote 0 m) ((wPort 2 6).setPort 0 { tx := [{ body := { op := .gpfAsk } }] } : Dev) : Dev) = (((wPort 2 6).setPort 0 { tx := [{ body := { op := .gpfAsk } }] } : Dev).port 0).tx.foldl (fun d m => d.gateNote 0 m) ((wPort 2 6).setPort 0 { tx := [{ body := { op := .gpfAsk } }] } : Dev)) ∧ (((((wPort 2 6).setPort 0 { tx := [{ body := { op := .gpfAsk } }] } : Dev).port 0).tx.foldl (fun d m => d.gateNote 0 m) ((wPort 2 6).setPort 0 { tx := [{ body := { op := .gpfAsk } }] } : Dev) : Dev).txPick 0 [] (((wPort 2 6).setPort 0 { tx := [{ body := { op := .gpfAsk } }] } : Dev).port 0).tx = some ({ body := { op := .gpfAsk } } : Msg)) ∧ ((((((wPort 2 6).setPort 0 { tx := [{ body := { op := .gpfAsk } }] } : Dev).port 0).tx.foldl (fun d m => d.gateNote 0 m) ((wPort 2 6).setPort 0 { tx := [{ body := { op := .gpfAsk } }] } : Dev) : Dev).modPort 0 (fun x => { x with tx := x.tx.erase ({ body := { op := .gpfAsk } } : Msg) })) = ((((wPort 2 6).setPort 0 { tx := [{ body := { op := .gpfAsk } }] } : Dev).port 0).tx.foldl (fun d m => d.gateNote 0 m) ((wPort 2 6).setPort 0 { tx := [{ body := { op := .gpfAsk } }] } : Dev) : Dev).modPort 0 (fun x => { x with tx := x.tx.erase ({ body := { op := .gpfAsk } } : Msg) })) ∧ (ownOp ({ body := { op := .gpfAsk } } : Msg).body.op = true)) ∧
    (((.ideKeySwitch 0 : Instr).wf = true) ∧ ((((wUp.put PRT_STAT_IDE_ACT 0 1).setPort 0 { keyPend := true }) : Dev).on PRT_STAT_IDE_ACT 0 = true) ∧ (((((wUp.put PRT_STAT_IDE_ACT 0 1).setPort 0 { keyPend := true }) : Dev).port 0).keyPend = true)) ∧
    (((.linkDown 0 : Instr).wf = true) ∧ (((wPort 2 6) : Dev).cxlPort 0 = true) ∧ (((wPort 2 6) : Dev).on PRT_STAT_DL_ACTIVE 0 = true) ∧ ((((wPort 2 6) : Dev).port 0).resetting = false)) ∧
    (((.cplTimeout 0 3 : Instr).wf = true) ∧ ((((wUp.setPort 0 { outst := [{ tag := 3, m := {} }] }) : Dev).port 0).outst.find? (·.tag = 3) = some ({ tag := 3, m := {} } : Outst)) ∧ (((wUp.setPort 0 { outst := [{ tag := 3, m := {} }] }) : Dev).halted = false)) := by
  and_intros
  all_goals first | decide +kernel | rfl

/-- Each hypothesis list of the statement is met by a concrete state and operands. -/
theorem witness_PortResetCommands :
    (((.gpfPhase 0 1 : Instr).wf = true) ∧ (((wPort 1 6) : Dev).carries 0 = true) ∧ (((wPort 1 6) : Dev).isUp 0 = true) ∧ (1 = 1) ∧ ((((wPort 1 6) : Dev).port 0).gpf = none) ∧ (((wPort 1 6) : Dev).flushing = false)) ∧
    (((.gpfPhase 0 2 : Instr).wf = true) ∧ (((wPort 1 6) : Dev).carries 0 = true) ∧ (((wPort 1 6) : Dev).isUp 0 = true) ∧ (2 = 2) ∧ ((((wPort 1 6) : Dev).port 0).gpf = none) ∧ (((wPort 1 6) : Dev).flushing = false)) ∧
    (((.gpfAnswer 0 : Instr).wf = true) ∧ ((((wPort 2 6).setPort 0 { gpfAsk := [(1, 5)] }) : Dev).halted = false) ∧ ((((wPort 2 6).setPort 0 { gpfAsk := [(1, 5)] }) : Dev).isDown 0 = true) ∧ (((((wPort 2 6).setPort 0 { gpfAsk := [(1, 5)] }) : Dev).port 0).gpfAsk = (1, 5) :: ([] : List (Nat × Nat))) ∧ (5 < 128)) ∧
    (((.gpfTimeout 0 : Instr).wf = true) ∧ ((wUp.setPort 0 { gpf := some { phase := 1, ports := [4], lds := [] } } : Dev).isDown 0 = false) ∧ (((wUp.setPort 0 { gpf := some { phase := 1, ports := [4], lds := [] } } : Dev).port 0).gpf = some ({ phase := 1, ports := [4], lds := [] } : Gpf)) ∧ (({ phase := 1, ports := [4], lds := [] } : Gpf).ports.isEmpty = false ∨ ({ phase := 1, ports := [4], lds := [] } : Gpf).remote.isEmpty = false)) ∧
    (((.gpfTimeout 0 : Instr).wf = true) ∧ ((wPort 2 6 : Dev).isDown 0 = true)) ∧
    (((.perstInAssert 0 : Instr).wf = true) ∧ (bit ((wUp : Dev).get CKR_INSTAT0_PERST_IN) 0 = false)) ∧
    (((.perstInDeassert 0 : Instr).wf = true) ∧ (bit (((wUp.put CKR_INSTAT0_PERST_IN 0 1) : Dev).get CKR_INSTAT0_PERST_IN) 0 = true)) ∧
    (((.perstOutDelay 0 : Instr).wf = true) ∧ (((wUp.put SPU_STAT_PG 0 1) : Dev).on SPU_STAT_PG (((wUp.put SPU_STAT_PG 0 1) : Dev).get PRT_PERST_SLOT 0) = true)) ∧
    (((.perstOutHold 0 : Instr).wf = true) ∧ ((((wUp.setPort 0 { perstMin := true }) : Dev).port 0).perstMin = true)) ∧
    (((.hotResetReceived 0 : Instr).wf = true) ∧ ((((wPort 1 6).put PRT_STAT_LINK_UP 0 1) : Dev).cxlPort 0 = true) ∧ ((((wPort 1 6).put PRT_STAT_LINK_UP 0 1) : Dev).isUp 0 = true) ∧ ((((wPort 1 6).put PRT_STAT_LINK_UP 0 1) : Dev).on PRT_STAT_LINK_UP 0 = true) ∧ (((((wPort 1 6).put PRT_STAT_LINK_UP 0 1) : Dev).port 0).gpf = none)) ∧
    (((.hotReset 1 0 : Instr).wf = true) ∧ (((wPort 2 6) : Dev).Reaches 1 ⟨.prt, 0⟩) ∧ (((wPort 2 6) : Dev).cxlPort 0 = true) ∧ (((wPort 2 6) : Dev).isDown 0 = true)) ∧
    (((.hotResetTimeout 0 : Instr).wf = true) ∧ ((((wPort 2 6).setPort 0 { hotSent := true }) : Dev).cxlPort 0 = true) ∧ (((((wPort 2 6).setPort 0 { hotSent := true }) : Dev).port 0).hotSent = true)) ∧
    (((.retrain 1 0 : Instr).wf = true) ∧ (((wPort 2 6) : Dev).Reaches 1 ⟨.prt, 0⟩) ∧ (((wPort 2 6) : Dev).cxlPort 0 = true) ∧ ([tsL0, tsL0p, tsL1].contains (((wPort 2 6) : Dev).portState 0) = true)) ∧
    (((.disable 1 0 : Instr).wf = true) ∧ (((wPort 2 6) : Dev).Reaches 1 ⟨.prt, 0⟩) ∧ (((wPort 2 6) : Dev).portDunrun 0 = false) ∧ (((wPort 2 6) : Dev).on PRT_LINKCTL_DISABLE 0 = false) ∧ (((wPort 2 6) : Dev).cxlPort 0 = true) ∧ ((((wPort 2 6) : Dev).put PRT_LINKCTL_DISABLE 0 1).cxlPort 0 = true)) ∧
    (((.disableClear 1 0 : Instr).wf = true) ∧ ((((wPort 2 6).put PRT_LINKCTL_DISABLE 0 1) : Dev).Reaches 1 ⟨.prt, 0⟩) ∧ ((((wPort 2 6).put PRT_LINKCTL_DISABLE 0 1) : Dev).portDunrun 0 = false) ∧ ((((wPort 2 6).put PRT_LINKCTL_DISABLE 0 1) : Dev).on PRT_LINKCTL_DISABLE 0 = true) ∧ (((((wPort 2 6).put PRT_LINKCTL_DISABLE 0 1) : Dev).port 0).resetting = false)) := by
  and_intros
  all_goals first | decide +kernel | exact ⟨by decide +kernel, by decide +kernel⟩

/-- Each hypothesis list of the statement is met by a concrete state and operands. -/
theorem witness_DunrunReceiveCommands :
    (((.dunrunBlock 0 2 (List.replicate 256 0 : Bytes) : Instr).wf = true) ∧ ((((wLink 3).put SDS_LANE_LOCK 0 1 2) : Dev).halted = false) ∧ ((((wLink 3).put SDS_LANE_LOCK 0 1 2) : Dev).linkAvail 0 = true) ∧ ((((wLink 3).put SDS_LANE_LOCK 0 1 2) : Dev).octState ((((wLink 3).put SDS_LANE_LOCK 0 1 2) : Dev).lkOctet 0) = tsDrActive) ∧ ((((wLink 3).put SDS_LANE_LOCK 0 1 2) : Dev).get SDS_LANE_LOCK ((((wLink 3).put SDS_LANE_LOCK 0 1 2) : Dev).lkOctet 0) 2 ≠ 0) ∧ ((List.replicate 256 0 : Bytes).length = 256) ∧ (blockCorrect (if (((wLink 3).put SDS_LANE_LOCK 0 1 2) : Dev).on SDS_LANE_POL_INV ((((wLink 3).put SDS_LANE_LOCK 0 1 2) : Dev).lkOctet 0) 2 then (List.replicate 256 0 : Bytes).map fun y => y ^^^ 0xAA else (List.replicate 256 0 : Bytes)) = some ((List.replicate 256 0 : Bytes), 0))) ∧
    (((.dunrunBlock 0 2 ([1, 0, 0, 1] ++ List.replicate 252 0 : Bytes) : Instr).wf = true) ∧ ((((wLink 3).put SDS_LANE_LOCK 0 1 2) : Dev).halted = false) ∧ ((((wLink 3).put SDS_LANE_LOCK 0 1 2) : Dev).linkAvail 0 = true) ∧ ((((wLink 3).put SDS_LANE_LOCK 0 1 2) : Dev).octState ((((wLink 3).put SDS_LANE_LOCK 0 1 2) : Dev).lkOctet 0) = tsDrActive) ∧ ((((wLink 3).put SDS_LANE_LOCK 0 1 2) : Dev).get SDS_LANE_LOCK ((((wLink 3).put SDS_LANE_LOCK 0 1 2) : Dev).lkOctet 0) 2 ≠ 0) ∧ (([1, 0, 0, 1] ++ List.replicate 252 0 : Bytes).length = 256) ∧ (blockCorrect (if (((wLink 3).put SDS_LANE_LOCK 0 1 2) : Dev).on SDS_LANE_POL_INV ((((wLink 3).put SDS_LANE_LOCK 0 1 2) : Dev).lkOctet 0) 2 then ([1, 0, 0, 1] ++ List.replicate 252 0 : Bytes).map fun y => y ^^^ 0xAA else ([1, 0, 0, 1] ++ List.replicate 252 0 : Bytes)) = none)) ∧
    (((.messagePacket 0 : Instr).wf = true) ∧ (((wRx ((1 :: List.replicate 83 0))) : Dev).front 0 = some ((1 :: List.replicate 83 0) : Bytes)) ∧ (((wRx ((1 :: List.replicate 83 0))) : Dev).halted = false) ∧ (pktType ((1 :: List.replicate 83 0) : Bytes) = 0x1) ∧ ((((wRx ((1 :: List.replicate 83 0))) : Dev).popFront 0 ((1 :: List.replicate 83 0) : Bytes)).pktNow 0 0x1 = true) ∧ ((((wRx ((1 :: List.replicate 83 0))) : Dev).popFront 0 ((1 :: List.replicate 83 0) : Bytes)).encOn 0 = false)) ∧
    (((.messagePacket 0 : Instr).wf = true) ∧ (((wRx (0x01 :: 1 :: List.replicate 98 0)).put DEV_FABRIC_DEVID 0 5 : Dev).front 0 = none) ∧ (((wRx (0x01 :: 1 :: List.replicate 98 0)).put DEV_FABRIC_DEVID 0 5 : Dev).halted = false) ∧ ((0x01 :: 1 :: List.replicate 98 0 : Bytes) = ((wRx (0x01 :: 1 :: List.replicate 98 0)).put DEV_FABRIC_DEVID 0 5 : Dev).rxBytes 0) ∧ (pktHead (0x01 :: 1 :: List.replicate 98 0 : Bytes) + 64 ≤ (0x01 :: 1 :: List.replicate 98 0 : Bytes).length) ∧ (1 = min (fld (pktNat (0x01 :: 1 :: List.replicate 98 0 : Bytes)) 8 3) (((0x01 :: 1 :: List.replicate 98 0 : Bytes).length - pktHead (0x01 :: 1 :: List.replicate 98 0 : Bytes)) / 64)) ∧ (1 ≠ 0) ∧ (pktType (0x01 :: 1 :: List.replicate 98 0 : Bytes) = 0x1) ∧ (((wRx (0x01 :: 1 :: List.replicate 98 0)).put DEV_FABRIC_DEVID 0 5 : Dev).pktNow 0 0x1 = true) ∧ (((wRx (0x01 :: 1 :: List.replicate 98 0)).put DEV_FABRIC_DEVID 0 5 : Dev).encRx 0 = false) ∧ ((((wRx (0x01 :: 1 :: List.replicate 98 0)).put DEV_FABRIC_DEVID 0 5 : Dev).link 0).openMsg = false) ∧ ((((wRx (0x01 :: 1 :: List.replicate 98 0)).put DEV_FABRIC_DEVID 0 5 : Dev).packetMsg 0 (0x01 :: 1 :: List.replicate 98 0 : Bytes)).seq = ((wRx (0x01 :: 1 :: List.replicate 98 0)).put DEV_FABRIC_DEVID 0 5 : Dev).rxE 0) ∧ ((((wRx (0x01 :: 1 :: List.replicate 98 0)).put DEV_FABRIC_DEVID 0 5 : Dev).link 0).stall.contains (((wRx (0x01 :: 1 :: List.replicate 98 0)).put DEV_FABRIC_DEVID 0 5 : Dev).packetMsg 0 (0x01 :: 1 :: List.replicate 98 0 : Bytes)).seq = false) ∧ (((wRx (0x01 :: 1 :: List.replicate 98 0)).put DEV_FABRIC_DEVID 0 5 : Dev).cutThrough 0 (((wRx (0x01 :: 1 :: List.replicate 98 0)).put DEV_FABRIC_DEVID 0 5 : Dev).packetMsg 0 (0x01 :: 1 :: List.replicate 98 0 : Bytes)) = true)) ∧
    (((.messagePacket 0 : Instr).wf = true) ∧ ((((wRx (0x01 :: 1 :: List.replicate 98 0)).put DEV_FABRIC_DEVID 0 5).modLink 0 fun l => { l with openMsg := true } : Dev).front 0 = none) ∧ ((((wRx (0x01 :: 1 :: List.replicate 98 0)).put DEV_FABRIC_DEVID 0 5).modLink 0 fun l => { l with openMsg := true } : Dev).halted = false) ∧ ((0x01 :: 1 :: List.replicate 98 0 : Bytes) = (((wRx (0x01 :: 1 :: List.replicate 98 0)).put DEV_FABRIC_DEVID 0 5).modLink 0 fun l => { l with openMsg := true } : Dev).rxBytes 0) ∧ (pktHead (0x01 :: 1 :: List.replicate 98 0 : Bytes) + 64 ≤ (0x01 :: 1 :: List.replicate 98 0 : Bytes).length) ∧ (1 = min (fld (pktNat (0x01 :: 1 :: List.replicate 98 0 : Bytes)) 8 3) (((0x01 :: 1 :: List.replicate 98 0 : Bytes).length - pktHead (0x01 :: 1 :: List.replicate 98 0 : Bytes)) / 64)) ∧ (1 ≠ 0) ∧ (pktType (0x01 :: 1 :: List.replicate 98 0 : Bytes) = 0x1) ∧ ((((wRx (0x01 :: 1 :: List.replicate 98 0)).put DEV_FABRIC_DEVID 0 5).modLink 0 fun l => { l with openMsg := true } : Dev).pktNow 0 0x1 = true) ∧ ((((wRx (0x01 :: 1 :: List.replicate 98 0)).put DEV_FABRIC_DEVID 0 5).modLink 0 fun l => { l with openMsg := true } : Dev).encRx 0 = false) ∧ (((((wRx (0x01 :: 1 :: List.replicate 98 0)).put DEV_FABRIC_DEVID 0 5).modLink 0 fun l => { l with openMsg := true } : Dev).link 0).openMsg = true) ∧ (((((wRx (0x01 :: 1 :: List.replicate 98 0)).put DEV_FABRIC_DEVID 0 5).modLink 0 fun l => { l with openMsg := true } : Dev).packetMsg 0 (0x01 :: 1 :: List.replicate 98 0 : Bytes)).seq = (((wRx (0x01 :: 1 :: List.replicate 98 0)).put DEV_FABRIC_DEVID 0 5).modLink 0 fun l => { l with openMsg := true } : Dev).rxE 0) ∧ (((((wRx (0x01 :: 1 :: List.replicate 98 0)).put DEV_FABRIC_DEVID 0 5).modLink 0 fun l => { l with openMsg := true } : Dev).link 0).stall.contains ((((wRx (0x01 :: 1 :: List.replicate 98 0)).put DEV_FABRIC_DEVID 0 5).modLink 0 fun l => { l with openMsg := true } : Dev).packetMsg 0 (0x01 :: 1 :: List.replicate 98 0 : Bytes)).seq = false)) ∧
    (((.ack 0 : Instr).wf = true) ∧ (((wRx (wPkt 8 0)) : Dev).Packet 0 0x8 0 (wPkt 8 0 : Bytes))) ∧
    (((.nak 0 : Instr).wf = true) ∧ (((wRx (wPkt 8 1)) : Dev).Packet 0 0x8 1 (wPkt 8 1 : Bytes))) ∧
    (((.credit 0 : Instr).wf = true) ∧ (((wRx (wPkt 9 0)) : Dev).front 0 = some (wPkt 9 0 : Bytes)) ∧ (((wRx (wPkt 9 0)) : Dev).halted = false) ∧ (pktType (wPkt 9 0 : Bytes) = 0x9) ∧ ((((wRx (wPkt 9 0)) : Dev).popFront 0 (wPkt 9 0 : Bytes)).pktNow 0 0x9 = true) ∧ ((((wRx (wPkt 9 0)) : Dev).popFront 0 (wPkt 9 0 : Bytes)).encOn 0 = false)) ∧
    (((.init 0 : Instr).wf = true) ∧ (((wRx (wPkt 10 0)) : Dev).front 0 = some (wPkt 10 0 : Bytes)) ∧ (((wRx (wPkt 10 0)) : Dev).halted = false) ∧ (pktType (wPkt 10 0 : Bytes) = 0xA) ∧ (pktSub (wPkt 10 0 : Bytes) = 0) ∧ ((((wRx (wPkt 10 0)) : Dev).popFront 0 (wPkt 10 0 : Bytes)).pktNow 0 0xA = true) ∧ ((((wRx (wPkt 10 0)) : Dev).popFront 0 (wPkt 10 0 : Bytes)).encOn 0 = false)) ∧
    (((.initAck 0 : Instr).wf = true) ∧ (((wRx (wPkt 10 1)) : Dev).front 0 = some (wPkt 10 1 : Bytes)) ∧ (((wRx (wPkt 10 1)) : Dev).halted = false) ∧ (pktType (wPkt 10 1 : Bytes) = 0xA) ∧ (pktSub (wPkt 10 1 : Bytes) = 1) ∧ ((((wRx (wPkt 10 1)) : Dev).popFront 0 (wPkt 10 1 : Bytes)).pktNow 0 0xA = true) ∧ ((((wRx (wPkt 10 1)) : Dev).popFront 0 (wPkt 10 1 : Bytes)).encOn 0 = false)) := by
  and_intros
  all_goals first | decide +kernel | rfl | exact ⟨by decide +kernel, by decide +kernel, by decide +kernel, by decide +kernel, by decide +kernel, by decide +kernel, by decide +kernel⟩

/-- Each hypothesis list of the statement is met by a concrete state and operands. -/
theorem witness_DunrunControlPacketCommands :
    (((.spareReq 0 : Instr).wf = true) ∧ (((wRx (wPkt 11 0)) : Dev).Packet 0 0xB 0 (wPkt 11 0 : Bytes))) ∧
    (((.spareAck 0 : Instr).wf = true) ∧ (((wRx (wPkt 11 1)) : Dev).Packet 0 0xB 1 (wPkt 11 1 : Bytes))) ∧
    (((.spareDone 0 : Instr).wf = true) ∧ (((wRx (wPkt 11 2)) : Dev).Packet 0 0xB 2 (wPkt 11 2 : Bytes))) ∧
    (((.spareNack 0 : Instr).wf = true) ∧ (((wRx (wPkt 11 3)) : Dev).Packet 0 0xB 3 (wPkt 11 3 : Bytes))) ∧
    (((.timeReq 0 : Instr).wf = true) ∧ (((wRx (wPkt 12 0)) : Dev).Packet 0 0xC 0 (wPkt 12 0 : Bytes))) ∧
    (((.timeResp 0 : Instr).wf = true) ∧ (((wRx (wPkt 12 1)) : Dev).Packet 0 0xC 1 (wPkt 12 1 : Bytes))) ∧
    (((.timeFollow 0 : Instr).wf = true) ∧ (((wRx (wPkt 12 2)) : Dev).Packet 0 0xC 2 (wPkt 12 2 : Bytes))) ∧
    (((.crumb 0 : Instr).wf = true) ∧ (((wRx (wPkt 13 0)) : Dev).Packet 0 0xD 0 (wPkt 13 0 : Bytes))) ∧
    (((.routeWithdraw 0 : Instr).wf = true) ∧ (((wRx (wPkt 14 0)) : Dev).Packet 0 0xE 0 (wPkt 14 0 : Bytes))) ∧
    (((.routeRestore 0 : Instr).wf = true) ∧ (((wRx (wPkt 14 1)) : Dev).Packet 0 0xE 1 (wPkt 14 1 : Bytes))) ∧
    (((.secMac 0 : Instr).wf = true) ∧ (((wRx (wPkt 15 0)) : Dev).front 0 = some (wPkt 15 0 : Bytes)) ∧ (((wRx (wPkt 15 0)) : Dev).halted = false) ∧ (pktType (wPkt 15 0 : Bytes) = 0xF) ∧ (pktSub (wPkt 15 0 : Bytes) = 0) ∧ ((((wRx (wPkt 15 0)) : Dev).popFront 0 (wPkt 15 0 : Bytes)).pktNow 0 0xF = true)) ∧
    (((.keySwitch 0 : Instr).wf = true) ∧ (((wRx (wPkt 15 1)) : Dev).front 0 = some (wPkt 15 1 : Bytes)) ∧ (((wRx (wPkt 15 1)) : Dev).halted = false) ∧ (pktType (wPkt 15 1 : Bytes) = 0xF) ∧ (pktSub (wPkt 15 1 : Bytes) = 1) ∧ ((((wRx (wPkt 15 1)) : Dev).popFront 0 (wPkt 15 1 : Bytes)).pktNow 0 0xF = true)) := by
  and_intros
  all_goals first | decide +kernel | exact ⟨by decide +kernel, by decide +kernel, by decide +kernel, by decide +kernel, by decide +kernel, by decide +kernel, by decide +kernel⟩

/-- Each hypothesis list of the statement is met by a concrete state and operands. -/
theorem witness_DunrunSendCommands :
    (((.drlAttach 1 31 63 true : Instr).wf = true) ∧ ((wUp : Dev).Reaches 1 ⟨.drl, 31⟩) ∧ ((wUp : Dev).locked ⟨.drl, 31⟩ = false) ∧ ((wUp : Dev).on (PGCTL_ENABLE .drl) 31 = false) ∧ (((List.range 32).any fun j => j ≠ 31 && (wUp : Dev).on DRL_ATTACH_VALID j && (wUp : Dev).get DRL_ATTACH_OCTET j = 63) = false)) ∧
    (((.linkInit 0 : Instr).wf = true) ∧ ((((wLink 0).put (PGCTL_ENABLE .drl) 0 1) : Dev).halted = false) ∧ ((((wLink 0).put (PGCTL_ENABLE .drl) 0 1) : Dev).lkState 0 = lkDown) ∧ ((((wLink 0).put (PGCTL_ENABLE .drl) 0 1) : Dev).linkAvail 0 = true) ∧ ((((wLink 0).put (PGCTL_ENABLE .drl) 0 1) : Dev).on (PGCTL_ENABLE .drl) 0 = true) ∧ ((((wLink 0).put (PGCTL_ENABLE .drl) 0 1) : Dev).quarantined (.link 0) = false) ∧ ((((wLink 0).put (PGCTL_ENABLE .drl) 0 1) : Dev).octState ((((wLink 0).put (PGCTL_ENABLE .drl) 0 1) : Dev).lkOctet 0) = tsDrActive)) ∧
    (((.initResend 0 : Instr).wf = true) ∧ (((wLink 1) : Dev).halted = false) ∧ (((wLink 1) : Dev).lkState 0 = lkInit ∨ ((wLink 1) : Dev).lkState 0 = lkKeywait)) ∧
    (((.nakResend 0 : Instr).wf = true) ∧ ((((wLink 3).setLink 0 { nakOut := true }) : Dev).lkActiveNow 0 = true) ∧ (((((wLink 3).setLink 0 { nakOut := true }) : Dev).link 0).nakOut = true)) ∧
    (((.ackNsTimer 0 : Instr).wf = true) ∧ ((((wLink 3).setLink 0 { accSinceAck := 1 }) : Dev).lkActiveNow 0 = true) ∧ (0 < ((((wLink 3).setLink 0 { accSinceAck := 1 }) : Dev).link 0).accSinceAck)) ∧
    (((.ackIdleTimer 0 : Instr).wf = true) ∧ (((wLink 3) : Dev).lkActiveNow 0 = true)) ∧
    (((.replayTimeout 0 : Instr).wf = true) ∧ (((wLink 3) : Dev).lkActiveNow 0 = true)) ∧
    (((.liveTimeout 0 : Instr).wf = true) ∧ (((wLink 3) : Dev).lkActiveNow 0 = true)) ∧
    (((.messagePacketSend 0 : Instr).wf = true) ∧ ((((((wLink 3).setLink 0 { limit := [(0, 8)] }).setPort 0 { tx := [{}] }) : Dev).port (((((wLink 3).setLink 0 { limit := [(0, 8)] }).setPort 0 { tx := [{}] }) : Dev).linkPort 0)).tx = ({} : Msg) :: ([] : List Msg)) ∧ (((((wLink 3).setLink 0 { limit := [(0, 8)] }).setPort 0 { tx := [{}] }) : Dev).lkActiveNow 0 = true) ∧ ((((((wLink 3).setLink 0 { limit := [(0, 8)] }).setPort 0 { tx := [{}] }) : Dev).txN 0 + 4096 - ((((wLink 3).setLink 0 { limit := [(0, 8)] }).setPort 0 { tx := [{}] }) : Dev).txU 0) % 4096 < 2048) ∧ (((((wLink 3).setLink 0 { limit := [(0, 8)] }).setPort 0 { tx := [{}] }) : Dev).linkCredit 0 ({} : Msg) = true) ∧ ((((((wLink 3).setLink 0 { limit := [(0, 8)] }).setPort 0 { tx := [{}] }) : Dev).link 0).replayBytes + (((((wLink 3).setLink 0 { limit := [(0, 8)] }).setPort 0 { tx := [{}] }) : Dev).packetOf 0 ({} : Msg)).length ≤ 262144)) ∧
    (((.creditTimer 0 : Instr).wf = true) ∧ (((wLink 3) : Dev).lkActiveNow 0 = true)) ∧
    (((.creditStall 0 0 : Instr).wf = true) ∧ ((((wLink 3).setPort 0 { tx := [{}] }) : Dev).lkActiveNow 0 = true) ∧ ((((((wLink 3).setPort 0 { tx := [{}] }) : Dev).toSend 0).any fun m => (((wLink 3).setPort 0 { tx := [{}] }) : Dev).vcOf 0 m.cls = 0 && !(((wLink 3).setPort 0 { tx := [{}] }) : Dev).linkCredit 0 m) = true)) ∧
    (((.timeExchange 0 : Instr).wf = true) ∧ ((((wLink 3).put DRL_TIME_SYNC_EN 0 1) : Dev).lkActiveNow 0 = true) ∧ ((((wLink 3).put DRL_TIME_SYNC_EN 0 1) : Dev).on DRL_TIME_SYNC_EN 0 = true)) ∧
    (((.spareBlockSwitch 0 : Instr).wf = true) ∧ (((((wLink 3).put SDS_LANE_SPARE 0 1 8).setLink 0 { spare := some { lane := 1, trans := 0, block := some 5 }, blockCnt := 5 } : Dev).link 0).spare = some ({ lane := 1, trans := 0, block := some 5 } : Spare)) ∧ (((List.range 9).find? fun l => (((wLink 3).put SDS_LANE_SPARE 0 1 8).setLink 0 { spare := some { lane := 1, trans := 0, block := some 5 }, blockCnt := 5 } : Dev).on SDS_LANE_SPARE ((((wLink 3).put SDS_LANE_SPARE 0 1 8).setLink 0 { spare := some { lane := 1, trans := 0, block := some 5 }, blockCnt := 5 } : Dev).lkOctet 0) l) = some 8) ∧ (({ lane := 1, trans := 0, block := some 5 } : Spare).block = some 5) ∧ ((((((wLink 3).put SDS_LANE_SPARE 0 1 8).setLink 0 { spare := some { lane := 1, trans := 0, block := some 5 }, blockCnt := 5 } : Dev).link 0).blockCnt + 4096 - 5) % 4096 < 2048) ∧ ((((wLink 3).put SDS_LANE_SPARE 0 1 8).setLink 0 { spare := some { lane := 1, trans := 0, block := some 5 }, blockCnt := 5 } : Dev).lkActiveNow 0 = true)) ∧
    (((.spareReqRepeat 0 : Instr).wf = true) ∧ (((wLink 3) : Dev).lkActiveNow 0 = true)) ∧
    (((.spareTimeout 0 : Instr).wf = true) ∧ ((((wLink 3).setLink 0 { spare := some { lane := 1, trans := 0 } }) : Dev).lkActiveNow 0 = true) ∧ (((((wLink 3).setLink 0 { spare := some { lane := 1, trans := 0 } }) : Dev).link 0).spare.isSome = true)) := by
  and_intros
  all_goals first | decide +kernel | exact ⟨by decide +kernel, by decide +kernel⟩ | exact by simp only [Dev.packetOf, msgPacket_length]; decide +kernel

/-- Each hypothesis list of the statement is met by a concrete state and operands. -/
theorem witness_OvenAndEgressCommands :
    (((.cellPresent ⟨[0], (.parity : CrossErr)⟩ : Instr).wf = true) ∧ (((wRel 0 { ready := true }) : Dev).halted = false) ∧ (((wRel 0 { ready := true }) : Dev).core.held.contains 0 = false) ∧ (((wRel 0 { ready := true }) : Dev).relOf 0 = ({ ready := true } : Msg) :: ([] : List Msg))) ∧
    (((.cellPresent ⟨([0, 128] : List Nat), (.none : CrossErr)⟩ : Instr).wf = true) ∧ (((wRel 128 {}) : Dev).halted = false)) ∧
    (((.heldAdmit ⟨0, (.none : CrossErr)⟩ : Instr).wf = true) ∧ (({ wRel 0 {} with core := { (wRel 0 {}).core with held := [0] } } : Dev).halted = false) ∧ (({ wRel 0 {} with core := { (wRel 0 {}).core with held := [0] } } : Dev).core.held.contains 0 = true) ∧ (({ wRel 0 {} with core := { (wRel 0 {}).core with held := [0] } } : Dev).relOf 0 = ({} : Msg) :: ([] : List Msg))) ∧
    (((.tagFill 0 9 false : Instr).wf = true) ∧ ((SMap.get [] ({ wUp with prot := { misses := [(0, [9])] } } : Dev).prot.misses 0).contains 9 = true) ∧ ((SMap.get [] ({ wUp with prot := { misses := [(0, [9])] } } : Dev).prot.stale 0).contains 9 = false)) ∧
    (((.egressSelect ⟨127, false⟩ : Instr).wf = true) ∧ ((wUp : Dev).halted = false) ∧ (false = false) ∧ (127 < 128)) ∧
    (((.egressSelect ⟨128, false⟩ : Instr).wf = true) ∧ ((wSlice : Dev).halted = false) ∧ (false = false) ∧ (128 ≤ 128) ∧ (((wSlice : Dev).purgeBad 128).sliceOn (128 - 128) = true)) ∧
    (((.egressSelect ⟨127, true⟩ : Instr).wf = true) ∧ ((wUp : Dev).halted = false) ∧ (true = true) ∧ (127 < 128)) ∧
    (((.bankDecision 0 15 (.none : BankErr) : Instr).wf = true) ∧ ((wSlice : Dev).halted = false) ∧ ((wSlice : Dev).sliceOn 0 = true)) ∧
    (((.stallTimeout 0 7 : Instr).wf = true) ∧ (({ wUp with core := { wUp.core with oven := [{ id := 7, m := { last := false }, cells := [], dest := 8 }] } } : Dev).stored? 7 = some ({ id := 7, m := { last := false }, cells := [], dest := 8 } : Stored)) ∧ (srcSlice ({ id := 7, m := { last := false }, cells := [], dest := 8 } : Stored).m.src = 0) ∧ (({ id := 7, m := { last := false }, cells := [], dest := 8 } : Stored).m.last = false)) ∧
    (((.retire 1 0 3 : Instr).wf = true) ∧ ((wUp : Dev).Reaches 1 ⟨.ovn, 0⟩) ∧ (((wUp : Dev).put OVN_RETIRE_BANK 0 3).retired 0 3 = false) ∧ (((wUp : Dev).put OVN_RETIRE_BANK 0 3).canRetire 0 = true)) ∧
    (((.retirementDone 0 : Instr).wf = true) ∧ ((({ wUp with core := { wUp.core with retiring := [3] } } : Dev).core.retiring.filter fun k => k / 16 = 0).isEmpty = false) ∧ (((({ wUp with core := { wUp.core with retiring := [3] } } : Dev).core.retiring.filter fun k => k / 16 = 0).any fun k => ({ wUp with core := { wUp.core with retiring := [3] } } : Dev).bankUsed 0 (k % 16) > 0) = false)) ∧
    (((.shaperRefill 0 : Instr).wf = true) ∧ ((wUp : Dev).portAvail 0 = true) ∧ ((((wUp : Dev).tabRead 0x0B 0 (List.range 8)).refillAll 0).on (PGEPOCH_APPLIED .egs) 0 = true)) ∧
    (((.egsSample 0 : Instr).wf = true) ∧ ((((wUp.put (PGCTL_ENABLE .egs) 0 1).put EGS_SAMPLE_INTERVAL 0 1) : Dev).halted = false) ∧ ((((wUp.put (PGCTL_ENABLE .egs) 0 1).put EGS_SAMPLE_INTERVAL 0 1) : Dev).portAvail 0 = true) ∧ ((((wUp.put (PGCTL_ENABLE .egs) 0 1).put EGS_SAMPLE_INTERVAL 0 1) : Dev).enabled ⟨.egs, 0⟩ = true) ∧ ((((wUp.put (PGCTL_ENABLE .egs) 0 1).put EGS_SAMPLE_INTERVAL 0 1) : Dev).get EGS_SAMPLE_INTERVAL 0 ≠ 0)) ∧
    (((.gateEdge 0 : Instr).wf = true) ∧ (((wUp.setEgress 0 { switchAt := some 0 }) : Dev).portAvail 0 = true) ∧ (((wUp.setEgress 0 { switchAt := some 0 }) : Dev) = (if ((wUp.setEgress 0 { switchAt := some 0 }) : Dev).on GTE_CFG_GATE_EN 0 then ((wUp.setEgress 0 { switchAt := some 0 }) : Dev).tabRead 0x0C 0 [(((wUp.setEgress 0 { switchAt := some 0 }) : Dev).gatesAt 0 ((wUp.setEgress 0 { switchAt := some 0 }) : Dev).fab).1] else ((wUp.setEgress 0 { switchAt := some 0 }) : Dev))) ∧ ((((wUp.setEgress 0 { switchAt := some 0 }) : Dev).egress 0).switchAt = some 0) ∧ (0 ≤ ((wUp.setEgress 0 { switchAt := some 0 }) : Dev).fab)) ∧
    (((.gateEdge 0 : Instr).wf = true) ∧ ((wUp : Dev).portAvail 0 = true) ∧ ((wUp : Dev) = (if (wUp : Dev).on GTE_CFG_GATE_EN 0 then (wUp : Dev).tabRead 0x0C 0 [((wUp : Dev).gatesAt 0 (wUp : Dev).fab).1] else (wUp : Dev))) ∧ (((wUp : Dev).egress 0).switchAt = none)) := by
  and_intros
  all_goals first | decide +kernel | exact ⟨by decide +kernel, by decide +kernel⟩

/-- Each hypothesis list of the statement is met by a concrete state and operands. -/
theorem witness_HomeRequestCommands :
    (((.rdS 0 : Instr).wf = true) ∧ (((wHome 2 (wMsg .memRdData)) : Dev).NextRequest 0 .rdS (wMsg .memRdData : Msg) ((wHome 2 (wMsg .memRdData)).setArrived 0 2 [] : Dev))) ∧
    (((.rdO 0 : Instr).wf = true) ∧ (((wHome 2 (wMsg .memRdInv)) : Dev).NextRequest 0 .rdO (wMsg .memRdInv : Msg) ((wHome 2 (wMsg .memRdInv)).setArrived 0 2 [] : Dev))) ∧
    (((.ownNd 0 : Instr).wf = true) ∧ (((wHome 2 (wMsg .rdOwnNoData)) : Dev).NextRequest 0 .ownNd (wMsg .rdOwnNoData : Msg) ((wHome 2 (wMsg .rdOwnNoData)).setArrived 0 2 [] : Dev))) ∧
    (((.rdC 0 : Instr).wf = true) ∧ (((wHome 2 (wMsg .memRdCur)) : Dev).NextRequest 0 .rdC (wMsg .memRdCur : Msg) ((wHome 2 (wMsg .memRdCur)).setArrived 0 2 [] : Dev))) ∧
    (((.wr 0 : Instr).wf = true) ∧ (((wHome 2 (wMsg .memWr)) : Dev).NextRequest 0 .wr (wMsg .memWr : Msg) ((wHome 2 (wMsg .memWr)).setArrived 0 2 [] : Dev))) ∧
    (((.atom 0 : Instr).wf = true) ∧ (((wHome 2 (wMsg .svcAtom)) : Dev).NextRequest 0 .atom (wMsg .svcAtom : Msg) ((wHome 2 (wMsg .svcAtom)).setArrived 0 2 [] : Dev))) ∧
    (((.wbI 0 : Instr).wf = true) ∧ (((wHome 1 (wMsg .dirtyEvict)) : Dev).halted = false) ∧ (((wHome 1 (wMsg .dirtyEvict)) : Dev).arrivedAt 0 0 = []) ∧ (((wHome 1 (wMsg .dirtyEvict)) : Dev).takeFrom 0 1 = some ((wMsg .dirtyEvict : Msg), ((wHome 1 (wMsg .dirtyEvict)).setArrived 0 1 [] : Dev))) ∧ (kindOf (wMsg .dirtyEvict : Msg).body.op = some .wbI)) ∧
    (((.wbS 0 : Instr).wf = true) ∧ (((wHome 1 (wMsg .memWrS)) : Dev).halted = false) ∧ (((wHome 1 (wMsg .memWrS)) : Dev).arrivedAt 0 0 = []) ∧ (((wHome 1 (wMsg .memWrS)) : Dev).takeFrom 0 1 = some ((wMsg .memWrS : Msg), ((wHome 1 (wMsg .memWrS)).setArrived 0 1 [] : Dev))) ∧ (kindOf (wMsg .memWrS : Msg).body.op = some .wbS)) ∧
    (((.cln 0 : Instr).wf = true) ∧ (((wHome 2 (wMsg .cleanEvict)) : Dev).NextRequest 0 .cln (wMsg .cleanEvict : Msg) ((wHome 2 (wMsg .cleanEvict)).setArrived 0 2 [] : Dev))) ∧
    (((.bisI 0 : Instr).wf = true) ∧ (((wHome 2 (wMsg .bisInv)) : Dev).NextRequest 0 .bisI (wMsg .bisInv : Msg) ((wHome 2 (wMsg .bisInv)).setArrived 0 2 [] : Dev))) ∧
    (((.bisS 0 : Instr).wf = true) ∧ (((wHome 2 (wMsg .bisData)) : Dev).NextRequest 0 .bisS (wMsg .bisData : Msg) ((wHome 2 (wMsg .bisData)).setArrived 0 2 [] : Dev))) ∧
    (((.bisC 0 : Instr).wf = true) ∧ (((wHome 2 (wMsg .bisCur)) : Dev).NextRequest 0 .bisC (wMsg .bisCur : Msg) ((wHome 2 (wMsg .bisCur)).setArrived 0 2 [] : Dev))) := by
  and_intros
  all_goals first | decide +kernel | exact ⟨by decide +kernel, by decide +kernel, by decide +kernel, by decide +kernel, by decide +kernel, by decide +kernel, by decide +kernel⟩

/-- Each hypothesis list of the statement is met by a concrete state and operands. -/
theorem witness_HomeAnswerCommands :
    (((.snoopAnswer 0 : Instr).wf = true) ∧ (((wHome 0 (wMsg .ansI)) : Dev).halted = false) ∧ (((wHome 0 (wMsg .ansI)) : Dev).frontRsp 0 = some ((wMsg .ansI : Msg), ((wHome 0 (wMsg .ansI)).setArrived 0 0 [] : Dev))) ∧ (ansOp (wMsg .ansI : Msg).body.op = true)) ∧
    (((.targetAnswer 0 : Instr).wf = true) ∧ (((wHome 0 (wMsg .tgtDone)) : Dev).halted = false) ∧ (((wHome 0 (wMsg .tgtDone)) : Dev).frontRsp 0 = some ((wMsg .tgtDone : Msg), ((wHome 0 (wMsg .tgtDone)).setArrived 0 0 [] : Dev))) ∧ (ansOp (wMsg .tgtDone : Msg).body.op = false) ∧ (tgtOp (wMsg .tgtDone : Msg).body.op = true)) ∧
    (((.lineQueueHead 0 0 : Instr).wf = true) ∧ (((wUp.modHome 0 fun x => { x with waits := [{ tk := 0, h := 0, m := {} }] }) : Dev).halted = false) ∧ (homeSlice (0 / 2 ^ 46) (0 % 2 ^ 46) = 0) ∧ (((wUp.modHome 0 fun x => { x with waits := [{ tk := 0, h := 0, m := {} }] }) : Dev).lineTaken (0 / 2 ^ 46) (0 % 2 ^ 46) = false) ∧ ((((wUp.modHome 0 fun x => { x with waits := [{ tk := 0, h := 0, m := {} }] }) : Dev).home 0).waits.find? (fun w => !w.retry && w.tk = 0 / 2 ^ 46 && w.h = 0 % 2 ^ 46) = some ({ tk := 0, h := 0, m := {} } : Wait))) ∧
    (((.waitBufferEntryFree 0 0 : Instr).wf = true) ∧ (((wUp : Dev).home 0).waits.length < 1024)) ∧
    (((.retryOffer 0 0 0 : Instr).wf = true) ∧ (((wUp.modHome 0 fun x => { x with waits := [{ tk := 0, h := 0, m := {}, retry := true }] }) : Dev).halted = false) ∧ (((wUp.modHome 0 fun x => { x with waits := [{ tk := 0, h := 0, m := {}, retry := true }] }) : Dev).wayFree 0 0 0 = true) ∧ (oldestWait (((wUp.modHome 0 fun x => { x with waits := [{ tk := 0, h := 0, m := {}, retry := true }] }) : Dev).retryWaits 0 0 0) = some ({ tk := 0, h := 0, m := {}, retry := true } : Wait))) ∧
    (((.snoopTimeout 0 0 0 : Instr).wf = true) ∧ ((wUp : Dev).halted = false) ∧ (homeSlice (0 / 2 ^ 46) (0 % 2 ^ 46) = 0)) ∧
    (((.quenchNotice 600 5 0 : Instr).wf = true) ∧ ((wHome 2 { body := { op := .quenchNotice, agent := 600, arg := 5 } } : Dev).halted = false) ∧ ((wHome 2 { body := { op := .quenchNotice, agent := 600, arg := 5 } } : Dev).firstOf 0 (quenchHit 600 5 0) = some ({ body := { op := .quenchNotice, agent := 600, arg := 5 } } : Msg)) ∧ (512 ≤ 600)) ∧
    (((.quenchNotice 7 5 0 : Instr).wf = true) ∧ ((wHome 2 { body := { op := .quenchNotice, agent := 7, arg := 5 } } : Dev).halted = false) ∧ ((wHome 2 { body := { op := .quenchNotice, agent := 7, arg := 5 } } : Dev).firstOf 0 (quenchHit 7 5 0) = some ({ body := { op := .quenchNotice, agent := 7, arg := 5 } } : Msg)) ∧ (7 < 512) ∧ (((wHome 2 { body := { op := .quenchNotice, agent := 7, arg := 5 } } : Dev).setArrived 0 2 (((wHome 2 { body := { op := .quenchNotice, agent := 7, arg := 5 } } : Dev).arrivedAt 0 2).erase ({ body := { op := .quenchNotice, agent := 7, arg := 5 } } : Msg))).agentDead 7 = false)) ∧
    (((.quenchScanDone 0 : Instr).wf = true) ∧ (((wUp.modHome 0 fun x => { x with quenchScan := [5] }) : Dev).halted = false) ∧ ((((wUp.modHome 0 fun x => { x with quenchScan := [5] }) : Dev).quenchReady 0).isEmpty = false)) ∧
    (((.dirPeek 1 0 : Instr).wf = true) ∧ ((wUp : Dev).Reaches 1 ⟨.dir, 0⟩)) ∧
    (((.sccFlushClean 1 0 : Instr).wf = true) ∧ ((wUp : Dev).Reaches 1 ⟨.scc, 0⟩) ∧ ((wUp : Dev).halted = false)) ∧
    (((.remoteSnoop 0 : Instr).wf = true) ∧ (((wHome 2 (wMsg .rSnpInv)) : Dev).halted = false) ∧ (((wHome 2 (wMsg .rSnpInv)) : Dev).arrivedAt 0 0 = []) ∧ (((wHome 2 (wMsg .rSnpInv)) : Dev).takeFrom 0 1 = none) ∧ (((wHome 2 (wMsg .rSnpInv)) : Dev).takeFrom 0 2 = some ((wMsg .rSnpInv : Msg), ((wHome 2 (wMsg .rSnpInv)).setArrived 0 2 [] : Dev))) ∧ (localSnoop (wMsg .rSnpInv : Msg).body.op = some (.snpInv : MOp))) := by
  and_intros
  all_goals first | decide +kernel | exact ⟨by decide +kernel, by decide +kernel⟩

/-- Each hypothesis list of the statement is met by a concrete state and operands. -/
theorem witness_OrderCommands :
    (((.acceptanceIndexRecord 4 : Instr).wf = true) ∧ (({ wUp with coh := { wUp.coh with tray := [{ id := 4, port := 0, line := 0, tk := 0, m := {}, row := 3 }] } } : Dev).trayEnt? 4 = some ({ id := 4, port := 0, line := 0, tk := 0, m := {}, row := 3 } : TrayEnt)) ∧ (({ wUp with coh := { wUp.coh with tray := [{ id := 4, port := 0, line := 0, tk := 0, m := {}, row := 3 }] } } : Dev).halted = false) ∧ (({ id := 4, port := 0, line := 0, tk := 0, m := {}, row := 3 } : TrayEnt).row = 3 ∨ ({ id := 4, port := 0, line := 0, tk := 0, m := {}, row := 3 } : TrayEnt).row = 4) ∧ (({ id := 4, port := 0, line := 0, tk := 0, m := {}, row := 3 } : TrayEnt).due = false) ∧ (({ id := 4, port := 0, line := 0, tk := 0, m := {}, row := 3 } : TrayEnt).movelive = false) ∧ (({ wUp with coh := { wUp.coh with tray := [{ id := 4, port := 0, line := 0, tk := 0, m := {}, row := 3 }] } } : Dev).indexUsed ({ id := 4, port := 0, line := 0, tk := 0, m := {}, row := 3 } : TrayEnt).orderSlice < 4096)) ∧
    (((.trayHoldRelease 0 : Instr).wf = true) ∧ (({ wRel 0 {} with core := { (wRel 0 {}).core with held := [0] } } : Dev).halted = false) ∧ (({ wRel 0 {} with core := { (wRel 0 {}).core with held := [0] } } : Dev).core.held.contains 0 = true) ∧ (({ wRel 0 {} with core := { (wRel 0 {}).core with held := [0] } } : Dev).relOf 0 = ({} : Msg) :: ([] : List Msg)) ∧ (({ wRel 0 {} with core := { (wRel 0 {}).core with held := [0] } } : Dev).lineWait ({} : Msg) = false) ∧ (({ wRel 0 {} with core := { (wRel 0 {}).core with held := [0] } } : Dev).postedWait ({} : Msg) = false)) ∧
    (((.streamingWrite 0 : Instr).wf = true) ∧ ((({ (wRel 0 ({ ready := true, tp := some 0, stream := true, body := { op := .memWr } } : Msg)) with core := { (wRel 0 ({ ready := true, tp := some 0, stream := true, body := { op := .memWr } } : Msg)).core with held := [0] } } : Dev).put TRY_CFG_CMB_EN 0 1 : Dev).halted = false) ∧ ((({ (wRel 0 ({ ready := true, tp := some 0, stream := true, body := { op := .memWr } } : Msg)) with core := { (wRel 0 ({ ready := true, tp := some 0, stream := true, body := { op := .memWr } } : Msg)).core with held := [0] } } : Dev).put TRY_CFG_CMB_EN 0 1 : Dev).relOf 0 = ({ ready := true, tp := some 0, stream := true, body := { op := .memWr } } : Msg) :: ([] : List Msg)) ∧ ((({ (wRel 0 ({ ready := true, tp := some 0, stream := true, body := { op := .memWr } } : Msg)) with core := { (wRel 0 ({ ready := true, tp := some 0, stream := true, body := { op := .memWr } } : Msg)).core with held := [0] } } : Dev).put TRY_CFG_CMB_EN 0 1 : Dev).headStreams 0 ({ ready := true, tp := some 0, stream := true, body := { op := .memWr } } : Msg) = true) ∧ ((({ (wRel 0 ({ ready := true, tp := some 0, stream := true, body := { op := .memWr } } : Msg)) with core := { (wRel 0 ({ ready := true, tp := some 0, stream := true, body := { op := .memWr } } : Msg)).core with held := [0] } } : Dev).put TRY_CFG_CMB_EN 0 1 : Dev).core.held.contains 0 = true)) ∧
    (((.streamingWrite 0 : Instr).wf = true) ∧ (((wRel 0 ({ ready := true, tp := some 0, stream := true, body := { op := .memWr } } : Msg)).put TRY_CFG_CMB_EN 0 1 : Dev).halted = false) ∧ (((wRel 0 ({ ready := true, tp := some 0, stream := true, body := { op := .memWr } } : Msg)).put TRY_CFG_CMB_EN 0 1 : Dev).relOf 0 = ({ ready := true, tp := some 0, stream := true, body := { op := .memWr } } : Msg) :: ([] : List Msg)) ∧ (((wRel 0 ({ ready := true, tp := some 0, stream := true, body := { op := .memWr } } : Msg)).put TRY_CFG_CMB_EN 0 1 : Dev).headStreams 0 ({ ready := true, tp := some 0, stream := true, body := { op := .memWr } } : Msg) = true) ∧ (((wRel 0 ({ ready := true, tp := some 0, stream := true, body := { op := .memWr } } : Msg)).put TRY_CFG_CMB_EN 0 1 : Dev).core.held.contains 0 = false)) ∧
    (((.cmbTimeout 0 0 3 : Instr).wf = true) ∧ (({ wUp with coh := { wUp.coh with cmb := [{ agent := .port 3, port := 3, line := 0, tk := 0, epoch := 0, be := 0, data := [], m := {} }] } } : Dev).coh.cmb.find? (fun c => portSlice c.port = 0 && lineKey c.tk c.line = 0 && c.agent = reqOfCode 3) = some ({ agent := .port 3, port := 3, line := 0, tk := 0, epoch := 0, be := 0, data := [], m := {} } : CmbEnt))) ∧
    (((.drainWrite 0 0 : Instr).wf = true) ∧ (((wFn 1) : Dev).halted = false) ∧ (((wFn 1) : Dev).fnExists 0 0 = true)) ∧
    (((.drainRead 0 0 : Instr).wf = true) ∧ (((wFn 1) : Dev).halted = false) ∧ (((wFn 1) : Dev).fnExists 0 0 = true) ∧ ((((wFn 1) : Dev).coh.drains.filter (·.port = 0)).getLast? = none)) ∧
    (((.drainRead 0 0 : Instr).wf = true) ∧ (({ wFn 1 with coh := { (wFn 1).coh with drains := [{ port := 0, seq := 1, ids := [1] }] } } : Dev).halted = false) ∧ (({ wFn 1 with coh := { (wFn 1).coh with drains := [{ port := 0, seq := 1, ids := [1] }] } } : Dev).fnExists 0 0 = true) ∧ ((({ wFn 1 with coh := { (wFn 1).coh with drains := [{ port := 0, seq := 1, ids := [1] }] } } : Dev).coh.drains.filter (·.port = 0)).getLast? = some ({ port := 0, seq := 1, ids := [1] } : Drain))) := by
  and_intros <;> decide +kernel

/-- Each hypothesis list of the statement is met by a concrete state and operands. -/
theorem witness_LarderCommands :
    (((.larderRead 0 : Instr).wf = true) ∧ (((wChan 2 [{ line := 5 }]) : Dev).takeReq 0 false = some ({ line := 5 } : LdrReq))) ∧
    (((.larderWrite 0 : Instr).wf = true) ∧ (((wChan 2 [{ line := 5, write := true }]) : Dev).takeReq 0 true = some ({ line := 5, write := true } : LdrReq)) ∧ (((((wChan 2 [{ line := 5, write := true }]) : Dev).dropReq 0 ({ line := 5, write := true } : LdrReq)).count .ldr 0 0x201).get LDR_CHSTAT_STATE 0 ≠ 4) ∧ (atomOp ({ line := 5, write := true } : LdrReq).m.body.op = false)) ∧
    (((.larderWrite 0 : Instr).wf = true) ∧ (((wChan 4 [{ line := 5, write := true }]) : Dev).takeReq 0 true = some ({ line := 5, write := true } : LdrReq)) ∧ (((((wChan 4 [{ line := 5, write := true }]) : Dev).dropReq 0 ({ line := 5, write := true } : LdrReq)).count .ldr 0 0x201).get LDR_CHSTAT_STATE 0 = 4)) ∧
    (((.scrubRead 0 : Instr).wf = true) ∧ (((((wChan 2 []).put LDR_SCRUB_EN 0 1).put LDR_CHSTAT_CAP 0 256) : Dev).on LDR_SCRUB_EN 0 = true) ∧ (((((wChan 2 []).put LDR_SCRUB_EN 0 1).put LDR_CHSTAT_CAP 0 256) : Dev).get LDR_CHSTAT_STATE 0 = 2) ∧ (((((wChan 2 []).put LDR_SCRUB_EN 0 1).put LDR_CHSTAT_CAP 0 256) : Dev).localLines 0 ≠ 0)) ∧
    (((.pprSoft 1 11 : Instr).wf = true) ∧ ((wUp : Dev).Reaches 1 ⟨.ldr, 11⟩) ∧ (((wUp : Dev).put LDR_PPR_HARD 11 0).on LDR_PPR_BUSY 11 = false) ∧ (((wUp : Dev).put LDR_PPR_HARD 11 0).on LDR_PPR_HARD 11 = false)) ∧
    (((.pprHard 1 11 : Instr).wf = true) ∧ ((wUp : Dev).Reaches 1 ⟨.ldr, 11⟩) ∧ (((wUp : Dev).put LDR_PPR_HARD 11 1).on LDR_PPR_BUSY 11 = false) ∧ (((wUp : Dev).put LDR_PPR_HARD 11 1).on LDR_PPR_HARD 11 = true)) ∧
    (((.pprDone 0 1 : Instr).wf = true) ∧ (SMap.get none ({ wUp with ldr := { wUp.ldr with repair := [(0, some 9)] } } : Dev).ldr.repair 0 = some 9) ∧ (1 = 1)) ∧
    (((.dimmThermalRead 0 40 : Instr).wf = true) ∧ (((wChan 2 []) : Dev).chanServes 0 = true)) ∧
    (((.chanFail 0 1 : Instr).wf = true) ∧ (((wChan 2 []) : Dev).get LDR_CHSTAT_STATE 0 ≠ 0) ∧ (((wChan 2 []) : Dev).get LDR_CHSTAT_STATE 0 ≠ 4) ∧ (((wChan 2 []) : Dev).get LDR_CHSTAT_STATE 0 ≠ 5)) ∧
    (((.larderTrainDone ([0, 1, 2, 6, 7, 8].map fun c => { chan := c } : List Module) : Instr).wf = true) ∧ (((wPhase .starting) : Dev).rst.phase = .starting) ∧ (((wPhase .starting) : Dev).on DEV_READY_LARDER_READY = false) ∧ ((([0, 1, 2, 6, 7, 8].map fun c => { chan := c } : List Module).map (·.chan)).all (· < 12) = true) ∧ (populationOk ([0, 1, 2, 6, 7, 8].map fun c => { chan := c } : List Module) = true) ∧ (([0, 1, 2, 6, 7, 8].map fun c => { chan := c } : List Module).any (fun m => !m.trained) = false)) := by
  and_intros
  all_goals first | decide +kernel | exact ⟨by decide +kernel, by decide +kernel⟩ | exact by simp [populationOk]; exact Or.inr (by apply List.mergeSort_of_pairwise; decide)

/-- Each hypothesis list of the statement is met by a concrete state and operands. -/
theorem witness_QueueCommands :
    (((.vfEnable 0 4 : Instr).wf = true) ∧ (((wFn 1) : Dev).fnExists 0 0 = true) ∧ (SMap.get 0 ((wFn 1) : Dev).dmv.vfs 0 = 0) ∧ (4 ≠ 0) ∧ (4 ≤ ((wFn 1) : Dev).get DMV_EPCFG_TOTALVFS 0 0)) ∧
    (((.vfDisable 0 : Instr).wf = true) ∧ (((wFn 1) : Dev).fnExists 0 0 = true)) ∧
    (((.functionFlr 0 0 : Instr).wf = true) ∧ (((wFn 1) : Dev).fnExists 0 0 = true)) ∧
    (((.qcmdRead 0 0 : Instr).wf = true) ∧ (((wFn 1) : Dev).fnExists 0 0 = true) ∧ (((wFn 1) : Dev).selQueue 0 0 = some 0) ∧ (((wFn 1) : Dev).cached 0 = true)) ∧
    (((.qcmdWrite 0 0 : Instr).wf = true) ∧ (((wFn 1) : Dev).fnExists 0 0 = true) ∧ (((wFn 1) : Dev).selQueue 0 0 = some 0) ∧ (((wFn 1) : Dev).cached 0 = true) ∧ (((wFn 1) : Dev).qState 0 ≠ qEnabled)) ∧
    (((.qcmdEnable 0 0 : Instr).wf = true) ∧ (((wFn 1) : Dev).fnExists 0 0 = true) ∧ (((wFn 1) : Dev).selQueue 0 0 = some 0) ∧ (((wFn 1) : Dev).cached 0 = true) ∧ (((wFn 1) : Dev).qState 0 = qDisabled) ∧ (((wFn 1) : Dev).hostHalfOk 0 = true)) ∧
    (((.qcmdDisable 0 0 : Instr).wf = true) ∧ (((wFn 2) : Dev).fnExists 0 0 = true) ∧ (((wFn 2) : Dev).selQueue 0 0 = some 0) ∧ (((wFn 2) : Dev).cached 0 = true) ∧ (((wFn 2) : Dev).qState 0 = qEnabled)) ∧
    (((.qcmdReset 0 0 : Instr).wf = true) ∧ (((wFn 1) : Dev).fnExists 0 0 = true) ∧ (((wFn 1) : Dev).selQueue 0 0 = some 0) ∧ (((wFn 1) : Dev).cached 0 = true) ∧ (((wFn 1) : Dev).resetHeld 0 = false)) ∧
    (((.heldReset 0 : Instr).wf = true) ∧ ((((wUp.setQueue 0 { heldReset := true }) : Dev).queue 0).heldReset = true) ∧ (((wUp.setQueue 0 { heldReset := true }) : Dev).resetHeld 0 = false)) ∧
    (((.disablingDone 0 : Instr).wf = true) ∧ (((wQueue (wCtx 3 0 0)) : Dev).qState 0 = qDisabling) ∧ ((((wQueue (wCtx 3 0 0)) : Dev).queue 0).descs.any (·.started) = false)) ∧
    (((.doorbell 0 0 0 4 1 : Instr).wf = true) ∧ (((wFn 1) : Dev).fnExists 0 0 = true) ∧ (0 % 64 = 0) ∧ (4 = 4 ∨ 4 = 8) ∧ (0 / 64 < (((wFn 1) : Dev).fnBlock 0 0).2)) ∧
    (((.contextFetch 0 : Instr).wf = true) ∧ (((wQueue (wCtx 2 1 0)) : Dev).halted = false) ∧ (((wQueue (wCtx 2 1 0)) : Dev).cached 0 = true)) ∧
    (((.contextFetch 0 : Instr).wf = true) ∧ (((({ wUp with ldr := { wUp.ldr with up := true } } : Dev).put LDR_CARVE_CTX_EN 0 1) : Dev).halted = false) ∧ (((({ wUp with ldr := { wUp.ldr with up := true } } : Dev).put LDR_CARVE_CTX_EN 0 1) : Dev).ldr.up = true) ∧ (((({ wUp with ldr := { wUp.ldr with up := true } } : Dev).put LDR_CARVE_CTX_EN 0 1) : Dev).on LDR_CARVE_CTX_EN = true) ∧ (((({ wUp with ldr := { wUp.ldr with up := true } } : Dev).put LDR_CARVE_CTX_EN 0 1) : Dev).cached 0 = false) ∧ (((({ wUp with ldr := { wUp.ldr with up := true } } : Dev).put LDR_CARVE_CTX_EN 0 1) : Dev).carveRead (((({ wUp with ldr := { wUp.ldr with up := true } } : Dev).put LDR_CARVE_CTX_EN 0 1) : Dev).ctxBase + 128 * 0) 4 = (false, ((((({ wUp with ldr := { wUp.ldr with up := true } } : Dev).put LDR_CARVE_CTX_EN 0 1).carveRead ((({ wUp with ldr := { wUp.ldr with up := true } } : Dev).put LDR_CARVE_CTX_EN 0 1).ctxBase + 128 * 0) 4).2) : Dev))) ∧ (((((({ wUp with ldr := { wUp.ldr with up := true } } : Dev).put LDR_CARVE_CTX_EN 0 1).carveRead ((({ wUp with ldr := { wUp.ldr with up := true } } : Dev).put LDR_CARVE_CTX_EN 0 1).ctxBase + 128 * 0) 4).2) : Dev).carveRead (((({ wUp with ldr := { wUp.ldr with up := true } } : Dev).put LDR_CARVE_CTX_EN 0 1) : Dev).ctxBase + 128 * 0 + 64) 4 = (false, (((((({ wUp with ldr := { wUp.ldr with up := true } } : Dev).put LDR_CARVE_CTX_EN 0 1).carveRead ((({ wUp with ldr := { wUp.ldr with up := true } } : Dev).put LDR_CARVE_CTX_EN 0 1).ctxBase + 128 * 0) 4).2).carveRead ((({ wUp with ldr := { wUp.ldr with up := true } } : Dev).put LDR_CARVE_CTX_EN 0 1).ctxBase + 128 * 0 + 64) 4).2 : Dev))) ∧ ((((((({ wUp with ldr := { wUp.ldr with up := true } } : Dev).put LDR_CARVE_CTX_EN 0 1).carveRead ((({ wUp with ldr := { wUp.ldr with up := true } } : Dev).put LDR_CARVE_CTX_EN 0 1).ctxBase + 128 * 0) 4).2).carveRead ((({ wUp with ldr := { wUp.ldr with up := true } } : Dev).put LDR_CARVE_CTX_EN 0 1).ctxBase + 128 * 0 + 64) 4).2 : Dev).injectAt .dmv ((((((({ wUp with ldr := { wUp.ldr with up := true } } : Dev).put LDR_CARVE_CTX_EN 0 1).carveRead ((({ wUp with ldr := { wUp.ldr with up := true } } : Dev).put LDR_CARVE_CTX_EN 0 1).ctxBase + 128 * 0) 4).2).carveRead ((({ wUp with ldr := { wUp.ldr with up := true } } : Dev).put LDR_CARVE_CTX_EN 0 1).ctxBase + 128 * 0 + 64) 4).2 : Dev).qPage 0) [DMV_F_CTX_UE.num] none = (none, (((((({ wUp with ldr := { wUp.ldr with up := true } } : Dev).put LDR_CARVE_CTX_EN 0 1).carveRead ((({ wUp with ldr := { wUp.ldr with up := true } } : Dev).put LDR_CARVE_CTX_EN 0 1).ctxBase + 128 * 0) 4).2).carveRead ((({ wUp with ldr := { wUp.ldr with up := true } } : Dev).put LDR_CARVE_CTX_EN 0 1).ctxBase + 128 * 0 + 64) 4).2 : Dev))) ∧ ((((((({ wUp with ldr := { wUp.ldr with up := true } } : Dev).put LDR_CARVE_CTX_EN 0 1).carveRead ((({ wUp with ldr := { wUp.ldr with up := true } } : Dev).put LDR_CARVE_CTX_EN 0 1).ctxBase + 128 * 0) 4).2).carveRead ((({ wUp with ldr := { wUp.ldr with up := true } } : Dev).put LDR_CARVE_CTX_EN 0 1).ctxBase + 128 * 0 + 64) 4).2 : Dev).ldr.ctxLru.length < 65536)) ∧
    (((.descriptorFetch 0 ([0, 0, 0, 0, 0, 0, 0, 0] : List W64) true : Instr).wf = true) ∧ (((wQueue (wCtx 2 1 0)) : Dev).halted = false) ∧ (((wQueue (wCtx 2 1 0)) : Dev).enabled ⟨.acu, ((wQueue (wCtx 2 1 0)) : Dev).q 0 cVcs⟩ = true) ∧ (((wQueue (wCtx 2 1 0)) : Dev).qState 0 = qEnabled) ∧ (((wQueue (wCtx 2 1 0)) : Dev).cached 0 = true) ∧ (((wQueue (wCtx 2 1 0)) : Dev).q 0 cHead ≠ ((wQueue (wCtx 2 1 0)) : Dev).q 0 cTail) ∧ (((((wQueue (wCtx 2 1 0)) : Dev).queue 0).descs.filter fun x => !x.started).length < 8) ∧ (true = true)) := by
  and_intros
  all_goals first | decide +kernel | exact Prod.ext (by decide +kernel) rfl

/-- Each hypothesis list of the statement is met by a concrete state and operands. -/
theorem witness_DescriptorCommands :
    (((.nop 0 : Instr).wf = true) ∧ (((wDescs [wDesc 0]) : Dev).nextDesc 0 0x00 = some (0, (wDesc 0 : Desc))) ∧ ((wDesc 0 : Desc).malformed = none)) ∧
    (((.copy 0 : Instr).wf = true) ∧ (((wDescs [wDesc 1]) : Dev).nextDesc 0 0x01 = some (0, (wDesc 1 : Desc))) ∧ ((wDesc 1 : Desc).malformed = none)) ∧
    (((.fill 0 : Instr).wf = true) ∧ (((wDescs [wDesc 2]) : Dev).nextDesc 0 0x02 = some (0, (wDesc 2 : Desc))) ∧ ((wDesc 2 : Desc).malformed = none)) ∧
    (((.compare 0 : Instr).wf = true) ∧ (((wDescs [wDesc 3]) : Dev).nextDesc 0 0x03 = some (0, (wDesc 3 : Desc))) ∧ ((wDesc 3 : Desc).malformed = none)) ∧
    (((.crc 0 : Instr).wf = true) ∧ (((wDescs [wDesc 4]) : Dev).nextDesc 0 0x04 = some (0, (wDesc 4 : Desc))) ∧ ((wDesc 4 : Desc).malformed = none)) ∧
    (((.atomic8 0 : Instr).wf = true) ∧ (((wDescs [wDesc 5]) : Dev).nextDesc 0 0x05 = some (0, (wDesc 5 : Desc))) ∧ ((wDesc 5 : Desc).malformed = none)) ∧
    (((.atomic16 0 : Instr).wf = true) ∧ (((wDescs [wDesc 6]) : Dev).nextDesc 0 0x06 = some (0, (wDesc 6 : Desc))) ∧ ((wDesc 6 : Desc).malformed = none)) ∧
    (((.barrierLd 0 : Instr).wf = true) ∧ (((wDescs [wDesc 8]) : Dev).nextDesc 0 0x08 = some (0, (wDesc 8 : Desc))) ∧ ((wDesc 8 : Desc).malformed = none)) ∧
    (((.barrierSt 0 : Instr).wf = true) ∧ (((wDescs [wDesc 9]) : Dev).nextDesc 0 0x09 = some (0, (wDesc 9 : Desc))) ∧ ((wDesc 9 : Desc).malformed = none)) ∧
    (((.barrierFull 0 : Instr).wf = true) ∧ (((wDescs [wDesc 10]) : Dev).nextDesc 0 0x0A = some (0, (wDesc 10 : Desc))) ∧ ((wDesc 10 : Desc).malformed = none)) ∧
    (((.interrupt 0 : Instr).wf = true) ∧ (((wDescs [wDesc 11]) : Dev).nextDesc 0 0x0B = some (0, (wDesc 11 : Desc))) ∧ ((wDesc 11 : Desc).malformed = none)) ∧
    (((.barrierComplete 0 : Instr).wf = true) ∧ ((((wDescs [{ wDesc 8 with started := true }]) : Dev).queue 0).descs.find? openBarrier = some ({ wDesc 8 with started := true } : Desc)) ∧ (((wDescs [{ wDesc 8 with started := true }]) : Dev).halted = false) ∧ (((wDescs [{ wDesc 8 with started := true }]) : Dev).barrierMet 0 ({ wDesc 8 with started := true } : Desc) = true)) ∧
    (((.completionRecord 0 true : Instr).wf = true) ∧ ((((wDescs [{ wDesc 0 with started := true, ended := true }]) : Dev).queue 0).descs = ({ wDesc 0 with started := true, ended := true } : Desc) :: ([] : List Desc)) ∧ (((wDescs [{ wDesc 0 with started := true, ended := true }]) : Dev).halted = false) ∧ (((wDescs [{ wDesc 0 with started := true, ended := true }]) : Dev).enabled ⟨.acu, ((wDescs [{ wDesc 0 with started := true, ended := true }]) : Dev).q 0 cVcs⟩ = true) ∧ (({ wDesc 0 with started := true, ended := true } : Desc).ended = true) ∧ (((wDescs [{ wDesc 0 with started := true, ended := true }]) : Dev).cplSlot 0 0 = true) ∧ (({ wDesc 0 with started := true, ended := true } : Desc).recordDue = true) ∧ (true = true) ∧ ((((((wDescs [{ wDesc 0 with started := true, ended := true }]) : Dev).setQueue 0 { ((wDescs [{ wDesc 0 with started := true, ended := true }]) : Dev).queue 0 with descs := ([] : List Desc) }).count .dmv ({ wDesc 0 with started := true, ended := true } : Desc).eng 0x200).count .dmv ({ wDesc 0 with started := true, ended := true } : Desc).eng 0x201 ({ wDesc 0 with started := true, ended := true } : Desc).moved).writeRecord 0 ((((((wDescs [{ wDesc 0 with started := true, ended := true }]) : Dev).setQueue 0 { ((wDescs [{ wDesc 0 with started := true, ended := true }]) : Dev).queue 0 with descs := ([] : List Desc) }).count .dmv ({ wDesc 0 with started := true, ended := true } : Desc).eng 0x200).count .dmv ({ wDesc 0 with started := true, ended := true } : Desc).eng 0x201 ({ wDesc 0 with started := true, ended := true } : Desc).moved).record 0 ({ wDesc 0 with started := true, ended := true } : Desc)) = (true, ((((((wDescs [{ wDesc 0 with started := true, ended := true }]).setQueue 0 {}).count .dmv 0 0x200).count .dmv 0 0x201 0).writeRecord 0 (((((wDescs [{ wDesc 0 with started := true, ended := true }]).setQueue 0 {}).count .dmv 0 0x200).count .dmv 0 0x201 0).record 0 { wDesc 0 with started := true, ended := true })).2 : Dev)))) ∧
    (((.shareEntryEnd 0 : Instr).wf = true) ∧ (((((wUp.put OVN_CFG_SEALED 0 1).put DMV_SHARE_KIND 0 1 2) : Dev).put (PGEPOCH_APPLIED .dmv) 0 1).nextShare 0 = some 2) ∧ (((((wUp.put OVN_CFG_SEALED 0 1).put DMV_SHARE_KIND 0 1 2) : Dev).put (PGEPOCH_APPLIED .dmv) 0 1).sealed (0 / 4) = true)) ∧
    (((.moveLive 0 : Instr).wf = true) ∧ (((wBound (wDescs [{ words := [7, 0, BitVec.ofNat 64 (2 ^ 32 + 16), 0] }] (2 ^ 48))).setTab 0x04 0 0 1 1 : Dev).nextDesc 0 0x07 = some (0, ({ words := [7, 0, BitVec.ofNat 64 (2 ^ 32 + 16), 0] } : Desc))) ∧ (({ words := [7, 0, BitVec.ofNat 64 (2 ^ 32 + 16), 0] } : Desc).malformed = none) ∧ ((((wBound (wDescs [{ words := [7, 0, BitVec.ofNat 64 (2 ^ 32 + 16), 0] }] (2 ^ 48))).setTab 0x04 0 0 1 1 : Dev).takeEngine 0 0).q 0 cPriv = 1) ∧ (((List.range 64).find? fun m => ((((wBound (wDescs [{ words := [7, 0, BitVec.ofNat 64 (2 ^ 32 + 16), 0] }] (2 ^ 48))).setTab 0x04 0 0 1 1 : Dev).takeEngine 0 0).migr? m).isNone) = some 0) ∧ ((((wBound (wDescs [{ words := [7, 0, BitVec.ofNat 64 (2 ^ 32 + 16), 0] }] (2 ^ 48))).setTab 0x04 0 0 1 1 : Dev).takeEngine 0 0).moveOk ((((wBound (wDescs [{ words := [7, 0, BitVec.ofNat 64 (2 ^ 32 + 16), 0] }] (2 ^ 48))).setTab 0x04 0 0 1 1 : Dev).takeEngine 0 0).q 0 cVcs) (({ words := [7, 0, BitVec.ofNat 64 (2 ^ 32 + 16), 0] } : Desc).srcA % 32) (({ words := [7, 0, BitVec.ofNat 64 (2 ^ 32 + 16), 0] } : Desc).dstA / 2 ^ 32 % 128) (({ words := [7, 0, BitVec.ofNat 64 (2 ^ 32 + 16), 0] } : Desc).dstA % 2 ^ 24) = true)) ∧
    (((.moveLiveCopyDone 0 : Instr).wf = true) ∧ ((((wBound wUp).setMigr 0 (some wMigr)).put DMV_MLSTAT_PHASE 0 1 0 : Dev).migr? 0 = some (wMigr : Migr)) ∧ ((((wBound wUp).setMigr 0 (some wMigr)).put DMV_MLSTAT_PHASE 0 1 0 : Dev).halted = false) ∧ ((((wBound wUp).setMigr 0 (some wMigr)).put DMV_MLSTAT_PHASE 0 1 0 : Dev).mlPhase 0 = 1) ∧ ((((wBound wUp).setMigr 0 (some wMigr)).put DMV_MLSTAT_PHASE 0 1 0 : Dev).migrCopy 0 (wMigr : Migr) (List.range ((((wBound wUp).setMigr 0 (some wMigr)).put DMV_MLSTAT_PHASE 0 1 0 : Dev).migrGranules (wMigr : Migr))) = (some (wMigr : Migr), (((((wBound wUp).setMigr 0 (some wMigr)).put DMV_MLSTAT_PHASE 0 1 0).setMigr 0 (some wMigr)) : Dev)))) ∧
    (((.moveLiveRecopyDone 0 : Instr).wf = true) ∧ ((((wBound wUp).setMigr 0 (some wMigr)).put DMV_MLSTAT_PHASE 0 2 0 : Dev).migr? 0 = some (wMigr : Migr)) ∧ ((((wBound wUp).setMigr 0 (some wMigr)).put DMV_MLSTAT_PHASE 0 2 0 : Dev).halted = false) ∧ ((((wBound wUp).setMigr 0 (some wMigr)).put DMV_MLSTAT_PHASE 0 2 0 : Dev).mlPhase 0 = 2) ∧ ((((((wBound wUp).setMigr 0 (some wMigr)).put DMV_MLSTAT_PHASE 0 2 0 : Dev).setMigr 0 (some { (wMigr : Migr) with dirty := [] })).put DMV_MLSTAT_DIRTY 0 0 0).migrCopy 0 { (wMigr : Migr) with dirty := [] } (wMigr : Migr).dirty.mergeSort = (some (wMigr : Migr), ((((((wBound wUp).setMigr 0 (some wMigr)).put DMV_MLSTAT_PHASE 0 2 0).setMigr 0 (some wMigr)).put DMV_MLSTAT_DIRTY 0 0 0).setMigr 0 (some wMigr) : Dev))) ∧ ((wMigr : Migr).dirty.length ≤ (wMigr : Migr).gran) ∧ ((((((((wBound wUp).setMigr 0 (some wMigr)).put DMV_MLSTAT_PHASE 0 2 0).setMigr 0 (some wMigr)).put DMV_MLSTAT_DIRTY 0 0 0).setMigr 0 (some wMigr) : Dev).put DMV_MLSTAT_PASS 0 (((((((wBound wUp).setMigr 0 (some wMigr)).put DMV_MLSTAT_PHASE 0 2 0).setMigr 0 (some wMigr)).put DMV_MLSTAT_DIRTY 0 0 0).setMigr 0 (some wMigr) : Dev).get DMV_MLSTAT_PASS 0 0 + 1) 0).on (PGEPOCH_APPLIED .dec) ((wMigr : Migr).vcs / 8) = true)) ∧
    (((.moveLiveHoldReady 0 : Instr).wf = true) ∧ ((((wBound wUp).setMigr 0 (some wMigr)).put DMV_MLSTAT_PHASE 0 3 0 : Dev).migr? 0 = some (wMigr : Migr)) ∧ ((((wBound wUp).setMigr 0 (some wMigr)).put DMV_MLSTAT_PHASE 0 3 0 : Dev).halted = false) ∧ ((((wBound wUp).setMigr 0 (some wMigr)).put DMV_MLSTAT_PHASE 0 3 0 : Dev).mlPhase 0 = 3) ∧ ((((wBound wUp).setMigr 0 (some wMigr)).put DMV_MLSTAT_PHASE 0 3 0 : Dev).holdWaits (wMigr : Migr).vcs (wMigr : Migr).entry = false) ∧ ((((wBound wUp).setMigr 0 (some wMigr)).put DMV_MLSTAT_PHASE 0 3 0 : Dev).migrCopy 0 (wMigr : Migr) (wMigr : Migr).dirty.mergeSort = (some (wMigr : Migr), (((((wBound wUp).setMigr 0 (some wMigr)).put DMV_MLSTAT_PHASE 0 3 0).setMigr 0 (some wMigr)) : Dev)))) ∧
    (((.moveLiveHoldTimeout 0 : Instr).wf = true) ∧ ((((wBound wUp).setMigr 0 (some wMigr)).put DMV_MLSTAT_PHASE 0 3 0 : Dev).migr? 0 = some (wMigr : Migr)) ∧ ((((wBound wUp).setMigr 0 (some wMigr)).put DMV_MLSTAT_PHASE 0 3 0 : Dev).halted = false) ∧ ((((wBound wUp).setMigr 0 (some wMigr)).put DMV_MLSTAT_PHASE 0 3 0 : Dev).mlPhase 0 = 3) ∧ ((((wBound wUp).setMigr 0 (some wMigr)).put DMV_MLSTAT_PHASE 0 3 0 : Dev).get DMV_MLSTAT_TRY 0 0 + 1 < (wMigr : Migr).tries)) := by
  and_intros <;> decide +kernel

/-- Each hypothesis list of the statement is met by a concrete state and operands. -/
theorem witness_SlotCommands :
    (((.prsntAssert 0 : Instr).wf = true) ∧ ((wUp : Dev).powerDie = true) ∧ ((wUp : Dev).on SPU_STAT_PRSNT 0 = false)) ∧
    (((.prsntDeassert 0 : Instr).wf = true) ∧ (((wSlot 0) : Dev).powerDie = true) ∧ (((wSlot 0) : Dev).on SPU_STAT_PRSNT 0 = true)) ∧
    (((.vinWindow 0 0 : Instr).wf = true) ∧ (((wSlot 0) : Dev).powerDie = true) ∧ ((((wSlot 0) : Dev).put SPU_MEAS_VIN 0 0).vinOk 0 0 = false) ∧ ((((wSlot 0) : Dev).put SPU_MEAS_VIN 0 0).on SPU_STAT_PRSNT 0 = true)) ∧
    (((.insertionTimer 0 : Instr).wf = true) ∧ (((wSlot 0) : Dev).powerDie = true) ∧ (((wSlot 0) : Dev).on SPU_STAT_PRSNT 0 = true)) ∧
    (((.rampEntry 0 : Instr).wf = true) ∧ ((((wSlot 1).setSlot 0 { insDone := true }) : Dev).powerDie = true) ∧ ((((wSlot 1).setSlot 0 { insDone := true }) : Dev).rampEligible 0 = true) ∧ (((List.range 32).filter fun k => (((wSlot 1).setSlot 0 { insDone := true }) : Dev).slotState k = ssRamp).length + ((List.range 0).filter fun k => (((wSlot 1).setSlot 0 { insDone := true }) : Dev).rampEligible k).length < 4)) ∧
    (((.rampDone 0 12000 11900 : Instr).wf = true) ∧ (((wSlot 2) : Dev).powerDie = true) ∧ (((((wSlot 2) : Dev).put SPU_MEAS_VIN 0 12000).put SPU_MEAS_VOUT 0 11900).slotState 0 = ssRamp) ∧ (9 * 12000 ≤ 10 * 11900)) ∧
    (((.rampTimeout 0 : Instr).wf = true) ∧ (((wSlot 2) : Dev).powerDie = true) ∧ (((wSlot 2) : Dev).slotState 0 = ssRamp)) ∧
    (((.fastTrip 0 65535 : Instr).wf = true) ∧ (((wSlot 3) : Dev).powerDie = true) ∧ ((((wSlot 3) : Dev).put SPU_MEAS_IOUT 0 65535).gateOn 0 = true) ∧ (5 * (((wSlot 3) : Dev).put SPU_MEAS_IOUT 0 65535).ilimMa 0 < 2 * 65535)) ∧
    (((.ovTrip 0 65535 : Instr).wf = true) ∧ (((wSlot 3) : Dev).powerDie = true) ∧ ((((wSlot 3) : Dev).put SPU_MEAS_VIN 0 65535).gateOn 0 = true) ∧ ((((wSlot 3) : Dev).put SPU_MEAS_VIN 0 65535).get SPU_VIN_OV 0 < 65535)) ∧
    (((.ocTrip 0 : Instr).wf = true) ∧ (((wSlot 3) : Dev).powerDie = true) ∧ (((wSlot 3) : Dev).slotState 0 = ssOn)) ∧
    (((.vinLow 0 0 : Instr).wf = true) ∧ (((wSlot 3).put SPU_VIN_UV 0 100 : Dev).powerDie = true) ∧ ((((wSlot 3).put SPU_VIN_UV 0 100 : Dev).put SPU_MEAS_VIN 0 0).slotState 0 = ssOn) ∧ (0 < (((wSlot 3).put SPU_VIN_UV 0 100 : Dev).put SPU_MEAS_VIN 0 0).get SPU_VIN_UV 0) ∧ ((((wSlot 3).put SPU_VIN_UV 0 100 : Dev).put SPU_MEAS_VIN 0 0).flushing = false)) ∧
    (((.coolDone 0 : Instr).wf = true) ∧ ((((wSlot 4).setSlot 0 { coolEnd := 5 }) : Dev).powerDie = true) ∧ (((((wSlot 4).setSlot 0 { coolEnd := 5 }) : Dev).slot 0).coolEnd ≠ 0) ∧ ((((wSlot 4).setSlot 0 { coolEnd := 5 }) : Dev).slotState 0 = ssCool)) ∧
    (((.fetFail 0 1001 : Instr).wf = true) ∧ (((wSlot 0) : Dev).powerDie = true) ∧ ((((wSlot 0) : Dev).put SPU_MEAS_VOUT 0 1001).gateOn 0 = false) ∧ (1000 < 1001) ∧ ((((wSlot 0) : Dev).put SPU_MEAS_VOUT 0 1001).on SPU_STAT_FET_FAIL 0 = false)) ∧
    (((.retryCountReset 0 : Instr).wf = true) ∧ (((wSlot 3) : Dev).powerDie = true) ∧ (((wSlot 3) : Dev).slotState 0 = ssOn)) ∧
    (((.spuOn 1 31 : Instr).wf = true) ∧ ((wUp : Dev).Reaches 1 ⟨.spu, 31⟩) ∧ ((wUp : Dev).powerDie = true)) ∧
    (((.spuOff 1 31 : Instr).wf = true) ∧ ((wUp : Dev).Reaches 1 ⟨.spu, 31⟩) ∧ ((wUp : Dev).powerDie = true)) ∧
    (((.clearFet 1 31 999 : Instr).wf = true) ∧ ((wUp : Dev).Reaches 1 ⟨.spu, 31⟩) ∧ ((wUp : Dev).powerDie = true) ∧ (999 < 1000)) := by
  and_intros
  all_goals first | decide +kernel | exact ⟨by decide +kernel, by decide +kernel⟩

/-- Each hypothesis list of the statement is met by a concrete state and operands. -/
theorem witness_ProofCommands :
    (((.measure 1 : Instr).wf = true) ∧ (((wUp.put PRF_RESULT_VALID 0 1) : Dev).Reaches 1 ⟨.prf, 0⟩) ∧ (((wUp.put PRF_RESULT_VALID 0 1) : Dev).measReady = true) ∧ ((((wUp.put PRF_RESULT_VALID 0 1) : Dev).put PRF_STAT_STATE 0 2).on PRF_RESULT_VALID = true)) ∧
    (((.measure 1 : Instr).wf = true) ∧ (((wUp.put PRF_RESULT_VALID 0 0) : Dev).Reaches 1 ⟨.prf, 0⟩) ∧ (((wUp.put PRF_RESULT_VALID 0 0) : Dev).measReady = true) ∧ ((((wUp.put PRF_RESULT_VALID 0 0) : Dev).put PRF_STAT_STATE 0 2).on PRF_RESULT_VALID = false)) ∧
    (((.measurePeriodic : Instr).wf = true) ∧ (((wUp.put PRF_CFG1_PERIOD 0 5) : Dev).get PRF_CFG1_PERIOD ≠ 0) ∧ (((wUp.put PRF_CFG1_PERIOD 0 5) : Dev).measReady = true)) ∧
    (((.measureHoldReady : Instr).wf = true) ∧ (({ wUp with prf := { wUp.prf with step := 1 } } : Dev).prf.step = 1) ∧ (({ wUp with prf := { wUp.prf with step := 1 } } : Dev).heldTotal ≤ 64 * ({ wUp with prf := { wUp.prf with step := 1 } } : Dev).get PRF_ALLOW_DMAX)) ∧
    (((.measureSettled 0 : Instr).wf = true) ∧ (({ wUp with prf := { wUp.prf with step := 2 } } : Dev).prf.step = 2)) ∧
    (((.measureLoadEnd 0 0 : Instr).wf = true) ∧ (({ wUp with prf := { wUp.prf with step := 4 } } : Dev).prf.step = 4)) ∧
    (((.measureDone 0 : Instr).wf = true) ∧ (({ wUp with prf := { wUp.prf with step := 5 } } : Dev).prf.step = 5) ∧ (({ wUp with prf := { wUp.prf with step := 5 } } : Dev).measFails 0 = true)) ∧
    (((.measureDone 50000000 : Instr).wf = true) ∧ (((({ wUp with prf := { wUp.prf with step := 5, v1 := 60000000, charge := 2000, loadUs := 1 } } : Dev).put PRF_CFG0_VMIN 0 100) : Dev).prf.step = 5) ∧ (((({ wUp with prf := { wUp.prf with step := 5, v1 := 60000000, charge := 2000, loadUs := 1 } } : Dev).put PRF_CFG0_VMIN 0 100) : Dev).measFails 50000000 = false)) ∧
    (((.creditBlockRequest 0 true : Instr).wf = true) ∧ ((((wUp.put PRF_ALLOW_DMAX 0 100).put PRF_ALLOW_GATED 0 0) : Dev).on PRF_ALLOW_GATED = false) ∧ ((((wUp.put PRF_ALLOW_DMAX 0 100).put PRF_ALLOW_GATED 0 0) : Dev).granted < (((wUp.put PRF_ALLOW_DMAX 0 100).put PRF_ALLOW_GATED 0 0) : Dev).get PRF_ALLOW_DMAX) ∧ ((((wUp.put PRF_ALLOW_DMAX 0 100).put PRF_ALLOW_GATED 0 0) : Dev).get PRF_CFG2_SLICE_MAX = 0 ∨ (((wUp.put PRF_ALLOW_DMAX 0 100).put PRF_ALLOW_GATED 0 0) : Dev).sccB 0 + (((wUp.put PRF_ALLOW_DMAX 0 100).put PRF_ALLOW_GATED 0 0) : Dev).tryB 0 < (((wUp.put PRF_ALLOW_DMAX 0 100).put PRF_ALLOW_GATED 0 0) : Dev).get PRF_CFG2_SLICE_MAX) ∧ (true = true) ∧ (64 * ((((wUp.put PRF_ALLOW_DMAX 0 100).put PRF_ALLOW_GATED 0 0) : Dev).sccB 0 + 1) < 2 ^ 17)) ∧
    (((.creditBlockRequest 0 false : Instr).wf = true) ∧ ((((wUp.put PRF_ALLOW_DMAX 0 100).put PRF_ALLOW_GATED 0 0) : Dev).on PRF_ALLOW_GATED = false) ∧ ((((wUp.put PRF_ALLOW_DMAX 0 100).put PRF_ALLOW_GATED 0 0) : Dev).granted < (((wUp.put PRF_ALLOW_DMAX 0 100).put PRF_ALLOW_GATED 0 0) : Dev).get PRF_ALLOW_DMAX) ∧ ((((wUp.put PRF_ALLOW_DMAX 0 100).put PRF_ALLOW_GATED 0 0) : Dev).get PRF_CFG2_SLICE_MAX = 0 ∨ (((wUp.put PRF_ALLOW_DMAX 0 100).put PRF_ALLOW_GATED 0 0) : Dev).sccB 0 + (((wUp.put PRF_ALLOW_DMAX 0 100).put PRF_ALLOW_GATED 0 0) : Dev).tryB 0 < (((wUp.put PRF_ALLOW_DMAX 0 100).put PRF_ALLOW_GATED 0 0) : Dev).get PRF_CFG2_SLICE_MAX) ∧ (false = false) ∧ (64 * ((((wUp.put PRF_ALLOW_DMAX 0 100).put PRF_ALLOW_GATED 0 0) : Dev).tryB 0 + 1) < 2 ^ 17)) ∧
    (((.pwrfail : Instr).wf = true) ∧ ((wUp : Dev).on CKR_INSTAT1_PWRFAIL = false) ∧ ((wUp : Dev).rst.phase ≠ .starting)) ∧
    (((.lowBank 0 : Instr).wf = true) ∧ (0 < max (((wUp.put PRF_CFG0_VLOW 0 100) : Dev).get PRF_CFG0_VLOW) (((wUp.put PRF_CFG0_VLOW 0 100) : Dev).get PRF_CFG0_VMIN)) ∧ (((wUp.put PRF_CFG0_VLOW 0 100) : Dev).rst.vddAux = true)) ∧
    (((.flushWritesDone : Instr).wf = true) ∧ (({ wUp with prf := { wUp.prf with phase := 1 } } : Dev).prf.phase = 1) ∧ (({ wUp with prf := { wUp.prf with phase := 1 } } : Dev).flushStep.flushQuiet = true)) ∧
    (((.flushPhase1Done : Instr).wf = true) ∧ (({ wUp with prf := { wUp.prf with phase := 2 } } : Dev).prf.phase = 2) ∧ (({ wUp with prf := { wUp.prf with phase := 2 } } : Dev).prf.waitPorts.isEmpty = true)) ∧
    (((.flushPhase2Done : Instr).wf = true) ∧ (({ wUp with prf := { wUp.prf with phase := 3 } } : Dev).prf.phase = 3) ∧ (({ wUp with prf := { wUp.prf with phase := 3 } } : Dev).prf.waitPorts.isEmpty = true)) ∧
    (((.flushGpfTimeout : Instr).wf = true) ∧ (({ wUp with prf := { wUp.prf with phase := 2, waitPorts := [3] } } : Dev).prf.phase = 2 ∨ ({ wUp with prf := { wUp.prf with phase := 2, waitPorts := [3] } } : Dev).prf.phase = 3) ∧ (({ wUp with prf := { wUp.prf with phase := 2, waitPorts := [3] } } : Dev).prf.phase = 2 ∨ ({ wUp with prf := { wUp.prf with phase := 2, waitPorts := [3] } } : Dev).prf.waitPorts.isEmpty = false)) := by
  and_intros
  all_goals first | decide +kernel | exact ⟨by decide +kernel, by decide +kernel⟩

/-- Each hypothesis list of the statement is met by a concrete state and operands. -/
theorem witness_BootAndSessionCommands :
    (((.fuseLoad true 0 0 (none : Option Bytes) : Instr).wf = true) ∧ (({} : Dev).fuseReady = true) ∧ (true = true)) ∧
    (((.fuseLoad false 0 0 (none : Option Bytes) : Instr).wf = true) ∧ (({} : Dev).fuseReady = true) ∧ (false = false)) ∧
    (((.bootVerify (some ⟨[], []⟩ : Option FlashImage) (none : Option FlashImage) : Instr).wf = true) ∧ (((({} : Dev).put DEV_READY_FUSES_OK 0 1) : Dev).bootReady = true) ∧ ((if firstBank (some ⟨[], []⟩ : Option FlashImage) (none : Option FlashImage) = 0 then (some ⟨[], []⟩ : Option FlashImage) else (none : Option FlashImage)) = some (⟨[], []⟩ : FlashImage))) ∧
    (((.bootBundle ([0] : Bytes) : Instr).wf = true) ∧ (((wPhase .starting) : Dev).rst.phase = .starting) ∧ (((wPhase .starting) : Dev).rst.kind = .cold) ∧ (((wPhase .starting) : Dev).on DEV_READY_FW_RUN = true) ∧ (((wPhase .starting) : Dev).sec.bootBundle = false) ∧ (((wPhase .starting) : Dev).on SEC_RESULT_BUSY = false) ∧ (([0] : Bytes).isEmpty = false)) ∧
    (((.managementComplexCrash : Instr).wf = true) ∧ ((wUp : Dev).on DEV_READY_FW_RUN = true)) ∧
    (((.fwRestart (some ⟨[], []⟩ : Option FlashImage) : Instr).wf = true) ∧ (({ wUp with sec := { wUp.sec with crashed := true } } : Dev).sec.crashed = true) ∧ ((some ⟨[], []⟩ : Option FlashImage) = some (⟨[], []⟩ : FlashImage))) ∧
    (((.trngFail : Instr).wf = true) ∧ (((wUp.put SEC_STAT_TRNG_OK 0 1) : Dev).entropy = true)) ∧
    (((.spdmRequest 0 (.getVersion : Spdm) : Instr).wf = true) ∧ ((wUp : Dev).on DEV_READY_FUSES_OK = true) ∧ (0 ≠ 0 ∨ (wUp : Dev).ctl.pfUp = true) ∧ ((wUp : Dev).sec.bundle = none)) ∧
    (((.spdmRequest 0 (.getVersion : Spdm) : Instr).wf = true) ∧ (({ wUp with sec := { wUp.sec with bundle := some { bytes := [] } } } : Dev).on DEV_READY_FUSES_OK = true) ∧ (0 ≠ 0 ∨ ({ wUp with sec := { wUp.sec with bundle := some { bytes := [] } } } : Dev).ctl.pfUp = true) ∧ (({ wUp with sec := { wUp.sec with bundle := some { bytes := [] } } } : Dev).sec.bundle.isSome = true)) ∧
    (((.ideKm 0 ⟨true, ([] : Bytes)⟩ : Instr).wf = true) ∧ ((({ wPort 1 6 with sec := { linkSess := [(0, 1)] } } : Dev).put SEC_STAT_TRNG_OK 0 1 : Dev).isUp 0 = true) ∧ ((({ wPort 1 6 with sec := { linkSess := [(0, 1)] } } : Dev).put SEC_STAT_TRNG_OK 0 1 : Dev).linkHas 0 = true) ∧ ((({ wPort 1 6 with sec := { linkSess := [(0, 1)] } } : Dev).put SEC_STAT_TRNG_OK 0 1 : Dev).on PRT_STAT_DL_ACTIVE 0 = true) ∧ (true = true)) ∧
    (((.ideKm 0 ⟨true, ([] : Bytes)⟩ : Instr).wf = true) ∧ (({ ((wPort 2 6).put PRT_CFG_IDE_REQ 0 1).put SEC_STAT_TRNG_OK 0 1 with sec := { anchors := [(0, [])] } } : Dev).isDown 0 = true) ∧ (({ ((wPort 2 6).put PRT_CFG_IDE_REQ 0 1).put SEC_STAT_TRNG_OK 0 1 with sec := { anchors := [(0, [])] } } : Dev).on PRT_CFG_IDE_REQ 0 = true) ∧ (({ ((wPort 2 6).put PRT_CFG_IDE_REQ 0 1).put SEC_STAT_TRNG_OK 0 1 with sec := { anchors := [(0, [])] } } : Dev).entropy = true) ∧ (({ ((wPort 2 6).put PRT_CFG_IDE_REQ 0 1).put SEC_STAT_TRNG_OK 0 1 with sec := { anchors := [(0, [])] } } : Dev).on PRT_STAT_DL_ACTIVE 0 = true) ∧ (true = true) ∧ (({ ((wPort 2 6).put PRT_CFG_IDE_REQ 0 1).put SEC_STAT_TRNG_OK 0 1 with sec := { anchors := [(0, [])] } } : Dev).trusted ([] : Bytes) = true)) ∧
    (((.ideKm 0 ⟨false, ([] : Bytes)⟩ : Instr).wf = true) ∧ (((((wPort 2 6).put PRT_CFG_IDE_REQ 0 1).put SEC_STAT_TRNG_OK 0 1) : Dev).isUp 0 = false) ∧ (((((wPort 2 6).put PRT_CFG_IDE_REQ 0 1).put SEC_STAT_TRNG_OK 0 1) : Dev).isDown 0 = true) ∧ (((((wPort 2 6).put PRT_CFG_IDE_REQ 0 1).put SEC_STAT_TRNG_OK 0 1) : Dev).on PRT_CFG_IDE_REQ 0 = true) ∧ (((((wPort 2 6).put PRT_CFG_IDE_REQ 0 1).put SEC_STAT_TRNG_OK 0 1) : Dev).on PRT_STAT_DL_ACTIVE 0 = true) ∧ (((((wPort 2 6).put PRT_CFG_IDE_REQ 0 1).put SEC_STAT_TRNG_OK 0 1) : Dev).entropy = true) ∧ (false = false)) ∧
    (((.dunrunKeyExchange 0 : Instr).wf = true) ∧ ((((((wLink 2).put DRL_STAT_PEER_DEVID 0 3).put SEC_STAT_TRNG_OK 0 1) : Dev).kx 0).abandoned = false) ∧ (((((wLink 2).put DRL_STAT_PEER_DEVID 0 3).put SEC_STAT_TRNG_OK 0 1) : Dev).lkState 0 = lkKeywait) ∧ (((((wLink 2).put DRL_STAT_PEER_DEVID 0 3).put SEC_STAT_TRNG_OK 0 1) : Dev).lowerEnd 0 = true) ∧ ((((((wLink 2).put DRL_STAT_PEER_DEVID 0 3).put SEC_STAT_TRNG_OK 0 1) : Dev).kx 0).running = false) ∧ (((((wLink 2).put DRL_STAT_PEER_DEVID 0 3).put SEC_STAT_TRNG_OK 0 1) : Dev).entropy = true)) ∧
    (((.keyExchangeTimeout 0 : Instr).wf = true) ∧ ((({ wUp with sec := { kx := [(0, { running := true })] } } : Dev).kx 0).running = true)) ∧
    (((.keyExchangeRestart 0 : Instr).wf = true) ∧ (((({ wUp with sec := { kx := [(0, { abandoned := true })] } } : Dev).put DRL_STAT_PEER_DEVID 0 3 : Dev).kx 0).abandoned = true) ∧ ((({ wUp with sec := { kx := [(0, { abandoned := true })] } } : Dev).put DRL_STAT_PEER_DEVID 0 3 : Dev).lowerEnd 0 = true)) ∧
    (((.keyUsageLimit 0 : Instr).wf = true) ∧ ((((({ wUp with sec := { kx := [(0, { done := true })] } } : Dev).put DRL_STAT_ENC 0 1).put SEC_STAT_TRNG_OK 0 1 : Dev).kx 0).done = true) ∧ (((({ wUp with sec := { kx := [(0, { done := true })] } } : Dev).put DRL_STAT_ENC 0 1).put SEC_STAT_TRNG_OK 0 1 : Dev).on DRL_STAT_ENC 0 = true) ∧ (((({ wUp with sec := { kx := [(0, { done := true })] } } : Dev).put DRL_STAT_ENC 0 1).put SEC_STAT_TRNG_OK 0 1 : Dev).entropy = true)) := by
  and_intros
  all_goals first | decide +kernel | exact by simp [Dev.trusted]

/-- Each hypothesis list of the statement is met by a concrete state and operands. -/
theorem witness_SecurityCommands :
    (((.advanceArc 1 true : Instr).wf = true) ∧ (({ wUp with sec := { image := some { svn := 3 } } } : Dev).Reaches 1 ⟨.sec, 0⟩) ∧ (({ wUp with sec := { image := some { svn := 3 } } } : Dev).on SEC_RESULT_BUSY = false) ∧ (({ wUp with sec := { image := some { svn := 3 } } } : Dev).sec.image = some ({ svn := 3 } : Image)) ∧ (({ wUp with sec := { image := some { svn := 3 } } } : Dev).arc < ({ svn := 3 } : Image).svn) ∧ (({ wUp with sec := { image := some { svn := 3 } } } : Dev).on SEC_STAT_DBG = false) ∧ (true = true)) ∧
    (((.dbgChallenge 1 : Instr).wf = true) ∧ (((wUp.put SEC_STAT_TRNG_OK 0 1) : Dev).Reaches 1 ⟨.sec, 0⟩) ∧ (((wUp.put SEC_STAT_TRNG_OK 0 1) : Dev).on SEC_RESULT_BUSY = false) ∧ (((wUp.put SEC_STAT_TRNG_OK 0 1) : Dev).entropy = true)) ∧
    (((.dbgUnlock 1 : Instr).wf = true) ∧ (({ wUp with sec := { challenge := some [1] } } : Dev).Reaches 1 ⟨.sec, 0⟩) ∧ (({ wUp with sec := { challenge := some [1] } } : Dev).on SEC_RESULT_BUSY = false) ∧ (({ wUp with sec := { challenge := some [1] } } : Dev).sec.challenge = some ([1] : Bytes)) ∧ (({ wUp with sec := { challenge := some [1] } } : Dev).custKey = none)) ∧
    (((.bundleApply 1 : Instr).wf = true) ∧ ((wUp : Dev).Reaches 1 ⟨.sec, 0⟩) ∧ ((wUp : Dev).on SEC_RESULT_BUSY = false)) ∧
    (((.rcvWrite 1 1 : Instr).wf = true) ∧ (((wUp.put SEC_STAT_BOOT 0 2) : Dev).Reaches 1 ⟨.sec, 0⟩) ∧ (((wUp.put SEC_STAT_BOOT 0 2) : Dev).on SEC_RESULT_BUSY = false) ∧ (((wUp.put SEC_STAT_BOOT 0 2) : Dev).get SEC_STAT_BOOT = 2) ∧ (1 < 2)) ∧
    (((.rcvBoot 1 1 (some ⟨[], []⟩ : Option FlashImage) : Instr).wf = true) ∧ (((wUp.put SEC_STAT_BOOT 0 2) : Dev).Reaches 1 ⟨.sec, 0⟩) ∧ (((wUp.put SEC_STAT_BOOT 0 2) : Dev).on SEC_RESULT_BUSY = false) ∧ (((wUp.put SEC_STAT_BOOT 0 2) : Dev).get SEC_STAT_BOOT = 2) ∧ (1 < 2) ∧ ((some ⟨[], []⟩ : Option FlashImage) = some (⟨[], []⟩ : FlashImage))) ∧
    (((.relayIn 1 0 : Instr).wf = true) ∧ ((({ wLink 2 with sec := { kx := [(0, { running := true })] } } : Dev).put SEC_STAT_TRNG_OK 0 1 : Dev).Reaches 1 ⟨.sec, 0⟩) ∧ ((({ wLink 2 with sec := { kx := [(0, { running := true })] } } : Dev).put SEC_STAT_TRNG_OK 0 1 : Dev).on SEC_RESULT_BUSY = false) ∧ ((({ wLink 2 with sec := { kx := [(0, { running := true })] } } : Dev).put SEC_STAT_TRNG_OK 0 1 : Dev).entropy = true) ∧ ((({ wLink 2 with sec := { kx := [(0, { running := true })] } } : Dev).put SEC_STAT_TRNG_OK 0 1 : Dev).lkState 0 = lkKeywait) ∧ (((({ wLink 2 with sec := { kx := [(0, { running := true })] } } : Dev).put SEC_STAT_TRNG_OK 0 1 : Dev).kx 0).running = true ∨ (({ wLink 2 with sec := { kx := [(0, { running := true })] } } : Dev).put SEC_STAT_TRNG_OK 0 1 : Dev).lowerEnd 0 = false)) ∧
    (((.relayOutRelease 1 : Instr).wf = true) ∧ ((wUp : Dev).Reaches 1 ⟨.sec, 0⟩)) ∧
    (((.anchorSet 1 7 : Instr).wf = true) ∧ (((wUp.put SEC_WIN_CTL_LEN 0 48) : Dev).Reaches 1 ⟨.sec, 0⟩) ∧ (((wUp.put SEC_WIN_CTL_LEN 0 48) : Dev).on SEC_RESULT_BUSY = false) ∧ (7 < 8) ∧ (((wUp.put SEC_WIN_CTL_LEN 0 48) : Dev).winBytes.length = 48)) ∧
    (((.drlRekey 1 0 : Instr).wf = true) ∧ ((({ wUp with sec := { kx := [(0, { done := true })] } } : Dev).put SEC_STAT_TRNG_OK 0 1 : Dev).Reaches 1 ⟨.sec, 0⟩) ∧ ((({ wUp with sec := { kx := [(0, { done := true })] } } : Dev).put SEC_STAT_TRNG_OK 0 1 : Dev).on SEC_RESULT_BUSY = false) ∧ (0 < 32) ∧ (((({ wUp with sec := { kx := [(0, { done := true })] } } : Dev).put SEC_STAT_TRNG_OK 0 1 : Dev).kx 0).done = true) ∧ ((({ wUp with sec := { kx := [(0, { done := true })] } } : Dev).put SEC_STAT_TRNG_OK 0 1 : Dev).entropy = true)) := by
  and_intros
  all_goals first | decide +kernel | exact ⟨by decide +kernel, by decide +kernel⟩

/-- Each hypothesis list of the statement is met by a concrete state and operands. -/
theorem witness_TimeAndCrumbCommands :
    (((.tmbSet 1 5 : Instr).wf = true) ∧ ((wUp : Dev).Reaches 1 ⟨.tmb, 0⟩)) ∧
    (((.ptmTimer : Instr).wf = true) ∧ (((wUp.put TMB_CFG_ROLE 0 3) : Dev).get TMB_CFG_ROLE = 3) ∧ (((wUp.put TMB_CFG_ROLE 0 3) : Dev).halted = false) ∧ (((wUp.put TMB_CFG_ROLE 0 3) : Dev).obs.clk.ptmT1 = none)) ∧
    (((.ptmRequest 0 : Instr).wf = true) ∧ (((wPort 2 6) : Dev).isDown 0 = true) ∧ (((wPort 2 6) : Dev).on PRT_STAT_DL_ACTIVE 0 = true) ∧ (((wPort 2 6) : Dev).halted = false)) ∧
    (((.ptmResponse 0 0 0 : Instr).wf = true) ∧ ((({ wUp with obs := { wUp.obs with clk := { wUp.obs.clk with ptmT1 := some 5 } } } : Dev).put TMB_CFG_ROLE 0 3 : Dev).obs.clk.ptmT1 = some 5) ∧ ((({ wUp with obs := { wUp.obs with clk := { wUp.obs.clk with ptmT1 := some 5 } } } : Dev).put TMB_CFG_ROLE 0 3 : Dev).get TMB_CFG_ROLE = 3)) ∧
    (((.fire 1 : Instr).wf = true) ∧ ((wUp : Dev).Reaches 1 ⟨.crb, 0⟩)) ∧
    (((.clrall 1 : Instr).wf = true) ∧ ((wUp : Dev).Reaches 1 ⟨.crb, 0⟩)) ∧
    (((.crumbTimeMatch : Instr).wf = true) ∧ (((wUp.put CRB_CFG_EN_TIME 0 1) : Dev).on CRB_CFG_EN_TIME = true) ∧ ((((wUp.put CRB_CFG_EN_TIME 0 1) : Dev).put CRB_CFG_EN_TIME 0 0).addEdge (coreEdge (((wUp.put CRB_CFG_EN_TIME 0 1) : Dev).get CRB_MATCH_TICKS)) 4 (((wUp.put CRB_CFG_EN_TIME 0 1) : Dev).get DEV_FABRIC_DEVID) 0 none = (false, (((wUp.put CRB_CFG_EN_TIME 0 1).put CRB_CFG_EN_TIME 0 0).addEdge (coreEdge (((wUp.put CRB_CFG_EN_TIME 0 1).put CRB_CFG_EN_TIME 0 0).get CRB_MATCH_TICKS)) 4 0 0 none |>.2 : Dev)))) ∧
    (((.crumbLatch : Instr).wf = true) ∧ (({ wUp with obs := { wUp.obs with crumb := { wUp.obs.crumb with edges := [{ at_ := 8, causes := [1] }] } } } : Dev).obs.crumb.edges = ({ at_ := 8, causes := [1] } : Edge) :: ([] : List Edge))) := by
  and_intros
  all_goals first | decide +kernel | exact ⟨by decide +kernel, by decide +kernel⟩

/-- Each hypothesis list of the statement is met by a concrete state and operands. -/
theorem witness_TelemetryCommands :
    (((.cclSweep : Instr).wf = true) ∧ (((wUp.put CCL_CFG_EN 0 1) : Dev).on CCL_CFG_EN = true) ∧ (((wUp.put CCL_CFG_EN 0 1) : Dev).obs.sweep = none)) ∧
    (((.cclSweepDone true : Instr).wf = true) ∧ (({ wUp with obs := { wUp.obs with sweep := some { start := 0, last := 0, image := [], larder := true } } } : Dev).obs.sweep = some ({ start := 0, last := 0, image := [], larder := true } : Sweep)) ∧ (true = true) ∧ (({ start := 0, last := 0, image := [], larder := true } : Sweep).larder = true ∨ ({ wUp with obs := { wUp.obs with sweep := some { start := 0, last := 0, image := [], larder := true } } } : Dev).ctl.busMaster = true)) ∧
    (((.cclSweepDone false : Instr).wf = true) ∧ (({ wUp with obs := { wUp.obs with sweep := some { start := 0, last := 0, image := [] } } } : Dev).obs.sweep = some ({ start := 0, last := 0, image := [] } : Sweep)) ∧ (false = false)) ∧
    (((.telemetryRecord 0 0 0 ([] : Bytes) true : Instr).wf = true) ∧ ((wUp : Dev).halted = false)) ∧
    (((.tlmPop 1 : Instr).wf = true) ∧ ((wUp : Dev).pathOpen 1 = true) ∧ ((wUp : Dev).notYet .tlm = false)) ∧
    (((.tlmRhead 1 0 : Instr).wf = true) ∧ ((wUp : Dev).Reaches 1 ⟨.tlm, 0⟩)) ∧
    (((.tlmRingEnable 1 : Instr).wf = true) ∧ ((wUp : Dev).Reaches 1 ⟨.tlm, 0⟩)) := by
  and_intros
  all_goals first | decide +kernel | exact ⟨by decide +kernel, by decide +kernel⟩

/-- Each hypothesis list of the statement is met by a concrete state and operands. -/
theorem witness_BindingAndFabricManagerCommands :
    (((.configurationRequest 0 0 false 4095 false 0 : Instr).wf = true) ∧ (((wPort 1 6) : Dev).vcsExists 0 = true) ∧ (((wPort 1 6) : Dev).carries 0 = true) ∧ (((wPort 1 6) : Dev).halted = false) ∧ (false = false) ∧ (4095 < 4096) ∧ (false = false)) ∧
    (((.configurationRequest 0 0 false 0 true 0 : Instr).wf = true) ∧ (((wPort 1 6) : Dev).vcsExists 0 = true) ∧ (((wPort 1 6) : Dev).carries 0 = true) ∧ (((wPort 1 6) : Dev).halted = false) ∧ (false = false) ∧ (0 < 4096) ∧ (true = true)) ∧
    (((.configurationRequest 0 0 true 0 true 0 : Instr).wf = true) ∧ (((wPort 1 6) : Dev).vcsExists 0 = true) ∧ (((wPort 1 6) : Dev).carries 0 = true) ∧ (((wPort 1 6) : Dev).halted = false) ∧ (true = true) ∧ (0 < 4096)) ∧
    (((.mldLdLost 0 3 : Instr).wf = true) ∧ (((((wPort 2 6).put PRT_STAT_MLD 0 1).put DEC_EXPORT_V 0 1 0) : Dev).isDown 0 = true) ∧ (((((wPort 2 6).put PRT_STAT_MLD 0 1).put DEC_EXPORT_V 0 1 0) : Dev).on PRT_STAT_DL_ACTIVE 0 = true) ∧ (((((wPort 2 6).put PRT_STAT_MLD 0 1).put DEC_EXPORT_V 0 1 0) : Dev).on PRT_STAT_MLD 0 = true) ∧ ((((((wPort 2 6).put PRT_STAT_MLD 0 1).put DEC_EXPORT_V 0 1 0) : Dev).lostTgts 0).contains ⟨((((wPort 2 6).put PRT_STAT_MLD 0 1).put DEC_EXPORT_V 0 1 0) : Dev).myId, false, 0, 3⟩ = true) ∧ (((((wPort 2 6).put PRT_STAT_MLD 0 1).put DEC_EXPORT_V 0 1 0) : Dev).halted = false)) ∧
    (((.removalNotice 0 5 3 : Instr).wf = true) ∧ ((wHome 2 { body := { op := .removalNotice, arg := 5, ld := 3 } } : Dev).halted = false) ∧ ((wHome 2 { body := { op := .removalNotice, arg := 5, ld := 3 } } : Dev).firstOf 0 (removalHit 0 5 3) = some ({ body := { op := .removalNotice, arg := 5, ld := 3 } } : Msg)) ∧ (3 < 16)) ∧
    (((.removalNotice 0 5 1027 : Instr).wf = true) ∧ ((wHome 2 { body := { op := .agentRemoved, agent := 3 } } : Dev).halted = false) ∧ ((wHome 2 { body := { op := .agentRemoved, agent := 3 } } : Dev).firstOf 0 (removalHit 0 5 1027) = some ({ body := { op := .agentRemoved, agent := 3 } } : Msg)) ∧ (1024 ≤ 1027)) ∧
    (((.vppbPowerControl 0 0 true : Instr).wf = true) ∧ ((((wPort 1 6).setTab 0x03 0 0 0 (BitVec.ofNat 64 (1 + 2 ^ 23))) : Dev).vcsExists 0 = true) ∧ ((((wPort 1 6).setTab 0x03 0 0 0 (BitVec.ofNat 64 (1 + 2 ^ 23))) : Dev).carries 0 = true) ∧ ((((wPort 1 6).setTab 0x03 0 0 0 (BitVec.ofNat 64 (1 + 2 ^ 23))) : Dev).halted = false) ∧ (((((wPort 1 6).setTab 0x03 0 0 0 (BitVec.ofNat 64 (1 + 2 ^ 23))) : Dev).bindNow 0 0).kind ≠ 0) ∧ (((((wPort 1 6).setTab 0x03 0 0 0 (BitVec.ofNat 64 (1 + 2 ^ 23))) : Dev).bindNow 0 0).slotV = true)) ∧
    (((.getVirtualCxlSwitchInfo 1 0 0 5 : Instr).wf = true) ∧ ((wUp : Dev).FmOpen 1)) ∧
    (((.bindVppb 1 0 0 2 0 : Instr).wf = true) ∧ ((wUp : Dev).FmOpen 1) ∧ ((wUp : Dev).locked ⟨.dec, 0 / 8⟩ = false)) ∧
    (((.unbindVppb 1 0 0 2 : Instr).wf = true) ∧ ((wUp : Dev).FmOpen 1) ∧ (2 ≤ 2) ∧ ((wUp : Dev).locked ⟨.dec, 0 / 8⟩ = false)) ∧
    (((.generateAerEvent 1 0 0 0 : Instr).wf = true) ∧ (((wPort 1 6) : Dev).FmOpen 1) ∧ (((wPort 1 6) : Dev).vcsExists 0 = true)) ∧
    (((.identifySwitchDevice 1 : Instr).wf = true) ∧ ((wUp : Dev).FmOpen 1)) ∧
    (((.getPhysicalPortState 1 ([127] : List Nat) : Instr).wf = true) ∧ ((wUp : Dev).FmOpen 1) ∧ (([127] : List Nat).all (· < 128) = true)) ∧
    (((.physicalPortControl 1 0 3 : Instr).wf = true) ∧ (((wPort 2 6) : Dev).FmOpen 1) ∧ (3 = 3) ∧ (((wPort 2 6) : Dev).cxlPort 0 = true) ∧ ([tsL0, tsL0p, tsL1].contains (((wPort 2 6) : Dev).portState 0) = true)) ∧
    (((.sendLdCxlIoConfigRequest 1 128 0 0 false 0 : Instr).wf = true) ∧ ((wUp : Dev).FmOpen 1) ∧ (128 ≤ 128)) ∧
    (((.sendLdCxlIoConfigRequest 1 0 0 0 false 0 : Instr).wf = true) ∧ (((wPort 2 6) : Dev).FmOpen 1) ∧ (0 < 128) ∧ (((wPort 2 6) : Dev).isDown 0 = true) ∧ (((wPort 2 6) : Dev).carries 0 = true) ∧ (((wPort 2 6) : Dev).halted = false)) ∧
    (((.tunnelManagementCommand 1 128 ([] : Bytes) : Instr).wf = true) ∧ ((wUp : Dev).FmOpen 1) ∧ (128 ≤ 128)) ∧
    (((.tunnelManagementCommand 1 0 ([] : Bytes) : Instr).wf = true) ∧ ((((wPort 2 6).put PRT_STAT_MLD 0 1) : Dev).FmOpen 1) ∧ (0 < 128) ∧ ((((wPort 2 6).put PRT_STAT_MLD 0 1) : Dev).isDown 0 = true) ∧ ((((wPort 2 6).put PRT_STAT_MLD 0 1) : Dev).carries 0 = true) ∧ ((((wPort 2 6).put PRT_STAT_MLD 0 1) : Dev).on PRT_STAT_MLD 0 = true) ∧ ((((wPort 2 6).put PRT_STAT_MLD 0 1) : Dev).halted = false)) := by
  and_intros
  all_goals first | decide +kernel | exact ⟨by decide +kernel, by decide +kernel⟩

/-- No path is open at reset; each command is well formed. -/
theorem witness_ClosedPathHasNoEffect :
    ({} : Dev).pathOpen 1 = false ∧
    ([.registerWrite 1 0 0 0,
      .enableSet 1 0,
      .enableClear 1 0,
      .brst 1 0,
      .commit 1 0,
      .force 1 0,
      .discard 1 0,
      .pglockLocked 1 0,
      .devCfgLock 1,
      .tblRead 1 0 false,
      .tblWrite 1 0 false,
      .tblClear 1 0 false,
      .tblBadOp 1 0 0 false,
      .acquire 1 0 0 0,
      .renew 1 0 0 0,
      .release 1 0 0,
      .breakLock 1 0,
      .clrBroken 1 0 0,
      .devRstWarm 1 0,
      .devRstControl 1 0,
      .devRstSlice 1 0 0,
      .devRstDomain 1 0 0,
      .devRstPort 1 0 0,
      .mboxGo 1,
      .marginGo 1 0,
      .marginStop 1 0,
      .eqCacheWrite 1 0 0 0,
      .hotReset 1 0,
      .retrain 1 0,
      .disable 1 0,
      .disableClear 1 0,
      .drlAttach 1 0 0 false,
      .retire 1 0 0,
      .getVirtualCxlSwitchInfo 1 0 0 0,
      .bindVppb 1 0 0 0 0,
      .unbindVppb 1 0 0 0,
      .generateAerEvent 1 0 0 0,
      .identifySwitchDevice 1,
      .getPhysicalPortState 1 [],
      .physicalPortControl 1 0 0,
      .sendLdCxlIoConfigRequest 1 0 0 0 false 0,
      .tunnelManagementCommand 1 0 [],
      .dirPeek 1 0,
      .sccFlushClean 1 0,
      .pprSoft 1 0,
      .pprHard 1 0,
      .spuOn 1 0,
      .spuOff 1 0,
      .clearFet 1 0 0,
      .measure 1,
      .advanceArc 1 false,
      .dbgChallenge 1,
      .dbgUnlock 1,
      .bundleApply 1,
      .rcvWrite 1 0,
      .rcvBoot 1 0 none,
      .relayIn 1 0,
      .relayOutRelease 1,
      .anchorSet 1 0,
      .drlRekey 1 0,
      .fltStatusClear 1 0 0,
      .fltInject 1 0 0,
      .fltCountClr 1 0,
      .tmbSet 1 0,
      .fire 1,
      .clrall 1,
      .cntSelWrite 1 0 0 0,
      .cntClr 1 0 0,
      .tlmPop 1,
      .tlmRhead 1 0,
      .tlmRingEnable 1,
      .refusedRead 1 0 0] : List Instr).all Instr.wf = true := by
  and_intros <;> decide +kernel

/-- A halted device; each command is well formed. -/
theorem witness_HaltedDeviceDoesNothing :
    (wUp.put FAG_STAT_HALTED 0 1).halted = true ∧
    ([.calDone 0,
      .calTimeout 0,
      .failedRetry 0,
      .elasticErr 0 0,
      .healthWindow 0 [],
      .trainingControlBlock 0 0 [],
      .laneLock 0 0 [],
      .lockLost 0 0 [],
      .drLockDone 0,
      .drLockTimeout 0,
      .drTrainDone 0,
      .drTrainTimeout 0,
      .drAlignDone ⟨0, 0⟩,
      .drAlignTimeout 0,
      .drRetrainTimeout 0,
      .partnerMargining 0 ⟨0, .clearErrors⟩,
      .gpfAnswer 0,
      .cplTimeout 0 0,
      .dunrunBlock 0 0 [],
      .linkInit 0,
      .initResend 0,
      .cellPresent ⟨[], .none⟩,
      .heldAdmit ⟨0, .none⟩,
      .egressSelect ⟨0, false⟩,
      .bankDecision 0 0 .none,
      .egsSample 0,
      .configurationRequest 0 0 false 0 false 0,
      .mldLdLost 0 0,
      .removalNotice 0 0 0,
      .vppbPowerControl 0 0 false,
      .snoopAnswer 0,
      .targetAnswer 0,
      .lineQueueHead 0 0,
      .retryOffer 0 0 0,
      .snoopTimeout 0 0 0,
      .quenchNotice 0 0 0,
      .quenchScanDone 0,
      .acceptanceIndexRecord 0,
      .trayHoldRelease 0,
      .streamingWrite 0,
      .drainWrite 0 0,
      .drainRead 0 0,
      .contextFetch 0,
      .descriptorFetch 0 [] false,
      .barrierComplete 0,
      .completionRecord 0 false,
      .moveLiveCopyDone 0,
      .moveLiveRecopyDone 0,
      .moveLiveHoldReady 0,
      .moveLiveHoldTimeout 0,
      .ptmTimer,
      .ptmRequest 0,
      .telemetryRecord 0 0 0 [] false,
      .drRetrainDone 0,
      .remoteSnoop 0] : List Instr).all Instr.wf = true := by
  and_intros <;> decide +kernel

/-- The hypotheses of each clause are met. -/
theorem witness_FramesOfOnePage :
    wUp.Reaches 1 ⟨.lck, 0⟩ ∧
    ((wUp.put LCK_STAT_HELD 0 1 5).put LCK_STAT_PATH 0 1 5).Reaches 1 ⟨.lck, 0⟩ ∧
    ((wUp.put LCK_STAT_HELD 0 1 5).put LCK_STAT_PATH 0 1 5).lockMine 1 5 0 = true ∧
    wUp.Reaches 1 ⟨.drl, 31⟩ ∧
    wUp.Finds 1 768 ⟨.pol, 0⟩ 0x068 ∧
    wUp.Finds 1 768 ⟨.pol, 0⟩ (0x100 + 8 * (15 / 2)) ∧
    wUp.Finds 1 768 ⟨.pol, 0⟩ (0x100 + 8 * 7) ∧
    wUp.Finds 1 768 ⟨.pol, 0⟩ 0x018 ∧
    wUp.tabUe.contains (tkey 0x0C 127 (wUp.gatesAt 127 wUp.fab).1 0) = false ∧
    ((.acquire 1 0 0 1 : Instr).wf = true) ∧
    ((.renew 1 0 0 1 : Instr).wf = true) ∧
    ((.release 1 0 0 : Instr).wf = true) ∧
    ((.clrBroken 1 0 0 : Instr).wf = true) ∧
    ((.drlAttach 1 31 63 false : Instr).wf = true) ∧
    ((.retryCountReset 31 : Instr).wf = true) ∧
    ((.coolDone 31 : Instr).wf = true) ∧
    ((.gateEdge 127 : Instr).wf = true) ∧
    ((.partnerMargining 63 ⟨8, .clearErrors⟩ : Instr).wf = true) ∧
    ((.ideKeySwitch 127 : Instr).wf = true) ∧
    ((.shareEntryEnd 63 : Instr).wf = true) ∧
    ((.fltCountClr 1 768 : Instr).wf = true) ∧
    ((.cntClr 1 768 15 : Instr).wf = true) ∧
    ((.cntSelWrite 1 768 7 0 : Instr).wf = true) ∧
    ((.discard 1 768 : Instr).wf = true) := by
  and_intros
  all_goals first | decide +kernel | rfl | exact ⟨by decide +kernel, by decide +kernel⟩ | exact ⟨by decide +kernel, ⟨by decide +kernel, by decide +kernel⟩, by decide +kernel⟩

/-- Each command is well formed. -/
theorem witness_FramesOfUnitState :
    ((.insertionTimer 0 : Instr).wf = true) ∧
    ((.measureHoldReady : Instr).wf = true) ∧
    ((.measureSettled 0 : Instr).wf = true) ∧
    ((.measureLoadEnd 0 0 : Instr).wf = true) ∧
    ((.drainRead 0 0 : Instr).wf = true) ∧
    ((.waitBufferEntryFree 0 0 : Instr).wf = true) := by
  and_intros <;> decide +kernel

/-- A device whose clock trees run with nothing pending, and one whose clock trees stand still. -/
theorem witness_IdleStepIsOneTimeclkCycle :
    State.reset.pending = [] ∧
    wUp.clocked = true ∧
    wUp.sec.bundle = none ∧
    wUp.rst.active = [] ∧
    wUp.obs.clk.setNext = none ∧
    (wPhase .off).clocked = false := by
  and_intros
  all_goals first | decide +kernel | rfl

/-- Firmware does not run at reset; the local time wraps. -/
theorem witness_TickMovesLocalTimeByThirtyTwo :
    ({} : Dev).on DEV_READY_FW_RUN = false ∧
    (({ obs := { clk := { local_ := 2 ^ 64 - 32 } } } : Dev).obs.clk.local_ + 32) % 2 ^ 64 = 0 := by
  and_intros <;> decide +kernel

/-- A well-formed command. -/
theorem witness_WellFormedCommandsComplete :
    Instr.tapReset.wf = true ∧
    (Instr.calDone 63).wf = true := by
  and_intros <;> decide +kernel

/-- The state after reset is sound and its step answers a next state. -/
theorem witness_StepKeepsSound :
    State.reset.dev.Sound ∧
    ∃ t, step State.reset = .next t := by
  and_intros
  all_goals first | decide +kernel | exact ⟨_, rfl⟩

/-- A field, a field beside it and a register elsewhere. -/
theorem witness_RegisterFieldReadsWhatWasPut :
    LCK_STAT_TAG.lo + LCK_STAT_TAG.width ≤ 64 ∧
    LCK_STAT_PATH.reg = LCK_STAT_TAG.reg ∧
    LCK_STAT_PATH.lo + LCK_STAT_PATH.width ≤ LCK_STAT_TAG.lo ∧
    LCK_STAT_TAG.lo + LCK_STAT_TAG.width ≤ LCK_STAT_REMAIN.lo ∧
    LCK_STAT.addr 0 4 ≠ LCK_STAT_TAG.reg.addr 0 5 := by
  and_intros <;> decide +kernel

/-- The memory after reset is canonical; the bounds of a two-byte run at 64. -/
theorem witness_LarderMemoryReadsWhatWasWritten :
    SMap.wf (fun _ => (0 : Byte)) State.reset.dev.ldr.mem = true ∧
    1 < ([1, 2] : Bytes).length ∧
    63 < 64 ∧
    64 + ([1, 2] : Bytes).length ≤ 66 := by
  and_intros <;> decide +kernel

/-- A line with no error, and a write of every byte; the line's bounds. -/
theorem witness_LineWriteStoresItsBytes :
    ({} : Dev).ldr.ue.contains 5 = false ∧
    (2 ^ 64 - 1) % 2 ^ 64 = 2 ^ 64 - 1 ∧
    5 * 64 ≤ 383 ∧ 383 < 5 * 64 + 64 ∧
    bit (2 ^ 64 - 1) (383 - 5 * 64) = true := by
  and_intros <;> decide +kernel

/-- A home slice's write waits at channel 0. -/
theorem witness_LarderWriteStoresItsBytes :
    (Instr.larderWrite 0).wf = true ∧
    (wChan 2 [{ line := 5, write := true, be := 2 ^ 64 - 1, m := { home := some 0 } }]).takeReq 0 true = some { line := 5, write := true, be := 2 ^ 64 - 1, m := { home := some 0 } } ∧
    ({ line := 5, write := true, be := 2 ^ 64 - 1, m := { home := some 0 } } : LdrReq).m.home.isSome = true ∧
    (wChan 2 [{ line := 5, write := true, be := 2 ^ 64 - 1, m := { home := some 0 } }]).get LDR_CHSTAT_STATE 0 ≠ 4 ∧
    atomOp ({ line := 5, write := true, be := 2 ^ 64 - 1, m := { home := some 0 } } : LdrReq).m.body.op = false ∧
    (wChan 2 [{ line := 5, write := true, be := 2 ^ 64 - 1, m := { home := some 0 } }]).ldr.ue.contains 5 = false := by
  and_intros
  all_goals first | decide +kernel | rfl

/-- A home slice's read waits at channel 0. -/
theorem witness_LarderReadAnswersTheLine :
    (Instr.larderRead 0).wf = true ∧
    (wChan 2 [{ line := 5, m := { home := some 0 } }]).takeReq 0 false = some { line := 5, m := { home := some 0 } } ∧
    ({ line := 5, m := { home := some 0 } } : LdrReq).m.home = some 0 ∧
    ({ line := 5, m := { home := some 0 } } : LdrReq).home = 0 ∧
    (wChan 2 [{ line := 5, m := { home := some 0 } }]).get LDR_CHSTAT_STATE 0 ≠ 4 ∧
    (wChan 2 [{ line := 5, m := { home := some 0 } }]).ldr.ue.contains 5 = false ∧
    (wChan 2 [{ line := 5, m := { home := some 0 } }]).ldr.ce.contains 5 = false := by
  and_intros
  all_goals first | decide +kernel | rfl

/-- A free lock and a held one, at the last lock and the smallest lease. -/
theorem witness_AcquireTakesAFreeLock :
    (Instr.acquire 1 63 65535 1).wf = true ∧
    wUp.Reaches 1 ⟨.lck, 0⟩ ∧
    wUp.on LCK_STAT_HELD 0 63 = false ∧
    ((wUp.put LCK_STAT_HELD 0 1 5).put LCK_STAT_PATH 0 1 5).Reaches 1 ⟨.lck, 0⟩ ∧
    ((wUp.put LCK_STAT_HELD 0 1 5).put LCK_STAT_PATH 0 1 5).on LCK_STAT_HELD 0 5 = true ∧
    (Instr.acquire 1 5 0 0).wf = true := by
  and_intros
  all_goals first | decide +kernel | rfl | exact ⟨by decide +kernel, by decide +kernel⟩

/-- The holder's commands, and another writer's. -/
theorem witness_LockHolderCommands :
    ((wUp.put LCK_STAT_HELD 0 1 5).put LCK_STAT_PATH 0 1 5).Reaches 1 ⟨.lck, 0⟩ ∧
    ((wUp.put LCK_STAT_HELD 0 1 5).put LCK_STAT_PATH 0 1 5).lockMine 1 5 0 = true ∧
    ((wUp.put LCK_STAT_HELD 0 1 5).put LCK_STAT_PATH 0 1 5).lockMine 1 5 1 = false ∧
    ((wUp.put LCK_STAT_HELD 0 1 5).put LCK_STAT_PATH 0 1 5).lockMine 1 6 0 = false ∧
    (Instr.renew 1 5 0 1).wf = true ∧
    (Instr.release 1 5 0).wf = true ∧
    (Instr.clrBroken 1 5 0).wf = true := by
  and_intros
  all_goals first | decide +kernel | rfl | exact ⟨by decide +kernel, by decide +kernel⟩

/-- A link that is enabled, one whose octet is taken, and one whose octet is free. -/
theorem witness_DrlAttachBindsALinkToAnOctet :
    (Instr.drlAttach 1 31 63 true).wf = true ∧
    (wUp.put (PGCTL_ENABLE .drl) 31 1).Reaches 1 ⟨.drl, 31⟩ ∧
    (wUp.put (PGCTL_ENABLE .drl) 31 1).on (PGCTL_ENABLE .drl) 31 = true ∧
    ((wUp.put DRL_ATTACH_VALID 3 1).put DRL_ATTACH_OCTET 3 63).Reaches 1 ⟨.drl, 31⟩ ∧
    ((wUp.put DRL_ATTACH_VALID 3 1).put DRL_ATTACH_OCTET 3 63).on (PGCTL_ENABLE .drl) 31 = false ∧
    ((wUp.put DRL_ATTACH_VALID 3 1).put DRL_ATTACH_OCTET 3 63).locked ⟨.drl, 31⟩ = false ∧
    (3 < 32 ∧ 3 ≠ 31 ∧ ((wUp.put DRL_ATTACH_VALID 3 1).put DRL_ATTACH_OCTET 3 63).on DRL_ATTACH_VALID 3 = true ∧ ((wUp.put DRL_ATTACH_VALID 3 1).put DRL_ATTACH_OCTET 3 63).get DRL_ATTACH_OCTET 3 = 63) ∧
    wUp.Reaches 1 ⟨.drl, 31⟩ ∧
    wUp.locked ⟨.drl, 31⟩ = false ∧
    wUp.on (PGCTL_ENABLE .drl) 31 = false ∧
    ∀ j, j < 32 → j ≠ 31 → wUp.on DRL_ATTACH_VALID j = true → wUp.get DRL_ATTACH_OCTET j ≠ 63 := by
  and_intros
  all_goals first | decide +kernel | rfl | exact ⟨by decide +kernel, by decide +kernel⟩

/-- An offset of the DEV page that holds no register. -/
theorem witness_OffsetWithoutRegister :
    wUp.pathOpen 1 = true ∧
    wUp.reachAt 0x7F8 8 = .inr ⟨.dev, 0⟩ ∧
    0x7F8 % 4096 < 0x800 ∧
    (⟨.dev, 0⟩ : Pg).regAt (0x7F8 % 4096 / 8 * 8) = none ∧
    (Instr.refusedRead 1 0x7F8 8).wf = true ∧
    (Instr.registerWrite 1 0x7F8 8 1).wf = true := by
  and_intros
  all_goals first | decide +kernel | rfl

/-- The POL page of port 1 of a Dunrun octet. -/
theorem witness_UnavailablePageStaysDisabled :
    Pg.at? (769 * 4096) = some ⟨.pol, 1⟩ ∧
    (wOct wUp 0 2 13).Reaches 1 ⟨.pol, 1⟩ ∧
    Blk.pol.alwaysOn = false ∧
    (wOct wUp 0 2 13).avail ⟨.pol, 1⟩ = false ∧
    (Instr.enableSet 1 769).wf = true ∧
    (wOct wUp 0 2 13).on (PGCTL_ENABLE .pol) 1 = false ∧
    ((⟨.pol, 1⟩ : Pg).regAt 0x010).isSome = true ∧
    ((⟨.pol, 1⟩ : Pg).regAt 0x010).map (·.1.reg) = some (PGSTAT .pol) := by
  and_intros
  all_goals first | decide +kernel | rfl | exact ⟨by decide +kernel, by decide +kernel⟩

/-- An instance and an index just beyond the binding table's range. -/
theorem witness_TableOperationOutOfRange :
    (Instr.tblOpDone 0 false).wf = true ∧
    SMap.get none ({ wUp with ctl := { wUp.ctl with tblOps := [(0, some { op := 2, table := 3, inst := 128 })] } } : Dev).ctl.tblOps 0 = some ({ op := 2, table := 3, inst := 128 } : TblOp) ∧
    SMap.get none ({ wUp with ctl := { wUp.ctl with tblOps := [(0, some { op := 1, table := 3, inst := 127, index := 128 })] } } : Dev).ctl.tblOps 0 = some ({ op := 1, table := 3, inst := 127, index := 128 } : TblOp) ∧
    tabInfo 3 = some ⟨.dec, 128, 128, 2, true, true⟩ ∧
    ({ wUp with ctl := { wUp.ctl with tblOps := [(0, some { op := 2, table := 3, inst := 128 })] } } : Dev).ctl.commits = [] ∧
    (3 : Nat) ≠ 0x07 ∧ (3 : Nat) ≠ 0x0D := by
  and_intros
  all_goals first | decide +kernel | rfl

/-- The binding table is shadowed. -/
theorem witness_ShadowedTableWriteLeavesActiveCopy :
    tabInfo 3 = some ⟨.dec, 128, 128, 2, true, true⟩ ∧
    (⟨.dec, 128, 128, 2, true, true⟩ : TabInfo).shadowed = true ∧
    (2 : Nat) ≠ 1 := by
  and_intros
  all_goals first | decide +kernel | rfl

/-- The greatest target key and line. -/
theorem witness_HomeSliceIsAnXorOfGroups :
    4095 < 2 ^ 12 ∧
    2 ^ 46 - 1 < 2 ^ 46 := by
  and_intros <;> decide +kernel

/-- The first and last line of a group. -/
theorem witness_LinesOfOneGroupLieInDifferentSlices :
    0 < 16 ∧
    15 < 16 ∧
    (0 : Nat) ≠ 15 := by
  and_intros <;> decide +kernel

/-- A two-way interleaved entry of 512 MiB, at its first and last address. -/
theorem witness_DecodeAndReverseDecodeAgree :
    (hdmOf (BitVec.ofNat 64 (1 + 2 + 8 + 2 ^ 24)) 2 0).mode = 1 ∧
    (hdmOf (BitVec.ofNat 64 (1 + 2 + 8 + 2 ^ 24)) 2 0).lo ≤ (hdmOf (BitVec.ofNat 64 (1 + 2 + 8 + 2 ^ 24)) 2 0).lo ∧
    (hdmOf (BitVec.ofNat 64 (1 + 2 + 8 + 2 ^ 24)) 2 0).lo + (hdmOf (BitVec.ofNat 64 (1 + 2 + 8 + 2 ^ 24)) 2 0).bytes - 1 < (hdmOf (BitVec.ofNat 64 (1 + 2 + 8 + 2 ^ 24)) 2 0).lo + (hdmOf (BitVec.ofNat 64 (1 + 2 + 8 + 2 ^ 24)) 2 0).bytes ∧
    (hdmOf (BitVec.ofNat 64 (1 + 2 + 8 + 2 ^ 24)) 2 0).bytes % ((hdmOf (BitVec.ofNat 64 (1 + 2 + 8 + 2 ^ 24)) 2 0).gran * (hdmOf (BitVec.ofNat 64 (1 + 2 + 8 + 2 ^ 24)) 2 0).ways) = 0 := by
  and_intros <;> decide +kernel

/-- Entry 0 of VCS 0 holds the last address of its 256 MiB; no other entry is valid. -/
theorem witness_DecodeTakesTheMatchingEntry :
    (((wBound wUp).setTab 0x04 0 0 1 1).hdm 0 0 0).v = true ∧
    (((wBound wUp).setTab 0x04 0 0 1 1).hdm 0 0 0).lo ≤ 2 ^ 28 - 1 ∧
    2 ^ 28 - 1 < (((wBound wUp).setTab 0x04 0 0 1 1).hdm 0 0 0).lo + (((wBound wUp).setTab 0x04 0 0 1 1).hdm 0 0 0).bytes ∧
    ∀ j, j < 32 → j ≠ 0 → (((wBound wUp).setTab 0x04 0 0 1 1).hdm 0 0 j).v = true → 2 ^ 28 - 1 < (((wBound wUp).setTab 0x04 0 0 1 1).hdm 0 0 j).lo ∨ (((wBound wUp).setTab 0x04 0 0 1 1).hdm 0 0 j).lo + (((wBound wUp).setTab 0x04 0 0 1 1).hdm 0 0 j).bytes ≤ 2 ^ 28 - 1 := by
  and_intros <;> decide +kernel

/-- An equal edge waits; three wait; four wait. -/
theorem witness_CrumbHoldsAtMostFourEdges :
    ({ obs := { crumb := { edges := (List.range 4).map fun i => { at_ := 4 * i, causes := [1] } } } } : Dev).obs.crumb.edges.any (·.at_ = 8) = true ∧
    ({ obs := { crumb := { edges := (List.range 3).map fun i => { at_ := 4 * i, causes := [1] } } } } : Dev).obs.crumb.edges.any (·.at_ = 100) = false ∧
    ({ obs := { crumb := { edges := (List.range 3).map fun i => { at_ := 4 * i, causes := [1] } } } } : Dev).obs.crumb.edges.length < 4 ∧
    ({ obs := { crumb := { edges := (List.range 4).map fun i => { at_ := 4 * i, causes := [1] } } } } : Dev).obs.crumb.edges.any (·.at_ = 100) = false ∧
    4 ≤ ({ obs := { crumb := { edges := (List.range 4).map fun i => { at_ := 4 * i, causes := [1] } } } } : Dev).obs.crumb.edges.length := by
  and_intros <;> decide +kernel

/-- Queue 0 of slice 0 has a COPY ready; engine 3 gives the queue its turn, and goes on with it. -/
theorem witness_EnginesServeTheirSlice :
    (wDescs [wDesc 1]).nextDesc 0 1 = some (0, wDesc 1) ∧
    ({ wDescs [wDesc 1] with dmv := { (wDescs [wDesc 1]).dmv with turn := [(3, { queue := some 0, moved := 4095 })] } } : Dev).nextDesc 0 1 = some (3, wDesc 1) ∧
    3 / 4 = 3 / 4 ∧
    ({ wDescs [wDesc 1] with dmv := { (wDescs [wDesc 1]).dmv with turn := [(3, { queue := some 0, moved := 4095 })] } } : Dev).turnOf 3 = some 0 := by
  and_intros <;> decide +kernel

/-- R483: a turn that has moved WEIGHT × 4 KiB is over, and the round goes on. -/
theorem test_turn_over :
    ({ wDescs [wDesc 1] with dmv := { (wDescs [wDesc 1]).dmv with turn := [(3, { queue := some 0, moved := 4096 })] } } : Dev).nextDesc 0 1 = some (0, wDesc 1) := by
  decide +kernel

end Sys2Proof.Machine
end

namespace Sys2Proof.Machine

/-! # Register access, the mailbox and the management paths (chapter 2, Control Space), and the Larder's bytes

Equations of the commands' meanings case by case, and the frame of a register field and of a run of Larder bytes. -/

/-! ## Outcomes and access -/

/-- A meaning whose operands are accepted gives the state after its device. -/
theorem run_of_ok {ok : Bool} (row : String) (s : State) (d : Dev) (h : ok = true) : run ok row s d = .next (s.after d) :=
  if_pos h

/-- Where the path reaches the page, an access is its effect (R42, R590). -/
theorem Dev.access_of_reaches {d : Dev} {path : Nat} {g : Pg} (h : d.Reaches path g) (off : Nat) (f : Dev → Dev) :
    d.access path g off f = f d := by
  obtain ⟨hopen, hready⟩ := h
  simp [Dev.access, hopen, hready]

/-! ## The commands that a well-formed operand list runs -/

theorem exec_registerWrite (s : State) {path addr nbytes val : Nat} (h : (Instr.registerWrite path addr nbytes val).wf = true) :
    exec (.registerWrite path addr nbytes val) s = .next (s.after (s.dev.registerWriteRow path addr nbytes val)) :=
  run_of_ok "REGISTER_WRITE" s _ h

theorem exec_refusedRead (s : State) {path addr nbytes : Nat} (h : (Instr.refusedRead path addr nbytes).wf = true) :
    exec (.refusedRead path addr nbytes) s = .next (s.after (s.dev.refusedReadRow path addr nbytes)) :=
  run_of_ok "REFUSED_READ" s _ h

theorem exec_mgmtPfReset (s : State) {cause : Nat} (h : (Instr.mgmtPfReset cause).wf = true) :
    exec (.mgmtPfReset cause) s = .next (s.after (s.dev.mgmtPfResetRow cause)) :=
  run_of_ok "MGMT_PF_RESET" s _ h

theorem exec_msixUnmask (s : State) (wr : MsixWr) : exec (.msixUnmask wr) s = .next (s.after (s.dev.msixUnmaskRow wr)) :=
  run_of_ok "MSIX_UNMASK" s _ rfl

theorem exec_mctpPathReset (s : State) {m : Nat} (h : (Instr.mctpPathReset m).wf = true) :
    exec (.mctpPathReset m) s = .next (s.after (s.dev.pathReset (2 + m))) :=
  run_of_ok "MCTP_PATH_RESET" s _ h

theorem exec_tapReset (s : State) : exec .tapReset s = .next (s.after (s.dev.pathReset 5)) :=
  run_of_ok "TAP_RESET" s _ rfl

theorem exec_mboxGo (s : State) {path : Nat} (h : (Instr.mboxGo path).wf = true) :
    exec (.mboxGo path) s = .next (s.after (s.dev.mboxGoRow path)) :=
  run_of_ok "MBOX_GO" s _ h

theorem exec_mboxDone (s : State) {status : Nat} {resp : Bytes} (h : (Instr.mboxDone status resp).wf = true) :
    exec (.mboxDone status resp) s = .next (s.after (s.dev.mboxDoneRow status resp)) :=
  run_of_ok "MBOX_DONE" s _ h

/-! ## Writes and reads of registers (R12, R42) -/

/-- A write of a page goes to the register at its word's offset; DEV_RST has a meaning of its own (R574). -/
theorem Dev.pageWrite_of_regAt (d : Dev) (path : Nat) {g : Pg} {off : Nat} (n v : Nat) {x : RegD} {j : Nat} (hoff : off < 0x800)
    (hreg : g.regAt (off / 8 * 8) = some (x, j)) (hrst : x.reg ≠ DEV_RST) :
    d.pageWrite path g off n v = d.regWrite path g x j (halfVal off n v) (halfMask off n) := by
  simp [Dev.pageWrite, Nat.not_le.2 hoff, hreg, hrst]

section
variable {d : Dev} {path addr nbytes : Nat} {g : Pg} (hopen : d.pathOpen path = true)
include hopen

/-- A write that reaches a page, anywhere but at SEC_CMD, is a write of the page. -/
theorem Dev.registerWriteRow_page (val : Nat) (hreach : d.reachAt addr nbytes = .inr g)
    (hsec : g.blk ≠ .sec ∨ addr % 4096 / 8 * 8 ≠ SEC_CMD.off) :
    d.registerWriteRow path addr nbytes val = d.pageWrite path g (addr % 4096) nbytes val := by
  have hcmd : ¬ (g.blk = .sec ∧ addr % 4096 / 8 * 8 = SEC_CMD.off) := not_and_or.2 hsec
  simp [Dev.registerWriteRow, hopen, hreach, hcmd]

/-- A write at SEC_CMD hands the written bits to the security block. -/
theorem Dev.registerWriteRow_secCmd (val : Nat) (hreach : d.reachAt addr nbytes = .inr g)
    (hblk : g.blk = .sec) (hoff : addr % 4096 / 8 * 8 = SEC_CMD.off) :
    d.registerWriteRow path addr nbytes val =
      d.secCmd (halfVal (addr % 4096) nbytes val &&& halfMask (addr % 4096) nbytes) := by
  simp [Dev.registerWriteRow, hopen, hreach, hblk, hoff]

/-- A refused read is recorded and completes with an abort (R44). -/
theorem Dev.refusedReadRow_refused {c : Nat} (hreach : d.reachAt addr nbytes = .inl c) :
    d.refusedReadRow path addr nbytes = (d.badAccess path addr c false).emit (.readAbort path c) := by
  simp [Dev.refusedReadRow, hopen, hreach]

/-- A read that reaches a page answers the bytes of its word; only TLM_POP, on the telemetry page, moves state. -/
theorem Dev.refusedReadRow_page (hreach : d.reachAt addr nbytes = .inr g) (hblk : g.blk ≠ .tlm) :
    d.refusedReadRow path addr nbytes = d.emit (.readData path
      (((d.readReg g (addr % 4096 / 8 * 8)).toNat >>> (8 * (addr % 4096 % 8))) % 2 ^ (8 * nbytes))) := by
  simp [Dev.refusedReadRow, hopen, hreach, hblk]

end

/-! ## The management PF (R40, R64, R68) -/

theorem Dev.mgmtPfResetRow_up {d : Dev} (cause : Nat) (hup : d.ctl.pfUp = true) :
    d.mgmtPfResetRow cause = d.pfReset (cause ≠ 2) := if_pos hup

/-- The dword of MSI-X Enable and Function Mask takes both bits and delivers what is no longer masked. -/
theorem Dev.pfConfigWrite_msix (d : Dev) {off : Nat} (val : Nat) (hoff : off / 4 = Config.msixDword) :
    d.pfConfigWrite off val =
      ({ d with ctl := { d.ctl with msixEn := bit val 31, fnMask := bit val 30 } } : Dev).msixDeliver := if_pos hoff

section
variable {d : Dev} (hup : d.ctl.pfUp = true)
include hup

theorem Dev.msixUnmaskRow_vector {v : Nat} (addr data : Nat) (masked : Bool) (hv : v < 2048) :
    d.msixUnmaskRow (.vector v addr data masked) =
      ({ d with ctl := { d.ctl with
          vecOpen := if masked then d.ctl.vecOpen.filter (· ≠ v) else d.ctl.vecOpen.filter (· ≠ v) ++ [v]
          vecMsg := SMap.set (0, 0) d.ctl.vecMsg v (addr, data) } } : Dev).msixDeliver := by
  simp [Dev.msixUnmaskRow, hup, Nat.not_le.2 hv]

theorem Dev.msixUnmaskRow_control (enable fnMask busMaster : Bool) :
    d.msixUnmaskRow (.control enable fnMask busMaster) =
      ({ d with ctl := { d.ctl with msixEn := enable, fnMask := fnMask, busMaster := busMaster } } : Dev).msixDeliver := by
  simp [Dev.msixUnmaskRow, hup]

theorem Dev.msixUnmaskRow_config (off val : Nat) : d.msixUnmaskRow (.config off val) = d.pfConfigWrite off val := by
  simp [Dev.msixUnmaskRow, hup]

theorem Dev.msixUnmaskRow_readConfig (off : Nat) :
    d.msixUnmaskRow (.readConfig off) = d.emit (.readData 1 (d.pfConfig off).toNat) := by
  simp [Dev.msixUnmaskRow, hup]

theorem Dev.msixUnmaskRow_readTable (off : Nat) :
    d.msixUnmaskRow (.readTable off) = d.emit (.readData 1 (d.pfTable off)) := by
  simp [Dev.msixUnmaskRow, hup]

end

/-! ## The firmware mailbox (R71) -/

/-- GO on an idle mailbox sets GO and BUSY. -/
theorem Dev.mboxGo_idle {d : Dev} (hidle : d.on MGT_MBOX_CTL_BUSY = false) :
    d.mboxGo = (d.put MGT_MBOX_CTL_GO 0 1).put MGT_MBOX_CTL_BUSY 0 1 := by
  simp [Dev.mboxGo, hidle]

theorem Dev.mboxGoRow_of_reaches {d : Dev} {path : Nat} (h : d.Reaches path ⟨.mgt, 0⟩) : d.mboxGoRow path = d.mboxGo :=
  Dev.access_of_reaches h _ _

/-- The mailbox after a command ends: the response in its buffer, the status, and DONE in the place of GO and BUSY. -/
def Dev.mboxAnswer (d : Dev) (status : Nat) (resp : Bytes) : Dev :=
  (((((List.range 64).foldl (fun d i => d.setWord MGT_MBOX_BUF 0 (BitVec.ofNat 64 (leNat ((resp.drop (8 * i)).take 8))) i) d).put
    MGT_MBOX_CTL_STATUS 0 status).put MGT_MBOX_CTL_GO 0 0).put MGT_MBOX_CTL_BUSY 0 0).put MGT_MBOX_CTL_DONE 0 1

/-- Firmware's end of a running command: a command of Table 4-3 ends Unsupported with no response. -/
theorem Dev.mboxDoneRow_busy {d : Dev} (status : Nat) (resp : Bytes) (hbusy : d.on MGT_MBOX_CTL_BUSY = true)
    (hfw : d.on DEV_READY_FW_RUN = true) :
    d.mboxDoneRow status resp =
      if fmRefused (d.get MGT_MBOX_CTL_OPCODE) then d.mboxAnswer 3 [] else d.mboxAnswer status resp := by
  cases hno : fmRefused (d.get MGT_MBOX_CTL_OPCODE) <;> simp [Dev.mboxDoneRow, Dev.mboxAnswer, hbusy, hfw, hno]

/-! ## Frames of a register field and of a run of Larder bytes -/

/-- A register at another address reads as before a field is put. -/
theorem Dev.word_put_ne (d : Dev) (f : Fld) (r : Reg) (i v j k l : Nat) (h : r.addr k l ≠ f.reg.addr i j) :
    (d.put f i v j).word r k l = d.word r k l :=
  Dev.word_setWord_ne d f.reg r i k _ j l h

/-- Putting a field touches the register map alone. -/
theorem Dev.put_with_regs (d : Dev) (f : Fld) (i v j : Nat) : { d.put f i v j with regs := d.regs } = d := rfl

/-- A run of bytes keeps the canonical form of the Larder's memory: each byte of it does. -/
theorem Dev.lwrite_wf (d : Dev) (a : Nat) (l : Bytes) (h : SMap.wf (fun _ => (0 : Byte)) d.ldr.mem = true) :
    SMap.wf (fun _ => (0 : Byte)) (d.lwrite a l).ldr.mem = true := by
  induction l generalizing d a with
  | nil => exact h
  | cons b r ih => exact ih (d.setLbyte a b) (a + 1) (SMap.set_wf _ _ _ _ h)

/-! ## The obligations -/

/-- Settles O38: the field put, the fields beside it, the registers elsewhere, the rest of the device. -/
theorem registerFieldReadsWhatWasPut : Obligations.RegisterFieldReadsWhatWasPut := by
  intro d f i v j hf
  exact ⟨Dev.get_put_self d f i v j hf, fun g hr hg => Dev.get_put_field d f g i v j hr hg,
    fun r k l hr => Dev.word_put_ne d f r i v j k l hr, Dev.put_with_regs d f i v j⟩

/-- Settles O39, by the induction over the run of bytes that each of its three parts is. -/
theorem larderMemoryReadsWhatWasWritten : Obligations.LarderMemoryReadsWhatWasWritten := by
  intro d a l hwf
  exact ⟨fun i hi => Dev.lbyte_lwrite_in d a i l hi, fun x hx => Dev.lbyte_lwrite_out d a x l hx, Dev.lwrite_wf d a l hwf⟩

/-- Settles O10: each command runs its meaning, and the meaning's equation under the hypotheses gives the device. -/
theorem controlSpaceCommands : Obligations.ControlSpaceCommands := by
  refine ⟨?registerWrite, ?secCmd, ?readRefused, ?readAnswered, ?pfReset, ?vector, ?control, ?config, ?readConfig, ?readTable,
    ?mctpPath, ?tap, ?mboxGo, ?mboxDone, ?mboxUnsupported⟩
  case registerWrite =>
    intro s path addr nbytes val g x j hwf hopen hreach hsec hoff hreg hrst
    rw [exec_registerWrite s hwf, Dev.registerWriteRow_page hopen val hreach hsec,
      Dev.pageWrite_of_regAt s.dev path nbytes val hoff hreg hrst]
  case secCmd =>
    intro s path addr nbytes val g hwf hopen hreach hblk hoff
    rw [exec_registerWrite s hwf, Dev.registerWriteRow_secCmd hopen val hreach hblk hoff]
  case readRefused =>
    intro s path addr nbytes c hwf hopen hreach
    rw [exec_refusedRead s hwf, Dev.refusedReadRow_refused hopen hreach]
  case readAnswered =>
    intro s path addr nbytes g hwf hopen hreach hblk
    rw [exec_refusedRead s hwf, Dev.refusedReadRow_page hopen hreach hblk]
  case pfReset =>
    intro s cause hwf hup
    rw [exec_mgmtPfReset s hwf, Dev.mgmtPfResetRow_up cause hup]
  case vector =>
    intro s v addr data masked _ hup hv
    rw [exec_msixUnmask, Dev.msixUnmaskRow_vector hup addr data masked hv]
  case control =>
    intro s enable fnMask busMaster _ hup
    rw [exec_msixUnmask, Dev.msixUnmaskRow_control hup]
  case config =>
    intro s off val _ hup hoff
    rw [exec_msixUnmask, Dev.msixUnmaskRow_config hup, Dev.pfConfigWrite_msix s.dev val hoff]
  case readConfig =>
    intro s off _ hup
    rw [exec_msixUnmask, Dev.msixUnmaskRow_readConfig hup]
  case readTable =>
    intro s off _ hup
    rw [exec_msixUnmask, Dev.msixUnmaskRow_readTable hup]
  case mctpPath => exact fun s m hwf => exec_mctpPathReset s hwf
  case tap => exact fun s _ => exec_tapReset s
  case mboxGo =>
    intro s path hwf hreach hidle
    rw [exec_mboxGo s hwf, Dev.mboxGoRow_of_reaches hreach, Dev.mboxGo_idle hidle]
  case mboxDone =>
    intro s status resp hwf hbusy hfw hno
    rw [exec_mboxDone s hwf, Dev.mboxDoneRow_busy status resp hbusy hfw, if_neg (Bool.eq_false_iff.1 hno)]
    rfl
  case mboxUnsupported =>
    intro s status resp hwf hbusy hfw hno
    rw [exec_mboxDone s hwf, Dev.mboxDoneRow_busy status resp hbusy hfw, if_pos hno]
    simp [Dev.mboxAnswer]

end Sys2Proof.Machine

namespace Sys2Proof.Machine

/-! # Commands over a path that is not open (Table 2-3, R38)

The paths are log entry 13's: device firmware's own path counts as one of them. An FM API command over an MCTP port or
firmware's path waits for firmware instead (log entry 44). -/

/-! ## The gates of the control space -/

theorem Dev.access_of_closed {d : Dev} {path : Nat} (h : d.pathOpen path = false) (g : Pg) (off : Nat) (f : Dev → Dev) :
    d.access path g off f = d := by
  simp [Dev.access, h]

/-- A page named by its number: neither the page nor the record of a reserved one (R42) is reached. -/
theorem Dev.accessPg_of_closed {d : Dev} {path : Nat} (h : d.pathOpen path = false) (pg off : Nat) (f : Pg → Dev → Dev) :
    d.accessPg path pg off f = d := by
  unfold Dev.accessPg
  split
  case h_1 g _ => exact Dev.access_of_closed h g off (f g)
  case h_2 => simp [h]

/-- The MCTP ports and device firmware's path are open while firmware runs. -/
theorem Dev.pathOpen_firmware (d : Dev) {path : Nat} (h : 2 ≤ path ∧ path ≤ 4) : d.pathOpen path = d.on DEV_READY_FW_RUN := by
  obtain ⟨hlo, hhi⟩ := h
  interval_cases path <;> rfl

/-- A firmware path is closed because firmware does not run, so the command joins the waiting ones. -/
theorem Dev.fm_of_closed {d : Dev} {path : Nat} (h : d.pathOpen path = false) (i : Instr) (f : Dev → Dev) :
    d.fm i path f =
      if 2 ≤ path ∧ path ≤ 4 then { d with ctl := { d.ctl with fmWait := d.ctl.fmWait ++ [i] } } else d := by
  by_cases hfw : 2 ≤ path ∧ path ≤ 4
  · have hstop : d.on DEV_READY_FW_RUN = false := (d.pathOpen_firmware hfw).symm.trans h
    simp [Dev.fm, hfw, hstop]
  · have hout : path ≤ 1 ∨ 4 < path := by omega
    rw [if_neg hfw]
    exact if_pos (by simpa [h] using hout)

/-! ## A command behind a closed gate -/

section
variable {ok : Bool} {row : String} {s : State} {path : Nat} (hok : ok = true) (hclosed : s.dev.pathOpen path = false)
include hok hclosed

theorem run_access_of_closed {g : Pg} {off : Nat} {f : Dev → Dev} :
    run ok row s (s.dev.access path g off f) = .next (s.after s.dev) := by
  rw [run_of_ok row s _ hok, Dev.access_of_closed hclosed]

theorem run_accessPg_of_closed {pg off : Nat} {f : Pg → Dev → Dev} :
    run ok row s (s.dev.accessPg path pg off f) = .next (s.after s.dev) := by
  rw [run_of_ok row s _ hok, Dev.accessPg_of_closed hclosed]

theorem run_fm_of_closed {i : Instr} {f : Dev → Dev} :
    run ok row s (s.dev.fm i path f) =
      .next (s.after (if 2 ≤ path ∧ path ≤ 4 then
        { s.dev with ctl := { s.dev.ctl with fmWait := s.dev.ctl.fmWait ++ [i] } } else s.dev)) := by
  rw [run_of_ok row s _ hok, Dev.fm_of_closed hclosed]

end

/-! ## The commands that test the path themselves -/

theorem Dev.registerWriteRow_of_closed {d : Dev} {path : Nat} (h : d.pathOpen path = false) (addr nbytes val : Nat) :
    d.registerWriteRow path addr nbytes val = d := by
  simp [Dev.registerWriteRow, h]

theorem Dev.refusedReadRow_of_closed {d : Dev} {path : Nat} (h : d.pathOpen path = false) (addr nbytes : Nat) :
    d.refusedReadRow path addr nbytes = d := by
  simp [Dev.refusedReadRow, h]

theorem Dev.tlmPopRow_of_closed {d : Dev} {path : Nat} (h : d.pathOpen path = false) : d.tlmPopRow path = d := by
  simp [Dev.tlmPopRow, h]

theorem exec_tlmPop (s : State) {path : Nat} (h : (Instr.tlmPop path).wf = true) :
    exec (.tlmPop path) s = .next (s.after (s.dev.tlmPopRow path)) :=
  run_of_ok "TLM_POP" s _ h

/-! ## The obligation -/

/-- Settles O58: the commands fall into those that test the path themselves, those of a page named by its number, the FM API's,
and those of a fixed page (DEV_RST and SEC_CMD among them). -/
theorem closedPathHasNoEffect : Obligations.ClosedPathHasNoEffect := by
  refine ⟨?registerWrite, ?enableSet, ?enableClear, ?brst, ?commit, ?force, ?discard, ?pglockLocked, ?devCfgLock, ?tblRead,
    ?tblWrite, ?tblClear, ?tblBadOp, ?acquire, ?renew, ?release, ?breakLock, ?clrBroken, ?devRstWarm, ?devRstControl,
    ?devRstSlice, ?devRstDomain, ?devRstPort, ?mboxGo, ?marginGo, ?marginStop, ?eqCacheWrite, ?hotReset, ?retrain, ?disable,
    ?disableClear, ?drlAttach, ?retire, ?getVirtualCxlSwitchInfo, ?bindVppb, ?unbindVppb, ?generateAerEvent,
    ?identifySwitchDevice, ?getPhysicalPortState, ?physicalPortControl, ?sendLdCxlIoConfigRequest,
    ?tunnelManagementCommand, ?dirPeek, ?sccFlushClean, ?pprSoft, ?pprHard, ?spuOn, ?spuOff, ?clearFet, ?measure, ?advanceArc,
    ?dbgChallenge, ?dbgUnlock, ?bundleApply, ?rcvWrite, ?rcvBoot, ?relayIn, ?relayOutRelease, ?anchorSet, ?drlRekey,
    ?fltStatusClear, ?fltInject, ?fltCountClr, ?tmbSet, ?fire, ?clrall, ?cntSelWrite, ?cntClr, ?tlmPop, ?tlmRhead,
    ?tlmRingEnable, ?refusedRead⟩
  case registerWrite =>
    intro s path addr nbytes val hwf hclosed
    rw [exec_registerWrite s hwf, Dev.registerWriteRow_of_closed hclosed]
  case refusedRead =>
    intro s path addr nbytes hwf hclosed
    rw [exec_refusedRead s hwf, Dev.refusedReadRow_of_closed hclosed]
  case tlmPop =>
    intro s path hwf hclosed
    rw [exec_tlmPop s hwf, Dev.tlmPopRow_of_closed hclosed]
  case enableSet | enableClear | brst | commit | force | discard | pglockLocked | fltStatusClear | fltInject | fltCountClr |
      cntSelWrite | cntClr =>
    intros
    exact run_accessPg_of_closed ‹_› ‹_›
  case getVirtualCxlSwitchInfo | bindVppb | unbindVppb | generateAerEvent | identifySwitchDevice | getPhysicalPortState |
      physicalPortControl | sendLdCxlIoConfigRequest | tunnelManagementCommand =>
    intros
    exact run_fm_of_closed ‹_› ‹_›
  all_goals -- the commands of a fixed page
    intros
    exact run_access_of_closed ‹_› ‹_›

end Sys2Proof.Machine

namespace Sys2Proof.Machine

/-! # Page control, table windows and lease locks (chapter 2, Control Space)

Equations of the operations behind PGCTL, PGLOCK, the TBL windows and the lease locks, one for each case of their definitions,
and the frames of those that write one page only. -/

/-! ## Commands whose access arrives -/

section
variable {ok : Bool} {row : String} {s : State} (hok : ok = true)
include hok

/-- A meaning whose operands are accepted and whose device is `e`. -/
theorem run_eq {d e : Dev} (he : d = e) : run ok row s d = .next (s.after e) := by
  rw [run_of_ok row s d hok, he]

theorem run_access_eq {path off : Nat} {g : Pg} {f : Dev → Dev} {e : Dev} (h : s.dev.Reaches path g) (he : f s.dev = e) :
    run ok row s (s.dev.access path g off f) = .next (s.after e) :=
  run_eq hok ((Dev.access_of_reaches h off f).trans he)

end

/-- A page named by its number, where the path reaches it. -/
theorem Dev.accessPg_of_reaches {d : Dev} {path pg : Nat} {g : Pg} (hpg : Pg.at? (pg * 4096) = some g) (h : d.Reaches path g)
    (off : Nat) (f : Pg → Dev → Dev) : d.accessPg path pg off f = f g d := by
  simp only [Dev.accessPg, hpg, Dev.access_of_reaches h]

theorem run_accessPg_eq {ok : Bool} {row : String} {s : State} {path pg off : Nat} {g : Pg} {f : Pg → Dev → Dev} {e : Dev}
    (hok : ok = true) (h : s.dev.Finds path pg g off) (he : f g s.dev = e) :
    run ok row s (s.dev.accessPg path pg off f) = .next (s.after e) := by
  obtain ⟨hpg, hreach, -⟩ := h
  exact run_eq hok ((Dev.accessPg_of_reaches hpg hreach off f).trans he)

/-! ## PGCTL (R682) -/

/-- A page found by a path takes the write of a register at the offset. -/
theorem Dev.Finds.unmuted {d : Dev} {path pg off : Nat} {g : Pg} (h : d.Finds path pg g off) : d.prtMute g off = false := h.2.2

section
variable {d : Dev} {g : Pg} (h : d.prtMute g 0x018 = false)
include h

theorem Dev.pgctl_enable : d.pgctl g (some true) false false false false = d.enableSet g := by simp [Dev.pgctl, h]
theorem Dev.pgctl_disable : d.pgctl g (some false) false false false false = d.enableClear g := by simp [Dev.pgctl, h]
theorem Dev.pgctl_discard : d.pgctl g none true false false false = d.unshadow g := by simp [Dev.pgctl, h]
theorem Dev.pgctl_brst : d.pgctl g none false true false false = d.blockResetReq g := by simp [Dev.pgctl, h]
theorem Dev.pgctl_commit (force : Bool) : d.pgctl g none false false true force = d.commitReq g force := by simp [Dev.pgctl, h]

end

theorem Dev.enableSet_available {d : Dev} {g : Pg} (hblk : g.blk.alwaysOn = false)
    (hoff : d.on (PGCTL_ENABLE g.blk) g.inst = false) (havail : d.avail g = true) : d.enableSet g = d.enableNow g := by
  simp [Dev.enableSet, hblk, hoff, havail]

theorem Dev.enableSet_unavailable {d : Dev} {g : Pg} (havail : d.avail g = false) : d.enableSet g = d := by
  simp [Dev.enableSet, havail]

theorem Dev.enableClear_enabled {d : Dev} {g : Pg} (hblk : g.blk.alwaysOn = false)
    (hon : d.on (PGCTL_ENABLE g.blk) g.inst = true) : d.enableClear g = d.disableNow g := by
  simp [Dev.enableClear, hblk, hon]

/-! ## Block resets and commits (R50, R51) -/

section
variable {d : Dev} {g : Pg} (havail : d.avail g = true) (hpend : d.on (PGEPOCH_PEND g.blk) g.inst = false)
  (hbusy : d.on (PGSTAT_BUSY g.blk) g.inst = false) (hlock : d.locked g = false)
include havail hpend hbusy hlock

theorem Dev.blockResetReq_accepted (hoff : d.enabled g = false) : d.blockResetReq g = d.blockReset g := by
  simp [Dev.blockResetReq, havail, hpend, hbusy, hlock, hoff]

theorem Dev.commitReq_begun (force : Bool) : d.commitReq g force = (d.commitBegin g force).commitPoll g := by
  simp [Dev.commitReq, havail, hpend, hbusy, hlock]

end

/-- A held commit that nothing keeps waiting and whose checks pass is accepted. -/
theorem Dev.commitPoll_accepted {d : Dev} {g : Pg} {force : Bool}
    (hheld : d.ctl.commits.find? (·.pg = g) = some { pg := g, force := force, waits := [] }) (hbehind : d.commitBehind g = false)
    (hold : d.epochTooOld g = false) (herr : d.commitErr g = none) : d.commitPoll g = d.commitAccept g force := by
  simp [Dev.commitPoll, Dev.commitTake, hheld, hbehind, hold, herr]

theorem Dev.epochApply_ended {d : Dev} {g : Pg} (hrule : g.rule = true) (happlied : d.applied g = false)
    (hflights : d.olderFlights g = false) : d.epochApply g = d.epochEnd g := by
  simp [Dev.epochApply, hrule, happlied, hflights]

theorem Dev.lockPage_of_unmuted {d : Dev} {g : Pg} (h : d.prtMute g 0x028 = false) : d.lockPage g = d.lockPages [g] := by
  simp [Dev.lockPage, h]

/-- The device at the end of a page's block reset: the page is no longer in reset, and its BUSY is 0. -/
def Dev.resetOver (d : Dev) (g : Pg) : Dev :=
  ({ d with ctl := { d.ctl with resets := d.ctl.resets.filter (· ≠ g) } } : Dev).putBusy g false

/-- An arbiter's requests are presented anew at the end of its block reset. -/
theorem Dev.blockResetDoneRow_resetting {d : Dev} {pg : Nat} {g : Pg} (hpg : Pg.at? (pg * 4096) = some g)
    (hres : d.ctl.resets.contains g = true) :
    d.blockResetDoneRow pg =
      if g.blk = .arb then (d.resetOver g).presentAll g.inst (List.range 16) else d.resetOver g := by
  simp only [Dev.blockResetDoneRow, hpg, hres, if_true, Dev.resetOver]

theorem exec_blockResetDone (s : State) (pg : Nat) :
    exec (.blockResetDone pg) s = .next (s.after (s.dev.blockResetDoneRow pg)) :=
  run_of_ok "BLOCK_RESET_DONE" s _ rfl

theorem Dev.heldCommitRow_at {pg : Nat} {g : Pg} (d : Dev) (hpg : Pg.at? (pg * 4096) = some g) :
    d.heldCommitRow pg = d.commitPoll g := by
  simp only [Dev.heldCommitRow, hpg]

theorem exec_heldCommit (s : State) {pg : Nat} {g : Pg} (hpg : Pg.at? (pg * 4096) = some g) :
    exec (.heldCommit pg) s = .next (s.after (s.dev.commitPoll g)) :=
  (run_of_ok "HELD_COMMIT" s _ rfl).trans (by rw [s.dev.heldCommitRow_at hpg])

theorem Dev.epochAppliedRow_at {pg : Nat} {g : Pg} (d : Dev) (hpg : Pg.at? (pg * 4096) = some g) :
    d.epochAppliedRow pg = d.epochApply g := by
  simp only [Dev.epochAppliedRow, hpg]

theorem exec_epochApplied (s : State) {pg : Nat} {g : Pg} (hpg : Pg.at? (pg * 4096) = some g) :
    exec (.epochApplied pg) s = .next (s.after (s.dev.epochApply g)) :=
  (run_of_ok "EPOCH_APPLIED" s _ rfl).trans (by rw [s.dev.epochAppliedRow_at hpg])

/-! ## Table windows (R58 to R62) -/

theorem Dev.tblCmd_idle {d : Dev} {w op : Nat} (hidle : d.tblBusy w = false) (hop : 1 ≤ op) (hop8 : op < 8) (inc : Bool) :
    d.tblCmd w op inc = d.tblBegin w op inc := by
  have hmod : op % 8 = op := Nat.mod_eq_of_lt hop8
  simp [Dev.tblCmd, hidle, hmod, show op ≠ 0 by omega]

section
variable {d : Dev} {w : Nat} {ue : Bool} {t : TblOp} (hop : SMap.get none d.ctl.tblOps w = some t)
include hop

theorem Dev.tblDone_done (herr : d.tblErr t ue = 0) : d.tblDone w ue = ((d.tblDo w t).tblStep w t).tblEnd w 0 := by
  simp [Dev.tblDone, hop, herr]

/-- A refused operation ends with its ERR alone (R59); ERR 5 is an uncorrectable read, which clears TBL_DATA. -/
theorem Dev.tblDone_refused {e : Nat} (herr : d.tblErr t ue = e) (h0 : e ≠ 0) (h5 : e ≠ 5) : d.tblDone w ue = d.tblEnd w e := by
  simp [Dev.tblDone, hop, herr, h0, h5]

end

/-! ## Lease locks (R65 to R67) -/

theorem Dev.lockAcquire_free {d : Dev} {i ms : Nat} (path tag : Nat) (hfree : d.on LCK_STAT_HELD 0 i = false) (hms : ms ≠ 0) :
    d.lockAcquire path i tag ms =
      (((d.put LCK_STAT_HELD 0 1 i).put LCK_STAT_PATH 0 path i).put LCK_STAT_TAG 0 tag i).lease i ms := by
  simp [Dev.lockAcquire, hfree, hms]

theorem Dev.lockAcquire_refused {d : Dev} {i ms : Nat} (path tag : Nat) (h : ms = 0 ∨ d.on LCK_STAT_HELD 0 i = true) :
    d.lockAcquire path i tag ms = d := by
  simp [Dev.lockAcquire, h.symm]

section
variable {d : Dev} {path i tag : Nat} (hmine : d.lockMine path i tag = true)
include hmine

theorem Dev.lockRenew_mine {ms : Nat} (hms : ms ≠ 0) : d.lockRenew path i tag ms = d.lease i ms := by
  simp [Dev.lockRenew, hmine, hms]

theorem Dev.lockRenew_mine_zero : d.lockRenew path i tag 0 = d := by
  simp [Dev.lockRenew, hmine]

theorem Dev.lockRelease_mine :
    d.lockRelease path i tag =
      (({ d with ctl := { d.ctl with leaseEnd := SMap.set 0 d.ctl.leaseEnd i 0 } } : Dev).put LCK_STAT_HELD 0 0 i).put
        LCK_STAT_BROKEN 0 0 i := by
  simp [Dev.lockRelease, hmine]

theorem Dev.lockClr_mine : d.lockClr path i tag = d.put LCK_STAT_BROKEN 0 0 i := by
  simp [Dev.lockClr, hmine]

end

theorem Dev.lockBreak_held {d : Dev} {i : Nat} (cause : Nat) (hheld : d.on LCK_STAT_HELD 0 i = true) :
    d.lockBreak i cause = d.lockBroken i cause := by
  simp [Dev.lockBreak, hheld]

/-! ## The groups of commands -/

/-- Settles O11: each command's access arrives, and the operation's equation under the hypotheses gives the device. -/
theorem pageControlCommands : Obligations.PageControlCommands := by
  refine ⟨?enableSet, ?enableClear, ?brst, ?resetDone, ?resetDoneArb, ?commit, ?force, ?discard, ?heldCommit, ?epochApplied,
    ?pglock, ?cfgLock⟩
  case enableSet =>
    intro s path pg g hwf hfinds hblk hoff havail
    exact run_accessPg_eq hwf hfinds ((Dev.pgctl_enable hfinds.unmuted).trans (Dev.enableSet_available hblk hoff havail))
  case enableClear =>
    intro s path pg g hwf hfinds hblk hon
    exact run_accessPg_eq hwf hfinds ((Dev.pgctl_disable hfinds.unmuted).trans (Dev.enableClear_enabled hblk hon))
  case brst =>
    intro s path pg g hwf hfinds havail hpend hbusy hlock hoff
    exact run_accessPg_eq hwf hfinds
      ((Dev.pgctl_brst hfinds.unmuted).trans (Dev.blockResetReq_accepted havail hpend hbusy hlock hoff))
  case resetDone =>
    intro s pg g _ hpg hres hblk
    rw [exec_blockResetDone, Dev.blockResetDoneRow_resetting hpg hres, if_neg hblk, Dev.resetOver]
  case resetDoneArb =>
    intro s pg g _ hpg hres hblk
    rw [exec_blockResetDone, Dev.blockResetDoneRow_resetting hpg hres, if_pos hblk, Dev.resetOver]
  case commit =>
    intro s path pg g hwf hfinds havail hpend hbusy hlock hheld hbehind hold herr
    refine run_accessPg_eq hwf hfinds ?_
    rw [Dev.pgctl_commit hfinds.unmuted, Dev.commitReq_begun havail hpend hbusy hlock,
      Dev.commitPoll_accepted hheld hbehind hold herr]
  case force =>
    intro s path pg g hwf hfinds havail hpend hbusy hlock hheld hbehind hold herr
    refine run_accessPg_eq hwf hfinds ?_
    rw [Dev.pgctl_commit hfinds.unmuted, Dev.commitReq_begun havail hpend hbusy hlock,
      Dev.commitPoll_accepted hheld hbehind hold herr]
  case discard =>
    intro s path pg g hwf hfinds
    exact run_accessPg_eq hwf hfinds (Dev.pgctl_discard hfinds.unmuted)
  case heldCommit =>
    intro s pg g force _ hpg hheld hbehind hold herr
    rw [exec_heldCommit s hpg, Dev.commitPoll_accepted hheld hbehind hold herr]
  case epochApplied =>
    intro s pg g _ hpg hrule happlied hflights
    rw [exec_epochApplied s hpg, Dev.epochApply_ended hrule happlied hflights]
  case pglock =>
    intro s path pg g hwf hfinds
    exact run_accessPg_eq hwf hfinds (Dev.lockPage_of_unmuted hfinds.unmuted)
  case cfgLock => exact fun s path hwf hreach => run_access_eq hwf hreach rfl

/-- Settles O12: each command's access arrives, and the operation's equation under the hypotheses gives the device. -/
theorem tableAndLockCommands : Obligations.TableAndLockCommands := by
  refine ⟨?tblRead, ?tblWrite, ?tblClear, ?tblBadOp, ?tblOpDone, ?acquire, ?renew, ?release, ?breakLock, ?clrBroken, ?leaseExpiry⟩
  case tblRead | tblWrite | tblClear =>
    intro s path w inc hwf hreach hidle
    exact run_access_eq hwf hreach (Dev.tblCmd_idle hidle (by decide) (by decide) inc)
  case tblBadOp =>
    intro s path w op inc hwf hreach hop hop8 hidle
    exact run_access_eq hwf hreach ((if_pos (by simp [hop, hop8])).trans (Dev.tblCmd_idle hidle (by omega) hop8 inc))
  case tblOpDone =>
    intro s w ue t hwf hop herr
    exact run_eq hwf (Dev.tblDone_done hop herr)
  case acquire =>
    intro s path i tag lease hwf hreach hfree hlease
    exact run_access_eq hwf hreach (Dev.lockAcquire_free path tag hfree hlease)
  case renew =>
    intro s path i tag lease hwf hreach hmine hlease
    exact run_access_eq hwf hreach (Dev.lockRenew_mine hmine hlease)
  case release =>
    intro s path i tag hwf hreach hmine
    exact run_access_eq hwf hreach (Dev.lockRelease_mine hmine)
  case breakLock =>
    intro s path i hwf hreach hheld
    exact run_access_eq hwf hreach (Dev.lockBreak_held 3 hheld)
  case clrBroken =>
    intro s path i tag hwf hreach hmine
    exact run_access_eq hwf hreach (Dev.lockClr_mine hmine)
  case leaseExpiry =>
    intro s i hwf hheld
    exact run_eq hwf (Dev.lockBreak_held 2 hheld)

end Sys2Proof.Machine

namespace Sys2Proof.Machine

/-! # Accesses and table operations that are refused, and the shadow copy (R43, R46, R61, R62) -/

/-! ## Offsets without a register (R46) -/

/-- A register that all of a block's pages have lies at its own offset. -/
theorem Pg.regAt_off_ne_none {g : Pg} {x : RegD} (hx : x ∈ g.blk.regs) (hcnt : 0 < x.reg.cnt * x.reg.stride)
    (hall : x.reg.only0 = false) : g.regAt x.reg.off ≠ none := by
  intro h
  have hnone := List.findSome?_eq_none_iff.1 h x hx
  simp [hall, hcnt] at hnone

theorem Pg.regAt_secCmd {g : Pg} (h : g.blk = .sec) : g.regAt SEC_CMD.off ≠ none :=
  Pg.regAt_off_ne_none (x := ⟨SEC_CMD, [SEC_CMD_OP, SEC_CMD_ARG]⟩) (by rw [h]; decide) (by decide) rfl

theorem Pg.regAt_tlmPop {g : Pg} (h : g.blk = .tlm) : g.regAt TLM_POP.off ≠ none :=
  Pg.regAt_off_ne_none (x := ⟨TLM_POP, [TLM_POP_WORD]⟩) (by rw [h]; decide) (by decide) rfl

section
variable {d : Dev} {path addr nbytes : Nat} {g : Pg} (hopen : d.pathOpen path = true) (hreach : d.reachAt addr nbytes = .inr g)
  (hoff : addr % 4096 < 0x800) (hreg : g.regAt (addr % 4096 / 8 * 8) = none)
include hopen hreach hoff hreg

/-- The read of such an offset answers 0; TLM_POP, the one read that moves state, is a register. -/
theorem Dev.refusedReadRow_no_register : d.refusedReadRow path addr nbytes = d.emit (.readData path 0) := by
  have hlow : addr % 4096 / 8 * 8 < 0x800 := by omega
  have hzero : d.readReg g (addr % 4096 / 8 * 8) = 0 := by simp [Dev.readReg, Nat.not_le.2 hlow, hreg]
  have hpop : ¬ (g.blk = .tlm ∧ addr % 4096 = TLM_POP.off) := by
    rintro ⟨hblk, hat⟩
    rw [hat] at hreg
    exact Pg.regAt_tlmPop hblk hreg
  simp [Dev.refusedReadRow, hopen, hreach, hzero, hpop]

/-- The write of such an offset is dropped; SEC_CMD, which has a meaning of its own, is a register. -/
theorem Dev.registerWriteRow_no_register (val : Nat) : d.registerWriteRow path addr nbytes val = d := by
  have hcmd : g.blk ≠ .sec ∨ addr % 4096 / 8 * 8 ≠ SEC_CMD.off := by
    refine not_and_or.1 ?_
    rintro ⟨hblk, hat⟩
    exact Pg.regAt_secCmd hblk (hat ▸ hreg)
  rw [Dev.registerWriteRow_page hopen val hreach hcmd]
  simp [Dev.pageWrite, Nat.not_le.2 hoff, hreg]

end

/-- Settles O46: neither row finds a register at the offset. -/
theorem offsetWithoutRegister : Obligations.OffsetWithoutRegister := by
  intro s path addr nbytes g hopen hreach hoff hreg
  constructor
  · intro hwf
    rw [exec_refusedRead s hwf, Dev.refusedReadRow_no_register hopen hreach hoff hreg]
  · intro val hwf
    rw [exec_registerWrite s hwf, Dev.registerWriteRow_no_register hopen hreach hoff hreg val]

/-! ## Unavailable pages (R43) -/

theorem Dev.pgctl_enable_unavailable {d : Dev} {g : Pg} (havail : d.avail g = false) :
    d.pgctl g (some true) false false false false = d := by
  simp [Dev.pgctl, Dev.enableSet_unavailable havail]

/-- PGSTAT shows AVAIL as the configuration gives it; a muted page reads 0 there. -/
theorem Dev.view_pgstat_avail_unavailable {d : Dev} {g : Pg} {x : RegD} (j : Nat) (hx : x.reg = PGSTAT g.blk)
    (havail : d.avail g = false) : bits (d.view x g.inst j) 3 1 = 0 := by
  have hblk : (PGSTAT g.blk).blk = g.blk := rfl
  have hcfg : PGSTAT g.blk ≠ PRT_CFG := by simp [PGSTAT, PRT_CFG]
  simp only [Dev.view]
  split
  · simp [hx, hcfg, bits]
  · have hshown : d.shown x.reg g.inst j = [(PGSTAT_FLT_PEND g.blk, b2n (d.fltPend g)), (PGSTAT_AVAIL g.blk, 0)] := by
      simp [Dev.shown, hx, hblk, havail, b2n]
    simp only [hshown, List.foldl_cons, List.foldl_nil]
    exact bits_setBits_self _ 3 1 0 (by decide)

/-- Settles O47: ENABLE is not taken, and PGSTAT shows AVAIL from the configuration. -/
theorem unavailablePageStaysDisabled : Obligations.UnavailablePageStaysDisabled := by
  intro s path pg g hpg hreach _ havail
  constructor
  · intro hwf _
    exact run_eq hwf ((Dev.accessPg_of_reaches hpg hreach _ _).trans (Dev.pgctl_enable_unavailable havail))
  · intro x j _ hx
    exact Dev.view_pgstat_avail_unavailable j hx havail

/-! ## Table operations out of range (R62) -/

/-- An operation on a table that stands is refused for its INST first, then for its INDEX (log entry 18). -/
theorem Dev.tblErr_out_of_range {d : Dev} {t : TblOp} {ti : TabInfo} (ue : Bool) (hop : t.op < 4) (hti : tabInfo t.table = some ti)
    (htag : t.table = 0x07 → d.ldr.up = true ∧ d.on LDR_CARVE_TAG_EN = true) (hctx : t.table = 0x0D → d.ldr.up = true)
    (hout : ti.insts ≤ t.inst ∨ ti.entries ≤ t.index) : d.tblErr t ue = if ti.insts ≤ t.inst then 2 else 3 := by
  have hctx' : (decide (t.table = 0x0D) && !d.ldr.up) = false := by
    by_cases h : t.table = 0x0D <;> simp [h, hctx]
  by_cases hinst : ti.insts ≤ t.inst
  · simpa [Dev.tblErr, hti, Nat.not_le.2 hop, hctx', hinst] using htag
  · simpa [Dev.tblErr, hti, Nat.not_le.2 hop, hctx', hinst, hout.resolve_left hinst] using htag

/-- An interrupt moves the vectors' pending bits and the trace alone (R64). -/
theorem Dev.irq_eq (d : Dev) (i : Nat) : ∃ pend out, d.irq i = { d with ctl := { d.ctl with vecPend := pend }, out := out } := by
  simp only [Dev.irq]
  split
  · split <;> exact ⟨_, _, rfl⟩
  · exact ⟨_, _, rfl⟩

/-- The device with window w's operation ended and ERR and BUSY written, before any commit that waited for it goes on. -/
def Dev.tblClosed (d : Dev) (w e : Nat) : Dev :=
  let x := (d.put TBL_STAT_ERR w e).put TBL_STAT_BUSY w 0
  { x with ctl := { x.ctl with
      tblOps := SMap.set none x.ctl.tblOps w none
      commits := x.ctl.commits.map fun c => { c with waits := c.waits.filter (· ≠ w) } } }

/-- Where no commit is held, the end of an operation is the closed window and, after an error, an interrupt. -/
theorem Dev.tblEnd_no_commits {d : Dev} (w e : Nat) (hnone : d.ctl.commits = []) :
    ∃ pend out, d.tblEnd w e =
      { d.tblClosed w e with ctl := { (d.tblClosed w e).ctl with vecPend := pend }, out := out } := by
  have hclosed : (d.tblClosed w e).ctl.commits = [] := by simp [Dev.tblClosed, hnone]
  have hirq : ∃ pend out, (if e = 0 then d.tblClosed w e else (d.tblClosed w e).irq 3) =
      { d.tblClosed w e with ctl := { (d.tblClosed w e).ctl with vecPend := pend }, out := out } := by
    split
    · exact ⟨_, _, rfl⟩
    · exact Dev.irq_eq _ 3
  obtain ⟨pend, out, h⟩ := hirq
  refine ⟨pend, out, ?_⟩
  change ((if e = 0 then d.tblClosed w e else (d.tblClosed w e).irq 3).ctl.commits.map (·.pg)).foldl (fun d g => d.commitPoll g)
    (if e = 0 then d.tblClosed w e else (d.tblClosed w e).irq 3) = _
  simp only [h, hclosed, List.map_nil, List.foldl_nil]

theorem Dev.tblClosed_get_err (d : Dev) (w : Nat) {e : Nat} (he : e < 16) : (d.tblClosed w e).get TBL_STAT_ERR w = e :=
  calc (d.tblClosed w e).get TBL_STAT_ERR w
      _ = (d.put TBL_STAT_ERR w e).get TBL_STAT_ERR w :=
        Dev.get_put_field (d.put TBL_STAT_ERR w e) TBL_STAT_BUSY TBL_STAT_ERR w 0 0 rfl (by decide)
      _ = e % 16 := Dev.get_put_self d TBL_STAT_ERR w e 0 (by decide)
      _ = e := Nat.mod_eq_of_lt he

theorem Dev.tblClosed_on_busy (d : Dev) (w e : Nat) : (d.tblClosed w e).on TBL_STAT_BUSY w = false := by
  have hget : (d.tblClosed w e).get TBL_STAT_BUSY w = 0 := Dev.get_put_self (d.put TBL_STAT_ERR w e) TBL_STAT_BUSY w 0 0 (by decide)
  simp [Dev.on, hget]

/-- Settles O48: the refusal ends the operation, which writes ERR and BUSY of TBL_STAT and no table. -/
theorem tableOperationOutOfRange : Obligations.TableOperationOutOfRange := by
  intro s w ue t ti hwf hop h4 hti htag hctx hout
  have herr := Dev.tblErr_out_of_range ue h4 hti htag hctx hout
  have hrun : exec (.tblOpDone w ue) s = .next (s.after (s.dev.tblEnd w (if ti.insts ≤ t.inst then 2 else 3))) :=
    run_eq hwf (Dev.tblDone_refused hop herr (by split <;> decide) (by split <;> decide))
  refine ⟨hrun, fun hnone => ⟨_, hrun, ?_⟩⟩
  obtain ⟨pend, out, hend⟩ := Dev.tblEnd_no_commits w (if ti.insts ≤ t.inst then 2 else 3) hnone
  rw [State.after_dev, hend]
  exact ⟨rfl, rfl, rfl, s.dev.tblClosed_get_err w (by split <;> decide), s.dev.tblClosed_on_busy w _⟩

/-! ## The shadow copy (R61, R617) -/

/-- The active tables, the registers and the Larder are as in `d`, and so is every word of the shadow copy but those at `keys`. -/
structure Dev.ShadowOnly (keys : Nat → Prop) (d e : Dev) : Prop where
  tabs : e.tabs = d.tabs
  ldr : e.ldr = d.ldr
  regs : e.regs = d.regs
  tabSh : ∀ k f, ¬ keys k → SMap.get f e.tabSh k = SMap.get f d.tabSh k

/-- Neither the tag words nor the contexts nor the interrupt map have a shadow copy (Table 2-6). -/
theorem tabInfo_shadowed_ne {t : Nat} {ti : TabInfo} (hti : tabInfo t = some ti) (hsh : ti.shadowed = true) :
    t ≠ 0x07 ∧ t ≠ 0x0D ∧ t ≠ 0x0E := by
  refine ⟨?_, ?_, ?_⟩ <;>
  · rintro rfl
    cases hti
    simp at hsh

section
variable {d e : Dev} {t : TblOp} {ti : TabInfo} (hti : tabInfo t.table = some ti) (hsh : ti.shadowed = true)
include hti hsh

theorem Dev.tblPut_shadowed (i : Nat) (v : W64) :
    d.tblPut t i v =
      d.setTabS t.table t.inst t.index i (mergeMask (tabMask t.table i) (d.tabS t.table t.inst t.index i) v) := by
  obtain ⟨h7, hD, hE⟩ := tabInfo_shadowed_ne hti hsh
  simp [Dev.tblPut, h7, hD, hE]

theorem Dev.ShadowOnly.tblPut {keys : Nat → Prop} (h : Dev.ShadowOnly keys d e) {i : Nat} (v : W64)
    (hi : keys (tkey t.table t.inst t.index i)) : Dev.ShadowOnly keys d (e.tblPut t i v) := by
  rw [Dev.tblPut_shadowed hti hsh]
  refine ⟨h.tabs, h.ldr, h.regs, fun k f hk => ?_⟩
  have hne : k ≠ tkey t.table t.inst t.index i := fun he => hk (he ▸ hi)
  exact (SMap.get_set_ne _ _ _ _ hne).trans (h.tabSh k f hk)

end

/-- An armed injection that the write takes is disarmed in its page's FLT_INJECT. -/
theorem Dev.injectAt_eq (d : Dev) (b : Blk) (i : Nat) (srcs : List Nat) (sub : Option Nat) :
    (d.injectAt b i srcs sub).2 = d ∨ (d.injectAt b i srcs sub).2 = d.put (FLT_INJECT_ARM b) i 0 := by
  cases sub <;> simp only [Dev.injectAt, apply_ite Prod.snd] <;> split_ifs <;> simp

/-- Of the registers, the tables' two copies and the Larder, only words of FLT_INJECT may differ between the two. -/
structure Dev.InjectOnly (d e : Dev) : Prop where
  tabs : e.tabs = d.tabs
  ldr : e.ldr = d.ldr
  tabSh : e.tabSh = d.tabSh
  word : ∀ r k l, (∀ b i, r.addr k l ≠ (FLT_INJECT b).addr i 0) → e.word r k l = d.word r k l

theorem Dev.InjectOnly.injectAt {d e : Dev} (h : Dev.InjectOnly d e) (b : Blk) (i : Nat) (srcs : List Nat) (sub : Option Nat) :
    Dev.InjectOnly d (e.injectAt b i srcs sub).2 := by
  rcases e.injectAt_eq b i srcs sub with hd | hd <;> rw [hd]
  · exact h
  · refine ⟨h.tabs, h.ldr, h.tabSh, fun r k l hr => ?_⟩
    exact (Dev.word_put_ne e (FLT_INJECT_ARM b) r i 0 0 k l (hr b i)).trans (h.word r k l hr)

/-- The check bits of a written entry take the injections armed at the table's page and at the window. -/
theorem Dev.tblCheckBits_injectOnly (d : Dev) (w : Nat) (t : TblOp) : Dev.InjectOnly d (d.tblCheckBits w t) := by
  have hself : Dev.InjectOnly d d := ⟨rfl, rfl, rfl, fun _ _ _ _ => rfl⟩
  rcases hsrc : tabUeSrc t.table t.inst with _ | ⟨src, i⟩
  · have h := hself.injectAt .tbl w [TBL_F_UE.num] none
    simp only [Dev.tblCheckBits, hsrc]
    exact ⟨h.tabs, h.ldr, h.tabSh, h.word⟩
  · have h := (hself.injectAt src.blk i [src.num] none).injectAt .tbl w [TBL_F_UE.num] none
    simp only [Dev.tblCheckBits, hsrc]
    exact ⟨h.tabs, h.ldr, h.tabSh, h.word⟩

/-- The words of the entry written: TBL_DATA by a WRITE, zero by a CLEAR. -/
def Dev.tblWords (d : Dev) (w : Nat) (t : TblOp) (n : Nat) : Dev :=
  (List.range n).foldl (fun d i => d.tblPut t i (if t.op = 2 then d.word TBL_DATA w i else 0)) d

/-- The entry with this key has been written since its page's last accepted commit. -/
def Dev.noteWritten (d : Dev) (k : Nat) : Dev :=
  { d with ctl := { d.ctl with written := if d.ctl.written.contains k then d.ctl.written else d.ctl.written ++ [k] } }

section
variable {d : Dev} {w : Nat} {t : TblOp} {ti : TabInfo} (hti : tabInfo t.table = some ti) (hsh : ti.shadowed = true)
include hti hsh

theorem Dev.tblDo_shadowed (hop : t.op ≠ 1) :
    d.tblDo w t = ((d.tblWords w t ti.words).tblCheckBits w t).noteWritten (tkey t.table t.inst t.index 0) := by
  obtain ⟨h7, hD, -⟩ := tabInfo_shadowed_ne hti hsh
  simp [Dev.tblDo, hti, hop, h7, hD, hsh, Dev.tblWords, Dev.noteWritten]

theorem Dev.tblWords_shadowOnly :
    Dev.ShadowOnly (fun k => ∃ i < ti.words, k = tkey t.table t.inst t.index i) d (d.tblWords w t ti.words) := by
  refine List.foldlRecOn (motive := Dev.ShadowOnly (fun k => ∃ i < ti.words, k = tkey t.table t.inst t.index i) d) _ _
    ⟨rfl, rfl, rfl, fun _ _ _ => rfl⟩ fun e he i hi => ?_
  exact he.tblPut hti hsh _ ⟨i, List.mem_range.1 hi, rfl⟩

end

/-- Settles O49: the words go to the shadow copy, and their check bits take what is armed in FLT_INJECT. -/
theorem shadowedTableWriteLeavesActiveCopy : Obligations.ShadowedTableWriteLeavesActiveCopy := by
  intro d w t ti hti hsh hop
  have hwords := Dev.tblWords_shadowOnly (d := d) (w := w) hti hsh
  have hbits := (d.tblWords w t ti.words).tblCheckBits_injectOnly w t
  rw [Dev.tblDo_shadowed hti hsh hop]
  refine ⟨hbits.tabs.trans hwords.tabs, hbits.ldr.trans hwords.ldr, fun r k l hr => ?_, fun k f hk => ?_⟩
  · exact (hbits.word r k l hr).trans (congrArg (fun m => SMap.get (r.resetAt k l) m (r.addr k l)) hwords.regs)
  · exact (congrArg (fun m => SMap.get f m k) hbits.tabSh).trans
      (hwords.tabSh k f fun ⟨i, hi, hki⟩ => hk i hi hki)

end Sys2Proof.Machine

namespace Sys2Proof.Machine

/-! # Lease locks taken, and commands that write one page (R65, R154, R636)

A write of a field of a page changes no register outside it; each command below is made of such writes and of changes of a unit's
own record. -/

/-! ## ACQUIRE (R65) -/

theorem Instr.acquire_wf {path i tag lease : Nat} (h : (Instr.acquire path i tag lease).wf = true) :
    path < 16 ∧ i < 64 ∧ tag < 65536 := by
  change (okPath path && decide (i < 64) && decide (tag < 65536) && decide (lease < 1048576)) = true at h
  simp only [okPath, Bool.and_eq_true, decide_eq_true_eq] at h
  omega

/-- The device with lock i held by a path with a tag, before its lease starts. -/
def Dev.lockTaken (d : Dev) (path i tag : Nat) : Dev :=
  ((d.put LCK_STAT_HELD 0 1 i).put LCK_STAT_PATH 0 path i).put LCK_STAT_TAG 0 tag i

section
variable (d : Dev) (path i tag : Nat)

theorem Dev.lockTaken_get_held : (d.lockTaken path i tag).get LCK_STAT_HELD 0 i = 1 := by
  unfold Dev.lockTaken
  rw [Dev.get_put_field _ LCK_STAT_TAG LCK_STAT_HELD 0 tag i rfl (by decide),
    Dev.get_put_field _ LCK_STAT_PATH LCK_STAT_HELD 0 path i rfl (by decide),
    Dev.get_put_self _ LCK_STAT_HELD 0 1 i (by decide)]
  rfl

theorem Dev.lockTaken_get_path : (d.lockTaken path i tag).get LCK_STAT_PATH 0 i = path % 16 := by
  unfold Dev.lockTaken
  rw [Dev.get_put_field _ LCK_STAT_TAG LCK_STAT_PATH 0 tag i rfl (by decide),
    Dev.get_put_self _ LCK_STAT_PATH 0 path i (by decide)]
  rfl

theorem Dev.lockTaken_get_tag : (d.lockTaken path i tag).get LCK_STAT_TAG 0 i = tag % 65536 :=
  Dev.get_put_self _ LCK_STAT_TAG 0 tag i (by decide)

theorem Dev.lockTaken_get_broken : (d.lockTaken path i tag).get LCK_STAT_BROKEN 0 i = d.get LCK_STAT_BROKEN 0 i := by
  unfold Dev.lockTaken
  rw [Dev.get_put_field _ LCK_STAT_TAG LCK_STAT_BROKEN 0 tag i rfl (by decide),
    Dev.get_put_field _ LCK_STAT_PATH LCK_STAT_BROKEN 0 path i rfl (by decide),
    Dev.get_put_field _ LCK_STAT_HELD LCK_STAT_BROKEN 0 1 i rfl (by decide)]

theorem Dev.lockTaken_word_ne (r : Reg) (k l : Nat) (h : r.addr k l ≠ LCK_STAT.addr 0 i) :
    (d.lockTaken path i tag).word r k l = d.word r k l := by
  unfold Dev.lockTaken
  rw [Dev.word_put_ne _ LCK_STAT_TAG r 0 tag i k l h, Dev.word_put_ne _ LCK_STAT_PATH r 0 path i k l h,
    Dev.word_put_ne _ LCK_STAT_HELD r 0 1 i k l h]

end

@[simp] theorem Dev.get_cycleEnd (d : Dev) (f : Fld) (i j : Nat) : d.cycleEnd.get f i j = d.get f i j := rfl
@[simp] theorem Dev.word_cycleEnd (d : Dev) (r : Reg) (i j : Nat) : d.cycleEnd.word r i j = d.word r i j := rfl

/-- The registers do not see the control space's own records. -/
theorem Dev.word_with_ctl (d : Dev) (c : Ctl) (r : Reg) (i j : Nat) : ({ d with ctl := c } : Dev).word r i j = d.word r i j := rfl

@[simp] theorem Dev.word_lease (d : Dev) (n ms : Nat) (r : Reg) (i j : Nat) : (d.lease n ms).word r i j = d.word r i j :=
  Dev.word_with_ctl d _ r i j

@[simp] theorem Dev.get_lease (d : Dev) (n ms : Nat) (f : Fld) (i j : Nat) : (d.lease n ms).get f i j = d.get f i j :=
  congrArg (bits · f.lo f.width) (d.word_lease n ms f.reg i j)

/-- Taking a lock moves the register map and the leases alone. -/
theorem Dev.lockTaken_lease_eq (d : Dev) (path i tag n ms : Nat) :
    ∃ regs leaseEnd, (d.lockTaken path i tag).lease n ms = { d with regs := regs, ctl := { d.ctl with leaseEnd := leaseEnd } } :=
  ⟨_, _, rfl⟩

/-- Settles O43: the free lock is taken in LCK_STAT[i] and its lease; any other ACQUIRE is the device as it was. -/
theorem acquireTakesAFreeLock : Obligations.AcquireTakesAFreeLock := by
  intro s path i tag lease hwf hreach
  obtain ⟨hpath, -, htag⟩ := Instr.acquire_wf hwf
  constructor
  · intro hlease hfree
    refine ⟨s.after ((s.dev.lockTaken path i tag).lease i lease),
      run_access_eq hwf hreach (Dev.lockAcquire_free path tag hfree (by omega)), ?_⟩
    refine ⟨?held, ?path, ?tag, ?leaseEnd, ?broken, ?words, ?leases, ?rest⟩
    case held => simp [Dev.on, Dev.lockTaken_get_held]
    case path => simpa [Dev.lockTaken_get_path] using hpath
    case tag => simpa [Dev.lockTaken_get_tag] using htag
    case leaseEnd => exact SMap.get_set_self _ _ _ _
    case broken => simp [Dev.lockTaken_get_broken]
    case words =>
      intro r k l hr
      simp [Dev.lockTaken_word_ne s.dev path i tag r k l hr]
    case leases => exact fun j hj => SMap.get_set_ne _ _ _ _ hj
    case rest =>
      obtain ⟨regs, leaseEnd, htaken⟩ := s.dev.lockTaken_lease_eq path i tag i lease
      rw [htaken]
      rfl
  · intro hno
    exact run_access_eq hwf hreach (Dev.lockAcquire_refused path tag hno)

/-! ## The frame of a page -/

/-- A register of a page lies in the page's 4 KiB. -/
theorem Reg.addr_in_page {r : Reg} {g : Pg} {j : Nat} (hblk : r.blk = g.blk) (hj : r.off + j * r.stride < 4096) :
    g.addr ≤ r.addr g.inst j ∧ r.addr g.inst j < g.addr + 4096 := by
  simp only [Reg.addr, Pg.addr, hblk]
  omega

namespace Dev.OnlyPage
variable {g : Pg} {d e : Dev}

theorem refl (g : Pg) (d : Dev) : Dev.OnlyPage g d d := ⟨fun _ _ _ _ => rfl, fun _ => rfl, rfl⟩

/-- A change that leaves the registers, the Larder and the tables. -/
theorem same {e' : Dev} (h : Dev.OnlyPage g d e) (hregs : e'.regs = e.regs) (hldr : e'.ldr = e.ldr) (htabs : e'.tabs = e.tabs) :
    Dev.OnlyPage g d e' := by
  obtain ⟨hword, hbyte, htab⟩ := h
  refine ⟨fun r k l hr => ?_, fun a => ?_, htabs.trans htab⟩
  · exact (congrArg (fun m => SMap.get (r.resetAt k l) m (r.addr k l)) hregs).trans (hword r k l hr)
  · exact (congrArg (fun x : Larder => SMap.get 0 x.mem a) hldr).trans (hbyte a)

/-- A change of the control space's own records. -/
theorem withCtl (h : Dev.OnlyPage g d e) (c : Ctl) : Dev.OnlyPage g d { e with ctl := c } := h.same rfl rfl rfl

theorem lease (h : Dev.OnlyPage g d e) (i ms : Nat) : Dev.OnlyPage g d (e.lease i ms) := h.withCtl _

/-- A write of a register of the page. -/
theorem setWord (h : Dev.OnlyPage g d e) {r : Reg} {j : Nat} (hblk : r.blk = g.blk) (hj : r.off + j * r.stride < 4096) (w : W64) :
    Dev.OnlyPage g d (e.setWord r g.inst w j) := by
  obtain ⟨hword, hbyte, htab⟩ := h
  obtain ⟨hlo, hhi⟩ := Reg.addr_in_page hblk hj
  refine ⟨fun q k l hq => ?_, hbyte, htab⟩
  have hne : q.addr k l ≠ r.addr g.inst j := by rintro he; omega
  exact (Dev.word_setWord_ne e r q g.inst k w j l hne).trans (hword q k l hq)

theorem put (h : Dev.OnlyPage g d e) {f : Fld} {j : Nat} (hblk : f.reg.blk = g.blk) (hj : f.reg.off + j * f.reg.stride < 4096)
    (v : Nat) : Dev.OnlyPage g d (e.put f g.inst v j) :=
  h.setWord hblk hj _

theorem ite {c : Prop} [Decidable c] {a b : Dev} (ha : Dev.OnlyPage g d a) (hb : Dev.OnlyPage g d b) :
    Dev.OnlyPage g d (if c then a else b) := by
  split <;> assumption

end Dev.OnlyPage

/-- A command whose device differs in one page only. -/
theorem run_onlyPage {ok : Bool} {row : String} {s : State} {d : Dev} {g : Pg} (hok : ok = true) (h : Dev.OnlyPage g s.dev d) :
    ∃ t, run ok row s d = .next t ∧ t.pending = s.pending ∧ Dev.OnlyPage g s.dev t.dev :=
  ⟨s.after d, run_of_ok row s d hok, rfl, h.same rfl rfl rfl⟩

theorem run_access_onlyPage {ok : Bool} {row : String} {s : State} {path off : Nat} {g p : Pg} {f : Dev → Dev} (hok : ok = true)
    (hreach : s.dev.Reaches path p) (h : Dev.OnlyPage g s.dev (f s.dev)) :
    ∃ t, run ok row s (s.dev.access path p off f) = .next t ∧ t.pending = s.pending ∧ Dev.OnlyPage g s.dev t.dev :=
  ⟨s.after (f s.dev), run_access_eq hok hreach rfl, rfl, h.same rfl rfl rfl⟩

theorem run_accessPg_onlyPage {ok : Bool} {row : String} {s : State} {path pg off : Nat} {g : Pg} {f : Pg → Dev → Dev}
    (hok : ok = true) (hfinds : s.dev.Finds path pg g off) (h : Dev.OnlyPage g s.dev (f g s.dev)) :
    ∃ t, run ok row s (s.dev.accessPg path pg off f) = .next t ∧ t.pending = s.pending ∧ Dev.OnlyPage g s.dev t.dev :=
  ⟨s.after (f g s.dev), run_accessPg_eq hok hfinds rfl, rfl, h.same rfl rfl rfl⟩

/-! ## Operations that write one page -/

section
variable {d e : Dev} {g : Pg}

/-- A lock's fields lie in the LCK page. -/
theorem Dev.OnlyPage.putLock (h : Dev.OnlyPage ⟨.lck, 0⟩ d e) {f : Fld} (hf : f.reg = LCK_STAT) {i : Nat} (hi : i < 64) (v : Nat) :
    Dev.OnlyPage ⟨.lck, 0⟩ d (e.put f 0 v i) := by
  refine h.put (f := f) (congrArg Reg.blk hf) ?_ v
  rw [hf]
  simp only [LCK_STAT]
  omega

theorem Dev.OnlyPage.cntZero (h : Dev.OnlyPage g d e) {c : Nat} (hc : c < 16) : Dev.OnlyPage g d (e.cntZero g c) := by
  have hoff : (CNT g.blk).off + c * (CNT g.blk).stride < 4096 := by simp only [CNT]; omega
  exact (h.put (f := CNT_COUNT g.blk) rfl hoff 0).put (f := CNT_SAT g.blk) rfl hoff 0

/-- A new selection may clear its counter (R637). -/
theorem Dev.OnlyPage.cntSelSet (h : Dev.OnlyPage g d e) {c : Nat} (hc : c < 16) (v m : Nat) :
    Dev.OnlyPage g d (e.cntSelSet g c v m) := by
  have hoff : (CNT_SEL g.blk).off + c / 2 * (CNT_SEL g.blk).stride < 4096 := by simp only [CNT_SEL]; omega
  exact .ite ((h.setWord rfl hoff _).cntZero hc) (h.setWord rfl hoff _)

end

section
variable (d : Dev)

theorem Dev.lockAcquire_onlyPage (path : Nat) {i : Nat} (hi : i < 64) (tag ms : Nat) :
    Dev.OnlyPage ⟨.lck, 0⟩ d (d.lockAcquire path i tag ms) :=
  have hself := Dev.OnlyPage.refl ⟨.lck, 0⟩ d
  .ite hself ((((hself.putLock rfl hi 1).putLock rfl hi path).putLock rfl hi tag).lease i ms)

section
variable {d} {path i tag : Nat} (hmine : d.lockMine path i tag = true)
include hmine

theorem Dev.lockRenew_onlyPage (ms : Nat) : Dev.OnlyPage ⟨.lck, 0⟩ d (d.lockRenew path i tag ms) := by
  have hself := Dev.OnlyPage.refl ⟨.lck, 0⟩ d
  by_cases hms : ms = 0
  · rw [hms, Dev.lockRenew_mine_zero hmine]
    exact hself
  · rw [Dev.lockRenew_mine hmine hms]
    exact hself.lease i ms

theorem Dev.lockRelease_onlyPage (hi : i < 64) : Dev.OnlyPage ⟨.lck, 0⟩ d (d.lockRelease path i tag) := by
  rw [Dev.lockRelease_mine hmine]
  exact (((Dev.OnlyPage.refl _ d).withCtl _).putLock rfl hi 0).putLock rfl hi 0

theorem Dev.lockClr_onlyPage (hi : i < 64) : Dev.OnlyPage ⟨.lck, 0⟩ d (d.lockClr path i tag) := by
  rw [Dev.lockClr_mine hmine]
  exact (Dev.OnlyPage.refl _ d).putLock rfl hi 0

end

theorem Dev.drlAttach_onlyPage (k oct : Nat) (valid : Bool) : Dev.OnlyPage ⟨.drl, k⟩ d (d.drlAttach k oct valid) := by
  have hself := Dev.OnlyPage.refl ⟨.drl, k⟩ d
  refine .ite hself (.ite (hself.put (f := DRL_ATTACH_CONFLICT) rfl (by decide) 1) ?_)
  exact (((hself.put (f := DRL_ATTACH_OCTET) rfl (by decide) oct).put (f := DRL_ATTACH_VALID) rfl (by decide) (b2n valid)).put
    (f := DRL_ATTACH_CONFLICT) (j := 0) rfl (by decide) 0).same rfl rfl rfl

theorem Dev.retryCountResetRow_onlyPage (n : Nat) : Dev.OnlyPage ⟨.spu, n⟩ d (d.retryCountResetRow n) :=
  have hself := Dev.OnlyPage.refl ⟨.spu, n⟩ d
  .ite (hself.put (f := SPU_STAT_RETRY_CNT) rfl (by decide) 0) hself

theorem Dev.coolDoneRow_onlyPage (n : Nat) : Dev.OnlyPage ⟨.spu, n⟩ d (d.coolDoneRow n) := by
  have hself := Dev.OnlyPage.refl ⟨.spu, n⟩ d
  have hcool : Dev.OnlyPage ⟨.spu, n⟩ d (d.setSlot n { d.slot n with coolEnd := 0 }) := hself.same rfl rfl rfl
  refine .ite hself (.ite ?_ hcool)
  exact (hcool.put (f := SPU_STAT_STATE) rfl (by decide) ssWait).put (f := SPU_STAT_RETRY_CNT) rfl (by decide) _

/-- An entry that is not uncorrectable is read without a report. -/
theorem Dev.tabRead_correctable {t inst i : Nat} (h : d.tabUe.contains (tkey t inst i 0) = false) : d.tabRead t inst [i] = d := by
  unfold Dev.tabRead
  split
  · rfl
  · simp only [List.foldl_cons, List.foldl_nil, h, Bool.not_false, Bool.true_or, if_true]

theorem Dev.gateEdgeRow_onlyPage {p : Nat} (h : d.tabUe.contains (tkey 0x0C p (d.gatesAt p d.fab).1 0) = false) :
    Dev.OnlyPage ⟨.gte, p⟩ d (d.gateEdgeRow p) := by
  have hself := Dev.OnlyPage.refl ⟨.gte, p⟩ d
  have hegress (x : Egress) : Dev.OnlyPage ⟨.gte, p⟩ d (d.setEgress p x) := hself.same rfl rfl rfl
  simp only [Dev.gateEdgeRow, Dev.tabRead_correctable d h, ite_self]
  refine .ite hself ?_
  split
  · exact .ite ((hegress _).put (f := PGEPOCH_APPLIED .gte) rfl (by decide) 1) (hegress _)
  · exact hegress _

theorem Dev.partnerStep_onlyPage (o lane : Nat) (voltage right : Bool) (steps limit : Nat) :
    Dev.OnlyPage ⟨.sds, o⟩ d (d.partnerStep o lane voltage right steps limit) := by
  have hself := Dev.OnlyPage.refl ⟨.sds, o⟩ d
  refine .ite (hself.same rfl rfl rfl) ?_
  exact ((hself.same (e' := d.setOctet o _) rfl rfl rfl).put (f := SDS_MARGIN_STAT_ERRS) (j := 0) rfl (by decide) 0).same rfl rfl rfl

theorem Dev.partnerMarginingRow_onlyPage (o lane : Nat) (cmd : MarginCmd) :
    Dev.OnlyPage ⟨.sds, o⟩ d (d.partnerMarginingRow o lane cmd) := by
  have hself := Dev.OnlyPage.refl ⟨.sds, o⟩ d
  refine .ite hself ?_
  cases cmd with
  | report i => exact hself.same rfl rfl rfl
  | step voltage right steps limit => exact .ite (hself.same rfl rfl rfl) (d.partnerStep_onlyPage o lane voltage right steps limit)
  | clearErrors =>
    exact .ite ((hself.put (f := SDS_MARGIN_STAT_ERRS) (j := 0) rfl (by decide) 0).same rfl rfl rfl) (hself.same rfl rfl rfl)
  | normal => exact .ite (hself.same rfl rfl rfl) (hself.same rfl rfl rfl)

theorem Dev.ideKeySwitchRow_onlyPage (p : Nat) : Dev.OnlyPage ⟨.prt, p⟩ d (d.ideKeySwitchRow p) := by
  have hself := Dev.OnlyPage.refl ⟨.prt, p⟩ d
  exact .ite ((hself.same (e' := d.modPort p _) rfl rfl rfl).put (f := PRT_IDE_KEY_SLOT) rfl (by decide) _) hself

theorem Dev.shareEntryEndRow_onlyPage (e : Nat) : Dev.OnlyPage ⟨.dmv, e⟩ d (d.shareEntryEndRow e) := by
  have happlied := (Dev.OnlyPage.refl ⟨.dmv, e⟩ d).put (f := PGEPOCH_APPLIED .dmv) (j := 0) rfl (by decide) 1
  have hshare (x : Dmv) : Dev.OnlyPage ⟨.dmv, e⟩ d { d.put (PGEPOCH_APPLIED .dmv) e 1 with dmv := x } := happlied.same rfl rfl rfl
  simp only [Dev.shareEntryEndRow]
  split
  case h_1 i _ => exact .ite ((hshare _).put (f := DMV_ESTAT_SHARE) rfl (by decide) i) (hshare _)
  case h_2 => exact happlied

theorem Dev.fltCountClr_onlyPage (g : Pg) : Dev.OnlyPage g d (d.fltCountClr g) := by
  have hoff : (FLT_COUNT g.blk).off + 0 * (FLT_COUNT g.blk).stride < 4096 := by simp [FLT_COUNT]
  exact ((Dev.OnlyPage.refl g d).put (f := FLT_COUNT_EVENTS g.blk) rfl hoff 0).put (f := FLT_COUNT_ESCALATIONS g.blk) rfl hoff 0

/-- DISCARD writes shadows alone. -/
theorem Dev.unshadow_regs (g : Pg) : (d.unshadow g).regs = d.regs :=
  List.foldlRecOn (motive := fun x : Dev => x.regs = d.regs) _ _ rfl fun _ hx _ _ => hx

theorem Dev.unshadow_ldr (g : Pg) : (d.unshadow g).ldr = d.ldr :=
  List.foldlRecOn (motive := fun x : Dev => x.ldr = d.ldr) _ _ rfl fun _ hx _ _ => hx

theorem Dev.unshadow_tabs (g : Pg) : (d.unshadow g).tabs = d.tabs :=
  List.foldlRecOn (motive := fun x : Dev => x.tabs = d.tabs) _ _ rfl fun _ hx _ _ => hx

end

/-! ## The operands' bounds -/

/-- RELEASE and CLR_BROKEN name one of the sixty-four locks. -/
theorem lockOperands_lt {path i tag : Nat} (h : (okPath path && decide (i < 64) && decide (tag < 65536)) = true) : i < 64 := by
  simp only [Bool.and_eq_true, decide_eq_true_eq] at h
  omega

theorem Instr.cntClr_wf {path pg i : Nat} (h : (Instr.cntClr path pg i).wf = true) : i < 16 :=
  of_decide_eq_true (Bool.and_eq_true_iff.1 h).2

theorem Instr.cntSelWrite_wf {path pg j val : Nat} (h : (Instr.cntSelWrite path pg j val).wf = true) : j < 8 :=
  of_decide_eq_true (Bool.and_eq_true_iff.1 h).2

/-- Settles O56: each command's access arrives, and its operation writes one page only. -/
theorem framesOfOnePage : Obligations.FramesOfOnePage := by
  refine ⟨?acquire, ?renew, ?release, ?clrBroken, ?drlAttach, ?retryCountReset, ?coolDone, ?gateEdge, ?partnerMargining,
    ?ideKeySwitch, ?shareEntryEnd, ?fltCountClr, ?cntClr, ?cntSelWrite, ?discard⟩
  case acquire =>
    intro s path i tag lease hwf hreach
    obtain ⟨-, hi, -⟩ := Instr.acquire_wf hwf
    exact run_access_onlyPage hwf hreach (s.dev.lockAcquire_onlyPage path hi tag lease)
  case renew =>
    intro s path i tag lease hwf hreach hmine
    exact run_access_onlyPage hwf hreach (Dev.lockRenew_onlyPage hmine lease)
  case release =>
    intro s path i tag hwf hreach hmine
    exact run_access_onlyPage hwf hreach (Dev.lockRelease_onlyPage hmine (lockOperands_lt hwf))
  case clrBroken =>
    intro s path i tag hwf hreach hmine
    exact run_access_onlyPage hwf hreach (Dev.lockClr_onlyPage hmine (lockOperands_lt hwf))
  case drlAttach =>
    intro s path k oct valid hwf hreach
    exact run_access_onlyPage hwf hreach (s.dev.drlAttach_onlyPage k oct valid)
  case retryCountReset => exact fun s n hwf => run_onlyPage hwf (s.dev.retryCountResetRow_onlyPage n)
  case coolDone => exact fun s n hwf => run_onlyPage hwf (s.dev.coolDoneRow_onlyPage n)
  case gateEdge => exact fun s p hwf hue => run_onlyPage hwf (s.dev.gateEdgeRow_onlyPage hue)
  case partnerMargining => exact fun s o lane cmd hwf => run_onlyPage hwf (s.dev.partnerMarginingRow_onlyPage o lane cmd)
  case ideKeySwitch => exact fun s p hwf => run_onlyPage hwf (s.dev.ideKeySwitchRow_onlyPage p)
  case shareEntryEnd => exact fun s e hwf => run_onlyPage hwf (s.dev.shareEntryEndRow_onlyPage e)
  case fltCountClr => exact fun s path pg g hwf hfinds => run_accessPg_onlyPage hwf hfinds (s.dev.fltCountClr_onlyPage g)
  case cntClr =>
    intro s path pg i g hwf hfinds
    have hi : i < 16 := Instr.cntClr_wf hwf
    exact run_accessPg_onlyPage hwf hfinds ((Dev.OnlyPage.refl g s.dev).cntZero hi)
  case cntSelWrite =>
    intro s path pg j val g hwf hfinds
    have hj : j < 8 := Instr.cntSelWrite_wf hwf
    exact run_accessPg_onlyPage hwf hfinds (((Dev.OnlyPage.refl g s.dev).cntSelSet (by omega) _ _).cntSelSet (by omega) _ _)
  case discard =>
    intro s path pg g hwf hfinds
    have hun : s.dev.pgctl g none true false false false = s.dev.unshadow g := Dev.pgctl_discard hfinds.unmuted
    exact ⟨s.after (s.dev.unshadow g), run_accessPg_eq hwf hfinds hun, rfl, s.dev.unshadow_regs g,
      (Dev.OnlyPage.refl g s.dev).same (s.dev.unshadow_regs g) (s.dev.unshadow_ldr g) (s.dev.unshadow_tabs g)⟩

end Sys2Proof.Machine

namespace Sys2Proof.Machine

/-! # Lanes, octets, training and margining (chapter 3, Lanes and Octets)

Equations of the training commands' meanings, one for each case that their definitions distinguish: the state of the octet or
port admits the event, and the device is the one that the event's operation gives. Where the spec leaves a case open they follow the
model's choices: log entries 84, 85, 87, 114 and 115 for calibration and CXL training, 82, 83 and 119 to 121 for Dunrun training,
and 86 for margining. -/

/-! ## Calibration and FAILED (R81, R92) -/

section
variable {d : Dev} {o : Nat} (hrun : d.halted = false)
include hrun

theorem Dev.calDoneRow_calibrating (hst : d.octState o = tsCal) :
    d.calDoneRow o =
      (((d.setOctet o { d.octet o with calibrated := true, failedCal := false }).put (PGEPOCH_APPLIED .sds) o 1).octetGo
        o).calNote := by
  simp [Dev.calDoneRow, hrun, hst]

theorem Dev.calTimeoutRow_calibrating (hst : d.octState o = tsCal) :
    d.calTimeoutRow o = ((d.put (PGEPOCH_APPLIED .sds) o 1).enterFailed o true SDS_F_CAL_FAIL).calNote := by
  simp [Dev.calTimeoutRow, hrun, hst]

/-- A Dunrun octet tries again what it failed at. -/
theorem Dev.failedRetryRow_failed (hst : d.octState o = tsFailed) (hmode : d.octMode o = 2) :
    d.failedRetryRow o = if (d.octet o).failedCal then d.enterCal o else d.enterDrLock o := by
  simp [Dev.failedRetryRow, hrun, hst, hmode]

theorem Dev.elasticErrRow_running (lane : Nat) : d.elasticErrRow o lane = d.elasticBad o lane := by
  simp [Dev.elasticErrRow, hrun]

theorem Dev.healthWindowRow_running (eyes : List Nat) : d.healthWindowRow o eyes = d.windowEnd o eyes := by
  simp [Dev.healthWindowRow, hrun]

end

/-! ## CXL training (R84 to R91, R116, R148) -/

/-- A retrain equalises at its last rate alone (R84). -/
theorem eqRates_retrain (rate : Nat) (bypass : Bool) : eqRates rate false bypass = [rate] := rfl

/-- A retrain that finds a cached preset for every lane needs no full equalisation (R86). -/
theorem Dev.trainEnd_cached {d : Dev} {p rate w : Nat} {t : CxlTrain} (hrate : d.commonRate p t.rates = some rate)
    (hwidth : widest (d.trainLanes p false t) = some w) (hcache : d.cacheOk p rate = true) :
    d.trainEnd p false t =
      (((d.emit (.eqOffer p true true)).equalise p rate true ((pickLanes (d.trainLanes p false t) w).getD [])
        ((presetsAt t rate).getD [])).modPort p fun x => { x with cachedEq := true }).l0Go p rate
          ((pickLanes (d.trainLanes p false t) w).getD []) := by
  have hnofull : presetsReached t [] = true := rfl
  simp [Dev.trainEnd, hrate, hwidth, hcache, eqRates_retrain, hnofull]

section
variable {d : Dev} {p : Nat} (hport : d.cxlPort p = true)
include hport

section
variable (t : CxlTrain) (hneg : (d.port p).negFail = false)
include hneg

theorem Dev.l0EntryRow_fromDetect (hst : List.contains [tsDetect, tsPolling, tsConfig] (d.portState p) = true) :
    d.l0EntryRow p t = d.trainEnd p true t := by
  simp only [Dev.l0EntryRow, hport, hneg, hst, Bool.not_true, Bool.or_false, Bool.false_eq_true, if_false, if_true]

theorem Dev.l0EntryRow_fromRecovery (hst : d.portState p = tsRecovery) : d.l0EntryRow p t = d.trainEnd p false t := by
  have htraining : List.contains [tsDetect, tsPolling, tsConfig] tsRecovery = false := by decide
  simp only [Dev.l0EntryRow, hport, hneg, hst, htraining, Bool.not_true, Bool.or_false, Bool.false_eq_true, if_false, if_true]

theorem Dev.l0EntryRow_fromLowPower (hst : d.portState p = tsL1 ∨ d.portState p = tsL0p) : d.l0EntryRow p t = d.l0Back p := by
  have htraining : List.contains [tsDetect, tsPolling, tsConfig] (d.portState p) = false := by
    rcases hst with hst | hst <;> rw [hst] <;> decide
  have hrecovery : d.portState p ≠ tsRecovery := by
    rcases hst with hst | hst <;> rw [hst] <;> decide
  have hlow : (decide (d.portState p = tsL1) || decide (d.portState p = tsL0p)) = true := by simpa using hst
  simp only [Dev.l0EntryRow, hport, hneg, htraining, hrecovery, hlow, Bool.not_true, Bool.or_false, Bool.false_eq_true, if_false,
    if_true]

end

/-- A retrain with cached presets fails while the port still trains, or early in the L0 it has reached with them (R87). -/
theorem Dev.eqFallbackRow_cached {rate : Nat} (hcache : d.cacheOk p rate = true)
    (hst : List.contains [tsDetect, tsPolling, tsConfig, tsRecovery] (d.portState p) = true ∨
      (d.portState p = tsL0 ∧ (d.port p).cachedEq = true ∧ d.get (rateFld p) (p / 2) = rate)) :
    d.eqFallbackRow p rate = d.eqDrop p rate := by
  have hfails : (List.contains [tsDetect, tsPolling, tsConfig, tsRecovery] (d.portState p) ||
      (decide (d.portState p = tsL0) && (d.port p).cachedEq && decide (d.get (rateFld p) (p / 2) = rate))) = true := by
    rcases hst with htrain | ⟨hl0, hcached, hat⟩
    · rw [htrain, Bool.true_or]
    · simp [hl0, hcached, hat]
  simp only [Dev.eqFallbackRow, hport, hcache, hfails, Bool.not_true, Bool.or_false, Bool.false_eq_true, if_false, if_true]

theorem Dev.toRecovery_up (hst : [tsL0, tsL0p, tsL1].contains (d.portState p) = true) :
    d.toRecovery p = (d.marginPort p).setPortState p tsRecovery :=
  if_pos (by rw [hport, hst]; rfl)

theorem Dev.laneLossRow_lost {lost : List Nat} (hst : List.contains [tsL0, tsL0p, tsL1, tsRecovery] (d.portState p) = true)
    (hlost : (d.lostLanes p lost).isEmpty = false) :
    d.laneLossRow p lost =
      ((d.lostLanes p lost).foldl (fun e i => e.laneGone ((d.laneMap p).getD i (0, 0))) d).narrow p := by
  simp only [Dev.laneLossRow, hport, hst, hlost, Bool.not_true, Bool.or_false, Bool.false_eq_true, if_false]

/-- A port with 256-byte flits whose octets all allow it enters ASPM L1, its lanes in standby (R116). -/
theorem Dev.l1EntryRow_l1 (hst : d.portState p = tsL0) (hflit : 2 ≤ d.get PRT_STAT_FLIT p)
    (hen : ((d.portOctets p).all fun o => d.on SDS_PWR_L1_EN o) = true) :
    d.l1EntryRow p false =
      ((d.laneMap p).filter fun (ol : Nat × Nat) => d.get SDS_LANE_LOGICAL ol.1 ol.2 ≠ 0xF).foldl
        (fun d ol => d.setLanes ol.1 [ol.2] psStandby) (d.setPortState p tsL1) := by
  have hstay : (!d.cxlPort p || decide (d.portState p ≠ tsL0) || decide (d.get PRT_STAT_FLIT p < 2)) = false := by
    simp [hport, hst, Nat.not_lt.2 hflit]
  simp only [Dev.l1EntryRow, hstay, hen, Bool.not_true, Bool.false_eq_true, if_false]

end

/-- Reaching the replay limit is an event of a port that carries traffic only (Table 4-6). -/
theorem Dev.recoveryRow_entered {d : Dev} {p : Nat} {exhaust : Bool} (h : exhaust = false ∨ d.carries p = false) :
    d.recoveryRow p exhaust = d.toRecovery p := by
  rcases h with h | h <;> simp [Dev.recoveryRow, h]

theorem Dev.recoveryRow_exhausted {d : Dev} {p : Nat} (h : d.carries p = true) :
    d.recoveryRow p true = (d.raise PRT_F_REPLAY_EXHAUST p (d.portWho p)).toRecovery p := by
  simp [Dev.recoveryRow, h]

/-- Settles O16: each command runs its meaning, and the meaning's equation under the hypotheses gives the device. -/
theorem octetAndCxlTrainingCommands : Obligations.OctetAndCxlTrainingCommands := by
  refine ⟨?calDone, ?calTimeout, ?failedRetry, ?pllLoss, ?pllRelock, ?elasticErr, ?l0Cached, ?l0Fresh, ?l0Back, ?eqFallback,
    ?recovery, ?recoveryExhausted, ?laneLoss, ?l1Entry, ?healthWindow⟩
  case calDone => exact fun s o hwf hrun hst => run_eq hwf (Dev.calDoneRow_calibrating hrun hst)
  case calTimeout => exact fun s o hwf hrun hst => run_eq hwf (Dev.calTimeoutRow_calibrating hrun hst)
  case failedRetry => exact fun s o hwf hrun hst hmode => run_eq hwf (Dev.failedRetryRow_failed hrun hst hmode)
  case pllLoss => exact fun s c hwf => run_of_ok "CHIPLET_PLL_LOSS" s (s.dev.chipletPllLossRow c) hwf
  case pllRelock => exact fun s c hwf => run_of_ok "PLL_RELOCK" s (s.dev.pllRelockRow c) hwf
  case elasticErr => exact fun s o lane hwf hrun => run_eq hwf (Dev.elasticErrRow_running hrun lane)
  case l0Cached =>
    intro s p t rate w hwf hport hneg hst hrate hwidth hcache
    exact run_eq hwf ((Dev.l0EntryRow_fromRecovery hport t hneg hst).trans (Dev.trainEnd_cached hrate hwidth hcache))
  case l0Fresh => exact fun s p t hwf hport hneg hst => run_eq hwf (Dev.l0EntryRow_fromDetect hport t hneg hst)
  case l0Back => exact fun s p t hwf hport hneg hst => run_eq hwf (Dev.l0EntryRow_fromLowPower hport t hneg hst)
  case eqFallback => exact fun s p rate hwf hport hcache hst => run_eq hwf (Dev.eqFallbackRow_cached hport hcache hst)
  case recovery =>
    intro s p exhaust hwf hport hst hlimit
    exact run_eq hwf ((Dev.recoveryRow_entered hlimit).trans (Dev.toRecovery_up hport hst))
  case recoveryExhausted =>
    rintro s p _ hwf hcarries rfl
    exact run_eq hwf (Dev.recoveryRow_exhausted hcarries)
  case laneLoss => exact fun s p lost hwf hport hst hlost => run_eq hwf (Dev.laneLossRow_lost hport hst hlost)
  case l1Entry =>
    rintro s p _ hwf hport hst hflit rfl hen
    exact run_eq hwf (Dev.l1EntryRow_l1 hport hst hflit hen)
  case healthWindow => exact fun s o eyes hwf hrun => run_eq hwf (Dev.healthWindowRow_running hrun eyes)

/-! ## A lane's blocks and headers (R95, R99, R102, R103) -/

section
variable {d : Dev} {o lane : Nat}

/-- A locked lane's valid header joins its history. -/
theorem Dev.laneHeader_valid {h : Nat} (hok : d.hdrOk o lane h = true) :
    d.laneHeader o lane h = d.modLane o lane fun x => { x with hist := false :: (d.lane o lane).hist.take 63 } := by
  simp [Dev.laneHeader, hok]

/-- The eighth invalid header of 64 loses lock (R103). -/
theorem Dev.laneHeader_eighth {h : Nat} (hbad : d.hdrOk o lane h = false)
    (hseven : 7 ≤ (((d.lane o lane).hist.take 63).filter id).length) :
    d.laneHeader o lane h =
      (d.modLane o lane fun x => { x with hist := true :: (d.lane o lane).hist.take 63 }).lockLost o lane := by
  simp [Dev.laneHeader, hbad, hseven]

section
variable (hrun : d.halted = false) (hmode : d.octMode o = 2)
include hrun hmode

/-- A training control block, named by its first byte, arrives on a locked lane of an octet that trains. -/
theorem Dev.trainingControlBlockRow_training {payload : Bytes}
    (hst : List.contains [tsDrLock, tsDrTrain, tsDrAlign, tsDrRetrain] (d.octState o) = true)
    (hlock : d.on SDS_LANE_LOCK o lane = true) (hblock : (payload.getD 0 0).toNat = 0xA1) :
    d.trainingControlBlockRow o lane payload = d.trainTake o lane payload := by
  simp only [Dev.trainingControlBlockRow, hrun, hmode, hst, hlock, hblock, Bool.true_or, Bool.or_false, Bool.not_true, ne_eq,
    not_true_eq_false, decide_false, Bool.false_eq_true, if_false]

/-- After 32 valid headers at one position the lane locks, with the polarity it has found. -/
theorem Dev.laneLockRow_locks {headers : List Nat} {x : Lane} {inv : Bool}
    (hst : List.contains [tsDrLock, tsDrTrain, tsDrRetrain, tsDrActive] (d.octState o) = true)
    (hlock : d.on SDS_LANE_LOCK o lane = false) (hoff : d.laneOff o lane = false)
    (hhunt : (d.lane o lane).hunts (d.on SDS_MODE_POL_AUTO o) (d.on SDS_LANE_POL_INV o lane) headers = (x, inv))
    (hfound : 32 ≤ x.run) :
    d.laneLockRow o lane headers =
      ((((d.put SDS_LANE_POL_INV o (b2n inv) lane).modLane o lane fun _ => { x with run := 0, hist := [], polFix := inv }).put
        SDS_LANE_LOCK o 1 lane).put SDS_LANE_PRESENT o 1 lane).put SDS_HEALTH_FAILED o 0 lane := by
  have hmore : ¬ x.run < 32 := Nat.not_lt.2 hfound
  simp only [Dev.laneLockRow, hrun, hmode, hst, hlock, hoff, hhunt, hmore, Bool.or_false, Bool.not_true, ne_eq, not_true_eq_false,
    decide_false, Bool.false_eq_true, if_false]

theorem Dev.lockLostRow_one (h : Nat) (hlock : d.on SDS_LANE_LOCK o lane = true) :
    d.lockLostRow o lane [h] = d.laneHeader o lane h := by
  simp [Dev.lockLostRow, hrun, hmode, hlock]

end
end

/-! ## The Dunrun training states (Table 3-4, R92, R93, R100, R104) -/

section
variable {d : Dev} {o : Nat} (hrun : d.halted = false)
include hrun

theorem Dev.drLockDoneRow_allLocked (hst : d.octState o = tsDrLock) (hmine : (d.lockedLanes o).length = 9)
    (hpeer : d.peerLocked o = 9) : d.drLockDoneRow o = d.enterDrTrain o := by
  simp [Dev.drLockDoneRow, hrun, hst, hmine, hpeer]

/-- Four lanes each way are a width the octet can run at (R93). -/
theorem Dev.drLockTimeoutRow_fourLocked (hst : d.octState o = tsDrLock) (hmine : 4 ≤ (d.lockedLanes o).length)
    (hpeer : 4 ≤ d.peerLocked o) : d.drLockTimeoutRow o = d.enterDrTrain o := by
  simp [Dev.drLockTimeoutRow, hrun, hst, hmine, hpeer]

theorem Dev.drTrainDoneRow_trained (hst : d.octState o = tsDrTrain)
    (hall : ((d.lockedLanes o).all fun l => (d.lane o l).rxDone && (d.lane o l).partnerDone) = true) :
    d.drTrainDoneRow o = (d.storeTaps o).drState o tsDrAlign :=
  if_pos (by rw [hrun, hst, hall]; rfl)

/-- The first time-out of DR_TRAIN goes back to DR_LOCK. -/
theorem Dev.drTrainTimeoutRow_first (hst : d.octState o = tsDrTrain) (hretry : (d.octet o).trainRetry = false) :
    d.drTrainTimeoutRow o = (d.setOctet o { d.octet o with trainRetry := true }).enterDrLock o := by
  simp [Dev.drTrainTimeoutRow, hrun, hst, hretry]

/-- Lanes within two block times of each other, in an order that can be made right (R100). -/
theorem Dev.drAlignDoneRow_aligned {skew : Nat} {rev : Bool} (hst : d.octState o = tsDrAlign) (hskew : skew ≤ 2048)
    (hlanes : (d.lockedLanes o).isEmpty = false) (horder : d.laneOrder o = some rev) :
    d.drAlignDoneRow o skew = d.alignDone o rev := by
  have hnear : ¬ skew > 2048 := Nat.not_lt.2 hskew
  simp only [Dev.drAlignDoneRow, hrun, hst, hlanes, horder, hnear, Bool.or_false, ne_eq, not_true_eq_false, decide_false,
    Bool.false_eq_true, if_false]

theorem Dev.drAlignTimeoutRow_aligning (hst : d.octState o = tsDrAlign) :
    d.drAlignTimeoutRow o = d.enterFailed o false SDS_F_TRAIN_FAIL := by
  simp [Dev.drAlignTimeoutRow, hrun, hst]

theorem Dev.drRetrainDoneRow_fourLocked (hst : d.octState o = tsDrRetrain) (hmine : 4 ≤ (d.lockedLanes o).length)
    (hpeer : 4 ≤ d.peerLocked o) :
    d.drRetrainDoneRow o = ((d.lockedLanes o).foldl (fun d l => d.adaptRx o l) d).drState o tsDrAlign := by
  simp [Dev.drRetrainDoneRow, hrun, hst, hmine, hpeer]

theorem Dev.drRetrainTimeoutRow_retraining (hst : d.octState o = tsDrRetrain) : d.drRetrainTimeoutRow o = d.enterDrLock o := by
  simp [Dev.drRetrainTimeoutRow, hrun, hst]

end

/-- Settles O17: each command runs its meaning, and the meaning's equation under the hypotheses gives the device. -/
theorem dunrunTrainingCommands : Obligations.DunrunTrainingCommands := by
  refine ⟨?trainingBlock, ?laneLock, ?lockLost, ?headerValid, ?lockDone, ?lockTimeout, ?trainDone, ?trainTimeout, ?alignDone,
    ?alignTimeout, ?retrainDone, ?retrainTimeout⟩
  case trainingBlock =>
    intro s o lane payload hwf hrun hmode hst hlock hblock
    exact run_eq hwf (Dev.trainingControlBlockRow_training hrun hmode hst hlock hblock)
  case laneLock =>
    intro s o lane headers x inv hwf hrun hmode hst hlock hoff hhunt hfound
    exact run_eq hwf (Dev.laneLockRow_locks hrun hmode hst hlock hoff hhunt hfound)
  case lockLost =>
    intro s o lane h hwf hrun hmode hlock hbad hseven
    exact run_eq hwf ((Dev.lockLostRow_one hrun hmode h hlock).trans (Dev.laneHeader_eighth hbad hseven))
  case headerValid =>
    intro s o lane h hwf hrun hmode hlock hok
    exact run_eq hwf ((Dev.lockLostRow_one hrun hmode h hlock).trans (Dev.laneHeader_valid hok))
  case lockDone => exact fun s o hwf hrun hst hmine hpeer => run_eq hwf (Dev.drLockDoneRow_allLocked hrun hst hmine hpeer)
  case lockTimeout =>
    exact fun s o hwf hrun hst hmine hpeer => run_eq hwf (Dev.drLockTimeoutRow_fourLocked hrun hst hmine hpeer)
  case trainDone => exact fun s o hwf hrun hst hall => run_eq hwf (Dev.drTrainDoneRow_trained hrun hst hall)
  case trainTimeout => exact fun s o hwf hrun hst hretry => run_eq hwf (Dev.drTrainTimeoutRow_first hrun hst hretry)
  case alignDone =>
    intro s o skew rev hwf hrun hst hskew hlanes horder
    exact run_eq hwf (Dev.drAlignDoneRow_aligned hrun hst hskew hlanes horder)
  case alignTimeout => exact fun s o hwf hrun hst => run_eq hwf (Dev.drAlignTimeoutRow_aligning hrun hst)
  case retrainDone =>
    exact fun s o hwf hrun hst hmine hpeer => run_eq hwf (Dev.drRetrainDoneRow_fourLocked hrun hst hmine hpeer)
  case retrainTimeout => exact fun s o hwf hrun hst => run_eq hwf (Dev.drRetrainTimeoutRow_retraining hrun hst)

/-! ## Margining (R105 to R108) -/

section
variable {d : Dev} {o : Nat}

/-- A run starts on an octet where neither side has one, on a lane that may be margined and within the offsets' range (R107). -/
theorem Dev.marginStart_idle (hidle : (d.octet o).margin = none) (hrun : d.halted = false)
    (hpartner : (d.octet o).partnerMargin = none) (hlane : d.marginLaneOk o (d.get SDS_MARGIN_CTL_LANE o) = true)
    (hsteps : d.marginSteps o = true) : d.marginStart o = d.marginRun o := by
  simp [Dev.marginStart, hidle, hrun, hpartner, hlane, hsteps]

section
variable {l : Nat} (hmargin : (d.octet o).margin = some l)
include hmargin

theorem Dev.marginEnd_running : d.marginEnd o = d.marginAbort o [l] := by
  simp only [Dev.marginEnd, hmargin]

/-- DWELL ends below the error limit: the run has passed. -/
theorem Dev.marginDwellEndRow_passed {errs : Nat}
    (hpass : d.get SDS_MARGIN_STAT_ERRS o + errs < max 1 ((d.put SDS_MARGIN_STAT_ERRS o
      (min 255 (d.get SDS_MARGIN_STAT_ERRS o + errs))).get SDS_MARGIN_CTL_ERR_LIMIT o)) :
    d.marginDwellEndRow o errs =
      (((d.put SDS_MARGIN_STAT_ERRS o (min 255 (d.get SDS_MARGIN_STAT_ERRS o + errs))).put SDS_MARGIN_STAT_BUSY o 0).put
        SDS_MARGIN_STAT_RESULT o 1).setOctet o
          { (d.put SDS_MARGIN_STAT_ERRS o (min 255 (d.get SDS_MARGIN_STAT_ERRS o + errs))).octet o with margin := none } := by
  simp only [Dev.marginDwellEndRow, hmargin]
  exact if_neg (Nat.not_le.2 hpass)

theorem Dev.marginErrLimitRow_local :
    d.marginErrLimitRow o =
      (d.put SDS_MARGIN_STAT_ERRS o (max 1 (d.get SDS_MARGIN_CTL_ERR_LIMIT o))).marginAbort o [l] := by
  simp only [Dev.marginErrLimitRow, hmargin]

end

section
variable {lane : Nat} (hrun : d.halted = false) (hmode : d.octMode o = 1)
include hrun hmode

theorem Dev.partnerMarginingRow_report (i : Nat) :
    d.partnerMarginingRow o lane (.report i) = d.emit (.marginAnswer o lane (marginParam i)) := by
  simp [Dev.partnerMarginingRow, hrun, hmode]

/-- The partner's run begins where no run is under way, on a lane that may be margined. -/
theorem Dev.partnerMarginingRow_step {voltage right : Bool} {steps limit : Nat} (hidle : (d.octet o).margin = none)
    (hpartner : (d.octet o).partnerMargin = none) (hlane : d.marginLaneOk o lane = true) :
    d.partnerMarginingRow o lane (.step voltage right steps limit) = d.partnerStep o lane voltage right steps limit := by
  simp [Dev.partnerMarginingRow, hrun, hmode, hidle, hpartner, hlane]

/-- The partner's return to normal ends its run on the lane and answers the errors counted. -/
theorem Dev.partnerMarginingRow_normal {m : PMargin} (hpartner : (d.octet o).partnerMargin = some m) (hmine : m.lane = lane) :
    d.partnerMarginingRow o lane .normal =
      (d.setOctet o { d.octet o with partnerMargin := none }).emit (.marginAnswer o lane (d.get SDS_MARGIN_STAT_ERRS o)) := by
  simp [Dev.partnerMarginingRow, hrun, hmode, hpartner, hmine]

end

/-- An offset within Table 3-9's range is taken, its errors counted anew. -/
theorem Dev.partnerStep_inRange {lane steps : Nat} {voltage : Bool} (right : Bool) (limit : Nat) (hlo : 1 ≤ steps)
    (hhi : steps ≤ if voltage then 127 else 63) :
    d.partnerStep o lane voltage right steps limit =
      ((d.setOctet o { d.octet o with
          partnerMargin := some { lane := lane, voltage := voltage, right := right, steps := steps, limit := limit } }).put
        SDS_MARGIN_STAT_ERRS o 0).emit (.marginAnswer o lane 0) := by
  have hrange : ¬ (steps = 0 ∨ steps > if voltage then 127 else 63) := by omega
  exact if_neg (by simpa only [Bool.or_eq_true, decide_eq_true_eq] using hrange)

end

/-- Settles O18: each command's access arrives, and the operation's equation under the hypotheses gives the device. -/
theorem marginCommands : Obligations.MarginCommands := by
  refine ⟨?go, ?stop, ?partnerStep, ?partnerNormal, ?partnerReport, ?dwellEnd, ?errLimit, ?eqCache⟩
  case go =>
    intro s path o hwf hreach hidle hrun hpartner hlane hsteps
    exact run_access_eq hwf hreach (Dev.marginStart_idle hidle hrun hpartner hlane hsteps)
  case stop =>
    intro s path o l hwf hreach hmargin
    exact run_access_eq hwf hreach (Dev.marginEnd_running hmargin)
  case partnerStep =>
    intro s o lane voltage right steps limit hwf hrun hmode hidle hpartner hlane hlo hhi
    exact run_eq hwf ((Dev.partnerMarginingRow_step hrun hmode hidle hpartner hlane).trans
      (Dev.partnerStep_inRange right limit hlo hhi))
  case partnerNormal =>
    intro s o lane m hwf hrun hmode hpartner hmine
    exact run_eq hwf (Dev.partnerMarginingRow_normal hrun hmode hpartner hmine)
  case partnerReport => exact fun s o lane i hwf hrun hmode => run_eq hwf (Dev.partnerMarginingRow_report hrun hmode i)
  case dwellEnd => exact fun s o errs l hwf hmargin hpass => run_eq hwf (Dev.marginDwellEndRow_passed hmargin hpass)
  case errLimit => exact fun s o l hwf hmargin => run_eq hwf (Dev.marginErrLimitRow_local hmargin)
  case eqCache => exact fun s path o lane val hwf hreach => run_access_eq hwf hreach rfl

end Sys2Proof.Machine

namespace Sys2Proof.Machine

/-! # CXL links, GPF and port resets (chapter 4, CXL Ports)

Equations of the meanings of the CXL ports' commands, one for each case that their definitions distinguish: the port's state admits
the event, and the device is the one that the event's operation gives. Where the spec leaves a case open they follow the model's
choices: log entry 98 for negotiation and resets, 99 for GPF, and 101 for flits. -/

/-! ## Negotiation (R124) -/

/-- A CXL partner whose flit mode the port supports, and that is neither restricted (R124) nor an MLD, is accepted. -/
theorem Dev.protocolNegotiationRow_accepted {d : Dev} {p partner : Nat} (hport : d.cxlPort p = true)
    (hst : List.contains [tsDetect, tsPolling, tsConfig] (d.portState p) = true) (hcxl : offers partner 0 = true)
    (hfull : offers partner 8 = false) (hsld : offers partner 6 = false) (hmode : d.flitMode p partner ≠ 0) :
    d.protocolNegotiationRow p partner =
      ((d.setPortState p tsConfig).modPort p fun x =>
        { x with negFail := false, hdmDb := offers partner 7 && (offers partner 1 && (d.isUp p || d.on PRT_CFG_MEM_EN p)) }).putLink p
          (offers partner 1 && (d.isUp p || d.on PRT_CFG_MEM_EN p))
          (offers partner 2 && d.advCache p && !(d.isDown p && d.cacheTaken p)) (d.flitMode p partner) false 0 false := by
  simp only [Dev.protocolNegotiationRow, hport, hst, hcxl, hfull, hsld, hmode, Bool.not_true, Bool.or_false, Bool.false_and,
    decide_false, Bool.false_eq_true, if_false]

/-! ## Flits (R110, R131, R133) -/

/-- A flit without corrections or framing errors counts on no lane. -/
theorem Dev.flitLanes_clean (d : Dev) (p : Nat) {f : Flit} (hcorr : f.corr = []) (hsync : f.sync = []) : d.flitLanes p f = d := by
  simp only [Dev.flitLanes, hcorr, hsync, ite_self, List.foldl_nil]

section
variable {d : Dev} {p : Nat} {f : Flit} (hcarries : d.carries p = true) (hwhole : f.half = 0) (hcorr : f.corr = [])
  (hsync : f.sync = [])
include hcarries hwhole hcorr hsync

/-- A good flit that the receiver awaits is taken. -/
theorem Dev.flitReceiveRow_good (hcrc : f.crcOk = true) (hseq : f.seq = (d.port p).rxNext) (hhalf : (d.port p).rxHalf = false) :
    d.flitReceiveRow p f = d.flitGood p f := by
  have hawaited : (d.port p).awaits f = true := by simp [Port.awaits, hseq, hwhole, hhalf]
  simp [Dev.flitReceiveRow, Dev.flitLanes_clean d p hcorr hsync, hcarries, hwhole, hcrc, hseq, hawaited]

/-- A flit that fails its check asks for its replay, unless one before it has. -/
theorem Dev.flitReceiveRow_bad (hcrc : f.crcOk = false) (hhold : (d.port p).rxHold = false) :
    d.flitReceiveRow p f = d.flitBad p := by
  simp [Dev.flitReceiveRow, Dev.flitLanes_clean d p hcorr hsync, hcarries, hwhole, hcrc, hhold]

end

/-! ## Sending (R134, R152) -/

section
variable {d E F : Dev} {p : Nat} {m : Msg} (hcarries : d.carries p = true) (hall : (d.port p).recallOnly = false)
  (hE : E = (d.port p).tx.foldl (fun d m => d.gateNote p m) d) (hpick : E.txPick p [] (d.port p).tx = some m)
  (hF : F = E.modPort p (fun x => { x with tx := x.tx.erase m }))
include hcarries hall hE hpick hF

/-- The message that the gates let start leaves the port's list: it is the port's own, is refused for its LD, or is sent. -/
theorem Dev.egressStartRow_picked :
    d.egressStartRow p = if ownOp m.body.op then F.portOwn p m else if F.ldLacks p m then F.ldMiss p m else F.sendOut p m := by
  subst hE hF
  have hevery : ((d.port p).tx.filter fun m => !(d.port p).recallOnly || m.cls = 0x7 || m.cls = 0xB) = (d.port p).tx := by
    simp [hall]
  simp only [Dev.egressStartRow, hevery, hcarries, hpick, Bool.not_true, Bool.false_eq_true, if_false]

theorem Dev.egressStartRow_own (hown : ownOp m.body.op = true) : d.egressStartRow p = F.portOwn p m := by
  rw [Dev.egressStartRow_picked hcarries hall hE hpick hF, if_pos hown]

theorem Dev.egressStartRow_sent (hown : ownOp m.body.op = false) (hld : F.ldLacks p m = false) :
    d.egressStartRow p = F.sendOut p m := by
  simp only [Dev.egressStartRow_picked hcarries hall hE hpick hF, hown, hld, Bool.false_eq_true, if_false]

end

section
variable (d : Dev) (p : Nat) {m : Msg}

/-- A function's interrupt leaves as the event of its vector (log entry 94). -/
theorem Dev.sendOut_fnMsi (hop : m.body.op = .fnMsi) :
    d.sendOut p m = ((((d.count .prt p 0x201).count .prt p 0x203 m.bytes).stampStart p).flitOut p).emit
      (.vfMsi (m.body.arg / 2048) (m.body.arg % 2048)) :=
  if_pos hop

/-- A request leaves under a tag of the device's own. -/
theorem Dev.sendOut_request (hop : m.body.op ≠ .fnMsi) (hasks : m.asks = true) :
    d.sendOut p m = ((((d.count .prt p 0x201).count .prt p 0x203 m.bytes).stampStart p).flitOut p).askOut p m :=
  (if_neg hop).trans (if_pos hasks)

theorem Dev.sendOut_unanswered (hop : m.body.op ≠ .fnMsi) (hasks : m.asks = false) :
    d.sendOut p m = ((((d.count .prt p 0x201).count .prt p 0x203 m.bytes).stampStart p).flitOut p).emit (.portMsg p m) :=
  (if_neg hop).trans (if_neg (Bool.eq_false_iff.1 hasks))

end

/-! ## Key switch, link-down and completion time-out (R139, R149, R152) -/

theorem Dev.ideKeySwitchRow_pending {d : Dev} {p : Nat} (hide : d.on PRT_STAT_IDE_ACT p = true)
    (hpend : (d.port p).keyPend = true) :
    d.ideKeySwitchRow p = (d.modPort p fun x => { x with keyPend := false }).put PRT_IDE_KEY_SLOT p (1 - d.get PRT_IDE_KEY_SLOT p) :=
  if_pos (by rw [hide, hpend]; rfl)

theorem Dev.linkDownRow_active {d : Dev} {p : Nat} (hport : d.cxlPort p = true) (hactive : d.on PRT_STAT_DL_ACTIVE p = true)
    (hreset : (d.port p).resetting = false) : d.linkDownRow p = d.portLinkDown p := by
  simp [Dev.linkDownRow, hport, hactive, hreset]

/-- A request whose answer has not come ends failed, and its tag is kept for a late answer. -/
theorem Dev.cplTimeoutRow_outstanding {d : Dev} {p tag : Nat} {o : Outst} (hfound : (d.port p).outst.find? (·.tag = tag) = some o)
    (hrun : d.halted = false) :
    d.cplTimeoutRow p tag =
      ((d.modPort p fun x => { x with outst := x.outst.erase o, lateTags := x.lateTags ++ [tag] }).raise PRT_F_CPL_TIMEOUT p).endAsk p
        o.m .tgtFail [] false 2 := by
  simp only [Dev.cplTimeoutRow, hfound, hrun, Bool.false_eq_true, if_false]

/-- Settles O19: each command runs its meaning, and the meaning's equation under the hypotheses gives the device. -/
theorem cxlLinkCommands : Obligations.CxlLinkCommands := by
  refine ⟨?negotiation, ?flitGood, ?flitBad, ?sendMessage, ?sendRequest, ?sendInterrupt, ?sendOwn, ?keySwitch, ?linkDown,
    ?cplTimeout⟩
  case negotiation =>
    intro s p partner hwf hport hst hcxl hfull hsld hmode
    exact run_eq hwf (Dev.protocolNegotiationRow_accepted hport hst hcxl hfull hsld hmode)
  case flitGood =>
    intro s p f hwf hcarries hwhole hcorr hsync hcrc hseq hhalf
    exact run_eq hwf (Dev.flitReceiveRow_good hcarries hwhole hcorr hsync hcrc hseq hhalf)
  case flitBad =>
    intro s p f hwf hcarries hwhole hcorr hsync hcrc hhold
    exact run_eq hwf (Dev.flitReceiveRow_bad hcarries hwhole hcorr hsync hcrc hhold)
  case sendMessage =>
    intro s p m E F hwf hcarries hall hE hpick hF hown hld hop hasks
    exact run_eq hwf ((Dev.egressStartRow_sent hcarries hall hE hpick hF hown hld).trans (Dev.sendOut_unanswered F p hop hasks))
  case sendRequest =>
    intro s p m E F hwf hcarries hall hE hpick hF hown hld hop hasks
    exact run_eq hwf ((Dev.egressStartRow_sent hcarries hall hE hpick hF hown hld).trans (Dev.sendOut_request F p hop hasks))
  case sendInterrupt =>
    intro s p m E F hwf hcarries hall hE hpick hF hown hld hop
    exact run_eq hwf ((Dev.egressStartRow_sent hcarries hall hE hpick hF hown hld).trans (Dev.sendOut_fnMsi F p hop))
  case sendOwn =>
    intro s p m E F hwf hcarries hall hE hpick hF hown
    exact run_eq hwf (Dev.egressStartRow_own hcarries hall hE hpick hF hown)
  case keySwitch => exact fun s p hwf hide hpend => run_eq hwf (Dev.ideKeySwitchRow_pending hide hpend)
  case linkDown => exact fun s p hwf hport hactive hreset => run_eq hwf (Dev.linkDownRow_active hport hactive hreset)
  case cplTimeout => exact fun s p tag o hwf hfound hrun => run_eq hwf (Dev.cplTimeoutRow_outstanding hfound hrun)

/-! ## GPF (R140, R141) -/

/-- The device in which UPSTREAM port p has a phase open, sent on to the ports and remote targets of its VCS. -/
def Dev.gpfSent (d : Dev) (p phase : Nat) : Dev :=
  (d.vcsRemote p).foldl (fun d t => d.toRemote p t { op := .gpfAsk, arg := phase, ld := t.ld })
    ((d.vcsPorts p).foldl (fun d q => d.gpfIssue q phase p)
      (d.modPort p fun x => { x with gpf := some { phase := phase, ports := d.vcsPorts p,
                                                   remote := (d.vcsRemote p).map fun t => t.dev * 128 + t.port, lds := [] } }))

/-- A phase that meets no other and no flush of the device's own is sent on; phase 2 also flushes what the host wrote to persistent
regions. -/
theorem Dev.gpfPhaseRow_sent {d : Dev} {p phase : Nat} (hcarries : d.carries p = true) (hup : d.isUp p = true)
    (hphase : phase = 1 ∨ phase = 2) (hnone : (d.port p).gpf = none) (hflush : d.flushing = false) :
    d.gpfPhaseRow p phase = if phase = 2 then (d.gpfSent p phase).persFlush p else d.gpfSent p phase := by
  have hknown : (decide (phase ≠ 1) && decide (phase ≠ 2)) = false := by rcases hphase with rfl | rfl <;> rfl
  simp only [Dev.gpfPhaseRow, Dev.gpfSent, hcarries, hup, hknown, hnone, hflush, Bool.not_true, Bool.or_false, Option.isSome_none,
    Bool.false_eq_true, if_false]

/-- The partner of a DOWNSTREAM port answers the oldest phase, and it came from UPSTREAM port u of this device. -/
theorem Dev.gpfAnswerRow_local {d : Dev} {p ph u : Nat} {r : List (Nat × Nat)} (hrun : d.halted = false)
    (hdown : d.isDown p = true) (hask : (d.port p).gpfAsk = (ph, u) :: r) (hu : u < 128) :
    d.gpfAnswerRow p =
      ((d.modPort p fun x => { x with gpfAsk := r }).modPort u fun x =>
        { x with gpf := x.gpf.map fun g => { g with ports := g.ports.filter (· ≠ p) } }).gpfTry u := by
  have hremote : ¬ u ≥ 256 := by omega
  have hproof : ¬ u ≥ 128 := by omega
  simp only [Dev.gpfAnswerRow, hrun, hdown, hask, hremote, hproof, Bool.false_eq_true, if_false, if_true]

theorem Dev.gpfTimeoutRow_unanswered {d : Dev} {p : Nat} {g : Gpf} (hdown : d.isDown p = false) (hopen : (d.port p).gpf = some g)
    (hwait : g.ports.isEmpty = false ∨ g.remote.isEmpty = false) : d.gpfTimeoutRow p = d.gpfExpire p g := by
  have hmissing : (g.ports.isEmpty && g.remote.isEmpty) = false := by simpa only [Bool.and_eq_false_iff] using hwait
  simp only [Dev.gpfTimeoutRow, hdown, hopen, hmissing, Bool.false_eq_true, if_false]

theorem Dev.gpfTimeoutRow_down {d : Dev} {p : Nat} (hdown : d.isDown p = true) : d.gpfTimeoutRow p = d.gpfLate p :=
  if_pos hdown

/-! ## PERST (R142 to R144) -/

/-- The input is asserted: the UPSTREAM ports that follow it are reset. -/
theorem Dev.perstIn_assert {d E : Dev} {i : Nat} (hE : E = d.put CKR_INSTAT0_PERST_IN 0 (d.get CKR_INSTAT0_PERST_IN + 2 ^ i))
    (hoff : bit (d.get CKR_INSTAT0_PERST_IN) i = false) :
    d.perstIn i true =
      ((List.range 128).filter fun p => E.perstPort i p).foldl (fun d p => (d.put PRT_STAT_PERST_IN p 1).hostReset p 6) E := by
  simp only [Dev.perstIn, hE, hoff, b2n, Bool.false_eq_true, if_false, if_true]

/-- The input is deasserted: the UPSTREAM ports that follow it go on to their resets' ends. -/
theorem Dev.perstIn_deassert {d E : Dev} {i : Nat} (hE : E = d.put CKR_INSTAT0_PERST_IN 0 (d.get CKR_INSTAT0_PERST_IN - 2 ^ i))
    (hon : bit (d.get CKR_INSTAT0_PERST_IN) i = true) :
    d.perstIn i false =
      ((List.range 128).filter fun p => E.perstPort i p).foldl (fun d p => (d.put PRT_STAT_PERST_IN p 0).portResetOver p) E := by
  simp only [Dev.perstIn, hE, hon, b2n, Bool.true_eq_false, Bool.false_eq_true, if_false]

theorem Dev.perstOutDelayRow_powerGood {d : Dev} {p : Nat} (hpg : d.on SPU_STAT_PG (d.get PRT_PERST_SLOT p) = true) :
    d.perstOutDelayRow p = (d.modPort p fun x => { x with perstDelayDone := true }).perstGo :=
  if_pos hpg

theorem Dev.perstOutHoldRow_held {d : Dev} {p : Nat} (hmin : (d.port p).perstMin = true) :
    d.perstOutHoldRow p = (d.modPort p fun x => { x with perstMin := false }).portResetOver p :=
  if_pos hmin

/-! ## Hot resets (R145 to R147) -/

theorem Dev.hotResetReceivedRow_linkUp {d : Dev} {p : Nat} (hport : d.cxlPort p = true) (hup : d.isUp p = true)
    (hlink : d.on PRT_STAT_LINK_UP p = true) (hnone : (d.port p).gpf = none) : d.hotResetReceivedRow p = d.hostReset p 5 := by
  simp [Dev.hotResetReceivedRow, hport, hup, hlink, hnone]

theorem Dev.hotResetTimeoutRow_sent {d : Dev} {p : Nat} (hport : d.cxlPort p = true) (hsent : (d.port p).hotSent = true) :
    d.hotResetTimeoutRow p = d.portLinkDown p :=
  if_pos (by rw [hport, hsent]; rfl)

/-! ## Disabling (R685) -/

section
variable {d : Dev} {p : Nat} (hcxl : d.portDunrun p = false)
include hcxl

theorem Dev.disableOn_enabled (hon : d.on PRT_LINKCTL_DISABLE p = false) (hport : (d.put PRT_LINKCTL_DISABLE p 1).cxlPort p = true) :
    d.disableOn p = (d.put PRT_LINKCTL_DISABLE p 1).portResetStart p := by
  simp [Dev.disableOn, hcxl, hon, hport]

/-- A disabled port whose Port reset is not still in progress goes on to its reset's end when DISABLE is cleared. -/
theorem Dev.disableOff_disabled (hoff : d.on PRT_LINKCTL_DISABLE p = true) (hreset : (d.port p).resetting = false) :
    d.disableOff p = (d.put PRT_LINKCTL_DISABLE p 0).portResetOver p := by
  simp [Dev.disableOff, hcxl, hoff, hreset]

end

/-- Settles O20: each command's access arrives, and the operation's equation under the hypotheses gives the device. -/
theorem portResetCommands : Obligations.PortResetCommands := by
  refine ⟨?phaseOne, ?phaseTwo, ?gpfAnswer, ?gpfTimeout, ?gpfLate, ?perstAssert, ?perstDeassert, ?perstDelay, ?perstHold,
    ?hotReceived, ?hotReset, ?hotTimeout, ?retrain, ?disable, ?disableClear⟩
  case phaseOne =>
    rintro s p _ hwf hcarries hup rfl hnone hflush
    exact run_eq hwf ((Dev.gpfPhaseRow_sent hcarries hup (.inl rfl) hnone hflush).trans (if_neg (by decide)))
  case phaseTwo =>
    rintro s p _ hwf hcarries hup rfl hnone hflush
    exact run_eq hwf ((Dev.gpfPhaseRow_sent hcarries hup (.inr rfl) hnone hflush).trans (if_pos rfl))
  case gpfAnswer =>
    intro s p ph u r hwf hrun hdown hask hu
    exact run_eq hwf (Dev.gpfAnswerRow_local hrun hdown hask hu)
  case gpfTimeout =>
    intro s p g hwf hdown hopen hwait
    exact run_eq hwf (Dev.gpfTimeoutRow_unanswered hdown hopen hwait)
  case gpfLate => exact fun s p hwf hdown => run_eq hwf (Dev.gpfTimeoutRow_down hdown)
  case perstAssert => exact fun s i hwf hoff => run_eq hwf (Dev.perstIn_assert rfl hoff)
  case perstDeassert => exact fun s i hwf hon => run_eq hwf (Dev.perstIn_deassert rfl hon)
  case perstDelay => exact fun s p hwf hpg => run_eq hwf (Dev.perstOutDelayRow_powerGood hpg)
  case perstHold => exact fun s p hwf hmin => run_eq hwf (Dev.perstOutHoldRow_held hmin)
  case hotReceived =>
    intro s p hwf hport hup hlink hnone
    exact run_eq hwf (Dev.hotResetReceivedRow_linkUp hport hup hlink hnone)
  case hotReset =>
    intro s path p hwf hreach hport hdown
    exact run_access_eq hwf hreach (if_pos (by rw [hport, hdown]; rfl))
  case hotTimeout => exact fun s p hwf hport hsent => run_eq hwf (Dev.hotResetTimeoutRow_sent hport hsent)
  case retrain => exact fun s path p hwf hreach hport hst => run_access_eq hwf hreach (Dev.toRecovery_up hport hst)
  case disable =>
    intro s path p hwf hreach hcxl hon _ hport
    exact run_access_eq hwf hreach (Dev.disableOn_enabled hcxl hon hport)
  case disableClear =>
    intro s path p hwf hreach hcxl hoff hreset
    exact run_access_eq hwf hreach (Dev.disableOff_disabled hcxl hoff hreset)

end Sys2Proof.Machine

namespace Sys2Proof.Machine

/-! # Dunrun links (chapter 5, Dunrun Links)

The binding of a link to an octet and its frame, then equations of the links' operations under a command's conditions. A packet
at the front of a link that does not encrypt takes effect at once; one equation says so for every type but a message's and SEC's,
and the type then picks the effect (Table 5-5). -/

/-! ## DRL_ATTACH (R154) -/

theorem Instr.drlAttach_octet_lt {path k oct : Nat} {valid : Bool} (h : (Instr.drlAttach path k oct valid).wf = true) :
    oct < 64 := by
  change (okPath path && decide (k < 32) && decide (oct < 64)) = true at h
  simp only [Bool.and_eq_true, decide_eq_true_eq] at h
  exact h.2

/-- A link other than k is bound to the octet. -/
def Dev.octetTaken (d : Dev) (k oct : Nat) : Bool :=
  (List.range 32).any fun j => j ≠ k && d.on DRL_ATTACH_VALID j && d.get DRL_ATTACH_OCTET j = oct

theorem Dev.octetTaken_iff {d : Dev} {k oct : Nat} : d.octetTaken k oct = true ↔
    ∃ j, j < 32 ∧ j ≠ k ∧ d.on DRL_ATTACH_VALID j = true ∧ d.get DRL_ATTACH_OCTET j = oct := by
  simp [Dev.octetTaken, and_assoc]

/-- The device with link k bound to the octet. -/
def Dev.linkBound (d : Dev) (k oct : Nat) : Dev :=
  (((d.put DRL_ATTACH_OCTET k oct).put DRL_ATTACH_VALID k 1).put DRL_ATTACH_CONFLICT k 0).modLink k Link.blocksAnew

theorem Dev.drlAttach_enabled {d : Dev} {k : Nat} (oct : Nat) (valid : Bool) (hon : d.on (PGCTL_ENABLE .drl) k = true) :
    d.drlAttach k oct valid = d :=
  if_pos (by rw [hon, Bool.or_true])

section
variable {d : Dev} {k oct : Nat} (hlock : d.locked ⟨.drl, k⟩ = false) (hoff : d.on (PGCTL_ENABLE .drl) k = false)
include hlock hoff

theorem Dev.drlAttach_valid :
    d.drlAttach k oct true = if d.octetTaken k oct then d.put DRL_ATTACH_CONFLICT k 1 else d.linkBound k oct := by
  simp only [Dev.drlAttach, hlock, hoff, Bool.or_false, Bool.true_and, Bool.false_eq_true, if_false]
  rfl

theorem Dev.drlAttach_taken (htaken : d.octetTaken k oct = true) : d.drlAttach k oct true = d.put DRL_ATTACH_CONFLICT k 1 :=
  (Dev.drlAttach_valid hlock hoff).trans (if_pos htaken)

theorem Dev.drlAttach_free (hfree : d.octetTaken k oct = false) : d.drlAttach k oct true = d.linkBound k oct :=
  (Dev.drlAttach_valid hlock hoff).trans (if_neg (Bool.eq_false_iff.1 hfree))

end

section
variable (d : Dev) (k oct : Nat)

theorem Dev.linkBound_get_valid : (d.linkBound k oct).get DRL_ATTACH_VALID k = 1 := by
  unfold Dev.linkBound
  rw [Dev.get_modLink, Dev.get_put_field _ DRL_ATTACH_CONFLICT DRL_ATTACH_VALID k 0 0 rfl (by decide),
    Dev.get_put_self _ DRL_ATTACH_VALID k 1 0 (by decide)]
  rfl

theorem Dev.linkBound_get_octet : (d.linkBound k oct).get DRL_ATTACH_OCTET k = oct % 64 := by
  unfold Dev.linkBound
  rw [Dev.get_modLink, Dev.get_put_field _ DRL_ATTACH_CONFLICT DRL_ATTACH_OCTET k 0 0 rfl (by decide),
    Dev.get_put_field _ DRL_ATTACH_VALID DRL_ATTACH_OCTET k 1 0 rfl (by decide),
    Dev.get_put_self _ DRL_ATTACH_OCTET k oct 0 (by decide)]
  rfl

end

/-- No register but DRL_ATTACH of link k, no other link and no other part of the device differs between the two. -/
def Dev.AttachOnly (k : Nat) (d e : Dev) : Prop :=
  (∀ r i j, r.addr i j ≠ DRL_ATTACH.addr k 0 → e.word r i j = d.word r i j) ∧ (∀ j, j ≠ k → e.link j = d.link j) ∧
    { e with regs := d.regs, links := d.links } = d

namespace Dev.AttachOnly
variable {k : Nat} {d e : Dev}

theorem refl (k : Nat) (d : Dev) : Dev.AttachOnly k d d := ⟨fun _ _ _ _ => rfl, fun _ _ => rfl, rfl⟩

theorem put (h : Dev.AttachOnly k d e) {f : Fld} (hf : f.reg = DRL_ATTACH) (v : Nat) : Dev.AttachOnly k d (e.put f k v) := by
  obtain ⟨hword, hlink, hrest⟩ := h
  refine ⟨fun r i j hr => ?_, hlink, hrest⟩
  exact (Dev.word_put_ne e f r k v 0 i j (hf ▸ hr)).trans (hword r i j hr)

theorem modLink (h : Dev.AttachOnly k d e) (f : Link → Link) : Dev.AttachOnly k d (e.modLink k f) := by
  obtain ⟨hword, hlink, hrest⟩ := h
  exact ⟨hword, fun j hj => (Dev.link_setLink_ne e k j _ hj).trans (hlink j hj), hrest⟩

end Dev.AttachOnly

theorem Dev.linkBound_attachOnly (d : Dev) (k oct : Nat) : Dev.AttachOnly k d (d.linkBound k oct) :=
  ((((Dev.AttachOnly.refl k d).put rfl oct).put rfl 1).put rfl 0).modLink Link.blocksAnew

/-- The frame of a device that ends a command. -/
theorem State.after_attachOnly {s : State} {k : Nat} {e : Dev} (h : Dev.AttachOnly k s.dev e) :
    (∀ r i j, r.addr i j ≠ DRL_ATTACH.addr k 0 → (s.after e).dev.word r i j = s.dev.word r i j) ∧
      (∀ j, j ≠ k → (s.after e).dev.link j = s.dev.link j) ∧
      { s.after e with dev := { (s.after e).dev with regs := s.dev.regs, links := s.dev.links } } = s.after s.dev := by
  obtain ⟨hword, hlink, hrest⟩ := h
  exact ⟨hword, hlink, congrArg s.after hrest⟩

/-- Settles O45, by whether another link is bound to the octet. -/
theorem drlAttachBindsALinkToAnOctet : Obligations.DrlAttachBindsALinkToAnOctet := by
  intro s path k oct hwf hreach
  refine ⟨fun hon => run_access_eq hwf hreach (Dev.drlAttach_enabled oct true hon), fun hoff hlock => ?_⟩
  cases htaken : s.dev.octetTaken k oct with
  | true =>
    refine ⟨_, run_access_eq hwf hreach (Dev.drlAttach_taken hlock hoff htaken), fun _ => ?conflict, fun hfree => ?bound,
      State.after_attachOnly ((Dev.AttachOnly.refl k s.dev).put rfl 1)⟩
    case conflict =>
      have hset : (s.dev.put DRL_ATTACH_CONFLICT k 1).get DRL_ATTACH_CONFLICT k = 1 :=
        Dev.get_put_self _ DRL_ATTACH_CONFLICT k 1 0 (by decide)
      refine ⟨by simp [Dev.on, hset], ?_, ?_⟩
      · exact Dev.get_put_field s.dev DRL_ATTACH_CONFLICT DRL_ATTACH_OCTET k 1 0 rfl (by decide)
      · exact Dev.get_put_field s.dev DRL_ATTACH_CONFLICT DRL_ATTACH_VALID k 1 0 rfl (by decide)
    case bound =>
      obtain ⟨j, hj, hne, hvalid, hoct⟩ := Dev.octetTaken_iff.1 htaken
      exact absurd hoct (hfree j hj hne hvalid)
  | false =>
    refine ⟨_, run_access_eq hwf hreach (Dev.drlAttach_free hlock hoff htaken), fun hother => ?conflict, fun _ => ?bound,
      State.after_attachOnly (s.dev.linkBound_attachOnly k oct)⟩
    case conflict => exact absurd (Dev.octetTaken_iff.2 hother) (Bool.eq_false_iff.1 htaken)
    case bound =>
      have hoct : oct % 64 = oct := Nat.mod_eq_of_lt (Instr.drlAttach_octet_lt hwf)
      simp [Dev.on, Dev.linkBound_get_valid, Dev.linkBound_get_octet, hoct]

/-! ## Blocks received (R158, R159) -/

/-- The block a lane brought, its polarity put right. -/
def Dev.laneBlock (d : Dev) (o lane : Nat) (raw : Bytes) : Bytes :=
  if d.on SDS_LANE_POL_INV o lane then raw.map fun y => y ^^^ 0xAA else raw

section
variable {d : Dev} {k lane : Nat} {raw : Bytes} (hrun : d.halted = false) (havail : d.linkAvail k = true)
  (hst : d.octState (d.lkOctet k) = tsDrActive) (hlock : d.get SDS_LANE_LOCK (d.lkOctet k) lane ≠ 0) (hlen : raw.length = 256)
include hrun havail hst hlock hlen

theorem Dev.dunrunBlockRow_corrected {b : Bytes} {n : Nat}
    (hcode : blockCorrect (d.laneBlock (d.lkOctet k) lane raw) = some (b, n)) :
    d.dunrunBlockRow k lane raw = (d.blockGood k lane (b2n (!d.hdrOk (d.lkOctet k) lane (leNat (raw.take 2)))) b n).laneHeader
      (d.lkOctet k) lane (leNat (raw.take 2)) := by
  simp only [Dev.laneBlock, BitVec.ofNat_eq_ofNat] at hcode
  simp [Dev.dunrunBlockRow, hrun, havail, hst, hlock, hlen, hcode]

theorem Dev.dunrunBlockRow_uncorrected (hcode : blockCorrect (d.laneBlock (d.lkOctet k) lane raw) = none) :
    d.dunrunBlockRow k lane raw = (d.blockUncorr k lane (b2n (!d.hdrOk (d.lkOctet k) lane (leNat (raw.take 2))))).laneHeader
      (d.lkOctet k) lane (leNat (raw.take 2)) := by
  simp only [Dev.laneBlock, BitVec.ofNat_eq_ofNat] at hcode
  simp [Dev.dunrunBlockRow, hrun, havail, hst, hlock, hlen, hcode]

end

/-! ## The packet at the front (Table 5-5, R166, R185) -/

/-- Only a message packet marks the blocks it lies in (R189). -/
theorem Dev.retxMark_other {b : Bytes} (d : Dev) (k : Nat) (blks : List Nat) (h : pktType b ≠ 0x1) : d.retxMark k b blks = d := by
  simp [Dev.retxMark, h]

@[simp] theorem Dev.encOn_retxMark (d : Dev) (k : Nat) (b : Bytes) (blks : List Nat) :
    (d.retxMark k b blks).encOn k = d.encOn k := by
  unfold Dev.retxMark
  split <;> rfl

section
variable {d : Dev} {k : Nat} {b : Bytes}

theorem Dev.packetIn_message (blks : List Nat) (htype : pktType b = 0x1) (henc : d.encOn k = false) :
    d.packetIn k b blks = (d.retxMark k b blks).takeMessage k b := by
  simp [Dev.packetIn, Dev.takePacket, htype, henc]

/-- SEC takes effect whether the link encrypts or not. -/
theorem Dev.packetIn_sec (blks : List Nat) (htype : pktType b = 0xF) :
    d.packetIn k b blks = if pktSub b = 0 then d.takeMac k (blks.headD 0) b else d.takeKeySwitch k (blks.headD 0) b := by
  simp [Dev.packetIn, d.retxMark_other k blks (b := b) (by omega), htype]

/-- Any other packet takes effect at once on a link that does not encrypt. -/
theorem Dev.packetIn_control {blks : List Nat} (hmsg : pktType b ≠ 0x1) (hsec : pktType b ≠ 0xF) (henc : d.encOn k = false)
    (hcut : pktType b = 0xC → (blks.any fun x => (d.link k).markBlk.contains x) = false) :
    d.packetIn k b blks = d.takePacket k b (d.blkTime k (blks.headD 0)) := by
  have hwhole : ¬ ((pktType b = 0xC && blks.any fun x => (d.link k).markBlk.contains x) = true) := by
    simp only [Bool.and_eq_true, decide_eq_true_eq]
    rintro ⟨htime, hmarked⟩
    rw [hcut htime] at hmarked
    cases hmarked
  simp only [Dev.packetIn, d.retxMark_other k blks hmsg, if_neg hwhole, if_neg hsec, henc, Bool.false_eq_true, if_false]

/-- A packet row takes the packet of its type and sub-type that waits at the front, in a state that allows it (Table 5-6). -/
theorem Dev.rowPkt_front {t : Nat} {sub : Option Nat} (hfront : d.front k = some b) (hrun : d.halted = false)
    (htype : pktType b = t) (hsub : sub.any (· ≠ pktSub b) = false) (hnow : (d.popFront k b).pktNow k t = true) :
    d.rowPkt k t sub = ((d.popFront k b).packetIn k b (d.frontBlks k b.length)).frontCheck k := by
  subst htype
  simp only [Dev.rowPkt, hfront, hrun, hsub, ne_eq, not_true, decide_false, Bool.or_false, Bool.false_eq_true, if_false,
    Dev.takeFront, if_pos hnow]

/-- The row of a control packet other than SEC is the effect `e` of its type. -/
theorem Dev.rowPkt_control {t sub : Nat} {want : Option Nat} {e : Dev} (h : d.Packet k t sub b) (htype : t ≠ 0x1 ∧ t ≠ 0xF)
    (hwant : want.any (· ≠ sub) = false)
    (he : (d.popFront k b).takePacket k b ((d.popFront k b).blkTime k ((d.frontBlks k b.length).headD 0)) = e) :
    d.rowPkt k t want = e.frontCheck k := by
  obtain ⟨hfront, hrun, rfl, rfl, hnow, henc, hcut⟩ := h
  rw [Dev.rowPkt_front hfront hrun rfl hwant hnow, Dev.packetIn_control htype.1 htype.2 henc hcut, he]

theorem Dev.Packet.type_eq {t sub : Nat} (h : d.Packet k t sub b) : pktType b = t := h.2.2.1

theorem Dev.Packet.sub_eq {t sub : Nat} (h : d.Packet k t sub b) : pktSub b = sub := h.2.2.2.1

/-- Outside TIME the block marks do not matter. -/
theorem Dev.packet_of_front {t s : Nat} (hfront : d.front k = some b) (hrun : d.halted = false) (htype : pktType b = t)
    (hsub : pktSub b = s) (hnow : (d.popFront k b).pktNow k t = true) (henc : (d.popFront k b).encOn k = false)
    (htime : t ≠ 0xC) :
    d.Packet k t s b :=
  ⟨hfront, hrun, htype, hsub, hnow, henc, fun h => absurd h htime⟩

end

/-! ## The effect by type (Table 5-5) -/

section
variable {d : Dev} {k : Nat} {b : Bytes} (at_ : Nat)

theorem Dev.takePacket_ack (htype : pktType b = 0x8) (hsub : pktSub b = 0) :
    d.takePacket k b at_ = d.releaseTo k (fld (pktNat b) 8 12) := by
  simp [Dev.takePacket, htype, hsub]

theorem Dev.takePacket_nak (htype : pktType b = 0x8) (hsub : pktSub b = 1) :
    d.takePacket k b at_ = d.takeNak k (fld (pktNat b) 8 12) := by
  simp [Dev.takePacket, htype, hsub]

theorem Dev.takePacket_credit (htype : pktType b = 0x9) : d.takePacket k b at_ = d.takeCredit k b := by
  simp [Dev.takePacket, htype]

theorem Dev.takePacket_init (htype : pktType b = 0xA) (hsub : pktSub b = 0) : d.takePacket k b at_ = d.takeInit k b := by
  simp [Dev.takePacket, htype, hsub]

theorem Dev.takePacket_initAck (htype : pktType b = 0xA) (hsub : pktSub b = 1) : d.takePacket k b at_ = d.takeInitAck k b := by
  simp [Dev.takePacket, htype, hsub]

theorem Dev.takePacket_spare (htype : pktType b = 0xB) : d.takePacket k b at_ = d.takeSpare k b := by
  simp [Dev.takePacket, htype]

theorem Dev.takePacket_time (htype : pktType b = 0xC) : d.takePacket k b at_ = d.takeTime k b at_ := by
  simp [Dev.takePacket, htype]

theorem Dev.takePacket_crumb (htype : pktType b = 0xD) : d.takePacket k b at_ = d.takeCrumb k b := by
  simp [Dev.takePacket, htype]

theorem Dev.takePacket_route (htype : pktType b = 0xE) : d.takePacket k b at_ = d.takeRoute k b := by
  simp [Dev.takePacket, htype]

end

section
variable {d : Dev} {k : Nat} {b : Bytes} (hfront : d.front k = some b) (hrun : d.halted = false) (htype : pktType b = 0xF)
  (hnow : (d.popFront k b).pktNow k 0xF = true)
include hfront hrun htype hnow

theorem Dev.secMacRow_front (hsub : pktSub b = 0) :
    d.secMacRow k = ((d.popFront k b).takeMac k ((d.frontBlks k b.length).headD 0) b).frontCheck k := by
  rw [Dev.secMacRow, Dev.rowPkt_front hfront hrun htype (by simp [hsub]) hnow, Dev.packetIn_sec _ htype, if_pos hsub]

theorem Dev.keySwitchRow_front (hsub : pktSub b = 1) :
    d.keySwitchRow k = ((d.popFront k b).takeKeySwitch k ((d.frontBlks k b.length).headD 0) b).frontCheck k := by
  have hswitch : pktSub b ≠ 0 := by omega
  rw [Dev.keySwitchRow, Dev.rowPkt_front hfront hrun htype (by simp [hsub]) hnow, Dev.packetIn_sec _ htype, if_neg hswitch]

end

/-! ## Message packets (R170) -/

theorem Dev.messagePacketRow_front {d : Dev} {k : Nat} {b : Bytes} (hfront : d.front k = some b) (hrun : d.halted = false)
    (htype : pktType b = 0x1) (hnow : (d.popFront k b).pktNow k 0x1 = true) (henc : (d.popFront k b).encOn k = false) :
    d.messagePacketRow k = (((d.popFront k b).retxMark k b (d.frontBlks k b.length)).takeMessage k b).frontCheck k := by
  simp only [Dev.messagePacketRow, hfront]
  rw [Dev.rowPkt_front hfront hrun htype rfl hnow, Dev.packetIn_message _ htype henc]

/-- A packet whose tail has not come releases the payload cells that have. -/
theorem Dev.messagePacketRow_partial {d : Dev} {k n : Nat} {b : Bytes} (hfront : d.front k = none) (hrun : d.halted = false)
    (hb : b = d.rxBytes k) (hcell : pktHead b + 64 ≤ b.length) (hn : n = min (fld (pktNat b) 8 3) ((b.length - pktHead b) / 64))
    (hnow : d.pktNow k 0x1 = true) (henc : d.encRx k = false) : d.messagePacketRow k = d.releaseCells k b n := by
  have hheader : ¬ b.length < 16 := by omega
  subst hn hb
  simp [Dev.messagePacketRow, Dev.cellsCome, hfront, hrun, hnow, henc, hheader]

section
variable {d : Dev} {k n : Nat} {b : Bytes} (hn : n ≠ 0) (htype : pktType b = 0x1) (hseq : (d.packetMsg k b).seq = d.rxE k)
  (hstall : (d.link k).stall.contains (d.packetMsg k b).seq = false)
include hn htype hseq hstall

/-- The next packet shows its cells when its header has been released, and releases the header when it may be cut through. -/
theorem Dev.releaseCells_next :
    d.releaseCells k b n = if (d.link k).openMsg then d.showCells k (pktWire b) n
      else if d.cutThrough k (d.packetMsg k b) then d.openHeader k b n else d :=
  if_neg (by rw [hstall, htype, hseq]; simp [hn])

theorem Dev.releaseCells_opens (hclosed : (d.link k).openMsg = false) (hcut : d.cutThrough k (d.packetMsg k b) = true) :
    d.releaseCells k b n = d.openHeader k b n := by
  rw [Dev.releaseCells_next hn htype hseq hstall, if_neg (Bool.eq_false_iff.1 hclosed), if_pos hcut]

theorem Dev.releaseCells_shows (hopen : (d.link k).openMsg = true) : d.releaseCells k b n = d.showCells k (pktWire b) n :=
  (Dev.releaseCells_next hn htype hseq hstall).trans (if_pos hopen)

end

/-! ## The groups of received packets -/

/-- Settles O21: a block by its code, a packet by the row of its type. -/
theorem dunrunReceiveCommands : Obligations.DunrunReceiveCommands := by
  refine ⟨?blockGood, ?blockBad, ?message, ?header, ?cells, ?ack, ?nak, ?credit, ?init, ?initAck⟩
  case blockGood =>
    intro s k lane raw b n hwf hrun havail hst hlock hlen hcode
    exact run_eq hwf (Dev.dunrunBlockRow_corrected hrun havail hst hlock hlen hcode)
  case blockBad =>
    intro s k lane raw hwf hrun havail hst hlock hlen hcode
    exact run_eq hwf (Dev.dunrunBlockRow_uncorrected hrun havail hst hlock hlen hcode)
  case message =>
    intro s k b hwf hfront hrun htype hnow henc
    exact run_eq hwf (Dev.messagePacketRow_front hfront hrun htype hnow henc)
  case header =>
    intro s k b n hwf hfront hrun hb hcell hn hn0 htype hnow henc hclosed hseq hstall hcut
    exact run_eq hwf ((Dev.messagePacketRow_partial hfront hrun hb hcell hn hnow henc).trans
      (Dev.releaseCells_opens hn0 htype hseq hstall hclosed hcut))
  case cells =>
    intro s k b n hwf hfront hrun hb hcell hn hn0 htype hnow henc hopen hseq hstall
    exact run_eq hwf ((Dev.messagePacketRow_partial hfront hrun hb hcell hn hnow henc).trans
      (Dev.releaseCells_shows hn0 htype hseq hstall hopen))
  case ack =>
    intro s k b hwf h
    exact run_eq hwf (Dev.rowPkt_control h (by decide) rfl (Dev.takePacket_ack _ h.type_eq h.sub_eq))
  case nak =>
    intro s k b hwf h
    exact run_eq hwf (Dev.rowPkt_control h (by decide) rfl (Dev.takePacket_nak _ h.type_eq h.sub_eq))
  case credit =>
    intro s k b hwf hfront hrun htype hnow henc
    exact run_eq hwf (Dev.rowPkt_control (Dev.packet_of_front hfront hrun htype rfl hnow henc (by decide)) (by decide) rfl
      (Dev.takePacket_credit _ htype))
  case init =>
    intro s k b hwf hfront hrun htype hsub hnow henc
    exact run_eq hwf (Dev.rowPkt_control (Dev.packet_of_front hfront hrun htype hsub hnow henc (by decide)) (by decide) rfl
      (Dev.takePacket_init _ htype hsub))
  case initAck =>
    intro s k b hwf hfront hrun htype hsub hnow henc
    exact run_eq hwf (Dev.rowPkt_control (Dev.packet_of_front hfront hrun htype hsub hnow henc (by decide)) (by decide) rfl
      (Dev.takePacket_initAck _ htype hsub))

/-- Settles O22: each packet by the row of its type. -/
theorem dunrunControlPacketCommands : Obligations.DunrunControlPacketCommands := by
  refine ⟨?spareReq, ?spareAck, ?spareDone, ?spareNack, ?timeReq, ?timeResp, ?timeFollow, ?crumb, ?withdraw, ?restore, ?secMac,
    ?keySwitch⟩
  case spareReq | spareAck | spareDone | spareNack =>
    intro s k b hwf h
    exact run_eq hwf (Dev.rowPkt_control h (by decide) rfl (Dev.takePacket_spare _ h.type_eq))
  case timeReq | timeResp | timeFollow =>
    intro s k b hwf h
    exact run_eq hwf (Dev.rowPkt_control h (by decide) rfl (Dev.takePacket_time _ h.type_eq))
  case crumb =>
    intro s k b hwf h
    exact run_eq hwf (Dev.rowPkt_control h (by decide) rfl (Dev.takePacket_crumb _ h.type_eq))
  case withdraw | restore =>
    intro s k b hwf h
    exact run_eq hwf (Dev.rowPkt_control h (by decide) rfl (Dev.takePacket_route _ h.type_eq))
  case secMac =>
    intro s k b hwf hfront hrun htype hsub hnow
    exact run_eq hwf (Dev.secMacRow_front hfront hrun htype hnow hsub)
  case keySwitch =>
    intro s k b hwf hfront hrun htype hsub hnow
    exact run_eq hwf (Dev.keySwitchRow_front hfront hrun htype hnow hsub)

/-! ## Link initialisation (R167, Table 5-6) -/

theorem Dev.linkInitRow_ready {d : Dev} {k : Nat} (hrun : d.halted = false) (hst : d.lkState k = lkDown)
    (havail : d.linkAvail k = true) (hon : d.on (PGCTL_ENABLE .drl) k = true) (hquar : d.quarantined (.link k) = false)
    (hoct : d.octState (d.lkOctet k) = tsDrActive) : d.linkInitRow k = d.initEnter k := by
  simp [Dev.linkInitRow, hrun, hst, havail, hon, hquar, hoct]

theorem Dev.initResendRow_waiting {d : Dev} {k : Nat} (hrun : d.halted = false)
    (hst : d.lkState k = lkInit ∨ d.lkState k = lkKeywait) : d.initResendRow k = d.sendInit k 0 := by
  simp [Dev.initResendRow, hrun, hst]

/-! ## Sending and the timers of an ACTIVE link (R171 to R182, R188) -/

/-- A message that its VC's credit lets go is the first that may be sent. -/
theorem Dev.sendable_head {d : Dev} {k : Nat} {m : Msg} (rest : List Msg) (hcredit : d.linkCredit k m = true) :
    d.sendable k (m :: rest) [] = some m := by
  simp [Dev.sendable, hcredit]

section
variable {d : Dev} {k : Nat} (hactive : d.lkActiveNow k = true)
include hactive

theorem Dev.nakResendRow_outstanding (hnak : (d.link k).nakOut = true) : d.nakResendRow k = d.sendNak k := by
  simp [Dev.nakResendRow, hactive, hnak]

theorem Dev.ackNsTimerRow_accepted (hacc : 0 < (d.link k).accSinceAck) : d.ackNsTimerRow k = d.sendAck k := by
  simp [Dev.ackNsTimerRow, hactive, hacc]

theorem Dev.messagePacketSendRow_head {m : Msg} {rest : List Msg} (htx : (d.port (d.linkPort k)).tx = m :: rest)
    (hwindow : (d.txN k + 4096 - d.txU k) % 4096 < 2048) (hcredit : d.linkCredit k m = true)
    (hroom : (d.link k).replayBytes + (d.packetOf k m).length ≤ 262144) : d.messagePacketSendRow k = d.packetOut k m rest := by
  have hsend : ¬ ((!d.lkActiveNow k || decide ((d.txN k + 4096 - d.txU k) % 4096 ≥ 2048) ||
      decide ((d.link k).replayBytes + (d.packetOf k m).length > 262144)) = true) := by
    simp [hactive, hwindow, hroom]
  simp only [Dev.messagePacketSendRow, htx, Dev.sendable_head rest hcredit, if_neg hsend, List.erase_cons_head]

theorem Dev.creditStallRow_stalled {vc : Nat}
    (hwait : ((d.toSend k).any fun m => d.vcOf k m.cls = vc && !d.linkCredit k m) = true) :
    d.creditStallRow k vc = d.raise DRL_F_CREDIT_STALL k :=
  if_pos (by rw [hactive, hwait]; rfl)

theorem Dev.timeExchangeRow_synced (hsync : d.on DRL_TIME_SYNC_EN k = true) :
    d.timeExchangeRow k = (d.modLink k fun l =>
      { l with timeId := ((d.link k).timeId + 1) % 256, t1 := some d.fab, t2 := none, t4 := none }).sendPkt k
        (pktTime 0 (((d.link k).timeId + 1) % 256) d.fab) :=
  if_pos (by rw [hactive, hsync]; rfl)

/-- The spare lane takes over once the partner's block time has come. -/
theorem Dev.spareBlockSwitchRow_due {x : Spare} {sp b : Nat} (hspare : (d.link k).spare = some x)
    (hlane : ((List.range 9).find? fun l => d.on SDS_LANE_SPARE (d.lkOctet k) l) = some sp) (hblock : x.block = some b)
    (hdue : ((d.link k).blockCnt + 4096 - b) % 4096 < 2048) : d.spareBlockSwitchRow k = d.spareSwap k x sp := by
  simp [Dev.spareBlockSwitchRow, hspare, hlane, hblock, hdue, hactive]

theorem Dev.spareTimeoutRow_pending (hspare : (d.link k).spare.isSome = true) : d.spareTimeoutRow k = d.spareFail k := by
  simp [Dev.spareTimeoutRow, hactive, hspare]

end

/-- Settles O23: each command's row under its conditions; a timer's row is its effect on a link that is ACTIVE. -/
theorem dunrunSendCommands : Obligations.DunrunSendCommands := by
  refine ⟨?attach, ?linkInit, ?initResend, ?nakResend, ?ackNs, ?ackIdle, ?replay, ?live, ?send, ?creditTimer, ?creditStall,
    ?timeExchange, ?spareSwitch, ?spareRepeat, ?spareTimeout⟩
  case attach =>
    intro s path k oct hwf hreach hlock hoff hfree
    exact run_access_eq hwf hreach (Dev.drlAttach_free hlock hoff hfree)
  case linkInit =>
    intro s k hwf hrun hst havail hon hquar hoct
    exact run_eq hwf (Dev.linkInitRow_ready hrun hst havail hon hquar hoct)
  case initResend => exact fun s k hwf hrun hst => run_eq hwf (Dev.initResendRow_waiting hrun hst)
  case nakResend => exact fun s k hwf hactive hnak => run_eq hwf (Dev.nakResendRow_outstanding hactive hnak)
  case ackNs => exact fun s k hwf hactive hacc => run_eq hwf (Dev.ackNsTimerRow_accepted hactive hacc)
  case ackIdle | replay | live | creditTimer | spareRepeat => exact fun s k hwf hactive => run_eq hwf (if_pos hactive)
  case send =>
    intro s k m rest hwf htx hactive hwindow hcredit hroom
    exact run_eq hwf (Dev.messagePacketSendRow_head hactive htx hwindow hcredit hroom)
  case creditStall => exact fun s k vc hwf hactive hwait => run_eq hwf (Dev.creditStallRow_stalled hactive hwait)
  case timeExchange => exact fun s k hwf hactive hsync => run_eq hwf (Dev.timeExchangeRow_synced hactive hsync)
  case spareSwitch =>
    intro s k x sp b hwf hspare hlane hblock hdue hactive
    exact run_eq hwf (Dev.spareBlockSwitchRow_due hactive hspare hlane hblock hdue)
  case spareTimeout => exact fun s k hwf hactive hspare => run_eq hwf (Dev.spareTimeoutRow_pending hactive hspare)

end Sys2Proof.Machine

namespace Sys2Proof.Machine

/-! # The switching core and the egress ports (chapters 6 to 8)

Equations of the rows of the Oven, of its destinations and bank arbiters, and of an egress port's timed commands, one for each
case of their definitions that a command's conditions pick. -/

/-! ## Presenting and admitting (R216, R221) -/

/-- A cycle's sources, in the order of R208, when only one presents. -/
theorem range_filter_singleton {n a : Nat} (h : a < n) : (List.range n).filter [a].contains = [a] := by
  have hpick : [a].contains = fun x => x == a := by
    funext x
    rw [List.contains_cons, List.contains_nil, Bool.or_false]
  rw [hpick, List.filter_beq, List.count_eq_one_of_mem List.nodup_range (List.mem_range.2 h), List.replicate_one]

section
variable {d : Dev} {src : Nat} (err : CrossErr) (hrun : d.halted = false)
include hrun

theorem Dev.cellPresentRow_running (srcs : List Nat) :
    d.cellPresentRow srcs err = ((((List.range 144).filter srcs.contains).foldl (fun d src => (d.present src).shutHead src)
      d).settleClaims err).lateAll :=
  if_neg (Bool.eq_false_iff.1 hrun)

section
variable {m : Msg} {rest : List Msg} (hhead : d.relOf src = m :: rest)
include hhead

theorem Dev.present_head (hfree : d.core.held.contains src = false) : d.present src = d.tryHead src m rest := by
  simp only [Dev.present, hrun, hfree, hhead, Bool.or_false, Bool.false_eq_true, if_false]

theorem Dev.retryHeld_head (hheld : d.core.held.contains src = true) : d.retryHeld src = d.tryHead src m rest := by
  simp only [Dev.retryHeld, hrun, hheld, hhead, Bool.not_true, Bool.or_false, Bool.false_eq_true, if_false]

theorem Dev.cellPresentRow_single (hsrc : src < 144) (hfree : d.core.held.contains src = false) :
    d.cellPresentRow [src] err = (((d.tryHead src m rest).shutHead src).settleClaims err).lateAll := by
  rw [Dev.cellPresentRow_running err hrun, range_filter_singleton hsrc, List.foldl_cons, List.foldl_nil,
    Dev.present_head hrun hhead hfree]

theorem Dev.heldAdmitRow_head (hheld : d.core.held.contains src = true) :
    d.heldAdmitRow src err = (((d.tryHead src m rest).shutHead src).settleClaims err).lateAll := by
  rw [Dev.heldAdmitRow, if_neg (Bool.eq_false_iff.1 hrun), Dev.retryHeld_head hrun hhead hheld]

end

end

theorem Instr.cellPresent_single_lt {src : Nat} {err : CrossErr} (h : (Instr.cellPresent ⟨[src], err⟩).wf = true) : src < 144 := by
  change ([src].all fun x => decide (x < 144)) = true at h
  simpa using h

/-! ## Tag fills (R502) -/

/-- A word that is waited for, and not made stale since, arrives. -/
theorem Dev.tagFillRow_awaited {d : Dev} {sl word : Nat} (ue : Bool) (hmiss : (SMap.get [] d.prot.misses sl).contains word = true)
    (hfresh : (SMap.get [] d.prot.stale sl).contains word = false) : d.tagFillRow sl word ue = d.tagArrive sl word ue := by
  simp only [Dev.tagFillRow, hmiss, hfresh, Bool.not_true, Bool.false_eq_true, if_false]

/-! ## Selecting (R225) -/

/-- The device once the crossing to the destination has met, or not, a fault of the bridge interface (R25). -/
def Dev.crossed (d : Dev) (dest : Nat) (bridge : Bool) : Dev :=
  d.crossErr (if bridge then .bridge else .none) (destSlice dest) 0

theorem Dev.crossed_clear (d : Dev) (dest : Nat) : d.crossed dest false = d := rfl

section
variable {d : Dev} {dest : Nat} (bridge : Bool) (hrun : d.halted = false)
include hrun

theorem Dev.egressSelectRow_running : d.egressSelectRow dest bridge =
    if dest < 128 then ((d.crossed dest bridge).purgeBad dest).selectPort dest
    else if ((d.crossed dest bridge).purgeBad dest).sliceOn (dest - 128) then
      ((d.crossed dest bridge).purgeBad dest).selectHome (dest - 128)
    else (d.crossed dest bridge).purgeBad dest :=
  if_neg (Bool.eq_false_iff.1 hrun)

theorem Dev.egressSelectRow_port (hport : dest < 128) :
    d.egressSelectRow dest bridge = ((d.crossed dest bridge).purgeBad dest).selectPort dest :=
  (Dev.egressSelectRow_running bridge hrun).trans (if_pos hport)

theorem Dev.egressSelectRow_home (hhome : 128 ≤ dest)
    (hon : ((d.crossed dest bridge).purgeBad dest).sliceOn (dest - 128) = true) :
    d.egressSelectRow dest bridge = ((d.crossed dest bridge).purgeBad dest).selectHome (dest - 128) := by
  rw [Dev.egressSelectRow_running bridge hrun, if_neg (Nat.not_lt.2 hhome), if_pos hon]

end

/-! ## Bank decisions, the stall timer and retirement (R253, R237, R242, R243) -/

theorem Dev.bankDecisionRow_running {d : Dev} (sl b : Nat) (err : BankErr) (hrun : d.halted = false) :
    d.bankDecisionRow sl b err = d.bankStep sl b err :=
  if_neg (Bool.eq_false_iff.1 hrun)

/-- A message of the slice whose LAST cell has not come is closed. -/
theorem Dev.stallTimeoutRow_open {d : Dev} {sl id : Nat} {x : Stored} (hx : d.stored? id = some x)
    (hsl : srcSlice x.m.src = sl) (hopen : x.m.last = false) : d.stallTimeoutRow sl id = d.stallClose sl id x := by
  simp only [Dev.stallTimeoutRow, hx, hsl, hopen, ne_eq, not_true, decide_false, Bool.and_false, Bool.or_self,
    Bool.false_eq_true, if_false]

theorem Dev.retireBank_allowed {d : Dev} {sl b : Nat} (hserving : d.retired sl b = false) (hroom : d.canRetire sl = true) :
    d.retireBank sl b = d.retireNow sl b := by
  rw [Dev.retireBank, if_neg (Bool.eq_false_iff.1 hserving), if_pos hroom]

/-- The banks of slice sl that are retiring, as the list of Core keys them. -/
def Dev.retiringOf (d : Dev) (sl : Nat) : List Nat := d.core.retiring.filter fun k => k / 16 = sl

/-- The device with no bank of the slice retiring. -/
def Dev.retireOver (d : Dev) (sl : Nat) : Dev :=
  ({ d with core := { d.core with retiring := d.core.retiring.filter fun k => k / 16 ≠ sl } } : Dev).put OVN_RETIRE_BUSY sl 0

theorem Dev.retirementDoneRow_emptied {d : Dev} {sl : Nat} (hsome : (d.retiringOf sl).isEmpty = false)
    (hempty : ((d.retiringOf sl).any fun k => d.bankUsed sl (k % 16) > 0) = false) :
    d.retirementDoneRow sl = (d.retiringOf sl).foldl (fun d _ => d.raise OVN_F_RETIRED sl) (d.retireOver sl) :=
  if_neg (Bool.eq_false_iff.1 (Bool.or_eq_false_iff.2 ⟨hsome, hempty⟩))

/-! ## Shapers, samples and gates (R280, R287, R293) -/

/-- With no commit to apply, the shapers gain their cycles and nothing switches. -/
theorem Dev.shaperRefillRow_applied {d : Dev} {p : Nat} (havail : d.portAvail p = true)
    (happlied : ((d.tabRead 0x0B p (List.range 8)).refillAll p).on (PGEPOCH_APPLIED .egs) p = true) :
    d.shaperRefillRow p = (d.tabRead 0x0B p (List.range 8)).refillAll p := by
  simp only [Dev.shaperRefillRow, havail, happlied, Bool.not_true, Bool.false_eq_true, if_true, if_false]

theorem Dev.egsSampleRow_sampling {d : Dev} {p : Nat} (hrun : d.halted = false) (havail : d.portAvail p = true)
    (hon : d.enabled ⟨.egs, p⟩ = true) (hinterval : d.get EGS_SAMPLE_INTERVAL p ≠ 0) : d.egsSampleRow p = d.sampleNow p :=
  if_neg (by simp [hrun, havail, hon, hinterval])

/-- The device once the gate entry in force has been read, when the port's gates are on. -/
def Dev.gateRead (d : Dev) (p : Nat) : Dev :=
  if d.on GTE_CFG_GATE_EN p then d.tabRead 0x0C p [(d.gatesAt p d.fab).1] else d

/-- The messages of port p held for an opening after the device's fabric time. -/
def Dev.stillHeld (d : Dev) (x : Egress) : List Nat := x.gateHeld.filter fun h => d.fab < h / 8

section
variable {d : Dev} {p : Nat} (havail : d.portAvail p = true)
include havail

/-- A committed list whose switch point has come is in force. -/
theorem Dev.gateEdgeRow_switch {t : Nat} (hswitch : (d.egress p).switchAt = some t) (hdue : t ≤ (d.gateRead p).fab) :
    d.gateEdgeRow p = ((d.gateRead p).setEgress p { d.egress p with
      switchAt := none, gateOn := (d.gateRead p).on GTE_CFG_GATE_EN p,
      gateHeld := (d.gateRead p).stillHeld (d.egress p) }).put (PGEPOCH_APPLIED .gte) p 1 := by
  rw [Dev.gateRead] at hdue ⊢
  simp only [Dev.gateEdgeRow, havail, hswitch, hdue, Dev.stillHeld, Bool.not_true, Bool.false_eq_true, if_true, if_false]

theorem Dev.gateEdgeRow_noSwitch (hswitch : (d.egress p).switchAt = none) :
    d.gateEdgeRow p = (d.gateRead p).setEgress p { d.egress p with gateHeld := (d.gateRead p).stillHeld (d.egress p) } := by
  simp only [Dev.gateEdgeRow, havail, hswitch, Bool.not_true, Bool.false_eq_true, if_false]
  rfl

end

/-- Settles O24: each command's row under its conditions. -/
theorem ovenAndEgressCommands : Obligations.OvenAndEgressCommands := by
  refine ⟨?presentOne, ?present, ?heldAdmit, ?tagFill, ?selectPort, ?selectHome, ?selectFaulty, ?bank, ?stall, ?retire,
    ?retirementDone, ?refill, ?sample, ?gateSwitch, ?gateHeld⟩
  case presentOne =>
    intro s src err m rest hwf hrun hfree hhead
    exact run_eq hwf (Dev.cellPresentRow_single err hrun hhead (Instr.cellPresent_single_lt hwf) hfree)
  case present => exact fun s srcs err hwf hrun => run_eq hwf (Dev.cellPresentRow_running err hrun srcs)
  case heldAdmit =>
    intro s src err m rest hwf hrun hheld hhead
    exact run_eq hwf (Dev.heldAdmitRow_head err hrun hhead hheld)
  case tagFill => exact fun s sl word ue hwf hmiss hfresh => run_eq hwf (Dev.tagFillRow_awaited ue hmiss hfresh)
  case selectPort =>
    rintro s dest _ hwf hrun rfl hport
    exact run_eq hwf (Dev.egressSelectRow_port false hrun hport)
  case selectHome =>
    rintro s dest _ hwf hrun rfl hhome hon
    exact run_eq hwf (Dev.egressSelectRow_home false hrun hhome hon)
  case selectFaulty =>
    rintro s dest _ hwf hrun rfl hport
    exact run_eq hwf (Dev.egressSelectRow_port true hrun hport)
  case bank => exact fun s sl b err hwf hrun _ => run_eq hwf (Dev.bankDecisionRow_running sl b err hrun)
  case stall => exact fun s sl id x hwf hx hsl hopen => run_eq hwf (Dev.stallTimeoutRow_open hx hsl hopen)
  case retire =>
    intro s path sl b hwf hreach hserving hroom
    exact run_access_eq hwf hreach (Dev.retireBank_allowed hserving hroom)
  case retirementDone =>
    exact fun s sl hwf hsome hempty => run_eq hwf (Dev.retirementDoneRow_emptied hsome hempty)
  case refill => exact fun s p hwf havail happlied => run_eq hwf (Dev.shaperRefillRow_applied havail happlied)
  case sample =>
    intro s p hwf hrun havail hon hinterval
    exact run_eq hwf (Dev.egsSampleRow_sampling hrun havail hon hinterval)
  case gateSwitch =>
    rintro s p t _ hwf havail rfl hswitch hdue
    exact run_eq hwf (Dev.gateEdgeRow_switch havail hswitch hdue)
  case gateHeld =>
    rintro s p _ hwf havail rfl hswitch
    exact run_eq hwf (Dev.gateEdgeRow_noSwitch havail hswitch)

end Sys2Proof.Machine

namespace Sys2Proof.Machine

/-! # Decoding (chapter 9, Address Decode, Binding and Hot Plug, R320, R323)

The offset of an address in an interleaved entry is a granule row, the way within the row and the offset in the granule; a target
holds one granule of every row. Forward decode keeps the row and the offset as the DPA, reverse decode puts the way back. -/

/-! ## Interleaving -/

/-- An offset from its row of granules, its way in the row and its offset in the granule. -/
theorem row_way_offset (off gran ways : Nat) :
    off / (gran * ways) * gran * ways + off / gran % ways * gran + off % gran = off := by
  have hrow : ways * (off / (gran * ways)) + off / gran % ways = off / gran := by
    rw [← Nat.div_div_eq_div_mul]
    exact Nat.div_add_mod _ _
  calc off / (gran * ways) * gran * ways + off / gran % ways * gran + off % gran
      = gran * (ways * (off / (gran * ways)) + off / gran % ways) + off % gran := by ring
    _ = off := by rw [hrow, Nat.div_add_mod]

/-- A target holds as many granules as there are rows. -/
theorem row_offset_lt {off gran ways rows : Nat} (hgran : 0 < gran) (h : off < gran * ways * rows) :
    off / (gran * ways) * gran + off % gran < rows * gran :=
  calc off / (gran * ways) * gran + off % gran
      < (off / (gran * ways) + 1) * gran := by
        rw [Nat.add_mul, Nat.one_mul]
        exact Nat.add_lt_add_left (Nat.mod_lt _ hgran) _
    _ ≤ rows * gran := Nat.mul_le_mul_right _ (Nat.div_lt_of_lt_mul h)

namespace Hdm

variable (x : Hdm)

theorem ways_pos : 0 < x.ways := Nat.succ_pos _

theorem gran_pos : 0 < x.gran := Nat.mul_pos (by decide) (Nat.two_pow_pos _)

/-- The offset in its target's range of the byte at an offset in the entry's range. -/
def targetOffset (off : Nat) : Nat :=
  if x.mode = 1 then off / (x.gran * x.ways) * x.gran + off % x.gran else off

theorem map_fst (a : Nat) : (x.map a).1 = if x.mode = 1 then (a - x.lo) / x.gran % x.ways else 0 := by
  by_cases hmode : x.mode = 1 <;> simp [map, hmode]

theorem map_snd (a : Nat) : (x.map a).2 = x.dpa * 2 ^ 28 + x.targetOffset (a - x.lo) := by
  by_cases hmode : x.mode = 1 <;> simp [map, targetOffset, hmode, Nat.add_assoc]

theorem map_fst_lt_ways (a : Nat) : (x.map a).1 < x.ways := by
  rw [map_fst]
  split
  · exact Nat.mod_lt _ x.ways_pos
  · exact x.ways_pos

theorem targetOffset_lt {off : Nat} (hoff : off < x.bytes) (hwhole : x.bytes % (x.gran * x.ways) = 0) :
    x.targetOffset off < x.dpaBytes := by
  unfold targetOffset dpaBytes
  split
  · obtain ⟨rows, hrows⟩ := Nat.dvd_of_mod_eq_zero hwhole
    have hshare : x.bytes / x.ways = rows * x.gran :=
      Nat.div_eq_of_eq_mul_left x.ways_pos (hrows.trans (by ring))
    rw [hshare]
    exact row_offset_lt x.gran_pos (hrows ▸ hoff)
  · exact hoff

theorem unmap_map {a : Nat} (ha : x.lo ≤ a) : x.unmap (x.map a).1 (x.map a).2 = a := by
  have hback : x.lo + (a - x.lo) = a := Nat.add_sub_of_le ha
  rw [map_fst, map_snd, unmap, Nat.add_sub_cancel_left, targetOffset]
  by_cases hmode : x.mode = 1
  · have hrow : ((a - x.lo) / (x.gran * x.ways) * x.gran + (a - x.lo) % x.gran) / x.gran =
        (a - x.lo) / (x.gran * x.ways) := by
      rw [Nat.add_comm, Nat.add_mul_div_right _ _ x.gran_pos, Nat.mod_div_self, Nat.zero_add]
    simp only [hmode, if_true, hrow, Nat.mul_add_mod_self_right, Nat.mod_mod]
    rw [Nat.add_assoc, Nat.add_assoc, ← Nat.add_assoc (_ * _), row_way_offset, hback]
  · simp only [hmode, if_false, hback]

end Hdm

/-- Settles O52: the way is one of the entry's, the DPA is the target's first byte and an offset in its range, and reverse decode
puts the offset together again. -/
theorem decodeAndReverseDecodeAgree : Obligations.DecodeAndReverseDecodeAgree := by
  intro x a hlo hhi hwhole
  have hoff : x.targetOffset (a - x.lo) < x.dpaBytes := x.targetOffset_lt (by omega) hwhole
  refine ⟨x.map_fst_lt_ways a, ?_, ?_, x.unmap_map hlo⟩
  · rw [x.map_snd]
    exact Nat.le_add_right _ _
  · rw [x.map_snd]
    exact Nat.add_lt_add_left hoff _

/-! ## The entry that holds the address -/

/-- Where every other element gives nothing, the search gives what the one element does. -/
theorem findSome?_of_forall_ne {α β : Type} {f : α → Option β} {i : α} {l : List α} (hi : i ∈ l)
    (hne : ∀ j ∈ l, j ≠ i → f j = none) : l.findSome? f = f i := by
  cases hfound : l.findSome? f with
  | none => exact (List.findSome?_eq_none_iff.1 hfound i hi).symm
  | some b =>
    obtain ⟨j, hj, hb⟩ := List.exists_of_findSome?_eq_some hfound
    have hji : j = i := by
      by_contra hji
      simp [hne j hj hji] at hb
    rw [← hji, hb]

/-- What decode answers for an address in the range of entry i: its way's vPPB, the target bound there, and the DPA. -/
def Dev.decodeIn (d : Dev) (e u a i : Nat) : Option Dec :=
  ((d.bind e u ((d.hdm e u i).tgts.getD ((d.hdm e u i).map a).1 0)).tgt).map fun t =>
    ⟨i, d.hdm e u i, (d.hdm e u i).tgts.getD ((d.hdm e u i).map a).1 0, t, ((d.hdm e u i).map a).2⟩

/-- Decode searches the valid entries that hold the address. -/
theorem Dev.decode_eq_findSome? (d : Dev) (e u a : Nat) :
    d.decode e u a = (List.range 32).findSome? fun i =>
      if (d.hdm e u i).v && (d.hdm e u i).lo ≤ a && a < (d.hdm e u i).lo + (d.hdm e u i).bytes then d.decodeIn e u a i
      else none := rfl

/-- Settles O53: every other entry is not valid or does not hold the address, so the search ends at this one. -/
theorem decodeTakesTheMatchingEntry : Obligations.DecodeTakesTheMatchingEntry := by
  intro d e u a i hi hv hlo hhi hother
  rw [Dev.decode_eq_findSome?, findSome?_of_forall_ne (List.mem_range.2 hi)]
  · simp only [hv, hlo, hhi, decide_true, Bool.and_true, if_true, Dev.decodeIn]
  · intro j hj hji
    refine if_neg fun hin => ?_
    simp only [Bool.and_eq_true, decide_eq_true_eq] at hin
    obtain ⟨⟨hjv, hjlo⟩, hjhi⟩ := hin
    have hout := hother j (List.mem_range.1 hj) hji hjv
    omega

end Sys2Proof.Machine

namespace Sys2Proof.Machine

/-! # Binding, hot plug and the Fabric Manager API (chapter 9, Address Decode, Binding and Hot Plug)

Equations of the rows of configuration requests, LD loss, removal notices and slot power, one for each case that a command's
conditions pick, then those of the FM API commands. Where the spec leaves a case open they follow the model's choices: log entry 41
for removal notices, 33, 43 and 44 for the FM API. -/

/-! ## Configuration requests (R311) -/

section
variable {d : Dev} {vcs : Nat} (hvcs : d.vcsExists vcs = true) (hcarries : d.carries vcs = true) (hrun : d.halted = false)
  {off : Nat} (hoff : off < 4096) (vppb val : Nat)
include hvcs hcarries hrun hoff

/-- A request at an offset of configuration space goes below the vPPB, or to the vPPB itself. -/
theorem Dev.configurationRequestRow_carried (below write : Bool) :
    d.configurationRequestRow vcs vppb below off write val =
      if below then d.cfgBelow (cfgMsg d.myId vcs vppb off write val) vppb off write val
      else if write then (d.vppbWrite vcs vppb (off / 4) val).cfgAnswer (cfgMsg d.myId vcs vppb off write val) (some 0)
      else d.cfgAnswer (cfgMsg d.myId vcs vppb off write val) (some (d.vppbRead vcs vppb (off / 4)).toNat) := by
  simp only [Dev.configurationRequestRow, hvcs, hcarries, hrun, Nat.mod_eq_of_lt hoff, Nat.not_le.2 hoff,
    Bool.not_true, Bool.or_false, Bool.false_eq_true, if_false]

theorem Dev.configurationRequestRow_below (write : Bool) :
    d.configurationRequestRow vcs vppb true off write val = d.cfgBelow (cfgMsg d.myId vcs vppb off write val) vppb off write val :=
  (Dev.configurationRequestRow_carried hvcs hcarries hrun hoff vppb val true write).trans (if_pos rfl)

theorem Dev.configurationRequestRow_write :
    d.configurationRequestRow vcs vppb false off true val =
      (d.vppbWrite vcs vppb (off / 4) val).cfgAnswer (cfgMsg d.myId vcs vppb off true val) (some 0) :=
  Dev.configurationRequestRow_carried hvcs hcarries hrun hoff vppb val false true

theorem Dev.configurationRequestRow_read :
    d.configurationRequestRow vcs vppb false off false val =
      d.cfgAnswer (cfgMsg d.myId vcs vppb off false val) (some (d.vppbRead vcs vppb (off / 4)).toNat) :=
  Dev.configurationRequestRow_carried hvcs hcarries hrun hoff vppb val false false

end

/-! ## Loss, removal and slot power (R334, R335, R337) -/

/-- An LD of an active MLD that is in use is lost. -/
theorem Dev.mldLdLostRow_lost {d : Dev} {p ld : Nat} (hdown : d.isDown p = true) (hactive : d.on PRT_STAT_DL_ACTIVE p = true)
    (hmld : d.on PRT_STAT_MLD p = true) (hused : (d.lostTgts p).contains ⟨d.myId, false, p, ld⟩ = true)
    (hrun : d.halted = false) :
    d.mldLdLostRow p ld =
      ((d.raise PRT_F_SURPRISE_DOWN p (d.portWho p)).removeTargets [⟨d.myId, false, p, ld⟩]).removalNotice p ld := by
  simp only [Dev.mldLdLostRow, hdown, hactive, hmld, hused, hrun, Bool.not_true, Bool.or_false, Bool.false_eq_true, if_false]

/-- A removal notice that SIE[0] takes. -/
theorem Dev.removalNoticeRow_taken {d : Dev} {dev p ld : Nat} {m : Msg} (hrun : d.halted = false)
    (hfirst : d.firstOf 0 (removalHit dev p ld) = some m) :
    d.removalNoticeRow dev p ld =
      if ld ≥ 1024 then (d.setArrived 0 2 ((d.arrivedAt 0 2).erase m)).removeAgent (ld - 1024) false
      else if ld < 16 then (d.setArrived 0 2 ((d.arrivedAt 0 2).erase m)).removeTargets [⟨dev, false, p, ld⟩]
      else (d.setArrived 0 2 ((d.arrivedAt 0 2).erase m)).removeTargets ((List.range 16).map fun l => ⟨dev, false, p, l⟩) := by
  simp only [Dev.removalNoticeRow, hrun, hfirst, Bool.false_eq_true, if_false]

/-- Power Controller Control of a bound vPPB that has a slot. -/
theorem Dev.vppbPowerControlRow_slot {d : Dev} {u vppb : Nat} (hvcs : d.vcsExists u = true) (hcarries : d.carries u = true)
    (hrun : d.halted = false) (hbound : (d.bindNow u vppb).kind ≠ 0) (hslot : (d.bindNow u vppb).slotV = true) (on : Bool) :
    d.vppbPowerControlRow u vppb on = d.vppbPower u vppb on := by
  simp only [Dev.vppbPowerControlRow, hvcs, hcarries, hrun, hbound, hslot, Bool.not_true, decide_false, Bool.or_false,
    Bool.false_eq_true, if_false]

/-! ## The Fabric Manager API (R343) -/

/-- A Fabric Manager command that firmware serves is its effect (R38). -/
theorem Dev.fm_of_open {d : Dev} {path : Nat} (h : d.FmOpen path) (i : Instr) (f : Dev → Dev) : d.fm i path f = f d := by
  obtain ⟨hopen, hfw⟩ := h
  simp [Dev.fm, hopen, hfw]

theorem run_fm_eq {ok : Bool} {row : String} {s : State} {path : Nat} {i : Instr} {f : Dev → Dev} {e : Dev} (hok : ok = true)
    (h : s.dev.FmOpen path) (he : f s.dev = e) : run ok row s (s.dev.fm i path f) = .next (s.after e) :=
  run_eq hok ((Dev.fm_of_open h i f).trans he)

theorem Dev.fmCommit_unlocked {d : Dev} {vcs : Nat} (hlock : d.locked ⟨.dec, vcs / 8⟩ = false) (f : Dev → Dev) :
    d.fmCommit vcs f = d.fmApply vcs f :=
  if_neg (Bool.eq_false_iff.1 hlock)

/-- Settles O37: each command runs its meaning, or firmware serves it, and the case's equation gives the device. -/
theorem bindingAndFabricManagerCommands : Obligations.BindingAndFabricManagerCommands := by
  refine ⟨?cfgRead, ?cfgWrite, ?cfgBelow, ?ldLost, ?ldRemoved, ?agentRemoved, ?slotPower, ?vcsInfo, ?bindVppb, ?unbindVppb, ?aer,
    ?identify, ?portState, ?retrain, ?larderConfig, ?portConfig, ?larderTunnel, ?portTunnel⟩
  case cfgRead =>
    rintro s vcs vppb _ off _ val hwf hvcs hcarries hrun rfl hoff rfl
    exact run_eq hwf (Dev.configurationRequestRow_read hvcs hcarries hrun hoff vppb val)
  case cfgWrite =>
    rintro s vcs vppb _ off _ val hwf hvcs hcarries hrun rfl hoff rfl
    exact run_eq hwf (Dev.configurationRequestRow_write hvcs hcarries hrun hoff vppb val)
  case cfgBelow =>
    rintro s vcs vppb _ off write val hwf hvcs hcarries hrun rfl hoff
    exact run_eq hwf (Dev.configurationRequestRow_below hvcs hcarries hrun hoff vppb val write)
  case ldLost =>
    intro s p ld hwf hdown hactive hmld hused hrun
    exact run_eq hwf (Dev.mldLdLostRow_lost hdown hactive hmld hused hrun)
  case ldRemoved =>
    intro s dev p ld m hwf hrun hfirst hld
    have hagent : ¬ ld ≥ 1024 := by omega
    exact run_eq hwf ((Dev.removalNoticeRow_taken hrun hfirst).trans ((if_neg hagent).trans (if_pos hld)))
  case agentRemoved =>
    intro s dev p ld m hwf hrun hfirst hagent
    exact run_eq hwf ((Dev.removalNoticeRow_taken hrun hfirst).trans (if_pos hagent))
  case slotPower =>
    intro s u vppb on hwf hvcs hcarries hrun hbound hslot
    exact run_eq hwf (Dev.vppbPowerControlRow_slot hvcs hcarries hrun hbound hslot on)
  case vcsInfo => exact fun s path vcs start limit hwf hfm => run_fm_eq hwf hfm rfl
  case bindVppb =>
    exact fun s path vcs vppb tgt ld hwf hfm hlock => run_fm_eq hwf hfm (Dev.fmCommit_unlocked hlock _)
  case unbindVppb =>
    intro s path vcs vppb option hwf hfm hoption hlock
    exact run_fm_eq hwf hfm ((if_neg (Nat.not_lt.2 hoption)).trans (Dev.fmCommit_unlocked hlock _))
  case aer => exact fun s path vcs vppb err hwf hfm hvcs => run_fm_eq hwf hfm (if_pos hvcs)
  case identify => exact fun s path hwf hfm => run_fm_eq hwf hfm rfl
  case portState => exact fun s path ports hwf hfm hports => run_fm_eq hwf hfm (if_pos hports)
  case retrain =>
    rintro s path p _ hwf hfm rfl hport hst
    exact run_fm_eq hwf hfm (congrArg (·.fmOk []) (Dev.toRecovery_up hport hst))
  case larderConfig => exact fun s path p ld off write val hwf hfm hp => run_fm_eq hwf hfm (if_pos hp)
  case portConfig =>
    intro s path p ld off write val hwf hfm hp hdown hcarries hrun
    exact run_fm_eq hwf hfm ((if_neg (Nat.not_le.2 hp)).trans (if_neg (by simp [hdown, hcarries, hrun])))
  case larderTunnel => exact fun s path p payload hwf hfm hp => run_fm_eq hwf hfm (if_pos hp)
  case portTunnel =>
    intro s path p payload hwf hfm hp hdown hcarries hmld hrun
    exact run_fm_eq hwf hfm ((if_neg (Nat.not_le.2 hp)).trans (if_neg (by simp [hdown, hcarries, hmld, hrun])))

end Sys2Proof.Machine

namespace Sys2Proof.Machine

/-! # Homing and the home's requests (chapter 10, Coherence)

The fold over bit groups behind a line's home slice and directory set, then what the home does with the message it takes next.
How a taken message meets the line's queue and the wait buffer is log entry 68. -/

/-! ## The XOR of a number's groups (R348) -/

/-- Folding a number's groups of `w` bits into a start value, from bit 0 upward, is the XOR of the value with all of them. -/
theorem foldl_xor_groups {b w : Nat} (hb : b = 2 ^ w) (n k x : Nat) :
    (List.range k).foldl (fun x i => x ^^^ n / b ^ i % b) x = x ^^^ xorGroups w n k := by
  subst hb
  induction k generalizing n x with
  | zero => exact (Nat.xor_zero x).symm
  | succ k ih =>
    have hshift (i : Nat) : n / (2 ^ w) ^ (i + 1) = n / 2 ^ w / (2 ^ w) ^ i := by rw [pow_succ', Nat.div_div_eq_div_mul]
    calc (List.range (k + 1)).foldl (fun x i => x ^^^ n / (2 ^ w) ^ i % 2 ^ w) x
        = (List.range k).foldl (fun x i => x ^^^ n / 2 ^ w / (2 ^ w) ^ i % 2 ^ w) (x ^^^ n % 2 ^ w) := by
          simp [List.range_succ_eq_map, List.foldl_map, hshift]
      _ = x ^^^ n % 2 ^ w ^^^ xorGroups w (n / 2 ^ w) k := ih _ _
      _ = x ^^^ xorGroups w n (k + 1) := Nat.xor_assoc _ _ _

theorem xorGroups_lt (w n k : Nat) : xorGroups w n k < 2 ^ w := by
  induction k generalizing n with
  | zero => exact Nat.two_pow_pos w
  | succ k ih => exact Nat.xor_lt_two_pow (Nat.mod_lt _ (Nat.two_pow_pos w)) (ih _)

/-- A low group under a number stands beside the number's own groups. -/
theorem xorGroups_low_group (w n k : Nat) {a : Nat} (ha : a < 2 ^ w) :
    xorGroups w (2 ^ w * n + a) (k + 1) = a ^^^ xorGroups w n k := by
  have hmod : (2 ^ w * n + a) % 2 ^ w = a := by rw [Nat.mul_add_mod, Nat.mod_eq_of_lt ha]
  have hdiv : (2 ^ w * n + a) / 2 ^ w = n := by
    rw [Nat.mul_add_div (Nat.two_pow_pos w), Nat.div_eq_of_lt ha, Nat.add_zero]
  calc xorGroups w (2 ^ w * n + a) (k + 1)
      = (2 ^ w * n + a) % 2 ^ w ^^^ xorGroups w ((2 ^ w * n + a) / 2 ^ w) k := rfl
    _ = a ^^^ xorGroups w n k := by rw [hmod, hdiv]

theorem homeSlice_lt (tk h : Nat) : homeSlice tk h < 16 :=
  Nat.xor_lt_two_pow (n := 4) (xorGroups_lt 4 h 12) (xorGroups_lt 4 tk 3)

theorem dirSet_lt {tk : Nat} (htk : tk < 2 ^ 14) (h : Nat) : dirSet tk h < 16384 :=
  Nat.xor_lt_two_pow (n := 14) (xorGroups_lt 14 h 4) htk

/-- The low four bits of a line's number enter its home slice once. -/
theorem homeSlice_low_group (tk h : Nat) {a : Nat} (ha : a < 16) :
    homeSlice tk (16 * h + a) = a ^^^ (xorGroups 4 h 11 ^^^ xorGroups 4 tk 3) :=
  (congrArg (· ^^^ xorGroups 4 tk 3) (xorGroups_low_group 4 h 11 ha)).trans (Nat.xor_assoc _ _ _)

/-- Settles O50: the model's recursion over the groups is the fold over them, and XOR keeps the width of a group. -/
theorem homeSliceIsAnXorOfGroups : Obligations.HomeSliceIsAnXorOfGroups := by
  intro tk h htk _
  have hslice : homeSlice tk h = (List.range 3).foldl (fun x i => x ^^^ tk / 16 ^ i % 16)
      ((List.range 12).foldl (fun x i => x ^^^ h / 16 ^ i % 16) 0) := by
    have hwidth : 16 = 2 ^ 4 := rfl
    rw [foldl_xor_groups hwidth, foldl_xor_groups hwidth, Nat.zero_xor]
    rfl
  have hset : dirSet tk h = (List.range 4).foldl (fun x i => x ^^^ h / 16384 ^ i % 16384) 0 ^^^ tk := by
    have hwidth : 16384 = 2 ^ 14 := rfl
    rw [foldl_xor_groups hwidth, Nat.zero_xor]
    rfl
  exact ⟨hslice, hset, rfl, homeSlice_lt tk h, dirSet_lt (by omega) h⟩

/-- Settles O51: the lines' slices are their low groups under one XOR, which is injective. -/
theorem linesOfOneGroupLieInDifferentSlices : Obligations.LinesOfOneGroupLieInDifferentSlices := by
  intro tk h a b ha hb hne heq
  rw [homeSlice_low_group tk h ha, homeSlice_low_group tk h hb] at heq
  exact hne (Nat.xor_left_injective heq)

/-! ## The message the home takes next (R215, R367, R381, R385) -/

/-- What deciding a taken message leaves: of the requests that wait for its line, those that may be decided come first (R381). -/
def Dev.decideTaken (d : Dev) (m : Msg) (waiting : Nat) : Dev :=
  Dev.runHome (((d.seeAgent m).lineGo m.body.tk m.hline waiting).decideOne (m, none))

/-- A writeback is decided behind the requests of its line that may be decided. -/
theorem Dev.takeMsg_writeback (d d2 : Dev) (s : Nat) {k : Kind} {m : Msg} (hkind : kindOf m.body.op = some k)
    (hwb : k = .wbI ∨ k = .wbS) :
    d.takeMsg s k m d2 = d2.decideTaken m (d.home s).waits.length := by
  obtain rfl | rfl := hwb <;> simp [Dev.takeMsg, Dev.decideTaken, hkind]

/-- A request is decided where none of its line waits ahead of it and the wait buffer has room. -/
theorem Dev.takeMsg_request {d : Dev} (d2 : Dev) {s : Nat} {k : Kind} {m : Msg} (hkind : kindOf m.body.op = some k)
    (hroom : (d.home s).waits.length < 1024)
    (hfirst : (d.home s).waits.any (fun w => !w.retry && w.tk = m.body.tk && w.h = m.hline) = false) :
    d.takeMsg s k m d2 = d2.decideTaken m (d.home s).waits.length := by
  simp only [Dev.takeMsg, Dev.decideTaken, hkind, hfirst, Nat.not_le.2 hroom, ne_eq, not_true_eq_false, if_false, Bool.false_and,
    Bool.false_eq_true, decide_false, Bool.and_false]

section
variable {d : Dev} {s : Nat} (hrun : d.halted = false) (hrsp : d.arrivedAt s 0 = [])
include hrun hrsp

/-- With no answer waiting, the home takes from the WB channel first. -/
theorem Dev.takeKind_fromWb {m : Msg} {d2 : Dev} (hwb : d.takeFrom s 1 = some (m, d2)) (k : Kind) :
    d.takeKind s k = d.takeMsg s k m d2 := by
  simp [Dev.takeKind, hrun, hrsp, hwb]

/-- With no answer and no writeback to take, the home takes from the REQ channel. -/
theorem Dev.takeKind_fromReq {m : Msg} {d2 : Dev} (hwb : d.takeFrom s 1 = none) (hreq : d.takeFrom s 2 = some (m, d2))
    (k : Kind) : d.takeKind s k = d.takeMsg s k m d2 := by
  simp [Dev.takeKind, hrun, hrsp, hwb, hreq]

/-- The writeback that the home takes next. -/
theorem Dev.takeKind_writeback {k : Kind} {m : Msg} {d2 : Dev} (hwb : d.takeFrom s 1 = some (m, d2))
    (hkind : kindOf m.body.op = some k) (hk : k = .wbI ∨ k = .wbS) :
    d.takeKind s k = d2.decideTaken m (d.home s).waits.length :=
  (Dev.takeKind_fromWb hrun hrsp hwb k).trans (Dev.takeMsg_writeback d d2 s hkind hk)

end

/-- The request that the home takes next and that nothing holds back. -/
theorem Dev.takeKind_request {d : Dev} {s : Nat} {k : Kind} {m : Msg} {d2 : Dev} (hnext : d.NextRequest s k m d2) :
    d.takeKind s k = d2.decideTaken m (d.home s).waits.length := by
  obtain ⟨hrun, hrsp, hwb, hreq, hkind, hroom, hfirst⟩ := hnext
  exact (Dev.takeKind_fromReq hrun hrsp hwb hreq k).trans (Dev.takeMsg_request d2 hkind hroom hfirst)

/-- Settles O25: each command takes the home's next message when it is of its kind, and that message is decided. -/
theorem homeRequestCommands : Obligations.HomeRequestCommands := by
  refine ⟨?rdS, ?rdO, ?ownNd, ?rdC, ?wr, ?atom, ?wbI, ?wbS, ?cln, ?bisI, ?bisS, ?bisC⟩
  case wbI =>
    exact fun s h m d2 hwf hrun hrsp htake hkind => run_eq hwf (Dev.takeKind_writeback hrun hrsp htake hkind (.inl rfl))
  case wbS =>
    exact fun s h m d2 hwf hrun hrsp htake hkind => run_eq hwf (Dev.takeKind_writeback hrun hrsp htake hkind (.inr rfl))
  case rdS | rdO | ownNd | rdC | wr | atom | cln | bisI | bisS | bisC =>
    exact fun s h m d2 hwf hnext => run_eq hwf (Dev.takeKind_request hnext)

end Sys2Proof.Machine

namespace Sys2Proof.Machine

/-! # Answers, waiting requests and failures at the home (chapter 11, Coherence Races and Failures)

Equations of the home's rows beside the requests, one for each case that a command's conditions pick. Where the spec leaves a case
open they follow the model's choices: log entries 69 to 73. -/

section
variable {d : Dev} {h : Nat} (hrun : d.halted = false)
include hrun

/-! ## Answers (R382, R386) -/

/-- An agent's answer at the front of the RSP channel is taken. -/
theorem Dev.snoopAnswerRow_front {m : Msg} {d2 : Dev} (hfront : d.frontRsp h = some (m, d2)) (hans : ansOp m.body.op = true) :
    d.snoopAnswerRow h = d2.snoopAnswered m := by
  simp only [Dev.snoopAnswerRow, hrun, hfront, hans, Bool.false_eq_true, if_false, if_true]

/-- A target's answer at the front of the RSP channel goes to the transaction that asked the target. -/
theorem Dev.targetAnswerRow_front {m : Msg} {d2 : Dev} (hfront : d.frontRsp h = some (m, d2)) (hans : ansOp m.body.op = false)
    (htgt : tgtOp m.body.op = true) : d.targetAnswerRow h = d2.homeTarget h m := by
  simp only [Dev.targetAnswerRow, hrun, hfront, hans, htgt, Bool.false_eq_true, if_false, if_true]

/-! ## Waiting requests (R381, R390) -/

/-- The first request that waits for a free line is decided. -/
theorem Dev.lineQueueHeadRow_free {line : Nat} {w : Wait} (hslice : homeSlice (line / 2 ^ 46) (line % 2 ^ 46) = h)
    (hfree : d.lineTaken (line / 2 ^ 46) (line % 2 ^ 46) = false)
    (hfirst : (d.home h).waits.find? (fun w => !w.retry && w.tk = line / 2 ^ 46 && w.h = line % 2 ^ 46) = some w) :
    d.lineQueueHeadRow h line =
      Dev.runHome ((d.modHome h fun x => { x with waits := x.waits.erase w }).decideOne (w.m, none)) := by
  have hhead : d.lineFirst (line / 2 ^ 46) (line % 2 ^ 46) = some w := by rw [Dev.lineFirst, hslice, hfirst]
  simp only [Dev.lineQueueHeadRow, hrun, hslice, hfree, hhead, ne_eq, not_true_eq_false, decide_false, Bool.or_self,
    Bool.false_eq_true, if_false]

/-- The oldest of the retry entries that may use a free way takes it. -/
theorem Dev.retryOfferRow_oldest {set_ way : Nat} {w : Wait} (hfree : d.wayFree h set_ way = true)
    (hold : oldestWait (d.retryWaits h set_ way) = some w) :
    d.retryOfferRow h set_ way = (d.retryTake h set_ w).takeWay h set_ way w.m := by
  simp only [Dev.retryOfferRow, hrun, hfree, hold, Bool.not_true, Bool.or_self, Bool.false_eq_true, if_false]

/-! ## Timeouts and quench (R392, R395, R396) -/

/-- The line's home gives up a snoop copy. -/
theorem Dev.snoopTimeoutRow_home {line : Nat} (hslice : homeSlice (line / 2 ^ 46) (line % 2 ^ 46) = h) (agent : Nat) :
    d.snoopTimeoutRow h line agent = d.snoopExpire (line / 2 ^ 46) (line % 2 ^ 46) agent := by
  simp only [Dev.snoopTimeoutRow, hrun, hslice, ne_eq, not_true_eq_false, decide_false, Bool.or_self, Bool.false_eq_true,
    if_false]

/-- A quench notice that SIE[0] takes kills the agent it names; where it names none, or a dead one, its domain is quenched. -/
theorem Dev.quenchNoticeRow_taken {agent domain dev : Nat} {m : Msg}
    (hfirst : d.firstOf 0 (quenchHit agent domain dev) = some m) :
    d.quenchNoticeRow agent domain dev =
      if agent ≥ 512 || (d.setArrived 0 2 ((d.arrivedAt 0 2).erase m)).agentDead agent then
        (d.setArrived 0 2 ((d.arrivedAt 0 2).erase m)).quench domain none false
      else (d.setArrived 0 2 ((d.arrivedAt 0 2).erase m)).declareDead agent 3 dev domain := by
  simp only [Dev.quenchNoticeRow, hrun, hfirst, Bool.false_eq_true, if_false]

theorem Dev.quenchNoticeRow_noAgent {agent domain dev : Nat} {m : Msg}
    (hfirst : d.firstOf 0 (quenchHit agent domain dev) = some m) (hagent : 512 ≤ agent) :
    d.quenchNoticeRow agent domain dev = (d.setArrived 0 2 ((d.arrivedAt 0 2).erase m)).quench domain none false :=
  (Dev.quenchNoticeRow_taken hrun hfirst).trans (if_pos (by simp [hagent]))

theorem Dev.quenchNoticeRow_agent {agent domain dev : Nat} {m : Msg}
    (hfirst : d.firstOf 0 (quenchHit agent domain dev) = some m) (hagent : agent < 512)
    (hlive : (d.setArrived 0 2 ((d.arrivedAt 0 2).erase m)).agentDead agent = false) :
    d.quenchNoticeRow agent domain dev =
      (d.setArrived 0 2 ((d.arrivedAt 0 2).erase m)).declareDead agent 3 dev domain :=
  (Dev.quenchNoticeRow_taken hrun hfirst).trans (if_neg (by simp [Nat.not_le.2 hagent, hlive]))

/-- The scan ends for the domains whose invalidations are answered. -/
theorem Dev.quenchScanDoneRow_ready (hready : (d.quenchReady h).isEmpty = false) :
    d.quenchScanDoneRow h = d.quenchScanEnd h (d.quenchReady h) :=
  if_neg (by simp [hrun, hready])

/-! ## Remote snoops (R340) -/

/-- With no answer and no writeback to take, the home serves a snoop of another device's home from the REQ channel. -/
theorem Dev.remoteSnoopRow_fromReq {m : Msg} {d2 : Dev} {k : MOp} (hrsp : d.arrivedAt h 0 = []) (hwb : d.takeFrom h 1 = none)
    (hreq : d.takeFrom h 2 = some (m, d2)) (hsnoop : localSnoop m.body.op = some k) :
    d.remoteSnoopRow h = d2.remoteSnoop h m k := by
  simp only [Dev.remoteSnoopRow, hrun, hrsp, hwb, hreq, hsnoop, List.isEmpty_nil, Bool.not_true, Option.isSome_none,
    Bool.or_self, Bool.false_eq_true, if_false]

end

/-- Settles O26: each command runs its meaning, and the meaning's equation under the hypotheses gives the device. -/
theorem homeAnswerCommands : Obligations.HomeAnswerCommands := by
  refine ⟨?snoopAnswer, ?targetAnswer, ?lineHead, ?waitFree, ?retry, ?timeout, ?quenchDomain, ?quenchAgent, ?scanDone, ?peek,
    ?flushClean, ?remoteSnoop⟩
  case snoopAnswer => exact fun s h m d2 hwf hrun hfront hans => run_eq hwf (Dev.snoopAnswerRow_front hrun hfront hans)
  case targetAnswer =>
    exact fun s h m d2 hwf hrun hfront hans htgt => run_eq hwf (Dev.targetAnswerRow_front hrun hfront hans htgt)
  case lineHead =>
    exact fun s h line w hwf hrun hslice hfree hfirst => run_eq hwf (Dev.lineQueueHeadRow_free hrun hslice hfree hfirst)
  case waitFree => exact fun s h src hwf hroom => run_eq hwf (if_pos hroom)
  case retry => exact fun s h set_ way w hwf hrun hfree hold => run_eq hwf (Dev.retryOfferRow_oldest hrun hfree hold)
  case timeout => exact fun s h line agent hwf hrun hslice => run_eq hwf (Dev.snoopTimeoutRow_home hrun hslice agent)
  case quenchDomain =>
    exact fun s agent domain dev m hwf hrun hfirst hagent => run_eq hwf (Dev.quenchNoticeRow_noAgent hrun hfirst hagent)
  case quenchAgent =>
    intro s agent domain dev m hwf hrun hfirst hagent hlive
    exact run_eq hwf (Dev.quenchNoticeRow_agent hrun hfirst hagent hlive)
  case scanDone => exact fun s h hwf hrun hready => run_eq hwf (Dev.quenchScanDoneRow_ready hrun hready)
  case peek => exact fun s path h hwf hreach => run_access_eq hwf hreach rfl
  case flushClean =>
    exact fun s path h hwf hreach hrun => run_access_eq hwf hreach (if_neg (Bool.eq_false_iff.1 hrun))
  case remoteSnoop =>
    intro s h m d2 k hwf hrun hrsp hwb hreq hsnoop
    exact run_eq hwf (Dev.remoteSnoopRow_fromReq hrun hrsp hwb hreq hsnoop)

end Sys2Proof.Machine

namespace Sys2Proof.Machine

/-! # Ordering and acceptance (chapter 12, Fabric Ordering)

Equations of the rows of the acceptance index, of held requests, of the combining buffers and of DRAIN, one for each case that a
command's conditions pick. Which writes a DRAIN waits for is the model's choice: log entry 29. -/

section
variable {d : Dev} (hrun : d.halted = false)
include hrun

/-- Where the order slice has index space, it records an accept-early write that is neither recorded nor held by MOVE_LIVE
(R405, R487). -/
theorem Dev.acceptanceIndexRecordRow_recorded {id : Nat} {e : TrayEnt} (hent : d.trayEnt? id = some e)
    (hearly : e.row = 3 ∨ e.row = 4) (hnew : e.due = false) (hunheld : e.movelive = false)
    (hroom : d.indexUsed e.orderSlice < 4096) :
    d.acceptanceIndexRecordRow id = d.trayOrder id (portSlice e.port) := by
  have hrow : (e.row = 3 || e.row = 4) = true := by simpa using hearly
  simp only [Dev.acceptanceIndexRecordRow, hent, hrun, hrow, hnew, hunheld, hroom, Bool.not_true, Bool.or_self,
    Bool.false_eq_true, if_false, if_true]

section
variable {src : Nat} {m : Msg} {rest : List Msg} (hhead : d.relOf src = m :: rest)
include hhead

/-- A held head with no entry of its line in WAIT ahead of it, and no posted write it must follow, is tried again (R409, R410). -/
theorem Dev.trayHoldReleaseRow_ordered (hheld : d.core.held.contains src = true) (hline : d.lineWait m = false)
    (hposted : d.postedWait m = false) : d.trayHoldReleaseRow src = (d.tryHead src m rest).settleClaims .none := by
  simp only [Dev.trayHoldReleaseRow, hrun, hheld, hhead, hline, hposted, Bool.not_true, Bool.or_self, Bool.false_eq_true,
    if_false]

/-- A streaming write at the head is retried where the source is held, and presented where it is not (R416). -/
theorem Dev.streamingWriteRow_head (hstreams : d.headStreams src m = true) :
    d.streamingWriteRow src =
      (if d.core.held.contains src then d.tryHead src m rest else d.present src).settleClaims .none := by
  simp only [Dev.streamingWriteRow, hrun, hhead, hstreams, Bool.not_true, Bool.false_eq_true, if_false]

theorem Dev.streamingWriteRow_held (hstreams : d.headStreams src m = true) (hheld : d.core.held.contains src = true) :
    d.streamingWriteRow src = (d.tryHead src m rest).settleClaims .none := by
  rw [Dev.streamingWriteRow_head hrun hhead hstreams, if_pos hheld]

theorem Dev.streamingWriteRow_free (hstreams : d.headStreams src m = true) (hfree : d.core.held.contains src = false) :
    d.streamingWriteRow src = (d.present src).settleClaims .none := by
  rw [Dev.streamingWriteRow_head hrun hhead hstreams, if_neg (Bool.eq_false_iff.1 hfree)]

end

/-! ## DRAIN (R420) -/

section
variable {p fn : Nat} (hfn : d.fnExists p fn = true)
include hfn

theorem Dev.drainWriteRow_exists : d.drainWriteRow p fn = d.drainStart p :=
  if_neg (by simp [hrun, hfn])

/-- With no DRAIN write of the port open, a read answers the port's count at once. -/
theorem Dev.drainReadRow_idle (hnone : (d.coh.drains.filter (·.port = p)).getLast? = none) :
    d.drainReadRow p fn = d.emit (.fnRead (fnKey p fn) (d.get DRAIN_DONE (p * 128))) := by
  simp only [Dev.drainReadRow, hrun, hfn, hnone, Bool.not_true, Bool.or_self, Bool.false_eq_true, if_false]

/-- Otherwise the read waits with the port's last open DRAIN write. -/
theorem Dev.drainReadRow_open {x : Drain} (hlast : (d.coh.drains.filter (·.port = p)).getLast? = some x) :
    d.drainReadRow p fn =
      { d with coh := { d.coh with
          drains := d.coh.drains.map fun y => if y = x then { y with reads := y.reads ++ [fn] } else y } } := by
  simp only [Dev.drainReadRow, hrun, hfn, hlast, Bool.not_true, Bool.or_self, Bool.false_eq_true, if_false]

end

end

/-- The combining entry that waits for a line and an agent is flushed as its time is up (R418). -/
theorem Dev.cmbTimeoutRow_entry {d : Dev} {sl line agent : Nat} {c : CmbEnt}
    (hentry : d.coh.cmb.find? (fun c => portSlice c.port = sl && lineKey c.tk c.line = line && c.agent = reqOfCode agent)
      = some c) :
    d.cmbTimeoutRow sl line agent = (d.inc TRY_CMB_TMO sl).flushCmb c := by
  rw [Dev.cmbTimeoutRow, hentry]

/-- Settles O27: each command runs its meaning, and the meaning's equation under the hypotheses gives the device. -/
theorem orderCommands : Obligations.OrderCommands := by
  refine ⟨?record, ?holdRelease, ?streamHeld, ?streamFree, ?timeout, ?drainWrite, ?drainReadIdle, ?drainReadOpen⟩
  case record =>
    intro s id e hwf hent hrun hearly hnew hunheld hroom
    exact run_eq (row := "ACCEPTANCE_INDEX_RECORD") hwf (Dev.acceptanceIndexRecordRow_recorded hrun hent hearly hnew hunheld hroom)
  case holdRelease =>
    intro s src m rest hwf hrun hheld hhead hline hposted
    exact run_eq hwf (Dev.trayHoldReleaseRow_ordered hrun hhead hheld hline hposted)
  case streamHeld =>
    exact fun s src m rest hwf hrun hhead hstreams hheld => run_eq hwf (Dev.streamingWriteRow_held hrun hhead hstreams hheld)
  case streamFree =>
    exact fun s src m rest hwf hrun hhead hstreams hfree => run_eq hwf (Dev.streamingWriteRow_free hrun hhead hstreams hfree)
  case timeout => exact fun s sl line agent c hwf hentry => run_eq hwf (Dev.cmbTimeoutRow_entry hentry)
  case drainWrite => exact fun s p fn hwf hrun hfn => run_eq hwf (Dev.drainWriteRow_exists hrun hfn)
  case drainReadIdle => exact fun s p fn hwf hrun hfn hnone => run_eq hwf (Dev.drainReadRow_idle hrun hfn hnone)
  case drainReadOpen => exact fun s p fn x hwf hrun hfn hlast => run_eq hwf (Dev.drainReadRow_open hrun hfn hlast)

end Sys2Proof.Machine

namespace Sys2Proof.Machine

/-! # Every command and every step

What a command's outcome is, once for all of them, and what follows for every step: totality, faults, and the invariant
of the Larder's memory, the Crumb edges and the acknowledged supply (R632, R657). -/

/-! ## The outcome of a command -/

/-- Each command runs its row on its own operands' check, and the row keeps the invariant. -/
theorem exec_runs : ∀ (c : Instr) (s : State), ∃ row d, exec c s = run c.wf row s d ∧ (s.dev.Sound → d.Sound)
  | .registerWrite _ _ _ _, _ => ⟨"REGISTER_WRITE", _, rfl, Dev.registerWriteRow_sound⟩
  | .mgmtPfReset _, _ => ⟨"MGMT_PF_RESET", _, rfl, Dev.mgmtPfResetRow_sound⟩
  | .enableSet _ _, _ => ⟨"ENABLE_SET", _, rfl, Dev.enableSetRow_sound⟩
  | .enableClear _ _, _ => ⟨"ENABLE_CLEAR", _, rfl, Dev.enableClearRow_sound⟩
  | .brst _ _, _ => ⟨"BRST", _, rfl, Dev.brstRow_sound⟩
  | .blockResetDone _, _ => ⟨"BLOCK_RESET_DONE", _, rfl, Dev.blockResetDoneRow_sound⟩
  | .commit _ _, _ => ⟨"COMMIT", _, rfl, Dev.commitRow_sound⟩
  | .force _ _, _ => ⟨"FORCE", _, rfl, Dev.forceRow_sound⟩
  | .discard _ _, _ => ⟨"DISCARD", _, rfl, Dev.discardRow_sound⟩
  | .heldCommit _, _ => ⟨"HELD_COMMIT", _, rfl, Dev.heldCommitRow_sound⟩
  | .epochApplied _, _ => ⟨"EPOCH_APPLIED", _, rfl, Dev.epochAppliedRow_sound⟩
  | .pglockLocked _ _, _ => ⟨"PGLOCK_LOCKED", _, rfl, Dev.pglockLockedRow_sound⟩
  | .devCfgLock _, _ => ⟨"DEV_CFG_LOCK", _, rfl, Dev.devCfgLockRow_sound⟩
  | .tblRead _ _ _, _ => ⟨"TBL_READ", _, rfl, Dev.tblReadRow_sound⟩
  | .tblWrite _ _ _, _ => ⟨"TBL_WRITE", _, rfl, Dev.tblWriteRow_sound⟩
  | .tblClear _ _ _, _ => ⟨"TBL_CLEAR", _, rfl, Dev.tblClearRow_sound⟩
  | .tblBadOp _ _ _ _, _ => ⟨"TBL_BAD_OP", _, rfl, Dev.tblBadOpRow_sound⟩
  | .tblOpDone _ _, _ => ⟨"TBL_OP_DONE", _, rfl, Dev.tblOpDoneRow_sound⟩
  | .msixUnmask _, _ => ⟨"MSIX_UNMASK", _, rfl, Dev.msixUnmaskRow_sound⟩
  | .acquire _ _ _ _, _ => ⟨"ACQUIRE", _, rfl, Dev.acquireRow_sound⟩
  | .renew _ _ _ _, _ => ⟨"RENEW", _, rfl, Dev.renewRow_sound⟩
  | .release _ _ _, _ => ⟨"RELEASE", _, rfl, Dev.releaseRow_sound⟩
  | .breakLock _ _, _ => ⟨"BREAK", _, rfl, Dev.breakLockRow_sound⟩
  | .clrBroken _ _ _, _ => ⟨"CLR_BROKEN", _, rfl, Dev.clrBrokenRow_sound⟩
  | .leaseExpiry _, _ => ⟨"LEASE_EXPIRY", _, rfl, Dev.leaseExpiryRow_sound⟩
  | .mctpPathReset _, _ => ⟨"MCTP_PATH_RESET", _, rfl, Dev.mctpPathResetRow_sound⟩
  | .tapReset, _ => ⟨"TAP_RESET", _, rfl, Dev.tapResetRow_sound⟩
  | .devRstWarm _ _, _ => ⟨"DEV_RST_WARM", _, rfl, Dev.devRstWarmRow_sound⟩
  | .devRstControl _ _, _ => ⟨"DEV_RST_CONTROL", _, rfl, Dev.devRstControlRow_sound⟩
  | .devRstSlice _ _ _, _ => ⟨"DEV_RST_SLICE", _, rfl, Dev.devRstSliceRow_sound⟩
  | .devRstDomain _ _ _, _ => ⟨"DEV_RST_DOMAIN", _, rfl, Dev.devRstDomainRow_sound⟩
  | .devRstPort _ _ _, _ => ⟨"DEV_RST_PORT", _, rfl, Dev.devRstPortRow_sound⟩
  | .mboxGo _, _ => ⟨"MBOX_GO", _, rfl, Dev.mboxGoRow_sound⟩
  | .mboxDone _ _, _ => ⟨"MBOX_DONE", _, rfl, Dev.mboxDoneRow_sound⟩
  | .calDone _, _ => ⟨"CAL_DONE", _, rfl, Dev.calDoneRow_sound⟩
  | .calTimeout _, _ => ⟨"CAL_TIMEOUT", _, rfl, Dev.calTimeoutRow_sound⟩
  | .failedRetry _, _ => ⟨"FAILED_RETRY", _, rfl, Dev.failedRetryRow_sound⟩
  | .chipletPllLoss _, _ => ⟨"CHIPLET_PLL_LOSS", _, rfl, Dev.chipletPllLossRow_sound⟩
  | .pllRelock _, _ => ⟨"PLL_RELOCK", _, rfl, Dev.pllRelockRow_sound⟩
  | .elasticErr _ _, _ => ⟨"ELASTIC_ERR", _, rfl, Dev.elasticErrRow_sound⟩
  | .l0Entry _ _ _ _, _ => ⟨"L0_ENTRY", _, rfl, Dev.l0EntryRow_sound⟩
  | .eqFallback _, _ => ⟨"EQ_FALLBACK", _, rfl, Dev.eqFallbackRow_sound⟩
  | .recovery _, _ => ⟨"RECOVERY", _, rfl, Dev.recoveryRow_sound⟩
  | .laneLoss _ _, _ => ⟨"LANE_LOSS", _, rfl, Dev.laneLossRow_sound⟩
  | .healthWindow _ _, _ => ⟨"HEALTH_WINDOW", _, rfl, Dev.healthWindowRow_sound⟩
  | .trainingControlBlock _ _ _, _ => ⟨"TRAINING_CONTROL_BLOCK", _, rfl, Dev.trainingControlBlockRow_sound⟩
  | .laneLock _ _ _, _ => ⟨"LANE_LOCK", _, rfl, Dev.laneLockRow_sound⟩
  | .lockLost _ _ _, _ => ⟨"LOCK_LOST", _, rfl, Dev.lockLostRow_sound⟩
  | .drLockDone _, _ => ⟨"DR_LOCK_DONE", _, rfl, Dev.drLockDoneRow_sound⟩
  | .drLockTimeout _, _ => ⟨"DR_LOCK_TIMEOUT", _, rfl, Dev.drLockTimeoutRow_sound⟩
  | .drTrainDone _, _ => ⟨"DR_TRAIN_DONE", _, rfl, Dev.drTrainDoneRow_sound⟩
  | .drTrainTimeout _, _ => ⟨"DR_TRAIN_TIMEOUT", _, rfl, Dev.drTrainTimeoutRow_sound⟩
  | .drAlignDone _, _ => ⟨"DR_ALIGN_DONE", _, rfl, Dev.drAlignDoneRow_sound⟩
  | .drAlignTimeout _, _ => ⟨"DR_ALIGN_TIMEOUT", _, rfl, Dev.drAlignTimeoutRow_sound⟩
  | .drRetrainTimeout _, _ => ⟨"DR_RETRAIN_TIMEOUT", _, rfl, Dev.drRetrainTimeoutRow_sound⟩
  | .marginGo _ _, _ => ⟨"MARGIN_GO", _, rfl, Dev.marginGoRow_sound⟩
  | .marginStop _ _, _ => ⟨"MARGIN_STOP", _, rfl, Dev.marginStopRow_sound⟩
  | .partnerMargining _ _, _ => ⟨"PARTNER_MARGINING", _, rfl, Dev.partnerMarginingRow_sound⟩
  | .marginDwellEnd _ _, _ => ⟨"MARGIN_DWELL_END", _, rfl, Dev.marginDwellEndRow_sound⟩
  | .marginErrLimit _, _ => ⟨"MARGIN_ERR_LIMIT", _, rfl, Dev.marginErrLimitRow_sound⟩
  | .eqCacheWrite _ _ _ _, _ => ⟨"EQ_CACHE_WRITE", _, rfl, Dev.eqCacheWriteRow_sound⟩
  | .l1Entry _ _, _ => ⟨"L1_ENTRY", _, rfl, Dev.l1EntryRow_sound⟩
  | .protocolNegotiation _ _, _ => ⟨"PROTOCOL_NEGOTIATION", _, rfl, Dev.protocolNegotiationRow_sound⟩
  | .flitReceive _ _, _ => ⟨"FLIT_RECEIVE", _, rfl, Dev.flitReceiveRow_sound⟩
  | .egressStart _, _ => ⟨"EGRESS_START", _, rfl, Dev.egressStartRow_sound⟩
  | .ideKeySwitch _, _ => ⟨"IDE_KEY_SWITCH", _, rfl, Dev.ideKeySwitchRow_sound⟩
  | .gpfPhase _ _, _ => ⟨"GPF_PHASE", _, rfl, Dev.gpfPhaseRow_sound⟩
  | .gpfAnswer _, _ => ⟨"GPF_ANSWER", _, rfl, Dev.gpfAnswerRow_sound⟩
  | .gpfTimeout _, _ => ⟨"GPF_TIMEOUT", _, rfl, Dev.gpfTimeoutRow_sound⟩
  | .perstInAssert _, _ => ⟨"PERST_IN_ASSERT", _, rfl, Dev.perstInAssertRow_sound⟩
  | .perstInDeassert _, _ => ⟨"PERST_IN_DEASSERT", _, rfl, Dev.perstInDeassertRow_sound⟩
  | .perstOutDelay _, _ => ⟨"PERST_OUT_DELAY", _, rfl, Dev.perstOutDelayRow_sound⟩
  | .perstOutHold _, _ => ⟨"PERST_OUT_HOLD", _, rfl, Dev.perstOutHoldRow_sound⟩
  | .hotResetReceived _, _ => ⟨"HOT_RESET_RECEIVED", _, rfl, Dev.hotResetReceivedRow_sound⟩
  | .hotReset _ _, _ => ⟨"HOT_RESET", _, rfl, Dev.hotResetRow_sound⟩
  | .hotResetTimeout _, _ => ⟨"HOT_RESET_TIMEOUT", _, rfl, Dev.hotResetTimeoutRow_sound⟩
  | .retrain _ _, _ => ⟨"RETRAIN", _, rfl, Dev.retrainRow_sound⟩
  | .disable _ _, _ => ⟨"DISABLE", _, rfl, Dev.disableRow_sound⟩
  | .disableClear _ _, _ => ⟨"DISABLE_CLEAR", _, rfl, Dev.disableClearRow_sound⟩
  | .linkDown _, _ => ⟨"LINK_DOWN", _, rfl, Dev.linkDownRow_sound⟩
  | .cplTimeout _ _, _ => ⟨"CPL_TIMEOUT", _, rfl, Dev.cplTimeoutRow_sound⟩
  | .drlAttach _ _ _ _, _ => ⟨"DRL_ATTACH", _, rfl, Dev.drlAttachRow_sound⟩
  | .dunrunBlock _ _ _, _ => ⟨"DUNRUN_BLOCK", _, rfl, Dev.dunrunBlockRow_sound⟩
  | .messagePacket _, _ => ⟨"MESSAGE_PACKET", _, rfl, Dev.messagePacketRow_sound⟩
  | .ack _, _ => ⟨"ACK", _, rfl, Dev.ackRow_sound⟩
  | .nak _, _ => ⟨"NAK", _, rfl, Dev.nakRow_sound⟩
  | .credit _, _ => ⟨"CREDIT", _, rfl, Dev.creditRow_sound⟩
  | .init _, _ => ⟨"INIT", _, rfl, Dev.initRow_sound⟩
  | .initAck _, _ => ⟨"INIT_ACK", _, rfl, Dev.initAckRow_sound⟩
  | .spareReq _, _ => ⟨"SPARE_REQ", _, rfl, Dev.spareReqRow_sound⟩
  | .spareAck _, _ => ⟨"SPARE_ACK", _, rfl, Dev.spareAckRow_sound⟩
  | .spareDone _, _ => ⟨"SPARE_DONE", _, rfl, Dev.spareDoneRow_sound⟩
  | .spareNack _, _ => ⟨"SPARE_NACK", _, rfl, Dev.spareNackRow_sound⟩
  | .spareBlockSwitch _, _ => ⟨"SPARE_BLOCK_SWITCH", _, rfl, Dev.spareBlockSwitchRow_sound⟩
  | .spareReqRepeat _, _ => ⟨"SPARE_REQ_REPEAT", _, rfl, Dev.spareReqRepeatRow_sound⟩
  | .spareTimeout _, _ => ⟨"SPARE_TIMEOUT", _, rfl, Dev.spareTimeoutRow_sound⟩
  | .timeReq _, _ => ⟨"TIME_REQ", _, rfl, Dev.timeReqRow_sound⟩
  | .timeResp _, _ => ⟨"TIME_RESP", _, rfl, Dev.timeRespRow_sound⟩
  | .timeFollow _, _ => ⟨"TIME_FOLLOW", _, rfl, Dev.timeFollowRow_sound⟩
  | .crumb _, _ => ⟨"CRUMB", _, rfl, Dev.crumbRow_sound⟩
  | .routeWithdraw _, _ => ⟨"ROUTE_WITHDRAW", _, rfl, Dev.routeWithdrawRow_sound⟩
  | .routeRestore _, _ => ⟨"ROUTE_RESTORE", _, rfl, Dev.routeRestoreRow_sound⟩
  | .secMac _, _ => ⟨"SEC_MAC", _, rfl, Dev.secMacRow_sound⟩
  | .keySwitch _, _ => ⟨"KEY_SWITCH", _, rfl, Dev.keySwitchRow_sound⟩
  | .linkInit _, _ => ⟨"LINK_INIT", _, rfl, Dev.linkInitRow_sound⟩
  | .initResend _, _ => ⟨"INIT_RESEND", _, rfl, Dev.initResendRow_sound⟩
  | .nakResend _, _ => ⟨"NAK_RESEND", _, rfl, Dev.nakResendRow_sound⟩
  | .ackNsTimer _, _ => ⟨"ACK_NS_TIMER", _, rfl, Dev.ackNsTimerRow_sound⟩
  | .ackIdleTimer _, _ => ⟨"ACK_IDLE_TIMER", _, rfl, Dev.ackIdleTimerRow_sound⟩
  | .replayTimeout _, _ => ⟨"REPLAY_TIMEOUT", _, rfl, Dev.replayTimeoutRow_sound⟩
  | .liveTimeout _, _ => ⟨"LIVE_TIMEOUT", _, rfl, Dev.liveTimeoutRow_sound⟩
  | .messagePacketSend _, _ => ⟨"MESSAGE_PACKET_SEND", _, rfl, Dev.messagePacketSendRow_sound⟩
  | .creditTimer _, _ => ⟨"CREDIT_TIMER", _, rfl, Dev.creditTimerRow_sound⟩
  | .creditStall _ _, _ => ⟨"CREDIT_STALL", _, rfl, Dev.creditStallRow_sound⟩
  | .timeExchange _, _ => ⟨"TIME_EXCHANGE", _, rfl, Dev.timeExchangeRow_sound⟩
  | .cellPresent _, _ => ⟨"CELL_PRESENT", _, rfl, Dev.cellPresentRow_sound⟩
  | .heldAdmit _, _ => ⟨"HELD_ADMIT", _, rfl, Dev.heldAdmitRow_sound⟩
  | .tagFill _ _ _, _ => ⟨"TAG_FILL", _, rfl, Dev.tagFillRow_sound⟩
  | .egressSelect _, _ => ⟨"EGRESS_SELECT", _, rfl, Dev.egressSelectRow_sound⟩
  | .bankDecision _ _ _, _ => ⟨"BANK_DECISION", _, rfl, Dev.bankDecisionRow_sound⟩
  | .stallTimeout _ _, _ => ⟨"STALL_TIMEOUT", _, rfl, Dev.stallTimeoutRow_sound⟩
  | .retire _ _ _, _ => ⟨"RETIRE", _, rfl, Dev.retireRow_sound⟩
  | .retirementDone _, _ => ⟨"RETIREMENT_DONE", _, rfl, Dev.retirementDoneRow_sound⟩
  | .shaperRefill _, _ => ⟨"SHAPER_REFILL", _, rfl, Dev.shaperRefillRow_sound⟩
  | .egsSample _, _ => ⟨"EGS_SAMPLE", _, rfl, Dev.egsSampleRow_sound⟩
  | .gateEdge _, _ => ⟨"GATE_EDGE", _, rfl, Dev.gateEdgeRow_sound⟩
  | .configurationRequest _ _ _ _ _ _, _ => ⟨"CONFIGURATION_REQUEST", _, rfl, Dev.configurationRequestRow_sound⟩
  | .mldLdLost _ _, _ => ⟨"MLD_LD_LOST", _, rfl, Dev.mldLdLostRow_sound⟩
  | .removalNotice _ _ _, _ => ⟨"REMOVAL_NOTICE", _, rfl, Dev.removalNoticeRow_sound⟩
  | .vppbPowerControl _ _ _, _ => ⟨"VPPB_POWER_CONTROL", _, rfl, Dev.vppbPowerControlRow_sound⟩
  | .getVirtualCxlSwitchInfo _ _ _ _, _ => ⟨"GET_VIRTUAL_CXL_SWITCH_INFO", _, rfl, Dev.getVirtualCxlSwitchInfoRow_sound⟩
  | .bindVppb _ _ _ _ _, _ => ⟨"BIND_VPPB", _, rfl, Dev.bindVppbRow_sound⟩
  | .unbindVppb _ _ _ _, _ => ⟨"UNBIND_VPPB", _, rfl, Dev.unbindVppbRow_sound⟩
  | .generateAerEvent _ _ _ _, _ => ⟨"GENERATE_AER_EVENT", _, rfl, Dev.generateAerEventRow_sound⟩
  | .identifySwitchDevice _, _ => ⟨"IDENTIFY_SWITCH_DEVICE", _, rfl, Dev.identifySwitchDeviceRow_sound⟩
  | .getPhysicalPortState _ _, _ => ⟨"GET_PHYSICAL_PORT_STATE", _, rfl, Dev.getPhysicalPortStateRow_sound⟩
  | .physicalPortControl _ _ _, _ => ⟨"PHYSICAL_PORT_CONTROL", _, rfl, Dev.physicalPortControlRow_sound⟩
  | .sendLdCxlIoConfigRequest _ _ _ _ _ _, _ => ⟨"SEND_LD_CXL_IO_CONFIG_REQUEST", _, rfl, Dev.sendLdCxlIoConfigRequestRow_sound⟩
  | .tunnelManagementCommand _ _ _, _ => ⟨"TUNNEL_MANAGEMENT_COMMAND", _, rfl, Dev.tunnelManagementCommandRow_sound⟩
  | .rdS _, _ => ⟨"RD_S", _, rfl, Dev.rdSRow_sound⟩
  | .rdO _, _ => ⟨"RD_O", _, rfl, Dev.rdORow_sound⟩
  | .ownNd _, _ => ⟨"OWN_ND", _, rfl, Dev.ownNdRow_sound⟩
  | .rdC _, _ => ⟨"RD_C", _, rfl, Dev.rdCRow_sound⟩
  | .wr _, _ => ⟨"WR", _, rfl, Dev.wrRow_sound⟩
  | .atom _, _ => ⟨"ATOM", _, rfl, Dev.atomRow_sound⟩
  | .wbI _, _ => ⟨"WB_I", _, rfl, Dev.wbIRow_sound⟩
  | .wbS _, _ => ⟨"WB_S", _, rfl, Dev.wbSRow_sound⟩
  | .cln _, _ => ⟨"CLN", _, rfl, Dev.clnRow_sound⟩
  | .bisI _, _ => ⟨"BIS_I", _, rfl, Dev.bisIRow_sound⟩
  | .bisS _, _ => ⟨"BIS_S", _, rfl, Dev.bisSRow_sound⟩
  | .bisC _, _ => ⟨"BIS_C", _, rfl, Dev.bisCRow_sound⟩
  | .snoopAnswer _, _ => ⟨"SNOOP_ANSWER", _, rfl, Dev.snoopAnswerRow_sound⟩
  | .targetAnswer _, _ => ⟨"TARGET_ANSWER", _, rfl, Dev.targetAnswerRow_sound⟩
  | .lineQueueHead _ _, _ => ⟨"LINE_QUEUE_HEAD", _, rfl, Dev.lineQueueHeadRow_sound⟩
  | .waitBufferEntryFree _ _, _ => ⟨"WAIT_BUFFER_ENTRY_FREE", _, rfl, Dev.waitBufferEntryFreeRow_sound⟩
  | .retryOffer _ _ _, _ => ⟨"RETRY_OFFER", _, rfl, Dev.retryOfferRow_sound⟩
  | .snoopTimeout _ _ _, _ => ⟨"SNOOP_TIMEOUT", _, rfl, Dev.snoopTimeoutRow_sound⟩
  | .quenchNotice _ _ _, _ => ⟨"QUENCH_NOTICE", _, rfl, Dev.quenchNoticeRow_sound⟩
  | .quenchScanDone _, _ => ⟨"QUENCH_SCAN_DONE", _, rfl, Dev.quenchScanDoneRow_sound⟩
  | .dirPeek _ _, _ => ⟨"DIR_PEEK", _, rfl, Dev.dirPeekRow_sound⟩
  | .sccFlushClean _ _, _ => ⟨"SCC_FLUSH_CLEAN", _, rfl, Dev.sccFlushCleanRow_sound⟩
  | .acceptanceIndexRecord _, _ => ⟨"ACCEPTANCE_INDEX_RECORD", _, rfl, Dev.acceptanceIndexRecordRow_sound⟩
  | .trayHoldRelease _, _ => ⟨"TRAY_HOLD_RELEASE", _, rfl, Dev.trayHoldReleaseRow_sound⟩
  | .streamingWrite _, _ => ⟨"STREAMING_WRITE", _, rfl, Dev.streamingWriteRow_sound⟩
  | .cmbTimeout _ _ _, _ => ⟨"CMB_TIMEOUT", _, rfl, Dev.cmbTimeoutRow_sound⟩
  | .drainWrite _ _, _ => ⟨"DRAIN_WRITE", _, rfl, Dev.drainWriteRow_sound⟩
  | .drainRead _ _, _ => ⟨"DRAIN_READ", _, rfl, Dev.drainReadRow_sound⟩
  | .larderRead _, _ => ⟨"LARDER_READ", _, rfl, Dev.larderReadRow_sound⟩
  | .larderWrite _, _ => ⟨"LARDER_WRITE", _, rfl, Dev.larderWriteRow_sound⟩
  | .scrubRead _, _ => ⟨"SCRUB_READ", _, rfl, Dev.scrubReadRow_sound⟩
  | .pprSoft _ _, _ => ⟨"PPR_SOFT", _, rfl, Dev.pprSoftRow_sound⟩
  | .pprHard _ _, _ => ⟨"PPR_HARD", _, rfl, Dev.pprHardRow_sound⟩
  | .pprDone _ _, _ => ⟨"PPR_DONE", _, rfl, Dev.pprDoneRow_sound⟩
  | .dimmThermalRead _ _, _ => ⟨"DIMM_THERMAL_READ", _, rfl, Dev.dimmThermalReadRow_sound⟩
  | .larderTrainDone _, _ => ⟨"LARDER_TRAIN_DONE", _, rfl, Dev.larderTrainDoneRow_sound⟩
  | .chanFail _ _, _ => ⟨"CHAN_FAIL", _, rfl, Dev.chanFailRow_sound⟩
  | .ioDieFault _, _ => ⟨"IO_DIE_FAULT", _, rfl, Dev.ioDieFaultRow_sound⟩
  | .vfEnable _ _, _ => ⟨"VF_ENABLE", _, rfl, Dev.vfEnableRow_sound⟩
  | .vfDisable _, _ => ⟨"VF_DISABLE", _, rfl, Dev.vfDisableRow_sound⟩
  | .functionFlr _ _, _ => ⟨"FUNCTION_FLR", _, rfl, Dev.functionFlrRow_sound⟩
  | .qcmdRead _ _, _ => ⟨"QCMD_READ", _, rfl, Dev.qcmdReadRow_sound⟩
  | .qcmdWrite _ _, _ => ⟨"QCMD_WRITE", _, rfl, Dev.qcmdWriteRow_sound⟩
  | .qcmdEnable _ _, _ => ⟨"QCMD_ENABLE", _, rfl, Dev.qcmdEnableRow_sound⟩
  | .qcmdDisable _ _, _ => ⟨"QCMD_DISABLE", _, rfl, Dev.qcmdDisableRow_sound⟩
  | .qcmdReset _ _, _ => ⟨"QCMD_RESET", _, rfl, Dev.qcmdResetRow_sound⟩
  | .heldReset _, _ => ⟨"HELD_RESET", _, rfl, Dev.heldResetRow_sound⟩
  | .disablingDone _, _ => ⟨"DISABLING_DONE", _, rfl, Dev.disablingDoneRow_sound⟩
  | .doorbell _ _ _ _ _, _ => ⟨"DOORBELL", _, rfl, Dev.doorbellRow_sound⟩
  | .contextFetch _, _ => ⟨"CONTEXT_FETCH", _, rfl, Dev.contextFetchRow_sound⟩
  | .descriptorFetch _ _ _, _ => ⟨"DESCRIPTOR_FETCH", _, rfl, Dev.descriptorFetchRow_sound⟩
  | .nop _, _ => ⟨"NOP", _, rfl, Dev.nopRow_sound⟩
  | .copy _, _ => ⟨"COPY", _, rfl, Dev.copyRow_sound⟩
  | .fill _, _ => ⟨"FILL", _, rfl, Dev.fillRow_sound⟩
  | .compare _, _ => ⟨"COMPARE", _, rfl, Dev.compareRow_sound⟩
  | .crc _, _ => ⟨"CRC", _, rfl, Dev.crcRow_sound⟩
  | .atomic8 _, _ => ⟨"ATOMIC8", _, rfl, Dev.atomic8Row_sound⟩
  | .atomic16 _, _ => ⟨"ATOMIC16", _, rfl, Dev.atomic16Row_sound⟩
  | .moveLive _, _ => ⟨"MOVE_LIVE", _, rfl, Dev.moveLiveRow_sound⟩
  | .barrierLd _, _ => ⟨"BARRIER_LD", _, rfl, Dev.barrierLdRow_sound⟩
  | .barrierSt _, _ => ⟨"BARRIER_ST", _, rfl, Dev.barrierStRow_sound⟩
  | .barrierFull _, _ => ⟨"BARRIER_FULL", _, rfl, Dev.barrierFullRow_sound⟩
  | .interrupt _, _ => ⟨"INTERRUPT", _, rfl, Dev.interruptRow_sound⟩
  | .barrierComplete _, _ => ⟨"BARRIER_COMPLETE", _, rfl, Dev.barrierCompleteRow_sound⟩
  | .completionRecord _ _, _ => ⟨"COMPLETION_RECORD", _, rfl, Dev.completionRecordRow_sound⟩
  | .shareEntryEnd _, _ => ⟨"SHARE_ENTRY_END", _, rfl, Dev.shareEntryEndRow_sound⟩
  | .moveLiveCopyDone _, _ => ⟨"MOVE_LIVE_COPY_DONE", _, rfl, Dev.moveLiveCopyDoneRow_sound⟩
  | .moveLiveRecopyDone _, _ => ⟨"MOVE_LIVE_RECOPY_DONE", _, rfl, Dev.moveLiveRecopyDoneRow_sound⟩
  | .moveLiveHoldReady _, _ => ⟨"MOVE_LIVE_HOLD_READY", _, rfl, Dev.moveLiveHoldReadyRow_sound⟩
  | .moveLiveHoldTimeout _, _ => ⟨"MOVE_LIVE_HOLD_TIMEOUT", _, rfl, Dev.moveLiveHoldTimeoutRow_sound⟩
  | .prsntAssert _, _ => ⟨"PRSNT_ASSERT", _, rfl, Dev.prsntAssertRow_sound⟩
  | .prsntDeassert _, _ => ⟨"PRSNT_DEASSERT", _, rfl, Dev.prsntDeassertRow_sound⟩
  | .vinWindow _ _, _ => ⟨"VIN_WINDOW", _, rfl, Dev.vinWindowRow_sound⟩
  | .insertionTimer _, _ => ⟨"INSERTION_TIMER", _, rfl, Dev.insertionTimerRow_sound⟩
  | .rampEntry _, _ => ⟨"RAMP_ENTRY", _, rfl, Dev.rampEntryRow_sound⟩
  | .rampDone _ _ _, _ => ⟨"RAMP_DONE", _, rfl, Dev.rampDoneRow_sound⟩
  | .rampTimeout _, _ => ⟨"RAMP_TIMEOUT", _, rfl, Dev.rampTimeoutRow_sound⟩
  | .fastTrip _ _, _ => ⟨"FAST_TRIP", _, rfl, Dev.fastTripRow_sound⟩
  | .ovTrip _ _, _ => ⟨"OV", _, rfl, Dev.ovTripRow_sound⟩
  | .ocTrip _, _ => ⟨"OC", _, rfl, Dev.ocTripRow_sound⟩
  | .vinLow _ _, _ => ⟨"VIN_LOW", _, rfl, Dev.vinLowRow_sound⟩
  | .coolDone _, _ => ⟨"COOL_DONE", _, rfl, Dev.coolDoneRow_sound⟩
  | .fetFail _ _, _ => ⟨"FET_FAIL", _, rfl, Dev.fetFailRow_sound⟩
  | .retryCountReset _, _ => ⟨"RETRY_COUNT_RESET", _, rfl, Dev.retryCountResetRow_sound⟩
  | .spuOn _ _, _ => ⟨"SPU_ON", _, rfl, Dev.spuOnRow_sound⟩
  | .spuOff _ _, _ => ⟨"SPU_OFF", _, rfl, Dev.spuOffRow_sound⟩
  | .clearFet _ _ _, _ => ⟨"CLEAR_FET", _, rfl, Dev.clearFetRow_sound⟩
  | .measure _, _ => ⟨"MEASURE", _, rfl, Dev.measureRow_sound⟩
  | .measurePeriodic, _ => ⟨"MEASURE_PERIODIC", _, rfl, Dev.measurePeriodicRow_sound⟩
  | .measureHoldReady, _ => ⟨"MEASURE_HOLD_READY", _, rfl, Dev.measureHoldReadyRow_sound⟩
  | .measureLoadEnd _ _, _ => ⟨"MEASURE_LOAD_END", _, rfl, Dev.measureLoadEndRow_sound⟩
  | .measureDone _, _ => ⟨"MEASURE_DONE", _, rfl, Dev.measureDoneRow_sound⟩
  | .dmaxRecompute _, _ => ⟨"DMAX_RECOMPUTE", _, rfl, Dev.dmaxRecomputeRow_sound⟩
  | .creditBlockRequest _ _, _ => ⟨"CREDIT_BLOCK_REQUEST", _, rfl, Dev.creditBlockRequestRow_sound⟩
  | .pwrfail, _ => ⟨"PWRFAIL", _, rfl, Dev.pwrfailRow_sound⟩
  | .lowBank _, _ => ⟨"LOW_BANK", _, rfl, Dev.lowBankRow_sound⟩
  | .flushWritesDone, _ => ⟨"FLUSH_WRITES_DONE", _, rfl, Dev.flushWritesDoneRow_sound⟩
  | .flushPhase1Done, _ => ⟨"FLUSH_PHASE1_DONE", _, rfl, Dev.flushPhase1DoneRow_sound⟩
  | .flushPhase2Done, _ => ⟨"FLUSH_PHASE2_DONE", _, rfl, Dev.flushPhase2DoneRow_sound⟩
  | .flushGpfTimeout, _ => ⟨"FLUSH_GPF_TIMEOUT", _, rfl, Dev.flushGpfTimeoutRow_sound⟩
  | .fuseLoad _ _ _ _, _ => ⟨"FUSE_LOAD", _, rfl, Dev.fuseLoadRow_sound⟩
  | .bootVerify _ _, _ => ⟨"BOOT_VERIFY", _, rfl, Dev.bootVerifyRow_sound⟩
  | .bootBundle _, _ => ⟨"BOOT_BUNDLE", _, rfl, Dev.bootBundleRow_sound⟩
  | .fwRestart _, _ => ⟨"FW_RESTART", _, rfl, Dev.fwRestartRow_sound⟩
  | .trngFail, _ => ⟨"TRNG_FAIL", _, rfl, Dev.trngFailRow_sound⟩
  | .advanceArc _ _, _ => ⟨"ADVANCE_ARC", _, rfl, Dev.advanceArcRow_sound⟩
  | .dbgChallenge _, _ => ⟨"DBG_CHALLENGE", _, rfl, Dev.dbgChallengeRow_sound⟩
  | .dbgUnlock _, _ => ⟨"DBG_UNLOCK", _, rfl, Dev.dbgUnlockRow_sound⟩
  | .bundleApply _, _ => ⟨"BUNDLE_APPLY", _, rfl, Dev.bundleApplyRow_sound⟩
  | .rcvWrite _ _, _ => ⟨"RCV_WRITE", _, rfl, Dev.rcvWriteRow_sound⟩
  | .rcvBoot _ _ _, _ => ⟨"RCV_BOOT", _, rfl, Dev.rcvBootRow_sound⟩
  | .relayIn _ _, _ => ⟨"RELAY_IN", _, rfl, Dev.relayInRow_sound⟩
  | .relayOutRelease _, _ => ⟨"RELAY_OUT_RELEASE", _, rfl, Dev.relayOutReleaseRow_sound⟩
  | .anchorSet _ _, _ => ⟨"ANCHOR_SET", _, rfl, Dev.anchorSetRow_sound⟩
  | .drlRekey _ _, _ => ⟨"DRL_REKEY", _, rfl, Dev.drlRekeyRow_sound⟩
  | .spdmRequest _ _, _ => ⟨"SPDM_REQUEST", _, rfl, Dev.spdmRequestRow_sound⟩
  | .ideKm _ _, _ => ⟨"IDE_KM", _, rfl, Dev.ideKmRow_sound⟩
  | .dunrunKeyExchange _, _ => ⟨"DUNRUN_KEY_EXCHANGE", _, rfl, Dev.dunrunKeyExchangeRow_sound⟩
  | .keyExchangeTimeout _, _ => ⟨"KEY_EXCHANGE_TIMEOUT", _, rfl, Dev.keyExchangeTimeoutRow_sound⟩
  | .keyExchangeRestart _, _ => ⟨"KEY_EXCHANGE_RESTART", _, rfl, Dev.keyExchangeRestartRow_sound⟩
  | .keyUsageLimit _, _ => ⟨"KEY_USAGE_LIMIT", _, rfl, Dev.keyUsageLimitRow_sound⟩
  | .meas7Compute, _ => ⟨"MEAS7_COMPUTE", _, rfl, Dev.meas7ComputeRow_sound⟩
  | .pwrGoodRise, _ => ⟨"PWR_GOOD_RISE", _, rfl, Dev.pwrGoodRiseRow_sound⟩
  | .pwrGoodFall, _ => ⟨"PWR_GOOD_FALL", _, rfl, Dev.pwrGoodFallRow_sound⟩
  | .coldRstN, _ => ⟨"COLD_RST_N", _, rfl, Dev.coldRstNRow_sound⟩
  | .warmRstN, _ => ⟨"WARM_RST_N", _, rfl, Dev.warmRstNRow_sound⟩
  | .resetEntry, _ => ⟨"RESET_ENTRY", _, rfl, Dev.resetEntryRow_sound⟩
  | .quiesceTimeout, _ => ⟨"QUIESCE_TIMEOUT", _, rfl, Dev.quiesceTimeoutRow_sound⟩
  | .portResetRecallDone _, _ => ⟨"PORT_RESET_RECALL_DONE", _, rfl, Dev.portResetRecallDoneRow_sound⟩
  | .fabricReadyRise, _ => ⟨"FABRIC_READY_RISE", _, rfl, Dev.fabricReadyRiseRow_sound⟩
  | .clockLoss _, _ => ⟨"CLOCK_LOSS", _, rfl, Dev.clockLossRow_sound⟩
  | .inputDebounce _ _, _ => ⟨"INPUT_DEBOUNCE", _, rfl, Dev.inputDebounceRow_sound⟩
  | .chatter _ _, _ => ⟨"CHATTER", _, rfl, Dev.chatterRow_sound⟩
  | .fltStatusClear _ _ _, _ => ⟨"FLT_STATUS_CLEAR", _, rfl, Dev.fltStatusClearRow_sound⟩
  | .fltInject _ _ _, _ => ⟨"FLT_INJECT", _, rfl, Dev.fltInjectRow_sound⟩
  | .fltCountClr _ _, _ => ⟨"FLT_COUNT_CLR", _, rfl, Dev.fltCountClrRow_sound⟩
  | .fwStall, _ => ⟨"FW_STALL", _, rfl, Dev.fwStallRow_sound⟩
  | .epochWait, _ => ⟨"EPOCH_WAIT", _, rfl, Dev.epochWaitRow_sound⟩
  | .tmbSet _ _, _ => ⟨"TMB_SET", _, rfl, Dev.tmbSetRow_sound⟩
  | .ptmTimer, _ => ⟨"PTM_TIMER", _, rfl, Dev.ptmTimerRow_sound⟩
  | .ptmRequest _, _ => ⟨"PTM_REQUEST", _, rfl, Dev.ptmRequestRow_sound⟩
  | .ptmResponse _ _ _, _ => ⟨"PTM_RESPONSE", _, rfl, Dev.ptmResponseRow_sound⟩
  | .fire _, _ => ⟨"FIRE", _, rfl, Dev.fireRow_sound⟩
  | .clrall _, _ => ⟨"CLRALL", _, rfl, Dev.clrallRow_sound⟩
  | .crumbTimeMatch, _ => ⟨"CRUMB_TIME_MATCH", _, rfl, Dev.crumbTimeMatchRow_sound⟩
  | .crumbLatch, _ => ⟨"CRUMB_LATCH", _, rfl, Dev.crumbLatchRow_sound⟩
  | .cntSelWrite _ _ _ _, _ => ⟨"CNT_SEL_WRITE", _, rfl, Dev.cntSelWriteRow_sound⟩
  | .cntClr _ _ _, _ => ⟨"CNT_CLR", _, rfl, Dev.cntClrRow_sound⟩
  | .cclSweep, _ => ⟨"CCL_SWEEP", _, rfl, Dev.cclSweepRow_sound⟩
  | .cclSweepDone _, _ => ⟨"CCL_SWEEP_DONE", _, rfl, Dev.cclSweepDoneRow_sound⟩
  | .telemetryRecord _ _ _ _ _, _ => ⟨"TELEMETRY_RECORD", _, rfl, Dev.telemetryRecordRow_sound⟩
  | .tlmPop _, _ => ⟨"TLM_POP", _, rfl, Dev.tlmPopRow_sound⟩
  | .tlmRhead _ _, _ => ⟨"TLM_RHEAD", _, rfl, Dev.tlmRheadRow_sound⟩
  | .tlmRingEnable _, _ => ⟨"TLM_RING_ENABLE", _, rfl, Dev.tlmRingEnableRow_sound⟩
  | .avsUpdate _ _, _ => ⟨"AVS_UPDATE", _, rfl, Dev.avsUpdateRow_sound⟩
  | .junctionSensorRead _, _ => ⟨"JUNCTION_SENSOR_READ", _, rfl, Dev.junctionSensorReadRow_sound⟩
  | .refusedRead _ _ _, _ => ⟨"REFUSED_READ", _, rfl, Dev.refusedReadRow_sound⟩
  | .vddAuxLoss, _ => ⟨"VDD_AUX_LOSS", _, rfl, Dev.vddAuxLossRow_sound⟩
  | .vddAuxRise, _ => ⟨"VDD_AUX_RISE", _, rfl, Dev.vddAuxRiseRow_sound⟩
  | .coldRstNRelease, _ => ⟨"COLD_RST_N_RELEASE", _, rfl, Dev.coldRstNReleaseRow_sound⟩
  | .managementComplexCrash, _ => ⟨"MANAGEMENT_COMPLEX_CRASH", _, rfl, Dev.managementComplexCrashRow_sound⟩
  | .measureSettled _, _ => ⟨"MEASURE_SETTLED", _, rfl, Dev.measureSettledRow_sound⟩
  | .drRetrainDone _, _ => ⟨"DR_RETRAIN_DONE", _, rfl, Dev.drRetrainDoneRow_sound⟩
  | .remoteSnoop _, _ => ⟨"REMOTE_SNOOP", _, rfl, Dev.remoteSnoopRow_sound⟩

theorem run_next {ok : Bool} {row : String} {s t : State} {d : Dev} (h : run ok row s d = .next t) : t = s.after d := by
  unfold run at h
  split at h
  · exact (Host.Outcome.next.inj h).symm
  · cases h

/-- A meaning that answers a next state keeps the invariant where its device does. -/
theorem run_sound {ok : Bool} {row : String} {s t : State} {d : Dev} (hd : s.dev.Sound → d.Sound) (hs : s.dev.Sound)
    (h : run ok row s d = .next t) : t.dev.Sound := by
  rw [run_next h, State.after_dev]
  exact Dev.cycleEnd_sound (hd hs)

/-- Settles O6: the command's row gives a device, and the queue stands. -/
theorem wellFormedCommandsComplete : Obligations.WellFormedCommandsComplete := by
  intro c s hwf
  obtain ⟨row, d, hrun, -⟩ := exec_runs c s
  exact ⟨s.after d, hrun.trans (run_of_ok row s d hwf), State.after_pending s d⟩

/-- Settles O7: the operands' check is the one `run` answers the fault on (log entry 15). -/
theorem illFormedCommandsFault : Obligations.IllFormedCommandsFault := by
  intro c s hwf
  obtain ⟨row, d, hrun, -⟩ := exec_runs c s
  exact ⟨row, hrun.trans (if_neg (Bool.eq_false_iff.1 hwf))⟩

/-! ## The step -/

/-- Settles O1: a step takes the front of the queue. -/
theorem stepRunsFrontCommand : Obligations.StepRunsFrontCommand := fun _ _ _ => rfl

/-- Settles O5: the opcode table spells no command (log entry 2). -/
theorem noWordSpellsACommand : Obligations.NoWordSpellsACommand := fun _ _ => ⟨rfl, fun _ => rfl⟩

/-- Settles O9: an idle step is a cycle, and any other runs the row of the command in front; each keeps the invariant. -/
theorem stepKeepsSound : Obligations.StepKeepsSound := by
  intro s t hs hstep
  unfold step at hstep
  split at hstep
  next => -- no command waits
    rw [← Host.Outcome.next.inj hstep]
    exact Dev.cycle_sound hs
  next c rest _ =>
    obtain ⟨row, d, hrun, hd⟩ := exec_runs c { s with pending := rest }
    exact run_sound hd hs (hrun.symm.trans hstep)

/-! ## The state after reset -/

/-- Settles O8: the Larder's memory and the Crumb edges are empty, and the supply is at its first target. -/
theorem soundAtReset : Obligations.SoundAtReset := by
  refine ⟨rfl, Nat.zero_le 4, ?_⟩
  decide

/-- Settles O4: every map of the state is empty, so each read answers the reset word. -/
theorem resetState : Obligations.ResetState :=
  ⟨rfl, fun _ _ _ => rfl, fun _ _ _ => rfl, fun _ _ _ _ => rfl, fun _ => rfl, rfl, rfl, rfl, rfl⟩

end Sys2Proof.Machine

namespace Sys2Proof.Machine

/-! # Counters and the idle cycle (chapter 20, Observability)

What counting moves of the device (R636), and one TIMECLK cycle (R624, log entry 6). -/

/-! ## Counters (R636) -/

/-- The device with the registers, free values and remembered counter levels of another. -/
def Dev.countsOf (e d : Dev) : Dev := { e with regs := d.regs, free := d.free, obs := { e.obs with levels := d.obs.levels } }

/-- Nothing of the device moved but registers, free values and the levels that the edge counters remember. -/
def Dev.CountsOnly (d e : Dev) : Prop := e.countsOf d = d

namespace Dev.CountsOnly

theorem refl (d : Dev) : Dev.CountsOnly d d := rfl

theorem trans {d e f : Dev} (hde : Dev.CountsOnly d e) (hef : Dev.CountsOnly e f) : Dev.CountsOnly d f :=
  calc f.countsOf d = (f.countsOf e).countsOf d := rfl
    _ = e.countsOf d := congrArg (·.countsOf d) hef
    _ = d := hde

theorem foldl {α : Type} {f : Dev → α → Dev} (hf : ∀ e x, Dev.CountsOnly e (f e x)) (l : List α) (d : Dev) :
    Dev.CountsOnly d (l.foldl f d) := by
  induction l generalizing d with
  | nil => exact refl d
  | cons x l ih => exact (hf d x).trans (ih (f d x))

theorem cntAdd (d : Dev) (b : Blk) (i c n : Nat) : Dev.CountsOnly d (d.cntAdd b i c n) := by
  unfold Dev.cntAdd
  dsimp only
  split <;> rfl

theorem count (d : Dev) (b : Blk) (i ev n : Nat) : Dev.CountsOnly d (d.count b i ev n) :=
  foldl (fun e c => by
    dsimp only
    split
    · exact cntAdd e b i c n
    · exact refl e) _ d

theorem cyclesNow (d : Dev) (b : Blk) : Dev.CountsOnly d (d.cyclesNow b).2 := by
  unfold Dev.cyclesNow
  split <;> rfl

theorem refreshTick (d : Dev) : Dev.CountsOnly d d.refreshTick :=
  foldl (fun e c => by
    dsimp only
    generalize (if e.on LDR_CHSTAT_TREF2X c = true then 17160 else 34320) = t
    split
    · exact count e .ldr c 0x202 1
    · exact refl e) _ d

theorem tickCounters (d : Dev) : Dev.CountsOnly d d.tickCounters := by
  unfold Dev.tickCounters
  refine trans (foldl (fun e x => ?_) _ d) rfl
  dsimp only
  split
  · split
    · split
      · exact refl e
      · exact cntAdd e _ _ _ _
    · exact (cyclesNow e _).trans (cntAdd _ _ _ _ _)
  · exact refl e

section
variable {d e : Dev} (h : Dev.CountsOnly d e)
include h

theorem clk : e.obs.clk = d.obs.clk := show (e.countsOf d).obs.clk = d.obs.clk from congrArg (·.obs.clk) h
theorem ldr : e.ldr = d.ldr := show (e.countsOf d).ldr = d.ldr from congrArg Dev.ldr h
theorem tabs : e.tabs = d.tabs := show (e.countsOf d).tabs = d.tabs from congrArg Dev.tabs h
theorem core : e.core = d.core := show (e.countsOf d).core = d.core from congrArg Dev.core h
theorem coh : e.coh = d.coh := show (e.countsOf d).coh = d.coh from congrArg Dev.coh h
end

end Dev.CountsOnly

section
variable (d : Dev) (b : Blk) (i c n : Nat)

/-- Below the top a count is its sum. -/
theorem Dev.cntAdd_below (h : d.get (CNT_COUNT b) i c + n < 2 ^ 48 - 1) :
    d.cntAdd b i c n = d.put (CNT_COUNT b) i (d.get (CNT_COUNT b) i c + n) c := if_neg (Nat.not_le.2 h)

/-- At the top it stands, and SAT sets. -/
theorem Dev.cntAdd_top (h : 2 ^ 48 - 1 ≤ d.get (CNT_COUNT b) i c + n) :
    d.cntAdd b i c n = (d.put (CNT_COUNT b) i (2 ^ 48 - 1) c).put (CNT_SAT b) i 1 c := if_pos h

theorem Dev.get_put_count (v : Nat) : (d.put (CNT_COUNT b) i v c).get (CNT_COUNT b) i c = v % 2 ^ 48 :=
  Dev.get_put_self d (CNT_COUNT b) i v c (show 0 + 48 ≤ 64 by decide)

theorem Dev.on_put_count (v : Nat) : (d.put (CNT_COUNT b) i v c).on (CNT_SAT b) i c = d.on (CNT_SAT b) i c :=
  congrArg (fun x => decide (x = 1)) (Dev.get_put_field d (CNT_COUNT b) (CNT_SAT b) i v c rfl (.inr le_rfl))

theorem Dev.get_put_sat (v : Nat) : (d.put (CNT_SAT b) i v c).get (CNT_COUNT b) i c = d.get (CNT_COUNT b) i c :=
  Dev.get_put_field d (CNT_SAT b) (CNT_COUNT b) i v c rfl (.inl le_rfl)

theorem Dev.on_put_sat : (d.put (CNT_SAT b) i 1 c).on (CNT_SAT b) i c = true :=
  decide_eq_true (Dev.get_put_self d (CNT_SAT b) i 1 c (show 48 + 1 ≤ 64 by decide))

end

/-- Settles O54, by the two sides of the counter's top. -/
theorem counterStopsAtItsTop : Obligations.CounterStopsAtItsTop := by
  intro d b i c n
  by_cases htop : 2 ^ 48 - 1 ≤ d.get (CNT_COUNT b) i c + n
  · rw [Dev.cntAdd_top d b i c n htop, Dev.get_put_sat, Dev.get_put_count, Dev.on_put_sat, min_eq_right htop,
      decide_eq_true htop, Bool.or_true]
    exact ⟨rfl, rfl, fun r k l hr => (Dev.word_put_ne _ _ _ _ _ _ _ _ hr).trans (Dev.word_put_ne _ _ _ _ _ _ _ _ hr), rfl⟩
  · have hlt := Nat.lt_of_not_le htop
    rw [Dev.cntAdd_below d b i c n hlt, Dev.get_put_count, Dev.on_put_count, min_eq_left hlt.le, decide_eq_false htop,
      Bool.or_false]
    exact ⟨Nat.mod_eq_of_lt (by omega), rfl, fun r k l hr => Dev.word_put_ne _ _ _ _ _ _ _ _ hr, rfl⟩

theorem Dev.countsOnly_tick_counts (d : Dev) : d.CountsOnly d.refreshTick.tickCounters :=
  (Dev.CountsOnly.refreshTick d).trans (Dev.CountsOnly.tickCounters _)

/-! ## The cycle (R624, R28) -/

/-- Settles O3: of the tick, the clock's own step moves local time, and what it counts moves registers alone. -/
theorem tickMovesLocalTimeByThirtyTwo : Obligations.TickMovesLocalTimeByThirtyTwo := by
  intro d
  unfold Dev.tick
  dsimp only
  refine ⟨?_, fun hstop => ?_, ?_, ?_, ?_, ?_⟩
  · rw [(Dev.countsOnly_tick_counts _).clk]; split <;> rfl
  · rw [(Dev.countsOnly_tick_counts _).clk]; simp [hstop]
  · rw [(Dev.countsOnly_tick_counts _).ldr]; split <;> rfl
  · rw [(Dev.countsOnly_tick_counts _).tabs]; split <;> rfl
  · rw [(Dev.countsOnly_tick_counts _).core]; split <;> rfl
  · rw [(Dev.countsOnly_tick_counts _).coh]; split <;> rfl

theorem Dev.tick_setNext (d : Dev) : d.tick.obs.clk.setNext = d.obs.clk.setNext := by
  unfold Dev.tick
  dsimp only
  rw [(Dev.countsOnly_tick_counts _).clk]
  split <;> rfl

theorem Dev.bundlePoll_none {d : Dev} (h : d.sec.bundle = none) : d.bundlePoll = d := by
  simp only [Dev.bundlePoll, h]

theorem Dev.rstPoll_idle {d : Dev} (h : d.rst.active = []) : d.rstPoll = d := by
  simp only [Dev.rstPoll, h, List.foldl_nil]

theorem Dev.clockEdge_noSet {d : Dev} (h : d.obs.clk.setNext = none) : d.clockEdge = d.tick.trackCheck := by
  simp only [Dev.clockEdge, d.tick_setNext, h]

/-- Settles O2: the queue is empty, and what a cycle may wait for is absent under the hypotheses. -/
theorem idleStepIsOneTimeclkCycle : Obligations.IdleStepIsOneTimeclkCycle := by
  intro s hempty
  refine ⟨by simp only [step, hempty], fun hstop => if_neg (Bool.eq_false_iff.1 hstop), fun hclk hbundle hactive hset => ?_⟩
  calc s.dev.cycle = s.dev.oscTick.bundlePoll.rstPoll.clockEdge.instant.cycleEnd := if_pos hclk
    _ = (s.dev.oscTick.tick.trackCheck.instant).cycleEnd := by
      rw [Dev.bundlePoll_none (d := s.dev.oscTick) hbundle, Dev.rstPoll_idle (d := s.dev.oscTick) hactive,
        Dev.clockEdge_noSet (d := s.dev.oscTick) hset]

end Sys2Proof.Machine

namespace Sys2Proof.Machine

/-! # The Larder's commands (chapter 13, The Larder)

Equations of the rows case by case, and what a read or a write of a line does to the bytes of memory. -/

variable {d : Dev} {c : Nat} {r : LdrReq}

/-! ## Reads and writes (R443, R444, R458) -/

theorem Dev.larderReadRow_take (hreq : d.takeReq c false = some r) :
    d.larderReadRow c = ((((d.dropReq c r).count .ldr c 0x200).readLine c r.line).2.2.ldrAnswer r .tgtData
      (((d.dropReq c r).count .ldr c 0x200).readLine c r.line).1
      (((d.dropReq c r).count .ldr c 0x200).readLine c r.line).2.1) := by
  simp only [Dev.larderReadRow, hreq]

section
variable (hreq : d.takeReq c true = some r)
include hreq

theorem Dev.larderWriteRow_failed (hstate : ((d.dropReq c r).count .ldr c 0x201).get LDR_CHSTAT_STATE c = 4) :
    d.larderWriteRow c = ((d.dropReq c r).count .ldr c 0x201).ldrAnswer r .tgtFail [] false := by
  simp only [Dev.larderWriteRow, hreq, hstate, if_true]

theorem Dev.larderWriteRow_stored (hstate : ((d.dropReq c r).count .ldr c 0x201).get LDR_CHSTAT_STATE c ≠ 4)
    (hatom : atomOp r.m.body.op = false) :
    d.larderWriteRow c =
      (((d.dropReq c r).count .ldr c 0x201).writeLine c r.line r.be r.data r.poison).ldrAnswer r .tgtDone [] false := by
  simp only [Dev.larderWriteRow, hreq, hstate, hatom, if_false, Bool.false_eq_true]

end

/-! ## Scrub, repair and temperature (R445 to R451) -/

theorem Dev.scrubReadRow_ready (hon : d.on LDR_SCRUB_EN c = true) (hstate : d.get LDR_CHSTAT_STATE c = 2)
    (hlines : d.localLines c ≠ 0) : d.scrubReadRow c = d.scrubLine c (SMap.get 0 d.ldr.scrubPos c) := by
  simp [Dev.scrubReadRow, hon, hstate, hlines]

theorem Dev.pprGo_soft (hidle : d.on LDR_PPR_BUSY c = false) (hsoft : d.on LDR_PPR_HARD c = false) :
    d.pprGo c = d.startSoft c (d.pprKey c) := by
  simp [Dev.pprGo, hidle, hsoft]

theorem Dev.pprGo_hard (hidle : d.on LDR_PPR_BUSY c = false) (hhard : d.on LDR_PPR_HARD c = true) :
    d.pprGo c = d.pprRecord c := by
  simp [Dev.pprGo, hidle, hhard]

/-- A soft repair that ends well clears the row's count and is recorded. -/
theorem Dev.pprDoneRow_done {k : Nat} (hrep : SMap.get none d.ldr.repair c = some k) :
    d.pprDoneRow c 1 =
      (({ d with ldr := { d.ldr with
          repair := SMap.set none d.ldr.repair c none
          rowCe := SMap.set 0 d.ldr.rowCe (rowKey c k) 0
          softRep := (d.ldr.softRep ++ [rowKey c k]).dedup } } : Dev).put LDR_PPR_BUSY c 0).put LDR_PPR_RESULT c 1 := by
  simp [Dev.pprDoneRow, hrep]

theorem Dev.dimmThermalReadRow_serves {temp : Nat} (hserves : d.chanServes c = true) :
    d.dimmThermalReadRow c temp = d.thermal c temp := by
  simp [Dev.dimmThermalReadRow, hserves]

/-! ## Failures and training (R24, R432, R458) -/

theorem Dev.chanFailRow_serving {cause : Nat} (h0 : d.get LDR_CHSTAT_STATE c ≠ 0) (h4 : d.get LDR_CHSTAT_STATE c ≠ 4)
    (h5 : d.get LDR_CHSTAT_STATE c ≠ 5) : d.chanFailRow c cause = (d.put LDR_CHSTAT_STATE c 4).raise LDR_F_CHAN_FAIL c := by
  simp [Dev.chanFailRow, h0, h4, h5]

theorem Dev.larderTrainDoneRow_trained {mods : List Module} (hphase : d.rst.phase = .starting)
    (hready : d.on DEV_READY_LARDER_READY = false) (hchans : (mods.map (·.chan)).all (· < 12) = true)
    (hpop : populationOk mods = true) (htrained : mods.any (fun m => !m.trained) = false) :
    d.larderTrainDoneRow mods = d.larderUp mods := by
  simp only [Dev.larderTrainDoneRow, hphase, hready, hchans, hpop, htrained, ne_eq, not_true_eq_false, decide_false,
    Bool.or_self, Bool.not_true, Bool.false_eq_true, if_false]

/-- Settles O28: each command runs its row, and the row's equation under the hypotheses gives the device. -/
theorem larderCommands : Obligations.LarderCommands := by
  refine ⟨?read, ?write, ?writeFailed, ?scrub, ?pprSoft, ?pprHard, ?pprDone, ?thermal, ?chanFail, ?die, ?train⟩
  case read => exact fun s c r hwf hreq => run_eq hwf (Dev.larderReadRow_take hreq)
  case write => exact fun s c r hwf hreq hstate hatom => run_eq hwf (Dev.larderWriteRow_stored hreq hstate hatom)
  case writeFailed => exact fun s c r hwf hreq hstate => run_eq hwf (Dev.larderWriteRow_failed hreq hstate)
  case scrub => exact fun s c hwf hon hstate hlines => run_eq hwf (Dev.scrubReadRow_ready hon hstate hlines)
  case pprSoft => exact fun s path c hwf hreach hidle hsoft => run_access_eq hwf hreach (Dev.pprGo_soft hidle hsoft)
  case pprHard => exact fun s path c hwf hreach hidle hhard => run_access_eq hwf hreach (Dev.pprGo_hard hidle hhard)
  case pprDone =>
    rintro s c res k hwf hrep rfl
    exact run_eq hwf (Dev.pprDoneRow_done hrep)
  case thermal => exact fun s c temp hwf hserves => run_eq hwf (Dev.dimmThermalReadRow_serves hserves)
  case chanFail => exact fun s c cause hwf h0 h4 h5 => run_eq hwf (Dev.chanFailRow_serving h0 h4 h5)
  case die => exact fun s die hwf => run_eq hwf rfl
  case train =>
    exact fun s mods hwf hphase hready hchans hpop htrained =>
      run_eq (row := "LARDER_TRAIN_DONE") hwf (Dev.larderTrainDoneRow_trained hphase hready hchans hpop htrained)

/-! ## The bytes of a line -/

/-- The first n bytes of a line write: each enabled one reads its data byte. -/
theorem Dev.lbyte_lwriteBe_prefix (d : Dev) (a be : Nat) (data : Bytes) (x n : Nat) :
    ((List.range n).foldl (fun d i => if bit be i then d.setLbyte (a + i) (data.getD i 0) else d) d).lbyte x =
      if a ≤ x ∧ x < a + n ∧ bit be (x - a) = true then data.getD (x - a) 0 else d.lbyte x := by
  induction n with
  | zero => rw [if_neg (by omega)]; rfl
  | succ n ih =>
    rw [List.range_succ, List.foldl_append, List.foldl_cons, List.foldl_nil]
    by_cases hx : x = a + n
    · subst hx
      have hold : ¬ (a ≤ a + n ∧ a + n < a + n ∧ bit be (a + n - a) = true) := by omega
      rw [if_neg hold] at ih
      split
      next hbe => rw [Dev.lbyte_setLbyte_self, if_pos ⟨by omega, by omega, by simpa using hbe⟩, Nat.add_sub_cancel_left]
      next hbe => rw [ih, if_neg (by simpa using hbe)]
    · have hsame : (a ≤ x ∧ x < a + (n + 1) ∧ bit be (x - a) = true) ↔ (a ≤ x ∧ x < a + n ∧ bit be (x - a) = true) := by
        constructor <;> rintro ⟨h1, h2, h3⟩ <;> exact ⟨h1, by omega, h3⟩
      simp only [hsame]
      split
      · rw [Dev.lbyte_setLbyte_ne _ _ _ _ hx, ih]
      · exact ih

theorem Dev.lbyte_lwriteBe (d : Dev) (a be : Nat) (data : Bytes) (x : Nat) :
    (d.lwriteBe a be data).lbyte x =
      if a ≤ x ∧ x < a + 64 ∧ bit be (x - a) = true then data.getD (x - a) 0 else d.lbyte x :=
  Dev.lbyte_lwriteBe_prefix d a be data x 64

@[simp] theorem Dev.lbyte_rowOpen (d : Dev) (c line x : Nat) : (d.rowOpen c line).lbyte x = d.lbyte x := by
  unfold Dev.rowOpen
  dsimp only
  split <;> rfl

@[simp] theorem Dev.lbyte_takeInject (d : Dev) (c line : Nat) (carve : Bool) (x : Nat) :
    (d.takeInject c line carve).2.lbyte x = d.lbyte x := by
  unfold Dev.takeInject
  dsimp only
  split_ifs <;> rfl

@[simp] theorem Dev.lbyte_setLine (d : Dev) (line : Nat) (ce ue poison : Bool) (x : Nat) :
    (d.setLine line ce ue poison).lbyte x = d.lbyte x := rfl

/-- Settles O40: with no uncorrectable copy left to report, a line write is its bytes, and the rest is the channel's account. -/
theorem lineWriteStoresItsBytes : Obligations.LineWriteStoresItsBytes := by
  intro d c line be data p x hue
  have hquiet : (d.ldr.ue.contains line && !decide (be % 2 ^ 64 = 2 ^ 64 - 1)) = false := by
    rcases hue with h | h
    · rw [h, Bool.false_and]
    · rw [decide_eq_true h, Bool.not_true, Bool.and_false]
  unfold Dev.writeLine
  dsimp only
  rw [hquiet, if_neg Bool.false_ne_true, Dev.lbyte_setLine, Dev.lbyte_takeInject, Dev.lbyte_lwriteBe, Dev.lbyte_rowOpen]

/-- A register of a page that is none of its counters reads as before its events are counted. -/
theorem Dev.get_count_ne (d : Dev) (b : Blk) (i ev n : Nat) (f : Fld) (k l : Nat)
    (hne : ∀ c < 16, f.reg.addr k l ≠ (CNT b).addr i c) : (d.count b i ev n).get f k l = d.get f k l := by
  suffices h : ∀ l' : List Nat, (∀ c ∈ l', c < 16) → ∀ e : Dev,
      (l'.foldl (fun d c => let (x, en, _) := d.cntSel b i c; if en && x = ev then d.cntAdd b i c n else d) e).get f k l =
        e.get f k l from h _ (fun c => List.mem_range.1) d
  intro l' hl'
  induction l' with
  | nil => exact fun e => rfl
  | cons c l' ih =>
    intro e
    rw [List.foldl_cons, ih fun x hx => hl' x (List.mem_cons_of_mem c hx)]
    have hc := hne c (hl' c List.mem_cons_self)
    dsimp only
    split
    · have hword := (counterStopsAtItsTop e b i c n).2.2.1 f.reg k l hc
      rw [Dev.get, hword, Dev.get]
    · rfl

/-- The channel's state stands while its accesses are counted. -/
theorem Dev.chanState_count (d : Dev) (c ev n : Nat) :
    (d.count .ldr c ev n).get LDR_CHSTAT_STATE c = d.get LDR_CHSTAT_STATE c := by
  refine Dev.get_count_ne d .ldr c ev n LDR_CHSTAT_STATE c 0 fun j hj => ?_
  simp only [Reg.addr, LDR_CHSTAT_STATE, LDR_CHSTAT, CNT]
  omega

@[simp] theorem Dev.lbyte_cycleEnd (d : Dev) (x : Nat) : d.cycleEnd.lbyte x = d.lbyte x := rfl
@[simp] theorem Dev.arrivedAt_cycleEnd (d : Dev) (h ch : Nat) : d.cycleEnd.arrivedAt h ch = d.arrivedAt h ch := rfl

/-! ## Requests of home slices -/

/-- The device once a channel's request is dropped and its access counted. -/
def Dev.taken (d : Dev) (c : Nat) (r : LdrReq) (ev : Nat) : Dev := (d.dropReq c r).count .ldr c ev

section
variable (d : Dev) (c : Nat) (r : LdrReq) (ev : Nat)

theorem Dev.taken_ldr : (d.taken c r ev).ldr = (d.dropReq c r).ldr := (Dev.CountsOnly.count (d.dropReq c r) .ldr c ev 1).ldr
theorem Dev.taken_core : (d.taken c r ev).core = d.core := (Dev.CountsOnly.count (d.dropReq c r) .ldr c ev 1).core
theorem Dev.taken_ue : (d.taken c r ev).ldr.ue = d.ldr.ue := by rw [Dev.taken_ldr]; rfl
theorem Dev.taken_ce : (d.taken c r ev).ldr.ce = d.ldr.ce := by rw [Dev.taken_ldr]; rfl
theorem Dev.taken_poison : (d.taken c r ev).ldr.poison = d.ldr.poison := by rw [Dev.taken_ldr]; rfl

theorem Dev.lbyte_taken (x : Nat) : (d.taken c r ev).lbyte x = d.lbyte x := by
  rw [Dev.lbyte, Dev.taken_ldr]
  rfl

theorem Dev.chanState_taken : (d.taken c r ev).get LDR_CHSTAT_STATE c = d.get LDR_CHSTAT_STATE c :=
  (d.dropReq c r).chanState_count c ev 1

end

section
variable (d : Dev) {r : LdrReq} (hhome : r.m.home.isSome = true) (op : MOp) (data : Bytes) (poison : Bool)
include hhome

/-- A home slice's answer is a message that arrives there; memory stands. -/
theorem Dev.ldrAnswer_home : d.ldrAnswer r op data poison =
    d.arriveRsp r.home { r.m with poison := poison, body := { r.m.body with op := op, data := data } } := if_pos hhome

theorem Dev.lbyte_ldrAnswer (x : Nat) : (d.ldrAnswer r op data poison).lbyte x = d.lbyte x := by
  rw [Dev.ldrAnswer_home d hhome]
  rfl

theorem Dev.arrivedAt_ldrAnswer : (d.ldrAnswer r op data poison).arrivedAt r.home 0 = d.arrivedAt r.home 0 ++
    [{ r.m with poison := poison, body := { r.m.body with op := op, data := data } }] := by
  rw [Dev.ldrAnswer_home d hhome]
  exact SMap.get_set_self _ _ _ _

end

/-- Settles O41: the channel serves the write, and the answer to the home slice leaves memory as the line write left it. -/
theorem larderWriteStoresItsBytes : Obligations.LarderWriteStoresItsBytes := by
  intro s c r hwf hreq hhome hstate hatom hue
  have hlive : (s.dev.taken c r 0x201).get LDR_CHSTAT_STATE c ≠ 4 := by rwa [Dev.chanState_taken]
  have hbytes := fun x => lineWriteStoresItsBytes (s.dev.taken c r 0x201) c r.line r.be r.data r.poison x
    (by rwa [Dev.taken_ue])
  refine ⟨_, run_eq hwf (Dev.larderWriteRow_stored hreq hlive hatom), rfl, fun x => ?_⟩
  rw [State.after_dev, Dev.lbyte_cycleEnd, Dev.lbyte_ldrAnswer _ hhome, ← Dev.taken, hbytes, Dev.lbyte_taken]

/-- An access of a line moves the account of its row alone: memory, its marks and the arrived messages stand. -/
theorem Dev.rowOpen_frame (d : Dev) (c line : Nat) : (d.rowOpen c line).ldr.ce = d.ldr.ce ∧
    (d.rowOpen c line).ldr.poison = d.ldr.poison ∧ (d.rowOpen c line).core = d.core := by
  unfold Dev.rowOpen
  dsimp only
  split <;> exact ⟨rfl, rfl, rfl⟩

theorem Dev.lread_congr {d e : Dev} (h : ∀ x, e.lbyte x = d.lbyte x) (a n : Nat) : e.lread a n = d.lread a n :=
  List.map_congr_left fun i _ => h (a + i)

/-- A line with no error on a channel that has not failed reads its bytes and its poison. -/
theorem Dev.readLine_clean {d : Dev} {c line : Nat} (hstate : d.get LDR_CHSTAT_STATE c ≠ 4)
    (hue : d.ldr.ue.contains line = false) (hce : d.ldr.ce.contains line = false) :
    d.readLine c line = (d.lread (line * 64) 64, d.ldr.poison.contains line, d.rowOpen c line) := by
  obtain ⟨hce', hpoison, -⟩ := d.rowOpen_frame c line
  simp only [Dev.readLine, hstate, hue, hce', hce, hpoison, Dev.lread_congr (d.lbyte_rowOpen c line), if_false,
    Bool.false_eq_true]

/-- Settles O42: the line reads clean, and the answer to the home slice is all that moves but the account of the access. -/
theorem larderReadAnswersTheLine : Obligations.LarderReadAnswersTheLine := by
  intro s c r h hwf hreq hhome hr hstate hue hce
  subst hr
  have hsome : r.m.home.isSome = true := by rw [hhome]; rfl
  have hclean := Dev.readLine_clean (d := s.dev.taken c r 0x200) (c := c) (line := r.line) (by rwa [Dev.chanState_taken])
    (by rwa [Dev.taken_ue]) (by rwa [Dev.taken_ce])
  obtain ⟨-, -, hcore⟩ := (s.dev.taken c r 0x200).rowOpen_frame c r.line
  refine ⟨_, run_eq hwf (Dev.larderReadRow_take hreq), rfl, fun x => ?_, ?_⟩
  · rw [State.after_dev, Dev.lbyte_cycleEnd, Dev.lbyte_ldrAnswer _ hsome, ← Dev.taken, hclean, Dev.lbyte_rowOpen,
      Dev.lbyte_taken]
  · rw [State.after_dev, Dev.arrivedAt_cycleEnd, Dev.arrivedAt_ldrAnswer _ hsome, ← Dev.taken, hclean, Dev.taken_poison,
      Dev.lread_congr (s.dev.lbyte_taken c r 0x200), Dev.arrivedAt, hcore, Dev.taken_core, Dev.arrivedAt]

end Sys2Proof.Machine

namespace Sys2Proof.Machine

/-! # The Data Mover's engines and descriptors (chapter 14, The Data Mover)

Which engine takes a descriptor, how each operation starts, and the ends of barriers, records, share entries and MOVE_LIVE. -/

variable {d : Dev} {q : Nat}

/-! ## Turns (R477, R483, R484) -/

theorem Dev.serves_iff {e : Nat} : d.serves e q = true ↔ d.q q cEslice = e / 4 ∧ d.quarantined (.engine e) = false ∧
    (d.sealed (e / 4) = true → d.shareServes e (d.q q cDomain) = true) := by
  cases hs : d.sealed (e / 4) <;> simp [Dev.serves, hs, and_assoc]

/-- An engine gives a queue its turn only where it serves it. -/
theorem Dev.serves_of_turnOf {e : Nat} (h : d.turnOf e = some q) : d.serves e q = true := by
  obtain ⟨-, hq⟩ := Option.filter_eq_some_iff.1 h
  simp only [Bool.and_eq_true] at hq
  exact hq.1.1

/-- Nor does the round name it a queue that it does not serve. -/
theorem Dev.serves_of_nextTurn {e : Nat} (h : d.nextTurn e = some q) : d.serves e q = true := by
  unfold Dev.nextTurn at h
  dsimp only at h
  have hmem := ((Option.orElse_eq_some _ _ _).1 h).elim List.mem_of_find?_eq_some fun h => List.mem_of_mem_head? h.2
  obtain ⟨-, hq⟩ := List.mem_filter.1 hmem
  simp only [Bool.and_eq_true] at hq
  exact hq.1.1

/-- The engine for a queue gives it its turn, or takes it up in the round while no engine of its slice does. -/
theorem Dev.engineFor_cases {e : Nat} (h : d.engineFor q = some e) : d.turnOf e = some q ∨
    d.nextTurn e = some q ∧ ∀ f, f / 4 = d.q q cEslice → d.turnOf f ≠ some q := by
  rcases (Option.orElse_eq_some _ _ _).1 h with hturn | ⟨hnone, hnext⟩
  · exact .inl (by simpa using List.find?_some hturn)
  · have hfound := List.find?_some hnext
    simp only [Bool.and_eq_true, decide_eq_true_eq] at hfound
    refine .inr ⟨hfound.2, fun f hf hturn => ?_⟩
    have hmem : f ∈ (List.range 4).map (4 * d.q q cEslice + ·) :=
      List.mem_map.2 ⟨f % 4, List.mem_range.2 (by omega), by omega⟩
    exact List.find?_eq_none.1 hnone f hmem (decide_eq_true hturn)

theorem Dev.nextDesc_eq_some {op e : Nat} {x : Desc} (h : d.nextDesc q op = some (e, x)) :
    d.readyDesc q = some x ∧ d.engineFor q = some e ∧ x.op = op := by
  unfold Dev.nextDesc at h
  split at h
  next hready heng =>
    split at h
    next hop =>
      cases h
      exact ⟨hready, heng, hop⟩
    next => cases h
  next => cases h

/-- The descriptor ready next is one of the queue's that has not started. -/
theorem Dev.readyDesc_mem {x : Desc} (h : d.readyDesc q = some x) : x.started = false ∧ x ∈ (d.queue q).descs := by
  unfold Dev.readyDesc at h
  dsimp only at h
  split at h
  · cases h
  · obtain ⟨hfind, -⟩ := Option.filter_eq_some_iff.1 h
    exact ⟨by simpa using List.find?_some hfind, List.mem_of_find?_eq_some hfind⟩

/-- Settles O60: the engine serves the queue either way it comes to it, and an engine that gives the turn is taken first. -/
theorem enginesServeTheirSlice : Obligations.EnginesServeTheirSlice := by
  intro d q op e x h
  obtain ⟨hready, heng, hop⟩ := Dev.nextDesc_eq_some h
  have hcases := Dev.engineFor_cases heng
  have hserves : d.serves e q = true :=
    hcases.elim Dev.serves_of_turnOf fun hnext => Dev.serves_of_nextTurn hnext.1
  obtain ⟨hslice, hfree, hshare⟩ := Dev.serves_iff.1 hserves
  obtain ⟨hstarted, hmem⟩ := Dev.readyDesc_mem hready
  refine ⟨hslice, hfree, hshare, fun f hf hturn => ?_, hop, hstarted, hmem⟩
  exact hcases.elim id fun hnext => absurd hturn (hnext.2 f (hf.trans hslice.symm))

/-! ## Starts and ends of descriptors (R475, R427, R429, R478) -/

theorem Dev.startDesc_wellFormed {op e : Nat} {x : Desc} {f : Desc → Dev → Desc × Dev} (hnext : d.nextDesc q op = some (e, x))
    (hok : x.malformed = none) :
    d.startDesc q op f = Dev.afterStart (f { x with started := true, eng := e } (d.takeEngine q e)) q := by
  simp only [Dev.startDesc, hnext, hok]

theorem Dev.barrierCompleteRow_met {b : Desc} (hopen : (d.queue q).descs.find? openBarrier = some b) (hrun : d.halted = false)
    (hmet : d.barrierMet q b = true) : d.barrierCompleteRow q = d.barrierEnd q b := by
  simp [Dev.barrierCompleteRow, hopen, hrun, hmet]

/-- The record of an ended descriptor is written: the tail moves on and its interrupt follows. -/
theorem Dev.completionRecordRow_written {x : Desc} {rest : List Desc} {d2 : Dev} (hdescs : (d.queue q).descs = x :: rest)
    (hrun : d.halted = false) (hacu : d.enabled ⟨.acu, d.q q cVcs⟩ = true) (hended : x.ended = true)
    (hslot : d.cplSlot q 0 = true) (hdue : x.recordDue = true)
    (hwrite : (((d.setQueue q { d.queue q with descs := rest }).count .dmv x.eng 0x200).count .dmv x.eng 0x201 x.moved).writeRecord q
      ((((d.setQueue q { d.queue q with descs := rest }).count .dmv x.eng 0x200).count .dmv x.eng 0x201 x.moved).record q x) =
        (true, d2)) :
    d.completionRecordRow q true = (d2.recordWritten q).descIrq q x := by
  simp only [Dev.completionRecordRow, hdescs, hrun, hacu, hended, hslot, hdue, hwrite, Bool.not_true, Bool.or_self,
    Bool.false_eq_true, if_false]

theorem Dev.shareEntryEndRow_sealed {e i : Nat} (hnext : (d.put (PGEPOCH_APPLIED .dmv) e 1).nextShare e = some i)
    (hsealed : (d.put (PGEPOCH_APPLIED .dmv) e 1).sealed (e / 4) = true) :
    d.shareEntryEndRow e = (({ d.put (PGEPOCH_APPLIED .dmv) e 1 with dmv := { d.dmv with share := SMap.set 0 d.dmv.share e i } } : Dev).put
      DMV_ESTAT_SHARE e i) := by
  simp only [Dev.shareEntryEndRow, hnext]
  exact if_pos hsealed

/-! ## MOVE_LIVE (R486, R487) -/

/-- A privileged queue's MOVE_LIVE that nothing refuses begins in the first free slot. -/
theorem Dev.moveLiveRow_begun {e m : Nat} {x : Desc} (hnext : d.nextDesc q 0x07 = some (e, x)) (hok : x.malformed = none)
    (hpriv : (d.takeEngine q e).q q cPriv = 1)
    (hslot : ((List.range 64).find? fun m => ((d.takeEngine q e).migr? m).isNone) = some m)
    (hmove : (d.takeEngine q e).moveOk ((d.takeEngine q e).q q cVcs) (x.srcA % 32) (x.dstA / 2 ^ 32 % 128) (x.dstA % 2 ^ 24) = true) :
    d.moveLiveRow q = Dev.afterStart ((d.takeEngine q e).moveBegin q m { x with started := true, eng := e }) q := by
  rw [Dev.moveLiveRow, Dev.startDesc_wellFormed hnext hok]
  dsimp only
  rw [if_neg (not_not.2 hpriv), hslot]
  exact congrArg (Dev.afterStart · q) (if_neg (ne_true_of_eq_false (congrArg Bool.not hmove)))

section
variable {m : Nat} {g g2 : Migr} {d2 : Dev} (hmig : d.migr? m = some g) (hrun : d.halted = false)
include hmig hrun

theorem Dev.moveLiveCopyDoneRow_copied (hphase : d.mlPhase m = 1)
    (hcopy : d.migrCopy m g (List.range (d.migrGranules g)) = (some g2, d2)) :
    d.moveLiveCopyDoneRow m = d2.put DMV_MLSTAT_PHASE 0 2 m := by
  simp [Dev.moveLiveCopyDoneRow, hmig, hrun, hphase, hcopy]

/-- A pass of RECOPY that leaves few enough granules dirty, with the decoder's epoch applied, ends in HOLD. -/
theorem Dev.moveLiveRecopyDoneRow_hold (hphase : d.mlPhase m = 2)
    (hcopy : ((d.setMigr m (some { g with dirty := [] })).put DMV_MLSTAT_DIRTY 0 0 m).migrCopy m { g with dirty := [] }
      g.dirty.mergeSort = (some g2, d2)) (hgran : g2.dirty.length ≤ g2.gran)
    (hepoch : (d2.put DMV_MLSTAT_PASS 0 (d2.get DMV_MLSTAT_PASS 0 m + 1) m).on (PGEPOCH_APPLIED .dec) (g2.vcs / 8) = true) :
    d.moveLiveRecopyDoneRow m =
      (d2.put DMV_MLSTAT_PASS 0 (d2.get DMV_MLSTAT_PASS 0 m + 1) m).put DMV_MLSTAT_PHASE 0 3 m := by
  simp [Dev.moveLiveRecopyDoneRow, hmig, hrun, hphase, hcopy, hgran, hepoch]

theorem Dev.moveLiveHoldReadyRow_swapped (hphase : d.mlPhase m = 3) (hwaits : d.holdWaits g.vcs g.entry = false)
    (hcopy : d.migrCopy m g g.dirty.mergeSort = (some g2, d2)) :
    d.moveLiveHoldReadyRow m = ((((d2.setMigr m none).mlIdle m).swapEntry g2).releaseHeld g2.vcs g2.entry true).endMoveDesc g2
      (if g2.poison then stPoison else stOk) := by
  simp [Dev.moveLiveHoldReadyRow, hmig, hrun, hphase, hwaits, hcopy]

theorem Dev.moveLiveHoldTimeoutRow_retried (hphase : d.mlPhase m = 3) (htries : d.get DMV_MLSTAT_TRY 0 m + 1 < g.tries) :
    d.moveLiveHoldTimeoutRow m =
      ((d.put DMV_MLSTAT_TRY 0 (d.get DMV_MLSTAT_TRY 0 m + 1) m).put DMV_MLSTAT_PHASE 0 2 m).releaseHeld g.vcs g.entry false := by
  simp [Dev.moveLiveHoldTimeoutRow, hmig, hrun, hphase, Nat.not_le.2 htries]

end

/-- Settles O30: a descriptor's row is its start, which gives the device; the other rows have an equation of their own. -/
theorem descriptorCommands : Obligations.DescriptorCommands := by
  refine ⟨?nop, ?copy, ?fill, ?compare, ?crc, ?atomic8, ?atomic16, ?barrierLd, ?barrierSt, ?barrierFull, ?interrupt,
    ?barrierComplete, ?completionRecord, ?shareEntryEnd, ?moveLive, ?copyDone, ?recopyDone, ?holdReady, ?holdTimeout⟩
  case nop | copy | fill | compare | crc | atomic8 | atomic16 | barrierLd | barrierSt | barrierFull | interrupt =>
    exact fun s q e x hwf hnext hok => run_eq hwf (Dev.startDesc_wellFormed hnext hok)
  case barrierComplete =>
    exact fun s q b hwf hopen hrun hmet => run_eq hwf (Dev.barrierCompleteRow_met hopen hrun hmet)
  case completionRecord =>
    rintro s q ok x rest d2 hwf hdescs hrun hacu hended hslot hdue rfl hwrite
    exact run_eq hwf (Dev.completionRecordRow_written hdescs hrun hacu hended hslot hdue hwrite)
  case shareEntryEnd => exact fun s e i hwf hnext hsealed => run_eq hwf (Dev.shareEntryEndRow_sealed hnext hsealed)
  case moveLive =>
    exact fun s q e m x hwf hnext hok hpriv hslot hmove => run_eq hwf (Dev.moveLiveRow_begun hnext hok hpriv hslot hmove)
  case copyDone =>
    exact fun s m g g2 d2 hwf hmig hrun hphase hcopy => run_eq hwf (Dev.moveLiveCopyDoneRow_copied hmig hrun hphase hcopy)
  case recopyDone =>
    exact fun s m g g2 d2 hwf hmig hrun hphase hcopy hgran hepoch =>
      run_eq hwf (Dev.moveLiveRecopyDoneRow_hold hmig hrun hphase hcopy hgran hepoch)
  case holdReady =>
    exact fun s m g g2 d2 hwf hmig hrun hphase hwaits hcopy =>
      run_eq hwf (Dev.moveLiveHoldReadyRow_swapped hmig hrun hphase hwaits hcopy)
  case holdTimeout =>
    exact fun s m g hwf hmig hrun hphase htries => run_eq hwf (Dev.moveLiveHoldTimeoutRow_retried hmig hrun hphase htries)

end Sys2Proof.Machine

namespace Sys2Proof.Machine

/-! # The Data Mover's queues and functions (chapter 14, The Data Mover)

Equations of functions, queue commands, doorbells and fetches. -/

variable {d : Dev} {u fn q : Nat}

/-! ## Functions (R463, R481) -/

theorem Dev.vfEnableRow_enabled {n : Nat} (hfn : d.fnExists u 0 = true) (hoff : SMap.get 0 d.dmv.vfs u = 0) (hn : n ≠ 0)
    (hmax : n ≤ d.get DMV_EPCFG_TOTALVFS 0 u) :
    d.vfEnableRow u n = (List.range n).foldl (fun d i => d.allocFn u (i + 1))
      ({ d with dmv := { d.dmv with vfs := SMap.set 0 d.dmv.vfs u n } } : Dev) := by
  simp [Dev.vfEnableRow, hfn, hoff, hn, Nat.not_lt.2 hmax]

theorem Dev.vfDisableRow_exists (hfn : d.fnExists u 0 = true) : d.vfDisableRow u = d.dropVfs u := if_neg (by simp [hfn])

theorem Dev.functionFlrRow_exists (hfn : d.fnExists u fn = true) : d.functionFlrRow u fn = d.flrFn u fn := if_neg (by simp [hfn])

/-! ## Queue commands (R464 to R467, R481, R482) -/

theorem Dev.ctxFetch_cached (hcached : d.cached q = true) : d.ctxFetch q = d := if_pos (by simp [hcached])

/-- A command on a queue whose context is cached is its own effect on it. -/
theorem Dev.qCommand_cached {f : Nat → Dev → Dev} (hfn : d.fnExists u fn = true) (hsel : d.selQueue u fn = some q)
    (hcached : d.cached q = true) : d.qCommand u fn f = f q d := by
  simp only [Dev.qCommand, hfn, hsel, Dev.ctxFetch_cached hcached, Bool.not_true, Bool.false_eq_true, if_false]

section
variable (hfn : d.fnExists u fn = true) (hsel : d.selQueue u fn = some q) (hcached : d.cached q = true)
include hfn hsel hcached

theorem Dev.qcmdReadRow_cached : d.qcmdReadRow u fn =
    ((List.range 6).foldl (fun d i => d.put FN_QCTX_DATA (fnKey u fn) (d.ctxW q i).toNat i) d).qResult (fnKey u fn) 0 :=
  Dev.qCommand_cached hfn hsel hcached

theorem Dev.qcmdWriteRow_cached (hstate : d.qState q ≠ qEnabled) : d.qcmdWriteRow u fn =
    ((List.range 4).foldl (fun d i => d.setCtxW q i (BitVec.ofNat 64 (d.get FN_QCTX_DATA (fnKey u fn) i))) d).qResult
      (fnKey u fn) 0 :=
  (Dev.qCommand_cached hfn hsel hcached).trans (if_neg hstate)

theorem Dev.qcmdEnableRow_cached (hstate : d.qState q = qDisabled) (hhost : d.hostHalfOk q = true) : d.qcmdEnableRow u fn =
    ((((((d.qPut q cHead 0).qPut q cTail 0).qPut q cCqTail 0).qPut q cCqHead 0).qPut q cPhase 1).setQState q qEnabled).qResult
      (fnKey u fn) 0 := by
  rw [Dev.qcmdEnableRow, Dev.qCommand_cached hfn hsel hcached, if_neg (not_not.2 hstate), if_neg (by simp [hhost])]

theorem Dev.qcmdDisableRow_cached (hstate : d.qState q = qEnabled) :
    d.qcmdDisableRow u fn = (d.setQState q qDisabling).qResult (fnKey u fn) 0 := by
  rw [Dev.qcmdDisableRow, Dev.qCommand_cached hfn hsel hcached, if_pos hstate]

theorem Dev.qcmdResetRow_cached (hfree : d.resetHeld q = false) :
    d.qcmdResetRow u fn = (d.qReset q qDisabled false).qResult (fnKey u fn) 0 := by
  rw [Dev.qcmdResetRow, Dev.qCommand_cached hfn hsel hcached, if_neg (by simp [hfree])]

end

theorem Dev.heldResetRow_released (hheld : (d.queue q).heldReset = true) (hfree : d.resetHeld q = false) :
    d.heldResetRow q = d.qReset q qDisabled false := if_pos (by simp [hheld, hfree])

theorem Dev.disablingDoneRow_ended (hstate : d.qState q = qDisabling) (hended : (d.queue q).descs.any (·.started) = false) :
    d.disablingDoneRow q = (d.setQueue q { d.queue q with descs := [] }).setQState q qDisabled :=
  if_neg (by simp [hstate, hended])

/-! ## Doorbells (R470) -/

theorem Dev.doorbellRow_reaches {off nbytes val : Nat} (hfn : d.fnExists u fn = true) (halign : off % 64 = 0)
    (hsize : nbytes = 4 ∨ nbytes = 8) (hin : off / 64 < (d.fnBlock u fn).2) :
    d.doorbellRow u fn off nbytes val = (d.ctxFetch ((d.fnBlock u fn).1 + off / 64)).ring_ ((d.fnBlock u fn).1 + off / 64) val
      (nbytes = 8 && val / 2 ^ 48 % 2 = 1) := by
  rw [Dev.doorbellRow, if_neg (by simp [hfn])]
  generalize d.fnBlock u fn = blk at hin ⊢
  exact if_neg (by rcases hsize with rfl | rfl <;> simp [halign, hin])

/-! ## Fetches (R465, R471) -/

section
variable (hrun : d.halted = false)
include hrun

theorem Dev.contextFetchRow_hit (hcached : d.cached q = true) :
    d.contextFetchRow q = { d with ldr := { d.ldr with ctxLru := d.ldr.ctxLru.filter (· ≠ q) ++ [q] } } := by
  simp [Dev.contextFetchRow, hrun, hcached]

/-- A miss that reads both of the context's lines takes a free entry. -/
theorem Dev.contextFetchRow_filled {d1 d2 d3 : Dev} (hup : d.ldr.up = true) (hen : d.on LDR_CARVE_CTX_EN = true)
    (hmiss : d.cached q = false) (hfirst : d.carveRead (d.ctxBase + 128 * q) 4 = (false, d1))
    (hsecond : d1.carveRead (d.ctxBase + 128 * q + 64) 4 = (false, d2))
    (hinject : d2.injectAt .dmv (d2.qPage q) [DMV_F_CTX_UE.num] none = (none, d3)) (hroom : d3.ldr.ctxLru.length < 65536) :
    d.contextFetchRow q = { d3 with ldr := { d3.ldr with
      ctxLru := d3.ldr.ctxLru ++ [q]
      ctx := SMap.set [] d3.ldr.ctx q ((List.range 16).map fun i => d3.lword (d.ctxBase + 128 * q + 8 * i)) } } := by
  simp [Dev.contextFetchRow, Dev.ctxFetch, hrun, hmiss, hup, hen, hfirst, hsecond, hinject, hroom]

theorem Dev.descriptorFetchRow_arrived {words : List W64} (hacu : d.enabled ⟨.acu, d.q q cVcs⟩ = true)
    (hstate : d.qState q = qEnabled) (hcached : d.cached q = true) (hdue : d.q q cHead ≠ d.q q cTail)
    (hroom : ((d.queue q).descs.filter fun x => !x.started).length < 8) :
    d.descriptorFetchRow q words true = d.fetchDescs q words := by
  have hidle : ¬ (((d.queue q).descs.filter fun x => !x.started).length ≥ 8) := Nat.not_le.2 hroom
  simp only [Dev.descriptorFetchRow, hrun, hacu, hstate, hcached, hdue, hidle, Bool.not_true, Bool.or_self, ne_eq,
    not_true_eq_false, decide_false, Bool.false_eq_true, if_false]

end

/-- Settles O29: each command runs its row, and the row's equation under the hypotheses gives the device. -/
theorem queueCommands : Obligations.QueueCommands := by
  refine ⟨?vfEnable, ?vfDisable, ?flr, ?qread, ?qwrite, ?qenable, ?qdisable, ?qreset, ?heldReset, ?disablingDone, ?doorbell,
    ?contextHit, ?contextMiss, ?fetch⟩
  case vfEnable => exact fun s u n hwf hfn hoff hn hmax => run_eq hwf (Dev.vfEnableRow_enabled hfn hoff hn hmax)
  case vfDisable => exact fun s u hwf hfn => run_eq hwf (Dev.vfDisableRow_exists hfn)
  case flr => exact fun s u fn hwf hfn => run_eq hwf (Dev.functionFlrRow_exists hfn)
  case qread => exact fun s u fn q hwf hfn hsel hcached => run_eq hwf (Dev.qcmdReadRow_cached hfn hsel hcached)
  case qwrite =>
    exact fun s u fn q hwf hfn hsel hcached hstate => run_eq hwf (Dev.qcmdWriteRow_cached hfn hsel hcached hstate)
  case qenable =>
    exact fun s u fn q hwf hfn hsel hcached hstate hhost => run_eq hwf (Dev.qcmdEnableRow_cached hfn hsel hcached hstate hhost)
  case qdisable =>
    exact fun s u fn q hwf hfn hsel hcached hstate => run_eq hwf (Dev.qcmdDisableRow_cached hfn hsel hcached hstate)
  case qreset =>
    exact fun s u fn q hwf hfn hsel hcached hfree => run_eq hwf (Dev.qcmdResetRow_cached hfn hsel hcached hfree)
  case heldReset => exact fun s q hwf hheld hfree => run_eq hwf (Dev.heldResetRow_released hheld hfree)
  case disablingDone => exact fun s q hwf hstate hended => run_eq hwf (Dev.disablingDoneRow_ended hstate hended)
  case doorbell =>
    exact fun s u fn off nbytes val hwf hfn halign hsize hin => run_eq hwf (Dev.doorbellRow_reaches hfn halign hsize hin)
  case contextHit => exact fun s q hwf hrun hcached => run_eq hwf (Dev.contextFetchRow_hit hrun hcached)
  case contextMiss =>
    exact fun s q d1 d2 d3 hwf hrun hup hen hmiss hfirst hsecond hinject hroom =>
      run_eq hwf (Dev.contextFetchRow_filled hrun hup hen hmiss hfirst hsecond hinject hroom)
  case fetch =>
    rintro s q words ok hwf hrun hacu hstate hcached hdue hroom rfl
    exact run_eq hwf (Dev.descriptorFetchRow_arrived hrun hacu hstate hcached hdue hroom)

end Sys2Proof.Machine

namespace Sys2Proof.Machine

/-! # Slot power units (chapter 16, Slot Power and Proof of Hold-Up), and commands that move a unit's state alone

Equations of the slots' moves, and the frame of the commands that write neither a register nor a table nor the Larder. -/

variable {d : Dev} {n : Nat}

/-! ## Presence and ramp (R521 to R523, R529) -/

theorem Dev.prsntSet_asserted (hoff : d.on SPU_STAT_PRSNT n = false) : d.prsntSet n true = (d.prsntNow n true).slotGo n := by
  simp [Dev.prsntSet, hoff]

theorem Dev.prsntSet_deasserted (hon : d.on SPU_STAT_PRSNT n = true) :
    d.prsntSet n false = ((d.prsntNow n false).put SPU_STAT_RETRY_CNT n 0).slotOff n ssOff := by
  simp [Dev.prsntSet, hon]

section
variable (hdie : d.powerDie = true)
include hdie

theorem Dev.prsntAssertRow_absent (hoff : d.on SPU_STAT_PRSNT n = false) :
    d.prsntAssertRow n = (d.prsntNow n true).slotGo n := (if_pos hdie).trans (Dev.prsntSet_asserted hoff)

theorem Dev.prsntDeassertRow_present (hon : d.on SPU_STAT_PRSNT n = true) :
    d.prsntDeassertRow n = ((d.prsntNow n false).put SPU_STAT_RETRY_CNT n 0).slotOff n ssOff :=
  (if_pos hdie).trans (Dev.prsntSet_deasserted hon)

theorem Dev.vinWindowRow_left {vin : Nat} (hout : (d.put SPU_MEAS_VIN n vin).vinOk n vin = false)
    (hpres : (d.put SPU_MEAS_VIN n vin).on SPU_STAT_PRSNT n = true) :
    d.vinWindowRow n vin = ((d.put SPU_MEAS_VIN n vin).setSlot n { (d.put SPU_MEAS_VIN n vin).slot n with insDone := false }).raise
      SPU_F_VIN_WINDOW n := by
  simp only [Dev.vinWindowRow, hdie, hout, hpres, Bool.not_true, Bool.or_self, Bool.false_eq_true, if_false]

theorem Dev.insertionTimerRow_present (hpres : d.on SPU_STAT_PRSNT n = true) :
    d.insertionTimerRow n = d.setSlot n { d.slot n with insDone := true } := if_pos (by simp [hdie, hpres])

theorem Dev.rampEntryRow_begun (helig : d.rampEligible n = true)
    (hfour : ((List.range 32).filter fun k => d.slotState k = ssRamp).length +
      ((List.range n).filter fun k => d.rampEligible k).length < 4) :
    d.rampEntryRow n = (d.put SPU_STAT_STATE n ssRamp).emit (.gate n true) :=
  if_pos (by rw [hdie, helig, decide_eq_true hfour]; rfl)

theorem Dev.rampDoneRow_up {vin vout : Nat} (hstate : ((d.put SPU_MEAS_VIN n vin).put SPU_MEAS_VOUT n vout).slotState n = ssRamp)
    (hvout : 9 * vin ≤ 10 * vout) :
    d.rampDoneRow n vin vout =
      ((((d.put SPU_MEAS_VIN n vin).put SPU_MEAS_VOUT n vout).put SPU_STAT_STATE n ssOn).put SPU_STAT_PG n 1).perstGo := by
  simp only [Dev.rampDoneRow, hdie, hstate, hvout, Bool.not_true, Bool.false_eq_true, if_false, decide_true, Bool.and_self, if_true]

theorem Dev.rampTimeoutRow_ramping (hstate : d.slotState n = ssRamp) :
    d.rampTimeoutRow n = d.slotTrip n 4 SPU_F_RAMP_FAULT := if_pos (by simp [hdie, hstate])

/-! ## Protection (R524 to R528) -/

theorem Dev.fastTripRow_trips {iout : Nat} (hgate : (d.put SPU_MEAS_IOUT n iout).gateOn n = true)
    (hover : 5 * (d.put SPU_MEAS_IOUT n iout).ilimMa n < 2 * iout) :
    d.fastTripRow n iout = (d.put SPU_MEAS_IOUT n iout).slotTrip n 3 SPU_F_FAST_TRIP := by
  simp only [Dev.fastTripRow, hdie, hgate, gt_iff_lt, hover, Bool.not_true, Bool.false_eq_true, if_false, decide_true,
    Bool.and_self, if_true]

theorem Dev.ovTripRow_trips {vin : Nat} (hgate : (d.put SPU_MEAS_VIN n vin).gateOn n = true)
    (hover : (d.put SPU_MEAS_VIN n vin).get SPU_VIN_OV n < vin) :
    d.ovTripRow n vin = (d.put SPU_MEAS_VIN n vin).slotTrip n 1 SPU_F_OV := by
  simp only [Dev.ovTripRow, hdie, hgate, gt_iff_lt, hover, Bool.not_true, Bool.false_eq_true, if_false, decide_true,
    Bool.and_self, if_true]

theorem Dev.ocTripRow_on (hstate : d.slotState n = ssOn) :
    d.ocTripRow n = (d.put SPU_MEAS_IOUT n (d.limitMa n)).slotTrip n 2 SPU_F_OC := if_pos (by simp [hdie, hstate])

theorem Dev.vinLowRow_low {vin : Nat} (hstate : (d.put SPU_MEAS_VIN n vin).slotState n = ssOn)
    (hlow : vin < (d.put SPU_MEAS_VIN n vin).get SPU_VIN_UV n) (hflush : (d.put SPU_MEAS_VIN n vin).flushing = false) :
    d.vinLowRow n vin = (d.put SPU_MEAS_VIN n vin).raise SPU_F_VIN_LOW n := by
  simp only [Dev.vinLowRow, hdie, hstate, hlow, hflush, Bool.not_true, Bool.not_false, Bool.false_eq_true, if_false,
    decide_true, Bool.and_self, if_true]

theorem Dev.coolDoneRow_cooled (hcool : (d.slot n).coolEnd ≠ 0) (hstate : d.slotState n = ssCool) :
    d.coolDoneRow n = ((d.setSlot n { d.slot n with coolEnd := 0 }).put SPU_STAT_STATE n ssWait).put SPU_STAT_RETRY_CNT n
      (d.get SPU_STAT_RETRY_CNT n + 1) := by
  have hkept : (d.setSlot n { d.slot n with coolEnd := 0 }).slotState n = ssCool := hstate
  simp only [Dev.coolDoneRow, hdie, hcool, hkept, Bool.not_true, decide_false, Bool.or_self, Bool.false_eq_true, if_false,
    if_true]
  rfl

theorem Dev.fetFailRow_shorted {vout : Nat} (hgate : (d.put SPU_MEAS_VOUT n vout).gateOn n = false) (hvout : 1000 < vout)
    (hnew : (d.put SPU_MEAS_VOUT n vout).on SPU_STAT_FET_FAIL n = false) :
    d.fetFailRow n vout = ((((((d.put SPU_MEAS_VOUT n vout).put SPU_STAT_FET_FAIL n 1).put SPU_STAT_EN_N n 1).put SPU_STAT_FAULT
      n 5).put SPU_STAT_STATE n ssLatched).raise SPU_F_FET_FAIL n).slotFault n := by
  simp only [Dev.fetFailRow, hdie, hgate, Nat.not_le.2 hvout, hnew, Bool.not_true, decide_false, Bool.or_self,
    Bool.false_eq_true, if_false]

theorem Dev.retryCountResetRow_on (hstate : d.slotState n = ssOn) :
    d.retryCountResetRow n = d.put SPU_STAT_RETRY_CNT n 0 := if_pos (by simp [hdie, hstate])

/-! ## SPU_CMD (R530) -/

theorem Dev.slotOnCmd_powered : d.slotOnCmd n = d.slotOnNow n := if_neg (by simp [hdie])

theorem Dev.slotOffCmd_powered : d.slotOffCmd n = (d.put SPU_STAT_CMD_ON n 0).slotOff n ssOff := if_neg (by simp [hdie])

theorem Dev.slotClearFet_low {vout : Nat} (hvout : vout < 1000) :
    d.slotClearFet n vout = ((d.put SPU_STAT_FET_FAIL n 0).put SPU_STAT_EN_N n 0).slotGo n :=
  if_neg (by simp [hdie, hvout])

end

/-- Settles O31: each command runs its row, and the row's equation under the hypotheses gives the device. -/
theorem slotCommands : Obligations.SlotCommands := by
  refine ⟨?assert, ?deassert, ?window, ?insertion, ?rampEntry, ?rampDone, ?rampTimeout, ?fastTrip, ?ov, ?oc, ?vinLow,
    ?coolDone, ?fetFail, ?retryReset, ?spuOn, ?spuOff, ?clearFet⟩
  case assert => exact fun s n hwf hdie hoff => run_eq hwf (Dev.prsntAssertRow_absent hdie hoff)
  case deassert => exact fun s n hwf hdie hon => run_eq hwf (Dev.prsntDeassertRow_present hdie hon)
  case window => exact fun s n vin hwf hdie hout hpres => run_eq hwf (Dev.vinWindowRow_left hdie hout hpres)
  case insertion => exact fun s n hwf hdie hpres => run_eq hwf (Dev.insertionTimerRow_present hdie hpres)
  case rampEntry => exact fun s n hwf hdie helig hfour => run_eq hwf (Dev.rampEntryRow_begun hdie helig hfour)
  case rampDone => exact fun s n vin vout hwf hdie hstate hvout => run_eq hwf (Dev.rampDoneRow_up hdie hstate hvout)
  case rampTimeout => exact fun s n hwf hdie hstate => run_eq hwf (Dev.rampTimeoutRow_ramping hdie hstate)
  case fastTrip => exact fun s n iout hwf hdie hgate hover => run_eq hwf (Dev.fastTripRow_trips hdie hgate hover)
  case ov => exact fun s n vin hwf hdie hgate hover => run_eq hwf (Dev.ovTripRow_trips hdie hgate hover)
  case oc => exact fun s n hwf hdie hstate => run_eq hwf (Dev.ocTripRow_on hdie hstate)
  case vinLow => exact fun s n vin hwf hdie hstate hlow hflush => run_eq hwf (Dev.vinLowRow_low hdie hstate hlow hflush)
  case coolDone => exact fun s n hwf hdie hcool hstate => run_eq hwf (Dev.coolDoneRow_cooled hdie hcool hstate)
  case fetFail => exact fun s n vout hwf hdie hgate hvout hnew => run_eq hwf (Dev.fetFailRow_shorted hdie hgate hvout hnew)
  case retryReset => exact fun s n hwf hdie hstate => run_eq hwf (Dev.retryCountResetRow_on hdie hstate)
  case spuOn => exact fun s path n hwf hreach hdie => run_access_eq hwf hreach (Dev.slotOnCmd_powered hdie)
  case spuOff => exact fun s path n hwf hreach hdie => run_access_eq hwf hreach (Dev.slotOffCmd_powered hdie)
  case clearFet => exact fun s path n vout hwf hreach hdie hvout => run_access_eq hwf hreach (Dev.slotClearFet_low hdie hvout)

/-! ## Commands that move a unit's state alone -/

/-- Registers, shadows, tables and the Larder stand. -/
structure Dev.MapsStand (d e : Dev) : Prop where
  regs : e.regs = d.regs
  shadow : e.shadow = d.shadow
  tabs : e.tabs = d.tabs
  tabSh : e.tabSh = d.tabSh
  ldr : e.ldr = d.ldr

theorem Dev.MapsStand.refl (d : Dev) : Dev.MapsStand d d := ⟨rfl, rfl, rfl, rfl, rfl⟩

/-- A move that is made only under a condition leaves the maps where the move itself does. -/
theorem Dev.MapsStand.ite {d e : Dev} {p : Prop} [Decidable p] (h : Dev.MapsStand d e) :
    Dev.MapsStand d (if p then e else d) := by
  split
  · exact h
  · exact .refl d

theorem run_mapsStand {ok : Bool} {row : String} {s : State} {e : Dev} (hok : ok = true) (h : Dev.MapsStand s.dev e) :
    ∃ t, run ok row s e = .next t ∧ t.pending = s.pending ∧ t.dev.regs = s.dev.regs ∧ t.dev.shadow = s.dev.shadow ∧
      t.dev.tabs = s.dev.tabs ∧ t.dev.tabSh = s.dev.tabSh ∧ t.dev.ldr = s.dev.ldr :=
  ⟨s.after e, run_of_ok row s e hok, rfl, h.regs, h.shadow, h.tabs, h.tabSh, h.ldr⟩

section
variable (d : Dev)

theorem Dev.insertionTimerRow_mapsStand (n : Nat) : Dev.MapsStand d (d.insertionTimerRow n) := .ite ⟨rfl, rfl, rfl, rfl, rfl⟩
theorem Dev.measureHoldReadyRow_mapsStand : Dev.MapsStand d d.measureHoldReadyRow := .ite ⟨rfl, rfl, rfl, rfl, rfl⟩
theorem Dev.measureSettledRow_mapsStand (v1 : Nat) : Dev.MapsStand d (d.measureSettledRow v1) := .ite ⟨rfl, rfl, rfl, rfl, rfl⟩

theorem Dev.measureLoadEndRow_mapsStand (charge loadUs : Nat) : Dev.MapsStand d (d.measureLoadEndRow charge loadUs) :=
  .ite ⟨rfl, rfl, rfl, rfl, rfl⟩

theorem Dev.waitBufferEntryFreeRow_mapsStand (h src : Nat) : Dev.MapsStand d (d.waitBufferEntryFreeRow h src) :=
  .ite ⟨rfl, rfl, rfl, rfl, rfl⟩

theorem Dev.drainReadRow_mapsStand (p fn : Nat) : Dev.MapsStand d (d.drainReadRow p fn) := by
  unfold Dev.drainReadRow
  split
  · exact .refl d
  · split <;> exact ⟨rfl, rfl, rfl, rfl, rfl⟩

end

/-- Settles O57: the commands write a slot, Proof's step, a home's list of stalled sources, or a port's open DRAIN. -/
theorem framesOfUnitState : Obligations.FramesOfUnitState := by
  refine ⟨?insertion, ?holdReady, ?settled, ?loadEnd, ?drainRead, ?waitFree⟩
  case insertion => exact fun s n hwf => run_mapsStand hwf (s.dev.insertionTimerRow_mapsStand n)
  case holdReady =>
    exact fun s hwf => run_mapsStand (row := "MEASURE_HOLD_READY") hwf s.dev.measureHoldReadyRow_mapsStand
  case settled =>
    exact fun s v1 hwf => run_mapsStand (row := "MEASURE_SETTLED") hwf (s.dev.measureSettledRow_mapsStand v1)
  case loadEnd =>
    exact fun s charge loadUs hwf =>
      run_mapsStand (row := "MEASURE_LOAD_END") hwf (s.dev.measureLoadEndRow_mapsStand charge loadUs)
  case drainRead => exact fun s p fn hwf => run_mapsStand hwf (s.dev.drainReadRow_mapsStand p fn)
  case waitFree => exact fun s h src hwf => run_mapsStand hwf (s.dev.waitBufferEntryFreeRow_mapsStand h src)

end Sys2Proof.Machine

namespace Sys2Proof.Machine

/-! # Proof of hold-up and the flush (chapter 16, Slot Power and Proof of Hold-Up)

Equations of the measurement, the credit grants and the flush. -/

variable {d : Dev}

/-! ## The measurement (R533, R534) -/

section
variable (hready : d.measReady = true)
include hready

theorem Dev.measStart_ready : d.measStart = d.measBegin := if_pos hready

/-- From a valid result the allowance is lowered first. -/
theorem Dev.measStart_valid (hvalid : (d.put PRF_STAT_STATE 0 2).on PRF_RESULT_VALID = true) :
    d.measStart = (({ d.put PRF_STAT_STATE 0 2 with prf := { d.prf with step := 1 } } : Dev).put PRF_ALLOW_TEST 0 1).dmaxUpdate :=
  (Dev.measStart_ready hready).trans (if_pos hvalid)

theorem Dev.measStart_invalid (hinvalid : (d.put PRF_STAT_STATE 0 2).on PRF_RESULT_VALID = false) :
    d.measStart = { d.put PRF_STAT_STATE 0 2 with prf := { d.prf with step := 2, huIso := true } } :=
  (Dev.measStart_ready hready).trans (if_neg (Bool.eq_false_iff.1 hinvalid))

theorem Dev.measurePeriodicRow_due (hperiod : d.get PRF_CFG1_PERIOD ≠ 0) : d.measurePeriodicRow = d.measBegin :=
  (if_neg hperiod).trans (Dev.measStart_ready hready)

end

theorem Dev.measureHoldReadyRow_within (hstep : d.prf.step = 1) (hheld : d.heldTotal ≤ 64 * d.get PRF_ALLOW_DMAX) :
    d.measureHoldReadyRow = { d with prf := { d.prf with step := 2, huIso := true } } := if_pos (by simp [hstep, hheld])

theorem Dev.measureDoneRow_failed {v2 : Nat} (hstep : d.prf.step = 5) (hfails : d.measFails v2 = true) :
    d.measureDoneRow v2 = ((d.put PRF_RESULT_VALID 0 0).measEnd).proofRaise PRF_F_MEAS_FAIL :=
  (if_neg (not_not.2 hstep)).trans (if_pos hfails)

theorem Dev.measureDoneRow_good {v2 : Nat} (hstep : d.prf.step = 5) (hgood : d.measFails v2 = false) :
    d.measureDoneRow v2 = (((d.putOpen PRF_RESULT_CAP 0 (d.prf.charge * 1000 / (d.prf.v1 - v2))).put PRF_RESULT_VALID 0
      1).measGood).measEnd :=
  (if_neg (not_not.2 hstep)).trans (if_neg (Bool.eq_false_iff.1 hgood))

/-! ## Credit (R537) -/

section
variable {sl : Nat} (hgated : d.on PRF_ALLOW_GATED = false) (hgrant : d.granted < d.get PRF_ALLOW_DMAX)
  (hslice : d.get PRF_CFG2_SLICE_MAX = 0 ∨ d.sccB sl + d.tryB sl < d.get PRF_CFG2_SLICE_MAX)
include hgated hgrant hslice

/-- The allowance and the slice's maximum leave room for one block more. -/
theorem Dev.blockRefused_false {n : Nat} (hroom : 64 * (n + 1) < 2 ^ 17) :
    (d.on PRF_ALLOW_GATED || decide (d.granted + 1 > d.get PRF_ALLOW_DMAX) ||
      (decide (d.get PRF_CFG2_SLICE_MAX ≠ 0) && decide (d.sccB sl + d.tryB sl + 1 > d.get PRF_CFG2_SLICE_MAX)) ||
      decide (64 * (n + 1) ≥ 2 ^ 17)) = false := by
  rw [hgated, decide_eq_false (by omega : ¬ d.granted + 1 > d.get PRF_ALLOW_DMAX), decide_eq_false (Nat.not_le.2 hroom),
    Bool.or_false, Bool.or_false, Bool.false_or, Bool.and_eq_false_iff, decide_eq_false_iff_not, decide_eq_false_iff_not]
  omega

theorem Dev.creditBlockRequestRow_scc (hroom : 64 * (d.sccB sl + 1) < 2 ^ 17) :
    d.creditBlockRequestRow sl true = (d.setBlocks sl true (d.sccB sl + 1)).put SCC_PERS_GATED sl 0 :=
  if_neg (Bool.eq_false_iff.1 (Dev.blockRefused_false hgated hgrant hslice hroom))

theorem Dev.creditBlockRequestRow_tray (hroom : 64 * (d.tryB sl + 1) < 2 ^ 17) :
    d.creditBlockRequestRow sl false =
      ((d.setBlocks sl false (d.tryB sl + 1)).put TRY_PERS_GATED sl 0).traySettle sl (8 * sl) :=
  if_neg (Bool.eq_false_iff.1 (Dev.blockRefused_false hgated hgrant hslice hroom))

end

/-! ## The flush (R539, R542, R543) -/

theorem Dev.pwrfailSet_edge (hoff : d.on CKR_INSTAT1_PWRFAIL = false) (hphase : d.rst.phase ≠ .starting) :
    d.pwrfailSet true = ((d.put CKR_INSTAT1_PWRFAIL 0 1).put PRF_STAT_PWRFAIL 0 1).flushStart 1 := by
  rw [Dev.pwrfailSet, if_neg (by simp [hoff])]
  exact if_pos (by simp [hphase])

theorem Dev.lowBankRow_low {vbank : Nat} (hlow : vbank < max (d.get PRF_CFG0_VLOW) (d.get PRF_CFG0_VMIN))
    (haux : d.rst.vddAux = true) : d.lowBankRow vbank = (d.proofRaise PRF_F_LOW_BANK).flushStart 2 :=
  if_pos (by rw [decide_eq_true hlow, haux]; rfl)

theorem Dev.flushWritesDoneRow_quiet (hphase : d.prf.phase = 1) (hquiet : d.flushStep.flushQuiet = true) :
    d.flushWritesDoneRow = d.flushStep.flushLogged.flushGpf 1 d.flushStep.flushLogged.memPorts :=
  (if_neg (not_not.2 hphase)).trans (if_neg (by simp [hquiet]))

theorem Dev.flushPhase1DoneRow_answered (hphase : d.prf.phase = 2) (hports : d.prf.waitPorts.isEmpty = true) :
    d.flushPhase1DoneRow = (({ d with prf := { d.prf with phase := 3 } } : Dev).flushGpf 2 d.prf.gpfPorts).answerHosts 1 true :=
  if_pos (by rw [decide_eq_true hphase, hports]; rfl)

theorem Dev.flushPhase2DoneRow_answered (hphase : d.prf.phase = 3) (hports : d.prf.waitPorts.isEmpty = true) :
    d.flushPhase2DoneRow = d.huOkLow true := if_pos (by rw [decide_eq_true hphase, hports]; rfl)

theorem Dev.flushGpfTimeoutRow_missed (hphase : d.prf.phase = 2 ∨ d.prf.phase = 3)
    (hmissed : d.prf.phase = 2 ∨ d.prf.waitPorts.isEmpty = false) :
    d.flushGpfTimeoutRow = ((d.put PRF_LOG_GPF_MISS 0 1).proofRaise PRF_F_FLUSH_INCOMPLETE).huOkLow false := by
  refine if_pos ?_
  rcases hphase with h2 | h3
  · simp [h2]
  · have hports := hmissed.resolve_left (by omega)
    rw [h3, hports]
    rfl

/-- Settles O32: each command runs its row, and the row's equation under the hypotheses gives the device. -/
theorem proofCommands : Obligations.ProofCommands := by
  refine ⟨?measureValid, ?measureInvalid, ?periodic, ?holdReady, ?settled, ?loadEnd, ?doneFailed, ?doneGood, ?dmax, ?blockScc,
    ?blockTray, ?pwrfail, ?lowBank, ?writesDone, ?phase1, ?phase2, ?timeout⟩
  case measureValid =>
    exact fun s path hwf hreach hready hvalid => run_access_eq hwf hreach (Dev.measStart_valid hready hvalid)
  case measureInvalid =>
    exact fun s path hwf hreach hready hinvalid => run_access_eq hwf hreach (Dev.measStart_invalid hready hinvalid)
  case periodic =>
    exact fun s hwf hperiod hready => run_eq (row := "MEASURE_PERIODIC") hwf (Dev.measurePeriodicRow_due hready hperiod)
  case holdReady =>
    exact fun s hwf hstep hheld => run_eq (row := "MEASURE_HOLD_READY") hwf (Dev.measureHoldReadyRow_within hstep hheld)
  case settled => exact fun s v1 hwf hstep => run_eq (row := "MEASURE_SETTLED") hwf (if_pos hstep)
  case loadEnd => exact fun s charge loadUs hwf hstep => run_eq (row := "MEASURE_LOAD_END") hwf (if_pos hstep)
  case doneFailed =>
    exact fun s v2 hwf hstep hfails => run_eq (row := "MEASURE_DONE") hwf (Dev.measureDoneRow_failed hstep hfails)
  case doneGood =>
    exact fun s v2 hwf hstep hgood => run_eq (row := "MEASURE_DONE") hwf (Dev.measureDoneRow_good hstep hgood)
  case dmax => exact fun s vstart hwf => run_eq hwf rfl
  case blockScc =>
    rintro s sl scc hwf hgated hgrant hslice rfl hroom
    exact run_eq hwf (Dev.creditBlockRequestRow_scc hgated hgrant hslice hroom)
  case blockTray =>
    rintro s sl scc hwf hgated hgrant hslice rfl hroom
    exact run_eq hwf (Dev.creditBlockRequestRow_tray hgated hgrant hslice hroom)
  case pwrfail => exact fun s hwf hoff hphase => run_eq (row := "PWRFAIL") hwf (Dev.pwrfailSet_edge hoff hphase)
  case lowBank => exact fun s vbank hwf hlow haux => run_eq hwf (Dev.lowBankRow_low hlow haux)
  case writesDone =>
    exact fun s hwf hphase hquiet => run_eq (row := "FLUSH_WRITES_DONE") hwf (Dev.flushWritesDoneRow_quiet hphase hquiet)
  case phase1 =>
    exact fun s hwf hphase hports => run_eq (row := "FLUSH_PHASE1_DONE") hwf (Dev.flushPhase1DoneRow_answered hphase hports)
  case phase2 =>
    exact fun s hwf hphase hports => run_eq (row := "FLUSH_PHASE2_DONE") hwf (Dev.flushPhase2DoneRow_answered hphase hports)
  case timeout =>
    exact fun s hwf hphase hmissed => run_eq (row := "FLUSH_GPF_TIMEOUT") hwf (Dev.flushGpfTimeoutRow_missed hphase hmissed)

end Sys2Proof.Machine

namespace Sys2Proof.Machine

/-! # Octold: start, sessions, keys and the commands of SEC_CMD (chapter 17, Octold)

Equations of the rows case by case; the values that the spec leaves to SPDM are log entries 50 to 55. -/

variable {d : Dev}

/-! ## Fuses and boot (R551, R554, R555, R559) -/

theorem Dev.fuseLoadRow_loaded {arc krev : Nat} {cust : Option Bytes} (hready : d.fuseReady = true) :
    d.fuseLoadRow true arc krev cust = d.fusesIn { arc := arc, krev := krev, cust := cust } := by
  simp [Dev.fuseLoadRow, hready]

theorem Dev.fuseLoadRow_error {arc krev : Nat} {cust : Option Bytes} (hready : d.fuseReady = true) :
    d.fuseLoadRow false arc krev cust = (d.put SEC_STAT_BOOT 0 3).raise SEC_F_FUSE_ERR 0 := by
  simp [Dev.fuseLoadRow, hready]

/-- The bank tried first boots where its image verifies, else the other bank is tried. -/
theorem Dev.bootVerifyRow_ready {imgA imgB : Option FlashImage} {f : FlashImage} (hready : d.bootReady = true)
    (himg : (if firstBank imgA imgB = 0 then imgA else imgB) = some f) :
    d.bootVerifyRow imgA imgB = (d.imageErr (some f)).elim (d.boot (firstBank imgA imgB) f) fun c =>
      d.bankFailed (firstBank imgA imgB) c (if 1 - firstBank imgA imgB = 0 then imgA else imgB) := by
  cases herr : d.imageErr (some f) <;> simp [Dev.bootVerifyRow, hready, himg, herr]

theorem Dev.bootBundleRow_held {bundle : Bytes} (hphase : d.rst.phase = .starting) (hkind : d.rst.kind = .cold)
    (hfw : d.on DEV_READY_FW_RUN = true) (hnew : d.sec.bootBundle = false) (hidle : d.on SEC_RESULT_BUSY = false)
    (hbundle : bundle.isEmpty = false) : d.bootBundleRow bundle = d.bundleStart bundle true := by
  simp only [Dev.bootBundleRow, hphase, hkind, hfw, hnew, hidle, hbundle, ne_eq, not_true_eq_false, decide_false,
    Bool.not_true, Bool.or_self, Bool.false_eq_true, if_false]

theorem Dev.managementComplexCrashRow_running (hfw : d.on DEV_READY_FW_RUN = true) :
    d.managementComplexCrashRow =
      { (d.put DEV_READY_FW_RUN 0 0).put SEC_STAT_BOOT 0 0 with sec := { d.sec with crashed := true } } :=
  if_neg (by simp [hfw])

/-- After a crash the bank's image is verified again, and firmware runs from it or the bank has failed. -/
theorem Dev.fwRestartRow_crashed {f : FlashImage} (hcrash : d.sec.crashed = true) :
    d.fwRestartRow (some f) = (((d.raise MGT_F_FW_RESTART 0).pathReset 4).imageErr (some f)).elim
      (((d.raise MGT_F_FW_RESTART 0).pathReset 4).fwRun (imageOf (d.sec.image.getD {}).bank f)) fun c =>
        ((d.raise MGT_F_FW_RESTART 0).pathReset 4).bankBad c := by
  cases herr : ((d.raise MGT_F_FW_RESTART 0).pathReset 4).imageErr (some f) <;> simp [Dev.fwRestartRow, hcrash, herr]

/-! ## SPDM and keys (R563, R566 to R568) -/

section
variable {src : Nat} {req : Spdm} (hfuses : d.on DEV_READY_FUSES_OK = true) (hsrc : src ≠ 0 ∨ d.ctl.pfUp = true)
include hfuses hsrc

theorem Dev.spdmRequestRow_served (hfree : d.sec.bundle = none) : d.spdmRequestRow src req = d.spdmServe src req := by
  rcases hsrc with h | h <;> simp [Dev.spdmRequestRow, hfuses, hfree, h]

theorem Dev.spdmRequestRow_waits (hbundle : d.sec.bundle.isSome = true) :
    d.spdmRequestRow src req = { d with sec := { d.sec with spdmWait := d.sec.spdmWait ++ [(src, req)] } } := by
  rcases hsrc with h | h <;> simp [Dev.spdmRequestRow, hfuses, hbundle, h]

end

/-- A port has one role. -/
theorem Dev.isDown_eq_false_of_isUp {p : Nat} (h : d.isUp p = true) : d.isDown p = false := by
  simp only [Dev.isUp, Bool.and_eq_true, decide_eq_true_eq] at h
  simp [Dev.isDown, h.2]

section
variable {p : Nat} {root : Bytes} (hactive : d.on PRT_STAT_DL_ACTIVE p = true)
include hactive

theorem Dev.ideKmRow_host (hup : d.isUp p = true) (hlink : d.linkHas p = true) : d.ideKmRow p true root = d.ideKeys p := by
  simp [Dev.ideKmRow, hup, hlink, hactive, Dev.isDown_eq_false_of_isUp hup]

variable (hdown : d.isDown p = true) (hreq : d.on PRT_CFG_IDE_REQ p = true) (hentropy : d.entropy = true)
include hdown hreq hentropy

theorem Dev.ideKmRow_peer (htrust : d.trusted root = true) : d.ideKmRow p true root = d.ideKeys p := by
  simp [Dev.ideKmRow, hdown, hreq, hentropy, hactive, htrust]

theorem Dev.ideKmRow_badPeer (hup : d.isUp p = false) : d.ideKmRow p false root = d.raise SEC_F_PEER_FAIL 0 := by
  simp [Dev.ideKmRow, hdown, hreq, hentropy, hactive, hup]

end

section
variable {k : Nat}

theorem Dev.kxStart_keywait (hstate : d.lkState k = lkKeywait) (hlower : d.lowerEnd k = true)
    (hidle : (d.kx k).running = false) (hentropy : d.entropy = true) :
    d.kxStart k = (d.setKx k { running := true }).relaySend k := by
  simp [Dev.kxStart, hstate, hlower, hidle, hentropy]

theorem Dev.dunrunKeyExchangeRow_started (habandoned : (d.kx k).abandoned = false) :
    d.dunrunKeyExchangeRow k = d.kxStart k := if_neg (Bool.eq_false_iff.1 habandoned)

theorem Dev.keyExchangeRestartRow_abandoned (habandoned : (d.kx k).abandoned = true) (hlower : d.lowerEnd k = true) :
    d.keyExchangeRestartRow k = (d.setKx k {}).kxStart k := if_pos (by rw [habandoned, hlower]; rfl)

theorem Dev.keyUsageLimitRow_reached (hdone : (d.kx k).done = true) (henc : d.on DRL_STAT_ENC k = true)
    (hentropy : d.entropy = true) : d.keyUsageLimitRow k = d.rekey k := if_pos (by rw [hdone, henc, hentropy]; rfl)

end

/-- Settles O33: each command runs its row, and the row's equation under the hypotheses gives the device. -/
theorem bootAndSessionCommands : Obligations.BootAndSessionCommands := by
  refine ⟨?fuses, ?fuseError, ?verify, ?bundle, ?crash, ?restart, ?trng, ?meas7, ?spdm, ?spdmWaits, ?ideHost, ?idePeer,
    ?ideBadPeer, ?exchange, ?exchangeTimeout, ?exchangeRestart, ?usageLimit⟩
  case fuses =>
    rintro s ok arc krev cust hwf hready rfl
    exact run_eq hwf (Dev.fuseLoadRow_loaded hready)
  case fuseError =>
    rintro s ok arc krev cust hwf hready rfl
    exact run_eq hwf (Dev.fuseLoadRow_error hready)
  case verify =>
    exact fun s imgA imgB f hwf hready himg => run_eq (row := "BOOT_VERIFY") hwf (Dev.bootVerifyRow_ready hready himg)
  case bundle =>
    exact fun s bundle hwf hphase hkind hfw hnew hidle hbundle =>
      run_eq (row := "BOOT_BUNDLE") hwf (Dev.bootBundleRow_held hphase hkind hfw hnew hidle hbundle)
  case crash =>
    exact fun s hwf hfw => run_eq (row := "MANAGEMENT_COMPLEX_CRASH") hwf (Dev.managementComplexCrashRow_running hfw)
  case restart =>
    rintro s img f hwf hcrash rfl
    exact run_eq (row := "FW_RESTART") hwf (Dev.fwRestartRow_crashed hcrash)
  case trng => exact fun s hwf hentropy => run_eq (row := "TRNG_FAIL") hwf (if_pos hentropy)
  case meas7 => exact fun s hwf => run_eq (row := "MEAS7_COMPUTE") hwf rfl
  case spdm =>
    exact fun s src req hwf hfuses hsrc hfree =>
      run_eq (row := "SPDM_REQUEST") hwf (Dev.spdmRequestRow_served hfuses hsrc hfree)
  case spdmWaits =>
    exact fun s src req hwf hfuses hsrc hbundle =>
      run_eq (row := "SPDM_REQUEST") hwf (Dev.spdmRequestRow_waits hfuses hsrc hbundle)
  case ideHost =>
    rintro s p good root hwf hup hlink hactive rfl
    exact run_eq hwf (Dev.ideKmRow_host hactive hup hlink)
  case idePeer =>
    rintro s p good root hwf hdown hreq hentropy hactive rfl htrust
    exact run_eq hwf (Dev.ideKmRow_peer hactive hdown hreq hentropy htrust)
  case ideBadPeer =>
    rintro s p good root hwf hup hdown hreq hactive hentropy rfl
    exact run_eq hwf (Dev.ideKmRow_badPeer hactive hdown hreq hentropy hup)
  case exchange =>
    exact fun s k hwf habandoned hstate hlower hidle hentropy => run_eq hwf
      ((Dev.dunrunKeyExchangeRow_started habandoned).trans (Dev.kxStart_keywait hstate hlower hidle hentropy))
  case exchangeTimeout => exact fun s k hwf hrunning => run_eq hwf (if_pos hrunning)
  case exchangeRestart =>
    exact fun s k hwf habandoned hlower => run_eq hwf (Dev.keyExchangeRestartRow_abandoned habandoned hlower)
  case usageLimit =>
    exact fun s k hwf hdone henc hentropy => run_eq hwf (Dev.keyUsageLimitRow_reached hdone henc hentropy)

/-! ## SEC_CMD (R553, R556, R565 to R570) -/

/-- A command of SEC_CMD that reaches the page while none is in progress is its own effect. -/
theorem run_secAccess_eq {ok : Bool} {row : String} {s : State} {path : Nat} {f : Dev → Dev} {e : Dev} (hok : ok = true)
    (hreach : s.dev.Reaches path ⟨.sec, 0⟩) (hidle : s.dev.on SEC_RESULT_BUSY = false) (he : f s.dev = e) :
    run ok row s (s.dev.secAccess path f) = .next (s.after e) :=
  run_access_eq hok hreach ((if_neg (Bool.eq_false_iff.1 hidle)).trans he)

theorem Dev.advanceArc_burned {x : Image} (himg : d.sec.image = some x) (hsvn : d.arc < x.svn)
    (hdbg : d.on SEC_STAT_DBG = false) :
    d.advanceArc true = (({ d with sec := { d.sec with fuses := some { (d.sec.fuses.getD {}) with arc := min 64 x.svn } } } : Dev).put
      SEC_STAT_ARC 0 (min 64 x.svn)).secDone rcOk := by
  simp [Dev.advanceArc, himg, Nat.not_le.2 hsvn, hdbg]

theorem Dev.dbgChallenge_entropy (hentropy : d.entropy = true) : d.dbgChallenge = d.challengeNow := if_neg (by simp [hentropy])

/-- Without a customer key Brodevo's signature alone opens the debug port. -/
theorem Dev.dbgUnlock_noCustomer {c : Bytes} (hchal : d.sec.challenge = some c) (hcust : d.custKey = none) :
    d.dbgUnlock = if Config.brodevoOk c (sub d.winBytes 0 96) = true then
        (({ d with sec := { d.sec with challenge := none } } : Dev).dbgOpen).secDone rcOk
      else ({ d with sec := { d.sec with challenge := none } } : Dev).secDone rcBadSig := by
  have hnone : ({ d with sec := { d.sec with challenge := none } } : Dev).custKey = none := hcust
  simp only [Dev.dbgUnlock, hchal, hnone, Option.isNone_none, Bool.true_or, Bool.and_true]

theorem Dev.rcvWrite_recovery {bank : Nat} (hboot : d.get SEC_STAT_BOOT = 2) (hbank : bank < 2) :
    d.rcvWrite bank = (d.emit (.flashWrite bank (d.get SEC_WIN_CTL_OFFSET) d.winBytes)).secDone rcOk :=
  if_neg (by simp [hboot, hbank])

theorem Dev.rcvBoot_recovery {bank : Nat} {f : FlashImage} (hboot : d.get SEC_STAT_BOOT = 2) (hbank : bank < 2) :
    d.rcvBoot bank (some f) = (d.imageErr (some f)).elim ((d.boot bank f).secDone rcOk) fun c => d.secDone c := by
  have htaken : ¬ ((decide (d.get SEC_STAT_BOOT ≠ 2) || decide (bank ≥ 2)) = true) := by simp [hboot, hbank]
  unfold Dev.rcvBoot
  rw [if_neg htaken]
  cases d.imageErr (some f) <;> rfl

theorem Dev.relayIn_keywait {k : Nat} (hentropy : d.entropy = true) (hstate : d.lkState k = lkKeywait)
    (hend : (d.kx k).running = true ∨ d.lowerEnd k = false) : d.relayIn k = (d.relayTake k).secDone rcOk := by
  rcases hend with h | h <;> simp [Dev.relayIn, hentropy, hstate, h]

theorem Dev.anchorSet_wellFormed {i : Nat} (hi : i < 8) (hlen : d.winBytes.length = 48) :
    d.anchorSet i = ({ d with sec := { d.sec with anchors := SMap.set [] d.sec.anchors i d.winBytes } } : Dev).secDone rcOk := by
  simp [Dev.anchorSet, Nat.not_le.2 hi, hlen]

theorem Dev.drlRekey_done {k : Nat} (hk : k < 32) (hdone : (d.kx k).done = true) (hentropy : d.entropy = true) :
    d.drlRekey k = (d.rekey k).secDone rcOk := by
  simp [Dev.drlRekey, Nat.not_le.2 hk, hdone, hentropy]

/-- Settles O34: each command is taken by SEC_CMD, and the command's equation under the hypotheses gives the device. -/
theorem securityCommands : Obligations.SecurityCommands := by
  refine ⟨?advance, ?challenge, ?unlock, ?bundle, ?rcvWrite, ?rcvBoot, ?relayIn, ?relayOut, ?anchor, ?rekey⟩
  case advance =>
    rintro s path burned x hwf hreach hidle himg hsvn hdbg rfl
    exact run_secAccess_eq hwf hreach hidle (Dev.advanceArc_burned himg hsvn hdbg)
  case challenge =>
    exact fun s path hwf hreach hidle hentropy => run_secAccess_eq hwf hreach hidle (Dev.dbgChallenge_entropy hentropy)
  case unlock =>
    exact fun s path c hwf hreach hidle hchal hcust =>
      run_secAccess_eq hwf hreach hidle (Dev.dbgUnlock_noCustomer hchal hcust)
  case bundle => exact fun s path hwf hreach hidle => run_secAccess_eq hwf hreach hidle rfl
  case rcvWrite =>
    exact fun s path bank hwf hreach hidle hboot hbank =>
      run_secAccess_eq hwf hreach hidle (Dev.rcvWrite_recovery hboot hbank)
  case rcvBoot =>
    rintro s path bank img f hwf hreach hidle hboot hbank rfl
    exact run_secAccess_eq hwf hreach hidle (Dev.rcvBoot_recovery hboot hbank)
  case relayIn =>
    exact fun s path k hwf hreach hidle hentropy hstate hend =>
      run_secAccess_eq hwf hreach hidle (Dev.relayIn_keywait hentropy hstate hend)
  case relayOut => exact fun s path hwf hreach => run_access_eq hwf hreach rfl
  case anchor =>
    exact fun s path i hwf hreach hidle hi hlen => run_secAccess_eq hwf hreach hidle (Dev.anchorSet_wellFormed hi hlen)
  case rekey =>
    exact fun s path k hwf hreach hidle hk hdone hentropy =>
      run_secAccess_eq hwf hreach hidle (Dev.drlRekey_done hk hdone hentropy)

end Sys2Proof.Machine

namespace Sys2Proof.Machine

/-! # Resets (chapter 18, Resets)

How each reset begins, proceeds and ends; the conventions are log entries 62 to 66. -/

variable {d : Dev}

/-! ## DEV_RST (R574) -/

/-- DEV_RST with its KEY is the request it makes. -/
theorem run_devRst_eq {ok : Bool} {row : String} {s : State} {path key : Nat} {f : Dev → Dev} {e : Dev} (hok : ok = true)
    (hreach : s.dev.Reaches path ⟨.dev, 0⟩) (hkey : key = 0x5A) (he : f s.dev = e) :
    run ok row s (s.dev.devRst path key f) = .next (s.after e) :=
  run_access_eq hok hreach ((if_neg (not_not.2 hkey)).trans he)

theorem Dev.canQuiesce_iff : d.canQuiesce = true ↔ d.stopped = false ∧ d.flushing = false ∧ d.on FAG_STAT_HALTED = false ∧
    d.rst.phase = .running ∧ d.flushed = false := by
  simp only [Dev.canQuiesce, Dev.stopped, Bool.and_eq_true, Bool.not_eq_true', decide_eq_true_eq, Bool.or_eq_false_iff,
    and_assoc]

/-- A running device with nothing in the way begins the quiesce; Slice, Domain and Port resets in progress escalate (R577). -/
theorem Dev.bigReq_quiesces (h : d.canQuiesce = true) (sc : Scope) (trigger path : Nat) :
    d.bigReq sc trigger path = d.quiesceStart { scope := sc, trigger := trigger, path := path }
      (!d.rst.active.isEmpty || (List.range 128).any fun p => (d.port p).resetting) := by
  obtain ⟨hstop, hflush, hhalt, hphase, hflushed⟩ := Dev.canQuiesce_iff.1 h
  simp only [Dev.bigReq, hstop, hflush, hhalt, hphase, hflushed, Bool.false_eq_true, if_false]

section
variable (hflush : d.flushing = false) (hflushed : d.flushed = false)
include hflush hflushed

theorem Dev.sliceReq_begun {target path : Nat} (htarget : target < 16) (hbig : d.bigReset = false)
    (hnew : d.rst.active.any (fun r => r.scope = .slice && r.target = target) = false) :
    d.sliceReq target path =
      (d.rstLog 3 4 target path ((d.slicePorts target).any fun p => (d.port p).resetting)).sliceBegin target path := by
  rw [Dev.sliceReq, if_neg (Nat.not_le.2 htarget), hflush, hflushed, hbig, hnew]
  rfl

theorem Dev.domainReq_begun {target path : Nat} (htarget : target ≠ 0x3FF) (hslot : (d.domainSlot target).isNone = false)
    (hbig : d.bigReset = false) (hnew : d.domainRst target = false) :
    d.domainReq target path = (d.rstLog 4 4 target path false).domainBegin target path := by
  rw [Dev.domainReq, decide_eq_false htarget, hslot, hflush, hflushed, hbig, hnew]
  rfl

theorem Dev.portReq_begun {target path : Nat} (htarget : target < 128) (havail : d.portAvail target = true)
    (hcontained : d.portContained target = false) :
    d.portReq target path = ((d.rstLog 5 4 target path false).portResetStart target).portResetEnd target := by
  rw [Dev.portReq, if_neg (by simp [htarget, havail]), hflush, hflushed, hcontained]
  rfl

end

/-! ## Cold resets (R573, R581) -/

theorem Dev.pwrGoodRiseRow_powered (hgood : d.rst.pwrGood = false) (haux : d.rst.vddAux = true) :
    d.pwrGoodRiseRow = d.coldEnter (if d.rst.coldPin then .coldHeld else .starting) true d.rst.coldPin 1 :=
  if_neg (by simp [hgood, haux])

theorem Dev.coldRstNRow_entered (hpin : d.rst.coldPin = false) (hgood : d.rst.pwrGood = true) (hflush : d.flushing = false) :
    d.coldRstNRow = d.coldPinNow.coldEnter .coldHeld true true 2 := by
  have hgood' : d.coldPinNow.rst.pwrGood = true := hgood
  have hflush' : d.coldPinNow.flushing = false := hflush
  rw [Dev.coldRstNRow, if_neg (by simp [hpin])]
  dsimp only
  rw [if_neg (by simp [hgood']), if_neg (by simp [hflush'])]

theorem Dev.coldRstNReleaseRow_started (hpin : d.rst.coldPin = true) (hflush : d.flushing = false)
    (hgood : d.rst.pwrGood = true) : d.coldRstNReleaseRow = d.coldEnter .starting true false 2 := by
  rw [Dev.coldRstNReleaseRow, if_neg (by simp [hpin]), if_neg (by simp [hflush, hgood])]

/-! ## Warm and Control resets (R577 to R579) -/

theorem Dev.warmRstNRow_quiesces (hpin : d.on CKR_INSTAT1_WARM_RST = false) (hoff : d.rst.phase ≠ .off)
    (hheld : d.rst.phase ≠ .coldHeld) (h : (d.put CKR_INSTAT1_WARM_RST 0 1).canQuiesce = true) :
    d.warmRstNRow = (d.put CKR_INSTAT1_WARM_RST 0 1).quiesceStart { scope := .warm, trigger := 3, path := 0 }
      (!d.rst.active.isEmpty || (List.range 128).any fun p => (d.port p).resetting) := by
  rw [Dev.warmRstNRow, if_neg (by simp [hpin, hoff, hheld])]
  exact Dev.bigReq_quiesces h .warm 3 0

section
variable {r : RstReq} (hpend : d.rst.pend = some r) (hphase : d.rst.phase = .quiesce) (hflush : d.flushing = false)
  (hstop : d.stopped = false) (hhalt : d.on FAG_STAT_HALTED = false)
include hpend hphase hflush hstop hhalt

/-- The quiesce has ended, so the reset is entered (R579). -/
theorem Dev.resetEntryRow_entered (hstep : r.step ≠ 2) (hdone : d.quiesceMore.quiesceDone = true)
    (hpin : d.quiesceMore.warmHeld r = false) : d.resetEntryRow = d.quiesceMore.rstEnter r 0 := by
  simp only [Dev.resetEntryRow, hpend, hphase, hflush, hstop, hhalt, hstep, hdone, hpin, ne_eq, not_true_eq_false,
    decide_false, Bool.or_self, Bool.not_false, Bool.and_self, Bool.false_eq_true, if_false, if_true]

theorem Dev.quiesceTimeoutRow_entered (hpin : d.warmHeld r = false) : d.quiesceTimeoutRow = d.rstEnter r d.abandonedNow := by
  simp only [Dev.quiesceTimeoutRow, hphase, hpend, hflush, hstop, hhalt, hpin, Bool.or_self, Bool.false_eq_true, if_false]

end

/-- A Port reset's recall is over once no line of its agent is recalled (R586). -/
theorem Dev.portResetRecallDoneRow_over {p : Nat} (hreset : (d.port p).resetting = true)
    (hrecall : (d.port p).recallOnly = true)
    (hquiet : (match d.portAgent p with | some a => d.recalling a | none => false) = false) :
    d.portResetRecallDoneRow p = (d.portRecallOver p).rstPoll :=
  if_pos (by rw [hreset, hrecall]; exact congrArg Bool.not hquiet)

/-- Settles O14: each command runs its row, and the row's equation under the hypotheses gives the device. -/
theorem resetCommands : Obligations.ResetCommands := by
  refine ⟨?warm, ?control, ?slice, ?domain, ?port, ?powerRise, ?powerFall, ?cold, ?coldRelease, ?warmPin, ?entry, ?timeout,
    ?recallDone, ?fabricReady⟩
  case warm | control => exact fun s path key hwf hreach hkey hcan => run_devRst_eq hwf hreach hkey (Dev.bigReq_quiesces hcan ..)
  case slice =>
    exact fun s path key target hwf hreach hkey htarget hflush hflushed hbig hnew =>
      run_devRst_eq hwf hreach hkey (Dev.sliceReq_begun hflush hflushed htarget hbig hnew)
  case domain =>
    exact fun s path key target hwf hreach hkey htarget hslot hflush hflushed hbig hnew =>
      run_devRst_eq hwf hreach hkey (Dev.domainReq_begun hflush hflushed htarget hslot hbig hnew)
  case port =>
    exact fun s path key target hwf hreach hkey htarget havail hflush hflushed hcontained =>
      run_devRst_eq hwf hreach hkey (Dev.portReq_begun hflush hflushed htarget havail hcontained)
  case powerRise => exact fun s hwf hgood haux => run_eq (row := "PWR_GOOD_RISE") hwf (Dev.pwrGoodRiseRow_powered hgood haux)
  case powerFall => exact fun s hwf hgood => run_eq (row := "PWR_GOOD_FALL") hwf (if_pos hgood)
  case cold =>
    exact fun s hwf hpin hgood hflush => run_eq (row := "COLD_RST_N") hwf (Dev.coldRstNRow_entered hpin hgood hflush)
  case coldRelease =>
    exact fun s hwf hpin hflush hgood =>
      run_eq (row := "COLD_RST_N_RELEASE") hwf (Dev.coldRstNReleaseRow_started hpin hflush hgood)
  case warmPin =>
    exact fun s hwf hpin hoff hheld hcan => run_eq (row := "WARM_RST_N") hwf (Dev.warmRstNRow_quiesces hpin hoff hheld hcan)
  case entry =>
    exact fun s r hwf hpend hphase hflush hstop hhalt hstep hdone hpin =>
      run_eq (row := "RESET_ENTRY") hwf (Dev.resetEntryRow_entered hpend hphase hflush hstop hhalt hstep hdone hpin)
  case timeout =>
    exact fun s r hwf hphase hpend hflush hstop hhalt hpin =>
      run_eq (row := "QUIESCE_TIMEOUT") hwf (Dev.quiesceTimeoutRow_entered hpend hphase hflush hstop hhalt hpin)
  case recallDone =>
    exact fun s p hwf hreset hrecall hquiet => run_eq hwf (Dev.portResetRecallDoneRow_over hreset hrecall hquiet)
  case fabricReady => exact fun s hwf hok => run_eq (row := "FABRIC_READY_RISE") hwf (if_neg (by simp [hok]))

end Sys2Proof.Machine

namespace Sys2Proof.Machine

/-! # The fault block and its counters (chapter 19, Fault Handling; log entry 23) -/

variable {d : Dev}

section
variable {g : Pg} {v m : W64} (hunlocked : d.allLocked = false)
include hunlocked

/-- A source the block raises keeps the word as written (R617, log entry 23). -/
theorem Dev.fltInjectSet_raisable
    (h : g.blk.checkers.contains ((d.fltInjectWord g v m).get (FLT_INJECT_SOURCE g.blk) g.inst) = true) :
    d.fltInjectSet g v m = d.fltInjectWord g v m := by
  simp only [Dev.fltInjectSet, hunlocked, h, Bool.false_eq_true, if_false, if_true]

/-- A source the block does not raise leaves ARM clear (R617, log entry 23). -/
theorem Dev.fltInjectSet_notRaisable
    (h : g.blk.checkers.contains ((d.fltInjectWord g v m).get (FLT_INJECT_SOURCE g.blk) g.inst) = false) :
    d.fltInjectSet g v m = (d.fltInjectWord g v m).put (FLT_INJECT_ARM g.blk) g.inst 0 := by
  simp only [Dev.fltInjectSet, hunlocked, h, Bool.false_eq_true, if_false]

end

/-- Settles O13: an access through a found page is its effect; the firmware's rows stand as written. -/
theorem faultBlockCommands : Obligations.FaultBlockCommands := by
  refine ⟨?statusClear, ?injectRaisable, ?injectOther, ?countClear, ?stall, ?epochWait, ?select, ?zero⟩
  case statusClear => exact fun s path pg mask g hwf hfinds => run_accessPg_eq hwf hfinds rfl
  case injectRaisable =>
    exact fun s path pg val g hwf hfinds hunlocked h => run_accessPg_eq hwf hfinds (Dev.fltInjectSet_raisable hunlocked h)
  case injectOther =>
    exact fun s path pg val g hwf hfinds hunlocked h => run_accessPg_eq hwf hfinds (Dev.fltInjectSet_notRaisable hunlocked h)
  case countClear => exact fun s path pg g hwf hfinds => run_accessPg_eq hwf hfinds rfl
  case stall => exact fun s hwf => run_eq (row := "FW_STALL") hwf rfl
  case epochWait => exact fun s hwf hold => run_eq (row := "EPOCH_WAIT") hwf (if_neg hold)
  case select => exact fun s path pg j val g hwf hfinds => run_accessPg_eq hwf hfinds rfl
  case zero => exact fun s path pg i g hwf hfinds => run_accessPg_eq hwf hfinds rfl

/-! # Clocks, inputs, temperatures and supplies (chapters 18 and 21; log entries 37, 38 and 64) -/

section
variable (hoff : d.rst.phase ≠ .off) (hheld : d.rst.phase ≠ .coldHeld)
include hoff hheld

theorem Dev.notOffNorHeld : (d.rst.phase = .off || d.rst.phase = .coldHeld) = false := by simp [hoff, hheld]

theorem Dev.clockLossRow_running (refclk : Bool) :
    d.clockLossRow refclk = ((({ d with rst := { d.rst with clockLost := true } } : Dev).put
      (if refclk then CKR_STAT_REFCLK_OK else CKR_STAT_LEVAIN_LOCK) 0 0).clockHalt (b2n refclk)).raise
        (if refclk then CKR_F_REFCLK_LOSS else CKR_F_LEVAIN_UNLOCK) 0 := by
  simp only [Dev.clockLossRow, Dev.notOffNorHeld hoff hheld, Bool.false_eq_true, if_false]

end

/-! ## Conditioned inputs (R595): the inputs are numbered PRSNT, PERST, GPIO, PWRFAIL, SNAP_IN and WARM_RST -/

section
variable {i : Nat} {level : Bool} (haux : d.rst.vddAux = true)
include haux

theorem Dev.inputDebounceRow_prsnt (hi : i < 32) : d.inputDebounceRow i level = d.prsntSet i level := by
  simp [Dev.inputDebounceRow, haux, hi]

variable (hoff : d.rst.phase ≠ .off) (hheld : d.rst.phase ≠ .coldHeld)
include hoff hheld

theorem Dev.inputDebounceRow_perst (hge : 32 ≤ i) (hi : i < 48) : d.inputDebounceRow i level = d.perstIn (i - 32) level := by
  simp [Dev.inputDebounceRow, haux, hoff, hheld, Nat.not_lt.2 hge, hi]

theorem Dev.inputDebounceRow_gpio (hge : 48 ≤ i) (hi : i < 64) : d.inputDebounceRow i level = d.gpioSet (i - 48) level := by
  simp [Dev.inputDebounceRow, haux, hoff, hheld, show ¬ i < 32 by omega, Nat.not_lt.2 hge, hi]

theorem Dev.inputDebounceRow_pwrfail : d.inputDebounceRow 64 level = d.pwrfailSet level := by
  simp [Dev.inputDebounceRow, haux, hoff, hheld]

theorem Dev.inputDebounceRow_snapIn : d.inputDebounceRow 65 level = d.snapInSet level := by
  simp [Dev.inputDebounceRow, haux, hoff, hheld]

theorem Dev.inputDebounceRow_warmRelease : d.inputDebounceRow 66 false = d.put CKR_INSTAT1_WARM_RST 0 0 := by
  simp [Dev.inputDebounceRow, haux, hoff, hheld]

end

theorem Dev.chatterRow_flags {i count : Nat} (hon : d.get CKR_INCFG_CH_MAX 0 i ≠ 0) (hmax : d.get CKR_INCFG_CH_MAX 0 i < count) :
    d.chatterRow i count = (d.put (if i < 64 then CKR_CHAT0_FLAG else CKR_CHAT1_FLAG) 0
      (Nat.lor (d.get (if i < 64 then CKR_CHAT0_FLAG else CKR_CHAT1_FLAG)) (2 ^ (i % 64)))).raise CKR_F_CHATTER 0 :=
  if_neg (by simp [hon, hmax])

/-! ## Supplies and temperatures (R657, R660) -/

/-- A target on the grid, in the range and at most 10 mV from the last acknowledged one is sent (R657, log entry 38). -/
theorem Dev.avsUpdateRow_sent {target : Nat} {ack : Bool} (hfuses : d.on DEV_READY_FUSES_OK = true)
    (hclock : d.rst.clockLost = false) (htrip : d.rst.thermTrip = false) (hlow : 720 ≤ target) (hhigh : target ≤ 800)
    (hgrid : target % 5 = 0) (hup : target ≤ d.elec.avsAck + 10) (hdown : d.elec.avsAck ≤ target + 10) :
    d.avsUpdateRow target ack = if ack then (d.emit (.avs target)).setAvs target else d.emit (.avs target) := by
  have hrange : ¬ (target < 720 || target > 800 || target % 5 ≠ 0 || target > d.elec.avsAck + 10 ||
      d.elec.avsAck > target + 10) = true := by
    simp [hgrid, hlow, hhigh, hup, hdown]
  simp only [Dev.avsUpdateRow, hfuses, hclock, htrip, Bool.not_true, Bool.or_self, Bool.false_eq_true, if_false, if_neg hrange]

theorem Dev.junctionSensorReadRow_cool {temps : List Int} (hcool : (temps.take 64).any (· ≥ 115) = false) :
    d.junctionSensorReadRow temps = d.setTemps temps :=
  if_neg (by simp only [hcool, Bool.false_and, Bool.false_eq_true, not_false_eq_true])

/-- At 115 degrees a device not tripped before trips (R660). -/
theorem Dev.junctionSensorReadRow_trips {temps : List Int} (hhot : (temps.take 64).any (· ≥ 115) = true)
    (htrip : d.rst.thermTrip = false) : d.junctionSensorReadRow temps = (d.setTemps temps).thermalTrip :=
  if_pos (by simp only [hhot, Dev.setTemps, htrip, Bool.not_false, Bool.and_self])

/-- Settles O15: the row's branch under each range of inputs, phase and target gives the device. -/
theorem pinAndSupplyCommands : Obligations.PinAndSupplyCommands := by
  refine ⟨?clock, ?prsnt, ?perst, ?gpio, ?pwrfail, ?snapIn, ?warmRelease, ?chatter, ?auxLoss, ?auxRise, ?avs, ?cool, ?hot⟩
  case clock => exact fun s refclk hwf hoff hheld => run_eq (row := "CLOCK_LOSS") hwf (Dev.clockLossRow_running hoff hheld refclk)
  case prsnt => exact fun s i level hwf haux hi => run_eq hwf (Dev.inputDebounceRow_prsnt haux hi)
  case perst =>
    exact fun s i level hwf haux hoff hheld hge hi => run_eq hwf (Dev.inputDebounceRow_perst haux hoff hheld hge hi)
  case gpio => exact fun s i level hwf haux hoff hheld hge hi => run_eq hwf (Dev.inputDebounceRow_gpio haux hoff hheld hge hi)
  case pwrfail =>
    rintro s _ level hwf haux hoff hheld rfl
    exact run_eq (row := "INPUT_DEBOUNCE") hwf (Dev.inputDebounceRow_pwrfail haux hoff hheld)
  case snapIn =>
    rintro s _ level hwf haux hoff hheld rfl
    exact run_eq (row := "INPUT_DEBOUNCE") hwf (Dev.inputDebounceRow_snapIn haux hoff hheld)
  case warmRelease =>
    rintro s _ _ hwf haux hoff hheld rfl rfl
    exact run_eq (row := "INPUT_DEBOUNCE") hwf (Dev.inputDebounceRow_warmRelease haux hoff hheld)
  case chatter => exact fun s i count hwf hon hmax => run_eq hwf (Dev.chatterRow_flags hon hmax)
  case auxLoss => exact fun s hwf => run_eq (row := "VDD_AUX_LOSS") hwf rfl
  case auxRise => exact fun s hwf haux => run_eq (row := "VDD_AUX_RISE") hwf (if_neg (by simp [haux]))
  case avs =>
    exact fun s target ack hwf hfuses hclock htrip hlow hhigh hgrid hup hdown =>
      run_eq (row := "AVS_UPDATE") hwf (Dev.avsUpdateRow_sent hfuses hclock htrip hlow hhigh hgrid hup hdown)
  case cool => exact fun s temps hwf hcool => run_eq (row := "JUNCTION_SENSOR_READ") hwf (Dev.junctionSensorReadRow_cool hcool)
  case hot =>
    exact fun s temps hwf hhot htrip =>
      run_eq (row := "JUNCTION_SENSOR_READ") hwf (Dev.junctionSensorReadRow_trips hhot htrip)

end Sys2Proof.Machine

namespace Sys2Proof.Machine

/-! # Time and Crumb (chapter 20, Observability; log entries 36 and 39) -/

variable {d : Dev}

/-- With no request outstanding the timer sends one and the count of missed answers starts again (R629). -/
theorem Dev.ptmTimerRow_sent (hrole : d.get TMB_CFG_ROLE = 3) (hhalt : d.halted = false) (hidle : d.obs.clk.ptmT1 = none) :
    d.ptmTimerRow =
      ({ d with obs := { d.obs with clk := { d.obs.clk with ptmT1 := some d.fab, ptmMissed := 0 } } } : Dev).emit
        (.ptmReq (d.get TMB_CFG_PTM_PORT)) := by
  have hmissed : ¬ 0 ≥ 3 := by decide
  rw [Dev.ptmTimerRow, if_neg (by simp [hrole, hhalt])]
  simp only [hidle, Option.isSome_none, Bool.false_eq_true, if_false, hmissed, decide_false]
  rfl

theorem Dev.ptmRequestRow_answered {p : Nat} (hdown : d.isDown p = true) (hactive : d.on PRT_STAT_DL_ACTIVE p = true)
    (hhalt : d.halted = false) : d.ptmRequestRow p = d.emit (.ptmResp p (ticksNs d.fab)) :=
  if_neg (by simp [hdown, hactive, hhalt])

/-- The answer to the request outstanding steers the servo by half the difference of the two ways (R630). -/
theorem Dev.ptmResponseRow_served {t1 : Nat} (t2 t3 t4 : Nat) (hsent : d.obs.clk.ptmT1 = some t1)
    (hrole : d.get TMB_CFG_ROLE = 3) :
    d.ptmResponseRow t2 t3 t4 =
      ({ d with obs := { d.obs with clk := { d.obs.clk with ptmT1 := none, ptmMissed := 0 } } } : Dev).servo
        (((t2 : Int) - t1 - ((t4 : Int) - t3)) / 2) := by
  simp only [Dev.ptmResponseRow, hsent]
  exact if_neg (not_not.2 hrole)

/-- A match at a time not yet listed beyond four edges drops no trigger (R633, R631). -/
theorem Dev.crumbTimeMatchRow_added {d2 : Dev} (hon : d.on CRB_CFG_EN_TIME = true)
    (hadd : (d.put CRB_CFG_EN_TIME 0 0).addEdge (coreEdge (d.get CRB_MATCH_TICKS)) 4 (d.get DEV_FABRIC_DEVID) 0 none =
      (false, d2)) : d.crumbTimeMatchRow = d2 := by
  simp only [Dev.crumbTimeMatchRow, hon, hadd, Bool.not_true, Bool.false_eq_true, if_false]

theorem Dev.crumbLatchRow_takesFirst {e : Edge} {rest : List Edge} (h : d.obs.crumb.edges = e :: rest) :
    d.crumbLatchRow = (d.crumbRest rest).crumbTake e := by
  simp only [Dev.crumbLatchRow, h]

/-- Settles O35: an access by an open path is its effect; the other rows take the branch their hypotheses name. -/
theorem timeAndCrumbCommands : Obligations.TimeAndCrumbCommands := by
  refine ⟨?set, ?timer, ?request, ?response, ?fire, ?clear, ?timeMatch, ?latch⟩
  case set => exact fun s path v hwf hreach => run_access_eq hwf hreach rfl
  case timer => exact fun s hwf hrole hhalt hidle => run_eq (row := "PTM_TIMER") hwf (Dev.ptmTimerRow_sent hrole hhalt hidle)
  case request =>
    exact fun s p hwf hdown hactive hhalt => run_eq hwf (Dev.ptmRequestRow_answered hdown hactive hhalt)
  case response =>
    exact fun s t2 t3 t4 t1 hwf hsent hrole =>
      run_eq (row := "PTM_RESPONSE") hwf (Dev.ptmResponseRow_served t2 t3 t4 hsent hrole)
  case fire => exact fun s path hwf hreach => run_access_eq hwf hreach rfl
  case clear => exact fun s path hwf hreach => run_access_eq hwf hreach rfl
  case timeMatch =>
    exact fun s d2 hwf hon hadd => run_eq (row := "CRUMB_TIME_MATCH") hwf (Dev.crumbTimeMatchRow_added hon hadd)
  case latch => exact fun s e rest hwf h => run_eq (row := "CRUMB_LATCH") hwf (Dev.crumbLatchRow_takesFirst h)

/-! # Telemetry rings and the collector (chapter 20, Observability; log entries 34 and 35) -/

theorem Dev.cclSweepRow_started (hon : d.on CCL_CFG_EN = true) (hidle : d.obs.sweep = none) :
    d.cclSweepRow =
      { d with obs := { d.obs with sweep := some { start := d.fab, last := d.fab, image := d.collectImage,
                                                   larder := d.on CCL_CFG_LOC, base := d.collectBase } } } := by
  simp only [Dev.cclSweepRow, hon, hidle, Bool.not_true, Option.isSome_none, Bool.false_eq_true, if_false]

section
variable {x : Sweep} (hsweep : d.obs.sweep = some x)
include hsweep

/-- A sweep whose writes went through ends into the Larder, or by a bus master (R639). -/
theorem Dev.cclSweepDoneRow_ended (hwrite : x.larder = true ∨ d.ctl.busMaster = true) :
    d.cclSweepDoneRow true = d.sweepEnd x := by
  simp only [Dev.cclSweepDoneRow, hsweep]
  exact if_pos (by simpa using hwrite)

theorem Dev.cclSweepDoneRow_failed :
    d.cclSweepDoneRow false = ({ d with obs := { d.obs with sweep := none } } : Dev).raise CCL_F_WRITE_FAIL 0 := by
  simp only [Dev.cclSweepDoneRow, hsweep, Bool.false_and, Bool.false_eq_true, if_false]

end

theorem Dev.tlmPopRow_answered {path : Nat} (hopen : d.pathOpen path = true) (hready : d.notYet .tlm = false) :
    d.tlmPopRow path = d.ringPop.2.emit (.readData path d.ringPop.1.toNat) := by
  simp only [Dev.tlmPopRow, hopen, hready, Bool.not_true, Bool.false_eq_true, if_false]

/-- Settles O36: an access by an open path is its effect; the other rows take the branch their hypotheses name. -/
theorem telemetryCommands : Obligations.TelemetryCommands := by
  refine ⟨?sweep, ?sweepEnded, ?sweepFailed, ?record, ?pop, ?head, ?enable⟩
  case sweep => exact fun s hwf hon hidle => run_eq (row := "CCL_SWEEP") hwf (Dev.cclSweepRow_started hon hidle)
  case sweepEnded =>
    rintro s _ x hwf hsweep rfl hwrite
    exact run_eq (row := "CCL_SWEEP_DONE") hwf (Dev.cclSweepDoneRow_ended hsweep hwrite)
  case sweepFailed =>
    rintro s _ x hwf hsweep rfl
    exact run_eq (row := "CCL_SWEEP_DONE") hwf (Dev.cclSweepDoneRow_failed hsweep)
  case record =>
    exact fun s r src type_ payload ok hwf hhalt => run_eq hwf (if_neg (Bool.eq_false_iff.1 hhalt))
  case pop => exact fun s path hwf hopen hready => run_eq hwf (Dev.tlmPopRow_answered hopen hready)
  case head => exact fun s path v hwf hreach => run_access_eq hwf hreach rfl
  case enable => exact fun s path hwf hreach => run_access_eq hwf hreach rfl

end Sys2Proof.Machine

namespace Sys2Proof.Machine

/-! # The data plane of a halted device (R607)

Which commands stand still while the device is halted is the model's choice (log entry 14). Most rows ask for `halted`
in their first guard; the rows that look for their subject first stand still whatever they find. -/

section
variable {d : Dev} (hhalt : d.halted = true)
include hhalt

/-! ## Completions, notices and records -/

theorem Dev.cplTimeoutRow_halted (p tag : Nat) : d.cplTimeoutRow p tag = d := by
  unfold Dev.cplTimeoutRow
  split
  · rfl
  · exact if_pos hhalt

theorem Dev.removalNoticeRow_halted (dev p ld : Nat) : d.removalNoticeRow dev p ld = d := by
  simp only [Dev.removalNoticeRow, hhalt, if_true]

theorem Dev.quenchNoticeRow_halted (agent domain dev : Nat) : d.quenchNoticeRow agent domain dev = d := by
  simp only [Dev.quenchNoticeRow, hhalt, if_true]

theorem Dev.acceptanceIndexRecordRow_halted (id : Nat) : d.acceptanceIndexRecordRow id = d := by
  unfold Dev.acceptanceIndexRecordRow
  split
  · rfl
  · exact if_pos (by simp [hhalt])

/-! ## Descriptors and MOVE_LIVE -/

theorem Dev.barrierCompleteRow_halted (q : Nat) : d.barrierCompleteRow q = d := by
  unfold Dev.barrierCompleteRow
  split
  · rfl
  · exact if_pos (by simp [hhalt])

theorem Dev.completionRecordRow_halted (q : Nat) (ok : Bool) : d.completionRecordRow q ok = d := by
  unfold Dev.completionRecordRow
  split
  · rfl
  · exact if_pos (by simp [hhalt])

theorem Dev.moveLiveCopyDoneRow_halted (m : Nat) : d.moveLiveCopyDoneRow m = d := by
  unfold Dev.moveLiveCopyDoneRow
  split
  · exact if_pos (by simp [hhalt])
  · rfl

theorem Dev.moveLiveRecopyDoneRow_halted (m : Nat) : d.moveLiveRecopyDoneRow m = d := by
  unfold Dev.moveLiveRecopyDoneRow
  split
  · exact if_pos (by simp [hhalt])
  · rfl

theorem Dev.moveLiveHoldReadyRow_halted (m : Nat) : d.moveLiveHoldReadyRow m = d := by
  unfold Dev.moveLiveHoldReadyRow
  split
  · exact if_pos (by simp [hhalt])
  · rfl

theorem Dev.moveLiveHoldTimeoutRow_halted (m : Nat) : d.moveLiveHoldTimeoutRow m = d := by
  unfold Dev.moveLiveHoldTimeoutRow
  split
  · exact if_pos (by simp [hhalt])
  · rfl

end

/-- Settles O59: a row whose first guard asks for `halted` takes that branch; the other rows have their own lemma. -/
theorem haltedDeviceDoesNothing : Obligations.HaltedDeviceDoesNothing := by
  refine ⟨?calDone, ?calTimeout, ?failedRetry, ?elasticErr, ?healthWindow, ?trainingControlBlock, ?laneLock, ?lockLost,
    ?drLockDone, ?drLockTimeout, ?drTrainDone, ?drTrainTimeout, ?drAlignDone, ?drAlignTimeout, ?drRetrainTimeout,
    ?partnerMargining, ?gpfAnswer, ?cplTimeout, ?dunrunBlock, ?linkInit, ?initResend, ?cellPresent, ?heldAdmit,
    ?egressSelect, ?bankDecision, ?egsSample, ?configurationRequest, ?mldLdLost, ?removalNotice, ?vppbPowerControl,
    ?snoopAnswer, ?targetAnswer, ?lineQueueHead, ?retryOffer, ?snoopTimeout, ?quenchNotice, ?quenchScanDone,
    ?acceptanceIndexRecord, ?trayHoldRelease, ?streamingWrite, ?drainWrite, ?drainRead, ?contextFetch, ?descriptorFetch,
    ?barrierComplete, ?completionRecord, ?moveLiveCopyDone, ?moveLiveRecopyDone, ?moveLiveHoldReady, ?moveLiveHoldTimeout,
    ?ptmTimer, ?ptmRequest, ?telemetryRecord, ?drRetrainDone, ?remoteSnoop⟩
  case ptmTimer => exact fun s hwf hhalt => run_eq (row := "PTM_TIMER") hwf (if_pos (by simp [hhalt]))
  case calDone | calTimeout | failedRetry | drLockTimeout | drTrainTimeout | gpfAnswer | linkInit | egsSample | snoopAnswer
      | targetAnswer | quenchScanDone | trayHoldRelease | streamingWrite | contextFetch | ptmRequest | remoteSnoop =>
    exact fun s _ hwf hhalt => run_eq hwf (if_pos (by simp [hhalt]))
  case drLockDone | drTrainDone | drAlignTimeout | drRetrainTimeout | drRetrainDone | initResend =>
    exact fun s _ hwf hhalt => run_eq hwf (if_neg (by simp [hhalt]))
  case elasticErr | healthWindow | drAlignDone | cellPresent | heldAdmit | egressSelect | mldLdLost | lineQueueHead | drainWrite
      | drainRead =>
    exact fun s _ _ hwf hhalt => run_eq hwf (if_pos (by simp [hhalt]))
  case trainingControlBlock | laneLock | lockLost | partnerMargining | dunrunBlock | bankDecision | vppbPowerControl | retryOffer
      | snoopTimeout | descriptorFetch =>
    exact fun s _ _ _ hwf hhalt => run_eq hwf (if_pos (by simp [hhalt]))
  case telemetryRecord => exact fun s _ _ _ _ _ hwf hhalt => run_eq hwf (if_pos hhalt)
  case configurationRequest => exact fun s _ _ _ _ _ _ hwf hhalt => run_eq hwf (if_pos (by simp [hhalt]))
  case cplTimeout => exact fun s p tag hwf hhalt => run_eq hwf (Dev.cplTimeoutRow_halted hhalt p tag)
  case removalNotice => exact fun s dev p ld hwf hhalt => run_eq hwf (Dev.removalNoticeRow_halted hhalt dev p ld)
  case quenchNotice =>
    exact fun s agent domain dev hwf hhalt => run_eq hwf (Dev.quenchNoticeRow_halted hhalt agent domain dev)
  case acceptanceIndexRecord =>
    exact fun s id hwf hhalt =>
      run_eq (row := "ACCEPTANCE_INDEX_RECORD") hwf (Dev.acceptanceIndexRecordRow_halted hhalt id)
  case barrierComplete => exact fun s q hwf hhalt => run_eq hwf (Dev.barrierCompleteRow_halted hhalt q)
  case completionRecord => exact fun s q ok hwf hhalt => run_eq hwf (Dev.completionRecordRow_halted hhalt q ok)
  case moveLiveCopyDone => exact fun s m hwf hhalt => run_eq hwf (Dev.moveLiveCopyDoneRow_halted hhalt m)
  case moveLiveRecopyDone => exact fun s m hwf hhalt => run_eq hwf (Dev.moveLiveRecopyDoneRow_halted hhalt m)
  case moveLiveHoldReady => exact fun s m hwf hhalt => run_eq hwf (Dev.moveLiveHoldReadyRow_halted hhalt m)
  case moveLiveHoldTimeout => exact fun s m hwf hhalt => run_eq hwf (Dev.moveLiveHoldTimeoutRow_halted hhalt m)

end Sys2Proof.Machine
